-- ==== Sys2Proof/Word.lean ====
section
/-! DEFINITION. The widths the manual names, and the one shape of sparse data the state uses. -/
namespace Sys2Proof

/-- A Transit Line content word, a selector, a command word (R233, R342). -/
abbrev Word := BitVec 64
/-- A 32-bit register value (R461). -/
abbrev Half := BitVec 32
/-- A TICK of the Hall Time Counter (R34). -/
abbrev Tick := BitVec 64

/-- Sparse data by key, in one canonical form: keys strictly rising, no entry equal to what an
unlisted key reads as. The operations on it stand in Machine/Ops.lean. -/
abbrev Table (α : Type) := List (Nat × α)

end Sys2Proof
end

