-- ==== Sys2Proof/Syntax.lean ====
section
/-! DEFINITION. The commands: one constructor for each row of spec/opcode_table.json, with the operands
the row's rules give it. Messages whose layout the manual gives are taken as their content words. -/
namespace Sys2Proof

/-- The two devices of the block: the TSU of one die, and one Jupin JD-96. -/
inductive Dev
  | tsu | jup
  deriving DecidableEq, Repr

/-- Where a register access comes from, in the order of R463. -/
inductive Src
  | image | cg | host | jtag
  deriving DecidableEq, Repr

/-- A timestamp TICK.FRAC (R35). -/
structure Stamp where
  tick : Tick
  frac : BitVec 16
  deriving DecidableEq, Repr

/-- The header of a command word sequence that the effect reads (R342): the issuing context of R343,
OVERRIDE and NOTIFY. -/
structure Hdr where
  ctx : BitVec 8
  override : Bool
  notify : Bool
  deriving DecidableEq, Repr

/-- The target word of a command (R342 word 1): TKIND 0 to 3. -/
inductive Target
  | self
  | path (p : BitVec 32)
  | job (job : BitVec 15) (first last : BitVec 17)
  | port (p : BitVec 7)
  deriving DecidableEq, Repr

/-- One staged write (R352). -/
structure StagedWrite where
  offset : BitVec 24
  value : Half
  deriving DecidableEq, Repr

/-- The UTC mapping record (R62). -/
structure MapRec where
  htcRef : BitVec 64
  taiSec : BitVec 48
  taiNs : BitVec 32
  rate : BitVec 32
  utcOffset : BitVec 16
  leap : BitVec 2
  quality : BitVec 2
  seq : BitVec 16
  deriving DecidableEq, Repr

/-- A Transit Line message: its link header fields and its contents (R235). -/
structure Msg where
  mtype : BitVec 8
  route : BitVec 2
  flow : BitVec 10
  addr : BitVec 32
  words : List Word
  /-- At a Jupin that sends it on: the port it came by, and the frames of that port's receive buffer it still occupies
  (R247). -/
  src : Option Nat := none
  frames : Nat := 0
  /-- Content words of a BULK message still to come: a Jupin sends on what has arrived (R249). -/
  want : Nat := 0
  deriving DecidableEq, Repr

/-- One exact floating-point sum lane (R190). -/
structure FAcc where
  s : Int
  nan : Bool
  pinf : Bool
  ninf : Bool
  allNegz : Bool
  deriving DecidableEq, Repr

/-- One ranked entry: a key with its index and its contributor (R193, R194). -/
structure KeyEntry where
  key : BitVec 16
  index : BitVec 24
  rank : BitVec 17
  deriving DecidableEq, Repr

/-- The running partial of one reduction, by operator (R186 to R200). -/
inductive Acc
  | none
  | gate (health : Bool)
  | isum (lanes : List Int)
  | fsum (lanes : List FAcc)
  | minmax (lanes : List Word) (nan : List Bool)
  | arg (lanes : List KeyEntry) (ties : List Bool) (nan : Bool)
  | topk (entries : List KeyEntry) (nan : Bool)
  | hist (counts : List Nat) (range : Bool)
  | bits (words : List Word)
  | near (sums : List Int)
  | digest (members : List (BitVec 17 × List Word))
  deriving DecidableEq, Repr

/-- A partial that one stage sends to the next (R180, R181): the manual gives what it carries and no
word layout. -/
structure VotePartial where
  job : BitVec 15
  group : BitVec 12
  gate : Bool
  failed : Bool
  stepLo : BitVec 16
  voteTick : BitVec 32
  beginTick : BitVec 32
  acc : Acc
  deriving DecidableEq, Repr

/-- What the network interface answers to an egress query (R424). -/
structure EgAns where
  count : BitVec 32
  path : BitVec 32
  deriving DecidableEq, Repr

/-- A request on the core synchronisation port, without its operation code (R422). -/
structure CoreReq where
  core : BitVec 11
  slot : BitVec 6
  count : BitVec 8
  remote : Bool
  rank : BitVec 17
  timeout : BitVec 32
  tag : BitVec 16
  deriving DecidableEq, Repr

/-- Who waits on an object: a channel's WAIT, or a core (R210). -/
inductive Waiter
  | chan (c : Fin 8)
  | core (n : BitVec 11)
  deriving DecidableEq, Repr

/-- Where a load goes (R348 LOAD_IMAGE): the device itself, or the generation of a down port. -/
inductive LoadDest
  | self
  | generation (port : BitVec 7)
  deriving DecidableEq, Repr

/-- Which memory an uncorrectable error falls in (R272). -/
inductive UeAt
  | journal (block : Nat)
  | restore (port : BitVec 7) (gen : Bool)
  deriving DecidableEq, Repr

/-- The thermal readings of R456. -/
inductive Reading
  | junction | stack | inlet | flow
  deriving DecidableEq, Repr

/-- The indexed windows of R466. -/
inductive Win
  | asym | vernier | ephemeris | smask | syncCfg | syncState | conj | voteFmt | digest
  | faultBlock | severity | completion | token
  deriving DecidableEq, Repr

/-- An edge at a converter input (R67, R68): its direction, the lower and the higher of its two levels in mV (of a differential
input, of the difference of its legs), and whether the pulse is 2 ticks wide or wider. -/
structure EdgeIn where
  rising : Bool
  lo : Int
  hi : Int
  wide : Bool
  deriving DecidableEq, Repr

/-- The identity fields a Jupin reads from a die (R281, R293, R465). -/
structure Identity where
  stepping : BitVec 8
  grade : BitVec 8
  mapClass : BitVec 16
  tsuVer : BitVec 8
  fwVersion : BitVec 31
  fwSet : Bool
  deriving DecidableEq, Repr

/-- The commands and events of the block. -/
inductive Instr
  -- Hall time
  | timeCodeSend (d : Dev) (link : Nat)
  | timeCodeRx (d : Dev) (link : Nat) (code : BitVec 128) (replayed peOk poOk : Bool)
  | parentLost (d : Dev) (link : Nat)
  | timeParentSkew (d : Dev)
  | timeMasterChange (masterLost otherLost : Bool)
  | timeLost (d : Dev)
  | coarseLoad (d : Dev)
  | dwellEnd (d : Dev)
  | crAcqFail (d : Dev)
  | timeResync (d : Dev) (h : Hdr)
  | mappingPublish
  | mappingRecordRx (r : MapRec)
  | mappingApply
  | mappingHoldover
  | setTod (h : Hdr) (taiSec : BitVec 48) (utcOffset : BitVec 16) (leap : BitVec 2)
  | ntpRequest (mode : BitVec 3) (key : Option (BitVec 16 × BitVec 128)) (body : List Word)
  | measureLink (h : Hdr) (port : BitVec 7) (reflect childSelected : Bool)
  | reflectComplete (port : BitVec 7) (pairs : Int × Int)
  | asymSwapGo (d : Dev) (link : Nat)
  | asymBankSwap (d : Dev) (link : Nat)
  -- Vernier
  | vernierEdge (d : Dev) (conv : Nat) (code : BitVec 8) (e : EdgeIn)
  | timestampDelivered (d : Dev) (conv : Nat)
  | calHit (d : Dev) (conv : Nat) (code : BitVec 8)
  | vernierBuildEnd (d : Dev) (conv : Nat)
  | vernierTableSwap (d : Dev) (conv : Nat)
  | vernierCalStale (d : Dev) (conv : Nat)
  | vrnSwapGo (d : Dev) (conv : Nat) (check : BitVec 16)
  | calVernier (d : Dev) (h : Hdr) (first last : Nat) (fg hold : Bool)
  | tempUpdate (d : Dev) (t : BitVec 8)
  -- Clock Room
  | refEdgeMissing (d : Dev) (ref : Fin 8)
  | wtrExpiry (d : Dev) (ref : Fin 8)
  | clockQualitySend (port : Nat)
  | clockQualityRx (d : Dev) (link : Nat) (word : BitVec 16)
  | qlTimeout (d : Dev) (ref : Fin 8)
  | esmcPduRx (input : Fin 4) (mac : BitVec 48) (valid : Bool) (ql : BitVec 4)
  | esmcTimeout (input : Fin 4)
  | refSelect (d : Dev)
  | crForce (d : Dev) (ref : Fin 8)
  | crManual (d : Dev) (ref : Fin 8)
  | crClear (d : Dev)
  | crLockout (d : Dev) (ref : Fin 8)
  | crUnlock (d : Dev) (ref : Fin 8)
  | crWtrClear (d : Dev) (ref : Fin 8)
  | crCmdApply (d : Dev)
  | cvBlockAverage (d : Dev)
  | pstepWrite (d : Dev) (step : Half)
  | bwForce (d : Dev) (en : Bool) (code : BitVec 3)
  | pulseEdgeOut (d : Dev) (k : Fin 2)
  | alignEdgeMissing (d : Dev) (k : Fin 2)
  -- channels
  | bind (c : Fin 8)
  | arm (c : Fin 8)
  | resume (c : Fin 8)
  | hold (c : Fin 8)
  | unbind (c : Fin 8)
  | startTickReached (c : Fin 8)
  | resumeTickReached (c : Fin 8)
  | launch (c : Fin 8)
  | wait (c : Fin 8)
  | branch (c : Fin 8)
  | loop (c : Fin 8)
  | vote (c : Fin 8) (coreRun : Bool)
  | signal (c : Fin 8) (eg : EgAns)
  | commit (c : Fin 8)
  | idle (c : Fin 8)
  | halt (c : Fin 8)
  | waitSatisfied (w : Waiter)
  | syncTimeout (w : Waiter)
  | stepWatchdog (w : Waiter)
  | stbyVerify (c : Fin 8) (check : BitVec 16)
  | verifyDone (c : Fin 8)
  | bankSwapGo (c : Fin 8) (next : BitVec 16) (src : Src)
  | selectorWrite (c : Fin 8) (n : Fin 16) (hi : Bool) (v : Half) (src : Src)
  | stepStart (c : Fin 8) (tick : Tick) (index : BitVec 16)
  | stepHold (c : Fin 8) (step : BitVec 64) (quota : Bool)
  | stepStretch (c : Fin 8) (step : BitVec 64) (stretch : BitVec 20)
  | stationBusyReport (c : Fin 8)
  | overrunReport (c : Fin 8) (core : BitVec 11) (station : Fin 8) (cycles : BitVec 31)
  | captureWrite (c : Fin 8) (stream : BitVec 13) (slot : BitVec 8) (word : BitVec 4) (last : Bool) (data : Word)
  | checkpointDelta (c : Fin 8) (delta : Word)
  | digestUpdate (c : Fin 8) (stream : Fin 16) (crc : Word) (busy : Bool)
  -- votes
  | voteContributionRx (port : Nat) (words : List Word)
  | votePartialRx (port : Nat) (p : VotePartial)
  | voteDeadline (group : BitVec 12)
  | voteResultRx (words : List Word)
  | selectorValid (c : Fin 8) (field : Fin 5)
  | resultLateDelivery (port : Nat) (job : BitVec 15) (rank : BitVec 17) (gate : Bool) (commitTick : Tick)
  -- objects, signals and Conjunctions
  | coreSet (r : CoreReq) (eg : EgAns)
  | coreClear (r : CoreReq) (eg : EgAns)
  | coreGive (r : CoreReq) (eg : EgAns)
  | coreTake (r : CoreReq)
  | coreWaitSet (r : CoreReq)
  | coreWaitClear (r : CoreReq)
  | coreWaitCount (r : CoreReq)
  | coreWaitTake (r : CoreReq)
  | coreEnter (r : CoreReq)
  | coreArrive (r : CoreReq)
  | remoteSignalRx (words : List Word)
  | niWatchReport (tag : BitVec 8)
  | signalVisible (tag : BitVec 8)
  | dbgSet (core : BitVec 11) (slot : BitVec 6)
  | dbgClear (core : BitVec 11) (slot : BitVec 6)
  | dbgPreset (core : BitVec 11) (slot : BitVec 6) (v : BitVec 8)
  | dbgForceRelease (core : BitVec 11) (slot : BitVec 6)
  | forceReleaseApply (rec : BitVec 12)
  | drainDone
  | localConjRelease (rec : BitVec 12)
  | conjArrivalRx (port : Nat) (words : List Word)
  | conjReleaseRx (words : List Word)
  | conjReleaseApply (rec : BitVec 12)
  | timeoutRecordClear
  -- Transit Line
  | frameRx (d : Dev) (link : Nat) (frame : List (BitVec 66))
  | ackTimeout (d : Dev) (link : Nat)
  | windowUpdateRx (d : Dev) (link : Nat) (flow : BitVec 10) (word : Word)
  | flowAbortRx (d : Dev) (link : Nat) (word : Word)
  | deliveryReportRx (port : Nat) (words : List Word)
  | linkControlRx (d : Dev) (link : Nat) (words : List Word)
  | linkSignalDetect (d : Dev) (link : Nat)
  | linkStateTimeout (d : Dev) (link : Nat)
  | linkTrainRetry (d : Dev) (link : Nat)
  | linkDown (port : Nat)
  | injPar (d : Dev) (link : Nat) (src : Src)
  | retrain (d : Dev) (link : Nat)
  | disable (d : Dev) (link : Nat) (v : Bool)
  | fenceRx (d : Dev) (link : Nat) (words : List Word)
  | fenceTick (port : Nat)
  | peerFenceRx (words : List Word)
  | niFilterAck (full : Bool)
  -- inside the Jupin
  | jpMemberLost (side : Bool) (peerDownReported : Bool)
  | jpOpTimeout (entry : BitVec 16)
  | memoryUe (where_ : UeAt)
  | journalAppend (port : Nat) (words : List Word)
  | journalDurable (record : Nat)
  | journalAgeOut (job : BitVec 15) (seqId : BitVec 40)
  | shadowAck (job : BitVec 15) (rank : BitVec 17) (step : BitVec 64)
  -- images and restores
  | loadImage (d : Dev) (h : Hdr) (stage : Nat) (dest : LoadDest)
  | imageSectionRx (d : Dev) (frame : List Word)
  | imageSeal (d : Dev)
  | restore (h : Hdr) (path : BitVec 32) (sections : BitVec 3) (gen : Bool)
  | restoreIdentityCheck (port : BitVec 7) (id : Identity)
  | restoreStreamRx (words : List Word)
  | restoreComplete (port : BitVec 7) (checkTick : Option Tick)
  -- job commands
  | startJob (h : Hdr) (job : BitVec 15) (stage : Nat) (margin : BitVec 32)
  | teardownJob (h : Hdr) (job : BitVec 15)
  | holdJob (h : Hdr) (job : BitVec 15) (step : BitVec 64)
  | resumeJob (h : Hdr) (job : BitVec 15) (tick : Tick)
  | stretchJob (h : Hdr) (job : BitVec 15) (step : BitVec 64) (stretch : BitVec 20)
  | setQuota (h : Hdr) (job : BitVec 15) (bytes : BitVec 64)
  | fence (h : Hdr) (path : BitVec 32) (job : Option (BitVec 15)) (tick : Tick)
  | bringIn (h : Hdr) (job : BitVec 15) (rank : BitVec 17) (spare : BitVec 32) (dual : Bool)
  | remapRank (h : Hdr) (job : BitVec 15) (rank : BitVec 17) (path : BitVec 32) (channel : Fin 8)
  | shutter (h : Hdr) (tick : Tick) (set : BitVec 4)
  | readPlate (d : Dev) (h : Hdr) (archived : Option (BitVec 32)) (set : BitVec 4) (block : BitVec 8) (addr : BitVec 48)
  -- commit groups
  | cgBegin (d : Dev) (h : Hdr) (members : List Target)
  | cgStage (d : Dev) (h : Hdr) (handle : Half) (target : Target) (writes : List StagedWrite)
  | cgCommit (d : Dev) (h : Hdr) (handle : Half) (tick : Tick)
  | cgAbort (d : Dev) (h : Hdr) (handle : Half)
  | cgStageMsg (d : Dev) (words : List Word)
  | cgPrepareMsg (d : Dev) (words : List Word) (routersReady : BitVec 2)
  | cgAnswerMsg (d : Dev) (link : Nat) (words : List Word)
  | cgCommitMsg (d : Dev) (words : List Word)
  | cgAbortMsg (d : Dev) (words : List Word)
  | cgPrepareDeadline (d : Dev) (handle : Half)
  | cgApply (d : Dev) (handle : Half)
  | cgDeliveryCheck (port : Nat) (handle : Half)
  | cgPost (d : Dev) (handle : Half)
  | completionMsgRx (port : Nat) (words : List Word)
  | completionFree (d : Dev) (entry : BitVec 16)
  -- faults and recovery
  | faultReportRx (port : Nat) (words : List Word)
  | gradingWindowClose (d : Dev) (block : Nat) (code : BitVec 16)
  | graceExpiry (d : Dev) (block : Nat)
  | faultClear (d : Dev) (block : Nat)
  | severeClear (d : Dev) (block : Nat)
  | fltInjArm (table : BitVec 3) (c : Fin 8) (word : BitVec 16) (src : Src)
  | deferredExpulsion
  | jobRerun (job : BitVec 15)
  | copyDigestCompare (job : BitVec 15) (rank : BitVec 17) (partner spare : Word)
  | recomputeMatch (job : BitVec 15) (rank : BitVec 17) (spare : BitVec 32) (digest : Word)
  | recomputeLimit (job : BitVec 15) (rank : BitVec 17)
  | supplyWarn
  | supplyWarnClear (sumsOk : Bool)
  | brownoutFence
  | fabricStaleGen (c : Fin 8)
  -- debug, images of state, flash
  | dbgChal (d : Dev)
  | dbgOpen (d : Dev)
  | debugTokenChecked (d : Dev)
  | dbgClose (d : Dev)
  | debugSessionExpiry (d : Dev)
  | dbgStop (c : Fin 8)
  | dbgContinue (c : Fin 8)
  | lifecycleRead (d : Dev) (copy0 copy1 : List Word)
  | shutterRx (d : Dev) (link : Nat) (words : List Word)
  | shutterLatch (d : Dev)
  | flashRead (copy : Bool)
  | flashErase (copy : Bool)
  | flashProgram (copy : Bool)
  | fwVersionWrite (v : Half)
  -- power and reset
  | wakeStart
  | pmStateChange (state : Fin 5)
  | lateWake
  | wakeReportRx (port : Nat) (words : List Word)
  | powerOnReset
  | mainRailFall
  | dieResetInput (pllLoss : Bool)
  | dieRst
  | chRst (c : Fin 8)
  | linkRst (u : Fin 2)
  | budgetWrite (job : BitVec 15) (watts : Half)
  | jpPowerOnReset (board : BitVec 8 × BitVec 24)
  | jpMainReset (rise : Bool)
  | perst (level : Bool)
  | thermalWarn (r : Reading) (value : Int)
  | thermalTrip (r : Reading) (value : Int)
  | thermalClear (r : Reading) (trip : Bool)
  -- register accesses
  | portReturnService (port : BitVec 7)
  | logFree (n : BitVec 13)
  | divLogClear
  | injDigestArm (group : BitVec 12) (src : Src)
  | indexedWindowAccess (d : Dev) (src : Src) (w : Win) (data : Nat) (write : Option Half)
  | htcRead (d : Dev)
  | splitReadLatch (d : Dev) (off : Nat)
  | registerWrite (d : Dev) (src : Src) (off : Nat) (strobe : BitVec 4) (v : Half)
  -- link and power events
  | frameLaunch (d : Dev) (link : Nat)
  | cvUpdate (d : Dev)
  | trainLock (d : Dev) (link : Nat)
  | frameLock (d : Dev) (link : Nat)
  | laneLoss (d : Dev) (link : Nat)
  | streamEnd (c : Fin 8)
  | mainResetRelease
  | appendWindowWrite (words : List Word)
  deriving DecidableEq, Repr

end Sys2Proof
end

