-- ==== Sys2Proof/Decode.lean ====
section
/-! DEFINITION. The command a word spells. The manual's opcode table gives no row any bits: its commands are register
accesses, messages and events, so no word spells one. -/
namespace Sys2Proof

/-- The command that a word of `nbits` bits spells by the table's bits: none, for every row. -/
def decodeTableWord (_nbits _w : Nat) : Option Instr := none

end Sys2Proof
end

