-- ==== Sys2Proof/Config.lean ====
section
/-! DEFINITION. What one implementation fixes and the manual does not state: free values and
uninterpreted functions. What has a body here only holds such a value within the bounds that the manual sets. -/
namespace Sys2Proof.Config

/-- A value the manual leaves open, fresh for every counter value (assumption 5). -/
opaque freeValue : Nat → BitVec 64

/-- The change the outer loop makes to CV at one LOOP edge (R86, R102). The manual gives bandwidth,
damping and peaking and no filter coefficients, and a filter may remember: a function of the counter of free values, the
bandwidth code, the phase error the loop sees and the present CV (assumption 11). -/
opaque loopFilter : Nat → Nat → Int → Int → Int

/-- The preset of CV from the slope of theta over the 16 exchanges of the coarse phase (R102): the manual gives
no estimator (assumption 11). -/
opaque cvPreset : List Int → Int
/-- The rate the root fits to successive labelled pulses (R62): the manual gives no fit (assumption 13). -/
opaque rateFit : List (BitVec 64 × BitVec 48) → BitVec 32
/-- The medium part of R48 for an entry whose D0 is zero, of A_MED0 and the averaged round trip (assumption 14). -/
opaque asymZeroD0 : Int → Int → Int

/-- SHA-384 of a list of words (FIPS 180-4, named by R371): uninterpreted (assumption 6). -/
opaque sha384 : List (BitVec 64) → BitVec 384
/-- ECDSA P-384 verification of a signature over a hash (FIPS 186-5, named by R371): public key words,
signature words, hash (assumption 6). -/
opaque ecdsaVerify : List (BitVec 64) → List (BitVec 64) → BitVec 384 → Bool
/-- AES-CMAC of a request under a key (RFC 8573, named by R64) (assumption 6). -/
opaque aesCmac : BitVec 128 → List (BitVec 64) → BitVec 128
/-- The SHA-384 of the vendor root key, in mask ROM (R371). -/
opaque vendorKeyDigest : BitVec 384

/-- Identity fuses (R464, R374): stepping, grade, map class, core count and DEVICE_ID of the die;
`true` names the Jupin (assumption 7). -/
opaque fuseStepping : Bool → BitVec 8
opaque fuseGrade : Bool → BitVec 8
opaque fuseMapClass : BitVec 16
opaque coreFuse : Nat
opaque fuseDeviceId : Bool → BitVec 64
/-- Transmit delay of link end n in the identity fuses, signed FRAC (R50, R238). -/
opaque fuseTxDelay : Bool → Nat → Int
/-- Input delay of reference input n at a temperature, signed FRAC (R66, R112). -/
opaque fuseInDelay : Nat → Int → Int
/-- Loopback delay of pulse output k at a temperature, signed FRAC (R66, R112). -/
opaque fuseLoopDelay : Nat → Int → Int
/-- Transmit and receive delays of the two ends of the link on Jupin port n, from the identity fuses of both, in FRAC at a
temperature (R50); `true` names the far end. -/
opaque fuseTxAt : Bool → Nat → Int → Int
opaque fuseRxAt : Bool → Nat → Int → Int
/-- Coefficients of those delays, signed, 1/16 FRAC per degree Celsius (R47, R50). -/
opaque fuseTxCoef : Bool → Nat → Int
opaque fuseRxCoef : Bool → Nat → Int

/-- Whether, of a core and a station, the stream program STREAM of that station's table names a capture slot (R136, R148,
R423): the stations' own tables, which the manual leaves to the die (assumption 12). -/
opaque streamNamesSlot : Nat → Nat → Nat → Nat → Bool

/-- Whether a Jupin's logical neighbours place two ports on one sled is fixed by R12; the canonical map
class of the die on a down port, as its identity registers report it (R464, R472) (assumption 7). -/
opaque portMapClass : Nat → BitVec 16

/-- Ticks after its acceptance by which a command must complete, by opcode: the tracker's DEADLINE, of which R270 gives
no value. -/
opaque cmdDeadline : BitVec 8 → BitVec 64
/-- Ticks after its opening by which another operation must complete, by KIND (R270): no value is given either. -/
opaque opDeadline : Nat → BitVec 64

/-- The root pair number that a root's image sets (R17), of its digest: the manual gives it no register. -/
opaque rootPair : BitVec 384 → BitVec 8
/-- HOLD_LIMIT of an image in ticks (R55), of its digest: the register map gives it no field (assumption 17). -/
opaque holdLimit : BitVec 384 → Nat
/-- WINDOW that an image gives a flow, of its digest; none: the default (R248): no field of the manual holds it. -/
opaque flowWindow : BitVec 384 → BitVec 10 → Option Nat
/-- SPAN of a vote group as an image means it for a die: the die's format entry has no field for it (R30, R174). -/
opaque groupSpan : BitVec 384 → BitVec 12 → Nat
/-- Side B is the active side of a job for the die's pair as a TSU's image names it, of its digest (R16): no field of the
manual holds it. -/
opaque jobSideB : BitVec 384 → BitVec 15 → Bool
/-- The region that the region boundary words give a stack: 0 RESTORE, 1 JOURNAL, 2 PLATE, 3 STAGE (R271, R473): the manual gives
them no layout. -/
opaque stackRegion : List Half → Nat → Fin 4
/-- BULK flow of a job's journal appends (R247, R273): the manual gives it no number (assumption 200). -/
opaque jobFlow : BitVec 15 → BitVec 10
/-- Partner of a rank of a job as an image names it, of its digest (R279): no field of the manual holds it (assumption 97). -/
opaque partnerOf : BitVec 384 → BitVec 15 → BitVec 17 → Option (BitVec 17)
/-- SHADOW_LAG, RERUN_MAX and RECOMPUTE_LIMIT as an image gives them for a job, of its digest; none: the default (R279, R326,
R334). No field of the manual holds them: they take the widths of a step number, of RERUN and of a tick (assumption 171). -/
opaque shadowLag : BitVec 384 → BitVec 15 → Option (BitVec 64)
opaque rerunMax : BitVec 384 → BitVec 15 → Option (BitVec 8)
opaque recomputeLimit : BitVec 384 → BitVec 15 → Option (BitVec 64)
/-- The static inputs tie_wload_base and tie_inq_base of the die (R432). -/
opaque tieWloadBase : BitVec 48
opaque tieInqBase : BitVec 48
/-- The latency ties of the die's map class, as the integrator sets them (R417). -/
opaque tieLaunch : Nat
opaque tieRet : Nat
opaque tieStart : Nat

/-- The TSU_DEFAULT_* ties of the outputs, bit for bit (R436); the integrator must tie the pads' enables to 0. -/
opaque tieMainRstN : Bool
opaque tiePwr : BitVec 3
opaque tieKeep : BitVec 2
opaque tieClk : Bool
opaque tieIrq : BitVec 2
opaque tieValid : Nat → Bool
opaque tieData : Nat → Bool
def tiePadOe : BitVec 3 := 0

/-- CORES: 1 to 2,048 (R204, R464). -/
def fuseCores : BitVec 12 := BitVec.ofNat 12 (1 + coreFuse % 2048)

/-- LAUNCH_LAT and RET_LAT: 1 to 8 ticks (R417). -/
def launchLat : Nat := 1 + tieLaunch % 8
def retLat : Nat := 1 + tieRet % 8
/-- From a tick of the block to the tick on which it holds every report of it (R418). -/
def judgeLat : Nat := launchLat + retLat
/-- START_LAT: LAUNCH_LAT + RET_LAT + 1 to 32 ticks (R417). -/
def startLat : Nat := judgeLat + 1 + tieStart % (32 - judgeLat)

end Sys2Proof.Config
end

