-- ==== Sys2Proof/Machine/State.lean ====
section
/-! DEFINITION. The state of the block as plain data: one TSU, one Jupin JD-96, the outputs of their ports,
and the queue of waiting commands. The default of every field is its value at reset. -/
namespace Sys2Proof.Machine

/-! ## Hall time (R34 to R64) -/

/-- The time state (R54), codes 0 to 4. -/
inductive TimeState
  | unset | acquiring | locked | degraded | lost
  deriving DecidableEq, Repr

/-- The time core of a device: the counter, its latch and what acquisition needs (R34, R54, R61). -/
structure TimeCore where
  htc : Tick := 0
  /-- TSU_HTC_HI as latched by the last read of TSU_HTC_LO. -/
  htcHi : Half := 0
  state : TimeState := .unset
  epochId : BitVec 16 := 0
  /-- Die temperature, signed, in degrees Celsius. -/
  temp : BitVec 8 := 0
  /-- Consecutive exchanges of the first uplink with the uplinks' offsets further apart than SKEW_LIMIT (R46). -/
  skewCount : Nat := 0
  /-- As skewCount, at the exchanges of the second uplink (R46). -/
  skewCountB : Nat := 0
  /-- Tick at which the time state entered DEGRADED through holdover (R55). -/
  holdSince : Option Tick := none
  /-- First valid exchange E of the acquisition in progress (R102). -/
  acqStart : Option Tick := none
  /-- Handle of a TIME_RESYNC waiting for LOCKED, and the tick it was accepted (R350). -/
  resync : Option (Half × Tick) := none
  /-- HOLD_LIMIT of the image, ticks (R55). -/
  holdLimit : Nat := 16777216
  /-- Time transfer moved to the always-on uplink (R60). -/
  lowRate : Bool := false
  /-- The 8,192-tick boundary from which the full rate has resumed (R60). -/
  fullFrom : Tick := 0
  /-- Two parents with different EPOCH_IDs (R38): no new job is bound. -/
  epochSplit : Bool := false
  deriving DecidableEq, Repr

/-- The time registers and averages of one link end (R40 to R52, R61). -/
structure LinkTime where
  /-- Averaged theta, signed FRAC. -/
  offset : Int := 0
  /-- Averaged round trip, FRAC. -/
  rtd : Int := 0
  /-- Current asymmetry A of R48, signed FRAC. -/
  asym : Int := 0
  /-- x of the last 1,024 valid exchanges, newest first (R42). -/
  xs : List Int := []
  /-- D of the last 1,024 valid exchanges, newest first (R42). -/
  ds : List Int := []
  /-- Phase the device's own engine had moved at each of those exchanges (R98). -/
  ph : List Int := []
  /-- Invalid exchanges, saturating (R43, R61). -/
  missed : BitVec 16 := 0
  /-- Consecutive invalid exchanges (R44). -/
  consecInvalid : Nat := 0
  /-- SEQ of the last code received from the far end (R43). -/
  lastSeq : Option (BitVec 5) := none
  /-- t1 of the open exchange: the departure stamp of M's code. -/
  t1 : Option Stamp := none
  /-- t2 of the open exchange: the arrival of M's code at C. -/
  t2 : Option Stamp := none
  /-- t3 of the open exchange: the departure stamp of C's code. -/
  t3 : Option Stamp := none
  /-- At M: arrival of C's latest code, returned as ECHO. -/
  t4 : Option Stamp := none
  /-- A code of the open exchange was replayed, failed parity, was out of sequence or unqualified. -/
  bad : Bool := false
  /-- TEMP of the far end's latest valid code (R48). -/
  farTemp : BitVec 8 := 0
  /-- STATE of the far end's latest code (R43). -/
  farState : BitVec 3 := 0
  /-- The parent was reported lost (R44) and the average has not refilled since. -/
  lost : Bool := false
  /-- Transmit converter stamp minus hand-over, last 1,024 departures, newest first (R238). -/
  txd : List Int := []
  /-- Hand-over tick of the time code whose departure the transmit converter has yet to stamp. -/
  handover : Option Tick := none
  /-- Timestamp of the last code, as the receive converter delivered it and no code has taken yet (R71). -/
  arrived : Option Stamp := none
  /-- Phase the device's own engine had moved at t2 and at t3 of the open exchange (R98). -/
  mv2 : Int := 0
  mv3 : Int := 0
  /-- At M: the child exchanges at the low rate, by the SEQ of its codes (R60). -/
  lowFar : Bool := false
  /-- Exchanges since the link entered TIMING (R255). -/
  exchanges : Nat := 0
  deriving DecidableEq, Repr

/-- The two banks of asymmetry entries of one link end, with their check and swap (R47, R52, R61). -/
structure Asym where
  bank0 : BitVec 128 := 0
  bank1 : BitVec 128 := 0
  /-- Active bank. -/
  bank : Bool := false
  go : Bool := false
  bad : Bool := false
  check : BitVec 16 := 0
  /-- Reflect measurement in progress: the command's handle, if one waits (R50). -/
  reflect : Option Half := none
  /-- An entry measured by reflection that waits for its swap. -/
  measured : Bool := false
  /-- A_MED0 as reflected, from the end of the measurement to the first averaged round trip (R50). -/
  medium : Option Int := none
  deriving DecidableEq, Repr

/-! ## Vernier (R65 to R85) -/

/-- One converter (R65, R66) with its tables, build and counters. Widths read 256 where unlisted. -/
structure Conv where
  /-- TICK of the last accepted edge (R71). -/
  lastEdge : Option Tick := none
  /-- The conversion in progress: TICK and code of the edge, and whether it is a ring hit. -/
  busy : Option (Tick × BitVec 8) := none
  lastValid : Bool := false
  lastCode : BitVec 8 := 0
  lastFrac : BitVec 16 := 0
  lastTickLo : Half := 0
  /-- The two bin-width tables by bank. -/
  tbl0 : Table (BitVec 16) := []
  tbl1 : Table (BitVec 16) := []
  valid0 : Bool := false
  valid1 : Bool := false
  bank : Bool := false
  running : Bool := false
  hits : Nat := 0
  hist : Table Nat := []
  lastHist : Table Nat := []
  /-- A held candidate table (R75). -/
  cand : Option (Table (BitVec 16)) := none
  fails : BitVec 4 := 0
  stale : Bool := false
  deriving DecidableEq, Repr

/-- What a converter holds beside its tables: ages, counters, swaps, the command that owns its build. -/
structure ConvCtl where
  /-- End of the build that produced the active table (AGE); none reads 0xFFFF. -/
  builtAt : Option Tick := none
  builtTemp : BitVec 8 := 0
  /-- End and temperature of the build whose table waits to be swapped in. -/
  newAt : Option Tick := none
  newTemp : BitVec 8 := 0
  wrIgn : Bool := false
  collide : BitVec 16 := 0
  dropped : BitVec 16 := 0
  /-- A checked table waits for the next multiple of 8,192 ticks (R76). -/
  swapPend : Bool := false
  /-- The multiple of 8,192 on which it takes effect, and the tick of the last swap (R76). -/
  swapAt : Tick := 0
  swappedAt : Option Tick := none
  /-- Handle of the CAL_VERNIER whose build made the table that waits (R83). -/
  swapOwner : Option Half := none
  /-- GO of TSU_VRN_SWAP: the table that waits was written by software (R80). -/
  go : Bool := false
  bad : Bool := false
  check : BitVec 16 := 0
  /-- Handle of the CAL_VERNIER whose build this is (R82). -/
  owner : Option Half := none
  hold : Bool := false
  lastService : Option Tick := none
  lastHit : Option Tick := none
  deriving DecidableEq, Repr

/-- A CAL_VERNIER in progress (R81, R83). -/
structure CalCmd where
  handle : Half
  first : Nat
  last : Nat
  /-- Converters whose build, and swap where one is due, has not ended. -/
  left : List Nat
  built : Nat
  swapped : Nat
  held : Nat
  rejected : Bool
  worst : Nat
  endTick : Tick
  deriving DecidableEq, Repr

/-! ## Clock Room (R86 to R114) -/

/-- Clock Room state (R99), codes 0 to 4. -/
inductive CrState
  | free | acquire | track | holdover | lowrate
  deriving DecidableEq, Repr

/-- Reference state (R90), codes 0 to 3. -/
inductive RefState
  | absent | failed | pending | qualified
  deriving DecidableEq, Repr

/-- Clock Room commands (R96). -/
inductive CrOp
  | force | manual | clear | lockout | unlock | wtrClear
  deriving DecidableEq, Repr

/-- One reference (R89 to R94, R114). -/
structure Ref where
  state : RefState := .absent
  /-- Last valid QL; 0xF also when FAILED. -/
  qlRx : BitVec 4 := 0xF
  /-- Tick of the last valid clock-quality word or ESMC PDU; none when the QL is FAILED. -/
  qlTick : Option Tick := none
  chain : BitVec 4 := 0
  hold : Bool := false
  lockedOut : Bool := false
  /-- Start of the wait-to-restore (R94). -/
  wtrStart : Option Tick := none
  /-- The wait-to-restore has expired or was cleared since the signal became good. -/
  wtrDone : Bool := false
  /-- Consecutive missing or out-of-window edges of an external input (R90). -/
  missing : Nat := 0
  /-- Consecutive good edges of an external input. -/
  good : Nat := 0
  /-- Last edge of an external input. -/
  lastEdge : Option Stamp := none
  /-- Last 16 edge intervals, newest first, in FRAC (R112). -/
  intervals : List Int := []
  /-- Phase error the loop would see on this reference, FRAC. -/
  err : Int := 0
  /-- Predicted next edge of an external input, FRAC since tick 0 (R90). -/
  pred : Option Int := none
  /-- Edge to which the predicted edges of an external reference are anchored, FRAC since tick 0 (R100). -/
  anchor : Option Int := none
  deriving DecidableEq, Repr

/-- One pulse output (R111 to R114). -/
structure Pulse where
  aligned : Bool := false
  alignLost : Bool := false
  missed : BitVec 8 := 0
  /-- Consecutive missing input edges (R113). -/
  missRun : Nat := 0
  /-- Output edges still withheld after a target jump (R113). -/
  mute : Nat := 0
  /-- Last placed edge, in FRAC since tick 0; none before the first. -/
  lastOut : Option Int := none
  /-- Output delay samples measured on the loopback, newest first (R112). -/
  dOut : List Int := []
  /-- The input's last edge, its last 16 intervals, newest first, and its predicted next edge at the ball (R112). -/
  lastIn : Option Int := none
  ivals : List Int := []
  pred : Option Int := none
  /-- Input edges were missing, and the output has not reached its target since (R113). -/
  ret : Bool := false
  /-- The active edge driven last has no inactive edge yet: its instant, WIDTH later (R111). -/
  offAt : Option Int := none
  deriving DecidableEq, Repr

/-- The Clock Room of a device. -/
structure ClockRoom where
  state : CrState := .free
  /-- CV, signed, 2^-40 units (R86). -/
  cv : Int := 0
  holdCv : Int := 0
  holdShort : Bool := false
  bwCur : BitVec 3 := 0
  selected : Option (Fin 8) := none
  /-- The link of the selected reference that is followed, where the reference has several (R89). -/
  selVia : Option Nat := none
  /-- The reference selected last, whose CHAIN goes on to be counted while none is selected (R92). -/
  lastSel : Option (Fin 8) := none
  /-- TRACK was entered from HOLDOVER and LOCKED has not returned (R107). -/
  returning : Bool := false
  /-- The phase move of the coarse load: its whole, what of it is done, and the tick it starts (R102). -/
  coarseTotal : Int := 0
  coarseDone : Int := 0
  coarseAt : Tick := 0
  /-- 0 automatic, 1 manual, 2 forced. -/
  selMode : BitVec 2 := 0
  /-- The reference a FORCE or MANUAL names, while it stands. -/
  forceRef : Option (Fin 8) := none
  /-- The command waiting for its exchange boundary. -/
  pend : Option (CrOp × Fin 8) := none
  cmdErr : BitVec 3 := 0
  pstepRemain : Int := 0
  errRange : Bool := false
  errBound : Bool := false
  target : Int := 0
  /-- Fraction of a FRAC the phase-step engine has accumulated, in 2^-24 FRAC (R108). -/
  pstepAcc : Nat := 0
  /-- Phase the phase-step engine has moved since reset, FRAC (R98). -/
  moved : Int := 0
  /-- At the root master: budget of R101 saved towards one unit of CV. -/
  rateAcc : Nat := 0
  /-- Last block averages with their validity, newest first (R105). -/
  blocks : List (Int × Bool) := []
  blockSum : Int := 0
  blockCount : Nat := 0
  blockOk : Bool := false
  /-- Start of the dwell in progress (R102, R103), or of the average of R107. -/
  dwellStart : Tick := 0
  /-- No exchange of the dwell has left LOCK_THR. -/
  dwellOk : Bool := false
  qlUnknown : BitVec 16 := 0
  refs : Table Ref := []
  pulses : Table Pulse := []
  deriving DecidableEq, Repr

/-! ## Transit Line (R232 to R262) -/

/-- Link state (R255), codes 0 to 4. -/
inductive LState
  | down | train | align | timing | service
  deriving DecidableEq, Repr

/-- Words of a frame that belong to one message. -/
structure FramePart where
  /-- The jobs of the message that the words belong to (R253). -/
  jobs : List (BitVec 15)
  /-- The first of the words is the message's link header. -/
  starts : Bool
  words : List Word
  deriving DecidableEq, Repr

/-- A frame as it is retained: the header fields that a replay keeps, words 1 to 7, and the messages they belong to. -/
structure Frame where
  hdr : Word
  words : List Word
  parts : List FramePart := []
  deriving DecidableEq, Repr

/-- The receiving half of a link end (R239, R247). -/
structure LinkRx where
  nextFseq : BitVec 8 := 0
  nextTseq : BitVec 8 := 0
  vseqTime : BitVec 12 := 0
  vseqStep : BitVec 12 := 0
  vseqBulk : BitVec 12 := 0
  /-- STEP and BULK frames are discarded until the expected FSEQ arrives (R239). -/
  discarding : Bool := false
  discardingT : Bool := false
  /-- The TIME stream starts anew: any TIME sequence number is taken until SERVICE (R258). -/
  freshT : Bool := false
  nak : Bool := false
  tnak : Bool := false
  /-- Words of the message being received, link header word first, by VC. -/
  partTime : List Word := []
  partStep : List Word := []
  partBulk : List Word := []
  /-- Receive-buffer frames in use. -/
  heldStep : Nat := 0
  heldBulk : Nat := 0
  /-- Of those, the frames of the STEP message being received. -/
  partFrames : Nat := 0
  /-- Egress port to which the BULK message being received is sent on as it comes (R249). -/
  passBulk : Option Nat := none
  /-- Frames freed since the last header sent (CR_STEP, CR_BULK). -/
  freedStep : Nat := 0
  freedBulk : Nat := 0
  deriving DecidableEq, Repr

/-- The sending half of a link end (R240 to R248). -/
structure LinkTx where
  txFseq : BitVec 8 := 0
  txTseq : BitVec 8 := 0
  vseqTime : BitVec 12 := 0
  vseqStep : BitVec 12 := 0
  vseqBulk : BitVec 12 := 0
  ackRx : BitVec 8 := 0
  tackRx : BitVec 8 := 0
  /-- Retained STEP and BULK frames, oldest first (R240). -/
  retained : List Frame := []
  /-- Retained TIME frames, oldest first (R242). -/
  retainedT : List Frame := []
  /-- Next FSEQ to relaunch while a replay runs. -/
  replayAt : Option (BitVec 8) := none
  replayT : Option (BitVec 8) := none
  stepCr : Nat := 0
  bulkCr : Nat := 0
  /-- Messages queued, by VC, in order. -/
  qTime : List Msg := []
  qStep : List Msg := []
  qBulk : List Msg := []
  /-- Time code waiting for its slot (R246). -/
  timeCode : Option (BitVec 128) := none
  quality : Option (BitVec 16) := none
  /-- Words of the message in progress still to be framed, by VC. -/
  curStep : List Word := []
  curBulk : List Word := []
  /-- Those messages, as they stood in their queue. -/
  curStepMsg : Option Msg := none
  curBulkMsg : Option Msg := none
  /-- STEP frames sent ahead of BULK in the current 128-frame period (R246). -/
  stepSlots : Nat := 0
  /-- The last contended position went to STEP. -/
  alt : Bool := false
  /-- Tick of the last advance of ACK while frames were retained (R240). -/
  ackTick : Tick := 0
  /-- As ackTick, for TIME frames (R242). -/
  tackTick : Tick := 0
  /-- Handle and kind of the STEP message in progress, when it is to be delivered (R252). -/
  curHandle : Option (Half × BitVec 8) := none
  /-- Buffers the far end announced (R257). -/
  stepBuf : Nat := 0
  bulkBuf : Nat := 0
  /-- Tick of the last launch (R232). -/
  lastLaunch : Option Tick := none
  /-- Flow served last (R249). -/
  lastFlow : Nat := 0
  deriving DecidableEq, Repr

/-- A fence held at a port (R253). -/
structure Fence where
  job : BitVec 15
  domain : Bool
  path : BitVec 32
  tick : Tick
  /-- Its tick has come, and the port has begun it. -/
  begun : Bool := false
  deriving DecidableEq, Repr

/-- A BULK flow on a link (R248). -/
structure Flow where
  num : BitVec 10
  window : Nat
  sent : Nat
  /-- Last consumed count the destination reported. -/
  credit : Nat
  /-- Bytes consumed here, and at the last window update sent. -/
  consumed : Nat
  reported : Nat
  /-- At a Jupin that sends the flow on, the port it comes by (R248). -/
  via : Option Nat := none
  deriving DecidableEq, Repr

/-- The state machine, counters and identity of a link end (R255 to R262). -/
structure LinkCtl where
  lstate : LState := .down
  timeOnly : Bool := false
  flight : BitVec 16 := 0
  cntParity : BitVec 16 := 0
  cntReplay : BitVec 16 := 0
  cntAckTo : BitVec 16 := 0
  cntRetrains : BitVec 8 := 0
  injPar : Bool := false
  retrain : Bool := false
  disable : Bool := false
  /-- Episodes in a row that began with the same frame (R245). -/
  sameReplay : Nat := 0
  sameFseq : BitVec 8 := 0
  sameReplayT : Nat := 0
  sameTseq : BitVec 8 := 0
  /-- Word lock, deskew and frame lock (R255 ALIGN). -/
  frameLock : Bool := false
  /-- Start ticks of the episodes of the last 2^20 ticks. -/
  episodes : List Tick := []
  trainFails : Nat := 0
  since : Tick := 0
  /-- Tick at which the link last left SERVICE for DOWN (R261). -/
  downSince : Option Tick := none
  /-- LINK_DOWN was raised for the present outage. -/
  downRaised : Bool := false
  session : BitVec 16 := 0
  /-- SESSION of the far end when the link was last in SERVICE, and as ALIGN last showed it (R258). -/
  farSession : BitVec 16 := 0
  seenSession : BitVec 16 := 0
  path : BitVec 32 := 0
  /-- Path word that the far end, a child, announced as its own (R257). -/
  farPath : BitVec 32 := 0
  farRole : BitVec 2 := 0
  farPort : BitVec 7 := 0
  farEpoch : BitVec 16 := 0
  farSeen : Bool := false
  /-- The link was in SERVICE before (R258, R262 RETRAINS). -/
  served : Bool := false
  deriving DecidableEq, Repr

/-- A STEP message with a nonzero handle whose delivery a port still counts (R252). -/
structure Delivery where
  handle : Half
  /-- Bits [63:56] of its first word. -/
  kind : BitVec 8
  /-- At the originating Jupin, result words that stand before the counts; none elsewhere, and for a commit group. -/
  results : Option (List Word)
  fromPort : Nat
  /-- Ports still to deliver, with the FSEQ of the message's last frame once it is launched. -/
  left : List (Nat × Option (BitVec 8))
  delivered : Nat
  expected : Nat
  /-- Jobs of the message (R252, R253). -/
  jobs : List (BitVec 15) := []
  deriving DecidableEq, Repr

/-- One link end. -/
structure Link where
  rx : LinkRx := {}
  tx : LinkTx := {}
  ctl : LinkCtl := {}
  time : LinkTime := {}
  asym : Asym := {}
  fences : List Fence := []
  flows : List Flow := []
  /-- Messages discarded by R253, and routes that break R250. -/
  discards : Nat := 0
  routeErrs : Nat := 0
  /-- Messages held by R355 until an ACK covers a COMMIT frame. -/
  held : List Msg := []
  holding : Bool := false
  deriving DecidableEq, Repr

/-! ## Faults (R309 to R340) -/

/-- A grading counter of one code (R318). -/
structure Grade where
  count : Nat := 0
  opened : Tick := 0
  deriving DecidableEq, Repr

/-- One fault block (R313 to R322). -/
structure FaultBlock where
  valid : Bool := false
  overflow : Bool := false
  sev : Bool := false
  sevOvf : Bool := false
  esc : BitVec 2 := 0
  deferred : Bool := false
  grace : Bool := false
  events : BitVec 16 := 0
  firstCode : BitVec 16 := 0
  sevCode : BitVec 16 := 0
  tick : Tick := 0
  ctx : BitVec 64 := 0
  sevTick : Tick := 0
  sevCtx : BitVec 64 := 0
  expiry : Tick := 0
  /-- Escalation due at expiry: the highest ESC of the codes that became severe, its HARD bit and code. -/
  pendEsc : BitVec 2 := 0
  pendHard : Bool := false
  pendCode : BitVec 16 := 0
  /-- The escalation holds the block's port DOWN until SEV is cleared (R321). -/
  holdsPort : Bool := false
  grades : Table Grade := []
  /-- Level codes whose condition holds, with their context (R322). -/
  levels : List (BitVec 16 × BitVec 64) := []
  /-- Cleared while a level condition held: latches again on the next tick. -/
  relatch : Bool := false
  deriving DecidableEq, Repr

/-! ## Commands (R341 to R360) -/

/-- A command port (R341, R360). -/
structure CmdPort where
  busy : Bool := false
  go : Bool := false
  refuse : BitVec 4 := 0
  handle : Half := 0
  deriving DecidableEq, Repr

/-- A completion entry in use (R345, R346). -/
structure CplEntry where
  handle : Half
  opcode : BitVec 8
  valid : Bool
  status : BitVec 8
  endTick : Tick
  /-- RESULTS words, word 2 onward. -/
  results : List Word
  /-- NOTIFY of the command's header. -/
  notify : Bool
  deriving DecidableEq, Repr

/-- The commands group of a device: handles, completion table, what is posted and not freed, oldest first. -/
structure Commands where
  seq : BitVec 24 := 0
  ports : Table CmdPort := []
  entries : Table (Option CplEntry) := []
  /-- Entries posted and not freed, earliest first. -/
  posted : List (BitVec 16) := []
  postedFlag : Bool := false
  irqEn : Bool := false
  deriving DecidableEq, Repr

/-- A commit group as a device on its path holds it: a member's staged writes, and at a Jupin what its subtree has
answered (R351 to R357). -/
structure MemberGroup where
  handle : Half
  /-- Ordinals of the stages seen, and the writes of those that name this device, in order. -/
  ordinals : List (BitVec 16) := []
  writes : List StagedWrite := []
  /-- Jobs that the stages name. -/
  jobs : List (BitVec 15) := []
  /-- At a die: paths of other dies that a stage binds to a rank of a job (R254). -/
  binds : List (Half × BitVec 15) := []
  /-- This device is a member; it was beyond its limit of open groups (R351). -/
  member : Bool := false
  beyond : Bool := false
  /-- Down ports that lead to members, and those that have answered. -/
  ports : List Nat := []
  heard : List Nat := []
  /-- Members of the subtree that answered PREPARED, this device included. -/
  count : Nat := 0
  /-- First refusal: its reason and path. -/
  refused : Option (BitVec 8 × BitVec 32) := none
  /-- Tc of PREPARE once it has passed here. -/
  tc : Option Tick := none
  prepared : Bool := false
  answered : Bool := false
  /-- A refusal has gone toward the coordinator; one may follow an answer (R29). -/
  denied : Bool := false
  committed : Bool := false
  applied : Bool := false
  deriving DecidableEq, Repr

/-- Stage of a group at its coordinator. -/
inductive CoordState
  | opened | prepared | committed
  deriving DecidableEq, Repr

/-- A commit group at its coordinator (R351 to R355). -/
structure CoordGroup where
  handle : Half
  members : List Target
  state : CoordState
  /-- Stages so far: the target and number of writes of each. -/
  stages : List (Target × Nat)
  prepareTick : Tick
  tc : Tick
  /-- Members that COMMIT has reached, and those it is to reach (R354). -/
  delivered : Nat
  expected : Nat
  /-- A Jupin member silent at Tc. -/
  partialPath : Option (BitVec 32)
  /-- The job command this group serves: its opcode, job, and the operands its completion needs. -/
  serves : Option (BitVec 8 × BitVec 15 × List Word)
  /-- Status and word 4 of a group that has aborted. -/
  outcome : Option (BitVec 8 × Word) := none
  /-- A die in supply warning refused: the job command's group is tried again (R339). -/
  retry : Bool := false
  /-- Paths of the children that had not answered at its deadline (R287). -/
  silent : List (BitVec 32) := []
  /-- Length of `Jup.peerResets` when the group was opened (R428). -/
  resetsSeen : Nat := 0
  deriving DecidableEq, Repr

/-! ## Images, debug and security (R361 to R391) -/

/-- Debug session (R376), codes 0 to 2. -/
inductive Session
  | none | observe | control
  deriving DecidableEq, Repr

/-- Life-cycle level (R374), codes 0 to 2. -/
inductive Level
  | opened | owner | sealed_
  deriving DecidableEq, Repr

/-- The one-time fuses of R373: blank as a device leaves production. -/
structure Fuses where
  level : Level := .opened
  owner : BitVec 384 := 0
  /-- Thermometer bits blown, 0 to 64. -/
  seq : Nat := 0
  deriving DecidableEq, Repr

/-- Security and debug state (R375 to R381, R390). -/
structure Security where
  fuses : Fuses := {}
  level : Level := .opened
  lcOk : Bool := false
  /-- The life-cycle record has been read since power-on reset. -/
  lcRead : Bool := false
  imgLock : Bool := false
  allowVendor : Bool := false
  minImageVersion : Half := 0
  sealedImg : Bool := false
  /-- EVAL_ONLY of the sealed image (R49, R362). -/
  evalOnly : Bool := false
  imageDigest : BitVec 384 := 0
  session : Session := .none
  inject : Bool := false
  challenge : BitVec 64 := 0
  /-- A challenge is drawn and not yet used by an OPEN (R376). -/
  chalFresh : Bool := false
  /-- The 29 token words. -/
  token : Table Word := []
  dbgCh : Fin 8 := 0
  req : BitVec 2 := 0
  /-- Tick of an OPEN whose check is under way. -/
  opening : Option Tick := none
  pending : Bool := false
  refuse : BitVec 4 := 0
  denied : BitVec 16 := 0
  notAfter : BitVec 64 := 0xFFFFFFFFFFFFFFFF
  deriving DecidableEq, Repr

/-- One entry of a section table (R363), with the body words still due and its running contents. -/
structure Section where
  typ : BitVec 8
  length : Nat
  digest : List Word
  deriving DecidableEq, Repr

/-- Where the words of a load go. -/
inductive LoadTo
  | self | generation (port : BitVec 7)
  deriving DecidableEq, Repr

/-- An image load in progress (R361 to R370). -/
structure Load where
  /-- Handle of LOAD_IMAGE; none for the IMAGE section of a restore. -/
  handle : Option Half
  dest : LoadTo
  /-- Offset in STAGE at which a job image is kept (R370). -/
  stage : Nat
  /-- Only the tables that DARK loses are written (R281, R398). -/
  tablesOnly : Bool
  /-- Header section words received so far, in order. -/
  header : List Word
  headerDone : Bool
  sections : List Section
  /-- Position of the section being received, and its next frame number. -/
  pos : Nat
  frame : Nat
  /-- Body words of the section being received. -/
  body : List Word
  checked : Nat
  /-- Writes staged for the seal tick (R368), as (load-space offset, value); of a job image, all its writes (R370). -/
  staged : List (BitVec 32 × Half)
  /-- Writes applied as they streamed. -/
  applied : List (BitVec 32 × Half)
  /-- Sections checked, of an image kept whole: type and contents. -/
  kept : List (BitVec 8 × List Word)
  /-- Every check passed: seal on the next CSR edge (R369). -/
  ready : Bool
  deriving DecidableEq, Repr

/-- A latched plate (R387, R388). -/
structure Plate where
  id : BitVec 16
  set : BitVec 4
  tick : Tick
  level : BitVec 2
  masked : Bool
  present : BitVec 16
  absent : BitVec 16
  /-- The plate as READ_PLATE writes it, its three header words included. -/
  words : List Word
  reading : Bool
  deriving DecidableEq, Repr

/-- Shutter state (R384 to R391). -/
structure Shut where
  missed : BitVec 16 := 0
  latched : BitVec 16 := 0
  /-- Shutters received and not yet latched: id, set, tick, handle, and the link it came by. -/
  waiting : List (BitVec 16 × BitVec 4 × Tick × Half × Nat) := []
  /-- The last SHUTTER_IDs received, so that later copies are ignored. -/
  seen : List (BitVec 16) := []
  /-- Plates held: two slots at a TSU, the PLATE region at a Jupin; latest first. -/
  plates : List Plate := []
  /-- Plates archived from the dies below (R389), by path. -/
  archive : List (BitVec 32 × Plate) := []
  /-- Words of the plate that a down port is receiving (R389). -/
  platePart : Table (List Word) := []
  /-- Timestamp of the last Shutter that arrived on a link (R35). -/
  arrival : Option Stamp := none
  /-- Next SHUTTER_ID at the root time master. -/
  nextId : BitVec 16 := 0
  /-- SHUTTER_TICK of the last plate latched: TSU_SHUTTER is high for 64 ticks from it (R435). -/
  lastLatch : Option Tick := none
  deriving DecidableEq, Repr

/-- What both devices hold. -/
structure Common where
  time : TimeCore := {}
  cr : ClockRoom := {}
  links : Table Link := []
  convs : Table Conv := []
  convCtl : Table ConvCtl := []
  calCmds : List CalCmd := []
  /-- TSU_VRN_RING: ring-oscillator edges in the last 65,536 ticks (R85). -/
  ringCount : Half := 0
  blocks : Table FaultBlock := []
  /-- Severity table (R317). -/
  sev : Table (BitVec 64) := []
  cmds : Commands := {}
  groups : List MemberGroup := []
  coord : List CoordGroup := []
  deliveries : List Delivery := []
  sec : Security := {}
  load : Option Load := none
  /-- Loads accepted and waiting for the one in progress (R367). -/
  loadQueue : List (Option Half × LoadTo × Nat) := []
  shut : Shut := {}
  /-- Register words that software or the image writes, by offset (R461); the value unlisted is the
  register's reset value. -/
  regs : Table Half := []
  /-- Select and holding registers of the indexed windows, one set per APB subordinate (R462, R466). -/
  win : Table Half := []
  /-- The CSR cycle of the last write of a register or table word, and the words written in it with the place of their
  source in the order of R463. -/
  csrAt : Nat := 0
  csrWr : List (Nat × Nat) := []
  /-- Data of the last register access that read. -/
  rdata : BitVec 64 := 0
  /-- Messages delivered and not yet acted on, by link. -/
  inbox : List (Nat × Msg) := []
  deriving DecidableEq, Repr

/-! ## Step channels (R115 to R169) -/

/-- Channel state (R116), codes 0 to 5. -/
inductive ChState
  | unbound | ready | running | held | stopped | halted
  deriving DecidableEq, Repr

/-- Selector state (R148, R169), codes 0 to 2. -/
inductive SelState
  | valid | pending | failed
  deriving DecidableEq, Repr

/-- State of a Conjunction record (R218), with the tick at which its current round is to be released. -/
structure ConjRec where
  round : BitVec 16 := 0
  cur : BitVec 8 := 0
  next : BitVec 8 := 0
  relTick : Half := 0
  release : Option Tick := none
  /-- Die-local: release tick of the early round once its last entry is counted. -/
  nextRel : Option Tick := none
  deriving DecidableEq, Repr

/-- A sync object (R207, R208): its value, the value at the start of the tick `at_`, the last on which it changed (R209). -/
structure SyncSlot where
  v : BitVec 8 := 0
  old : BitVec 8 := 0
  at_ : Tick := 0
  deriving DecidableEq, Repr

/-- The boundary record (R130), with the object snapshot (R211). -/
structure Boundary where
  index : BitVec 16 := 0
  sels : Table Word := []
  states : Table SelState := []
  loops : Table Half := []
  step : BitVec 64 := 0
  tick : Tick := 0
  slots : Table (BitVec 8) := []
  recs : Table ConjRec := []
  deriving DecidableEq, Repr

/-- A VOTE that has acted in the current step and whose result is due (R148, R179). Field 4 is the gate. -/
structure PendVote where
  field : Nat
  group : BitVec 12
  /-- Its format entry (R174). -/
  entry : Word
  sel : Nat
  nosel : Bool
  validTick : Tick
  /-- The result received: FAILED, STATUS, and the die result. -/
  result : Option (Bool × BitVec 7 × List Word)
  /-- Settled: the selector or GATE_STATE has its outcome. -/
  done : Bool
  deriving DecidableEq, Repr

/-- A stream launched in the step (R136): its program, the cores and stations its station-mask entry names, and the action
tick of its LAUNCH. -/
structure Stream where
  program : BitVec 13
  first : Nat
  count : Nat
  strideLog2 : Nat
  stations : BitVec 8
  tick : Tick
  deriving DecidableEq, Repr

/-- What is judged of a VOTE once the reports of its tick are in (R148, R418): its descriptor and format entry, its index,
and the tick of the judgment. -/
structure VoteJudge where
  desc : BitVec 128
  entry : Word
  idx : BitVec 16
  at_ : Tick
  /-- The streams launched in the step when the VOTE acted. -/
  streams : List Stream
  deriving DecidableEq, Repr

/-- A contribution that leaves 32 ticks after its VOTE (R175); a field contribution takes its payload when it is judged. -/
structure Unsent where
  due : Tick
  gate : Bool
  words : List Word
  judge : Option VoteJudge := none
  deriving DecidableEq, Repr

/-- What a channel holds of the program it walks (R122 to R161). -/
structure Prog where
  sels : Table Word := []
  states : Table SelState := []
  /-- Valid tick of the last vote result of each selector (R124). -/
  selTick : Table (Option Tick) := []
  loops : Table Half := []
  /-- GATE_STATE: 0 no gate VOTE yet, 1 pending, 2 passed, 3 failed. -/
  gate : BitVec 2 := 0
  gateVoted : Bool := false
  refTick : Tick := 0
  /-- Tick on which the step began (R126). -/
  beginTick : Tick := 0
  /-- Tick from which the next descriptor can act: the last action, satisfied wait or release. -/
  readyTick : Tick := 0
  /-- A release reached the TSU after its tick: the next descriptor is late (R143). -/
  lateNext : Bool := false
  /-- A step is open: no COMMIT has acted in it. -/
  inStep : Bool := false
  /-- The channel entered STOPPED in this step (R145). -/
  stopped : Bool := false
  /-- Valid tick of the selector of the BRANCH that acted last (R124). -/
  branchTick : Option Tick := none
  /-- Action ticks of the last 64 ticks (R123), newest first. -/
  acts : List Tick := []
  pend : List PendVote := []
  unsent : List Unsent := []
  /-- Groups and FIELDs named by a VOTE of this step (R173). -/
  named : List (BitVec 12) := []
  fields : List Nat := []
  streams : List Stream := []
  /-- LAST writes of this step, one entry for each: capture slot and stream (R148, R423). -/
  captured : List (BitVec 8 × BitVec 13) := []
  deriving DecidableEq, Repr

/-- TSU_VOTE_LAST and TSU_VOTE_LAST_TICK of one FIELD (R203). -/
structure VoteLast where
  state : BitVec 2 := 0
  group : BitVec 12 := 0
  status : BitVec 7 := 0
  tick : Half := 0
  deriving DecidableEq, Repr

/-- A step channel (R116, R169). -/
structure Chan where
  state : ChState := .unbound
  job : BitVec 15 := 0
  rank : BitVec 17 := 0
  bank : Bool := false
  holdCause : BitVec 6 := 0
  /-- Tick on which the channel last entered HELD: causes of that tick are ranked (R169). -/
  heldAt : Option Tick := none
  pc : BitVec 16 := 0
  step : BitVec 64 := 0
  bnd : Boundary := {}
  startTick : Tick := 0
  startIndex : BitVec 16 := 0
  stretch : BitVec 20 := 0
  /-- Stretches that have arrived, by step n and then by arrival, with their values (R23, R161). -/
  stretchNext : List (BitVec 64 × BitVec 20) := []
  err : BitVec 3 := 0
  arm : Bool := false
  resume : Bool := false
  hold : Bool := false
  /-- UNBIND of a RUNNING channel waits for the boundary. -/
  unbindPend : Bool := false
  /-- Blocks whose escalation of step 1 holds the channel: RESUME is refused while their SEV stands (R320). -/
  barredBy : List Nat := []
  /-- HOLD_CAUSE codes asked for at the next step boundary. -/
  holdWant : List Nat := []
  /-- Holds that have arrived: step n and HOLD_CAUSE (R23, R159). -/
  holdStep : List (BitVec 64 × Nat) := []
  /-- Tick of the fence that cuts the channel from its job, once a FENCE has said so (R58, R214). -/
  fenceTick : Option Tick := none
  stbyOk : Bool := false
  stbyBad : Bool := false
  verify : Bool := false
  check : BitVec 16 := 0
  swapGo : Bool := false
  nextIndex : BitVec 16 := 0
  /-- RUN (R212). -/
  run : BitVec 8 := 0
  /-- Active side of the job (R16): uplink B. -/
  sideB : Bool := false
  prog : Prog := {}
  voteLast : Table VoteLast := []
  /-- Running CRC-64 of each digest stream, and whether words wait to be digested (R427). -/
  digests : Table Word := []
  digBusy : Bool := false
  /-- TSU_CKPT (R304), and a CHECKPOINT record due after the commit whose delta is awaited (R305). -/
  ckpt : BitVec 64 := 0
  ckptDue : Option (BitVec 64) := none
  /-- core_run of the channel, as last known (R393). -/
  running : Bool := false
  /-- Bits of TSU_REPEAT (R307). -/
  hostSel : Bool := false
  debug : Bool := false
  cycle : Bool := false
  deriving DecidableEq, Repr

/-! ## The TSU -/

/-- A wait outstanding (R142, R210): of a channel or a core, with the tick it began. -/
structure WaitRec where
  who : Waiter
  /-- Acting channel. -/
  ch : Nat
  core : BitVec 11
  slot : BitVec 6
  /-- Coded as WAIT COND (R141). -/
  cond : Nat
  count : BitVec 8
  timeout : Half
  /-- Descriptor index or TAG. -/
  tag : BitVec 16
  tick : Tick
  /-- Round entered (COND 4). -/
  round : BitVec 16
  deriving DecidableEq, Repr

/-- A remote signal held (R215): its words, its watch tag, its arrival, and the tick the written count was reached. -/
structure HeldSig where
  tag : BitVec 8
  words : List Word
  ch : Nat
  arrival : Tick
  reached : Option Tick
  deriving DecidableEq, Repr

/-- Sync objects, signals and Conjunctions (R204 to R231). -/
structure Sync where
  slots : Table SyncSlot := []
  recs : Table ConjRec := []
  waits : List WaitRec := []
  /-- Held signals, in arrival order. -/
  held : List HeldSig := []
  stale : BitVec 16 := 0
  stray : BitVec 16 := 0
  denied : Bool := false
  holdFull : Bool := false
  /-- Timeout record (R228). -/
  timeout : BitVec 128 := 0
  /-- tsu_drain_req is up (R426). -/
  drainOn : Bool := false
  /-- Records that wait for the drain under way, and those that wait for the next (R221, R426). -/
  drain : List (Nat × BitVec 16) := []
  drainNext : List (Nat × BitVec 16) := []
  /-- Forced releases accepted, with the tick each acts (R230). -/
  forced : List (Nat × Tick) := []
  /-- Debug writes accepted, with the tick each acts (R230): core, slot, operation and count. -/
  dbgOps : List (BitVec 11 × BitVec 6 × Nat × BitVec 8 × Tick) := []
  /-- Responses to cores that wait to leave (R422): core, kind, TAG, and the first tick on which each may leave. -/
  rsps : List (BitVec 11 × Nat × BitVec 16 × Tick) := []
  deriving DecidableEq, Repr

/-- A fabric filter entry that the TSU has presented (R254, R424): its path, one channel or all, whether the network
interface has acknowledged it, and, of a domain entry, the channels bound since it was installed. -/
structure Filter where
  path : Half
  ch : Option Nat
  acked : Bool
  bound : List Nat
  deriving DecidableEq, Repr

/-- Power states, supply warning and resets of the die (R392 to R408, R411, R431). -/
structure Power where
  /-- The block is in power-on reset: its outputs are clamped (R412). -/
  por : Bool := false
  /-- State in force, coded as in R392, and the state requested last. -/
  state : BitVec 3 := 0
  chosen : BitVec 3 := 0
  limit : BitVec 4 := 0
  waking : Bool := false
  /-- Deadline of the wake under way. -/
  wakeBy : Tick := 0
  /-- The wake from DARK is under way: its restore is not done. -/
  darkWake : Bool := false
  warn : Bool := false
  warnAt : Tick := 0
  /-- The orderly fence of the present warning has been made (R338). -/
  fenced : Bool := false
  warnCnt : BitVec 16 := 0
  lastDur : BitVec 16 := 0
  /-- Entries to DOZE, NAP, DEEP and DARK, by code. -/
  entries : Table (BitVec 8) := []
  rstErr : BitVec 4 := 0
  cause : BitVec 4 := 0
  rstTick : Tick := 0
  /-- A die reset that arrived in DARK (R402), with its cause. -/
  rstPend : Option (BitVec 4) := none
  /-- STEP and BULK messages that wait in the receive buffers for the die to leave DARK, with their links (R397). -/
  held : List (Nat × Msg) := []
  /-- tsu_main_rst_n is high; low, the least number of ticks for which it stays so (R402, R414). -/
  mainUp : Bool := false
  mainHold : Nat := 64
  deriving DecidableEq, Repr

/-- A restore stream as the die takes it (R328, R281): its section, the words so far, and the words the section has. -/
structure RStream where
  typ : BitVec 8
  offset : Nat
  words : List Word
  deriving DecidableEq, Repr

/-- What software may ask of a channel for the next tick: STOP and CONTINUE of a debugger, CH_RST (R382, R403). -/
inductive ChanAct
  | stop | go | reset
  deriving DecidableEq, Repr

/-- State only a TSU has. -/
structure Tsu where
  /-- Tick after which the routers drop packets of the old generation, and the generation in force (R359). -/
  drainTick : Tick := 0
  gen : Bool := false
  /-- Channels with an open JOURNAL stream (R328), and the restore section being taken. -/
  jrnOpen : List Nat := []
  rstream : Option RStream := none
  power : Power := {}
  filters : List Filter := []
  /-- Entries presented and not yet answered, oldest first: CLEAR, channel, path. -/
  nfAsked : List (Bool × Option Nat × Half) := []
  /-- The network interface reported its filter full. -/
  nfFull : Bool := false
  chans : Table Chan := []
  sync : Sync := {}
  /-- Capture slots of the die, 16 words each (R423). -/
  capture : Table Word := []
  voteLate : BitVec 16 := 0
  voteStray : BitVec 16 := 0
  voteSent : Half := 0
  voteErr : Half := 0
  /-- Ephemeris descriptors stored with inverted parity (R120). -/
  badEph : List Nat := []
  /-- TSU_FLT_INJ armed, and words stored with inverted parity: table, channel, word (R323, R340). -/
  injArm : Option (Nat × Nat × Nat) := none
  badWords : List (Nat × Nat × Nat) := []
  /-- A word of the severity table failed its parity in this tick: the step of every bound channel stops (R311). -/
  parStop : Bool := false
  /-- Writes that act on a channel on the tick after them, oldest first: channel and that tick (R382, R403). -/
  chanActs : List (ChanAct × Nat × Tick) := []
  deriving DecidableEq, Repr

/-! ## The Jupin -/

/-- A fault-log entry: the four content words of R316. -/
abbrev LogEntry := List Word

/-- What a tracker entry follows (R270, R467). -/
inductive TrackKind
  | command | reduction | conjRound | journalFlow | shadowFlow | restoreFlow | imageFlow
  deriving DecidableEq, Repr

/-- A tracker entry (R270, R467). -/
structure TrackEntry where
  handle : Half
  kind : TrackKind
  job : Option (BitVec 15)
  deadline : Tick
  delivered : Nat
  expected : Nat
  deriving DecidableEq, Repr

/-- An open vote at this stage: the context of R269. -/
structure VoteCtx where
  job : BitVec 15
  group : BitVec 12
  gate : Bool
  stepLo : BitVec 16
  /-- VOTE_TICK of the first input that carries one. -/
  voteTick : Option Tick
  beginTick : Tick
  /-- Ranks that have contributed, at a rack Jupin; ports that have sent a partial, above. -/
  got : List Nat
  acc : Acc
  deriving DecidableEq, Repr

/-- Status of a vote group (R472), with its last result (R474). -/
structure GrpStat where
  /-- 0 none, 1 open, 2 done, 3 failed. -/
  state : BitVec 2 := 0
  status : BitVec 7 := 0
  stepLo : BitVec 16 := 0
  beginTick : Tick := 0
  late : BitVec 16 := 0
  stray : BitVec 16 := 0
  /-- The VOTE_MISSING list: a port or a rank; and the count of the rest. -/
  missing : List (Bool × Nat) := []
  missingRest : Nat := 0
  inj : Bool := false
  result : List Word := []
  deriving DecidableEq, Repr

/-- A Conjunction group at this stage (R222, R225, R226). -/
structure ConjStage where
  round : BitVec 16 := 0
  /-- Ports that have arrived for the open round, and early for the next. -/
  cur : List Nat := []
  next : List Nat := []
  /-- BEGIN_TICK and STEP_LO of the open round's arrivals, and of the early ones. -/
  beginTick : Option Tick := none
  nextBegin : Option Tick := none
  stepLo : BitVec 16 := 0
  nextStep : BitVec 16 := 0
  /-- The open round has failed, or the early one, and its failed arrival or release has left. -/
  failed : Bool := false
  nextFailed : Bool := false
  /-- The arrival of the early round has gone up (R222). -/
  nextSent : Bool := false
  /-- RUN of the job at a gate that failed here and returned the group, until the group goes on (R226). -/
  returned : Option (BitVec 8) := none
  /-- Round number at the last gate of the job that passed. -/
  recorded : BitVec 16 := 0
  stray : BitVec 16 := 0
  deriving DecidableEq, Repr

/-- Votes and Conjunctions of a Jupin. -/
structure Stage where
  votes : Table (Option VoteCtx) := []
  grp : Table GrpStat := []
  /-- Reductions that failed here: job, STEP_LO and begin tick of the step (R182). -/
  failedSteps : List (BitVec 15 × BitVec 16 × Tick) := []
  conj : Table ConjStage := []
  /-- Steps of which an INPUT record was refused or failed its CRC (R273, R277): job and STEP. -/
  badInputs : List (BitVec 15 × BitVec 64) := []
  /-- Jobs named by a group whose COMMIT this member missed (R355). -/
  partialJobs : List (BitVec 15) := []
  /-- The last step of each job whose gate has passed here (R275). -/
  committed : Table (Option (BitVec 64)) := []
  /-- Jobs whose gate failed and that wait for a re-run, with STEP_LO of the step (R326). -/
  rerun : List (BitVec 15 × BitVec 16) := []
  /-- Jobs held by a brown-out since their last re-run (R326). -/
  brown : List (BitVec 15) := []
  /-- Jobs whose re-run did not come to its resume: the next one follows no new failure of the gate (R326, R330). -/
  again : List (BitVec 15) := []
  /-- Earlier versions of the logical map with the tick up to which each was in force (R172). -/
  oldMaps : List (Tick × List Word) := []
  /-- Earlier MEMBERS of a group record, with the tick up to which they were in force and the record's offset (R172). -/
  oldMembers : List (Tick × Nat × List Word) := []
  /-- Divergence log (R283) and its overflow count. -/
  divLog : List (List Word) := []
  divOverflow : BitVec 16 := 0
  deriving DecidableEq, Repr

/-- A journal record (R273). -/
structure JrnRec where
  job : BitVec 15
  rank : BitVec 17
  kind : Nat
  step : BitVec 64
  seqId : BitVec 40
  chunk : BitVec 24
  crc : Half
  bytes : Nat
  /-- First 64-byte block of JOURNAL that it occupies (R272). -/
  block : Nat
  /-- HTC tick of acceptance. -/
  tick : Tick
  durable : Bool
  /-- Tick at which a SEQ_END record became durable. -/
  endTick : Option Tick
  /-- Marked lost by an uncorrectable error. -/
  lost : Bool := false
  /-- The record's words as received. -/
  data : List Word
  deriving DecidableEq, Repr

/-- The lost list of a job (R278): SEQ_IDs with their reasons as R472 codes them, and how many more were only counted. -/
structure LostList where
  held : List (BitVec 40 × Nat) := []
  rest : Nat := 0
  deriving DecidableEq, Repr

/-- A shadow-currency record (R279). -/
structure Shadow where
  job : BitVec 15
  rank : BitVec 17
  step : BitVec 64
  /-- Path of the partner's die. -/
  partner : Half := 0
  lag : Bool := false
  deriving DecidableEq, Repr

/-- One generation of a restore image (R280): the header words, and the sections with their contents. -/
structure Generation where
  header : List Word := []
  sections : List (BitVec 8 × List Word) := []
  bad : Bool := false
  deriving DecidableEq, Repr

/-- A restore in progress on a port (R281). -/
structure RestoreOp where
  /-- Handle; none for the restore of a DARK wake and of a bring-in. -/
  handle : Option Half
  /-- Port whose generation is read; the failed rank's, in a bring-in (R329). -/
  source : Nat
  /-- Job of a bring-in (R293). -/
  job : Option (BitVec 15)
  sections : BitVec 3
  gen : Bool
  override : Bool
  /-- The identity has been compared and the sections are streaming. -/
  streaming : Bool
  sent : Nat
  opened : Tick
  deriving DecidableEq, Repr

/-- A verified JUPIN_JOB image kept in STAGE (R370): its offset, job, digest and writes. -/
structure JobImage where
  offset : Nat
  digest : BitVec 384 := 0
  job : BitVec 15
  writes : List (BitVec 32 × Half)
  deriving DecidableEq, Repr

/-- A bring-in in progress at the top (R329 to R335). -/
structure BringIn where
  /-- Handle of BRING_IN, or of context 0x40. -/
  handle : Half
  job : BitVec 15
  rank : BitVec 17
  spare : BitVec 32
  /-- Second spare of a DUAL recompute (R334). -/
  second : Option (BitVec 32)
  /-- 0 COPY, 1 RECOMPUTE, 2 LOST_RANGE. -/
  mode : Nat
  /-- 0 restoring the spare, 1 obtaining the state, 2 remapping, 3 recomputing the last steps of a state obtained so far. -/
  phase : Nat := 0
  unverified : Bool := false
  lost : List (BitVec 40) := []
  started : Tick
  /-- The operator override of BRING_IN (R293). -/
  override : Bool := false
  /-- A match of the spare with the higher path, until its tick ends: its path, and whether it is UNVERIFIED (R334). -/
  matched : Option (BitVec 32 × Bool) := none
  deriving DecidableEq, Repr

/-- A command forwarded to other devices, tracked by handle and ingress port (R347). -/
structure Forward where
  handle : Half
  /-- Port toward the originator; `ownPort` where the command was accepted here. -/
  fromPort : Nat
  /-- Ports still to complete. -/
  left : List Nat
  status : BitVec 8
  results : List Word
  deriving DecidableEq, Repr

/-- The severe latch of a block of another device, as its reports show it here (R316, R319, R326). -/
structure SevSeen where
  path : Half
  block : Nat
  job : Option (BitVec 15)
  /-- Tick on which its escalation acts, and the step it reaches; 0 none. -/
  due : Tick
  esc : Nat
  /-- It has escalated; SEV still stands. -/
  acted : Bool
  deriving DecidableEq, Repr

/-- State only a Jupin has. -/
structure Jup where
  /-- EXPELLED ports that were returned to service, and no restore has completed there since (R324, R472). -/
  unrestored : List Nat := []
  stage : Stage := {}
  /-- Journal records by number, and the next number. -/
  journal : List (Nat × JrnRec) := []
  journalNext : Nat := 0
  journalBlock : Nat := 0
  /-- Appends that repeat a durable record (R327). -/
  journalDup : Nat := 0
  lost : Table LostList := []
  /-- Jobs over quota, of which QUOTA_OVER has been raised (R277). -/
  quotaOver : List (BitVec 15) := []
  shadows : List Shadow := []
  /-- Sides of the pair that this hot-standby has taken over (R265). -/
  takeover : List Bool := []
  /-- Tick from which the survivor has reported its peer group to side A (0) or B (1) DOWN (R265). -/
  peerDown : Table (Option Tick) := []
  /-- Restore images by 2 * port + generation, and the active generation of a port (R280). -/
  gens : Table Generation := []
  genActive : Table Bool := []
  restores : Table (Option RestoreOp) := []
  /-- Verified JUPIN_JOB images kept in STAGE (R370). -/
  jobImages : List JobImage := []
  /-- Identity last read from the die on a port (R281, R293). -/
  ids : Table (Option Identity) := []
  /-- Deferred expulsions, oldest first: the port and the escalation (R325). -/
  deferred : List (Nat × Nat) := []
  /-- Ports whose die is in supply warning (R353, R408). -/
  warned : List Nat := []
  /-- Spare floor by map class (R325, R472); 2 unless the image gives one. -/
  floors : Table Nat := []
  /-- Map classes whose available spares are at or below their floor (R324). -/
  lowClasses : List Nat := []
  /-- Severe latches of the dies below, as their reports show them (R320, R326). -/
  sevSeen : List SevSeen := []
  /-- Readings at their warning (false) or trip threshold (R456, R457). -/
  hot : List (Bool × Reading) := []
  /-- A trip of R458 holds the device in its tripped state. -/
  thermTrip : Bool := false
  bringIns : List BringIn := []
  /-- Jobs whose re-run found no spare, and waits for one (R331). -/
  spareless : List (BitVec 15) := []
  forwards : List Forward := []
  /-- Paths whose dies this rack Jupin has treated as reset, oldest first, and by job how many of them stood there when its last
  START_JOB, BRING_IN, REMAP_RANK or RESUME_JOB group was opened (R258, R428). -/
  peerResets : List Half := []
  resetsAt : Table Nat := []
  /-- RUN values issued: job, RUN and the tick of PREPARE (R358). -/
  runs : List (BitVec 15 × BitVec 8 × Tick) := []
  /-- Host jobs held by their budget (R410). -/
  budgetHeld : List (BitVec 15) := []
  /-- The two record copies of the flash, as read or programmed; the copy in force; JP_FL_CTRL ERR and COPY (R448, R473). -/
  flash : Table (List Word) := []
  lcCopy : Option Bool := none
  flErr : BitVec 2 := 0
  flCtrl : BitVec 3 := 0
  /-- Readings of R473, by halfword. -/
  readings : Table (BitVec 16) := []
  /-- Reset inputs and straps (R440, R442). -/
  mainLow : Bool := false
  pcieReset : Bool := false
  straps : BitVec 8 := 0
  /-- Shutters whose delivery the root master still counts: handle, tick, delivered (R386). -/
  shutters : List (Half × Tick × Nat) := []
  /-- This device is the root time master (R39). -/
  timeMaster : Bool := false
  /-- Side B of the root pair is the time master, as this device knows it (R39, R89). -/
  masterB : Bool := false
  /-- Root pair number P, set by the root's image (R17). -/
  rootP : BitVec 8 := 0
  /-- Mapping record in force, and the one received and not yet applied (R62, R63). -/
  mapCur : Option MapRec := none
  mapNext : Option MapRec := none
  /-- Arrival of the last record; QUALITY is treated as HOLDOVER 4 s after it. -/
  mapTick : Tick := 0
  mapHold : Bool := false
  /-- Arrival of the last TRACEABLE record (R64). -/
  mapTraceable : Tick := 0
  /-- Root: last publication, record number, pulses labelled so far as (TICK, TAI second), newest first. -/
  pubTick : Option Tick := none
  pubSeq : BitVec 16 := 0
  labelled : List (Tick × BitVec 48) := []
  labelUtc : BitVec 16 := 0
  labelLeap : BitVec 2 := 0
  /-- A label waiting for the next pulse edge, with its command's handle (R62). -/
  tod : Option (BitVec 48 × BitVec 16 × BitVec 2 × Half) := none
  /-- NTPv4 counters, and the answers in the current second (R64, R473). -/
  ntpAnswered : Half := 0
  ntpDropped : Half := 0
  ntpAuthFail : Half := 0
  ntpSecond : Nat := 0
  ntpInSecond : Nat := 0
  log : List LogEntry := []
  /-- Entry of the fault-log memory that holds the oldest report (R471 HEAD). -/
  logHead : BitVec 12 := 0
  logLost : BitVec 16 := 0
  tracker : Table (Option TrackEntry) := []
  deriving DecidableEq, Repr

/-! ## Outputs of the ports -/

/-- An NTPv4 answer (R64): the fields the rule gives, the request it answers, and its authentication code, if any. -/
structure NtpReply where
  version : Nat := 4
  mode : Nat := 4
  li : Nat
  stratum : Nat
  refId : BitVec 32
  rootDispUs : Nat
  rxNs : Int
  txNs : Int
  body : List Word
  mac : Option (BitVec 16 × BitVec 128)
  deriving DecidableEq, Repr

/-- What the block drives on its ports, in the order driven. -/
inductive Out
  /-- A frame as its two lanes carry it: PAM4 levels 0 to 3 in the order sent (R232, R233). -/
  | frame (d : Dev) (link : Nat) (lane0 lane1 : List (BitVec 2))
  | irqFault (d : Dev)
  | irqCpl
  | msix (vector : Nat)
  /-- An edge of a pulse output: the instant, and the level after it (R111). -/
  | pulse (d : Dev) (k : Fin 2) (at_ : Stamp) (high : Bool)
  | mapping (r : MapRec)
  /-- A launch on tsu_launch (R419): channel, DURATION, bits [63:16] of the entry, row mask. -/
  | launch (c : Nat) (duration : BitVec 20) (entry : BitVec 48) (mask : Word)
  | stop (c : Nat)
  /-- tsu_shd_op: commit, or drop (R429). -/
  | shd (c : Nat) (commit : Bool)
  | stepBegin (c : Nat) (tick : Tick)
  | egq (c : Nat) (rank : BitVec 17)
  | watch (path count : Half) (tag : BitVec 8)
  | drainReq (on : Bool)
  /-- tsu_pwr_req (R431) and tsu_main_rst_n (R414). -/
  | pwrReq (state : Nat)
  | mainRst (high : Bool)
  /-- The die-side commit port (R430): a staged write, an apply or a discard of a group's writes. -/
  | dreg (offset : BitVec 24) (value : Half)
  | dregApply
  | dregDiscard
  /-- tsu_shutter_lat and TSU_SHUTTER (R430, R435). -/
  | shutterLat
  /-- A write of READ_PLATE, of a weight section or of a re-run record to memory behind the DMA port (R432). -/
  | dma (d : Dev) (addr : Word) (words : List Word)
  /-- THERM_TRIP_N (R458). -/
  | thermTrip (low : Bool)
  /-- A reset of the die on a port, and a read or write of the registers of its fuses (R281, R401, R434). -/
  | dieReset (port : Nat)
  | fuseProg (d : Dev) (level : Nat) (seq : Nat)
  /-- tsu_nf (R424): a fence filter entry of a channel, or of all. -/
  | filter (clear : Bool) (ch : Option Nat) (path : Half)
  /-- tsu_sync_rsp (R422). -/
  | syncRsp (core : BitVec 11) (kind : Nat) (tag : BitVec 16)
  | vres (slot : Nat) (words : List Word)
  /-- The step's shadow writes go to the partner die (R279, R429). -/
  | shadowFlow (c : Nat) (step : BitVec 64)
  /-- A shadow-currency record goes to another device of the pair (R264, R279); the manual gives it no message. -/
  | shadowCopy (port : Nat) (x : Shadow)
  /-- A partial sent up by a stage (R180, R181), with the tick on which it leaves. -/
  | votePartial (port : Nat) (p : VotePartial) (at_ : Tick)
  | ntpReply (r : NtpReply)
  /-- The entry that a reflect measurement writes into the inactive bank of a link's far end (R50). -/
  | farEntry (port : Nat) (entry : BitVec 128)
  deriving DecidableEq, Repr

/-- The state of the block. -/
structure State where
  tsuC : Common := {}
  jupC : Common := {}
  tsu : Tsu := {}
  jup : Jup := {}
  out : List Out := []
  /-- The MODEL's own counter: the next free value (assumption 5). -/
  freeCtr : Nat := 0
  /-- Commands waiting, first in, first out. -/
  pending : List Instr := []
  deriving DecidableEq, Repr

/-- The machine right after reset. -/
def State.reset : State := {}

/-- Why a command stops the machine. -/
inductive Fault
  /-- Raised where the manual calls the result of a host error unpredictable (R9, R10) and names no effect; the
  string names the rule. SAFE: the hardware goes on with any values; the model stops. -/
  | unpredictable (rule : String)
  deriving DecidableEq, Repr

/-- Why a command has no meaning here. -/
inductive Refusal
  /-- Raised by the dispatcher for a command without a meaning. SAFE: the model stops. -/
  | notModelled (mnemonic : String)
  deriving DecidableEq, Repr

end Sys2Proof.Machine
end

