-- ==== Sys2Proof/Machine/Ops.lean ====
section
/-! DEFINITION. The named operations over the state: sparse tables, the two devices, register words, time,
messages to the links, completions, free values. -/
namespace Sys2Proof.Machine

/-! ## Sparse tables -/

/-- What key `k` reads as: `d` where it is not listed. -/
def tget {α : Type} (d : α) : Table α → Nat → α
  | [], _ => d
  | (k', v) :: t, k => if k' = k then v else tget d t k

/-- Write `v` at `k`, keeping keys rising and no entry equal to `d`. -/
def tset {α : Type} [DecidableEq α] (d : α) : Table α → Nat → α → Table α
  | [], k, v => if v = d then [] else [(k, v)]
  | (k', w) :: t, k, v =>
    if k < k' then (if v = d then (k', w) :: t else (k, v) :: (k', w) :: t)
    else if k' = k then (if v = d then t else (k, v) :: t)
    else (k', w) :: tset d t k v

/-- Every listed key lies above `lo`, keys rise, and no entry equals what it reads as unlisted. -/
def tok {α : Type} [DecidableEq α] (d : Nat → α) : Option Nat → Table α → Bool
  | _, [] => true
  | lo, (k, v) :: t => (match lo with | none => true | some l => decide (l < k)) && decide (v ≠ d k) && tok d (some k) t

/-- The canonical form of a table whose unlisted keys read as `d`. -/
def Table.wf {α : Type} [DecidableEq α] (d : α) (t : Table α) : Bool := tok (fun _ => d) none t

/-- Change the entry at `k`. -/
def tmod {α : Type} [DecidableEq α] (d : α) (t : Table α) (k : Nat) (f : α → α) : Table α := tset d t k (f (tget d t k))

/-! ## Bits and arithmetic -/

/-- Bits `[hi:lo]` of a word, as a number. -/
def fld {w : Nat} (v : BitVec w) (hi lo : Nat) : Nat := (v.extractLsb' lo (hi + 1 - lo)).toNat

/-- A word with number `v` placed in bits `[hi:lo]`. -/
def put (w hi lo v : Nat) : BitVec w := (BitVec.ofNat w (v % 2 ^ (hi + 1 - lo))) <<< lo

/-- A word with one bit. -/
def bit1 (w n : Nat) (b : Bool) : BitVec w := if b then (1 : BitVec w) <<< n else 0

/-- Saturating increment. -/
def satInc {w : Nat} (v : BitVec w) : BitVec w := if v = BitVec.allOnes w then v else v + 1

/-- Saturating addition of a number. -/
def satAdd {w : Nat} (v : BitVec w) (n : Nat) : BitVec w :=
  if v.toNat + n < 2 ^ w then BitVec.ofNat w (v.toNat + n) else BitVec.allOnes w

/-- Quotient rounded to nearest, halves away from zero (R48). The divisor is positive. -/
def divNear (a : Int) (b : Nat) : Int :=
  if 0 ≤ a then (2 * a + b) / (2 * (b : Int)) else - ((2 * (-a) + b) / (2 * (b : Int)))

/-- The mean of a list, rounded to nearest. -/
def meanNear (l : List Int) : Int := if l.isEmpty then 0 else divNear (l.foldl (· + ·) 0) l.length

/-- A number wrapped to `w` bits, signed. -/
def wrapS (w : Nat) (a : Int) : Int := (BitVec.ofInt w a).toInt

/-- A stamp as a number of FRAC. -/
def absOf (s : Stamp) : Int := (s.tick.toNat * 65536 + s.frac.toNat : Nat)

/-- The stamp of a number of FRAC, modulo 2^64 ticks. -/
def stampOf (a : Int) : Stamp := { tick := BitVec.ofInt 64 (a / 65536), frac := BitVec.ofInt 16 (a % 65536) }

/-- 16-bit ones'-complement sum (R52, R80, R121). -/
def onesSum16 (l : List Nat) : Nat :=
  l.foldl (fun acc v => let t := acc + v % 65536; if t < 65536 then t else t - 65535) 0

/-- The four halfwords of a 64-bit word, or as many as cover `w` bits. -/
def halfwords {w : Nat} (v : BitVec w) : List Nat := (List.range ((w + 15) / 16)).map fun i => fld v (16 * i + 15) (16 * i)

/-- Drop the first element equal to `a`. -/
def dropOne {α : Type} [DecidableEq α] (a : α) : List α → List α
  | [] => []
  | b :: t => if b = a then t else b :: dropOne a t

/-- Replace the first element that passes. -/
def updFirst {α : Type} (p : α → Bool) (f : α → α) : List α → List α
  | [] => []
  | b :: t => if p b then f b :: t else b :: updFirst p f t

/-- Element `n` of a word list, zero beyond its end. -/
def nthW (l : List Word) (n : Nat) : Word := l.getD n 0

/-! ## The two devices -/

/-- What device `d` holds of the common state. -/
def State.com (s : State) : Dev → Common
  | .tsu => s.tsuC
  | .jup => s.jupC

/-- Replace it. -/
def State.setCom (s : State) (d : Dev) (c : Common) : State :=
  match d with
  | .tsu => { s with tsuC := c }
  | .jup => { s with jupC := c }

def State.modCom (s : State) (d : Dev) (f : Common → Common) : State := s.setCom d (f (s.com d))

/-- The running counter (R34). -/
def State.now (s : State) (d : Dev) : Tick := (s.com d).time.htc

def State.modTime (s : State) (d : Dev) (f : TimeCore → TimeCore) : State :=
  s.modCom d fun c => { c with time := f c.time }

def State.modCr (s : State) (d : Dev) (f : ClockRoom → ClockRoom) : State :=
  s.modCom d fun c => { c with cr := f c.cr }

def State.link (s : State) (d : Dev) (n : Nat) : Link := tget {} (s.com d).links n

def State.modLink (s : State) (d : Dev) (n : Nat) (f : Link → Link) : State :=
  s.modCom d fun c => { c with links := tmod {} c.links n f }

def State.modTx (s : State) (d : Dev) (n : Nat) (f : LinkTx → LinkTx) : State :=
  s.modLink d n fun l => { l with tx := f l.tx }
def State.modRx (s : State) (d : Dev) (n : Nat) (f : LinkRx → LinkRx) : State :=
  s.modLink d n fun l => { l with rx := f l.rx }
def State.modCtl (s : State) (d : Dev) (n : Nat) (f : LinkCtl → LinkCtl) : State :=
  s.modLink d n fun l => { l with ctl := f l.ctl }
def State.modLt (s : State) (d : Dev) (n : Nat) (f : LinkTime → LinkTime) : State :=
  s.modLink d n fun l => { l with time := f l.time }
def State.modAsym (s : State) (d : Dev) (n : Nat) (f : Asym → Asym) : State :=
  s.modLink d n fun l => { l with asym := f l.asym }

def State.conv (s : State) (d : Dev) (n : Nat) : Conv := tget {} (s.com d).convs n
def State.convCtl (s : State) (d : Dev) (n : Nat) : ConvCtl := tget {} (s.com d).convCtl n
def State.modConv (s : State) (d : Dev) (n : Nat) (f : Conv → Conv) : State :=
  s.modCom d fun c => { c with convs := tmod {} c.convs n f }
def State.modConvCtl (s : State) (d : Dev) (n : Nat) (f : ConvCtl → ConvCtl) : State :=
  s.modCom d fun c => { c with convCtl := tmod {} c.convCtl n f }

def State.ref (s : State) (d : Dev) (r : Nat) : Ref := tget {} (s.com d).cr.refs r
def State.modRef (s : State) (d : Dev) (r : Nat) (f : Ref → Ref) : State :=
  s.modCr d fun c => { c with refs := tmod {} c.refs r f }
def State.pulse (s : State) (d : Dev) (k : Nat) : Pulse := tget {} (s.com d).cr.pulses k
def State.modPulse (s : State) (d : Dev) (k : Nat) (f : Pulse → Pulse) : State :=
  s.modCr d fun c => { c with pulses := tmod {} c.pulses k f }

def State.modSec (s : State) (d : Dev) (f : Security → Security) : State :=
  s.modCom d fun c => { c with sec := f c.sec }
def State.modCmds (s : State) (d : Dev) (f : Commands → Commands) : State :=
  s.modCom d fun c => { c with cmds := f c.cmds }
def State.modShut (s : State) (d : Dev) (f : Shut → Shut) : State :=
  s.modCom d fun c => { c with shut := f c.shut }

def State.chan (s : State) (c : Nat) : Chan := tget {} s.tsu.chans c
def State.modTsu (s : State) (f : Tsu → Tsu) : State := { s with tsu := f s.tsu }
def State.modJup (s : State) (f : Jup → Jup) : State := { s with jup := f s.jup }
def State.modChan (s : State) (c : Nat) (f : Chan → Chan) : State :=
  s.modTsu fun t => { t with chans := tmod {} t.chans c f }

/-- Outputs of the main domain (R412, R413, R419 to R432). -/
def Out.mainSide : Out → Bool
  | .launch .. | .stop .. | .shd .. | .stepBegin .. | .egq .. | .watch .. | .drainReq .. | .dreg .. | .dregApply | .dregDiscard => true
  | .shutterLat | .dma .tsu .. | .filter .. | .syncRsp .. | .vres .. | .shadowFlow .. => true
  | _ => false
/-- The outputs of a domain are clamped to their ties: in power-on reset, and those of the main domain in its reset and in DARK
too (R412). -/
def State.clamped (s : State) (main : Bool) : Bool := s.tsu.power.por || main && !s.tsu.power.mainUp
/-- The main rail is off: inputs into its domain are ignored (R412). -/
def State.mainOff (s : State) : Bool := decide (s.tsu.power.state = 4) && !s.tsu.power.mainUp

/-- Drive one output; a clamped output of the main domain keeps its tie's value. -/
def State.emit (s : State) (o : Out) : State := { s with out := if o.mainSide && s.clamped true then s.out else s.out ++ [o] }

/-- The next free value (assumption 5): the value, and the state with the counter advanced. -/
def State.fresh (s : State) : BitVec 64 × State := (Config.freeValue s.freeCtr, { s with freeCtr := s.freeCtr + 1 })

/-- Some channel of the TSU is bound to a job. -/
def State.anyBound (s : State) : Bool := s.tsu.chans.any fun (_, c) => decide (c.state ≠ .unbound)

/-- The number of link ends, converters and references of a device (R14, R65, R66, R89). -/
def nLinks : Dev → Nat
  | .tsu => 2
  | .jup => 96
def nConvs : Dev → Nat
  | .tsu => 5
  | .jup => 198
def nRefs : Dev → Nat
  | .tsu => 2
  | .jup => 8
def nPulses : Dev → Nat
  | .tsu => 1
  | .jup => 2

end Sys2Proof.Machine
end

