-- ==== Sys2Proof/Machine/RegMap.lean ====
section
/-! DEFINITION. The register words of the TSU window and the Jupin BAR (R461, R467): which bits each word assigns,
which of them software writes (RW), which lock at the seal (RWL), and the reset value. -/
namespace Sys2Proof.Machine

/-- A run of like registers: `count` words, `stride` bytes apart. `mask` holds the assigned bits; `rw` and `rwl` those the
register window writes, `img` those that only an image or a commit group writes (R469), `act` says that the word holds a
W1S, W1C or WO field (R365). -/
structure RegRow where
  base : Nat
  stride : Nat := 4
  count : Nat := 1
  mask : Half
  rw : Half := 0
  rwl : Half := 0
  img : Half := 0
  reset : Half := 0
  act : Bool := false
  deriving DecidableEq, Repr

/-- Whether a row holds the word at an offset. -/
def RegRow.has (r : RegRow) (off : Nat) : Bool :=
  decide (r.base ≤ off) && decide ((off - r.base) % r.stride = 0) && decide ((off - r.base) / r.stride < r.count)

/-- Words with every bit assigned. -/
def fullMask : Half := 0xFFFFFFFF

/-! ### Where the groups that both devices have lie (R467) -/

def timeBase : Dev → Nat
  | .tsu => 0x100
  | .jup => 0x10000
def linkBase (d : Dev) (n : Nat) : Nat :=
  match d with
  | .tsu => 0x200 + 0x40 * n
  | .jup => 0x13000 + 0x40 * n
def vrnBase : Dev → Nat
  | .tsu => 0x400
  | .jup => 0x20000
def convBase (d : Dev) (n : Nat) : Nat :=
  match d with
  | .tsu => 0x440 + 0x20 * n
  | .jup => 0x21000 + 0x20 * n
def crBase : Dev → Nat
  | .tsu => 0x800
  | .jup => 0x28000
def refBase (d : Dev) (n : Nat) : Nat :=
  match d with
  | .tsu => 0x840 + 0x10 * n
  | .jup => 0x28040 + 0x10 * n
def pulseBase (d : Dev) (k : Nat) : Nat :=
  match d with
  | .tsu => 0x880 + 0x20 * k
  | .jup => 0x28100 + 0x20 * k
def extBase (n : Nat) : Nat := 0x28140 + 8 * n
def fltBase : Dev → Nat
  | .tsu => 0x4000
  | .jup => 0x30000
def shutBase : Dev → Nat
  | .tsu => 0x7000
  | .jup => 0x70000

/-! ### Rows of the TSU window -/

/-- Identity, security and debug (R390, R464). -/
def identRows (b : Nat) : List RegRow := [
  { base := b + 0x00, mask := 0xFFFFFF00 }, { base := b + 0x04, mask := 0xFFFF0FFF },
  { base := b + 0x08, count := 14, mask := fullMask },
  { base := b + 0x80, mask := 0xFF00007F }, { base := b + 0x84, count := 2, mask := fullMask },
  { base := b + 0x8C, mask := 0x1F }, { base := b + 0x90, count := 2, mask := fullMask, act := true },
  { base := b + 0x98, mask := 0xE0000337, act := true }, { base := b + 0x9C, mask := 0x8F00FFFF, act := true },
  { base := b + 0xA0, count := 2, mask := fullMask } ]

/-- Time group (R61). -/
def timeRows (b : Nat) : List RegRow := [
  { base := b, count := 2, mask := fullMask }, { base := b + 0x08, mask := 0xFFFFFF37 },
  { base := b + 0x0C, mask := fullMask, rwl := fullMask, reset := 0x18930640 } ]
def tsuTimeRows : List RegRow := [
  { base := 0x110, count := 6, mask := fullMask }, { base := 0x128, mask := fullMask, act := true },
  { base := 0x130, mask := 1 }, { base := 0x134, count := 4, mask := fullMask }, { base := 0x144, mask := 0xFFFF, act := true },
  { base := 0x148, mask := 3, act := true } ]

/-- Link blocks (R262). DOWN_LOG2 is RO 0 in the TSU. -/
def linkRows (b n : Nat) (ctlRwl ctlReset : Half) : List RegRow := [
  { base := b, stride := 0x40, count := n, mask := 0xFFE0FFFF },
  { base := b + 0x04, stride := 0x40, count := n, mask := 0xFFFF1F07, rwl := ctlRwl, reset := ctlReset, act := true },
  { base := b + 0x08, stride := 0x40, count := n, mask := fullMask, act := true },
  { base := b + 0x0C, stride := 0x40, count := n, mask := 0xFFFFFF00, act := true },
  { base := b + 0x10, stride := 0x40, count := n, mask := 0xFFFFF000 },
  { base := b + 0x14, stride := 0x40, count := n, mask := 0xFFFFFF00 },
  { base := b + 0x18, stride := 0x40, count := n, mask := fullMask },
  { base := b + 0x1C, stride := 0x40, count := n, mask := fullMask } ]

/-- Vernier control (R85). -/
def vrnRows (b : Nat) : List RegRow := [
  { base := b, mask := 0xFFFFFF03, rwl := 0xFFFFFF03, reset := 0x04000502 },
  { base := b + 0x04, mask := fullMask, rwl := fullMask, reset := 0x4000 },
  { base := b + 0x0C, mask := fullMask } ]
/-- `n` converter blocks from `b`; conditioning is fixed or programmable (R67, R85). -/
def convRows (b n : Nat) (rwl reset : Half) : List RegRow := [
  { base := b, stride := 0x20, count := n, mask := 0xFFF3, rwl := rwl, reset := reset },
  { base := b + 0x04, stride := 0x20, count := n, mask := 0x80FFFFFF },
  { base := b + 0x08, stride := 0x20, count := n, mask := fullMask },
  { base := b + 0x0C, stride := 0x20, count := n, mask := fullMask, act := true },
  { base := b + 0x10, stride := 0x20, count := n, mask := fullMask },
  { base := b + 0x14, stride := 0x20, count := n, mask := fullMask, act := true },
  { base := b + 0x18, stride := 0x20, count := n, mask := 0xFFFF0003, act := true } ]

/-- Clock Room control (R114). -/
def crRows (b : Nat) (ctlRwl ctlReset : Half) : List RegRow := [
  { base := b, mask := 0xFFFF0079, rwl := ctlRwl, reset := ctlReset },
  { base := b + 0x04, mask := 0xFFFFFFF7, act := true },
  { base := b + 0x08, mask := 0x107, rw := 0x107, reset := 3 },
  { base := b + 0x0C, mask := 0x3FF, rwl := 0x3FF, reset := 0x12C },
  { base := b + 0x10, mask := 0xF00000FF, act := true }, { base := b + 0x14, count := 2, mask := fullMask },
  { base := b + 0x1C, mask := fullMask, act := true },
  { base := b + 0x20, mask := 0xFFFF, rwl := 0xFFFF, reset := 0x6E },
  { base := b + 0x24, mask := 0xC003FFFF, act := true }, { base := b + 0x28, mask := fullMask } ]
/-- Reference block `n`: PRIORITY resets to n + 1. -/
def refRows (b n : Nat) : List RegRow := [
  { base := b + 0x10 * n, mask := 0xF1, rwl := 0xF0, reset := BitVec.ofNat 32 (16 * (n + 1)) },
  { base := b + 0x10 * n + 4, mask := 0xFFC0F007 } ]
/-- Pulse blocks. -/
def pulseRows (b n : Nat) : List RegRow := [
  { base := b, stride := 0x20, count := n, mask := 0xFFFF003F, rwl := 0xFFFF003F, reset := 0x00190000 },
  { base := b + 0x04, stride := 0x20, count := n, mask := fullMask, rwl := fullMask, reset := 0x5F5E1000 },
  { base := b + 0x08, stride := 0x20, count := n, mask := fullMask, rw := fullMask },
  { base := b + 0x0C, stride := 0x20, count := n, mask := fullMask, rw := fullMask },
  { base := b + 0x10, stride := 0x20, count := n, mask := fullMask, rw := fullMask },
  { base := b + 0x14, stride := 0x20, count := n, mask := 0xC000FF00, act := true } ]

/-- Fault blocks and severity window (R340). -/
def fltRows (b : Nat) (blk tbl : Half) : List RegRow := [
  { base := b + 0x04, mask := blk }, { base := b + 0x08, mask := 0xFF00FFFF, act := true },
  { base := b + 0x0C, count := 7, mask := fullMask }, { base := b + 0x40, mask := tbl },
  { base := b + 0x44, count := 2, mask := fullMask } ]

/-- One command port (R360). -/
def cmdRows (b : Nat) : List RegRow := [
  { base := b, count := 64, mask := fullMask, rw := fullMask },
  { base := b + 0x100, mask := 0x80FF00F1, act := true }, { base := b + 0x104, mask := fullMask } ]

/-- Shutter sets, counts and plate slots (R391). -/
def shutRows (b : Nat) (set : Half) : List RegRow := [
  { base := b, count := 16, mask := set, rwl := set }, { base := b + 0x40, mask := fullMask, act := true } ]

/-- Channel blocks (R169): the words of the image; the others have a field of the channel behind them. -/
def chanRows (c : Nat) : List RegRow :=
  let b := 0x1000 + 0x80 * c
  [{ base := b, mask := 0x0007C01F, rwl := 0x0007C01F, reset := 0x18 }, { base := b + 4, mask := 0xFFFFFF00, rwl := 0xFFFFFF00 },
   { base := b + 8, mask := fullMask }, { base := b + 0xC, mask := 0xF3F0FFFF }, { base := b + 0x10, count := 6, mask := fullMask },
   { base := b + 0x28, mask := 0xFFFF }, { base := b + 0x2C, mask := 0xFFFFF }, { base := b + 0x30, mask := 0xFF, act := true },
   { base := b + 0x34, mask := 0xFFFF0007, act := true }, { base := b + 0x38, mask := 0x1FFFF, act := true },
   { base := b + 0x3C, mask := fullMask }, { base := b + 0x40, count := 8, mask := fullMask }, { base := b + 0x60, mask := 3 }]

/-- Ephemeris and station-mask windows, selectors, sync objects, votes (R169, R203, R231, R308). -/
def tsuWinRows : List RegRow := [
  { base := 0x1800, mask := 0xF800FFFF }, { base := 0x1804, count := 4, mask := fullMask },
  { base := 0x1820, mask := 0x78000FFF }, { base := 0x1824, count := 2, mask := fullMask },
  { base := 0x1C00, count := 256, mask := fullMask },
  { base := 0x2000, mask := 0x8001FFFF }, { base := 0x2004, mask := 0xFC000FFF, rwl := 0xFC000FFF },
  { base := 0x2008, mask := 0xFFFF }, { base := 0x200C, mask := 0xE00000FF, act := true }, { base := 0x2010, mask := 0xFFF },
  { base := 0x2014, mask := 0xFFFF80FF, rwl := 0xFFFF80FF }, { base := 0x2018, count := 4, mask := fullMask },
  { base := 0x2028, mask := 0xFFFF01FF, act := true }, { base := 0x202C, mask := 0xFFFF0003, act := true },
  { base := 0x2030, count := 3, mask := fullMask }, { base := 0x203C, mask := fullMask, act := true },
  { base := 0x3000, mask := 0x7000003F }, { base := 0x3004, count := 2, mask := fullMask },
  { base := 0x3100, count := 32, mask := 0xFFFC007F }, { base := 0x3200, count := 32, mask := fullMask },
  { base := 0x3300, mask := fullMask, act := true }, { base := 0x3304, mask := fullMask }, { base := 0x3308, mask := 0xEFFFFFFF },
  { base := 0x3400, mask := 0x7000000F }, { base := 0x3404, mask := 0xFFFE0000, rwl := 0xFFFE0000 },
  { base := 0x3420, count := 16, mask := fullMask } ]

/-- Power and reset (R411). -/
def powerRows : List RegRow := [
  { base := 0x6000, mask := 0xFFF00000 }, { base := 0x6004, mask := 0xFFFF0007, rwl := 0xFFFF0007, reset := 0x00400004 },
  { base := 0x6008, mask := fullMask, rwl := fullMask, reset := 0x460 }, { base := 0x600C, mask := fullMask, rwl := fullMask, reset := 0x40 },
  { base := 0x6010, mask := fullMask, rwl := fullMask, reset := 0x1F40 }, { base := 0x6014, mask := fullMask, rwl := fullMask, reset := 0x61A80 },
  { base := 0x6018, mask := fullMask, rwl := fullMask, reset := 0x9896800 }, { base := 0x601C, count := 2, mask := fullMask },
  { base := 0x6024, mask := fullMask, act := true }, { base := 0x6040, mask := 0xF000FF32, act := true }, { base := 0x6044, mask := 0xF0000000 },
  { base := 0x6048, count := 2, mask := fullMask }, { base := 0x6050, mask := fullMask, act := true } ]

/-- The TSU window. -/
def tsuRows : List RegRow :=
  identRows 0 ++ [{ base := 0x40, mask := 0x00FFFFFF }, { base := 0x44, mask := fullMask }] ++
  timeRows 0x100 ++ tsuTimeRows ++ linkRows 0x200 2 0xFFFF0000 0x00400000 ++
  vrnRows 0x400 ++ [{ base := 0x408, mask := 0x001F1F1F }] ++ convRows 0x440 4 0xE0 0 ++ convRows 0x4C0 1 0xFFF3 0x5A00 ++
  [{ base := 0x600, mask := 0xFF37 }, { base := 0x604, mask := fullMask }] ++
  crRows 0x800 0x00FF0079 0x00040008 ++ refRows 0x840 0 ++ refRows 0x840 1 ++ pulseRows 0x880 1 ++
  ((List.range 8).flatMap chanRows) ++ tsuWinRows ++
  [{ base := 0x4000, mask := fullMask }] ++ fltRows 0x4000 0xF 0x7F ++ [{ base := 0x4050, mask := 0x00FFFFFD, act := true }] ++
  cmdRows 0x5000 ++
  [{ base := 0x5200, mask := 0x80000FFF }, { base := 0x5204, mask := fullMask, act := true }, { base := 0x5208, count := 7, mask := fullMask },
   { base := 0x5240, mask := 0xDFFF, act := true }, { base := 0x5244, mask := 0x80000FFF }] ++
  powerRows ++ shutRows 0x7000 0xFFFF ++
  [{ base := 0x7080, stride := 0x10, count := 2, mask := 0xE0F0FFFF },
   { base := 0x7084, stride := 0x10, count := 2, mask := fullMask },
   { base := 0x7088, stride := 0x10, count := 2, mask := fullMask },
   { base := 0x708C, stride := 0x10, count := 2, mask := 0x7FFF },
   -- the table spaces behind the windows that reset to another value than zero (R305, R366)
   { base := 0x03031008, stride := 0x10, count := 8, mask := fullMask, img := fullMask, reset := 1024 }]

/-- Management, plates and MSI-X of the BAR (R467, R473). -/
def mgmtRows : List RegRow := [
  { base := 0x60000, count := 3, mask := fullMask }, { base := 0x60010, count := 8, mask := fullMask },
  { base := 0x60040, count := 8, mask := fullMask }, { base := 0x60080, mask := 0x00FFFFFF, reset := 0x00FFFFFF },
  { base := 0x60084, count := 15, mask := fullMask, rwl := fullMask }, { base := 0x60100, mask := 0xE000001D, act := true },
  { base := 0x60200, count := 128, mask := fullMask, rw := fullMask },
  { base := 0x60400, mask := 0xCF000000, rwl := 0xCF000000, reset := 0x4A000000 },
  { base := 0x60410, stride := 0x20, count := 16, mask := 0x8000FFFF, rwl := 0x8000FFFF },
  { base := 0x60414, stride := 0x20, count := 16, mask := fullMask, rwl := fullMask },
  { base := 0x60418, stride := 0x20, count := 16, mask := fullMask, rwl := fullMask },
  { base := 0x6041C, stride := 0x20, count := 16, mask := fullMask, rwl := fullMask },
  { base := 0x60420, stride := 0x20, count := 16, mask := fullMask, rwl := fullMask },
  { base := 0x60620, stride := 8, count := 4, mask := fullMask, rwl := fullMask },
  { base := 0x60624, stride := 8, count := 4, mask := 0x8000FFFF, rwl := 0x8000FFFF },
  { base := 0x70080, mask := 0xFFFF }, { base := 0x7F000, count := 256, mask := fullMask, rw := fullMask },
  { base := 0x7F800, count := 2, mask := fullMask } ]

/-- Ports, spares, groups, fabric, divergence, lost lists, tracker and completions of the BAR (R467, R472). -/
def jupTableRows : List RegRow := [
  { base := 0x80000, count := 88, mask := 0xF000FFFF, img := 0xF000FFFF }, { base := 0x81000, count := 704, mask := 0x80007FFF, img := 0x80007FFF },
  { base := 0x82000, mask := 0xFFFF, rw := 0xFFFF }, { base := 0x82004, mask := fullMask }, { base := 0x82008, mask := 0xFFFF },
  { base := 0x90000, mask := 0x80000FFF }, { base := 0x90004, mask := 0xC07FFFFF }, { base := 0x90008, mask := fullMask, act := true },
  { base := 0x9000C, mask := 0xFFFF0001, act := true }, { base := 0x90010, count := 8, mask := 0xC001FFFF },
  { base := 0x90030, count := 3, mask := fullMask }, { base := 0x98000, count := 1536, mask := 0xC00000FF, rwl := 0xC00000FF },
  { base := 0x9B000, mask := 0xFFFF01FF, act := true }, { base := 0x9C000, count := 4096, mask := fullMask },
  { base := 0xA1000, mask := 0xFFFE0FFF }, { base := 0xA1004, count := 2, mask := fullMask },
  { base := 0x200000, stride := 0x20, count := 65536, mask := 0xFE007FFF }, { base := 0x200018, stride := 0x20, count := 65536, mask := 0 },
  { base := 0x20001C, stride := 0x20, count := 65536, mask := 0 }, { base := 0x200000, count := 524288, mask := fullMask },
  { base := 0x400000, stride := 0x40, count := 65536, mask := 0xFFFF8000, act := true },
  { base := 0x400000, count := 1048576, mask := fullMask },
  -- BUDGET of a job record, then the records (R469, R470)
  { base := 0xD8001C, stride := 0x100, count := 1024, mask := fullMask, rw := fullMask },
  { base := 0x800000, count := 0x100000, mask := fullMask, img := fullMask }, { base := 0xD00000, count := 0x20000, mask := fullMask, img := fullMask },
  { base := 0xD80000, count := 0x10000, mask := fullMask, img := fullMask } ]

/-- A port's time block (R467). -/
def portTimeRows : List RegRow := [
  { base := 0x11000, stride := 0x40, count := 96, mask := fullMask }, { base := 0x11004, stride := 0x40, count := 96, mask := fullMask },
  { base := 0x11008, stride := 0x40, count := 96, mask := fullMask }, { base := 0x1100C, stride := 0x40, count := 96, mask := 0xFFFF, act := true },
  { base := 0x11010, stride := 0x40, count := 96, mask := fullMask }, { base := 0x11014, stride := 0x40, count := 96, mask := fullMask },
  { base := 0x11018, stride := 0x40, count := 96, mask := fullMask }, { base := 0x1101C, stride := 0x40, count := 96, mask := fullMask },
  { base := 0x11020, stride := 0x40, count := 96, mask := 0xFFFF, act := true }, { base := 0x11024, stride := 0x40, count := 96, mask := 3, act := true } ]

/-- The Jupin BAR. -/
def jupRows : List RegRow :=
  [{ base := 0, mask := 0xFFFFFFF0, img := 0xF0 }, { base := 0x10020, mask := 0x3FFFF, rwl := 0x3FFFF },
   { base := 0x10024, count := 5, mask := fullMask, rwl := fullMask }, { base := 0x3000, mask := 0x4001FFFF, act := true },
   { base := 0x3004, mask := 0x8000FFFF }] ++
  identRows 0 ++ ((List.range 16).flatMap fun n => cmdRows (0x4000 + 0x400 * n)) ++
  timeRows 0x10000 ++ portTimeRows ++ linkRows 0x13000 96 0xFFFF1F00 0x00401700 ++
  vrnRows 0x20000 ++ [{ base := 0x20100, count := 7, mask := fullMask }, { base := 0x20120, count := 7, mask := fullMask },
    { base := 0x20140, count := 7, mask := fullMask }] ++
  convRows 0x21000 192 0xE0 0 ++ convRows (0x21000 + 0x20 * 192) 6 0xFFF0 0x5A00 ++
  [{ base := 0x23000, mask := 0xFF00FF30 }, { base := 0x23004, mask := fullMask }] ++
  crRows 0x28000 0xFFFF0079 0xBB040008 ++ ((List.range 8).flatMap fun n => refRows 0x28040 n) ++ pulseRows 0x28100 2 ++
  [{ base := 0x28140, stride := 8, count := 4, mask := 0xFF000003, rw := 0x0F000000, rwl := 0xF0000003, reset := 0xFF000000 },
   { base := 0x28144, stride := 8, count := 4, mask := fullMask, rwl := fullMask, reset := 0x5F5E1000 }] ++
  fltRows 0x30000 0x7F 0x1FF ++
  [{ base := 0x30100, count := 8, mask := fullMask }, { base := 0x30200, mask := 0xFFFF1FFF, act := true }, { base := 0x30204, mask := 0xFFF },
   { base := 0x30208, mask := 0x1FFF, act := true }, { base := 0x40000, count := 32768, mask := fullMask }] ++
  shutRows 0x70000 0x1FFFF ++ mgmtRows ++ jupTableRows

def regRows : Dev → List RegRow
  | .tsu => tsuRows
  | .jup => jupRows

/-- The row of an offset; none where the spec assigns no register (R461). -/
def regRow (d : Dev) (off : Nat) : Option RegRow := (regRows d).find? fun r => r.has off

/-- Assigned bits of a record word of the Jupin, by its place in the record: the low half or the high half of word `w` (R469,
R470). -/
def recMask (off : Nat) : Half :=
  let w := off % 0x100 / 8
  let hi := decide (off % 8 = 4)
  if off < 0x900000 ∨ (0xA00000 ≤ off ∧ off < 0xB00000) then
    if w = 0 then (if off < 0x900000 then (if hi then fullMask else 0xFFFFFFFD) else (if hi then 0xFFFF8000 else 1))
    else if w = 1 then (if off < 0x900000 ∧ hi then 0xFFFFFF00 else 0)
    else if w < 18 then (if hi then 0x80000003 else fullMask)
    else if off < 0x900000 then 0xC0FFC0FF else 0
  else if off < 0xA00000 then fullMask
  else if off < 0xD00000 then
    let t := (off - 0xB00000) % 0x200 / 8
    if t = 0 then (if hi then 0xFFFE0000 else 1)
    else if t = 1 then fullMask
    else if t = 2 then (if hi then 0 else 0x00FFFFFF)
    else if t < 47 then 0x1FFFF else 0
  else if off < 0xD80000 then (if hi then fullMask else 0xFFFFFFFD)
  else if w = 0 then (if hi then fullMask else 0xFFFFFF03)
  else if w = 3 then (if hi then fullMask else 0xFFFFF)
  else if w = 6 then (if hi then 0xFF else fullMask)
  else if w = 7 then (if hi then fullMask else 0x1FFF)
  else if w = 8 then (if hi then fullMask else 0xFF)
  else if w = 9 then (if hi then 0xFF000000 else 0x7FFFFFFF)
  else if w < 6 then fullMask else 0
/-- Assigned bits of a word. -/
def wordMask (d : Dev) (off : Nat) (r : RegRow) : Half :=
  if d = .jup ∧ 0x800000 ≤ off then recMask off else r.mask

/-- Reset value of the word at an offset. -/
def regReset (d : Dev) (off : Nat) : Half := ((regRow d off).map RegRow.reset).getD 0

/-- A stored register word. -/
def State.reg (s : State) (d : Dev) (off : Nat) : Half := tget (regReset d off) (s.com d).regs off

/-- Store a register word. -/
def State.setReg (s : State) (d : Dev) (off : Nat) (v : Half) : State :=
  s.modCom d fun c => { c with regs := tset (regReset d off) c.regs off v }

/-- A 64-bit record word, low half first. -/
def State.reg64 (s : State) (d : Dev) (off : Nat) : Word := (s.reg d (off + 4)) ++ (s.reg d off)
def State.setReg64 (s : State) (d : Dev) (off : Nat) (v : Word) : State :=
  (s.setReg d off (v.extractLsb' 0 32)).setReg d (off + 4) (v.extractLsb' 32 32)

/-- Offsets, multiples of `al`, of the records with a listed word from `base` to `base + size - 1`. -/
def State.listed (s : State) (d : Dev) (base size al : Nat) : List Nat :=
  ((s.com d).regs.filterMap fun (k, _) => if base ≤ k ∧ k < base + size then some (k - (k - base) % al) else none).eraseDups

/-- STATE of JP_PORT_HEALTH as stored: 2 WATCHED, 3 EXPELLED, 0 otherwise; and the write of it (R324, R472). -/
def portHealthOff (p : Nat) : Nat := 0x80000 + 4 * p
def State.healthState (s : State) (p : Nat) : Nat := fld (s.reg .jup (portHealthOff p)) 31 30
def State.setHealth (s : State) (p st : Nat) : State :=
  s.setReg .jup (portHealthOff p) ((s.reg .jup (portHealthOff p) &&& 0x3FFFFFFF) ||| put 32 31 30 st)
/-- Writes of the port-ownership table, and the port whose channel one takes for a job (R467). -/
def takesPort (off : Nat) (v : Half) : Option Nat :=
  if 0x81000 ≤ off ∧ off < 0x81B00 ∧ v.getLsbD 31 then some ((off - 0x81000) / 32) else none

/-! ### Writes of several sources on one CSR cycle (R463) -/

/-- The order of R463: the later stands. -/
def Src.order : Src → Nat
  | .image => 0
  | .cg => 1
  | .host => 2
  | .jtag => 3
/-- A source that comes later in that order has written the word on this CSR cycle. -/
def State.csrLater (s : State) (d : Dev) (src : Src) (off : Nat) : Bool :=
  decide ((s.com d).csrAt = (s.now d).toNat / 8) && (s.com d).csrWr.any fun e => decide (e.1 = off ∧ Src.order src < e.2)
/-- A write of a stored word: it changes nothing where a later source's value stands. -/
def State.csrPut (s : State) (d : Dev) (src : Src) (off : Nat) (f : State → State) : State :=
  if s.csrLater d src off then s
  else
    let cycle := (s.now d).toNat / 8
    (f s).modCom d fun c => { c with csrAt := cycle, csrWr := (off, Src.order src) :: if c.csrAt = cycle then c.csrWr.filter fun e => !decide (e.1 = off) else [] }

/-- ROLE and SIDE of JP_ID (R467): 0 no role, 1 L4, 2 L5, 3 L6; 0 side A, 1 B, 2 hot-standby. -/
def State.idRole (s : State) : Nat := fld (s.reg .jup 0) 7 6
/-- The role in force: ROLE once the image is sealed, and none before (R13). -/
def State.role (s : State) : Nat := if s.jupC.sec.sealedImg then s.idRole else 0
def State.side (s : State) : Nat := fld (s.reg .jup 0) 5 4

/-- SKEW_LIMIT and LOCK_THR of TSU_TIME_CTRL. -/
def State.skewLimit (s : State) (d : Dev) : Nat := fld (s.reg d (timeBase d + 0x0C)) 31 16
def State.lockThr (s : State) (d : Dev) : Nat := fld (s.reg d (timeBase d + 0x0C)) 15 0
/-- DELTA_LIMIT, TEMP_LIMIT, RING_EN, CAL_MODE, CAL_MAX_AGE. -/
def State.deltaLimit (s : State) (d : Dev) : Nat := fld (s.reg d (vrnBase d)) 31 16
def State.tempLimit (s : State) (d : Dev) : Nat := fld (s.reg d (vrnBase d)) 15 8
def State.ringEn (s : State) (d : Dev) : Bool := (s.reg d (vrnBase d)).getLsbD 1
def State.calManual (s : State) (d : Dev) : Bool := (s.reg d (vrnBase d)).getLsbD 0
def State.calMaxAge (s : State) (d : Dev) : Nat := (s.reg d (vrnBase d + 4)).toNat
/-- Fields of TSU_CR_CTRL. -/
def State.crCtrl (s : State) (d : Dev) : Half := s.reg d (crBase d)
def State.aonUplink (s : State) : Nat := fld (s.crCtrl .tsu) 4 4
def State.revert (s : State) (d : Dev) : Bool := (s.crCtrl d).getLsbD 3
def State.wtrMode (s : State) (d : Dev) : Bool := (s.crCtrl d).getLsbD 0
def State.wtrTime (s : State) (d : Dev) : Nat := min 720 (fld (s.reg d (crBase d + 0x0C)) 9 0)
def State.priority (s : State) (d : Dev) (r : Nat) : Nat := fld (s.reg d (refBase d r)) 7 4
def State.pstepRate (s : State) (d : Dev) : Nat := fld (s.reg d (crBase d + 0x20)) 15 0
def State.replayMax (s : State) (d : Dev) (n : Nat) : Nat := fld (s.reg d (linkBase d n + 4)) 31 16
def State.downLog2 (s : State) (n : Nat) : Nat := fld (s.reg .jup (linkBase .jup n + 4)) 12 8

end Sys2Proof.Machine
end

