-- ==== Sys2Proof/Machine/Operands.lean ====
section
/-! DEFINITION. Operand forms: the words of messages, command targets, fault contexts, and who is parent or child
on a link. -/
namespace Sys2Proof.Machine

/-! ## Message types (R236) -/

def mtTimeCode : BitVec 8 := 0x01
def mtQuality : BitVec 8 := 0x02
def mtShutter : BitVec 8 := 0x03
def mtFence : BitVec 8 := 0x04
def mtControl : BitVec 8 := 0x05
def mtCommand : BitVec 8 := 0x10
def mtVote : BitVec 8 := 0x11
def mtResult : BitVec 8 := 0x12
def mtSignal : BitVec 8 := 0x13
def mtConjArrive : BitVec 8 := 0x14
def mtConjRelease : BitVec 8 := 0x15
def mtGroup : BitVec 8 := 0x16
def mtDelivery : BitVec 8 := 0x17
def mtCompletion : BitVec 8 := 0x18
def mtPeerFence : BitVec 8 := 0x19
def mtImage : BitVec 8 := 0x20
def mtAppend : BitVec 8 := 0x21
def mtPlate : BitVec 8 := 0x22
def mtRestore : BitVec 8 := 0x23
def mtWindow : BitVec 8 := 0x24
def mtAbort : BitVec 8 := 0x25

/-- Virtual channels (R234). -/
inductive Vc
  | idle | time | step | bulk
  deriving DecidableEq, Repr

def Vc.code : Vc → Nat
  | .idle => 0
  | .time => 1
  | .step => 2
  | .bulk => 3

/-- The VC an assigned MTYPE belongs to and the LEN it admits; none for a reserved MTYPE (R236). -/
def mtypeForm (m : BitVec 8) : Option (Vc × Nat × Nat) :=
  match m.toNat with
  | 0x01 => some (.time, 2, 2)
  | 0x02 => some (.time, 1, 1)
  | 0x03 => some (.time, 2, 2)
  | 0x04 => some (.time, 2, 2)
  | 0x05 => some (.time, 4, 4)
  | 0x10 => some (.step, 2, 32)
  | 0x11 => some (.step, 2, 18)
  | 0x12 => some (.step, 3, 19)
  | 0x13 => some (.step, 3, 3)
  | 0x14 => some (.step, 2, 2)
  | 0x15 => some (.step, 2, 2)
  | 0x16 => some (.step, 2, 32)
  | 0x17 => some (.step, 2, 2)
  | 0x18 => some (.step, 2, 8)
  | 0x19 => some (.step, 2, 2)
  | 0x20 => some (.bulk, 1, 4095)
  | 0x21 => some (.bulk, 1, 4095)
  | 0x22 => some (.bulk, 1, 4095)
  | 0x23 => some (.bulk, 1, 4095)
  | 0x24 => some (.bulk, 1, 1)
  | 0x25 => some (.bulk, 1, 1)
  | _ => none

/-- The link header word of a message (R235). LEN counts the words that are still to come. -/
def Msg.header (m : Msg) : Word :=
  put 64 63 56 m.mtype.toNat ||| put 64 55 44 (m.words.length + m.want) ||| put 64 43 42 m.route.toNat |||
  put 64 41 32 m.flow.toNat ||| put 64 31 0 m.addr.toNat

/-- The message of a header word and its contents. -/
def msgOf (h : Word) (ws : List Word) : Msg :=
  { mtype := h.extractLsb' 56 8, route := h.extractLsb' 42 2, flow := h.extractLsb' 32 10,
    addr := h.extractLsb' 0 32, words := ws }

/-- A LOCAL message of STEP or TIME. -/
def localMsg (m : BitVec 8) (ws : List Word) : Msg := { mtype := m, route := 0, flow := 0, addr := 0, words := ws }
/-- A journal append of a job, on its flow (R273). -/
def appendMsg (job : BitVec 15) (ws : List Word) : Msg := { mtype := mtAppend, route := 0, flow := Config.jobFlow job, addr := 0, words := ws }
/-- A message routed by a Jupin from its contents. -/
def jobMsg (m : BitVec 8) (ws : List Word) : Msg := { mtype := m, route := 1, flow := 0, addr := 0, words := ws }
/-- A message routed by a path word. -/
def pathMsg (m : BitVec 8) (p : BitVec 32) (ws : List Word) : Msg := { mtype := m, route := 2, flow := 0, addr := p, words := ws }

/-- Queue a message on a link, on the VC of its MTYPE. -/
def State.send (s : State) (d : Dev) (n : Nat) (m : Msg) : State :=
  s.modTx d n fun t =>
    match mtypeForm m.mtype with
    | some (.time, _, _) => { t with qTime := t.qTime ++ [m] }
    | some (.bulk, _, _) => { t with qBulk := t.qBulk ++ [m] }
    | _ => { t with qStep := t.qStep ++ [m] }

/-- Queue a message on several links, in order. -/
def State.sendAll (s : State) (d : Dev) (ns : List Nat) (m : Msg) : State := ns.foldl (fun s n => s.send d n m) s

/-- A message is taken from the inbox as it acts. -/
def State.consume (s : State) (d : Dev) (n : Nat) (mt : BitVec 8) (ws : List Word) : State :=
  s.modCom d fun c => { c with inbox := (
    match c.inbox.find? fun (k, m) => decide (k = n ∧ m.mtype = mt ∧ m.words = ws) with
    | some e => dropOne e c.inbox
    | none => c.inbox) }

/-- The command message that a command to a channel comes by is taken from the inbox. -/
def State.takeCommand (s : State) (op : BitVec 8) : State :=
  s.modCom .tsu fun c => { c with inbox := (
    match c.inbox.find? fun (_, m) => decide (m.mtype = mtCommand ∧ (m.words.headD 0).extractLsb' 56 8 = op) with
    | some e => dropOne e c.inbox
    | none => c.inbox) }

/-! ## Time codes (R41) -/

/-- A time code. -/
def timeCode (st : Stamp) (echo : Int) (temp : BitVec 8) (state : Nat) (seq : Nat) : BitVec 128 :=
  put 128 127 64 st.tick.toNat ||| put 128 63 48 st.frac.toNat ||| put 128 47 16 (BitVec.ofInt 32 echo).toNat |||
  put 128 15 8 temp.toNat ||| put 128 7 5 state ||| put 128 4 0 seq

def codeStamp (c : BitVec 128) : Stamp := { tick := c.extractLsb' 64 64, frac := c.extractLsb' 48 16 }
def codeEcho (c : BitVec 128) : Int := (c.extractLsb' 16 32).toInt
def codeTemp (c : BitVec 128) : BitVec 8 := c.extractLsb' 8 8
def codeState (c : BitVec 128) : BitVec 3 := c.extractLsb' 5 3
def codeSeq (c : BitVec 128) : BitVec 5 := c.extractLsb' 0 5

/-- Encoding of R54. -/
def TimeState.code : TimeState → Nat
  | .unset => 0
  | .acquiring => 1
  | .locked => 2
  | .degraded => 3
  | .lost => 4

/-- Encoding of R99. -/
def CrState.code : CrState → Nat
  | .free => 0
  | .acquire => 1
  | .track => 2
  | .holdover => 3
  | .lowrate => 4

/-- Encoding of R90. -/
def RefState.code : RefState → Nat
  | .absent => 0
  | .failed => 1
  | .pending => 2
  | .qualified => 3

/-- Encoding of R255. -/
def LState.code : LState → Nat
  | .down => 0
  | .train => 1
  | .align => 2
  | .timing => 3
  | .service => 4

/-! ## Asymmetry entries (R47) -/

def asymMed (e : BitVec 128) : Int := (e.extractLsb' 96 32).toInt
def asymD0 (e : BitVec 128) : Nat := (e.extractLsb' 64 32).toNat
def asymDev (e : BitVec 128) : Int := (e.extractLsb' 48 16).toInt
def asymT0Local (e : BitVec 128) : Int := (e.extractLsb' 40 8).toInt
def asymT0Far (e : BitVec 128) : Int := (e.extractLsb' 32 8).toInt
def asymKLocal (e : BitVec 128) : Int := (e.extractLsb' 20 12).toInt
def asymKFar (e : BitVec 128) : Int := (e.extractLsb' 8 12).toInt
def asymValid (e : BitVec 128) : Bool := e.getLsbD 0

/-- The entry in the active bank, and in the inactive one. -/
def Asym.active (a : Asym) : BitVec 128 := if a.bank then a.bank1 else a.bank0
def Asym.inactive (a : Asym) : BitVec 128 := if a.bank then a.bank0 else a.bank1
def Asym.setInactive (a : Asym) (e : BitVec 128) : Asym := if a.bank then { a with bank0 := e } else { a with bank1 := e }

/-! ## Contexts of faults (R315) -/

/-- A context; a field left out holds its "none" value. -/
structure Ctx where
  ch : BitVec 4 := 0xF
  core : BitVec 11 := 0x7FF
  slot : BitVec 6 := 0x3F
  group : BitVec 12 := 0xFFF
  index : BitVec 16 := 0xFFFF
  detail : BitVec 15 := 0
  deriving DecidableEq, Repr

def Ctx.word (c : Ctx) : BitVec 64 :=
  put 64 63 60 c.ch.toNat ||| put 64 59 49 c.core.toNat ||| put 64 48 43 c.slot.toNat ||| put 64 42 31 c.group.toNat |||
  put 64 30 15 c.index.toNat ||| put 64 14 0 c.detail.toNat

/-- A count in DETAIL saturates at 0x7FFF. -/
def detail (n : Nat) : BitVec 15 := BitVec.ofNat 15 (min n 0x7FFF)

/-- A context that names a channel. -/
def chCtx (c : Nat) : Ctx := { ch := BitVec.ofNat 4 c }
/-- A context that names a port. -/
def portCtx (p : Nat) : Ctx := { index := BitVec.ofNat 16 p }

/-! ## Parents and children (R14, R39, R89, R264) -/

/-- The Jupin's image has been sealed, so it has its role (R13). -/
def State.hasRole (s : State) : Bool := s.jupC.sec.sealedImg && decide (s.role ≠ 0)

/-- The ports on which the root's hot-standby takes time from master side A or B (R89). -/
def standbyTimePorts (masterB : Bool) : List Nat := if masterB then [95, 91] else [94, 90]

/-- STRAP_TEST: production test, in which only JTAG answers (R440). -/
def State.testMode (s : State) : Bool := s.jup.straps.getLsbD 7

/-- Ports held in electrical idle: 88 and 89 in role L6 (R15); 0 to 87, 92 and 93 of a hot-standby (R264); all in main reset and in
production test (R440, R444). -/
def State.idlePort (s : State) (d : Dev) (n : Nat) : Bool :=
  match d with
  | .tsu => false
  | .jup => s.jup.mainLow || s.testMode || s.hasRole && ((decide (s.role = 3) && decide (n = 88 ∨ n = 89)) ||
      (decide (s.side = 2) && decide (n < 88 ∨ n = 92 ∨ n = 93)))

/-- SIDE of the pair's device at the far end of port `n`, 90 to 95 (R14, R264). -/
def State.farSide (s : State) (n : Nat) : Nat :=
  if s.side = 2 then (if n = 90 ∨ n = 94 then 0 else 1)
  else if n < 94 then 1 - s.side else 2

/-- SIDE of the pair's device from which the others take time: the time master at the root, and side A in every other pair,
which the manual leaves open (R40; assumption 147). -/
def State.headSide (s : State) : Nat :=
  if s.role = 3 then (if s.jup.timeMaster then s.side else if s.jup.masterB then 1 else 0) else 0

/-- On a link between two devices of a pair this device is M: the time master is, and of two others the one that comes
first among A, B, hot-standby (R40; assumption 147). -/
def State.pairParent (s : State) (n : Nat) : Bool :=
  if s.side = s.headSide then true
  else if s.farSide n = s.headSide then false
  else decide (s.side < s.farSide n)

/-- Device `d` is the child end C of link `n` (R40, R89). -/
def State.isChild (s : State) (d : Dev) (n : Nat) : Bool :=
  match d with
  | .tsu => true
  | .jup => !s.idlePort .jup n && (decide (n = 88 ∨ n = 89) || (decide (90 ≤ n) && !s.pairParent n))

/-- The root's image admits down port `p` to the step domain (R19): bit p mod 32 of JP_ADMIT word ⌊p/32⌋. -/
def State.admits (s : State) (p : Nat) : Bool := (s.reg .jup (0x1002C + 4 * (p / 32))).getLsbD (p % 32)

/-- Device `d` is the parent end M of link `n`. A root gives no TIME service on a port outside its domain (R19). -/
def State.isParent (s : State) (d : Dev) (n : Nat) : Bool :=
  match d with
  | .tsu => false
  | .jup => !s.idlePort .jup n &&
      (if n < 88 then decide (s.role ≠ 3) || s.admits n else decide (90 ≤ n) && s.pairParent n)

/-- The links that carry a reference; none for an external input (R89). -/
def State.refLinks (s : State) (d : Dev) (r : Nat) : List Nat :=
  match d with
  | .tsu => [r]
  | .jup =>
    match r with
    | 4 => [88]
    | 5 => [89]
    | 6 => [90, 91, 92, 93]
    | 7 => standbyTimePorts s.jup.masterB
    | _ => []

/-- A link of a group that brings time: trained, and its parent not lost (R44, R255). -/
def Link.brings (l : Link) : Bool :=
  (decide (l.ctl.lstate = .align) || decide (l.ctl.lstate = .timing) || decide (l.ctl.lstate = .service)) &&
  decide (l.time.consecInvalid < 64)

/-- The link by which a reference is taken: the first of its group that brings time, and the first while none does
(assumption 16). -/
def State.refLink (s : State) (d : Dev) (r : Nat) : Option Nat :=
  match s.refLinks d r with
  | [] => none
  | n :: ns => some (((n :: ns).find? fun k => (s.link d k).brings).getD n)

/-- The reference a link carries, if any. -/
def State.linkRef (s : State) (d : Dev) (n : Nat) : Option Nat :=
  (List.range (nRefs d)).find? fun r => (s.refLinks d r).contains n

/-- Reference `r` is a candidate of the role, with a nonzero PRIORITY (R89). -/
def State.candidate (s : State) (d : Dev) (r : Nat) : Bool :=
  decide (s.priority d r ≠ 0) &&
  match d with
  | .tsu => decide (r < 2)
  | .jup =>
    if r < 4 then decide (s.role = 3) && s.jup.timeMaster
    else if r < 6 then decide (s.role = 1 ∨ s.role = 2)
    else if r = 6 then decide (s.role = 3) && !s.jup.timeMaster && decide (s.side ≠ 2)
    else decide (s.role = 3) && !s.jup.timeMaster && decide (s.side = 2)

/-- The root time master (R39, R100). -/
def State.rootMaster (s : State) (d : Dev) : Bool :=
  match d with
  | .tsu => false
  | .jup => s.hasRole && decide (s.role = 3) && s.jup.timeMaster

/-- The path word of the device (R17): the ports that a parent announced, or the root's own; NODE is its own side. -/
def State.selfPath (s : State) (d : Dev) : BitVec 32 :=
  match d with
  | .tsu => if (s.link .tsu 0).ctl.path ≠ 0 then (s.link .tsu 0).ctl.path else (s.link .tsu 1).ctl.path
  | .jup =>
    if s.role = 3 then
      put 32 31 29 (s.side + 1) ||| put 32 28 21 s.jup.rootP.toNat ||| put 32 20 14 127 ||| put 32 13 7 127 ||| put 32 6 0 127
    else
      let p := if (s.link .jup 88).ctl.path ≠ 0 then (s.link .jup 88).ctl.path else (s.link .jup 89).ctl.path
      if p = 0 then 0 else (p &&& 0x1FFFFFFF) ||| put 32 31 29 (s.side + 1)

/-! ## The links of a pair (R14, R264) -/

/-- Of several links to one device, the one that carries a message: spread by a key over those in SERVICE, so that messages
of one key keep their order; the first while none is (assumption 160). -/
def State.linkOf (s : State) (ns : List Nat) (key : Nat) : Nat :=
  let up := ns.filter fun n => decide ((s.link .jup n).ctl.lstate = .service)
  (up[key % up.length]?).getD (ns.headD 90)

/-- The links to the other devices of the pair: the peer group and the hot-standby's, or at the hot-standby the members'. -/
def State.pairLinks (s : State) : List (List Nat) :=
  if s.side = 2 then [[94, 90], [95, 91]] else [[90, 91, 92, 93], [94, 95]]
/-- One link to each of the two other devices of the pair, for a key. -/
def State.pairPorts (s : State) (key : Nat) : List Nat := s.pairLinks.map fun ns => s.linkOf ns key
/-- The link to the pair partner; at the hot-standby, to side A. -/
def State.peerPort (s : State) (key : Nat) : Nat := s.linkOf (s.pairLinks.headD []) key

/-! ## The logical map (R20, R469) -/

/-- A logical-map run: ranks FIRST to LAST of a job share a port, side and state. -/
structure MapRun where
  job : BitVec 15
  first : BitVec 17
  last : BitVec 17
  port : BitVec 7
  channel : BitVec 3
  side : BitVec 1
  /-- 0 VALID, 1 WATCHED, 2 FENCED. -/
  state : BitVec 2
  deriving DecidableEq, Repr

def mapBase : Nat := 0x00D00000
def mapSize : Nat := 0x80000

def runOf (w : Word) : MapRun :=
  { job := w.extractLsb' 49 15, first := w.extractLsb' 32 17, last := w.extractLsb' 15 17, port := w.extractLsb' 8 7,
    channel := w.extractLsb' 5 3, side := w.extractLsb' 4 1, state := w.extractLsb' 2 2 }

def MapRun.word (m : MapRun) : Word :=
  put 64 63 49 m.job.toNat ||| put 64 48 32 m.first.toNat ||| put 64 31 15 m.last.toNat ||| put 64 14 8 m.port.toNat |||
  put 64 7 5 m.channel.toNat ||| put 64 4 4 m.side.toNat ||| put 64 3 2 m.state.toNat ||| 1

/-- The valid runs that the table holds, with their BAR offsets, in table order. -/
def State.tableRuns (s : State) : List (Nat × MapRun) :=
  (s.listed .jup mapBase mapSize 8).filterMap fun o => if (s.reg64 .jup o).getLsbD 0 then some (o, runOf (s.reg64 .jup o)) else none

/-- The runs of the logical map; a Jupin without a verified image holds none (R13). -/
def State.mapRuns (s : State) : List (Nat × MapRun) := if s.jupC.sec.sealedImg then s.tableRuns else []

/-- The run that resolves a rank of a job (R20, R21). -/
def State.resolve (s : State) (job : BitVec 15) (rank : BitVec 17) : Option MapRun :=
  (s.mapRuns.find? fun (_, m) => decide (m.job = job ∧ m.first ≤ rank ∧ rank ≤ m.last)).map Prod.snd

/-! ## Command targets (R342) -/

/-- TKIND of a target. -/
def Target.kind : Target → Nat
  | .self => 0
  | .path _ => 1
  | .job _ _ _ => 2
  | .port _ => 3

/-- Word 1 of a command. -/
def Target.word : Target → Word
  | .self => 0
  | .path p => put 64 31 0 p.toNat
  | .job j a b => put 64 63 49 j.toNat ||| put 64 48 32 b.toNat ||| put 64 16 0 a.toNat
  | .port p => put 64 6 0 p.toNat

/-- The job target of a word. -/
def jobTarget (w : Word) : Target := .job (w.extractLsb' 49 15) (w.extractLsb' 0 17) (w.extractLsb' 32 17)

/-- A staged write as a word of R352, and back. -/
def StagedWrite.word (w : StagedWrite) : Word := put 64 63 40 w.offset.toNat ||| put 64 31 0 w.value.toNat
def stagedOf (w : Word) : StagedWrite := { offset := w.extractLsb' 40 24, value := w.extractLsb' 0 32 }

end Sys2Proof.Machine
end

