-- ==== Sys2Proof/Machine/Flags.lean ====
section
/-! DEFINITION. Fault codes, the first-fault latch, grading, severity and reports (R309 to R322): one operation that
every command raises its faults through. -/
namespace Sys2Proof.Machine

/-- Fault codes are 16 bits (R309). -/
abbrev Code := BitVec 16

def cTimeLost : Code := 0x1001
def cEpochSplit : Code := 0x1002
def cParentSkew : Code := 0x1003
def cAsymInvalid : Code := 0x1004
def cAsymTableBad : Code := 0x1005
def cMasterChange : Code := 0x1006
def cAcqFail : Code := 0x1007
def cCalShift : Code := 0x1010
def cCalBad : Code := 0x1011
def cCalStale : Code := 0x1012
def cLinkParity : Code := 0x2001
def cReplayLimit : Code := 0x2002
def cLinkCredit : Code := 0x2003
def cSeqGap : Code := 0x2004
def cBadMsg : Code := 0x2005
def cTrainFail : Code := 0x2006
def cSessionLost : Code := 0x2007
def cLinkDown : Code := 0x2008
def cFlightLong : Code := 0x2009
def cStaleGen : Code := 0x200A
def cRoleMismatch : Code := 0x200B
def cStepLate : Code := 0x3001
def cStepOverrun : Code := 0x3002
def cSelPending : Code := 0x3003
def cStationBusy : Code := 0x3004
def cGateOrder : Code := 0x3005
def cLockSkew : Code := 0x3006
def cCommitFail : Code := 0x3007
def cEphParity : Code := 0x3008
def cEphRange : Code := 0x3009
def cBadKind : Code := 0x300A
def cWatchdog : Code := 0x300B
def cSramParity : Code := 0x300C
def cRepeatBroken : Code := 0x300D
def cVoteMissing : Code := 0x4001
def cVoteNan : Code := 0x4002
def cVoteStray : Code := 0x4003
def cVoteTickSkew : Code := 0x4004
def cVoteBadGroup : Code := 0x4005
def cVoteContextFull : Code := 0x4006
def cDivergence : Code := 0x4007
def cSyncTimeout : Code := 0x5001
def cSyncBadObject : Code := 0x5002
def cTallyUnderflow : Code := 0x5003
def cTallyOverflow : Code := 0x5004
def cSyncHoldFull : Code := 0x5005
def cConjOverrun : Code := 0x5006
def cConjStray : Code := 0x5007
def cConjFailed : Code := 0x5008
def cConjOpen : Code := 0x5009
def cImageSigBad : Code := 0x6001
def cImageFormat : Code := 0x6002
def cImageSectionBad : Code := 0x6003
def cLifecycleBad : Code := 0x6004
def cTokenBad : Code := 0x6005
def cDebugDenied : Code := 0x6006
def cSupplyWarn : Code := 0x7001
def cBrownoutHold : Code := 0x7002
def cBrownoutFence : Code := 0x7003
def cPowerBudget : Code := 0x7004
def cThermalWarn : Code := 0x7005
def cThermalTrip : Code := 0x7006
def cQuotaOver : Code := 0x8001
def cJrnCrc : Code := 0x8002
def cJrnLate : Code := 0x8003
def cJrnMemUe : Code := 0x8004
def cRestoreMemUe : Code := 0x8005
def cShadowLag : Code := 0x8006
def cMemberLost : Code := 0x8007
def cOpTimeout : Code := 0x8008
def cSpareFloor : Code := 0x8009
def cExpelDeferred : Code := 0x800A
def cRerunLimit : Code := 0x800B
def cNoSpare : Code := 0x800C
def cNoMatch : Code := 0x800D
def cSeqLost : Code := 0x800E
def cInjParity : Code := 0xF001
def cInjSram : Code := 0xF002
def cInjEph : Code := 0xF003
def cInjDigest : Code := 0xF004

/-! ## Severity (R317) -/

/-- What a severity entry says. -/
structure Profile where
  n : Nat
  wLog2 : Nat
  esc : BitVec 2
  graceLog2 : Nat
  hard : Bool
  deriving DecidableEq, Repr

def profA : Profile := { n := 0, wLog2 := 40, esc := 0, graceLog2 := 20, hard := false }
def profB : Profile := { n := 1, wLog2 := 40, esc := 1, graceLog2 := 20, hard := false }
def profC : Profile := { n := 4, wLog2 := 24, esc := 2, graceLog2 := 20, hard := false }
def profD : Profile := { n := 16, wLog2 := 30, esc := 2, graceLog2 := 20, hard := false }
def profE : Profile := { n := 4, wLog2 := 30, esc := 3, graceLog2 := 20, hard := true }
def profF : Profile := { n := 1, wLog2 := 40, esc := 3, graceLog2 := 20, hard := true }

/-- The Default column of R309. -/
def defaultProfile (c : Code) : Profile :=
  if [cTimeLost].contains c then profF
  else if [cStaleGen, cSelPending, cStationBusy, cGateOrder, cLockSkew, cEphRange, cBadKind, cWatchdog, cVoteBadGroup,
      cSyncTimeout, cSyncBadObject, cTallyUnderflow, cTallyOverflow, cConjOverrun, cConjOpen].contains c then profB
  else if [cReplayLimit, cLinkCredit, cSeqGap, cBadMsg, cStepLate, cVoteMissing, cVoteTickSkew, cJrnCrc].contains c then profC
  else if [cStepOverrun, cSyncHoldFull, cImageSectionBad].contains c then profD
  else if [cEphParity, cSramParity].contains c then profE
  else profA

/-- The profile of a severity-table entry (R317). -/
def profileOf (e : BitVec 64) : Profile :=
  let w := fld e 39 34
  { n := fld e 47 40, wLog2 := if 10 ≤ w ∧ w ≤ 40 then w else 40, esc := e.extractLsb' 32 2,
    graceLog2 := max 10 (fld e 31 27), hard := e.getLsbD 26 }

/-- The profile in force for a code: its valid entry, or the default. -/
def Common.profile (c : Common) (code : Code) : Profile :=
  match c.sev.find? fun (_, e) => e.getLsbD 0 && decide (e.extractLsb' 48 16 = code) with
  | some (_, e) => profileOf e
  | none => defaultProfile code

/-! ## The blocks (R313) -/

def State.fblock (s : State) (d : Dev) (b : Nat) : FaultBlock := tget {} (s.com d).blocks b
def State.modBlock (s : State) (d : Dev) (b : Nat) (f : FaultBlock → FaultBlock) : State :=
  s.modCom d fun c => { c with blocks := tmod {} c.blocks b f }

def blkTime : Dev → Nat
  | .tsu => 0
  | .jup => 96
def blkCr : Dev → Nat
  | .tsu => 2
  | .jup => 97
def blkPower : Dev → Nat
  | .tsu => 5
  | .jup => 103
def blkImage : Dev → Nat
  | .tsu => 6
  | .jup => 104
def blkCmd : Dev → Nat
  | .tsu => 7
  | .jup => 105
def blkReducer : Nat := 98
def blkTracker : Nat := 99
def blkRecord : Nat := 100
def blkRestore : Nat := 101
def blkMemory : Nat := 102
def blkChan (c : Nat) : Nat := 8 + c
def blkLink (d : Dev) (n : Nat) : Nat :=
  match d with
  | .tsu => 3 + n
  | .jup => n
def blkConv (d : Dev) (n : Nat) : Nat :=
  match d with
  | .tsu => 1
  | .jup => if n < 192 then n / 2 else 97

/-- Number of blocks of a device. -/
def nBlocks : Dev → Nat
  | .tsu => 16
  | .jup => 106

/-! ## Reports (R316) -/

/-- The four content words of a fault report. -/
def State.reportWords (s : State) (d : Dev) (code : Code) (blk event : Nat) (esc : BitVec 2) (ovf : Bool)
    (tick : Tick) (ctx : BitVec 64) (count : Nat) : List Word :=
  let ch := fld ctx 63 60
  let jr : Word :=
    match d with
    | .tsu => if ch < 8 then put 64 63 49 (s.chan ch).job.toNat ||| put 64 48 32 (s.chan ch).rank.toNat else 0
    | .jup => 0
  [ put 64 63 48 code.toNat ||| put 64 47 40 blk ||| put 64 39 37 event ||| put 64 36 35 esc.toNat ||| bit1 64 34 ovf |||
      put 64 31 0 (s.selfPath d).toNat,
    tick, ctx, jr ||| put 64 31 16 (min count 0xFFFF) ]

/-- An entry of the Jupin's fault log: stored, or counted in LOG_LOST when 4,096 are held (R316). -/
def State.logReport (s : State) (ws : LogEntry) : State :=
  if s.jup.log.length < 4096 then (s.modJup fun j => { j with log := j.log ++ [ws] }).emit (.msix 0)
  else s.modJup fun j => { j with logLost := satInc j.logLost }

/-- A device reports an event of one of its blocks: a TSU to both rack Jupins, a Jupin to its own log (R316). -/
def State.report (s : State) (d : Dev) (ws : List Word) : State :=
  match d with
  | .tsu => s.sendAll .tsu [0, 1] (localMsg mtCompletion ws)
  | .jup => s.logReport ws

/-! ## Raising a fault (R314, R318, R319) -/

/-- An event of a code counts in its window: the counter after it. -/
def Grade.event (g : Grade) (now : Tick) (wLog2 : Nat) : Grade :=
  if g.count = 0 ∨ g.opened.toNat + 2 ^ wLog2 ≤ now.toNat then { count := 1, opened := now }
  else { g with count := g.count + 1 }

/-- The latch of the first fault, or OVERFLOW (R314). -/
def FaultBlock.latch (b : FaultBlock) (now : Tick) (code : Code) (ctx : BitVec 64) : FaultBlock :=
  if b.valid then { b with overflow := true, events := satInc b.events }
  else { b with valid := true, firstCode := code, tick := now, ctx := ctx, events := satInc b.events }

/-- The severe latch and its grace timer (R319). -/
def FaultBlock.severe (b : FaultBlock) (now : Tick) (code : Code) (ctx : BitVec 64) (p : Profile) : FaultBlock :=
  let expiry := now + BitVec.ofNat 64 (2 ^ p.graceLog2)
  if !b.sev then
    { b with sev := true, sevCode := code, sevTick := now, sevCtx := ctx, grace := true, expiry := expiry,
             pendEsc := p.esc, pendHard := p.hard, pendCode := code }
  else if b.grace then
    if decide (b.pendEsc < p.esc) || decide (b.pendEsc = p.esc) && !b.pendHard && p.hard then
      { b with sevOvf := true, pendEsc := p.esc, pendHard := p.hard, pendCode := code }
    else { b with sevOvf := true }
  else if b.esc < p.esc then
    { b with sevOvf := true, grace := true, expiry := expiry, pendEsc := p.esc, pendHard := p.hard, pendCode := code }
  else { b with sevOvf := true }

/-- Record a fault in a block, grade it and report it. -/
def State.latchFault (s : State) (d : Dev) (blk : Nat) (code : Code) (ctx : Ctx) : State :=
  let now := s.now d
  let b := s.fblock d blk
  let p := (s.com d).profile code
  let g := (tget {} b.grades code.toNat).event now p.wLog2
  let b1 := b.latch now code ctx.word
  let becomesSevere := decide (p.n ≠ 0 ∧ g.count = p.n)
  let b2 := if becomesSevere then b1.severe now code ctx.word p else b1
  let b3 := { b2 with grades := tset {} b2.grades code.toNat g }
  let s1 := s.modBlock d blk fun _ => b3
  let s2 := if b.valid then s1
            else s1.report d (s1.reportWords d code blk 0 b3.esc b3.overflow now ctx.word g.count)
  if becomesSevere then s2.report d (s2.reportWords d code blk 1 b3.esc b3.overflow now ctx.word g.count) else s2

/-- A TSU reads its severity table as it grades: a word that fails its parity is reported, and the step of every bound channel
stops at the end of the tick (R311, R323). -/
def State.readSeverity (s : State) (d : Dev) : State :=
  if decide (d = .tsu) && s.tsu.badWords.any fun e => decide (e.1 = 5) then
    (s.modTsu fun t => { t with badWords := t.badWords.filter fun e => decide (e.1 ≠ 5), parStop := true }).latchFault .tsu (blkCmd .tsu)
      cInjSram { group := 5 }
  else s

/-- Raise a fault: it is graded by the severity table, recorded and reported. -/
def State.raiseFault (s : State) (d : Dev) (blk : Nat) (code : Code) (ctx : Ctx) : State :=
  (s.readSeverity d).latchFault d blk code ctx

/-- A level code whose condition begins (R309, R322). -/
def State.raiseLevel (s : State) (d : Dev) (blk : Nat) (code : Code) (ctx : Ctx) : State :=
  if (s.fblock d blk).levels.any fun (c, w) => decide (c = code ∧ w = ctx.word) then s
  else (s.raiseFault d blk code ctx).modBlock d blk fun b => { b with levels := b.levels ++ [(code, ctx.word)] }

/-- A level condition ends. -/
def State.endLevel (s : State) (d : Dev) (blk : Nat) (code : Code) (ctx : Ctx) : State :=
  s.modBlock d blk fun b => { b with levels := b.levels.filter fun (c, w) => !decide (c = code ∧ w = ctx.word) }

/-- A fault of a channel of the TSU (R313); a STEP_OVERRUN logged sets CYCLE (R307). -/
def State.raiseChan (s : State) (c : Nat) (code : Code) (ctx : Ctx := {}) : State :=
  let s1 := s.raiseFault .tsu (blkChan c) code { ctx with ch := BitVec.ofNat 4 c }
  if code = cStepOverrun then s1.modChan c fun x => { x with cycle := true } else s1

/-- A fault of a link end: the uplink's block, or the port's with the port in INDEX (R313, R315). -/
def State.raiseLink (s : State) (d : Dev) (n : Nat) (code : Code) (ctx : Ctx := {}) : State :=
  s.raiseFault d (blkLink d n) code (match d with | .tsu => ctx | .jup => { ctx with index := BitVec.ofNat 16 n })
def linkCtx (d : Dev) (n : Nat) : Ctx := match d with | .tsu => {} | .jup => portCtx n
def State.raiseLinkLevel (s : State) (d : Dev) (n : Nat) (code : Code) : State := s.raiseLevel d (blkLink d n) code (linkCtx d n)
def State.endLinkLevel (s : State) (d : Dev) (n : Nat) (code : Code) : State := s.endLevel d (blkLink d n) code (linkCtx d n)

/-- The session ends: its fields return to reset values (R379). -/
def Security.endSession (x : Security) : Security :=
  { x with session := .none, inject := false, pending := false, opening := none, notAfter := 0xFFFFFFFFFFFFFFFF }

/-- Fault injection armed or an operation refused for its rights: DENIED counts and DEBUG_DENIED is raised (R380). -/
def State.denied (s : State) (d : Dev) : State :=
  (s.modSec d fun x => { x with denied := satInc x.denied }).raiseFault d (blkImage d) cDebugDenied {}

end Sys2Proof.Machine
end

