-- ==== Sys2Proof/Machine/Completion.lean ====
section
/-! DEFINITION. Accepting a long command and posting its completion (R341 to R350), shared by every command. -/
namespace Sys2Proof.Machine

/-! ## Status codes (R349) -/

def stOk : BitVec 8 := 0x00
def stAborted : BitVec 8 := 0x01
def stTimeout : BitVec 8 := 0x02
def stAbandoned : BitVec 8 := 0x03
def stDenied : BitVec 8 := 0x04
def stPartial : BitVec 8 := 0x05
def stBusy : BitVec 8 := 0x08
def stInService : BitVec 8 := 0x09
def stRejected : BitVec 8 := 0x0A
def stLinkInUse : BitVec 8 := 0x0B
def stChannelsBound : BitVec 8 := 0x0C
def stNotMaster : BitVec 8 := 0x0D
def stSigBad : BitVec 8 := 0x10
def stFormat : BitVec 8 := 0x11
def stJobsActive : BitVec 8 := 0x12
def stGroupConflict : BitVec 8 := 0x13
def stFabricWiring : BitVec 8 := 0x14
def stDomainSize : BitVec 8 := 0x15
def stImageMissing : BitVec 8 := 0x16
def stImageBad : BitVec 8 := 0x17
def stDieInUse : BitVec 8 := 0x18
def stClassMismatch : BitVec 8 := 0x19
def stVersionMismatch : BitVec 8 := 0x1A
def stSpanExceeded : BitVec 8 := 0x1B
def stNoSpare : BitVec 8 := 0x1C
def stTooEarly : BitVec 8 := 0x20
def stConflict : BitVec 8 := 0x22
def stBadAddr : BitVec 8 := 0x23
def stNoPlate : BitVec 8 := 0x24
def stGroupLimit : BitVec 8 := 0x25
def stRouteNotReady : BitVec 8 := 0x26

/-! ## Opcodes (R348) -/

def opMeasureLink : BitVec 8 := 0x01
def opCalVernier : BitVec 8 := 0x02
def opTimeResync : BitVec 8 := 0x03
def opSetTod : BitVec 8 := 0x04
def opLoadImage : BitVec 8 := 0x10
def opRestore : BitVec 8 := 0x11
def opStartJob : BitVec 8 := 0x20
def opTeardownJob : BitVec 8 := 0x21
def opHoldJob : BitVec 8 := 0x22
def opResumeJob : BitVec 8 := 0x23
def opStretchJob : BitVec 8 := 0x24
def opSetQuota : BitVec 8 := 0x25
def opFence : BitVec 8 := 0x26
def opBringIn : BitVec 8 := 0x27
def opRemapRank : BitVec 8 := 0x28
def opShutter : BitVec 8 := 0x30
def opReadPlate : BitVec 8 := 0x31
def opCgBegin : BitVec 8 := 0x40
def opCgStage : BitVec 8 := 0x41
def opCgCommit : BitVec 8 := 0x42
def opCgAbort : BitVec 8 := 0x43

/-! ## REFUSE codes (R360) -/

def rfBusy : BitVec 4 := 1
def rfCplFull : BitVec 4 := 2
def rfBadOpcode : BitVec 4 := 3
def rfBadLen : BitVec 4 := 4
def rfDenied : BitVec 4 := 5
def rfTrackerFull : BitVec 4 := 6
def rfGroupState : BitVec 4 := 7
def rfLimit : BitVec 4 := 8
def rfBadAddr : BitVec 4 := 9

/-- The command port of an issuing context (R343): port n of context 1 + n. -/
def portOfCtx (ctx : BitVec 8) : Nat := ctx.toNat - 1

def State.cmdPort (s : State) (d : Dev) (n : Nat) : CmdPort := tget {} (s.com d).cmds.ports n
def State.modPort (s : State) (d : Dev) (n : Nat) (f : CmdPort → CmdPort) : State :=
  s.modCmds d fun c => { c with ports := tmod {} c.ports n f }

/-- The completion entry of a sequence number (R344). -/
def entryIndex (d : Dev) (seq : BitVec 24) : Nat :=
  match d with
  | .tsu => seq.toNat % 4096
  | .jup => seq.toNat % 65536

/-- Entry of a handle, if it is in use for it. -/
def State.cplEntry (s : State) (d : Dev) (h : Half) : Option CplEntry :=
  match tget none (s.com d).cmds.entries (entryIndex d (h.extractLsb' 0 24)) with
  | some e => if e.handle = h then some e else none
  | none => none

/-- A refusal records its reason, issues no handle and changes nothing else (R341). -/
def State.refuse (s : State) (d : Dev) (h : Hdr) (r : BitVec 4) : State :=
  s.modPort d (portOfCtx h.ctx) fun p => { p with refuse := r, go := false, busy := false }

/-- A command accepted at the port: GO and BUSY clear. -/
def State.accepted (s : State) (d : Dev) (h : Hdr) : State :=
  s.modPort d (portOfCtx h.ctx) fun p => { p with go := false, busy := false }

/-- Whether the session denies a command from JTAG (R348, R380). `light` names READ_PLATE and MEASURE_LINK mode 0. -/
def State.cmdDenied (s : State) (d : Dev) (h : Hdr) (light : Bool) : Bool :=
  decide (h.ctx = 0x20) &&
  match (s.com d).sec.session with
  | .none => true
  | .observe => !light
  | .control => false

/-- Tracker entries shared by all kinds; 4,096 more are kept for reductions and Conjunction rounds (R270). -/
def trackerSize : Nat := 61440

def TrackKind.code : TrackKind → Nat
  | .command => 0
  | .reduction => 1
  | .conjRound => 2
  | .journalFlow => 3
  | .shadowFlow => 4
  | .restoreFlow => 5
  | .imageFlow => 6

/-- The lowest free tracker entry; the search is over the entries listed. -/
def freeTrack : Table (Option TrackEntry) → Nat → Nat
  | [], n => n
  | (k, _) :: t, n => if k = n then freeTrack t (n + 1) else n

/-- Open a tracker entry (R270). -/
def State.track (s : State) (e : TrackEntry) : State :=
  s.modJup fun j => { j with tracker := tset none j.tracker (freeTrack j.tracker 0) (some e) }
/-- Open the entry of a flow; none: no entry is free, and the flow is refused at its opening (R270). -/
def State.openEntry (s : State) (kind : TrackKind) (h : Half) (job : Option (BitVec 15)) (deadline : Tick) : Option State :=
  if trackerSize ≤ s.jup.tracker.length then none
  else some (s.track { handle := h, kind := kind, job := job, deadline := deadline, delivered := 0, expected := 0 })
/-- An entry is that of a flow of a kind, by its handle and its job. -/
def TrackEntry.isFlow (e : TrackEntry) (kind : TrackKind) (h : Half) (job : Option (BitVec 15)) : Bool :=
  decide (e.kind = kind ∧ e.handle = h ∧ e.job = job)
/-- A job has a flow of a kind open here. -/
def State.flowOpen (s : State) (kind : TrackKind) (job : BitVec 15) : Bool :=
  s.jup.tracker.any fun e => e.2.any fun x => x.isFlow kind 0 (some job)
/-- The one flow of a kind that a job has here, opened by its first message. -/
def State.openFlow (s : State) (kind : TrackKind) (job : BitVec 15) : Option State :=
  if s.flowOpen kind job then some s
  else s.openEntry kind 0 (some job) (s.now .jup + Config.opDeadline kind.code)
/-- A flow ends, and the first entry of it is freed. -/
def State.closeFlow (s : State) (kind : TrackKind) (h : Half) (job : Option (BitVec 15)) : State :=
  match s.jup.tracker.find? fun e => e.2.any fun x => x.isFlow kind h job with
  | some e => s.modJup fun j => { j with tracker := tset none j.tracker e.1 none }
  | none => s
def State.untrack (s : State) (h : Half) : State :=
  s.modJup fun j => { j with tracker := j.tracker.filter fun (_, e) =>
    match e with | some e => decide (e.handle ≠ h) || decide (e.kind ≠ .command) | none => false }

/-- A long command at a port: the state with its handle issued, or with the refusal recorded (R341 to R345). -/
def State.accept (s : State) (d : Dev) (h : Hdr) (op : BitVec 8) (light : Bool := false)
    (job : Option (BitVec 15) := none) : State × Option Half :=
  let c := (s.com d).cmds
  if s.cmdDenied d h light then ((s.refuse d h rfDenied).denied d, none)
  else if (tget none c.entries (entryIndex d c.seq)).isSome then (s.refuse d h rfCplFull, none)
  else if d = .jup ∧ trackerSize ≤ s.jup.tracker.length then (s.refuse d h rfTrackerFull, none)
  else
    let hd : Half := put 32 31 24 h.ctx.toNat ||| put 32 23 0 c.seq.toNat
    let e : CplEntry := { handle := hd, opcode := op, valid := false, status := 0, endTick := 0, results := [], notify := h.notify }
    let s1 := s.modCmds d fun c => { c with seq := c.seq + 1, entries := tset none c.entries (entryIndex d c.seq) (some e) }
    let s2 := s1.modPort d (portOfCtx h.ctx) fun p => { p with handle := hd, go := false, busy := false }
    let s3 := match d with
      | .tsu => s2
      | .jup => s2.track { handle := hd, kind := .command, job := job,
                           deadline := s.now .jup + Config.cmdDeadline op, delivered := 0, expected := 0 }
    (s3, some hd)

/-- Interrupts of a posting (R346). -/
def State.postIrq (s : State) (d : Dev) (e : CplEntry) : State :=
  match d with
  | .tsu => if s.tsuC.cmds.irqEn then s.emit .irqCpl else s
  | .jup =>
    let ctx := fld e.handle 31 24
    if ctx = 0x40 then s.emit (.msix 17)
    else if e.notify then s.emit (.msix (if ctx = 0x20 then 18 else ctx)) else s

/-- Post the completion of a handle: all at once, and only once (R345). -/
def State.post (s : State) (d : Dev) (h : Half) (status : BitVec 8) (results : List Word) : State :=
  match s.cplEntry d h with
  | none => s
  | some e =>
    if e.valid then s
    else
      let i := entryIndex d (h.extractLsb' 0 24)
      let e' := { e with valid := true, status := status, endTick := s.now d, results := results }
      let s1 := s.modCmds d fun c =>
        { c with entries := tset none c.entries i (some e'), posted := c.posted ++ [BitVec.ofNat 16 i], postedFlag := true }
      let s2 := match d with | .tsu => s1 | .jup => s1.untrack h
      s2.postIrq d e'

/-- A long command whose handle, once issued, is used by `f`; a refusal is the whole effect. -/
def State.withHandle (s : State) (d : Dev) (h : Hdr) (op : BitVec 8) (f : Half → State → State) (light : Bool := false)
    (job : Option (BitVec 15) := none) : State :=
  match s.accept d h op light job with
  | (s1, some hd) => f hd s1
  | (s1, none) => s1

end Sys2Proof.Machine
end

