-- ==== Sys2Proof/Machine/ClockOps.lean ====
section
/-! DEFINITION. Operations of time and clocks that several commands share: qualification and selection of
references, switching, holdover, resync, the offset and asymmetry of a link. -/
namespace Sys2Proof.Machine

/-! ## Offset and asymmetry (R42, R48) -/

def sumI (l : List Int) : Int := l.foldl (· + ·) 0

/-- The averaged round trip of a link. -/
def meanD (l : LinkTime) : Int := meanNear l.ds

/-- A of R48 for an entry, the two temperatures and the averaged round trip; 0 while VALID is 0 (R49). -/
def asymOf (e : BitVec 128) (tLocal tFar : Int) (md : Int) : Int :=
  if !asymValid e then 0
  else if asymD0 e = 0 then
    divNear (asymKLocal e * (tLocal - asymT0Local e) + asymKFar e * (tFar - asymT0Far e)) 16 + asymDev e +
      Config.asymZeroD0 (asymMed e) md
  else
    divNear ((16 * asymDev e + asymKLocal e * (tLocal - asymT0Local e) + asymKFar e * (tFar - asymT0Far e)) * asymD0 e +
      16 * asymMed e * md) (16 * asymD0 e)

/-- theta of the averages of a link, given A (R42). -/
def thetaOf (xs : List Int) (a : Int) : Int := if xs.isEmpty then 0 else divNear (sumI xs - xs.length * a) (2 * xs.length)

/-- The averages' registers after an exchange or a change of A (R42, R61, R262 FLIGHT). -/
def State.refreshOffset (s : State) (d : Dev) (n : Nat) : State :=
  let l := s.link d n
  let md := meanD l.time
  let a := asymOf l.asym.active (s.com d).time.temp.toInt l.time.farTemp.toInt md
  (s.modLt d n fun t => { t with rtd := md, asym := a, offset := thetaOf t.xs a }).modCtl d n
    fun c => { c with flight := BitVec.ofInt 16 (divNear md 131072) }

/-- Both converters of link `n` have a valid active table (R79). -/
def Conv.valid (c : Conv) : Bool := if c.bank then c.valid1 else c.valid0
def State.convsValid (s : State) (d : Dev) (n : Nat) : Bool := (s.conv d (2 * n)).valid && (s.conv d (2 * n + 1)).valid

/-- The entry is usable, or the domain is evaluation-only (R49). -/
def State.asymUsable (s : State) (d : Dev) (n : Nat) : Bool := asymValid (s.link d n).asym.active || (s.com d).sec.evalOnly

/-! ## Qualification (R90 to R94) -/

/-- Block of a fault of asymmetry: the port's at a Jupin, the time core's at a TSU (R313). -/
def blkAsym (d : Dev) (n : Nat) : Nat :=
  match d with
  | .tsu => blkTime .tsu
  | .jup => n

/-- Rank of a QL; none is never selected (R91). -/
def qlRank (q : BitVec 4) : Option Nat :=
  if q = 0x2 then some 1 else if q = 0x4 then some 2 else if q = 0x8 then some 3 else if q = 0xB then some 4 else none

/-- A code of R91, DNU included. -/
def qlKnown (q : BitVec 4) : Bool := (qlRank q).isSome || decide (q = 0xF)

/-- The QL of a reference: what was received, or for an external input the source QL_SRC names (R93). -/
def State.qlOf (s : State) (d : Dev) (r : Nat) : BitVec 4 :=
  if d = .jup ∧ r < 4 then
    let w := s.reg .jup (extBase r)
    match fld w 1 0 with
    | 0 => if (s.ref d r).qlTick.isSome then (s.ref d r).qlRx else 0xF
    | 1 => w.extractLsb' 24 4
    | _ => w.extractLsb' 28 4
  else if (s.ref d r).qlTick.isSome then (s.ref d r).qlRx else 0xF

/-- The link's parent reports LOCKED or DEGRADED. -/
def parentUp (l : Link) : Bool := decide (l.time.farState = 2 ∨ l.time.farState = 3)

/-- The link has trained: its time codes flow (R255). -/
def LState.timed : LState → Bool
  | .timing => true
  | .service => true
  | .align => true
  | _ => false

/-- Nominal period of an external input, ticks (R89). -/
def State.refPeriod (s : State) (r : Nat) : Nat := (s.reg .jup (extBase r + 4)).toNat

/-- The measured frequency lies within 100 ppm of the HTC rate (R90). Of a gated input an interval spans several periods. -/
def State.freqOk (s : State) (r : Nat) : Bool :=
  let iv := (s.ref .jup r).intervals
  let per := s.refPeriod r * 65536
  let nom : Int := max 1 ((meanNear iv + per / 2) / per) * per
  !iv.isEmpty && decide ((meanNear iv - nom).natAbs * 10000 ≤ nom.natAbs)

/-- Time transfer goes on over a link: over the always-on uplink only while the low rate is in force (R60). -/
def State.timeOn (s : State) (d : Dev) (n : Nat) : Bool :=
  !(s.com d).time.lowRate || decide (d = .tsu ∧ n = s.aonUplink)

/-- The signal is good by every condition of its kind (R90); `full` asks for the 1,024 valid exchanges. -/
def State.signalGood (s : State) (d : Dev) (r : Nat) (full : Bool) : Bool :=
  match s.refLink d r with
  | some n =>
    let l := s.link d n
    l.ctl.lstate.timed && s.timeOn d n && s.asymUsable d n && parentUp l &&
      (if full then !l.time.lost && decide (1024 ≤ l.time.xs.length) else decide (l.time.consecInvalid < 64))
  | none => decide (16 ≤ (s.ref d r).good) && decide ((s.ref d r).missing < 4) && s.freqOk r

/-- The further condition of R90: QL mode or wait-to-restore. -/
def State.furtherOk (s : State) (d : Dev) (r : Nat) : Bool :=
  if s.wtrMode d then (s.ref d r).wtrDone else (qlRank (s.qlOf d r)).isSome

/-- A reference of a time child is acquirable (R90), once the converters of its link have valid tables (R79). -/
def State.acquirable (s : State) (d : Dev) (r : Nat) : Bool :=
  s.candidate d r && !(s.ref d r).lockedOut && s.signalGood d r false && (s.wtrMode d || s.furtherOk d r) &&
  match s.refLink d r with
  | some n => s.convsValid d n
  | none => false

/-- Acquisition needs one uplink whose parent is LOCKED and whose entry is VALID (R56); the reference that it starts on is the
one that R95 ranks first (R90; assumption 26). -/
def State.startable (s : State) (d : Dev) : Bool :=
  (List.range (nRefs d)).any fun r => s.candidate d r && match s.refLink d r with
    | some n => (s.link d n).ctl.lstate.timed && decide ((s.link d n).time.farState = 2) && s.asymUsable d n
    | none => false

/-- State of a reference by R90, with its wait-to-restore started or discarded (R94). A reference that is no candidate of the
role is ABSENT whatever its PRIORITY, which the manual leaves open (assumption 148). -/
def State.evalRef (s : State) (d : Dev) (r : Nat) : State :=
  let trained := match s.refLink d r with | some n => (s.link d n).ctl.lstate.timed | none => true
  if s.priority d r = 0 ∨ !s.candidate d r ∨ !trained then
    s.modRef d r fun x => { x with state := .absent, wtrStart := none, wtrDone := false }
  else if !s.signalGood d r true then
    s.modRef d r fun x => { x with state := .failed, wtrStart := none, wtrDone := false }
  else if s.furtherOk d r then s.modRef d r fun x => { x with state := .qualified, wtrStart := none }
  else if s.wtrMode d ∧ (s.ref d r).wtrStart = none then
    s.modRef d r fun x => { x with state := .pending, wtrStart := some (s.now d) }
  else s.modRef d r fun x => { x with state := .pending }

def State.evalRefs (s : State) (d : Dev) : State := (List.range (nRefs d)).foldl (fun s r => s.evalRef d r) s

/-! ## Selection (R95) -/

/-- Order of preference: QL rank or parent state, then PRIORITY (R95). -/
def State.selKey (s : State) (d : Dev) (r : Nat) : Nat × Nat :=
  if s.wtrMode d then
    ((match s.refLink d r with | some n => if (s.link d n).time.farState = 2 then 0 else 1 | none => 0), s.priority d r)
  else (((qlRank (s.qlOf d r)).getD 9), s.priority d r)

def keyLt (a b : Nat × Nat) : Bool := decide (a.1 < b.1) || (decide (a.1 = b.1) && decide (a.2 < b.2))

/-- The first of a list by preference. Of two that R95 ranks alike the one with the lower number comes first, which the
manual leaves open (assumption 149). -/
def State.best (s : State) (d : Dev) : List Nat → Option Nat
  | [] => none
  | r :: rs =>
    match s.best d rs with
    | none => some r
    | some q => if keyLt (s.selKey d q) (s.selKey d r) then some q else some r

/-- The QUALIFIED candidate not locked out that R95 ranks first. -/
def State.bestQualified (s : State) (d : Dev) : Option Nat :=
  s.best d ((List.range (nRefs d)).filter fun r => s.candidate d r && !(s.ref d r).lockedOut && decide ((s.ref d r).state = .qualified))

/-- The candidate that R95 would rank first to acquire (R90). -/
def State.bestAcquirable (s : State) (d : Dev) : Option Nat :=
  s.best d ((List.range (nRefs d)).filter fun r => s.acquirable d r)

/-- The link whose offset steers the device, if any: the one followed of the selected reference's group. -/
def State.selLink (s : State) (d : Dev) : Option Nat :=
  match (s.com d).cr.selected with
  | none => none
  | some q =>
    match (s.com d).cr.selVia with
    | some n => if (s.refLinks d q.val).contains n then some n else s.refLink d q.val
    | none => s.refLink d q.val

/-- Phase error of a reference: theta of its link, or the external edge's error (R97). -/
def State.refErr (s : State) (d : Dev) (r : Nat) : Int :=
  match s.refLink d r with
  | some n => (s.link d n).time.offset
  | none => (s.ref d r).err

/-- Phase error of the selected reference, taken by the link followed. -/
def State.selErr (s : State) (d : Dev) : Int :=
  match s.selLink d with
  | some n => (s.link d n).time.offset
  | none => match (s.com d).cr.selected with | some q => (s.ref d q.val).err | none => 0

/-- Reference number as an index. -/
def refIx (r : Nat) : Fin 8 := Fin.ofNat 8 r

/-- A reference is selected, by the link that brings it. -/
def State.select (s : State) (d : Dev) (r : Nat) : State :=
  s.modCr d fun c => { c with selected := some (refIx r), selVia := s.refLink d r, lastSel := some (refIx r) }
def State.unselect (s : State) (d : Dev) : State := s.modCr d fun c => { c with selected := none, selVia := none }

/-- A step of the loop's input is built out and handed to the phase-step engine (R97, R108). -/
def State.buildOut (s : State) (d : Dev) (step : Int) : State :=
  s.modCr d fun c => { c with pstepRemain := c.pstepRemain - step }

/-- The first selection of an external reference anchors its predicted edges to its first measured edge (R100). -/
def State.anchorRef (s : State) (d : Dev) (r : Nat) : State :=
  s.modRef d r fun x => { x with anchor := match x.anchor with | some a => some a | none => x.lastEdge.map absOf,
                                 err := if x.anchor.isNone then 0 else x.err }
def State.anchorExt (s : State) (d : Dev) (r : Nat) : State := if (s.refLink d r).isNone then s.anchorRef d r else s

/-- A switch from one reference to another moves no tick: the difference is built out (R97). -/
def State.switchRef (s0 : State) (d : Dev) (r : Nat) : State :=
  let s := s0.anchorExt d r
  match (s.com d).cr.selected with
  | some q => if q.val = r then s else (s.buildOut d (s.refErr d r - s.selErr d)).select d r
  | none => s.select d r

/-- The selected reference is taken by another link of its group, or by the links of another master: a switch as well, and
built out (R89, R97). -/
def State.followLink (s : State) (d : Dev) : State :=
  match (s.com d).cr.selected, (s.com d).cr.selVia with
  | some q, some m =>
    match s.refLink d q.val with
    | some n =>
      if n = m ∨ ((s.refLinks d q.val).contains m && (s.link d m).brings) then s
      else (s.buildOut d ((s.link d n).time.offset - (s.link d m).time.offset)).modCr d fun c => { c with selVia := some n }
    | none => s
  | _, _ => s

/-! ## Holdover (R105, R107) -/

/-- The holdover value and HOLD_SHORT from the kept blocks, newest first, with the CV at L (R105). -/
def holdValue (blocks : List (Int × Bool)) (cv : Int) : Int × Bool :=
  let v := (((blocks.drop 8).take 32).filter fun b => b.2).map fun b => b.1
  let all := (blocks.filter fun b => b.2).map fun b => b.1
  if v.length = 32 then (meanNear v, false)
  else if 4 ≤ v.length then (meanNear v, true)
  else if all ≠ [] then (meanNear all, true)
  else (cv, true)

/-- Enter HOLDOVER (R99, R105). The root time master's time state is untouched (R100), and its CV goes to the holdover value
at the rate of R101. -/
def State.enterHoldover (s : State) (d : Dev) : State :=
  let (v, short) := holdValue (s.com d).cr.blocks (s.com d).cr.cv
  let s1 := (s.unselect d).modCr d fun c =>
    { c with state := .holdover, cv := if s.rootMaster d then c.cv else v, holdCv := v, holdShort := short, returning := false }
  if s.rootMaster d then s1
  else s1.modTime d fun t => { t with state := if t.state = .locked then .degraded else t.state, holdSince := some t.htc }

/-- TRACK returns from HOLDOVER and its build-out is not yet slewed away: the average of R107 has not begun. -/
def State.returnSlewing (s : State) (d : Dev) : Bool := (s.com d).cr.returning && decide ((s.com d).cr.pstepRemain ≠ 0)

/-- TRACK, or LOWRATE while the low rate is in force (R60, R99). -/
def State.trackState (s : State) (d : Dev) : CrState := if (s.com d).time.lowRate then .lowrate else .track

/-- Leave HOLDOVER for a QUALIFIED candidate: its error is built out and the loop runs at code 3, or 7 at the root time
master (R100, R107). -/
def State.leaveHoldover (s0 : State) (d : Dev) (r : Nat) : State :=
  let s := s0.anchorExt d r
  let s1 := (s.select d r).modCr d fun c =>
    { c with state := s.trackState d, bwCur := if s.rootMaster d then 7 else 3,
             pstepRemain := if s.rootMaster d then c.pstepRemain - s.refErr d r else c.target - s.refErr d r,
             returning := true, dwellStart := s.now d, dwellOk := true }
  s1.modTime d fun t => { t with holdSince := none }

/-- The Clock Room returns to FREE (R99). -/
def State.crFree (s : State) (d : Dev) : State :=
  (s.unselect d).modCr d fun c => { c with state := .free, returning := false }

/-- A time resync: the counter is UNSET and acquisition runs again (R57, R99). The root time master stays LOCKED (R100). Of
the phase not yet slewed R108 says nothing; it is dropped with TARGET (assumption 184). -/
def State.resyncNow (s : State) (d : Dev) : State :=
  if s.rootMaster d then (s.crFree d).modCr d fun c => { c with target := 0 }
  else
    let s1 := s.modTime d fun t => { t with state := .unset, acqStart := none, holdSince := none, skewCount := 0, skewCountB := 0 }
    let s2 := (s1.crFree d).modCr d fun c => { c with target := 0, pstepRemain := 0, pstepAcc := 0, bwCur := 0,
                                                      coarseTotal := 0, coarseDone := 0 }
    s2.endLevel d (blkTime d) cTimeLost {}

/-- The parent followed has another EPOCH_ID: the child resyncs and takes it (R38). -/
def State.epochFollow (s : State) (d : Dev) : State :=
  match s.selLink d with
  | some n =>
    let c := (s.link d n).ctl
    if s.isChild d n && c.farSeen && decide ((s.com d).time.epochId ≠ c.farEpoch) then
      ((s.resyncNow d).modTime d fun t => { t with epochId := c.farEpoch }).modSec d Security.endSession
    else s
  | none => s

/-- Start acquisition on a candidate (R99, R102). -/
def State.startAcquire (s : State) (d : Dev) (r : Nat) : State :=
  ((s.select d r).modCr d fun c => { c with state := .acquire, bwCur := 0 }).modTime d fun t => { t with acqStart := none }

/-- ACQUIRE goes on, on another reference: the dwell restarts, and in the coarse phase E is the first valid exchange on the
new one (R99, R102). -/
def State.acquireOn (s : State) (d : Dev) (r : Nat) : State :=
  ((s.select d r).modCr d fun c => { c with dwellStart := if c.dwellStart < s.now d then s.now d else c.dwellStart, dwellOk := true }).modTime d
    fun t => { t with acqStart := if t.state = .unset then none else t.acqStart }

/-- ACQUIRE ends without LOCKED. -/
def State.acquireEnd (s : State) (d : Dev) : State :=
  (s.crFree d).modTime d fun t => { t with state := .unset, acqStart := none }

/-- The root master tracks an external reference at code 7 (R100); from HOLDOVER as R107 has it. -/
def State.rootTrack (s : State) (d : Dev) (r : Nat) : State :=
  if (s.com d).cr.state = .holdover then s.leaveHoldover d r
  else ((s.anchorRef d r).select d r).modCr d fun c => { c with state := .track, bwCur := 7 }

/-- Every bound channel of the TSU has been fenced from its job, or none is bound (R58). -/
def State.allFenced (s : State) : Bool :=
  s.tsu.chans.all fun (_, c) =>
    decide (c.state = .unbound) || (match c.fenceTick with | some t => decide (t ≤ s.now .tsu) | none => false)

/-- What FORCE keeps (R96): the reference it names while its signal is good. -/
def State.forced (s : State) (d : Dev) : Option Nat :=
  if (s.com d).cr.selMode = 2 then (s.com d).cr.forceRef.map Fin.val else none

/-- What MANUAL keeps (R96): the reference it names while it is QUALIFIED. -/
def State.manualRef (s : State) (d : Dev) : Option Nat :=
  if (s.com d).cr.selMode = 1 then (s.com d).cr.forceRef.map Fin.val else none
/-- A MANUAL whose reference is not QUALIFIED any more has returned to automatic selection (R96). -/
def State.manualEnd (s : State) (d : Dev) : State :=
  match s.manualRef d with
  | some r =>
    if decide ((s.ref d r).state = .qualified) && !(s.ref d r).lockedOut then s else s.modCr d fun c => { c with selMode := 0, forceRef := none }
  | none => s

/-- Selection in FREE (R90, R96, R100). -/
def State.selectFree (s : State) (d : Dev) : State :=
  if s.rootMaster d then
    match s.forced d with
    | some f => if s.signalGood d f true then s.rootTrack d f else s
    | none => match s.bestQualified d with | some r => s.rootTrack d r | none => s
  else if (s.com d).time.state = .unset ∧ s.startable d then
    match s.forced d with
    | some f => if s.signalGood d f false then s.startAcquire d f else s
    | none => match s.bestAcquirable d with | some r => s.startAcquire d r | none => s
  else s

/-- Selection in ACQUIRE (R96, R99). -/
def State.selectAcquire (s : State) (d : Dev) : State :=
  match s.forced d with
  | some f => if s.signalGood d f false then s else s.acquireEnd d
  | none =>
    if (match (s.com d).cr.selected with | some q => s.acquirable d q.val | none => false) then s
    else match s.bestAcquirable d with | some r => s.acquireOn d r | none => s.acquireEnd d

/-- The selected reference is QUALIFIED and not locked out. -/
def State.selQualified (s : State) (d : Dev) : Bool :=
  match (s.com d).cr.selected with
  | some q => decide ((s.ref d q.val).state = .qualified) && !(s.ref d q.val).lockedOut
  | none => false

/-- Automatic selection in TRACK (R95). -/
def State.selectTrack (s : State) (d : Dev) : State :=
  match s.bestQualified d with
  | none => s.enterHoldover d
  | some r =>
    if !s.selQualified d then s.switchRef d r
    else
      match (s.com d).cr.selected with
      | some q =>
        if s.revert d || (!s.wtrMode d && decide ((s.selKey d r).1 < (s.selKey d q.val).1)) then s.switchRef d r else s
      | none => s.switchRef d r

/-- A qualified parent is there again for time that is LOST: the resync waits at a TSU for its channels (R57, R58). -/
def State.lostResync (s : State) (d : Dev) : State := if d = .tsu ∧ !s.allFenced then s else s.resyncNow d

/-- The reference that selection goes to when it is not kept by what is selected: what FORCE or MANUAL names, else the one
that R95 ranks first. -/
def State.wanted (s : State) (d : Dev) : Option Nat :=
  match s.forced d with
  | some f => if s.signalGood d f true then some f else none
  | none => match s.manualRef d with | some r => some r | none => s.bestQualified d

/-- Selection in HOLDOVER (R57, R58, R96, R107). -/
def State.selectHoldover (s : State) (d : Dev) : State :=
  match s.wanted d with
  | none => s
  | some r => if (s.com d).time.state = .lost ∧ !s.rootMaster d then s.lostResync d else s.leaveHoldover d r

/-- A reference named by FORCE or MANUAL is kept in TRACK; one forced whose signal fails leads to HOLDOVER (R96). -/
def State.selectNamed (s : State) (d : Dev) : State :=
  match s.wanted d with
  | some r => if (s.com d).cr.selected = some (refIx r) then s else s.switchRef d r
  | none => s.enterHoldover d

/-- The always-on uplink is kept in LOWRATE while it is QUALIFIED, or forced and its signal good (R96, R99). -/
def State.lowKept (s : State) (d : Dev) : Bool :=
  s.selQualified d || match s.forced d with
    | some f => decide ((s.com d).cr.selected = some (refIx f)) && s.signalGood d f true
    | none => false

/-- Re-evaluate which reference the Clock Room follows (R95, R99, R107). Time that is LOST while a parent is followed ends
with a resync as well (R57). -/
def State.crSelect (s0 : State) (d : Dev) : State :=
  let s := ((s0.evalRefs d).manualEnd d).followLink d
  let lost := decide ((s.com d).time.state = .lost) && !s.rootMaster d && s.lowKept d
  (match (s.com d).cr.state with
    | .free => s.selectFree d
    | .acquire => s.selectAcquire d
    | .track =>
      if lost then s.lostResync d
      else if (s.com d).cr.selMode = 0 then s.selectTrack d else s.selectNamed d
    | .lowrate => if lost then s.lostResync d else if s.lowKept d then s else s.enterHoldover d
    | .holdover => s.selectHoldover d).epochFollow d

/-- Time state and handle once LOCKED is entered (R99, R350 TIME_RESYNC). -/
def State.enterLocked (s : State) (d : Dev) : State :=
  let s1 := (s.modTime d fun t => { t with state := .locked, holdSince := none, acqStart := none, resync := none }).modCr d
    fun c => { c with returning := false }
  match (s.com d).time.resync with
  | some (h, _) => s1.post d h stOk [s.now d]
  | none => s1

/-- Absolute averaged offset on the selected uplink. -/
def State.selOffset (s : State) (d : Dev) : Nat :=
  match s.selLink d with
  | some n => (s.link d n).time.offset.natAbs
  | none => 0

/-- FLIGHT limit of a link: die and peer links 8, rack to row 56, row to root 144 (R243). -/
def State.flightLimit (s : State) (d : Dev) (n : Nat) : Nat :=
  match d with
  | .tsu => 8
  | .jup =>
    if 90 ≤ n then 8
    else if n < 88 then (if s.role = 3 then 144 else if s.role = 2 then 56 else 8)
    else if s.role = 2 then 144 else 56

/-- Time codes seen at one end for 64 exchanges of the TIMING state: the link enters SERVICE (R243, R255, R261). -/
def State.timingDone (s : State) (d : Dev) (n : Nat) : State :=
  let l := s.link d n
  if l.ctl.lstate = .timing ∧ 64 ≤ l.time.exchanges then
    let s1 := ((s.modRx d n fun r => { r with freshT := false }).modCtl d n fun c =>
      { c with lstate := .service, since := s.now d, served := true, farSession := c.seenSession, trainFails := 0, downSince := none, downRaised := false }).endLinkLevel d n cLinkDown
    if s.flightLimit d n + 1 < l.ctl.flight.toNat then s1.raiseLink d n cFlightLong else s1
  else s

end Sys2Proof.Machine
end

