-- ==== Sys2Proof/Machine/ChanOps.lean ====
section
/-! DEFINITION. Operations on step channels and sync objects that several families share: words of a channel,
the boundary record and its snapshot, taking a contribution, stopping a step, entering HELD and STOPPED. -/
namespace Sys2Proof.Machine

/-! ## Words of a channel (R169, R366) -/

def chBase (c : Nat) : Nat := 0x1000 + 0x80 * c
def chParam (c : Nat) : Nat := 0x03031000 + 0x10 * c

/-- LOCK_GRP, SPAN and the watchdog of TSU_CH_CFG. -/
def State.lockGrp (s : State) (c : Nat) : Nat := fld (s.reg .tsu (chBase c)) 18 16
def State.chSpan (s : State) (c : Nat) : Nat := fld (s.reg .tsu (chBase c)) 15 14
def State.wdTicks (s : State) (c : Nat) : Nat := 2 ^ (max 12 (fld (s.reg .tsu (chBase c)) 4 0))
/-- Descriptors of a bank, and where a bank starts in the store (R119). -/
def State.bankSize (s : State) (c : Nat) : Nat := 256 * fld (s.reg .tsu (chBase c + 4)) 15 8
def State.bankBase (s : State) (c : Nat) (bank : Bool) : Nat :=
  256 * (if bank then fld (s.reg .tsu (chBase c + 4)) 23 16 else fld (s.reg .tsu (chBase c + 4)) 31 24)
/-- GATE_GROUP, CKPT_INIT and CKPT_PERIOD of the channel parameters. -/
def State.gateGroup (s : State) (c : Nat) : BitVec 12 := (s.reg .tsu (chParam c + 0xC)).extractLsb' 16 12
def State.ckptInit (s : State) (c : Nat) : BitVec 64 := s.reg64 .tsu (chParam c)
def State.ckptPeriod (s : State) (c : Nat) : Nat := (s.reg .tsu (chParam c + 8)).toNat

/-- The decision lead of a span (R152, R180). -/
def decisionLead (span : Nat) : Nat := if span = 2 then 1600 else if span = 3 then 3520 else 560

/-- The uplink on the job's active side (R16). -/
def State.upOf (s : State) (c : Nat) : Nat := if (s.chan c).sideB then 1 else 0

/-- Every channel of the TSU. -/
def chanNums : List Nat := [0, 1, 2, 3, 4, 5, 6, 7]

/-- The other RUNNING channels of a channel's lock group (R118). -/
def State.lockMates (s : State) (c : Nat) : List Nat :=
  if s.lockGrp c = 0 then []
  else chanNums.filter fun j => decide (j ≠ c ∧ s.lockGrp j = s.lockGrp c ∧ (s.chan j).state = .running)
/-- The other bound channels of a channel's lock group: a hold or a stretch for one names a boundary of each (R118). -/
def State.lockBound (s : State) (c : Nat) : List Nat :=
  if s.lockGrp c = 0 then []
  else chanNums.filter fun j => decide (j ≠ c ∧ s.lockGrp j = s.lockGrp c ∧ (s.chan j).state ≠ .unbound)

def State.modProg (s : State) (c : Nat) (f : Prog → Prog) : State := s.modChan c fun x => { x with prog := f x.prog }

/-- A context that names a channel and a descriptor index (R315). -/
def idxCtx (c : Nat) (idx : BitVec 16) : Ctx := { ch := BitVec.ofNat 4 c, index := idx }

/-- Insert in rising order of a key. -/
def insertBy {α : Type} (k : α → Nat) (a : α) : List α → List α
  | [] => [a]
  | b :: t => if k a < k b then a :: b :: t else b :: insertBy k a t
/-- Sort by a key, keeping the order of equals. -/
def sortBy {α : Type} (k : α → Nat) (l : List α) : List α := l.foldl (fun acc a => insertBy k a acc) []

/-! ## Sync objects (R204 to R209) -/

def slotKey (core : BitVec 11) (slot : BitVec 6) : Nat := 48 * core.toNat + slot.toNat
def slotCfgOff (key : Nat) : Nat := 0x04000000 + 4 * key
def conjCfgOff (rec : Nat) : Nat := 0x03020000 + 4 * rec

/-- TSU_SYNC_CFG of a slot; slots 48 to 63 do not exist. -/
def State.slotCfg (s : State) (core : BitVec 11) (slot : BitVec 6) : Half :=
  if 48 ≤ slot.toNat then 0 else s.reg .tsu (slotCfgOff (slotKey core slot))
/-- KIND: 0 NONE, 1 FLAG, 2 TALLY, 3 CONJ. -/
def cfgKind (w : Half) : Nat := fld w 31 30
def cfgOwner (w : Half) : Nat := fld w 29 27
def cfgRec (w : Half) : Nat := fld w 11 0

/-- Whether a channel is an owner of a slot (R204). -/
def State.ownsSlot (s : State) (c : Nat) (cfg : Half) : Bool :=
  decide (cfgOwner cfg = c) ||
  (cfg.getLsbD 26 && decide (s.lockGrp c ≠ 0 ∧ s.lockGrp c = s.lockGrp (cfgOwner cfg)))

def State.modSync (s : State) (f : Sync → Sync) : State := s.modTsu fun t => { t with sync := f t.sync }
def State.slotVal (s : State) (key : Nat) : BitVec 8 := (tget {} s.tsu.sync.slots key).v
/-- A slot's value as it stood at the start of this tick (R209). -/
def State.slotStart (s : State) (key : Nat) : BitVec 8 :=
  let x : SyncSlot := tget {} s.tsu.sync.slots key
  if x.at_ = s.now .tsu then x.old else x.v
def SyncSlot.write (x : SyncSlot) (now : Tick) (v : BitVec 8) : SyncSlot :=
  { v := v, old := if x.at_ = now then x.old else x.v, at_ := now }
def State.setSlot (s : State) (key : Nat) (v : BitVec 8) : State :=
  s.modSync fun y => { y with slots := tmod {} y.slots key fun x => x.write (s.now .tsu) v }

def State.conjRec (s : State) (r : Nat) : ConjRec := tget {} s.tsu.sync.recs r
def State.modConj (s : State) (r : Nat) (f : ConjRec → ConjRec) : State :=
  s.modSync fun y => { y with recs := tmod {} y.recs r f }
/-- OWNER, SPAN, GROUP and LOCAL_COUNT of a record (R231). -/
def State.conjCfg (s : State) (r : Nat) : Half := s.reg .tsu (conjCfgOff r)
def conjGroup (w : Half) : BitVec 12 := w.extractLsb' 20 12
def conjSpan (w : Half) : Nat := fld w 19 18
def conjOwner (w : Half) : Nat := fld w 17 15
def conjCount (w : Half) : Nat := fld w 7 0

/-- Slots and records a channel owns, of those listed (R211). -/
def State.ownedSlots (s : State) (c : Nat) : List Nat :=
  (s.tsu.sync.slots.map Prod.fst).filter fun k => decide (cfgOwner (s.reg .tsu (slotCfgOff k)) = c)
def State.ownedRecs (s : State) (c : Nat) : List Nat :=
  (s.tsu.sync.recs.map Prod.fst).filter fun r => decide (conjOwner (s.conjCfg r) = c)

/-- The object snapshot of a channel (R211). -/
def State.snapSlots (s : State) (c : Nat) : Table (BitVec 8) :=
  (s.ownedSlots c).foldl (fun t k => tset 0 t k (s.slotVal k)) []
def State.snapRecs (s : State) (c : Nat) : Table ConjRec :=
  (s.ownedRecs c).foldl (fun t r => tset {} t r (s.conjRec r)) []

/-! ## Injected parity in the tables (R311, R323)

Words of the tables of TSU_FLT_INJ: 0 object keys, 1 record numbers, 2 selectors and from word 16 on the boundary record,
3 and 4 entries, 5 entries of the severity table (assumption 196). -/

/-- The boundary record's first word in table 2. -/
def boundaryWord : Nat := 16
/-- Words `lo` to `hi` of a checked table are written: an armed injection stores its word with inverted parity. -/
def State.sramSpan (s : State) (tbl ch lo hi : Nat) : State :=
  s.modTsu fun t =>
    let meets (e : Nat × Nat × Nat) : Bool := decide (e.1 = tbl ∧ e.2.1 = ch ∧ lo ≤ e.2.2 ∧ e.2.2 ≤ hi)
    let others := t.badWords.filter fun e => !meets e
    match t.injArm with
    | some e => if meets e then { t with injArm := none, badWords := e :: others } else { t with badWords := others }
    | none => { t with badWords := others }
/-- A word of a checked table is written. -/
def State.sramWrite (s : State) (tbl ch word : Nat) : State := s.sramSpan tbl ch word word
/-- Words of the table of a channel that hold inverted parity, from a word on. -/
def State.badFrom (s : State) (tbl ch lo : Nat) : List Nat :=
  (s.tsu.badWords.filter fun e => decide (e.1 = tbl ∧ e.2.1 = ch ∧ lo ≤ e.2.2)).map fun e => e.2.2
def State.sramBad (s : State) (tbl ch word : Nat) : Bool := s.tsu.badWords.contains (tbl, ch, word)

/-- A channel's objects and records return to its snapshot (R211). -/
def State.restoreObjects (s : State) (c : Nat) : State :=
  let b := (s.chan c).bnd
  let s0 := s.modSync fun y => { y with drain := y.drain.filter fun e => !decide (conjOwner (s.conjCfg e.1) = c),
                                        drainNext := y.drainNext.filter fun e => !decide (conjOwner (s.conjCfg e.1) = c) }
  let s1 := (s.ownedSlots c ++ b.slots.map Prod.fst).foldl (fun s k => (s.setSlot k (tget 0 b.slots k)).sramWrite 0 c k) s0
  (s1.ownedRecs c ++ b.recs.map Prod.fst).foldl (fun s r => (s.modConj r fun _ => tget {} b.recs r).sramWrite 1 c r) s1

/-! ## Contributions (R175, R177) -/

/-- Header word 0 of a contribution. -/
def contribHead (x : Chan) (group : BitVec 12) (field : Nat) (gate health : Bool) : Word :=
  put 64 63 49 x.job.toNat ||| put 64 48 32 x.rank.toNat ||| put 64 31 20 group.toNat ||| put 64 19 18 field |||
  bit1 64 17 gate ||| bit1 64 16 health ||| put 64 15 0 x.step.toNat

/-- Send a contribution on the job's active side (R16, R203 SENT). -/
def State.sendVote (s : State) (c : Nat) (ws : List Word) : State :=
  (s.send .tsu (s.upOf c) (jobMsg mtVote ws)).modTsu fun t => { t with voteSent := t.voteSent + 1 }

/-- The gate contribution of R177: EARLY, health 0; a die-local job has no gate. -/
def State.earlyGate (s : State) (c : Nat) : State :=
  let x := s.chan c
  if s.chSpan c = 0 then s
  else s.sendVote c [contribHead x (s.gateGroup c) 1 true false, put 64 31 0 x.prog.beginTick.toNat]

/-! ## Waits (R210) -/

def State.waitOf (s : State) (w : Waiter) : Option WaitRec := s.tsu.sync.waits.find? fun r => decide (r.who = w)
def State.dropWait (s : State) (w : Waiter) : State :=
  s.modSync fun y => { y with waits := y.waits.filter fun r => !decide (r.who = w) }
def State.chanWaiting (s : State) (c : Nat) : Bool :=
  s.tsu.sync.waits.any fun r => match r.who with | .chan k => decide (k.toNat = c) | .core _ => false

/-- A response to a core: 1 released, on this tick; 0 satisfied, 2 refused, 3 cancelled, 4 timed out, on the next (R422). -/
def State.answerCore (s : State) (core : BitVec 11) (kind : Nat) (tag : BitVec 16) : State :=
  s.modSync fun y => { y with rsps := y.rsps ++ [(core, kind, tag, if kind = 1 then s.now .tsu else s.now .tsu + 1)] }

/-- A response on the core synchronisation port, for a core's wait (R422). -/
def State.coreRsp (s : State) (r : WaitRec) (kind : Nat) : State :=
  match r.who with
  | .core n => s.answerCore n kind r.tag
  | .chan _ => s

def waiterKey : Waiter → Nat
  | .chan c => c.toNat
  | .core n => 8 + n.toNat

/-- Every wait of a channel and of the cores running its streams is cancelled (R210). -/
def State.cancelWaits (s : State) (c : Nat) : State :=
  let mine := sortBy (fun r => waiterKey r.who) (s.tsu.sync.waits.filter fun r => decide (r.ch = c))
  (mine.foldl (fun s r => s.coreRsp r 3) s).modSync fun y => { y with waits := y.waits.filter fun r => !decide (r.ch = c) }

/-! ## Boundaries, HELD and STOPPED (R130, R133, R145, R210) -/

/-- HOLD_CAUSE when several causes apply on one tick: the first in the order of R169. -/
def pickCause (l : List Nat) : Nat := ([10, 6, 9, 7, 4, 5, 3, 8, 1, 2].find? fun k => l.contains k).getD 0

/-- Write the boundary record, with `index` to act next (R130, R211). -/
def State.writeBoundary (s : State) (c : Nat) (index : BitVec 16) (tick : Tick) : State :=
  (s.modChan c fun x =>
    { x with bnd := { index := index, sels := x.prog.sels, states := x.prog.states, loops := x.prog.loops,
                      step := x.step, tick := tick, slots := s.snapSlots c, recs := s.snapRecs c } }).sramSpan 2 c boundaryWord 65535

/-- Words of a channel that fail their parity where its step stops all the same, or has not begun: they are reported (R311). -/
def State.noteParity (s : State) (tbl c lo : Nat) : State :=
  if (s.badFrom tbl c lo).isEmpty then s
  else (s.modTsu fun t => { t with badWords := t.badWords.filter fun e => !decide (e.1 = tbl ∧ e.2.1 = c ∧ lo ≤ e.2.2) }).raiseChan c cInjSram
    { group := BitVec.ofNat 12 tbl }

/-- A channel unbinds (R116): it acts on no descriptor. A RESUME that waits for its tick stays: it then finds the channel
neither HELD nor STOPPED (R160). -/
def Chan.unbound (x : Chan) : Chan :=
  { x with state := .unbound, arm := false, hold := false, unbindPend := false, holdWant := [],
           holdStep := [], stretchNext := [], holdCause := 0, fenceTick := none, barredBy := [] }

/-! ### Fabric filters (R254, R424) -/

/-- Present a filter entry to the network interface. -/
def State.nfPresent (s : State) (clear : Bool) (ch : Option Nat) (path : Half) : State :=
  (s.emit (.filter clear ch path)).modTsu fun t => { t with nfAsked := t.nfAsked ++ [(clear, ch, path)] }

/-- Clear an installed entry. -/
def State.clearFilter (s : State) (f : Filter) : State :=
  (s.modTsu fun t => { t with filters := dropOne f t.filters }).nfPresent true f.ch f.path

/-- A channel is unbound: its entries go, and each domain entry whose channels have all been unbound. -/
def State.unbindFilters (s : State) (c : Nat) : State :=
  let s1 := s.modTsu fun t => { t with filters := t.filters.map fun f => { f with bound := f.bound.filter fun k => !decide (k = c) } }
  (s1.tsu.filters.filter fun f => decide (f.ch = some c) || (f.ch.isNone && f.bound.isEmpty)).foldl State.clearFilter s1

/-- The selectors of a channel are written anew. -/
def State.writeSels (s : State) (c : Nat) : State := s.sramSpan 2 c 0 15

/-- Enter HELD with the selectors, loop counters and objects of the boundary record. -/
def State.enterHeld (s : State) (c cause : Nat) : State :=
  let s1 := (((s.noteParity 2 c boundaryWord).restoreObjects c).writeSels c).modChan c fun x =>
    { x with state := .held, holdCause := BitVec.ofNat 6 cause, heldAt := some (s.now .tsu), pc := x.bnd.index, step := x.bnd.step,
             hold := false, holdWant := [],
             prog := { x.prog with sels := x.bnd.sels, states := x.bnd.states, loops := x.bnd.loops,
                                   pend := [], unsent := [], inStep := false, streams := [], captured := [] } }
  if (s.chan c).unbindPend then (s1.modChan c Chan.unbound).unbindFilters c else s1

/-- tsu_stop: the stations end every stream of the channel (R419, R421). -/
def State.stopStreams (s : State) (c : Nat) : State := (s.emit (.stop c)).modChan c fun x => { x with running := false }

/-- A cause that applies on the tick on which the channel entered HELD: the first in the order of R169 is reported. -/
def State.addCause (s : State) (c cause : Nat) : State :=
  s.modChan c fun x =>
    if x.state = .held ∧ x.heldAt = some (s.now .tsu) then
      { x with holdCause := BitVec.ofNat 6 (pickCause [x.holdCause.toNat, cause]) }
    else x

/-- Stopping the step of one RUNNING channel (R133). -/
def State.stopOne (s : State) (c cause : Nat) : State :=
  if (s.chan c).state ≠ .running then s.addCause c cause
  else
    let s1 := (s.stopStreams c).emit (.shd c false)
    let s2 := if (s.chan c).prog.gateVoted then s1 else s1.earlyGate c
    (s2.cancelWaits c).enterHeld c cause

/-- The escalated report of a fault after the gate VOTE (R132, R316). -/
def State.gateFence (s : State) (c : Nat) (code : Code) (ctx : Ctx) : State :=
  s.report .tsu (s.reportWords .tsu code (blkChan c) 2 2 (s.fblock .tsu (blkChan c)).overflow (s.now .tsu)
    ({ ctx with ch := BitVec.ofNat 4 c } : Ctx).word 0)

/-- Faults that leave a channel unable to reach its COMMIT: a fetch fault, or a wait that expired (R132). -/
def unreachable (code : Code) : Bool :=
  [cEphParity, cEphRange, cInjEph, cBadKind, cSyncTimeout, cWatchdog].contains code
/-- What a member past its gate VOTE reports when another member stops: it makes its own COMMIT, so that no code of a channel
that cannot is its own; STEP_LOCK_SKEW stands then (R118, R132; assumption 78). -/
def mateCode (code : Code) : Code := if unreachable code then cLockSkew else code

/-- A step that stops on one member stops on every member (R118); a member past its gate VOTE goes on and is fenced. -/
def State.stopMates (s : State) (mates : List Nat) (code : Code) (ctx : Ctx) : State :=
  mates.foldl (fun s j => if (s.chan j).prog.gateVoted then s.gateFence j (mateCode code) ctx else s.stopOne j 8) s

/-- A fault that stops the step of a channel (R133), or after its gate VOTE costs the die its rank (R132). -/
def State.stopStep (s : State) (c cause : Nat) (code : Code) (ctx : Ctx) : State :=
  if (s.chan c).state ≠ .running then s.addCause c cause
  else if (s.chan c).prog.gateVoted then s.gateFence c code ctx
  else (s.stopOne c cause).stopMates (s.lockMates c) code ctx

/-- Raise a fault in the channel's block and stop the step. -/
def State.stepFault (s : State) (c : Nat) (code : Code) (ctx : Ctx) : State :=
  (s.raiseChan c code ctx).stopStep c 4 code ctx

/-- A fault judged as of a tick before a gate contribution that has not left: the gate VOTE counts as not having acted, and
the step stops (R418). -/
def State.judgedFault (s : State) (c : Nat) (code : Code) (ctx : Ctx) : State :=
  let s1 := if (s.chan c).prog.unsent.any Unsent.gate then
      s.modProg c fun p => { p with gate := 0, gateVoted := false, unsent := p.unsent.filter fun u => !u.gate }
    else s
  s1.stepFault c code ctx

/-- Enter STOPPED (R145): the step never commits on this die. Contributions of field VOTEs that have not left yet leave all the
same: the rule withholds none. DESIGN CHOICE (assumption 192). -/
def State.enterStopped (s : State) (c cause : Nat) (code : Code) (ctx : Ctx) : State :=
  if (s.chan c).state ≠ .running then s
  else
    let mates := s.lockMates c
    let s1 := s.stopStreams c
    let s2 := if (s.chan c).prog.gateVoted then s1.gateFence c code ctx else s1.earlyGate c
    let s3 := (s2.cancelWaits c).modChan c fun x =>
      { x with state := .stopped, holdCause := BitVec.ofNat 6 cause, prog := { x.prog with stopped := true } }
    s3.stopMates mates code ctx

/-- A running channel is to enter HELD at its next step boundary, for a cause. -/
def State.wantHold (s : State) (c cause : Nat) : State :=
  s.modChan c fun x => if x.state = .running ∧ cause ∉ x.holdWant then { x with holdWant := x.holdWant ++ [cause] } else x

def State.wantHoldAll (s : State) (cause : Nat) : State := chanNums.foldl (fun s c => s.wantHold c cause) s

/-- The step of every bound channel stops (R311). -/
def State.stopBound (s : State) (ctx : Ctx) : State := chanNums.foldl (fun s c => s.stopStep c 4 cInjSram ctx) s

/-- An armed word of a channel's table has been read: INJ_SRAM_PARITY, and the step of the owner stops (R311, R323).
Tables 0 to 4 belong to a channel, 5 is shared. -/
def State.sramFault (s : State) (tbl ch word : Nat) : State :=
  let s1 := s.modTsu fun t => { t with badWords := t.badWords.filter fun e => decide (e ≠ (tbl, ch, word)) }
  let ctx : Ctx := { group := BitVec.ofNat 12 tbl }
  if tbl = 5 then (s1.raiseFault .tsu (blkCmd .tsu) cInjSram ctx).stopBound ctx else s1.stepFault ch cInjSram ctx

/-- The severity table was read in this tick at a word that failed its parity (R311). -/
def State.parityStop (s : State) : State :=
  if s.tsu.parStop then (s.modTsu fun t => { t with parStop := false }).stopBound { group := 5 } else s

/-- Read a checked table word: go on, or the parity fault. -/
def State.sramRead (s : State) (tbl ch word : Nat) (f : State → State) : State :=
  if s.sramBad tbl ch word then s.sramFault tbl ch word else f s

/-! ## Debug and JTAG rights -/

/-- Through JTAG a register write needs a session (R380). -/
def State.srcDenied (s : State) (d : Dev) (src : Src) : Bool := decide (src = .jtag ∧ (s.com d).sec.session = .none)

/-- Whether a source may not arm injection: at OPEN any session will do, and JTAG needs one; at OWNER a session with INJECT;
at SEALED OBSERVE with INJECT. -/
def State.injDenied (s : State) (d : Dev) (src : Src) : Bool :=
  let x := (s.com d).sec
  match x.level with
  | .opened => decide (src = .jtag ∧ x.session = .none)
  | .owner => decide (x.session = .none) || !x.inject
  | .sealed_ => decide (x.session ≠ .observe) || !x.inject

/-- The snapshot of a channel reads the objects and records it owns: one that fails its parity stops the step (R211, R311). -/
def State.snapCheck (s : State) (c : Nat) : State :=
  [0, 1].foldl (fun s t => match s.badFrom t c 0 with | k :: _ => s.sramFault t c k | [] => s) s

/-- REPEAT_BROKEN for a channel (R295). Its context tells the two causes apart: a debug write names its object, or the
descriptor it goes on from; a selector write names neither (R315; assumption 145). -/
def State.repeatBroken (s : State) (c : Nat) (ctx : Ctx) : State := s.raiseChan c cRepeatBroken ctx

end Sys2Proof.Machine
end

