-- ==== Sys2Proof/Machine/TimeXfer.lean ====
section
/-! DEFINITION. Hall time: two-way time transfer, time states, the UTC mapping, NTPv4, link measurement (R34 to R64). -/
namespace Sys2Proof.Machine
open Host

/-- What a command answers. -/
abbrev Res := Outcome State Fault Refusal

/-- A command whose event is due has its effect; one that is not due changes nothing (assumption 3). -/
def State.due (s : State) (b : Bool) (f : State → State) : Res := .next (if b then f s else s)
/-- An input of the main domain, ignored while its rail is off (R412). -/
def State.mainIn (s : State) (f : State → State) : Res := s.due (!s.mainOff) f
/-- A STEP message to a device: in DARK none is delivered to a TSU (R397). -/
def State.stepIn (s : State) (d : Dev) (f : State → State) : Res := s.due (decide (d = .jup ∨ s.tsu.power.state ≠ 4)) f

/-- Ticks of an exchange period (R40), and at the low rate (R60). -/
def exPeriod : Nat := 8192
def lowPeriod : Nat := 65536
/-- Ticks in one second (R94). -/
def second : Nat := 1600000000

def State.nowN (s : State) (d : Dev) : Nat := (s.now d).toNat
/-- An exchange boundary (R52). -/
def State.atBoundary (s : State) (d : Dev) : Bool := decide (s.nowN d % exPeriod = 0)

/-- The first multiple of 8,192 ticks after now (R60, R76). -/
def State.nextBoundary (s : State) (d : Dev) : Tick := BitVec.ofNat 64 ((s.nowN d / exPeriod + 1) * exPeriod)

/-- The exchange period in force on a link: at C by the device's own rate, at M by what the child's codes show (R40, R60). -/
def State.period (s : State) (d : Dev) (n : Nat) : Nat :=
  if s.isChild d n then (if (s.com d).time.lowRate then lowPeriod else exPeriod)
  else if (s.link d n).time.lowFar then lowPeriod else exPeriod

/-- TXD of a link end (R238). -/
def State.txdOf (s : State) (d : Dev) (n : Nat) : Int :=
  if (s.link d n).time.txd.isEmpty then Config.fuseTxDelay (decide (d = .jup)) n else meanNear (s.link d n).time.txd

/-- An invalid exchange counts as missed (R43). -/
def LinkTime.miss (t : LinkTime) : LinkTime := { t with missed := satInc t.missed, consecInvalid := t.consecInvalid + 1 }

/-! ### TIME_CODE_SEND (R40, R41, R238) -/

/-- The tick at which an end sends its code: 8,192 k at M, 4,096 later at C, and at multiples of 65,536 in their place on a
link at the low rate (R40, R60; assumption 21). -/
def State.sendDue (s : State) (d : Dev) (n : Nat) : Bool :=
  (s.link d n).ctl.lstate.timed &&
  if s.isChild d n then
    decide (s.nowN d % s.period d n = 4096) && s.timeOn d n && decide ((s.com d).time.fullFrom ≤ s.now d)
  else s.isParent d n && decide (s.nowN d % s.period d n = 0)

/-- The code an end sends now. An M that has no t4 for C's last code sends ECHO 0, which no t4 gives (assumption 150). -/
def State.codeNow (s : State) (d : Dev) (n : Nat) : BitVec 128 :=
  let dep := stampOf (s.nowN d * 65536 + s.txdOf d n)
  let echo : Int := if s.isChild d n then 0 else
    match (s.link d n).time.t4 with | some t => absOf t - absOf dep | none => 0
  timeCode dep echo (s.com d).time.temp (s.com d).time.state.code (s.nowN d / s.period d n)

/-- C notes t3, or a missed exchange when no code of M opened it; M notes t1. -/
def State.sentCode (s : State) (d : Dev) (n : Nat) : State :=
  let st := codeStamp (s.codeNow d n)
  if s.isChild d n then
    s.modLt d n fun t =>
      if t.t1.isSome && t.t3.isNone then { t with t3 := some st, handover := some (s.now d), mv3 := (s.com d).cr.moved }
      else { (LinkTime.miss t) with t1 := none, t2 := none, t3 := none, handover := some (s.now d) }
  else s.modLt d n fun t => { t with t1 := some st, t4 := none, bad := false, handover := some (s.now d) }

def execTimeCodeSend (d : Dev) (n : Nat) (s : State) : Res :=
  s.due (s.sendDue d n) fun s => (s.modTx d n fun t => { t with timeCode := some (s.codeNow d n) }).sentCode d n

/-! A code that a TIME replay displaces leaves in a later slot, with the departure timestamp of that slot (R40, R238). -/

/-- A code with another departure stamp; ECHO keeps naming the same t4. -/
def codeRestamp (c : BitVec 128) (dep : Stamp) : BitVec 128 :=
  timeCode dep (if codeEcho c = 0 then 0 else codeEcho c - (absOf dep - absOf (codeStamp c))) (codeTemp c)
    (codeState c).toNat (codeSeq c).toNat

/-- The waiting code, stamped for the slot of this tick, with t1 or t3 and the hand-over following it. -/
def State.restamp (s : State) (d : Dev) (n : Nat) : State :=
  match (s.link d n).tx.timeCode with
  | none => s
  | some c =>
    if (s.link d n).time.handover = some (s.now d) then s
    else
      let dep := stampOf (s.nowN d * 65536 + s.txdOf d n)
      (s.modTx d n fun t => { t with timeCode := some (codeRestamp c dep) }).modLt d n fun t =>
        { t with t1 := if t.t1 = some (codeStamp c) then some dep else t.t1, handover := some (s.now d),
                 t3 := if t.t3 = some (codeStamp c) then some dep else t.t3, mv3 := (s.com d).cr.moved }

/-- A code of the open exchange is launched again in a replay: the exchange is invalid (R43, R242). -/
def State.codeReplayed (s : State) (d : Dev) (n : Nat) (c : BitVec 128) : State :=
  s.modLt d n fun t => { t with bad := t.bad || decide (t.t1 = some (codeStamp c) ∨ t.t3 = some (codeStamp c)) }

/-! ### Bin-width tables (R70) -/

/-- Unlisted widths are nominal. -/
def nomW : BitVec 16 := 256

def Conv.active (c : Conv) : Table (BitVec 16) := if c.bank then c.tbl1 else c.tbl0
def Conv.inactive (c : Conv) : Table (BitVec 16) := if c.bank then c.tbl0 else c.tbl1
def Conv.setInactive (c : Conv) (t : Table (BitVec 16)) : Conv := if c.bank then { c with tbl0 := t } else { c with tbl1 := t }

/-- Width of a code. -/
def widthOf (t : Table (BitVec 16)) (code : Nat) : Nat := (tget nomW t code).toNat

/-- CUM of a code: the widths below it (R70). -/
def cumOf (t : Table (BitVec 16)) : Nat → Nat
  | 0 => 0
  | c + 1 => cumOf t c + widthOf t c

/-- FRAC of a code: the midpoint of its bin (R70). -/
def fracOf (t : Table (BitVec 16)) (code : Nat) : Nat := cumOf t code + widthOf t code / 2

/-- The table in force at a lookup that completes on tick `l`: the new one from the tick of a swap on, the old one before
it (R76). -/
def State.tableAt (s : State) (d : Dev) (n : Nat) (l : Nat) : Table (BitVec 16) :=
  let c := s.conv d n
  let x := s.convCtl d n
  if x.swapPend && decide (x.swapAt.toNat ≤ l) then Conv.inactive c
  else if (match x.swappedAt with | some t => decide (l < t.toNat) | none => false) then Conv.inactive c
  else Conv.active c

/-- The timestamp of a code that stopped a conversion begun on tick `t`: the lookup is done 20 ticks after the edge (R70, R71). -/
def State.lookup (s : State) (d : Dev) (n : Nat) (t : Tick) (code : BitVec 8) : Stamp :=
  { tick := t, frac := BitVec.ofNat 16 (fracOf (s.tableAt d n (t.toNat + 20)) code.toNat) }

/-! ### TIME_CODE_RX (R42, R43, R48, R49) -/

/-- The timestamp of the code that acts now. Codes come 128 ticks apart at least (R246), so it is that of an edge less than
128 ticks back: delivered, or still in conversion, since a code acts before its timestamp is due (R71, R242). -/
def State.codeStampNow (s : State) (d : Dev) (n : Nat) : Option Stamp :=
  let near (t : Tick) : Bool := decide (t ≤ s.now d ∧ s.nowN d < t.toNat + 128)
  match (s.conv d (2 * n + 1)).busy with
  | some (t, c) => if near t then some (s.lookup d (2 * n + 1) t c) else none
  | none => match (s.link d n).time.arrived with | some st => if near st.tick then some st else none | none => none

/-- x and D of an exchange from its four stamps, 48 bits signed (R42). -/
def exchangeX (t1 t2 t3 : Stamp) (t4 : Int) : Int := wrapS 48 ((absOf t2 - absOf t1) - (t4 - absOf t3))
def exchangeD (t1 t2 t3 : Stamp) (t4 : Int) : Int := wrapS 48 ((absOf t2 - absOf t1) + (t4 - absOf t3))

/-- SEQ follows the previous code from the same end, or no code came before (R43). -/
def LinkTime.follows (t : LinkTime) (code : BitVec 128) : Bool :=
  match t.lastSeq with | some q => decide (codeSeq code = q + 1) | none => true

/-- The code itself is usable: not replayed, parity good, in sequence, from a LOCKED or DEGRADED M (R43). -/
def codeSound (t : LinkTime) (code : BitVec 128) (replayed parityOk : Bool) : Bool :=
  parityOk && !replayed && LinkTime.follows t code && decide (codeState code = 2 ∨ codeState code = 3)

/-- It opens an exchange that can be valid: sound, timestamped, and taken by calibrated converters (R71, R74, R79). -/
def codeGood (t : LinkTime) (code : BitVec 128) (arr : Option Stamp) (replayed parityOk convs : Bool) : Bool :=
  codeSound t code replayed parityOk && arr.isSome && convs

/-- A valid exchange enters the averages (R42). -/
def LinkTime.enter (t : LinkTime) (x dd mv : Int) : LinkTime :=
  { t with xs := (x :: t.xs).take 1024, ds := (dd :: t.ds).take 1024, ph := (mv :: t.ph).take 1024, consecInvalid := 0,
           lost := t.lost && decide (t.xs.length + 1 < 1024) }

/-- The open exchange closes when M's next code brings its t4: a valid one enters the averages, another is missed. -/
def LinkTime.close (t : LinkTime) (code : BitVec 128) (sound : Bool) : LinkTime × Bool :=
  match t.t1, t.t2, t.t3 with
  | some a, some b, some c =>
    let t4 := absOf (codeStamp code) + codeEcho code
    if sound && decide (codeEcho code ≠ 0) && !t.bad then
      (t.enter (exchangeX a b c t4) (exchangeD a b c t4) (divNear (t.mv2 + t.mv3) 2), true)
    else (LinkTime.miss t, false)
  | some _, _, _ => (LinkTime.miss t, false)
  | none, _, _ => (t, false)

/-- M's code opens the next exchange; `ex` says that it begins one (R60). -/
def LinkTime.opened (t : LinkTime) (code : BitVec 128) (arr : Option Stamp) (good parityOk ex : Bool) (moved : Int) : LinkTime :=
  { t with t1 := if ex then some (codeStamp code) else none, t2 := if ex then arr else none, t3 := none, bad := !good,
           exchanges := t.exchanges + 1, mv2 := moved,
           lastSeq := if parityOk then some (codeSeq code) else t.lastSeq,
           farState := if parityOk then codeState code else t.farState,
           farTemp := if good then codeTemp code else t.farTemp }

/-- The two uplinks of a device, for R46. -/
def uplinks : Dev → Nat × Nat
  | .tsu => (0, 1)
  | .jup => (88, 89)

/-- TIME_PARENT_SKEW ends on both uplinks. Each is named by its own block (R46, R313; assumption 18). -/
def State.endSkew (s : State) (d : Dev) : State :=
  (s.endLinkLevel d (uplinks d).1 cParentSkew).endLinkLevel d (uplinks d).2 cParentSkew

/-- The averaged offsets of the two uplinks differ by more than SKEW_LIMIT (R46). -/
def State.skewed (s : State) (d : Dev) : Bool :=
  let a := s.link d (uplinks d).1
  let b := s.link d (uplinks d).2
  decide (a.time.xs ≠ [] ∧ b.time.xs ≠ [] ∧ s.skewLimit d < (a.time.offset - b.time.offset).natAbs)

/-- The counts of R46 after a valid exchange on an uplink. -/
def State.skewCheck (s : State) (d : Dev) (n : Nat) : State :=
  if n = (uplinks d).1 ∨ n = (uplinks d).2 then
    if s.skewed d then
      s.modTime d fun t => if n = (uplinks d).1 then { t with skewCount := t.skewCount + 1 } else { t with skewCountB := t.skewCountB + 1 }
    else (s.modTime d fun t => { t with skewCount := 0, skewCountB := 0 }).endSkew d
  else s

/-! The end of a reflect measurement (R50): D0 is the first averaged round trip after service resumed. -/

/-- A_DEV0 of a port's link: (TX_M + RX_C) − (TX_C + RX_M) from the fuses of both ends, at the temperatures of the entry. -/
def devicePart (port : Nat) (child : Bool) (tNear tFar : Int) : Int :=
  let m := Config.fuseTxAt false port tNear + Config.fuseRxAt true port tFar
  let c := Config.fuseTxAt true port tFar + Config.fuseRxAt false port tNear
  if child then c - m else m - c

/-- Coefficient of one end in (TX_M + RX_C) − (TX_C + RX_M): its TX less its RX at M, its RX less its TX at C (R47, R50). -/
def devCoef (far : Bool) (port : Nat) (child : Bool) : BitVec 12 :=
  let k := Config.fuseTxCoef far port - Config.fuseRxCoef far port
  BitVec.ofInt 12 (if child then -k else k)

/-- An asymmetry entry (R47). -/
def asymEntry (med : Int) (d0 : Nat) (dev : Int) (tl tf : BitVec 8) (kl kf : BitVec 12) : BitVec 128 :=
  put 128 127 96 (BitVec.ofInt 32 med).toNat ||| put 128 95 64 d0 ||| put 128 63 48 (BitVec.ofInt 16 dev).toNat |||
  put 128 47 40 tl.toNat ||| put 128 39 32 tf.toNat ||| put 128 31 20 kl.toNat ||| put 128 19 8 kf.toNat ||| 1

/-- The same entry as the far end holds it: the local and the far fields change places. -/
def asymMirror (e : BitVec 128) : BitVec 128 :=
  asymEntry (asymMed e) (asymD0 e) (asymDev e) (e.extractLsb' 32 8) (e.extractLsb' 40 8) (e.extractLsb' 8 12) (e.extractLsb' 20 12)

/-- A_MED0, D0 and A_DEV0 of an entry, as the completion reports them (R350). -/
def reflectResults (e : BitVec 128) : List Word :=
  [put 64 63 32 (BitVec.ofInt 32 (asymMed e)).toNat ||| put 64 31 0 (asymD0 e), put 64 63 32 (BitVec.ofInt 32 (asymDev e)).toNat]

/-- The entry that a measurement of port `n` gives now. -/
def State.reflectEntry (s : State) (n : Nat) (med : Int) : BitVec 128 :=
  let near := s.jupC.time.temp
  let far := (s.link .jup n).time.farTemp
  asymEntry med (meanD (s.link .jup n).time).toNat (devicePart n (s.isChild .jup n) near.toInt far.toInt) near far
    (devCoef false n (s.isChild .jup n)) (devCoef true n (!s.isChild .jup n))

/-- Once the average holds its first round trip, the entry is written into the inactive bank of both ends and its swap is
asked for; the command completes (R50). -/
def State.reflectFinish (s : State) (d : Dev) (n : Nat) : State :=
  match d, (s.link d n).asym.reflect, (s.link d n).asym.medium with
  | .jup, some hd, some med =>
    let e := s.reflectEntry n med
    ((s.modAsym .jup n fun a => { (Asym.setInactive a e) with reflect := none, medium := none, go := true, bad := false, measured := true }).emit
      (.farEntry n (asymMirror e))).post .jup hd stOk (reflectResults e)
  | _, _, _ => s

/-- An averaged offset beyond LOCK_THR spoils a dwell of ACQUIRE, and starts the average of R107 anew. -/
def State.offsetCheck (s : State) (d : Dev) : State :=
  if s.selOffset d ≤ s.lockThr d then s
  else s.modCr d fun c =>
    if c.state = .track then (if c.returning then { c with dwellStart := s.now d } else c) else { c with dwellOk := false }

/-- What follows a valid exchange: A, theta, the dwell in progress, the start of the acquisition (R48, R102, R103, R107). E is
the tick on which the first valid exchange closes, an instant that R102 leaves open (assumption 180). -/
def State.afterValid (s : State) (d : Dev) (n : Nat) : State :=
  let s1 := ((s.refreshOffset d n).skewCheck d n).reflectFinish d n
  if s1.selLink d = some n then
    let s2 := if (s1.com d).cr.state = .acquire ∧ (s1.com d).time.acqStart = none then
        s1.modTime d fun t => { t with acqStart := some t.htc } else s1
    s2.offsetCheck d
  else s1

/-- At the low rate only M's codes of ticks 65,536 k begin an exchange (R60). -/
def State.beginsExchange (s : State) (d : Dev) (code : BitVec 128) : Bool :=
  !(s.com d).time.lowRate || decide ((codeStamp code).tick.toNat / exPeriod % 8 = 0)

/-- C's side of a received code. -/
def State.childCode (s : State) (d : Dev) (n : Nat) (code : BitVec 128) (replayed parityOk : Bool) : State :=
  let t := (s.link d n).time
  let arr := s.codeStampNow d n
  let good := codeGood t code arr replayed parityOk (s.convsValid d n)
  let (t1, valid) := LinkTime.close t code (codeSound t code replayed parityOk)
  let s1 := s.modLt d n fun _ => LinkTime.opened t1 code arr good parityOk (s.beginsExchange d code) (s.com d).cr.moved
  let s2 := if asymValid (s.link d n).asym.active then s1 else s1.raiseLevel d (blkAsym d n) cAsymInvalid (linkCtx d n)
  let s3 := if valid then s2.afterValid d n else s2
  if (s3.com d).cr.state = .holdover then s3.crSelect d else s3.evalRefs d

/-- At M: whether the child counts its exchanges at the low rate. SEQ is the exchange number: tick / 65,536 there, tick /
8,192 at the full rate (R41, R60; assumption 151). -/
def lowSeq (old : Bool) (code : BitVec 128) : Bool :=
  let t := (codeStamp code).tick.toNat
  if t / exPeriod % 8 ≠ 0 then false
  else if (codeSeq code).toNat = t / lowPeriod % 32 then
    (if (codeSeq code).toNat = t / exPeriod % 32 then old else true)
  else false

/-- M's side: t4 for the next ECHO, and the values that R45 reports. C sends no t2 (R41: ECHO zero), which is the one value
left open here: x and D follow from a free t2, and the averages and A as at C (assumption 15). -/
def State.parentCode (s : State) (d : Dev) (n : Nat) (code : BitVec 128) (replayed parityOk : Bool) : State :=
  let t := (s.link d n).time
  let arr := s.codeStampNow d n
  let good := parityOk && !replayed && arr.isSome && LinkTime.follows t code && s.convsValid d n
  let own := decide ((s.com d).time.state = .locked ∨ (s.com d).time.state = .degraded)
  let (v, s1) := s.fresh
  let t' := { t with t4 := if good then arr else none, lastSeq := if parityOk then some (codeSeq code) else t.lastSeq,
                     farTemp := if good then codeTemp code else t.farTemp, exchanges := t.exchanges + 1,
                     farState := if parityOk then codeState code else t.farState, lowFar := if good then lowSeq t.lowFar code else t.lowFar }
  match t.t1, arr with
  | some a, some t4 =>
    if good && own && !t.bad then
      let t2 := stampOf v.toInt
      ((s1.modLt d n fun _ => t'.enter (exchangeX a t2 (codeStamp code) (absOf t4)) (exchangeD a t2 (codeStamp code) (absOf t4)) 0).refreshOffset
        d n).reflectFinish d n
    else s1.modLt d n fun _ => LinkTime.miss t'
  | _, _ => s1.modLt d n fun _ => LinkTime.miss t'

/-- A time code takes the timestamp that the receive converter has delivered for it, if one was taken (R71). A link over
which no time transfer goes on, or of which this end is neither M nor C, takes none (R19, R60). The words are sound if both of
their guards, PE and PO, are (R233). -/
def execTimeCodeRx (d : Dev) (n : Nat) (code : BitVec 128) (replayed peOk poOk : Bool) (s : State) : Res :=
  let parityOk := peOk && poOk
  let s1 := s.consume d n mtTimeCode [code.extractLsb' 0 64, code.extractLsb' 64 64]
  let s2 := if s.isChild d n then (if s.timeOn d n then s1.childCode d n code replayed parityOk else s1)
            else if s.isParent d n then s1.parentCode d n code replayed parityOk else s1
  .next ((s2.modLt d n fun t => { t with arrived := none }).timingDone d n)

/-! ### PARENT_LOST (R44) -/

def execParentLost (d : Dev) (n : Nat) (s : State) : Res :=
  s.due (s.isChild d n && decide (64 ≤ (s.link d n).time.consecInvalid) && !(s.link d n).time.lost) fun s =>
    (s.modLt d n fun t => { t with lost := true, xs := [], ds := [], ph := [] }).crSelect d

/-! ### TIME_PARENT_SKEW (R46) -/

def execTimeParentSkew (d : Dev) (s : State) : Res :=
  s.due (decide (1024 ≤ (s.com d).time.skewCount ∨ 1024 ≤ (s.com d).time.skewCountB)) fun s =>
    (s.raiseLinkLevel d (uplinks d).1 cParentSkew).raiseLinkLevel d (uplinks d).2 cParentSkew

/-! ### TIME_MASTER_CHANGE (R39, R97, R101) -/

/-- This device of the root pair becomes the time master: no step in its counter, CV kept, and kept as the holdover value
until an external reference is selected (R39, R101). -/
def State.becomeMaster (s : State) : State :=
  let s1 := s.modJup fun j => { j with timeMaster := true, masterB := decide (s.side = 1) }
  let s2 := s1.modTime .jup fun t => { t with state := .locked, holdSince := none, acqStart := none }
  let s3 := (s2.unselect .jup).modCr .jup fun c => { c with state := .holdover, selMode := 0, holdCv := c.cv, returning := false }
  (s3.raiseFault .jup (blkTime .jup) cMasterChange {}).crSelect .jup

/-- The other side becomes master: the hot-standby follows it, by a switch (R97). -/
def State.followMaster (s : State) : State :=
  (s.modJup fun j => { j with masterB := !j.masterB }).crSelect .jup

def execTimeMasterChange (masterLost otherLost : Bool) (s : State) : Res :=
  s.due (s.hasRole && decide (s.role = 3) && !s.jup.timeMaster && masterLost) fun s =>
    if s.side = 2 ∧ !otherLost then s.followMaster else s.becomeMaster

/-! ### TIME_LOST (R55) -/

/-- An uplink is still measured: it is up, time goes on over it, and its parent is not lost (R44, R55). -/
def State.measured (s : State) (d : Dev) (n : Nat) : Bool :=
  s.isChild d n && (s.link d n).ctl.lstate.timed && s.timeOn d n && !(s.link d n).time.lost && decide ((s.link d n).time.xs ≠ [])
/-- The averaged offset of a measured uplink exceeds four times LOCK_THR (R55). -/
def State.offsetLost (s : State) (d : Dev) : Bool :=
  [(uplinks d).1, (uplinks d).2].any fun n => s.measured d n && decide (4 * s.lockThr d < (s.link d n).time.offset.natAbs)

/-- A limit of R55 is passed. HOLD_LIMIT counts in HOLDOVER alone; neither limit applies while TRACK returns from it (R60,
R107). -/
def State.lostDue (s : State) (d : Dev) : Bool :=
  decide ((s.com d).time.state = .degraded) && !s.rootMaster d &&
  ((decide ((s.com d).cr.state = .holdover) &&
      match (s.com d).time.holdSince with | some h => decide (h.toNat + (s.com d).time.holdLimit ≤ s.nowN d) | none => false) ||
   (!(s.com d).cr.returning && s.offsetLost d))

def execTimeLost (d : Dev) (s : State) : Res :=
  s.due (s.lostDue d) fun s =>
    let s1 := (s.modTime d fun t => { t with state := .lost }).raiseLevel d (blkTime d) cTimeLost {}
    match d with
    | .tsu => s1.wantHoldAll 10
    | .jup => s1

/-! ### COARSE_LOAD (R56, R102) -/

/-- theta of the 16 raw exchanges of the coarse phase on a link. -/
def State.coarseTheta (s : State) (d : Dev) (n : Nat) : Int := thetaOf ((s.link d n).time.xs.take 16) (s.link d n).time.asym

/-- Clamp of CV (R86). -/
def clampCv (v : Int) : Int := max (-268435456) (min 268435456 v)

/-- Tick stamps from which times still run follow a load of TICK, so that no time is cut short or drawn out by it. -/
def Conv.rebase (c : Conv) (k : Tick) : Conv :=
  { c with lastEdge := c.lastEdge.map (· - k), busy := c.busy.map fun b => (b.1 - k, b.2) }
def ConvCtl.rebase (c : ConvCtl) (k : Tick) : ConvCtl :=
  { c with builtAt := c.builtAt.map (· - k), newAt := c.newAt.map (· - k), swappedAt := c.swappedAt.map (· - k),
           lastService := c.lastService.map (· - k), lastHit := c.lastHit.map (· - k),
           swapAt := if c.swapPend then c.swapAt - k else c.swapAt }
/-- The averages and the open exchange of a link name instants of the old count, and start anew (assumption 29). -/
def LinkTime.restart (t : LinkTime) : LinkTime :=
  { t with xs := [], ds := [], ph := [], t1 := none, t2 := none, t3 := none, t4 := none, arrived := none, handover := none }
def Link.rebase (l : Link) (k : Tick) : Link :=
  { l with time := l.time.restart, tx := { l.tx with ackTick := l.tx.ackTick - k, tackTick := l.tx.tackTick - k },
           ctl := { l.ctl with since := l.ctl.since - k, downSince := l.ctl.downSince.map (· - k), episodes := l.ctl.episodes.map (· - k) } }
def Ref.rebase (r : Ref) (k : Tick) : Ref :=
  { r with qlTick := r.qlTick.map (· - k), wtrStart := r.wtrStart.map (· - k),
           lastEdge := r.lastEdge.map fun e => { e with tick := e.tick - k },
           pred := r.pred.map (· - k.toInt * 65536), anchor := r.anchor.map (· - k.toInt * 65536) }
def Pulse.rebase (p : Pulse) (k : Tick) : Pulse :=
  let m (x : Option Int) : Option Int := x.map (· - k.toInt * 65536)
  { p with lastOut := m p.lastOut, lastIn := m p.lastIn, pred := m p.pred, offAt := m p.offAt }

/-- The times that run in a device whose TICK is loaded `k` lower (R56, R78): converters, links, references, the command. -/
def State.rebase (s : State) (d : Dev) (k : Tick) : State :=
  s.modCom d fun c =>
    { c with convs := c.convs.map fun e => (e.1, e.2.rebase k), links := c.links.map fun e => (e.1, e.2.rebase k),
             convCtl := (c.convCtl.map fun e => (e.1, e.2.rebase k)).filter fun e => decide (e.2 ≠ {}),
             cr := { c.cr with refs := c.cr.refs.map fun e => (e.1, e.2.rebase k), pulses := c.cr.pulses.map fun e => (e.1, e.2.rebase k) },
             time := { c.time with resync := c.time.resync.map fun r => (r.1, r.2 - k) } }

/-- TICK is loaded so that the offset falls within half a tick; CV is preset; the residue is a phase move, spread
over the 131,072 ticks that follow (R102). -/
def State.coarseLoad (s : State) (d : Dev) (n : Nat) : State :=
  let th := s.coarseTheta d n
  let ticks := divNear th 65536
  let shift : Tick := BitVec.ofInt 64 ticks
  let s1 := (s.rebase d shift).modTime d fun t => { t with htc := t.htc - shift, acqStart := t.acqStart.map (· - shift), state := .acquiring }
  s1.modCr d fun c =>
    { c with cv := clampCv (Config.cvPreset (((s.link d n).time.xs.take 16).map fun x => divNear x 2)),
             coarseTotal := -(th - ticks * 65536), coarseDone := 0, coarseAt := ((s.com d).time.acqStart.getD 0) - shift + 131072,
             bwCur := 0, dwellOk := true, dwellStart := ((s.com d).time.acqStart.getD 0) - shift + 262144 }

/-- 16 exchanges of the coarse phase are in, 131,072 ticks after the first (R102). -/
def State.coarseDue (s : State) (d : Dev) : Bool :=
  decide ((s.com d).cr.state = .acquire) && decide ((s.com d).time.state = .unset) &&
  match (s.com d).time.acqStart, s.selLink d with
  | some e, some n => decide (e.toNat + 131072 ≤ s.nowN d) && decide (16 ≤ (s.link d n).time.xs.length)
  | _, _ => false

def execCoarseLoad (d : Dev) (s : State) : Res :=
  s.due (s.coarseDue d) fun s => match s.selLink d with | some n => s.coarseLoad d n | none => s

/-! ### DWELL_END (R103, R107) -/

def dwell : Nat := 8388608

/-- A dwell, or the average of R107, has run its length. -/
def State.dwellDue (s : State) (d : Dev) : Bool :=
  decide ((s.com d).cr.dwellStart.toNat + dwell ≤ s.nowN d) &&
  ((decide ((s.com d).cr.state = .acquire) && decide ((s.com d).time.state = .acquiring)) ||
   (decide ((s.com d).cr.state = .track) && decide ((s.com d).time.state = .degraded) && !s.returnSlewing d))

/-- The lock dwell has passed: LOCKED in TRACK, or LOWRATE and DEGRADED while the low rate is in force (R60, R99). -/
def State.lockDwellPassed (s : State) (d : Dev) : State :=
  let s1 := s.modCr d fun c => { c with state := s.trackState d, bwCur := 3 }
  if (s.com d).time.lowRate then s1.modTime d fun t => { t with state := .degraded, acqStart := none } else s1.enterLocked d

/-- The dwell repeats at the same code. -/
def State.dwellAgain (s : State) (d : Dev) : State := s.modCr d fun c => { c with dwellStart := s.now d, dwellOk := true }

def State.dwellEnd (s : State) (d : Dev) : State :=
  let cr := (s.com d).cr
  if cr.state = .acquire ∧ cr.bwCur.toNat < 3 then
    if s.selOffset d ≤ 2 * s.lockThr d then (s.dwellAgain d).modCr d fun c => { c with bwCur := c.bwCur + 1 } else s.dwellAgain d
  else if cr.dwellOk then s.lockDwellPassed d
  else s.dwellAgain d

def execDwellEnd (d : Dev) (s : State) : Res := s.due (s.dwellDue d) fun s => s.dwellEnd d

/-! ### CR_ACQ_FAIL (R103) -/

/-- LOCKED has not been entered 80 ms after the first valid exchange. -/
def State.acqFailDue (s : State) (d : Dev) : Bool :=
  decide ((s.com d).cr.state = .acquire) &&
  match (s.com d).time.acqStart with
  | some e => decide (e.toNat + 128000000 ≤ s.nowN d)
  | none => false

def execCrAcqFail (d : Dev) (s : State) : Res :=
  s.due (s.acqFailDue d) fun s =>
    ((s.modTime d fun t => { t with state := .unset, acqStart := none }).modCr d fun c => { c with bwCur := 0, coarseTotal := 0, coarseDone := 0 }).raiseFault d
      (blkCr d) cAcqFail {}

/-! ### TIME_RESYNC (R57, R58) -/

/-- The root time master is LOCKED whatever its Clock Room does (R100), so there the command completes at once. -/
def execTimeResync (d : Dev) (h : Hdr) (s : State) : Res :=
  .next (s.withHandle d h opTimeResync fun hd s =>
    if d = .tsu ∧ s.anyBound then s.post d hd stChannelsBound []
    else if s.rootMaster d then (s.resyncNow d).post d hd stOk [s.now d]
    else (s.resyncNow d).modTime d fun t => { t with resync := some (hd, t.htc) })

/-! ### The UTC mapping (R62, R63) -/

/-- QUALITY of the root's record: FREE before any labelled pulse, HOLDOVER while no reference is tracked. -/
def State.mapQuality (s : State) : BitVec 2 :=
  if s.jup.labelled.isEmpty then 2 else if s.jupC.cr.state = .track then 0 else 1

/-- The record the root publishes now. -/
def State.mapRecord (s : State) : MapRec :=
  { htcRef := (s.jup.labelled.head?.map Prod.fst).getD 0, taiSec := (s.jup.labelled.head?.map Prod.snd).getD 0,
    taiNs := 0, rate := Config.rateFit s.jup.labelled, utcOffset := s.jup.labelUtc, leap := s.jup.labelLeap,
    quality := s.mapQuality, seq := s.jup.pubSeq }

/-- A record arrives at a Jupin. -/
def State.mapArrive (s : State) (r : MapRec) : State :=
  s.modJup fun j => { j with mapNext := some r, mapTick := s.now .jup, mapHold := false,
                             mapTraceable := if r.quality = 0 then s.now .jup else j.mapTraceable }

/-- A second has passed since the last publication. -/
def State.publishDue (s : State) : Bool :=
  s.rootMaster .jup && match s.jup.pubTick with | some t => decide (t.toNat + second ≤ s.nowN .jup) | none => true

def execMappingPublish (s : State) : Res :=
  s.due s.publishDue fun s =>
    (((s.emit (.mapping s.mapRecord)).mapArrive s.mapRecord).modJup fun j =>
      { j with pubTick := some (s.now .jup), pubSeq := j.pubSeq + 1 })

def execMappingRecordRx (r : MapRec) (s : State) : Res := .next (s.mapArrive r)

def execMappingApply (s : State) : Res :=
  s.due (s.jup.mapNext.isSome && decide (s.nowN .jup % second = 0)) fun s =>
    s.modJup fun j => { j with mapCur := j.mapNext, mapNext := none }

def execMappingHoldover (s : State) : Res :=
  s.due (decide (s.jup.mapTick.toNat + 4 * second ≤ s.nowN .jup)) fun s => s.modJup fun j => { j with mapHold := true }

def execSetTod (h : Hdr) (sec : BitVec 48) (utc : BitVec 16) (leap : BitVec 2) (s : State) : Res :=
  if leap = 3 then .fault (.unpredictable "R9")
  else .next (s.withHandle .jup h opSetTod fun hd s =>
    if s.rootMaster .jup then s.modJup fun j => { j with tod := some (sec, utc, leap, hd) }
    else s.post .jup hd stNotMaster [])

/-! ### The NTPv4 service (R64) -/

/-- UTC of a counter value in nanoseconds, rounded down (R62). -/
def utcNs (r : MapRec) (t : Tick) : Int :=
  r.taiSec.toNat * 1000000000 + r.taiNs.toNat +
    ((t.toNat : Int) - r.htcRef.toNat) * 625 * (1099511627776 + r.rate.toInt) / 1099511627776000 -
    r.utcOffset.toInt * 1000000000

/-- JP_NTP_CFG, and the 128-bit key of a KEY_ID among the 16 of the image (R473). -/
def State.ntpCfg (s : State) : Half := s.reg .jup 0x60400
def State.ntpKey (s : State) (id : BitVec 16) : Option (BitVec 128) :=
  ((List.range 16).find? fun k =>
      let w := s.reg .jup (0x60410 + 0x20 * k)
      w.getLsbD 31 && decide (w.extractLsb' 0 16 = id)).map fun k =>
    put 128 31 0 (s.reg .jup (0x60414 + 0x20 * k)).toNat ||| put 128 63 32 (s.reg .jup (0x60418 + 0x20 * k)).toNat |||
    put 128 95 64 (s.reg .jup (0x6041C + 0x20 * k)).toNat ||| put 128 127 96 (s.reg .jup (0x60420 + 0x20 * k)).toNat

/-- Authentication: a MAC under a key of the image, or none where the image does not require keys. -/
def State.ntpAuth (s : State) (key : Option (BitVec 16 × BitVec 128)) (body : List Word) : Bool :=
  match key with
  | none => !s.ntpCfg.getLsbD 31
  | some (id, mac) => match s.ntpKey id with | some k => decide (Config.aesCmac k body = mac) | none => false

/-- QUALITY as served (R63, R64). -/
def State.servedQuality (s : State) : Nat :=
  match s.jup.mapCur with
  | none => 2
  | some r => if s.jup.mapHold then 1 else r.quality.toNat

/-- Reference ID "HALL" (R64). -/
def hallId : BitVec 32 := 0x48414C4C

/-- The answer's own words, over which its authentication code is taken; the packet's layout is that of RFC 5905. -/
def NtpReply.words (r : NtpReply) : List Word :=
  [put 64 63 62 r.li ||| put 64 61 59 r.version ||| put 64 58 56 r.mode ||| put 64 55 48 r.stratum ||| put 64 31 0 r.refId.toNat,
   BitVec.ofNat 64 r.rootDispUs, BitVec.ofInt 64 r.rxNs, BitVec.ofInt 64 r.txNs] ++ r.body

/-- The answer: version 4, mode 4, leap indicator, stratum, reference ID, added root dispersion, and the receive and transmit
times from the HTC; under the key of the request where it had one (R64). With QUALITY FREE the manual gives no reference ID,
which is the free value `v` there. -/
def State.ntpAnswer (s : State) (key : Option (BitVec 16 × BitVec 128)) (v : BitVec 64) (body : List Word) : NtpReply :=
  let r : MapRec := s.jup.mapCur.getD { htcRef := 0, taiSec := 0, taiNs := 0, rate := 0, utcOffset := 0, leap := 0, quality := 2, seq := 0 }
  let t := utcNs r (s.now .jup)
  let (li, stratum, refId, disp) : Nat × Nat × BitVec 32 × Nat :=
    match s.servedQuality with
    | 2 => (if s.ntpCfg.getLsbD 30 then 3 else r.leap.toNat, fld s.ntpCfg 27 24, v.setWidth 32, 0)
    | 1 => (r.leap.toNat, 1, hallId, 15 * ((s.nowN .jup - s.jup.mapTraceable.toNat) / second))
    | _ => (r.leap.toNat, 1, hallId, 0)
  let a : NtpReply := { li := li, stratum := stratum, refId := refId, rootDispUs := disp, rxNs := t, txNs := t, body := body, mac := none }
  { a with mac := match key with
      | some (id, _) => (s.ntpKey id).map fun k => (id, Config.aesCmac k a.words)
      | none => none }

/-- At most 2,000 answers in a second. -/
def State.ntpServe (s : State) (key : Option (BitVec 16 × BitVec 128)) (body : List Word) : State :=
  let sec := s.nowN .jup / second
  let used := if s.jup.ntpSecond = sec then s.jup.ntpInSecond else 0
  if used < 2000 then
    (s.fresh.2.modJup fun j => { j with ntpAnswered := j.ntpAnswered + 1, ntpSecond := sec, ntpInSecond := used + 1 }).emit
      (.ntpReply (s.ntpAnswer key s.fresh.1 body))
  else s.modJup fun j => { j with ntpDropped := j.ntpDropped + 1 }

def execNtpRequest (mode : BitVec 3) (key : Option (BitVec 16 × BitVec 128)) (body : List Word) (s : State) : Res :=
  .next (if mode ≠ 3 then s
         else if s.ntpAuth key body then s.ntpServe key body
         else s.modJup fun j => { j with ntpAuthFail := j.ntpAuthFail + 1 })

/-! ### Measuring a link (R50, R51) -/

/-- The port carries a job whose active side is this device and whose rank the die on it serves (R51). -/
def State.portActive (s : State) (p : Nat) : Bool := s.mapRuns.any fun (_, m) => decide (m.port.toNat = p ∧ m.side.toNat = s.side)

def execMeasureLink (h : Hdr) (port : BitVec 7) (reflect childSelected : Bool) (s : State) : Res :=
  .next (s.withHandle .jup h opMeasureLink (light := !reflect) fun hd s =>
    let p := port.toNat
    let t := (s.link .jup p).time
    if !reflect then
      s.post .jup hd stOk [put 64 63 32 (BitVec.ofInt 32 t.offset).toNat ||| put 64 31 0 (BitVec.ofInt 32 t.rtd).toNat,
                           put 64 63 32 (BitVec.ofInt 32 t.asym).toNat]
    else if childSelected || s.portActive p then s.post .jup hd stLinkInUse []
    else (s.modAsym .jup p fun a => { a with reflect := some hd, medium := none }).modCtl .jup p fun c =>
      { c with lstate := .down, frameLock := false, since := s.now .jup })

/-- The reflections have been timed: the two one-way pair delays in FRAC, of the pair this end sends on and of the one it
receives on. Service resumes, through training; the entry follows with the first averaged round trip (`reflectFinish`). -/
def execReflectComplete (port : BitVec 7) (pairs : Int × Int) (s : State) : Res :=
  let p := port.toNat
  s.due ((s.link .jup p).asym.reflect.isSome && (s.link .jup p).asym.medium.isNone) fun s =>
    ((s.modAsym .jup p fun a => { a with medium := some (if s.isChild .jup p then pairs.2 - pairs.1 else pairs.1 - pairs.2) }).modLt .jup p
      LinkTime.restart).modCtl .jup p
        fun c => { c with lstate := .train, since := s.now .jup }

/-! ### Bank swaps (R52) -/

/-- The links whose banks a swap register of the device governs: both uplinks of a TSU, one port of a Jupin. -/
def asymGroup (d : Dev) (n : Nat) : List Nat :=
  match d with
  | .tsu => [0, 1]
  | .jup => [n]
/-- The link that holds GO, BAD and CHECK. -/
def asymKey (d : Dev) (n : Nat) : Nat :=
  match d with
  | .tsu => 0
  | .jup => n

def execAsymSwapGo (d : Dev) (n : Nat) (s : State) : Res :=
  s.due (!(s.link d (asymKey d n)).asym.go) fun s => s.modAsym d (asymKey d n) fun a => { a with go := true, bad := false }

/-- The check of R52: the ones'-complement sum of the inactive bank, and VALID in every entry of the links concerned. An
entry that a reflect measurement wrote is not summed: its CHECK was never written. -/
def State.asymCheckOk (s : State) (d : Dev) (n : Nat) : Bool :=
  let es := (asymGroup d n).map fun k => Asym.inactive (s.link d k).asym
  let a := (s.link d (asymKey d n)).asym
  (a.measured || decide (onesSum16 (es.flatMap halfwords) = a.check.toNat)) && es.all asymValid

/-- One bank swap: the step it causes in the loop's input is built out (R52, R97). -/
def State.swapAsym (s : State) (d : Dev) (n : Nat) : State :=
  let before := (s.link d n).time.offset
  let s1 := (s.modAsym d n fun a => { a with bank := !a.bank, measured := false }).refreshOffset d n
  let s2 := if asymValid (s1.link d n).asym.active then s1.endLevel d (blkAsym d n) cAsymInvalid (linkCtx d n) else s1
  if s2.selLink d = some n then s2.buildOut d ((s2.link d n).time.offset - before) else s2

def execAsymBankSwap (d : Dev) (n : Nat) (s : State) : Res :=
  s.due ((s.link d (asymKey d n)).asym.go && s.atBoundary d) fun s =>
    let s1 := s.modAsym d (asymKey d n) fun a => { a with go := false }
    if s.asymCheckOk d n then (asymGroup d n).foldl (fun s k => s.swapAsym d k) s1
    else (s1.modAsym d (asymKey d n) fun a => { a with bad := true, measured := false }).raiseFault d (blkAsym d n) cAsymTableBad (linkCtx d n)

end Sys2Proof.Machine
end

