-- ==== Sys2Proof/Machine/Vernier.lean ====
section
/-! DEFINITION. The Vernier: conversion of edges, builds by code density, tables and their swaps (R65 to R85). -/
namespace Sys2Proof.Machine
open Host

/-! ### Tables (R72) -/

/-- R72: entries sum to 65,536 and each lies between 64 and 1,024. -/
def widthsValid (l : List Nat) : Bool := decide (l.foldl (· + ·) 0 = 65536) && l.all fun w => decide (64 ≤ w ∧ w ≤ 1024)

def widthList (t : Table (BitVec 16)) : List Nat := (List.range 256).map (widthOf t)

/-- The widths a histogram gives by cumulative rounding (R73). -/
def buildWidths : List Nat → Nat → Nat → List Nat
  | [], _, _ => []
  | h :: t, H, prev => let cum := (H + h + 8) / 16; (cum - prev) :: buildWidths t (H + h) cum

/-- A table of widths, in canonical form. -/
def tableOf (l : List Nat) : Table (BitVec 16) :=
  ((List.range l.length).zip l).filterMap fun (c, w) => if w = 256 then none else some (c, BitVec.ofNat 16 w)

/-- Largest difference of CUM between two tables (R75). -/
def cumDelta (a b : Table (BitVec 16)) : Nat :=
  ((widthList a).zip (widthList b)).foldl
    (fun (acc : Int × Nat) p => let d := acc.1 + (p.1 : Int) - (p.2 : Int); (d, max acc.2 d.natAbs)) (0, 0) |>.2

/-! ### Which edges a converter takes (R67, R68, R71, R74) -/

/-- SRC of converter 4 of a TSU (R85). -/
def State.evtSrc (s : State) : Nat := fld (s.reg .tsu (convBase .tsu 4)) 1 0

/-- A converter whose input has programmable conditioning now: converter 4 of a TSU on the pad loopback, REF and PLOOP of a
Jupin (R65, R66). -/
def State.conditioned (s : State) (d : Dev) (n : Nat) : Bool :=
  match d with
  | .tsu => decide (n = 4 ∧ s.evtSrc = 2)
  | .jup => decide (192 ≤ n)

/-- Conditioning settings of a converter (R67): the switching level and the hysteresis in mV. THRESH codes act as 10 to 240. -/
def State.condLevel (s : State) (d : Dev) (n : Nat) : Int := 10 * (max 10 (min 240 (fld (s.reg d (convBase d n)) 15 8)) : Nat)
def State.condHyst (s : State) (d : Dev) (n : Nat) : Int :=
  match fld (s.reg d (convBase d n)) 7 6 with
  | 0 => 0
  | 1 => 20
  | 2 => 40
  | _ => 80

/-- The edge has the direction of SLOPE and crosses the switching band: THRESH, or the crossing of the two legs in
differential MODE, with the hysteresis about it (R67). -/
def State.detects (s : State) (d : Dev) (n : Nat) (e : EdgeIn) : Bool :=
  let w := s.reg d (convBase d n)
  let level : Int := if w.getLsbD 5 then 0 else s.condLevel d n
  (e.rising == !w.getLsbD 4) && decide (e.lo ≤ level - s.condHyst d n ∧ level + s.condHyst d n ≤ e.hi)

/-- The link of a link converter. -/
def convLink (d : Dev) (n : Nat) : Option Nat :=
  match d with
  | .tsu => if n < 4 then some (n / 2) else none
  | .jup => if n < 192 then some (n / 2) else none

/-- The pulse period of an output as the Clock Room sets it: PERIOD, or in ALIGN the input's measured period (R112). -/
def State.pulseSpan (s : State) (d : Dev) (k : Nat) : Nat :=
  let iv := (s.pulse d k).ivals
  if fld (s.reg d (pulseBase d k)) 1 0 = 2 ∧ !iv.isEmpty then (meanNear iv / 65536).toNat else (s.reg d (pulseBase d k + 4)).toNat

/-- The period after which the next service edge can arrive (R74). For converter 4 of a TSU, of which the rule gives none, it
is that of the TSU's pulse output (assumption 152). -/
def State.servicePeriod (s : State) (d : Dev) (n : Nat) : Nat :=
  match convLink d n with
  | some l => s.period d l
  | none =>
    match d with
    | .tsu => s.pulseSpan .tsu 0
    | .jup => if n < 196 then max exPeriod (s.refPeriod (n - 192)) else s.pulseSpan .jup (n - 196)

/-- The link is out of service while its reflections are timed (R50). -/
def State.timingReflections (s : State) (d : Dev) (l : Nat) : Bool :=
  (s.link d l).asym.reflect.isSome && (s.link d l).asym.medium.isNone

/-- The converter has service edges: its link is up and awake, or its input is on and its edges have not ceased for four
periods (assumption 153). -/
def State.hasService (s : State) (d : Dev) (n : Nat) : Bool :=
  match (s.convCtl d n).lastService with
  | none => false
  | some t =>
    match convLink d n with
    | some l => (s.link d l).ctl.lstate.timed && !s.timingReflections d l && (decide (d = .jup) || s.timeOn d l)
    | none =>
      decide (s.nowN d ≤ t.toNat + 4 * s.servicePeriod d n) &&
      (match d with
        | .tsu => decide (s.evtSrc ≠ 0)
        | .jup => decide (n < 196) || decide (fld (s.reg .jup (pulseBase .jup (n - 196))) 1 0 ≠ 0))

/-- An edge may be accepted: 32 ticks after the last accepted one (R71). -/
def State.convReady (s : State) (d : Dev) (n : Nat) : Bool :=
  match (s.conv d n).lastEdge with
  | some t => decide (t.toNat + 32 ≤ s.nowN d)
  | none => true

/-- The last hit lies less than 32 ticks back (R74). -/
def State.afterHit (s : State) (d : Dev) (n : Nat) : Bool :=
  match (s.convCtl d n).lastHit with
  | some t => decide (s.nowN d < t.toNat + 32)
  | none => false

def State.dropEdge (s : State) (d : Dev) (n : Nat) : State := s.modConvCtl d n fun c => { c with dropped := satInc c.dropped }

/-- A service edge starts a conversion. -/
def State.takeEdge (s : State) (d : Dev) (n : Nat) (code : BitVec 8) : State :=
  (s.modConv d n fun c => { c with lastEdge := some (s.now d), busy := some (s.now d, code) }).modConvCtl d n
    fun c => { c with lastService := some (s.now d) }

/-- A reference input with a period below 8,192 ticks is gated: its converter takes the first edge after each multiple of
8,192 ticks alone (R89). -/
def State.gated (s : State) (d : Dev) (n : Nat) : Bool :=
  match d with
  | .tsu => false
  | .jup => decide (192 ≤ n ∧ n < 196) && decide (s.refPeriod (n - 192) < exPeriod) &&
      match (s.convCtl .jup n).lastService with
      | some t => decide (t.toNat / exPeriod = s.nowN .jup / exPeriod)
      | none => false

def execVernierEdge (d : Dev) (n : Nat) (code : BitVec 8) (e : EdgeIn) (s : State) : Res :=
  .next (if d = .tsu ∧ n = 4 ∧ s.evtSrc = 0 then s
         else if s.conditioned d n ∧ !s.detects d n e then s
         else if s.gated d n then s
         else if s.conditioned d n ∧ !e.wide then s.dropEdge d n
         else if s.afterHit d n then s.modConvCtl d n fun c => { c with collide := satInc c.collide, lastService := some (s.now d) }
         else if !s.convReady d n then s.dropEdge d n
         else s.takeEdge d n code)

/-! ### TIMESTAMP_DELIVERED (R71) -/

/-- Input delay of a REF input from the fuses at the current temperature (R66, R112). -/
def State.inDelay (s : State) (r : Nat) : Int := Config.fuseInDelay r s.jupC.time.temp.toInt

/-- An input edge of an ALIGN output (R112, R113): it is taken where it lies within an eighth of a period of its prediction,
and after the alignment is lost wherever it comes. Its interval counts among the last 16, and the next edge is predicted at
the ball. -/
def Pulse.feed (p : Pulse) (st : Stamp) (din : Int) : Pulse :=
  let a := absOf st
  let per := meanNear p.ivals
  let near := match p.pred with | some q => decide (8 * (a - din - q).natAbs ≤ per.natAbs) | none => true
  if near || p.alignLost then
    let iv := match p.lastIn with
      | some l => if p.ivals.isEmpty ∨ 8 * (a - l - per).natAbs ≤ per.natAbs then ((a - l) :: p.ivals).take 16 else p.ivals
      | none => p.ivals
    { p with missRun := 0, lastIn := some a, ivals := iv, pred := if iv.isEmpty then none else some (a - din + meanNear iv) }
  else p

def State.feedPulses (s : State) (d : Dev) (src : Nat) (st : Stamp) (din : Int) : State :=
  (List.range (nPulses d)).foldl (fun s k =>
    let cfg := s.reg d (pulseBase d k)
    if fld cfg 1 0 = 2 ∧ fld cfg 3 2 = src then s.modPulse d k fun p => Pulse.feed p st din else s) s

/-- An external edge less its prediction, FRAC; of a gated input less the nearest of its periods after the prediction (R89). -/
def State.refDev (s : State) (r : Nat) (a p : Int) : Int :=
  let per : Int := s.refPeriod r * 65536
  if s.refPeriod r < exPeriod ∧ per ≠ 0 then (let e := (a - p) % per; if 2 * e ≤ per then e else e - per) else a - p

/-- An edge of external input `r`: within its window it is good, otherwise it counts as out of window; four in a row fail the
input (R90, R112). -/
def State.refEdge (s : State) (r : Nat) (st : Stamp) : State :=
  let x := s.ref .jup r
  let a := absOf st
  let per : Int := s.refPeriod r * 65536
  let inWindow := match x.pred with
    | some p => decide (8 * (s.refDev r a p).natAbs ≤ per.natAbs)
    | none => true
  let iv := match x.lastEdge with | some l => ((a - absOf l) :: x.intervals).take 16 | none => x.intervals
  let err := match x.anchor with
    | some q => if per = 0 then 0 else let e := (a - q) % per; if 2 * e ≤ per then e else e - per
    | none => 0
  let failed := decide (x.good < 16) || decide (4 ≤ x.missing + 1)
  let s1 := s.modRef .jup r fun y =>
    if inWindow then { y with lastEdge := some st, intervals := if y.missing = 0 then iv else y.intervals, good := if x.pred.isSome then min 16 (y.good + 1) else y.good, missing := 0,
                              err := err, pred := some (a + per) }
    else { y with lastEdge := some st, good := if failed then 0 else y.good, missing := y.missing + 1,
                  pred := if failed then some (a + per) else y.pred }
  (s1.feedPulses .jup r st (s.inDelay r)).evalRef .jup r

/-- A waiting TAI label names the edge of a pulse-per-second input, and its command completes (R62). -/
def State.labelEdge (s : State) (r : Nat) (st : Stamp) : State :=
  match s.jup.tod with
  | some (sec, utc, leap, hd) =>
    if s.refPeriod r = second then
      (s.modJup fun j => { j with tod := none, labelled := (st.tick, sec) :: j.labelled, labelUtc := utc, labelLeap := leap }).post
        .jup hd stOk [st.tick]
    else s
  | none => s

/-- The consumer of a converter's timestamp: TXD of a link, the code that arrives, a pulse output, a reference, or the output
delay with its loopback delay removed (R71, R112, R238). -/
def State.deliver (s : State) (d : Dev) (n : Nat) (st : Stamp) : State :=
  match convLink d n with
  | some l =>
    if n % 2 = 0 then
      s.modLt d l fun t =>
        match t.handover with
        | some h => { t with txd := ((absOf st - h.toNat * 65536) :: t.txd).take 1024, handover := none }
        | none => t
    else s.modLt d l fun t => { t with arrived := some st }
  | none =>
    match d with
    | .tsu => if s.evtSrc = 1 then s.feedPulses .tsu 0 st 0 else s
    | .jup =>
      if n < 196 then (s.refEdge (n - 192) st).labelEdge (n - 192) st
      else s.modPulse .jup (n - 196) fun p =>
        match p.lastOut with
        | some o => { p with dOut := ((absOf st - Config.fuseLoopDelay (n - 196) s.jupC.time.temp.toInt - o) :: p.dOut).take 16 }
        | none => p

def execTimestampDelivered (d : Dev) (n : Nat) (s : State) : Res :=
  match (s.conv d n).busy with
  | none => .next s
  | some (t, code) =>
    s.due (decide (t.toNat + 20 ≤ s.nowN d)) fun s =>
      let st := s.lookup d n t code
      (s.modConv d n fun c => { c with busy := none, lastValid := true, lastCode := code, lastFrac := st.frac,
                                       lastTickLo := t.extractLsb' 0 32 }).deliver d n st

/-! ### Builds (R73 to R77) -/

def buildHits : Nat := 1048576

/-- The window of R74 is open, or the converter has no service edges. -/
def State.hitWindow (s : State) (d : Dev) (n : Nat) : Bool :=
  !s.hasService d n ||
  match (s.convCtl d n).lastService with
  | some t => decide (t.toNat + 512 ≤ s.nowN d) && decide (s.nowN d + 1024 < t.toNat + s.servicePeriod d n)
  | none => true

/-- Builds of a converter pause while its link is in reflect mode, until service resumes (R77). -/
def State.reflecting (s : State) (d : Dev) (n : Nat) : Bool :=
  match convLink d n with
  | some l => (s.link d l).asym.reflect.isSome && (s.timingReflections d l || decide ((s.link d l).ctl.lstate ≠ .service))
  | none => false

/-- A build of the converter runs: on command, or always in AUTO. An automatic build under way as CAL_MODE becomes MANUAL
stands still with its histogram and goes on in AUTO, which R77 leaves open (assumption 181). -/
def State.building (s : State) (d : Dev) (n : Nat) : Bool := (s.convCtl d n).owner.isSome || !s.calManual d

/-- A hit of the ring oscillator. An edge of the ring that comes less than 32 ticks after an accepted edge is no hit and
counts in nothing, and TSU_VRN_LAST shows service edges alone: the manual says neither (assumption 154). -/
def execCalHit (d : Dev) (n : Nat) (code : BitVec 8) (s : State) : Res :=
  s.due (s.ringEn d && s.building d n && !s.reflecting d n && s.hitWindow d n && s.convReady d n &&
         decide ((s.conv d n).hits < buildHits)) fun s =>
    (s.modConv d n fun c => { c with running := true, hits := c.hits + 1, lastEdge := some (s.now d),
                                     hist := tmod 0 c.hist code.toNat (· + 1) }).modConvCtl d n
      fun c => { c with lastHit := some (s.now d) }

/-- A CAL_VERNIER that owns converter `n`. -/
def State.modCal (s : State) (d : Dev) (h : Option Half) (f : CalCmd → CalCmd) : State :=
  match h with
  | some h => s.modCom d fun c => { c with calCmds := updFirst (fun q => decide (q.handle = h)) f c.calCmds }
  | none => s

/-- Post the commands whose converters have all ended, with the fields of R83. -/
def State.calPost (s : State) (d : Dev) : State :=
  let done := (s.com d).calCmds.filter fun q => q.left.isEmpty
  let s1 := s.modCom d fun c => { c with calCmds := c.calCmds.filter fun q => !q.left.isEmpty }
  done.foldl (fun s q => s.post d q.handle (if q.rejected then stRejected else stOk)
    [put 64 63 56 q.built ||| put 64 55 48 q.swapped ||| put 64 47 40 q.held ||| put 64 31 0 q.worst, q.endTick]) s1

/-- Context of a converter's fault: the port of a link converter of a Jupin. -/
def convCtx (d : Dev) (n : Nat) : Ctx :=
  match d with
  | .tsu => {}
  | .jup => if n < 192 then portCtx (n / 2) else {}

/-- A failed build: FAILS, and VERNIER_CAL_BAD after four in a row (R75). -/
def State.failBuild (s : State) (d : Dev) (n : Nat) : State :=
  let s1 := s.modConv d n fun c => { c with fails := satInc c.fails, cand := none }
  if (s1.conv d n).fails = 4 then s1.raiseFault d (blkConv d n) cCalBad (convCtx d n) else s1

/-- The outcome of a finished build whose table passes R72 (R75). -/
inductive BuildOutcome
  | swap (shift : Bool) | hold | fail
  deriving DecidableEq, Repr

def buildOutcome (c : Conv) (new : Table (BitVec 16)) (limit : Nat) : BuildOutcome :=
  match c.cand with
  | some cand => if cumDelta new cand ≤ limit then .swap true else .fail
  | none =>
    if !Conv.valid c then .swap false
    else if cumDelta new (Conv.active c) ≤ limit then .swap false
    else .hold

/-- The formed table stands in the inactive bank, with its VALID and the end and temperature of its build (R73, R78). -/
def State.storeTable (s : State) (d : Dev) (n : Nat) (new : Table (BitVec 16)) (valid : Bool) : State :=
  (s.modConv d n fun c =>
      let c' := Conv.setInactive c new
      if c.bank then { c' with valid0 := valid } else { c' with valid1 := valid }).modConvCtl d n
    fun x => { x with newAt := some (s.now d), newTemp := (s.com d).time.temp }

/-- The command whose build ends with nothing to swap in is done with the converter. -/
def State.buildOver (s : State) (d : Dev) (n : Nat) (h : Option Half) (f : CalCmd → CalCmd) : State :=
  (s.modCal d h fun q => f { q with left := q.left.filter (· ≠ n) }).calPost d

/-- The end of a build: table formed, checked, and scheduled, held or failed (R73, R75, R81). A table that fails R72 has no
part in WORST_DELTA, which the manual leaves open (assumption 155). -/
def State.buildEnd (s : State) (d : Dev) (n : Nat) : State :=
  let c := s.conv d n
  let ctl := s.convCtl d n
  let ws := buildWidths ((List.range 256).map fun k => tget 0 c.hist k) 0 0
  let new := tableOf ws
  let ok := widthsValid ws
  let worst := cumDelta new (Conv.active c)
  let s1 := (s.modConv d n fun c => { c with running := false, hits := 0, lastHist := c.hist, hist := [] }).modConvCtl d n
    fun x => { x with owner := none, hold := false }
  let s2 := (s1.modCal d ctl.owner fun q =>
    { q with built := q.built + 1, worst := max q.worst (if ok then worst else 0), endTick := if q.swapped = 0 then s.now d else q.endTick }).storeTable
      d n new ok
  if !ok then (s2.failBuild d n).buildOver d n ctl.owner fun q => { q with rejected := true }
  else if ctl.hold then s2.buildOver d n ctl.owner fun q => { q with held := q.held + 1 }
  else
    match buildOutcome c new (s.deltaLimit d) with
    | .swap shift =>
      let s3 := s2.modConv d n fun c => { c with fails := 0, cand := none }
      let s4 := s3.modConvCtl d n fun x => { x with swapPend := true, swapAt := s.nextBoundary d, swapOwner := ctl.owner }
      if shift then s4.raiseFault d (blkConv d n) cCalShift (convCtx d n) else s4
    | .hold => (s2.modConv d n fun c => { c with cand := some new }).buildOver d n ctl.owner fun q => { q with held := q.held + 1 }
    | .fail => (s2.failBuild d n).buildOver d n ctl.owner fun q => { q with rejected := true }

def execVernierBuildEnd (d : Dev) (n : Nat) (s : State) : Res :=
  s.due (decide ((s.conv d n).hits = buildHits)) fun s => s.buildEnd d n

/-! ### Swaps (R76, R80, R97) -/

/-- What a swap changes in the phase error of the reference the converter serves: the shift of FRAC at the converter's last
code, half of it on a link, all of it on an external input. The manual does not say how the step is computed (assumption 156). -/
def State.swapStep (s : State) (d : Dev) (n : Nat) : Int :=
  let c := s.conv d n
  let delta : Int := fracOf (Conv.inactive c) c.lastCode.toNat - fracOf (Conv.active c) c.lastCode.toNat
  match convLink d n with
  | some l => if s.selLink d = some l ∧ c.lastValid then divNear delta 2 else 0
  | none => if d = .jup ∧ n < 196 ∧ (s.com d).cr.selected = some (refIx (n - 192)) ∧ c.lastValid then delta else 0

/-- VERNIER_CAL_STALE ends where no converter with the same block and context is stale any more (R78). -/
def State.endStale (s : State) (d : Dev) (n : Nat) : State :=
  if (List.range (nConvs d)).any fun m => decide (m ≠ n ∧ blkConv d m = blkConv d n) && (s.conv d m).stale then s
  else s.endLevel d (blkConv d n) cCalStale (convCtx d n)

def State.tableSwap (s : State) (d : Dev) (n : Nat) : State :=
  let ctl := s.convCtl d n
  let s1 := s.buildOut d (s.swapStep d n)
  let s2 := s1.modConv d n fun c => { c with bank := !c.bank, stale := false }
  let s3 := s2.modConvCtl d n fun x =>
    { x with swapPend := false, go := false, builtAt := x.newAt, builtTemp := x.newTemp, swappedAt := some (s.now d), swapOwner := none }
  let s4 := s3.endStale d n
  (s4.modCal d ctl.swapOwner fun q => { q with swapped := q.swapped + 1, endTick := s.now d, left := q.left.filter (· ≠ n) }).calPost d

def execVernierTableSwap (d : Dev) (n : Nat) (s : State) : Res :=
  s.due ((s.convCtl d n).swapPend && s.atBoundary d && decide ((s.convCtl d n).swapAt ≤ s.now d)) fun s => s.tableSwap d n

/-- The active table is no longer current (R78). -/
def State.aged (s : State) (d : Dev) (n : Nat) : Bool :=
  (match (s.convCtl d n).builtAt with | some t => decide (t.toNat + s.calMaxAge d * 65536 < s.nowN d) | none => false) ||
  decide (s.tempLimit d < ((s.com d).time.temp.toInt - (s.convCtl d n).builtTemp.toInt).natAbs)
def State.staleDue (s : State) (d : Dev) (n : Nat) : Bool :=
  Conv.valid (s.conv d n) && s.hasService d n && !(s.conv d n).stale && s.aged d n

def execVernierCalStale (d : Dev) (n : Nat) (s : State) : Res :=
  s.due (s.staleDue d n) fun s =>
    (s.modConv d n fun c => { c with stale := true }).raiseLevel d (blkConv d n) cCalStale (convCtx d n)

/-- The check of a software-written table (R80). -/
def State.writtenOk (s : State) (d : Dev) (n : Nat) (check : BitVec 16) : Bool :=
  let ws := widthList (Conv.inactive (s.conv d n))
  widthsValid ws && decide (onesSum16 ws = check.toNat)

/-- A write of GO checks the written table on the tick of the write, and the table's AGE and TEMP are those of that write,
because no build made it; the manual gives neither (assumption 157). A command whose table waited for the same swap is
done at it (R83). -/
def State.vrnSwap (s : State) (d : Dev) (n : Nat) (check : BitVec 16) : State :=
  if (s.convCtl d n).go then s
  else if s.writtenOk d n check then
    (s.modConvCtl d n fun x => { x with check := check, go := true, bad := false, swapPend := true, swapAt := s.nextBoundary d,
                                        newAt := some (s.now d), newTemp := (s.com d).time.temp }).modConv d n
      fun c => if c.bank then { c with valid0 := true } else { c with valid1 := true }
  else (s.modConvCtl d n fun x => { x with check := check, bad := true }).raiseFault d (blkConv d n) cCalBad (convCtx d n)

def execVrnSwapGo (d : Dev) (n : Nat) (check : BitVec 16) (s : State) : Res := .next (s.vrnSwap d n check)

/-! ### CAL_VERNIER (R81, R82) -/

/-- The converters of a range that the device has; a range without one names none, which the manual leaves open
(assumption 158). -/
def convRange (d : Dev) (a b : Nat) : List Nat := (List.range (nConvs d)).filter fun n => decide (a ≤ n ∧ n ≤ b)

/-- The command's build starts from an empty histogram (R82). -/
def State.startBuild (s : State) (d : Dev) (n : Nat) (hd : Half) (hold : Bool) : State :=
  (s.modConv d n fun c => { c with running := true, hits := 0, hist := [] }).modConvCtl d n
    fun x => { x with owner := some hd, hold := hold }

/-- Of a foreground command that meets both reasons BUSY is posted, which R82 leaves open (assumption 182). -/
def execCalVernier (d : Dev) (h : Hdr) (first last : Nat) (fg hold : Bool) (s : State) : Res :=
  .next (s.withHandle d h opCalVernier fun hd s =>
    let ns := convRange d first last
    if ns.any (fun n => (s.convCtl d n).owner.isSome) then s.post d hd stBusy []
    else if fg && ns.any (fun n => s.hasService d n) then s.post d hd stInService []
    else
      let s1 := s.modCom d fun c => { c with calCmds := c.calCmds ++
        [{ handle := hd, first := first, last := last, left := ns, built := 0, swapped := 0, held := 0, rejected := false,
           worst := 0, endTick := s.now d }] }
      (ns.foldl (fun s n => s.startBuild d n hd hold) s1).calPost d)

/-! ### TEMP_UPDATE (R413) -/

/-- STALE ends on a converter whose table is current again (R78). -/
def State.freshen (s : State) (d : Dev) (n : Nat) : State :=
  if (s.conv d n).stale && !s.aged d n then
    (s.modConv d n fun c => { c with stale := false }).endStale d n
  else s

def State.freshenAll (s : State) (d : Dev) : State := (List.range (nConvs d)).foldl (fun s n => s.freshen d n) s

def execTempUpdate (d : Dev) (t : BitVec 8) (s : State) : Res := .next ((s.modTime d fun x => { x with temp := t }).freshenAll d)

end Sys2Proof.Machine
end

