-- ==== Sys2Proof/Machine/ClockRoom.lean ====
section
/-! DEFINITION. The Clock Room: quality levels, selection commands, the loop, phase steps, holdover averages, pulse
outputs (R86 to R114). -/
namespace Sys2Proof.Machine
open Host

/-! ### References (R90 to R95) -/

/-- An edge of an external input does not come in its window; after four in a row the input is FAILED, and the prediction
goes on meanwhile (R90). -/
def execRefEdgeMissing (d : Dev) (ref : Fin 8) (s : State) : Res :=
  .next ((s.modRef d ref.val fun x =>
    { x with missing := x.missing + 1, good := if x.good < 16 ∨ 4 ≤ x.missing + 1 then 0 else x.good,
             pred := if 4 ≤ x.missing + 1 then none else x.pred.map (· + s.refPeriod ref.val * 65536) }).evalRef d ref.val)

def execWtrExpiry (d : Dev) (ref : Fin 8) (s : State) : Res :=
  match (s.ref d ref.val).wtrStart with
  | none => .next s
  | some t =>
    s.due (decide (t.toNat + s.wtrTime d * second ≤ s.nowN d) && s.signalGood d ref.val true) fun s =>
      (s.modRef d ref.val fun x => { x with wtrDone := true }).evalRef d ref.val

/-- The port is a link of the selected reference (R89). -/
def State.carriesSel (s : State) (port : Nat) : Bool :=
  match s.jupC.cr.selected with | some q => (s.refLinks .jup q.val).contains port | none => false

/-- QL a Jupin sends on a port (R92); 0xF on every link that carries its own selected reference. -/
def State.qlToSend (s : State) (port : Nat) : BitVec 4 :=
  let cr := s.jupC.cr
  if s.carriesSel port then 0xF
  else
    match cr.state, cr.selected with
    | .track, some q => s.qlOf .jup q.val
    | .holdover, _ => (s.crCtrl .jup).extractLsb' 28 4
    | _, _ => (s.crCtrl .jup).extractLsb' 24 4

/-- CHAIN a Jupin sends: 0 at the root master, one more than its own reference's below it, saturating (R92). While none is
selected it is that of the reference selected last, and before the first that of the shortest way from the root
(assumption 183). -/
def State.chainToSend (s : State) : BitVec 4 :=
  if s.rootMaster .jup then 0
  else match s.jupC.cr.lastSel with
    | some q => satInc (s.ref .jup q.val).chain
    | none => if s.role = 1 then 2 else 1

/-- The clock-quality word. -/
def State.qualityWord (s : State) (port : Nat) : BitVec 16 :=
  put 16 15 12 (s.qlToSend port).toNat ||| put 16 11 8 s.chainToSend.toNat ||| bit1 16 7 (decide (s.jupC.cr.state = .holdover))

/-- Ports that carry the word: down, peer and hot-standby links. -/
def qualityPort (port : Nat) : Bool := decide (port < 88) || (decide (90 ≤ port) && decide (port < 96))

def execClockQualitySend (port : Nat) (s : State) : Res :=
  s.due (qualityPort port && decide (s.nowN .jup % 262144 = 0)) fun s =>
    s.modTx .jup port fun t => { t with quality := some (s.qualityWord port) }

def execClockQualityRx (d : Dev) (n : Nat) (word : BitVec 16) (s : State) : Res :=
  let s0 := s.consume d n mtQuality [put 64 15 0 word.toNat]
  let ql := word.extractLsb' 12 4
  let s1 := if qlKnown ql then s0 else s0.modCr d fun c => { c with qlUnknown := satInc c.qlUnknown }
  .next (match s.linkRef d n with
    | some r => (s1.modRef d r fun x =>
        { x with qlRx := if qlKnown ql then ql else 0xF, qlTick := some (s.now d), chain := word.extractLsb' 8 4,
                 hold := word.getLsbD 7 }).evalRef d r
    | none => s1)

/-- The QL of a reference becomes FAILED. -/
def State.qlFail (s : State) (d : Dev) (r : Nat) : State := (s.modRef d r fun x => { x with qlTick := none, qlRx := 0xF }).evalRef d r

def execQlTimeout (d : Dev) (ref : Fin 8) (s : State) : Res :=
  match (s.ref d ref.val).qlTick with
  | none => .next s
  | some t => s.due ((s.refLink d ref.val).isSome && decide (t.toNat + 1310720 ≤ s.nowN d)) fun s => s.qlFail d ref.val

/-- The ESMC binding of external input n (R93, R473). -/
def State.esmcBound (s : State) (n : Nat) (mac : BitVec 48) : Bool :=
  let hi := s.reg .jup (0x60624 + 8 * n)
  hi.getLsbD 31 && decide (mac.extractLsb' 0 32 = s.reg .jup (0x60620 + 8 * n)) && decide (mac.extractLsb' 32 16 = hi.extractLsb' 0 16)

def execEsmcPduRx (input : Fin 4) (mac : BitVec 48) (valid : Bool) (ql : BitVec 4) (s : State) : Res :=
  s.due (valid && s.esmcBound input.val mac) fun s =>
    let s1 := if qlKnown ql then s else s.modCr .jup fun c => { c with qlUnknown := satInc c.qlUnknown }
    (s1.modRef .jup input.val fun x =>
      { x with qlRx := if qlKnown ql then ql else 0xF, qlTick := some (s.now .jup) }).evalRef .jup input.val

def execEsmcTimeout (input : Fin 4) (s : State) : Res :=
  match (s.ref .jup input.val).qlTick with
  | none => .next s
  | some t => s.due (decide (t.toNat + 5 * second ≤ s.nowN .jup)) fun s => s.qlFail .jup input.val

/-- The selected reference has left QUALIFIED. -/
def State.selLeft (s : State) (d : Dev) : Bool :=
  match (s.com d).cr.selected with
  | some q => !decide (((s.evalRefs d).ref d q.val).state = .qualified)
  | none => false

def execRefSelect (d : Dev) (s : State) : Res := s.due (s.atBoundary d || s.selLeft d) fun s => s.crSelect d

/-! ### Commands (R96) -/

/-- A write of TSU_CR_CMD: one command waits for the exchange boundary; a second is refused with BUSY. -/
def State.crCmd (s : State) (d : Dev) (op : CrOp) (ref : Fin 8) : State :=
  s.modCr d fun c => if c.pend.isSome then { c with cmdErr := 1 } else { c with pend := some (op, ref) }

def execCrForce (d : Dev) (ref : Fin 8) (s : State) : Res := .next (s.crCmd d .force ref)
def execCrManual (d : Dev) (ref : Fin 8) (s : State) : Res := .next (s.crCmd d .manual ref)
def execCrClear (d : Dev) (s : State) : Res := .next (s.crCmd d .clear 0)
def execCrLockout (d : Dev) (ref : Fin 8) (s : State) : Res := .next (s.crCmd d .lockout ref)
def execCrUnlock (d : Dev) (ref : Fin 8) (s : State) : Res := .next (s.crCmd d .unlock ref)
def execCrWtrClear (d : Dev) (ref : Fin 8) (s : State) : Res := .next (s.crCmd d .wtrClear ref)

/-- The refusal of a command, as its CMD_ERR; 0 accepts it (R96, R114). -/
def State.crRefusal (s : State) (d : Dev) (op : CrOp) (r : Nat) : BitVec 3 :=
  match op with
  | .force =>
    if !s.candidate d r then 2
    else if (match s.refLink d r with | some n => !s.asymUsable d n | none => false) then 4
    else if !s.signalGood d r true then 3 else 0
  | .manual => if !s.candidate d r then 2 else if (s.ref d r).state ≠ .qualified then 3 else 0
  | .lockout => if !s.candidate d r then 2 else 0
  | _ => 0

/-- Go over to the reference a FORCE or MANUAL names. HOLDOVER with LOST time is left by a resync alone (R99), which the
selection of HOLDOVER makes; in LOWRATE the always-on uplink stays the reference, since no other is measured (R60). -/
def State.goTo (s : State) (d : Dev) (r : Nat) : State :=
  match (s.com d).cr.state with
  | .track => s.switchRef d r
  | .holdover => if (s.com d).time.state = .lost ∧ !s.rootMaster d then s else s.leaveHoldover d r
  | .free => if s.rootMaster d then s.rootTrack d r else if s.startable d then s.startAcquire d r else s
  | .acquire => if (s.com d).cr.selected = some (refIx r) then s else s.acquireOn d r
  | .lowrate => s

/-- A command accepted at its boundary. -/
def State.crApply (s : State) (d : Dev) (op : CrOp) (r : Nat) : State :=
  match op with
  | .force => (s.goTo d r).modCr d fun c => { c with selMode := 2, forceRef := some (refIx r) }
  | .manual => (s.goTo d r).modCr d fun c => { c with selMode := 1, forceRef := some (refIx r) }
  | .clear => (s.modCr d fun c => { c with selMode := 0, forceRef := none }).crSelect d
  | .lockout =>
    let s1 := s.modRef d r fun x => { x with lockedOut := true }
    let s2 := if (s.com d).cr.selected = some (refIx r) ∨ (s.com d).cr.forceRef = some (refIx r) then s1.modCr d fun c => { c with selMode := 0, forceRef := none } else s1
    s2.crSelect d
  | .unlock => s.modRef d r fun x => { x with lockedOut := false }
  | .wtrClear => if (s.ref d r).wtrStart.isSome then (s.modRef d r fun x => { x with wtrDone := true }).evalRef d r else s

def execCrCmdApply (d : Dev) (s : State) : Res :=
  match (s.com d).cr.pend with
  | none => .next s
  | some (op, r) =>
    s.due (s.atBoundary d) fun s =>
      let s1 := (s.evalRefs d).modCr d fun c => { c with pend := none }
      let e := s1.crRefusal d op r.val
      if e = 0 then s1.crApply d op r.val else s1.modCr d fun c => { c with cmdErr := e }

/-! ### The loop (R86, R97, R98, R101, R108) -/

/-- Mean phase the engine has moved since each exchange of the average (R98). -/
def State.movedSince (s : State) (d : Dev) (n : Nat) : Int :=
  let t := (s.link d n).time
  if t.ph.isEmpty then 0 else (s.com d).cr.moved - meanNear t.ph

/-- The phase error the loop sees: the reference's, compensated for the device's own moves, against the offset held,
less the moves still to be made (R97, R98, R109). -/
def State.loopError (s : State) (d : Dev) : Int :=
  let cr := (s.com d).cr
  match cr.selected with
  | none => 0
  | some _ =>
    let comp := match s.selLink d with | some n => s.movedSince d n | none => 0
    s.selErr d + comp - ((if s.rootMaster d then 0 else cr.target) - cr.pstepRemain)

/-- The bandwidth code in force: code 3 or the forced one in TRACK, 7 at the root master (R102, R104). R104 lets a cleared
FORCE_EN return to code 3; at the root master, whose code R100 makes 7, it returns to 7 here (assumption 159). -/
def State.bwNow (s : State) (d : Dev) : BitVec 3 :=
  let cr := (s.com d).cr
  let w := s.reg d (crBase d + 8)
  match cr.state with
  | .track => if w.getLsbD 8 then w.extractLsb' 0 3 else if s.rootMaster d then 7 else 3
  | .lowrate => 3
  | _ => cr.bwCur

/-- The loop runs: in TRACK, LOWRATE and the dwells of ACQUIRE, the first of which begins 262,144 ticks after E (R99, R102). -/
def State.loopRuns (s : State) (d : Dev) : Bool :=
  let cr := (s.com d).cr
  match cr.state with
  | .track => true
  | .lowrate => true
  | .acquire => decide ((s.com d).time.state = .acquiring ∧ cr.dwellStart ≤ s.now d)
  | _ => false

/-- Rate limit of R101 for one LOOP edge: 2^-40 units times 5 x 10^16, budget and limit. -/
def rateUnit : Nat := 50000000000000000
def rateStep (freqRate : Nat) : Nat := freqRate * 137438953472

/-- The CV asked for at one LOOP edge: the filter's while the loop runs, the holdover value in HOLDOVER. -/
def State.cvWanted (s : State) (d : Dev) : Int :=
  let cr := (s.com d).cr
  if s.loopRuns d then clampCv (Config.loopFilter s.freeCtr (s.bwNow d).toNat (s.loopError d) cr.cv)
  else if cr.state = .holdover then cr.holdCv else cr.cv

/-- CV after one LOOP edge; at the root time master it moves at FREQ_RATE at most, in every state (R101). -/
def State.cvNext (s : State) (d : Dev) : Int × Nat :=
  let cr := (s.com d).cr
  let v := s.cvWanted d
  if s.rootMaster d then
    let acc := min rateUnit (cr.rateAcc + rateStep (fld (s.crCtrl d) 23 16))
    if acc < rateUnit then (cr.cv, acc)
    else if cr.cv < v then (cr.cv + 1, 0)
    else if v < cr.cv then (cr.cv - 1, 0)
    else (cr.cv, acc)
  else (v, cr.rateAcc)

/-- The phase-step engine over one LOOP period: whole FRAC moved at PSTEP_RATE, and the fraction kept (R108). -/
def engineStep (remain : Int) (acc rate : Nat) : Int × Nat :=
  if remain = 0 then (0, 0)
  else
    let a := acc + rate * 32
    let q := min (a / 16777216) remain.natAbs
    (if 0 < remain then (q : Int) else -(q : Int), a % 16777216)

/-- What of the coarse load's phase move is done by now: evenly over 131,072 ticks (R102). -/
def State.coarseMoved (s : State) (d : Dev) : Int :=
  let cr := (s.com d).cr
  let e := s.nowN d - cr.coarseAt.toNat
  if 131072 ≤ e then cr.coarseTotal else cr.coarseTotal * e / 131072

/-- One LOOP edge: the loop, the engine, the block; the counter of free values goes on with the filter. -/
def State.cvStep (s : State) (d : Dev) : State :=
  let (v, ra) := s.cvNext d
  let b := s.bwNow d
  (s.modCr d fun c =>
    let (m, acc) := engineStep c.pstepRemain c.pstepAcc (s.pstepRate d)
    { c with cv := v, rateAcc := ra, bwCur := b, pstepRemain := c.pstepRemain - m, pstepAcc := acc,
             moved := c.moved + m + (s.coarseMoved d - c.coarseDone), coarseDone := s.coarseMoved d,
             dwellStart := if s.returnSlewing d then s.now d else c.dwellStart, dwellOk := s.returnSlewing d || c.dwellOk,
             blockSum := c.blockSum + v, blockCount := c.blockCount + 1,
             blockOk := c.blockOk && decide ((s.com d).time.state = .locked) && decide (b = 3) }).fresh.2

def execCvUpdate (d : Dev) (s : State) : Res := s.due (decide (s.nowN d % 32 = 0)) fun s => s.cvStep d

def execCvBlockAverage (d : Dev) (s : State) : Res :=
  s.due (decide (s.nowN d % 4194304 = 0)) fun s =>
    s.modCr d fun c =>
      { c with blocks := ((if c.blockCount = 0 then c.cv else divNear c.blockSum c.blockCount,
                           c.blockOk && decide (0 < c.blockCount)) :: c.blocks).take 64,
               blockSum := 0, blockCount := 0, blockOk := decide ((s.com d).time.state = .locked) && decide (c.bwCur = 3) }

/-! ### PSTEP_WRITE, BW_FORCE (R104, R109) -/

/-- A channel of the TSU, or a job through the Jupin, is bound (R109). -/
def State.devBound (s : State) (d : Dev) : Bool :=
  match d with
  | .tsu => s.anyBound
  | .jup => !s.mapRuns.isEmpty

def execPstepWrite (d : Dev) (step : Half) (s : State) : Res :=
  let v := step.toInt
  let range := decide (32768 < ((s.com d).cr.pstepRemain + v).natAbs)
  let bound := !s.rootMaster d && s.devBound d
  .next (s.modCr d fun c =>
    if range || bound then { c with errRange := c.errRange || range, errBound := c.errBound || bound }
    else { c with pstepRemain := c.pstepRemain + v, target := if s.rootMaster d then c.target else c.target + v })

/-- Reserved codes have no handling (R9), and a write in HOLDOVER is a host error of the Clock Room chapter. -/
def execBwForce (d : Dev) (en : Bool) (code : BitVec 3) (s : State) : Res :=
  if 4 ≤ code.toNat ∧ code.toNat ≤ 6 then .fault (.unpredictable "R9")
  else if (s.com d).cr.state = .holdover then .fault (.unpredictable "R10")
  else .next (s.setReg d (crBase d + 8) (bit1 32 8 en ||| put 32 2 0 code.toNat))

/-! ### Pulse outputs (R111 to R113) -/

def State.pulseCfg (s : State) (d : Dev) (k : Nat) : Half := s.reg d (pulseBase d k)
def State.pulsePeriod (s : State) (d : Dev) (k : Nat) : Nat := (s.reg d (pulseBase d k + 4)).toNat
def State.pulseOffset (s : State) (d : Dev) (k : Nat) : Int := (s.reg d (pulseBase d k + 0x10)).toInt
def State.pulseAnchor (s : State) (d : Dev) (k : Nat) : Int :=
  (s.reg d (pulseBase d k + 8)).toNat + (s.reg d (pulseBase d k + 12)).toNat * 4294967296

/-- Nearest of the 256 positions of a tick. -/
def snap (a : Int) : Int := divNear a 256 * 256

/-- The edge a FREE output places in the tick now, if any: ANCHOR + m PERIOD + OFFSET. -/
def State.freeEdge (s : State) (d : Dev) (k : Nat) : Option Int :=
  let base := snap (s.pulseAnchor d k * 65536 + s.pulseOffset d k)
  let hi : Int := s.nowN d * 65536 + 65535
  let r := (hi - base) % (s.pulsePeriod d k * 65536)
  if r < 65536 then some (hi - r) else none

/-- D_out of R112: the mean of the loopback samples; zero at a TSU. -/
def State.outDelay (s : State) (d : Dev) (k : Nat) : Int :=
  match d with
  | .tsu => 0
  | .jup => meanNear (s.pulse d k).dOut

/-- The target of the next edge of an ALIGN output, at its generator: a predicted input edge plus OFFSET less D_out (R112).
Of the targets a period apart it is the one nearest a period after the output's last edge, and the first not yet past where
there is none. -/
def State.alignTarget (s : State) (d : Dev) (k : Nat) : Option Int :=
  let p := s.pulse d k
  let per := meanNear p.ivals
  p.pred.map fun q =>
    let t := q + s.pulseOffset d k - s.outDelay d k
    if per ≤ 0 then t
    else match p.lastOut with
      | some l => let e := (t - (l + per)) % per; l + per + (if 2 * e ≤ per then e else e - per)
      | none => t - (t - s.nowN d * 65536) / per * per

/-- Edges have returned after missing ones, and the output is on its way to the target (R113). -/
def Pulse.comingBack (p : Pulse) : Bool := p.ret && decide (p.missRun = 0)

/-- Where the edge is placed, and whether that is the target: as a rule the target (R112); after edges were missing at most
256 FRAC a period toward one within half a tick (R113). -/
def Pulse.place (p : Pulse) (target : Int) : Int × Bool :=
  match p.lastOut with
  | none => (target, true)
  | some l =>
    let e := target - (l + meanNear p.ivals)
    if !Pulse.comingBack p ∨ 32768 < e.natAbs then (target, true)
    else if 256 < e then (target - e + 256, false)
    else if e < -256 then (target - e - 256, false)
    else (target, true)

/-- When edges return, a target further than half a tick away mutes the output for two periods (R113). -/
def Pulse.jumps (p : Pulse) (target : Int) : Bool :=
  Pulse.comingBack p && match p.lastOut with
  | some l => decide (32768 < (target - (l + meanNear p.ivals)).natAbs)
  | none => false

/-- The level of an active edge: POL 0 is active high (R111). -/
def State.pulseActive (s : State) (d : Dev) (k : Nat) : Bool := !(s.pulseCfg d k).getLsbD 4

/-- The level of the output now: active from an active edge to the end of WIDTH, else the inactive one, as in OFF (R111, R113). -/
def State.pulseLevel (s : State) (d : Dev) (k : Nat) : Bool :=
  if decide (fld (s.pulseCfg d k) 1 0 ≠ 0) && (s.pulse d k).offAt.isSome then s.pulseActive d k else !s.pulseActive d k

/-- An active edge is driven; the inactive edge is due WIDTH times 64 ticks later (R111). -/
def State.driveEdge (s : State) (d : Dev) (k : Fin 2) (e : Int) : State :=
  (s.modPulse d k.val fun p => { p with lastOut := some e, offAt := some (e + fld (s.pulseCfg d k.val) 31 16 * 64 * 65536) }).emit
    (.pulse d k (stampOf e) (s.pulseActive d k.val))

/-- An edge that is withheld: its place is kept, and nothing is driven (R113). -/
def State.withholdEdge (s : State) (d : Dev) (k : Fin 2) (e : Int) (mute : Nat) : State :=
  s.modPulse d k.val fun p => { p with lastOut := some e, mute := mute, aligned := false }

/-- The output goes to its inactive level: at the end of WIDTH, and in OFF (R111). -/
def State.driveInactive (s : State) (d : Dev) (k : Fin 2) (e : Int) : State :=
  (s.modPulse d k.val fun p => { p with offAt := none }).emit (.pulse d k (stampOf e) (!s.pulseActive d k.val))

/-- One ALIGN output edge: withheld while SQUELCH holds a lost alignment and for two periods after a jump; otherwise placed,
and at the target the alignment is regained (R113). -/
def State.alignEdge (s : State) (d : Dev) (k : Fin 2) (target : Int) : State :=
  let p := s.pulse d k.val
  let (pos, hit) := Pulse.place p target
  let good := hit && decide (p.missRun < 4)
  if p.alignLost && decide (4 ≤ p.missRun) && (s.pulseCfg d k.val).getLsbD 5 then s.withholdEdge d k pos p.mute
  else if p.mute ≠ 0 then s.withholdEdge d k target (p.mute - 1)
  else if Pulse.jumps p target then s.withholdEdge d k target 1
  else (s.modPulse d k.val fun p => { p with aligned := good, alignLost := p.alignLost && !good, ret := p.ret && !good }).driveEdge d k (snap pos)

/-- The inactive edge of an output is due on this tick. -/
def State.offDue (s : State) (d : Dev) (k : Nat) : Option Int :=
  match (s.pulse d k).offAt with | some e => if e / 65536 = s.nowN d then some e else none | none => none

/-- The active edge that MODE places on this tick, if any (R111). -/
def State.activeEdge (s : State) (d : Dev) (k : Fin 2) : State :=
  match fld (s.pulseCfg d k.val) 1 0 with
  | 1 => match s.freeEdge d k.val with | some e => s.driveEdge d k e | none => s
  | 2 => match s.alignTarget d k.val with
    | some t => if (Pulse.place (s.pulse d k.val) t).1 / 65536 = s.nowN d then s.alignEdge d k t else s
    | none => s
  | _ => s

/-- Values of a pulse block that R9 and the PERIOD of R114 leave without a handling: MODE 3, a reserved SRC of a TSU, a
period below 64 ticks. -/
def State.pulseReserved (s : State) (d : Dev) (k : Nat) : Option String :=
  let w := s.pulseCfg d k
  if fld w 1 0 = 3 then some "R9"
  else if fld w 1 0 = 2 ∧ d = .tsu ∧ fld w 3 2 ≠ 0 then some "R9"
  else if fld w 1 0 = 1 ∧ s.pulsePeriod d k < 64 then some "R10"
  else none

def execPulseEdgeOut (d : Dev) (k : Fin 2) (s : State) : Res :=
  match s.pulseReserved d k.val with
  | some e => .fault (.unpredictable e)
  | none =>
    .next (if fld (s.pulseCfg d k.val) 1 0 = 0 then (if (s.pulse d k.val).offAt.isSome then s.driveInactive d k (s.nowN d * 65536) else s)
           else ((match s.offDue d k.val with | some e => s.driveInactive d k e | none => s).activeEdge d k))

def execAlignEdgeMissing (d : Dev) (k : Fin 2) (s : State) : Res :=
  s.due (decide (fld (s.pulseCfg d k.val) 1 0 = 2)) fun s =>
    s.modPulse d k.val fun p =>
      { p with missed := satInc p.missed, missRun := p.missRun + 1, ret := true, alignLost := p.alignLost || decide (4 ≤ p.missRun + 1),
               aligned := p.aligned && decide (p.missRun + 1 < 4), pred := p.pred.map (· + meanNear p.ivals) }

end Sys2Proof.Machine
end

