-- ==== Sys2Proof/Machine/Reduce.lean ====
section
/-! DEFINITION. The operators of votes (R186 to R201): lifting one contribution, merging two partials, and the result
at the top with its STATUS. -/
namespace Sys2Proof.Machine

/-! ## Formats (R186, R187) -/

/-- A vote group record (R171, R469), as its words 0 and 1 give it. -/
structure GroupRec where
  job : BitVec 15
  op : Nat
  fmt : Nat
  lanes : Nat
  words : Nat
  span : Nat
  k : Nat
  dir : Bool
  outFmt : Nat
  bins : Nat
  l2 : Bool
  codewords : Nat
  divFail : Bool
  nanFault : Bool
  thresh : Nat
  cwSet : Nat
  deriving DecidableEq, Repr

/-- Width of an element in bits. -/
def fmtBits (f : Nat) : Nat :=
  match f with
  | 1 => 16
  | 2 => 32
  | 3 => 64
  | 4 => 8
  | 5 => 8
  | 6 => 16
  | 7 => 16
  | 8 => 32
  | 9 => 8
  | _ => 64

/-- A combination of operator, format and field width in words that the table of R186 has. -/
def opOk (op fmt words : Nat) : Bool :=
  match op with
  | 0 => decide (fmt ≤ 10)
  | 1 | 2 => decide (fmt = 2 ∨ fmt = 3) && decide (words ≤ 16)
  | 3 => decide (4 ≤ fmt ∧ fmt ≤ 8) && decide (words ≤ 8)
  | 4 | 5 => decide (1 ≤ fmt ∧ fmt ≤ 8) && decide (words ≤ 16)
  | 6 | 7 => decide (fmt = 1 ∨ 4 ≤ fmt ∧ fmt ≤ 7) && decide (words ≤ 4)
  | 8 => decide (fmt = 1 ∨ 4 ≤ fmt ∧ fmt ≤ 7) && decide (words ≤ 16)
  | 9 => decide (fmt = 9) && decide (words ≤ 16)
  | 10 | 11 => decide (fmt = 0) && decide (words ≤ 16)
  | 12 => decide (fmt = 1) && decide (words = 4)
  | 13 => decide (fmt = 10) && decide (words ≤ 16)
  | _ => false

/-- Most lanes or entries of an operator, and the bits of one in the field (R186, R193, R194, R197); none where it has no lanes. -/
def opLanes (op fmt : Nat) : Option (Nat × Nat) :=
  match op with
  | 1 | 2 => some (32, fmtBits fmt)
  | 3 => some (16, fmtBits fmt)
  | 4 | 5 => some (128, fmtBits fmt)
  | 6 | 7 => some (16, 16)
  | 8 => some (16, 64)
  | 9 => some (128, 8)
  | 12 => some (16, 16)
  | 13 => some (16, 64)
  | _ => none

/-- A group record whose combination the table of R186 has. -/
def GroupRec.ok (g : GroupRec) : Bool :=
  opOk g.op g.fmt g.words &&
    match opLanes g.op g.fmt with
    | none => true
    | some (m, b) => decide (1 ≤ g.lanes ∧ g.lanes ≤ m ∧ g.lanes * b ≤ 64 * g.words) && (decide (g.op ≠ 12) || decide (g.lanes = 16))

/-- A field as one number, word 0 lowest. -/
def fieldNat : List Word → Nat
  | [] => 0
  | w :: t => w.toNat + 2 ^ 64 * fieldNat t
/-- Lane `i` of width `b`. -/
def lane (b : Nat) (ws : List Word) (i : Nat) : Nat := fieldNat ws / 2 ^ (b * i) % 2 ^ b
/-- `n` words of a number. -/
def natWords : Nat → Nat → List Word
  | 0, _ => []
  | n + 1, v => BitVec.ofNat 64 (v % 2 ^ 64) :: natWords n (v / 2 ^ 64)
/-- Lanes of width `b` packed, in `n` words. -/
def packLanes (b n : Nat) (l : List Nat) : List Word := natWords n (l.foldr (fun v acc => v % 2 ^ b + 2 ^ b * acc) 0)

/-- A signed lane. -/
def sLane (b v : Nat) : Int := if v < 2 ^ (b - 1) then v else (v : Int) - 2 ^ b

/-- Exponent bits, fraction bits and bias of a floating-point format. -/
def fpShape (f : Nat) : Nat × Nat × Nat :=
  match f with
  | 4 => (4, 3, 7)
  | 5 => (5, 2, 15)
  | 6 => (5, 10, 15)
  | 7 => (8, 7, 127)
  | _ => (8, 23, 127)

def isFp (f : Nat) : Bool := decide (4 ≤ f ∧ f ≤ 8)
def fpExp (f v : Nat) : Nat := v / 2 ^ (fpShape f).2.1 % 2 ^ (fpShape f).1
def fpMan (f v : Nat) : Nat := v % 2 ^ (fpShape f).2.1
def fpNeg (f v : Nat) : Bool := decide (v / 2 ^ ((fpShape f).1 + (fpShape f).2.1) % 2 = 1)
def fpNan (f v : Nat) : Bool :=
  decide (fpExp f v = 2 ^ (fpShape f).1 - 1) && (if f = 4 then decide (fpMan f v = 7) else decide (fpMan f v ≠ 0))
def fpInf (f v : Nat) : Bool := decide (f ≠ 4) && decide (fpExp f v = 2 ^ (fpShape f).1 - 1) && decide (fpMan f v = 0)

/-- S of a finite value: the value is S times 2^-149 (R190). -/
def fpS (f v : Nat) : Int :=
  let e := fpExp f v
  let m := fpMan f v + (if e = 0 then 0 else 2 ^ (fpShape f).2.1)
  let mag : Int := (m * 2 ^ (max e 1 + 149 - (fpShape f).2.2 - (fpShape f).2.1) : Nat)
  if fpNeg f v then -mag else mag

/-- The canonical NaN of a format (R191, R192). -/
def canonNan (f : Nat) : Nat :=
  match f with
  | 4 => 0x7F
  | 5 => 0x7E
  | 6 => 0x7E00
  | 7 => 0x7FC0
  | _ => 0x7FC00000

/-- A number that orders the values of a format, zeros equal; an infinity lies beyond every finite value. -/
def keyVal (f v : Nat) : Int :=
  if isFp f then (if fpInf f v then (if fpNeg f v then -(2 ^ 400) else 2 ^ 400) else fpS f v) else sLane (fmtBits f) v
/-- The same with -0 below +0 (R192). -/
def minVal (f v : Nat) : Int := 2 * keyVal f v - (if isFp f && fpNeg f v && decide (keyVal f v = 0) then 1 else 0)

/-- A value S times 2^-149 rounded to nearest, ties to even (R191): the bits, and whether it overflowed. -/
def fpRound (f : Nat) (s : Int) : Nat × Bool :=
  let (eb, mb, bias) := fpShape f
  let sign := if s < 0 then 2 ^ (eb + mb) else 0
  let a := s.natAbs
  -- least significant bit of the target, as a power of two over 2^-149
  let lo := 150 - bias - mb
  let sh := max lo (Nat.log2 a - mb)
  let q := a / 2 ^ sh
  let r := a % 2 ^ sh
  let q' := if 2 * r > 2 ^ sh ∨ (2 * r = 2 ^ sh ∧ q % 2 = 1) then q + 1 else q
  let bits := q' + (sh - lo) * 2 ^ mb
  if (2 ^ eb - 1) * 2 ^ mb ≤ bits then (sign + (2 ^ eb - 1) * 2 ^ mb, true) else (sign + bits, false)

/-- OUT_FMT as a format code (R469). -/
def outFmtCode (o : Nat) : Nat := if o = 0 then 6 else if o = 1 then 7 else 8

/-! ## Ranked entries (R193 to R195) -/

def entryOf (w : Word) (rank : BitVec 17) : KeyEntry := { key := w.extractLsb' 0 16, index := w.extractLsb' 16 24, rank := rank }
def KeyEntry.word (e : KeyEntry) : Word :=
  put 64 57 41 e.rank.toNat ||| bit1 64 40 true ||| put 64 39 16 e.index.toNat ||| put 64 15 0 e.key.toNat
/-- The key's bits of the format, and whether it is a NaN. -/
def keyBits (f : Nat) (e : KeyEntry) : Nat := e.key.toNat % 2 ^ fmtBits f
def keyNan (f : Nat) (e : KeyEntry) : Bool := isFp f && fpNan f (keyBits f e)

/-- Rank of keys: less is better. NaN after every number; `small` prefers small keys. -/
def rankKeyLt (f : Nat) (small : Bool) (a b : KeyEntry) : Bool :=
  if keyNan f a then false
  else if keyNan f b then true
  else if small then decide (keyVal f (keyBits f a) < keyVal f (keyBits f b))
  else decide (keyVal f (keyBits f b) < keyVal f (keyBits f a))
def rankKeyEq (f : Nat) (a b : KeyEntry) : Bool := !rankKeyLt f true a b && !rankKeyLt f true b a

/-- The order of TOPK: key, INDEX, RANK. -/
def entryLt (f : Nat) (small : Bool) (a b : KeyEntry) : Bool :=
  if rankKeyLt f small a b then true
  else if rankKeyLt f small b a then false
  else if a.index = b.index then decide (a.rank < b.rank) else decide (a.index < b.index)

/-- Insert into a ranked list. -/
def rankInsert (f : Nat) (small : Bool) (a : KeyEntry) : List KeyEntry → List KeyEntry
  | [] => [a]
  | b :: t => if entryLt f small a b then a :: b :: t else b :: rankInsert f small a t

/-! ## One contribution as a partial -/

def faccOf (f v : Nat) : FAcc :=
  { s := if fpNan f v || fpInf f v then 0 else fpS f v, nan := fpNan f v,
    pinf := fpInf f v && !fpNeg f v, ninf := fpInf f v && fpNeg f v,
    allNegz := !fpNan f v && !fpInf f v && fpNeg f v && decide (fpS f v = 0) }

/-- The partial of one member's field (R188 to R200): WORDS of it, and in them the LANES first lanes or entries (R187). -/
def liftAcc (g : GroupRec) (rank : BitVec 17) (health : Bool) (field : List Word) : Acc :=
  let b := fmtBits g.fmt
  let ws := (List.range g.words).map (nthW field)
  let lanes := (List.range g.lanes).map (lane b ws)
  match g.op with
  | 0 => .gate health
  | 1 | 2 => .isum (lanes.map (sLane b))
  | 3 => .fsum (lanes.map (faccOf g.fmt))
  | 4 | 5 => .minmax (lanes.map (BitVec.ofNat 64)) (lanes.map fun v => isFp g.fmt && fpNan g.fmt v)
  | 6 | 7 =>
    let es := (List.range g.lanes).map fun i => ({ key := BitVec.ofNat 16 (lane 16 ws i), index := 0, rank := rank } : KeyEntry)
    .arg es (es.map fun _ => false) (es.any (keyNan g.fmt))
  | 8 =>
    let es := ((ws.take g.lanes).filter fun w => w.getLsbD 40).map fun w => entryOf w rank
    .topk ((es.foldl (fun acc e => rankInsert g.fmt g.dir e acc) []).take (g.k + 1)) (es.any (keyNan g.fmt))
  | 9 =>
    .hist ((List.range g.bins).map fun i => lanes.countP fun v => v == i) (lanes.any fun v => decide (g.bins ≤ v ∧ v ≠ 255))
  | 10 | 11 => .bits ws
  | 12 => .near ((List.range 16).map fun i => sLane 16 (lane 16 ws i))
  | 13 => .digest [(rank, ws)]
  | _ => .none

/-! ## Merging partials -/

def mergeF (a b : FAcc) : FAcc :=
  { s := a.s + b.s, nan := a.nan || b.nan, pinf := a.pinf || b.pinf, ninf := a.ninf || b.ninf,
    allNegz := a.allNegz && b.allNegz }

/-- The better of two lanes of MIN or MAX. -/
def pickMin (f : Nat) (max_ : Bool) (a b : Word) : Word :=
  if max_ then (if minVal f a.toNat < minVal f b.toNat then b else a)
  else (if minVal f b.toNat < minVal f a.toNat then b else a)

/-- The better of two lanes of ARGMIN or ARGMAX, and whether a tie on key decided. -/
def pickArg (f : Nat) (small : Bool) (a b : KeyEntry × Bool) : KeyEntry × Bool :=
  if rankKeyEq f a.1 b.1 then ((if a.1.rank < b.1.rank then a.1 else b.1), true)
  else if rankKeyLt f small a.1 b.1 then a else b

/-- Fold two partials of one group. -/
def mergeAcc (g : GroupRec) : Acc → Acc → Acc
  | .none, b => b
  | a, .none => a
  | .gate a, .gate b => .gate (a && b)
  | .isum a, .isum b => .isum (List.zipWith (· + ·) a b)
  | .fsum a, .fsum b => .fsum (List.zipWith mergeF a b)
  | .minmax a na, .minmax b nb => .minmax (List.zipWith (pickMin g.fmt (decide (g.op = 5))) a b) (List.zipWith (· || ·) na nb)
  | .arg a ta na, .arg b tb nb =>
    let l := List.zipWith (pickArg g.fmt (decide (g.op = 6))) (a.zip ta) (b.zip tb)
    .arg (l.map Prod.fst) (l.map Prod.snd) (na || nb)
  | .topk a na, .topk b nb => .topk ((b.foldl (fun acc e => rankInsert g.fmt g.dir e acc) a).take (g.k + 1)) (na || nb)
  | .hist a ra, .hist b rb => .hist (List.zipWith (· + ·) a b) (ra || rb)
  | .bits a, .bits b => .bits (List.zipWith (fun x y => if g.op = 10 then x ||| y else x &&& y) a b)
  | .near a, .near b => .near (List.zipWith (· + ·) a b)
  | .digest a, .digest b => .digest (a ++ b)
  | a, _ => a

/-! ## The result at the top -/

/-- What the top forms: STATUS, MASK_WORD and the result words. -/
structure VoteOut where
  status : BitVec 7 := 0
  mask : Word := 0
  words : List Word := []
  deriving DecidableEq, Repr

def stNan (b : Bool) : BitVec 7 := if b then 1 else 0
def stBit (n : Nat) (b : Bool) : BitVec 7 := bit1 7 n b

/-- One lane of FSUM resolved in the order of R191: bits and STATUS. -/
def fsumLane (out : Nat) (a : FAcc) : Nat × BitVec 7 :=
  let f := outFmtCode out
  let inf := (2 ^ (fpShape f).1 - 1) * 2 ^ (fpShape f).2.1
  let sign := 2 ^ ((fpShape f).1 + (fpShape f).2.1)
  if a.nan then (canonNan f, 1)
  else if a.pinf && a.ninf then (canonNan f, 2)
  else if a.pinf then (inf, 0)
  else if a.ninf then (sign + inf, 0)
  else if a.s = 0 then (if a.allNegz then sign else 0, 0)
  else ((fpRound f a.s).1, stBit 2 (fpRound f a.s).2)

/-- Distance of the sum vector to a codeword (R199). -/
def distance (l2 : Bool) (s c : List Int) : Nat :=
  (List.zipWith (fun a b => let d := (a - b).natAbs; if l2 then d * d else d) s c).foldl (· + ·) 0

/-- The best of a list of distances with its index, lower index first; and what is left. -/
def bestOf : List (Nat × Nat) → Option (Nat × Nat)
  | [] => none
  | d :: t => match bestOf t with
    | some e => if e.1 < d.1 then some e else some d
    | none => some d

def nearResult (g : GroupRec) (cw : List (List Int)) (s : List Int) : VoteOut :=
  let ds := (cw.zipIdx.map fun (c, i) => (distance g.l2 s c, i))
  match bestOf ds with
  | none => {}
  | some (d, i) =>
    match bestOf (ds.filter fun e => decide (e.2 ≠ i)) with
    | none => { words := [put 64 63 16 (min d (2 ^ 48 - 1)) ||| put 64 13 8 0x3F ||| put 64 5 0 i, BitVec.allOnes 64] }
    | some (d2, j) =>
      { status := stBit 6 (decide (d = d2)),
        words := [put 64 63 16 (min d (2 ^ 48 - 1)) ||| put 64 13 8 j ||| put 64 5 0 i, BitVec.ofNat 64 (min d2 (2 ^ 64 - 1))] }

/-- Streams on which two digest lists differ; `inj` inverts the compare (R323). -/
def diffMap (inj : Bool) (a b : List Word) : Nat :=
  ((List.zipWith (fun x y => xor (decide (x ≠ y)) inj) a b).zipIdx).foldl (fun acc (d, i) => if d then acc + 2 ^ i else acc) 0

/-- Lowest set bit, 0 when none. -/
def lowBit (m : Nat) : Nat := ((List.range 16).find? fun i => m.testBit i).getD 0

def digestResult (inj : Bool) (ms : List (BitVec 17 × List Word)) : VoteOut :=
  match ms with
  | [(_, a), (_, b)] =>
    let m := diffMap inj a b
    { status := stBit 5 (decide (m ≠ 0)),
      words := [bit1 64 63 (decide (m ≠ 0)) ||| put 64 47 32 m ||| put 64 3 0 (lowBit m)] }
  | _ => { words := [0] }

/-- A clamped signed lane, and whether it clamped (R189). -/
def clampS (b : Nat) (v : Int) : Nat × Bool :=
  if v < -(2 ^ (b - 1) : Int) then (2 ^ (b - 1), true)
  else if (2 ^ (b - 1) : Int) ≤ v then (2 ^ (b - 1) - 1, true)
  else ((v % 2 ^ b).toNat, false)

/-- The result of a group at the top of its tree (R189 to R201). A HIST group with a THRESH is one in MASK form: the record
has no FORM (R178, R197; assumption 166). -/
def finishAcc (g : GroupRec) (cw : List (List Int)) (inj : Bool) (a : Acc) : VoteOut :=
  let b := fmtBits g.fmt
  match a with
  | .isum l =>
    if g.op = 2 then { status := stBit 3 ((l.map (clampS b)).any Prod.snd), words := packLanes b g.words (l.map fun v => (clampS b v).1) }
    else { words := packLanes b g.words (l.map fun v => (v % 2 ^ b).toNat) }
  | .fsum l =>
    let ob := fmtBits (outFmtCode g.outFmt)
    { status := l.foldl (fun acc x => acc ||| (fsumLane g.outFmt x).2) 0,
      words := packLanes ob ((g.lanes * ob + 63) / 64) (l.map fun x => (fsumLane g.outFmt x).1) }
  | .minmax l nans =>
    { status := stBit 0 (nans.any id),
      words := packLanes b g.words (List.zipWith (fun v n => if n then canonNan g.fmt else v.toNat) l nans) }
  | .arg l ties nan =>
    { status := stBit 0 nan ||| stBit 6 (ties.any id),
      words := l.map fun e =>
        KeyEntry.word { e with index := 0, key := BitVec.ofNat 16 (if keyNan g.fmt e then canonNan g.fmt else keyBits g.fmt e) } }
  | .topk es nan =>
    { status := stBit 0 nan ||| stBit 6 (match es.drop (g.k - 1) with | x :: y :: _ => rankKeyEq g.fmt x y | _ => false),
      words := ((es.take g.k).map fun e => KeyEntry.word { e with key := BitVec.ofNat 16 (keyBits g.fmt e) }) ++
               List.replicate (g.k - es.length) 0 }
  | .hist cs range =>
    { status := stBit 3 (cs.any fun n => decide (65535 < n)) ||| stBit 4 range,
      mask := if g.thresh = 0 then 0 else BitVec.ofNat 64 ((cs.zipIdx).foldl (fun acc (n, i) => if g.thresh ≤ n then acc + 2 ^ i else acc) 0),
      words := packLanes 16 ((g.bins + 3) / 4) (cs.map fun n => min n 65535) }
  | .bits ws => { words := ws }
  | .near s => nearResult g cw s
  | .digest ms => digestResult inj ms
  | .gate _ => {}
  | .none => {}

/-- Result words as the messages carry them (R178): lanes of a partial are not counted in `words` of GATE. -/
def resultWords (job : BitVec 15) (group : BitVec 12) (stepLo : BitVec 16) (failed : Bool) (validTick : Half) (o : VoteOut) : List Word :=
  [ put 64 63 49 job.toNat ||| put 64 31 20 group.toNat ||| bit1 64 16 failed ||| put 64 15 0 stepLo.toNat,
    put 64 63 32 validTick.toNat ||| put 64 6 0 (if failed then 0 else o.status.toNat),
    if failed then 0 else o.mask ] ++ (if failed then [] else o.words)

end Sys2Proof.Machine
end

