-- ==== Sys2Proof/Machine/Channel.lean ====
section
/-! DEFINITION. Step channels: BIND to UNBIND, starts and resumes, holds and stretches, the standby bank, selector
writes, reports of stations and captures (R115 to R162, R418 to R429). -/
namespace Sys2Proof.Machine
open Host

/-! ### BIND, ARM, RESUME, HOLD, UNBIND (R117, R158, R160, R162, R116) -/

/-- The first failing condition of BIND, as ERR: 1 NOT_LOCKED, 2 STATE, 3 NO_REGION, 0 none. A TSU whose parents have
different epochs binds no new job (R38). -/
def State.bindErr (s : State) (c : Nat) : BitVec 3 :=
  if s.tsuC.time.state ≠ .locked ∨ s.tsuC.time.epochSplit then 1
  else if (s.chan c).state ≠ .unbound then 2
  else if s.bankSize c = 0 then 3 else 0

/-- The descriptors of a channel's two banks, first and end. -/
def State.bankSpans (s : State) (c : Nat) : List (Nat × Nat) :=
  [false, true].map fun b => (s.bankBase c b, s.bankBase c b + s.bankSize c)
/-- A bank of the channel overlaps a bank of another bound channel in the store: a host error (R10). -/
def State.bankClash (s : State) (c : Nat) : Bool :=
  chanNums.any fun j => decide (j ≠ c ∧ (s.chan j).state ≠ .unbound) && (s.bankSpans c).any fun a => (s.bankSpans j).any fun b =>
    decide (a.1 < a.2 ∧ b.1 < b.2 ∧ a.1 < b.2 ∧ b.1 < a.2)

/-- Side B is the job's active side, as the TSU's image names it (R16; assumption 162). -/
def State.jobSide (s : State) (job : BitVec 15) : Bool :=
  s.tsuC.sec.sealedImg && Config.jobSideB s.tsuC.sec.imageDigest job

/-- STATE of each FIELD is that of the present step; GROUP, STATUS and the tick stay (R203). -/
def Chan.freshFields (x : Chan) : Table VoteLast :=
  x.voteLast.foldl (fun t e => tset {} t e.1 { e.2 with state := 0 }) []

/-- BIND (R116, R203, R212). STRETCH, STEP, PC and the boundary record begin anew with the binding: DESIGN CHOICE (assumption
193). The action ticks stay, since they bound what the channel does in 64 ticks (R123). -/
def State.bindNow (s : State) (c : Nat) : State :=
  s.modChan c fun x =>
    { x with state := .ready, sideB := s.jobSide x.job, fenceTick := none, holdCause := 0, pc := 0, step := 0, bnd := {}, prog := { acts := x.prog.acts }, ckpt := s.ckptInit c,
             ckptDue := none, hostSel := false, debug := false, cycle := false, voteLast := x.freshFields, stretch := 0 }

def State.doBind (s : State) (c : Nat) : State :=
  if s.bindErr c = 0 then s.bindNow c else s.modChan c fun x => { x with err := s.bindErr c }

/-- A BIND that its conditions let through: banks that overlap are then the host's error (R10). -/
def State.bindClash (s : State) (c : Nat) : Bool := decide (s.bindErr c = 0) && s.bankClash c

def execBind (c : Fin 8) (s : State) : Res :=
  if s.bindClash c then .fault (.unpredictable "R10") else .next (s.doBind c)

/-- ARM of a READY channel; a tick that is not later raises STEP_LATE (R158). In another state ARM clears at once. -/
def State.doArm (s : State) (c : Nat) : State :=
  let x := s.chan c
  if x.state ≠ .ready then s
  else if x.startTick ≤ s.now .tsu then s.raiseChan c cStepLate (idxCtx c x.startIndex)
  else s.modChan c fun x => { x with arm := true }

def execArm (c : Fin 8) (s : State) : Res := .next (s.doArm c)

/-- A late step command (R162): STEP_LATE, and the current step stops with HOLD_CAUSE 5. -/
def State.lateCommand (s : State) (c : Nat) : State :=
  (s.raiseChan c cStepLate {}).stopStep c 5 cStepLate {}

/-- RESUME is refused with ERR STATE while SEV of a block whose escalation holds the channel stands (R320). -/
def State.resumeBarred (s : State) (c : Nat) : Bool := (s.chan c).barredBy.any fun b => (s.fblock .tsu b).sev

def State.doResume (s : State) (c : Nat) : State :=
  let x := s.chan c
  if s.resumeBarred c then s.modChan c fun x => { x with err := 2 }
  else if x.startTick < s.now .tsu then s.lateCommand c
  else s.modChan c fun x => { x with resume := true }

def execResume (c : Fin 8) (s : State) : Res := .next (s.doResume c)

/-- HOLD of a RUNNING channel, and of its lock group at the same boundary (R118, R169). -/
def State.doHold (s : State) (c : Nat) : State :=
  if (s.chan c).state ≠ .running then s
  else (s.lockMates c).foldl (fun s j => s.wantHold j 8) ((s.modChan c fun x => { x with hold := true }).wantHold c 2)

def execHold (c : Fin 8) (s : State) : Res := .next (s.doHold c)

/-- UNBIND (R116): at once, or at the next boundary when RUNNING. Leaving STOPPED drops the shadow writes (R145). -/
def State.doUnbind (s : State) (c : Nat) : State :=
  match (s.chan c).state with
  | .running => s.modChan c fun x => { x with unbindPend := true }
  | .stopped => (((s.emit (.shd c false)).cancelWaits c).modChan c Chan.unbound).unbindFilters c
  | _ => (s.modChan c Chan.unbound).unbindFilters c

def execUnbind (c : Fin 8) (s : State) : Res := .next (s.doUnbind c)

/-! ### START_TICK_REACHED and RESUME_TICK_REACHED (R126, R158, R160) -/

/-- What a step has at its begin (R126, R148, R203). -/
def Prog.newStep (p : Prog) (t : Tick) : Prog :=
  { p with gate := 0, gateVoted := false, refTick := t, beginTick := t, readyTick := t, inStep := true, stopped := false,
           branchTick := none, lateNext := false, pend := [], unsent := [], named := [], fields := [], streams := [], captured := [] }

def State.start (s : State) (c : Nat) : State :=
  let t := s.now .tsu
  let s1 := s.modChan c fun x =>
    { x with state := .running, arm := false, step := 0, pc := x.startIndex, holdCause := 0, voteLast := x.freshFields,
             prog := { (x.prog.newStep t) with loops := [] } }
  ((s1.writeBoundary c (s.chan c).startIndex t).emit (.stepBegin c t)).snapCheck c

def State.startDue (s : State) (c : Nat) : Bool :=
  (s.chan c).arm && decide ((s.chan c).state = .ready ∧ (s.chan c).startTick = s.now .tsu)

def execStartTickReached (c : Fin 8) (s : State) : Res := s.due (s.startDue c) fun s => s.start c

/-- From the boundary record; RUN stays. A channel in STOPPED drops its shadow writes as it leaves (R145). -/
def State.resumeOne (s : State) (c : Nat) (t : Tick) : State :=
  let s1 := if (s.chan c).state = .stopped then s.emit (.shd c false) else s
  (((s1.restoreObjects c).writeSels c).modChan c fun x =>
    { x with state := .running, holdCause := 0, pc := x.bnd.index, step := x.bnd.step, voteLast := x.freshFields,
             prog := { (x.prog.newStep t) with sels := x.bnd.sels, states := x.bnd.states, loops := x.bnd.loops } }).emit
    (.stepBegin c t)

def resumable (x : Chan) : Bool := decide (x.state = .held ∨ x.state = .stopped)

/-- A RESUME of one member resumes every held member of its lock group (R118). -/
def State.resumeGroup (s : State) (c : Nat) : List Nat :=
  if s.lockGrp c = 0 then []
  else chanNums.filter fun j => decide (j ≠ c ∧ s.lockGrp j = s.lockGrp c) && resumable (s.chan j)

/-- The boundary record that a resume reads fails its parity: the step stops (R311). -/
def State.boundaryCheck (s : State) (c : Nat) : State :=
  match s.badFrom 2 c boundaryWord with | k :: _ => s.sramFault 2 c k | [] => s

def State.resumeNow (s : State) (c : Nat) : State :=
  let s1 := s.modChan c fun x => { x with resume := false }
  if resumable (s.chan c) then
    let cs := c :: s.resumeGroup c
    cs.foldl (fun s j => s.boundaryCheck j) (cs.foldl (fun s j => s.resumeOne j (s.now .tsu)) s1)
  else s1.modChan c fun x => { x with err := 2 }

def State.resumeDue (s : State) (c : Nat) : Bool := (s.chan c).resume && decide ((s.chan c).startTick = s.now .tsu)

def execResumeTickReached (c : Fin 8) (s : State) : Res := s.due (s.resumeDue c) fun s => s.resumeNow c

/-! ### Step commands (R158, R159, R161, R162) -/

def execStepStart (c : Fin 8) (tick : Tick) (index : BitVec 16) (s : State) : Res :=
  s.stepIn .tsu fun s => ((s.takeCommand opStartJob).modChan c fun x => { x with startTick := tick, startIndex := index }).doArm c

/-- Whether the COMMIT that ends step `n` is still to come on a channel. -/
def stepAhead (x : Chan) (n : BitVec 64) : Bool :=
  decide (x.step ≤ n) && decide (x.state = .ready ∨ x.state = .running ∨ x.state = .held ∨ x.state = .stopped)

/-- The same boundary, counted in the steps of another member of the lock group (R118). -/
def mateStep (x y : Chan) (n : BitVec 64) : BitVec 64 := y.step + (n - x.step)

/-- A hold of step `n` joins those that wait (R23, R159). -/
def Chan.addHold (x : Chan) (n : BitVec 64) (cause : Nat) : Chan := { x with holdStep := x.holdStep ++ [(n, cause)] }
/-- A stretch from step `n` on takes its place among those that wait: by step, and after those of the same step (R23, R161). -/
def Chan.addStretch (x : Chan) (n : BitVec 64) (v : BitVec 20) : Chan :=
  { x with stretchNext := insertBy (fun e => e.1.toNat) (n, v) x.stretchNext }

def State.stepHold (s : State) (c : Nat) (n : BitVec 64) (quota : Bool) : State :=
  let x := s.chan c
  if x.state = .unbound then s
  else if stepAhead x n then
    (s.lockBound c).foldl (fun s j => s.modChan j fun y => y.addHold (mateStep x y n) 8)
      (s.modChan c fun x => x.addHold n (if quota then 7 else 1))
  else s.lateCommand c
def execStepHold (c : Fin 8) (n : BitVec 64) (quota : Bool) (s : State) : Res :=
  s.stepIn .tsu fun s => (s.takeCommand opHoldJob).stepHold c n quota

def State.stepStretch (s : State) (c : Nat) (n : BitVec 64) (v : BitVec 20) : State :=
  let x := s.chan c
  if x.state = .unbound then s
  else if stepAhead x n then
    (s.lockBound c).foldl (fun s j => s.modChan j fun y => y.addStretch (mateStep x y n) v)
      (s.modChan c fun x => x.addStretch n v)
  else s.lateCommand c
def execStepStretch (c : Fin 8) (n : BitVec 64) (v : BitVec 20) (s : State) : Res :=
  s.stepIn .tsu fun s => (s.takeCommand opStretchJob).stepStretch c n v

/-! ### The standby bank (R121) -/

def ephOff (i : Nat) : Nat := 0x01000000 + 16 * (i % 65536)
def smtOff (c : Nat) (bank : Bool) (e : Nat) : Nat := 0x02000000 + 8 * (8192 * c + (if bank then 4096 else 0) + e % 4096)

/-- The sum of R121 over the listed words of a range of the load space. -/
def State.sumRange (s : State) (lo hi : Nat) : List Nat :=
  s.tsuC.regs.flatMap fun (k, v) => if lo ≤ k ∧ k < hi then [fld v 15 0, fld v 31 16] else []

/-- The ones'-complement sum of all halfwords of the standby bank's descriptors and entries. -/
def State.standbySum (s : State) (c : Nat) : BitVec 16 :=
  let b := !(s.chan c).bank
  BitVec.ofNat 16 (onesSum16 (
    s.sumRange (ephOff (s.bankBase c b)) (0x01000000 + 16 * (s.bankBase c b + s.bankSize c)) ++
    s.sumRange (smtOff c b 0) (smtOff c b 0 + 8 * 4096)))

def execStbyVerify (c : Fin 8) (check : BitVec 16) (s : State) : Res :=
  .next (s.modChan c fun x => { x with check := check, verify := true })

def execVerifyDone (c : Fin 8) (s : State) : Res :=
  s.due (s.chan c).verify fun s => s.modChan c fun x =>
    { x with verify := false, stbyOk := decide (s.standbySum c = x.check), stbyBad := decide (s.standbySum c ≠ x.check) }

/-- The banks exchange roles, and NEXT_INDEX of the new active bank is next. -/
def Chan.swapBanks (x : Chan) : Chan :=
  { x with bank := !x.bank, swapGo := false, stbyOk := false, stbyBad := false, pc := x.nextIndex,
           bnd := { x.bnd with index := x.nextIndex } }

/-- GO: at once in READY, HELD or HALTED; staged in a commit group, at the first boundary of a RUNNING or STOPPED
channel; outside a group it is ignored there (R121). -/
def State.doSwap (s : State) (c : Nat) (staged : Bool) : State :=
  let x := s.chan c
  if x.state = .ready ∨ x.state = .held ∨ x.state = .halted then s.modChan c Chan.swapBanks
  else if staged ∧ (x.state = .running ∨ x.state = .stopped) then s.modChan c fun x => { x with swapGo := true }
  else s

def execBankSwapGo (c : Fin 8) (next : BitVec 16) (src : Src) (s : State) : Res :=
  .next (
    if s.srcDenied .tsu src then s.denied .tsu
    else (s.modChan c fun x => { x with nextIndex := next }).doSwap c (decide (src = .cg)))

/-! ### Selector registers (R169, R295) -/

def selWith (old : Word) (hi : Bool) (v : Half) : Word :=
  if hi then v ++ old.extractLsb' 0 32 else old.extractLsb' 32 32 ++ v

/-- A write of half a selector register: the state becomes VALID; in HELD it goes into the boundary record, sets
HOST_SEL and raises REPEAT_BROKEN. -/
def State.writeSel (s : State) (c n : Nat) (hi : Bool) (v : Half) : State :=
  let x := s.chan c
  if x.state = .ready ∨ x.state = .held then
    let w := selWith (tget 0 x.prog.sels n) hi v
    let s1 := (s.modProg c fun p => { p with sels := tset 0 p.sels n w, states := tset .valid p.states n .valid,
                                             selTick := tset none p.selTick n none }).sramWrite 2 c n
    if x.state = .held then
      (s1.modChan c fun x => { x with hostSel := true, bnd := { x.bnd with sels := tset 0 x.bnd.sels n w,
                                                                           states := tset .valid x.bnd.states n .valid } }).repeatBroken c {}
    else s1
  else s

def execSelectorWrite (c : Fin 8) (n : Fin 16) (hi : Bool) (v : Half) (src : Src) (s : State) : Res :=
  .next (if s.srcDenied .tsu src then s.denied .tsu else s.writeSel c n hi v)

/-! ### Reports of stations (R139, R140, R420, R421) -/

/-- A refused launch is judged as of its tick (R418): the step stops. -/
def execStationBusyReport (c : Fin 8) (s : State) : Res :=
  s.mainIn fun s => if (s.chan c).state ≠ .running then s else s.judgedFault c cStationBusy {}

/-- An overrun is logged, with the frozen cycles, and sets CYCLE. -/
def execOverrunReport (c : Fin 8) (core : BitVec 11) (station : Fin 8) (cycles : BitVec 31) (s : State) : Res :=
  s.mainIn fun s => s.raiseChan c cStepOverrun
    { core := core, slot := BitVec.ofNat 6 station, detail := detail cycles.toNat }

/-! ### Capture, checkpoint and digest ports (R423, R427, R429) -/

def captureKey (slot : BitVec 8) (word : Nat) : Nat := 16 * slot.toNat + word

/-- A stream of the program is past the ticks on which a launched stream writes nothing: START_LAT in the station frame, and
the way of the launch and of the report (R417, R418, R420). -/
def Prog.writing (p : Prog) (now : Tick) (program : BitVec 13) : Bool :=
  p.streams.any fun st => decide (st.program = program) && decide (st.tick.toNat + Config.judgeLat + Config.startLat ≤ now.toNat)

def execCaptureWrite (c : Fin 8) (stream : BitVec 13) (slot : BitVec 8) (word : BitVec 4) (last : Bool) (data : Word)
    (s : State) : Res :=
  s.mainIn fun s => (s.modTsu fun t => { t with capture := tset 0 t.capture (captureKey slot word.toNat) data }).modProg c fun p =>
    if last && p.writing (s.now .tsu) stream then { p with captured := (slot, stream) :: p.captured } else p

/-- CRC-32C of data words (R273), reflected, least significant byte first. -/
def crc32cBit (r : BitVec 32) : BitVec 32 := if r.getLsbD 0 then (r >>> 1) ^^^ 0x82F63B78 else r >>> 1
def crc32cByte (r : BitVec 32) (b : BitVec 8) : BitVec 32 :=
  (List.range 8).foldl (fun r _ => crc32cBit r) (r ^^^ b.setWidth 32)
def crc32cWord (r : BitVec 32) (w : Word) : BitVec 32 :=
  (List.range 8).foldl (fun r i => crc32cByte r (w.extractLsb' (8 * i) 8)) r
def crc32c (ws : List Word) : BitVec 32 := (ws.foldl crc32cWord 0xFFFFFFFF) ^^^ 0xFFFFFFFF

/-- The CHECKPOINT record of a channel after step `n` (R273, R305). -/
def checkpointRecord (x : Chan) (n : BitVec 64) (digest : Word) : List Word :=
  [ put 64 63 49 x.job.toNat ||| put 64 48 32 x.rank.toNat ||| put 64 31 28 3, n, 0,
    put 64 63 32 (crc32c [digest]).toNat ||| put 64 31 16 1, digest ]

/-- The commit's change joins TSU_CKPT; a CHECKPOINT record that is due leaves with the sum; the shadow flow starts. -/
def execCheckpointDelta (c : Fin 8) (delta : Word) (s : State) : Res :=
  s.mainIn fun s =>
    let x := s.chan c
    let sum := x.ckpt + delta
    let s1 := s.modChan c fun x => { x with ckpt := sum, ckptDue := none }
    let s2 := match x.ckptDue with
      | some n => s1.send .tsu (s1.upOf c) (appendMsg x.job (checkpointRecord x n sum))
      | none => s1
    s2.emit (.shadowFlow c x.step)

/-- The digest of a stream: the entry that designates its drain is read from the digest stream table (R301, R311). -/
def execDigestUpdate (c : Fin 8) (stream : Fin 16) (crc : Word) (busy : Bool) (s : State) : Res :=
  s.mainIn fun s => s.sramRead 4 c stream fun s => s.modChan c fun x => { x with digests := tset 0 x.digests stream crc, digBusy := busy }

end Sys2Proof.Machine
end

