-- ==== Sys2Proof/Machine/SyncOps.lean ====
section
/-! DEFINITION. Operations on sync objects and Conjunction records that descriptors, cores, remote signals and the
debugger share (R205 to R230). -/
namespace Sys2Proof.Machine

/-- Whether an operation of the core port's codes (R422) suits a KIND (R206). -/
def opSuits (op kind : Nat) : Bool :=
  if op = 0 ∨ op = 1 ∨ op = 4 ∨ op = 5 then decide (kind = 1)
  else if op = 2 ∨ op = 3 ∨ op = 6 ∨ op = 7 then decide (kind = 2)
  else if op = 8 ∨ op = 9 then decide (kind = 3)
  else false

/-- The checks of R205 for an acting channel. -/
def State.opAllowed (s : State) (c : Nat) (core : BitVec 11) (slot : BitVec 6) (op : Nat) : Bool :=
  opSuits op (cfgKind (s.slotCfg core slot)) && s.ownsSlot c (s.slotCfg core slot)

/-- A refused operation: nothing changes, SYNC_BAD_OBJECT, and the acting channel's step stops (R205). -/
def State.badObject (s : State) (c : Nat) (core : BitVec 11) (slot : BitVec 6) (tag : BitVec 16) : State :=
  s.stepFault c cSyncBadObject { core := core, slot := slot, index := tag }

/-- Write an object's state; its parity is stored with it. -/
def State.putSlot (s : State) (core : BitVec 11) (slot : BitVec 6) (v : BitVec 8) : State :=
  (s.setSlot (slotKey core slot) v).sramWrite 0 (cfgOwner (s.slotCfg core slot)) (slotKey core slot)

/-- SET, CLEAR, GIVE and TAKE on an object (R207, R208). -/
def State.objOp (s : State) (core : BitVec 11) (slot : BitVec 6) (op : Nat) (n : BitVec 8) (taker : BitVec 11) : State :=
  let key := slotKey core slot
  let v := s.slotVal key
  let owner := cfgOwner (s.slotCfg core slot)
  s.sramRead 0 owner key fun s =>
    if op = 0 then s.putSlot core slot 1
    else if op = 1 then s.putSlot core slot 0
    else if op = 2 then
      if v.toNat + n.toNat ≤ 255 then s.putSlot core slot (v + n)
      else (s.putSlot core slot 255).stepFault owner cTallyOverflow { core := core, slot := slot }
    else if n ≤ v then s.putSlot core slot (v - n)
    else s.stepFault owner cTallyUnderflow { core := core, slot := slot, detail := taker.setWidth 15 }

/-! ## Waits on FLAG and TALLY (R142, R207 to R209) -/

/-- The condition of a wait: waits that take test the count as it stands, the others the start of the tick. -/
def State.condHolds (s : State) (r : WaitRec) : Bool :=
  let key := slotKey r.core r.slot
  match r.cond with
  | 0 => decide (s.slotStart key ≠ 0)
  | 1 => decide (s.slotStart key = 0)
  | 2 => decide (r.count ≤ s.slotStart key)
  | 3 => decide (r.count ≤ s.slotVal key)
  | _ => false

/-- No taker served earlier in the tick is satisfied on the same object (R209). -/
def State.firstTaker (s : State) (r : WaitRec) : Bool :=
  !(s.tsu.sync.waits.any fun q =>
    decide (q.cond = 3 ∧ q.core = r.core ∧ q.slot = r.slot ∧ waiterKey q.who < waiterKey r.who) && s.condHolds q)

/-! ## Remote signals (R213) -/

def signalWords (x : Chan) (srcPath : BitVec 32) (dst : BitVec 17) (core : BitVec 11) (slot : BitVec 6) (op : Nat)
    (n : BitVec 8) (egress : Half) : List Word :=
  [ put 64 63 49 x.job.toNat ||| put 64 48 32 dst.toNat ||| put 64 31 15 x.rank.toNat ||| put 64 14 7 x.run.toNat,
    put 64 63 53 core.toNat ||| put 64 52 47 slot.toNat ||| put 64 46 45 op ||| put 64 44 37 n.toNat ||| put 64 31 0 srcPath.toNat,
    put 64 63 32 egress.toNat ||| put 64 31 16 x.step.toNat ]

/-- The path word the network interface answers for a rank it does not know (R424). -/
def noPath : Half := 0xFFFFFFFF

/-- A signal to another rank: the egress count is queried and the signal sent, or the operation is refused (R205, R215). -/
def State.remoteSignal (s : State) (c : Nat) (eg : EgAns) (dst : BitVec 17) (core : BitVec 11) (slot : BitVec 6) (op : Nat)
    (n : BitVec 8) (tag : BitVec 16) : State :=
  let s1 := s.emit (.egq c dst)
  if eg.path = noPath then s1.badObject c core slot tag
  else s1.send .tsu (s.upOf c) (jobMsg mtSignal (signalWords (s.chan c) (s.selfPath .tsu) dst core slot op n eg.count))

/-! ## Conjunction rounds on the die (R220, R221, R224) -/

/-- The arrival a TSU sends for a round of a record. -/
def State.arrivalWords (s : State) (rec : Nat) (round : BitVec 16) : List Word :=
  let cfg := s.conjCfg rec
  let x := s.chan (conjOwner cfg)
  [ put 64 63 49 x.job.toNat ||| put 64 48 32 x.rank.toNat ||| put 64 31 20 (conjGroup cfg).toNat |||
      bit1 64 19 (round.getLsbD 0) ||| put 64 17 10 x.run.toNat,
    put 64 63 32 x.prog.beginTick.toNat ||| put 64 15 0 x.step.toNat ]

/-- The die has completed a round of a record: a drain, or 32 ticks on a die-local record (R221). -/
def State.roundComplete (s : State) (rec : Nat) (round : BitVec 16) (early : Bool) : State :=
  if conjSpan (s.conjCfg rec) = 0 then
    s.modConj rec fun x => if early then { x with nextRel := some (s.now .tsu + 32) } else { x with release := some (s.now .tsu + 32) }
  else if !s.tsu.sync.drainOn then (s.modSync fun y => { y with drainOn := true, drain := [(rec, round)] }).emit (.drainReq true)
  else s.modSync fun y => { y with drainNext := y.drainNext ++ [(rec, round)] }

/-- The round that an entry made now belongs to; none where it is refused (R220). -/
def State.entryRound (s : State) (rec : Nat) : Option (BitVec 16) :=
  let x := s.conjRec rec
  let n := conjCount (s.conjCfg rec)
  if x.cur.toNat < n then some x.round else if x.next.toNat < n then some (x.round + 1) else none

/-- Count an entry (R220), with the completion of its round (R221). -/
def State.countEntry (s : State) (rec : Nat) : State :=
  let x := s.conjRec rec
  let n := conjCount (s.conjCfg rec)
  if x.cur.toNat < n then
    let s1 := s.modConj rec fun x => { x with cur := x.cur + 1 }
    if x.cur.toNat + 1 = n then s1.roundComplete rec x.round false else s1
  else
    let s1 := s.modConj rec fun x => { x with next := x.next + 1 }
    if x.next.toNat + 1 = n then s1.roundComplete rec (x.round + 1) true else s1

/-- An entry that would be two rounds ahead (R220): CONJ_OVERRUN, and the owner's step stops. -/
def State.conjOverrun (s : State) (rec : Nat) (core : BitVec 11) (slot : BitVec 6) (tag : BitVec 16) : State :=
  s.stepFault (conjOwner (s.conjCfg rec)) cConjOverrun
    { core := core, slot := slot, group := BitVec.ofNat 12 rec, index := tag }

/-- Read a Conjunction record: go on, or the parity fault (R311). -/
def State.recRead (s : State) (rec : Nat) (f : State → State) : State := s.sramRead 1 (conjOwner (s.conjCfg rec)) rec f

/-- An entry into a record that has been read. -/
def State.enterRec (s : State) (core : BitVec 11) (slot : BitVec 6) (tag : BitVec 16) (wait : BitVec 16 → Option WaitRec) : State :=
  let rc := cfgRec (s.slotCfg core slot)
  match s.entryRound rc with
  | none => s.conjOverrun rc core slot tag
  | some round =>
    let s1 := match wait round with
      | some r => s.modSync fun y => { y with waits := y.waits ++ [r] }
      | none => s
    (s1.countEntry rc).sramWrite 1 (conjOwner (s.conjCfg rc)) rc

/-- Enter a record, and wait for its release when `wait` is given. -/
def State.enterConj (s : State) (core : BitVec 11) (slot : BitVec 6) (tag : BitVec 16) (wait : BitVec 16 → Option WaitRec) : State :=
  s.recRead (cfgRec (s.slotCfg core slot)) fun s => s.enterRec core slot tag wait

/-- The waits a release of the record's open round releases, channels first, then cores in number order. -/
def State.releasedWaits (s : State) (rec : Nat) : List WaitRec :=
  sortBy (fun r => waiterKey r.who) (s.tsu.sync.waits.filter fun r =>
    decide (r.cond = 4 ∧ cfgRec (s.slotCfg r.core r.slot) = rec ∧ r.round = (s.conjRec rec).round))

/-- One waiter is released at R: a channel counts on from R, a core is told; when the release is late (R143, R223) the
channel's next descriptor is late, and a core's wait is cancelled. -/
def State.releaseOne (s : State) (late : Bool) (rTick : Tick) (r : WaitRec) : State :=
  let s1 := s.dropWait r.who
  match r.who with
  | .chan c => s1.modProg c.toNat fun p => { p with refTick := rTick, readyTick := s.now .tsu, lateNext := late }
  | .core n => s1.answerCore n (if late then 3 else 1) r.tag

/-- STEP_LATE on the acting channel of a core that a late release found waiting (R223). -/
def State.lateCore (s : State) (r : WaitRec) : State :=
  match r.who with
  | .chan _ => s
  | .core _ => s.stepFault r.ch cStepLate { index := r.tag }

/-- The record advances to its next round (R220). -/
def State.advanceRec (s : State) (rec : Nat) (rTick : Tick) : State :=
  (s.modConj rec fun x =>
    { x with cur := x.next, next := 0, round := x.round + 1, relTick := rTick.setWidth 32, release := x.nextRel, nextRel := none }).sramWrite 1
    (conjOwner (s.conjCfg rec)) rec

/-- The release of a record's open round. A late one stops the steps of the cores that waited after the record has advanced:
a step that stops returns it to the snapshot (R211, R223). -/
def State.releaseRec (s : State) (rec : Nat) (rTick : Tick) (late : Bool) : State :=
  s.recRead rec fun s =>
    let ws := s.releasedWaits rec
    let s1 := (ws.foldl (fun s r => s.releaseOne late rTick r) s).advanceRec rec rTick
    if late then ws.foldl State.lateCore s1 else s1

/-! ## Expiry of waits (R144, R228, R229) -/

/-- The record of a wait that expired (R228). -/
def State.timeoutRecord (s : State) (r : WaitRec) : BitVec 128 :=
  let cfg := s.slotCfg r.core r.slot
  let kind := cfgKind cfg
  let v := if kind = 3 then (s.conjRec (cfgRec cfg)).cur else s.slotVal (slotKey r.core r.slot)
  let waiter := match r.who with | .chan _ => 0x7FF | .core n => n.toNat
  put 128 127 127 1 ||| put 128 125 124 kind ||| put 128 123 113 r.core.toNat ||| put 128 112 107 r.slot.toNat |||
  put 128 106 104 r.cond ||| put 128 103 96 v.toNat ||| put 128 95 85 waiter ||| put 128 84 82 r.ch |||
  put 128 81 66 r.tag.toNat ||| put 128 63 32 r.tick.toNat ||| put 128 31 0 (s.now .tsu).toNat

/-- Read the object of a wait: its value, or its Conjunction record (R311). -/
def State.waitRead (s : State) (r : WaitRec) (f : State → State) : State :=
  let cfg := s.slotCfg r.core r.slot
  if cfgKind cfg = 3 then s.recRead (cfgRec cfg) f else s.sramRead 0 (cfgOwner cfg) (slotKey r.core r.slot) f

/-- The fault is raised, the first record latched, a core told, and the acting channel enters STOPPED. -/
def State.expireWait (s : State) (r : WaitRec) (code : Code) (cause : Nat) : State :=
  s.waitRead r fun s =>
  let ctx : Ctx := { core := r.core, slot := r.slot, index := r.tag }
  let w := s.timeoutRecord r
  let s1 := s.raiseChan r.ch code ctx
  let s2 := s1.modSync fun y => if y.timeout.getLsbD 127 then y else { y with timeout := w }
  ((s2.dropWait r.who).coreRsp r 4).enterStopped r.ch cause code ctx

/-! ## RUN (R212) -/

/-- A commit group sets a channel's RUN: held signals of the old RUN are discarded and counted. -/
def State.setRun (s : State) (c : Nat) (v : BitVec 8) : State :=
  if (s.chan c).run = v then s
  else
    let gone := (s.tsu.sync.held.filter fun h => decide (h.ch = c)).length
    (s.modChan c fun x => { x with run := v }).modSync fun y =>
      { y with held := y.held.filter fun h => !decide (h.ch = c), stale := satAdd y.stale gone }

end Sys2Proof.Machine
end

