-- ==== Sys2Proof/Machine/Sequencer.lean ====
section
/-! DEFINITION. The sequencer: fetching descriptors, action ticks, and the nine descriptor kinds (R119 to R157, R173). -/
namespace Sys2Proof.Machine
open Host

/-! ## Fetch (R120, R134, R476) -/

/-- The descriptor at an index of the store. -/
def State.descAt (s : State) (i : Nat) : BitVec 128 := s.reg64 .tsu (ephOff i + 8) ++ s.reg64 .tsu (ephOff i)

def dKind (d : BitVec 128) : Nat := fld d 127 124
def dDelta (d : BitVec 128) : Nat := fld d 119 96
/-- CORE and SLOT of a WAIT or SIGNAL. -/
def dCore (d : BitVec 128) : BitVec 11 := d.extractLsb' 85 11
def dSlot (d : BitVec 128) : BitVec 6 := d.extractLsb' 79 6
def dCount (d : BitVec 128) : BitVec 8 := d.extractLsb' 71 8

/-- A reserved KIND, or a reserved value checked at fetch (R476). -/
def badKind (d : BitVec 128) : Bool :=
  match dKind d with
  | 2 => decide (5 ≤ fld d 122 120) || (decide (fld d 122 120 = 2 ∨ fld d 122 120 = 3) && decide (dCount d = 0))
  | 3 => decide (fld d 123 122 = 2 ∧ fld d 47 40 = 0)
  | 4 => decide (fld d 123 122 = 3)
  | 6 => decide (fld d 123 122 = 3 ∨ (fld d 123 122 = 2 ∧ dCount d = 0))
  | k => decide (9 ≤ k)

/-- A fetch: a descriptor, or the fault of R120. -/
inductive Fetch
  | ok (d : BitVec 128)
  | bad (code : Code)
  deriving DecidableEq, Repr

def State.fetch (s : State) (c : Nat) (idx : BitVec 16) : Fetch :=
  let i := (s.bankBase c (s.chan c).bank + idx.toNat) % 65536
  if s.bankSize c ≤ idx.toNat then .bad cEphRange
  else if s.tsu.badEph.contains i then .bad cInjEph
  else if badKind (s.descAt i) then .bad cBadKind else .ok (s.descAt i)

/-- A fetch fault stops the step, or after the gate VOTE leaves the channel STOPPED (R120, R132). -/
def State.fetchFault (s : State) (c : Nat) (code : Code) : State :=
  let ctx := idxCtx c (s.chan c).pc
  let s1 := s.raiseChan c code ctx
  if (s.chan c).prog.gateVoted then s1.enterStopped c 4 code ctx else s1.stopStep c 4 code ctx

/-! ## Action ticks (R122 to R125) -/

/-- The action tick of a descriptor. -/
def actionTick (p : Prog) (d : BitVec 128) : Tick := p.refTick + BitVec.ofNat 64 (dDelta d)

/-- Whether a descriptor breaks a limit at its action tick `t`: 4 on one tick, 64 in 64 ticks, 16 after the selector of
a BRANCH, or a predecessor released late. -/
def Prog.breaks (p : Prog) (t : Tick) : Bool :=
  p.lateNext || decide (t < p.readyTick) || decide (4 ≤ p.acts.countP fun a => a == t) ||
  decide (64 ≤ (p.acts.filter fun a => decide (t.toNat < a.toNat + 64)).length) ||
  (match p.branchTick with | some v => decide (t.toNat < v.toNat + 16) | none => false)

/-- Past a descriptor: its action tick becomes the reference tick. -/
def State.advance (s : State) (c : Nat) (t : Tick) : State :=
  s.modChan c fun x =>
    { x with pc := x.pc + 1, prog := { x.prog with refTick := t, branchTick := none, lateNext := false } }

/-- A descriptor acts. -/
def State.act (s : State) (c : Nat) (t : Tick) : State :=
  (s.advance c t).modProg c fun p =>
    { p with readyTick := t, acts := t :: p.acts.filter fun a => decide (t.toNat < a.toNat + 64) }

/-- A descriptor that cannot act on its tick does not act: STEP_LATE (R125), after the gate VOTE it is skipped (R132). -/
def State.late (s : State) (c : Nat) (t : Tick) : State :=
  let idx := (s.chan c).pc
  (s.advance c t).stepFault c cStepLate (idxCtx c idx)

/-- The descriptor a command would act on: the channel runs, waits for nothing, and the next descriptor is of the kind. -/
inductive Next
  | no | bad (code : Code) | desc (d : BitVec 128)
  deriving DecidableEq, Repr

def State.nextDesc (s : State) (c kind : Nat) : Next :=
  if (s.chan c).state ≠ .running ∨ s.chanWaiting c then .no
  else match s.fetch c (s.chan c).pc with
    | .bad code => .bad code
    | .ok d => if dKind d = kind then .desc d else .no

/-- What R128 forbids after the gate VOTE of the step: a LAUNCH and a VOTE. -/
def afterGate (p : Prog) (kind : Nat) : Bool := p.gateVoted && decide (kind = 1 ∨ kind = 5)

/-- A forbidden descriptor does not act: STEP_GATE_ORDER, and the channel goes on past it (R128, R132). -/
def State.gateOrder (s : State) (c : Nat) (t : Tick) : State :=
  (s.advance c t).stepFault c cGateOrder (idxCtx c (s.chan c).pc)

/-- A descriptor of a kind acts: `body` is its effect at its action tick, given its index. One that R128 forbids and that is
reached past its action tick too raises STEP_LATE: DESIGN CHOICE (assumption 189). -/
def State.seq (s : State) (c kind : Nat) (body : BitVec 128 → BitVec 16 → Tick → State → Res) : Res :=
  match s.nextDesc c kind with
  | .no => .next s
  | .bad code => .next (s.fetchFault c code)
  | .desc d =>
    let t := actionTick (s.chan c).prog d
    if s.now .tsu < t then .next s
    else if t < s.now .tsu then .next (s.late c t)
    else if afterGate (s.chan c).prog kind then .next (s.gateOrder c t)
    else if (s.chan c).prog.breaks t then .next (s.late c t)
    else body d (s.chan c).pc t (s.act c t)

/-! ## LAUNCH (R135 to R139) -/

/-- A reserved value of a station-mask entry (R476). -/
def badEntry (e : Word) : Bool := decide (2048 < fld e 52 41 ∨ 11 ≤ fld e 40 37)

/-- The state of a selector, and its value. -/
def State.selState (s : State) (c n : Nat) : SelState := tget .valid (s.chan c).prog.states n
def State.selVal (s : State) (c n : Nat) : Word := tget 0 (s.chan c).prog.sels n

/-- Read a selector: PENDING and FAILED stop the step (R149). -/
def State.readSel (s : State) (c n : Nat) (idx : BitVec 16) (f : Word → State → State) : State :=
  s.sramRead 2 c n fun s =>
    match s.selState c n with
    | .pending => s.stepFault c cSelPending (idxCtx c idx)
    | .failed => s.stopStep c 4 cVoteMissing (idxCtx c idx)
    | .valid => f (s.selVal c n) s

/-- The stations that run a stream: core and station (R136). -/
def Stream.places (st : Stream) : List (Nat × Nat) :=
  ((List.range st.count).filter fun i => decide (st.first + i * 2 ^ st.strideLog2 < Config.fuseCores.toNat)).flatMap fun i =>
    ((List.range 8).filter fun m => st.stations.getLsbD m).map fun m => (st.first + i * 2 ^ st.strideLog2, m)

/-- The streams of a station-mask entry launched on a tick. -/
def entryStream (e : Word) (t : Tick) : Stream :=
  { program := e.extractLsb' 16 13, first := fld e 63 53, count := fld e 52 41, strideLog2 := fld e 40 37,
    stations := e.extractLsb' 29 8, tick := t }

/-- The launch leaves on the channel's lanes; an entry that names no station starts no stream (R136). -/
def State.launch (s : State) (c : Nat) (d : BitVec 128) (e mask : Word) : State :=
  (s.emit (.launch c (BitVec.ofNat 20 (max 256 (fld d 83 64))) (e.extractLsb' 16 48) mask)).modChan c fun x =>
    let st := entryStream e (s.now .tsu)
    if st.places.isEmpty then x
    else { x with running := true, prog := { x.prog with streams := st :: x.prog.streams } }

def State.launchBody (s : State) (c : Nat) (d : BitVec 128) (idx : BitVec 16) : State :=
  let e := s.reg64 .tsu (smtOff c (s.chan c).bank (fld d 95 84))
  if badEntry e then s.stepFault c cBadKind (idxCtx c idx)
  else if d.getLsbD 123 then s.readSel c (fld d 3 0) idx fun m s => s.launch c d e m
  else s.launch c d e (d.extractLsb' 0 64)

def execLaunch (c : Fin 8) (s : State) : Res := s.seq c 1 fun d idx _ s => .next (s.launchBody c d idx)

/-! ## WAIT (R141 to R143) -/

def State.waitBody (s : State) (c : Fin 8) (d : BitVec 128) (idx : BitVec 16) (t : Tick) : State :=
  let cond := fld d 122 120
  if !s.opAllowed c (dCore d) (dSlot d) (4 + cond) then s.badObject c (dCore d) (dSlot d) idx
  else
    let r : WaitRec := { who := .chan c, ch := c, core := dCore d, slot := dSlot d, cond := cond, count := dCount d,
                         timeout := d.extractLsb' 32 32, tag := idx, tick := t, round := 0 }
    if cond = 4 then s.enterConj (dCore d) (dSlot d) idx fun round => some { r with round := round }
    else s.modSync fun y => { y with waits := y.waits ++ [r] }

def execWait (c : Fin 8) (s : State) : Res := s.seq c 2 fun d idx t s => .next (s.waitBody c d idx t)

/-! ## BRANCH (R150, R151) -/

/-- The field a BRANCH tests; it reads zero above bit 63. -/
def branchField (d : BitVec 128) (v : Word) : Nat := fld (v >>> fld d 91 86) (fld d 85 83) 0

/-- Where a BRANCH goes from index `idx` on selector value `v`. -/
def branchTo (d : BitVec 128) (v : Word) (idx : BitVec 16) : BitVec 16 :=
  let target := d.extractLsb' 48 16
  let sense := d.getLsbD 121
  match fld d 123 122 with
  | 0 => if xor (v.getLsbD (fld d 91 86)) sense then target else idx + 1
  | 1 => if xor (decide (branchField d v = fld d 82 75)) sense then target else idx + 1
  | 2 => BitVec.ofNat 16 (min 65535 (target.toNat + branchField d v * fld d 47 40))
  | _ => if xor (decide (v ≠ 0)) sense then target else idx + 1

def State.branchBody (s : State) (c : Nat) (d : BitVec 128) (idx : BitVec 16) : State :=
  s.readSel c (fld d 95 92) idx fun v s =>
    s.modChan c fun x =>
      { x with pc := branchTo d v idx, prog := { x.prog with branchTick := tget none x.prog.selTick (fld d 95 92) } }

def execBranch (c : Fin 8) (s : State) : Res := s.seq c 3 fun d idx _ s => .next (s.branchBody c d idx)

/-! ## LOOP (R153, R154) -/

/-- Where a LOOP goes from index `idx`, and its counters after it. -/
def loopTo (d : BitVec 128) (loops : Table Half) (idx : BitVec 16) : BitVec 16 × Table Half :=
  let n := fld d 95 93
  let target := d.extractLsb' 64 16
  match fld d 123 122 with
  | 0 =>
    let v := (if tget 0 loops n = 0 then d.extractLsb' 32 32 else tget 0 loops n) - 1
    (if v ≠ 0 then target else idx + 1, tset 0 loops n v)
  | 1 => (target, loops)
  | _ => (idx + 1, tset 0 loops n 0)

def State.loopBody (s : State) (c : Nat) (d : BitVec 128) (idx : BitVec 16) : State :=
  s.modChan c fun x =>
    { x with pc := (loopTo d x.prog.loops idx).1, prog := { x.prog with loops := (loopTo d x.prog.loops idx).2 } }

/-- A LOOP is resolved at fetch, and keeps its action tick as the reference (R122, R124). -/
def State.actLoop (s : State) (c : Nat) (t : Tick) : State :=
  (s.act c t).modProg c fun p => { p with readyTick := (s.chan c).prog.readyTick }

def execLoop (c : Fin 8) (s : State) : Res :=
  match s.nextDesc c 4 with
  | .no => .next s
  | .bad code => .next (s.fetchFault c code)
  | .desc d =>
    let t := actionTick (s.chan c).prog d
    if (s.chan c).prog.breaks t then .next (s.late c t)
    else .next ((s.actLoop c t).loopBody c d (s.chan c).pc)

/-! ## VOTE (R127, R128, R147, R148, R173, R174) -/

/-- The valid format entry of a group in a channel's table, with its index. -/
def State.formatEntry (s : State) (c : Nat) (g : BitVec 12) : Option (Nat × Word) :=
  ((List.range 64).map fun e => (e, s.reg64 .tsu (0x03000000 + 8 * (64 * c + e)))).find? fun (_, w) =>
    w.getLsbD 63 && decide (w.extractLsb' 51 12 = g)

def fmtOp (e : Word) : Nat := fld e 50 47
def fmtWords (e : Word) : Nat := fld e 42 39 + 1

/-- GROUP of a VOTE descriptor. -/
def dGroup (d : BitVec 128) : BitVec 12 := d.extractLsb' 84 12

/-- The checks of R173. -/
def State.groupOk (s : State) (c : Nat) (d : BitVec 128) (e : Word) : Bool :=
  let gate := d.getLsbD 122
  !(s.chan c).prog.named.contains (dGroup d) &&
  (if gate then decide (fmtOp e = 0 ∧ dGroup d = s.gateGroup c ∧ fld d 83 70 = 0) && !d.getLsbD 123
   else decide (fmtOp e ≠ 0))

/-- VOTE_BAD_GROUP, recorded in TSU_VOTE_ERR (R203). -/
def State.badGroup (s : State) (c : Nat) (g : BitVec 12) (idx : BitVec 16) : State :=
  (s.modTsu fun t => { t with voteErr := put 32 31 29 c ||| put 32 27 16 g.toNat ||| put 32 15 0 idx.toNat }).stepFault c
    cVoteBadGroup { group := g, index := idx }

/-- LAST writes of a slot that the streams of a program, of those launched, are to make: one by each station. -/
def slotNeed (sts : List Stream) (slot : BitVec 8) (program : BitVec 13) : Nat :=
  ((sts.filter fun st => decide (st.program = program)).map fun st =>
    st.places.countP fun e => Config.streamNamesSlot e.1 e.2 program.toNat slot.toNat).foldl (· + ·) 0

/-- A capture slot counts as filled: some stream launched in the step up to the VOTE names it, and each that does has made its
LAST write (R148, R423). -/
def slotFilled (sts : List Stream) (captured : List (BitVec 8 × BitVec 13)) (slot : BitVec 8) : Bool :=
  (sts.any fun st => decide (0 < slotNeed sts slot st.program)) &&
  sts.all fun st => decide (slotNeed sts slot st.program ≤ captured.countP fun e => e == (slot, st.program))

/-- The payload of a VOTE: its capture slot, or the digests held for a DIGEST VOTE (R148, R302). -/
def State.votePayload (s : State) (c : Nat) (d : BitVec 128) (e : Word) : List Word :=
  (List.range (fmtWords e)).map fun i =>
    if fmtOp e = 0xD then tget 0 (s.chan c).digests i
    else tget 0 s.tsu.capture (captureKey (d.extractLsb' 70 8) i)
/-- A DIGEST VOTE finds its digests whole (R302). -/
def State.digestReady (s : State) (c : Nat) (e : Word) : Bool := !(decide (fmtOp e = 0xD) && (s.chan c).digBusy)
/-- The judgment a VOTE's slot waits for: LAUNCH_LAT and RET_LAT after its tick; a DIGEST VOTE has its payload at once
(R302, R418). -/
def voteJudge (sts : List Stream) (d : BitVec 128) (e : Word) (idx : BitVec 16) (t : Tick) : Option VoteJudge :=
  if fmtOp e = 0xD then none
  else some { desc := d, entry := e, idx := idx, at_ := t + BitVec.ofNat 64 Config.judgeLat, streams := sts }

/-- Word 1 of a contribution (R175). -/
def contribTicks (p : Prog) (t : Tick) : Word := put 64 63 32 t.toNat ||| put 64 31 0 p.beginTick.toNat

/-- SPAN of a vote's group at the die: the job's, or as far as the image means a narrower one (R30; assumption 165). -/
def State.voteSpan (s : State) (c : Nat) (g : BitVec 12) : Nat :=
  if s.chSpan c ≤ 1 then s.chSpan c else 1 + Config.groupSpan s.tsuC.sec.imageDigest g % s.chSpan c

/-- The gate VOTE: the health bit goes to the gate group (R127). A gate that has failed already stays failed (R177). -/
def State.gateVote (s : State) (c : Nat) (d : BitVec 128) (e : Word) (coreRun : Bool) (t : Tick) : State :=
  s.modChan c fun x =>
    let health := !coreRun && !x.prog.stopped
    let v : PendVote := { field := 4, group := dGroup d, entry := e, sel := 0, nosel := true,
                          validTick := t + BitVec.ofNat 64 (decisionLead (s.chSpan c)), result := none, done := decide (x.prog.gate = 3) }
    { x with prog := { x.prog with
        gate := if x.prog.gate = 3 then 3 else 1, gateVoted := true, named := dGroup d :: x.prog.named, pend := x.prog.pend ++ [v],
        unsent := x.prog.unsent ++ [{ due := t + 32, gate := true,
                                      words := [contribHead x (dGroup d) 0 true health, contribTicks x.prog t] }] } }

/-- A VOTE: its selector is PENDING, its slot is judged, and its contribution leaves 32 ticks later (R148, R175, R418). -/
def State.fieldVote (s : State) (c : Nat) (d : BitVec 128) (e : Word) (idx : BitVec 16) (t : Tick) : State :=
  let f := fld d 83 82
  let sel := fld d 81 78
  s.modChan c fun x =>
    let v : PendVote := { field := f, group := dGroup d, entry := e, sel := sel, nosel := d.getLsbD 123,
                          validTick := t + BitVec.ofNat 64 (decisionLead (s.voteSpan c (dGroup d))), result := none, done := false }
    { x with
      voteLast := tmod {} x.voteLast f fun l => { l with state := 1, group := dGroup d }
      prog := { x.prog with
        named := dGroup d :: x.prog.named, fields := f :: x.prog.fields, pend := x.prog.pend ++ [v],
        states := if d.getLsbD 123 then x.prog.states else tset .valid x.prog.states sel .pending,
        unsent := x.prog.unsent ++ [{ due := t + 32, gate := false, judge := voteJudge x.prog.streams d e idx t,
                                      words := [contribHead x (dGroup d) f false false, contribTicks x.prog t] ++
                                        (if fmtOp e = 0xD then s.votePayload c d e else []) }] } }

/-- The judgment of a VOTE's slot: it takes its payload, or the step stops as of the VOTE with STEP_OVERRUN (R140, R148,
R418). -/
def State.judgeVote (s : State) (c : Nat) (u : Unsent) (j : VoteJudge) : State :=
  if slotFilled j.streams (s.chan c).prog.captured (j.desc.extractLsb' 70 8) then
    let filled (x : Unsent) : Unsent := { x with judge := none, words := x.words ++ s.votePayload c j.desc j.entry }
    s.modProg c fun p => { p with unsent := updFirst (fun x => decide (x = u)) filled p.unsent }
  else (s.modProg c fun p => { p with unsent := dropOne u p.unsent }).judgedFault c cStepOverrun (idxCtx c j.idx)

/-- The judgments due at the end of this tick. -/
def State.judgeVotes (s : State) : State :=
  chanNums.foldl (fun s c => (s.chan c).prog.unsent.foldl (fun s u =>
    match u.judge with
    | some j => if j.at_ = s.now .tsu ∧ u ∈ (s.chan c).prog.unsent then s.judgeVote c u j else s
    | none => s) s) s

def State.voteBody (s : State) (c : Nat) (d : BitVec 128) (coreRun : Bool) (idx : BitVec 16) (t : Tick) : Res :=
  match s.formatEntry c (dGroup d) with
    | none => .next (s.badGroup c (dGroup d) idx)
    | some (n, e) =>
      if s.sramBad 3 c n then .next (s.sramFault 3 c n)
      else if !s.groupOk c d e then .next (s.badGroup c (dGroup d) idx)
      else if d.getLsbD 122 then .next (s.gateVote c d e coreRun t)
      else if (s.chan c).prog.fields.contains (fld d 83 82) then .fault (.unpredictable "R10")
      else if !s.digestReady c e then .next (s.stepFault c cStepOverrun (idxCtx c idx))
      else .next (s.fieldVote c d e idx t)

def execVote (c : Fin 8) (coreRun : Bool) (s : State) : Res :=
  s.seq c 5 fun d idx t s => s.voteBody c d coreRun idx t

/-! ## SIGNAL (R146) -/

def State.signalBody (s : State) (c : Nat) (eg : EgAns) (d : BitVec 128) (idx : BitVec 16) : State :=
  let op := fld d 123 122
  if d.getLsbD 121 then s.remoteSignal c eg (d.extractLsb' 54 17) (dCore d) (dSlot d) op (dCount d) idx
  else if s.opAllowed c (dCore d) (dSlot d) op then s.objOp (dCore d) (dSlot d) op (dCount d) 0x7FF
  else s.badObject c (dCore d) (dSlot d) idx

def execSignal (c : Fin 8) (eg : EgAns) (s : State) : Res := s.seq c 6 fun d idx _ s => .next (s.signalBody c eg d idx)

/-! ## COMMIT (R118, R126, R130, R131, R159, R161, R226, R305) -/

/-- A channel has committed on tick `t`. -/
def committedAt (x : Chan) (t : Tick) : Bool := decide (x.bnd.tick = t ∧ x.bnd.step ≠ 0)

/-- The look-ahead of R118 over the descriptors of a member that act on `t`. It does not pass a HALT, nor a wait for a
Conjunction, from whose release tick the next descriptor counts. -/
def State.lookAhead (s : State) (m : Nat) (t : Tick) : Nat → BitVec 16 → Tick → Table Half → Bool
  | 0, _, _, _ => false
  | n + 1, pc, ref, loops =>
    match s.fetch m pc with
    | .bad _ => false
    | .ok d =>
      let a := ref + BitVec.ofNat 64 (dDelta d)
      if a ≠ t ∨ dKind d = 0 ∨ (dKind d = 2 ∧ fld d 122 120 = 4) then false
      else if dKind d = 7 then true
      else if dKind d = 4 then s.lookAhead m t n (loopTo d loops pc).1 a (loopTo d loops pc).2
      else if dKind d = 3 then
        if s.selState m (fld d 95 92) = .valid then s.lookAhead m t n (branchTo d (s.selVal m (fld d 95 92)) pc) a loops else false
      else s.lookAhead m t n (pc + 1) a loops

/-- Whether a running member commits on `t`. -/
def State.commitsAt (s : State) (m : Nat) (t : Tick) : Bool :=
  let x := s.chan m
  committedAt x t ||
  (!(s.tsu.sync.waits.any fun r => decide (r.ch = m ∧ r.cond = 4) && (match r.who with | .chan _ => true | .core _ => false)) &&
   s.lookAhead m t 5 x.pc x.prog.refTick x.prog.loops)

/-- A record of the channel is open: its round spans the boundary (R226). -/
def State.conjOpen (s : State) (c : Nat) : Bool :=
  (s.ownedRecs c).any fun r => decide ((s.conjRec r).cur ≠ 0 ∨ (s.conjRec r).next ≠ 0)

/-- Why a COMMIT fails; none when it takes effect (R130, R131, R226). -/
def State.commitFail (s : State) (c : Nat) (isLocal : Bool) : Option Code :=
  let p := (s.chan c).prog
  if p.states.any fun e => decide (e.2 = .pending) then some cSelPending
  else if p.stopped then some cCommitFail
  else if isLocal then (if s.chSpan c ≠ 0 then some cCommitFail else if s.conjOpen c then some cConjOpen else none)
  else if p.gate = 1 then some cSelPending
  else if p.gate ≠ 2 then some cCommitFail
  else if s.conjOpen c then some cConjOpen else none

/-- HOLD_CAUSE codes that apply at the boundary that ends step `n`. -/
def holdCauses (x : Chan) (n : BitVec 64) : List Nat :=
  x.holdWant ++ (x.holdStep.filter fun e => decide (e.1 = n)).map Prod.snd

/-- A hold for step `n` is over once that step's COMMIT has acted. -/
def Chan.clearHoldStep (x : Chan) (n : BitVec 64) : Chan :=
  { x with holdStep := x.holdStep.filter fun e => !decide (e.1 = n) }

/-- The stretch from the COMMIT that ends step `n` on: the last of those named up to it (R23, R161). -/
def Chan.stretchAt (x : Chan) (n : BitVec 64) : BitVec 20 :=
  ((x.stretchNext.filter fun e => decide (e.1 ≤ n)).getLast?.map Prod.snd).getD x.stretch

/-- Enter HELD after a COMMIT, with the first cause (R169); BROWNOUT_HOLD is raised with its cause (R336). -/
def State.holdAtBoundary (s : State) (c : Nat) (causes : List Nat) : State :=
  let s1 := if causes.contains 6 then s.raiseChan c cBrownoutHold else s
  (s1.cancelWaits c).enterHeld c (pickCause causes)

/-- A COMMIT that fails: shadow writes dropped, its fault, HELD with the previous record. -/
def State.commitFailed (s : State) (c : Nat) (code : Code) (idx : BitVec 16) : State :=
  let x := s.chan c
  (((s.emit (.shd c false)).raiseChan c code (idxCtx c idx)).modChan c fun x => x.clearHoldStep x.step).holdAtBoundary c
    (3 :: holdCauses x x.step)

/-- A COMMIT that takes effect, up to the boundary record: the step number, STRETCH, the bank, the next step. -/
def State.commitTaken (s : State) (c : Nat) (t : Tick) : State :=
  let x := s.chan c
  let n := x.step
  let st := x.stretchAt n
  let s1 := (s.emit (.shd c true)).modChan c fun x =>
    let y := { x.clearHoldStep n with
      step := n + 1, stretch := st, voteLast := x.freshFields,
      stretchNext := x.stretchNext.filter fun e => !decide (e.1 ≤ n),
      ckptDue := if n ≠ 0 ∧ s.ckptPeriod c ≠ 0 ∧ n.toNat % s.ckptPeriod c = 0 then some n else x.ckptDue,
      prog := { (x.prog.newStep (t + st.setWidth 64)) with readyTick := t } }
    if x.swapGo then y.swapBanks else y
  s1.writeBoundary c (s1.chan c).pc t

def State.commitCore (s : State) (c : Nat) (isLocal : Bool) (idx : BitVec 16) (t : Tick) : State :=
  match s.commitFail c isLocal with
  | some code => s.commitFailed c code idx
  | none =>
    let causes := holdCauses (s.chan c) (s.chan c).step
    let s1 := s.commitTaken c t
    if causes.isEmpty ∧ !(s.chan c).unbindPend then (s1.emit (.stepBegin c (s1.chan c).prog.beginTick)).snapCheck c
    else ((s1.noteParity 0 c 0).noteParity 1 c 0).holdAtBoundary c causes

/-- A lock skew (R118): the members before their gate VOTE stop; the others go on and are fenced. -/
def State.lockSkew (s : State) (c : Nat) (isLocal : Bool) (idx : BitVec 16) (t : Tick) : State :=
  let mates := s.lockMates c
  let ctx := idxCtx c idx
  let s1 := s.raiseChan c cLockSkew ctx
  if (s.chan c).prog.gateVoted then
    ((s1.gateFence c cLockSkew ctx).stopMates mates cLockSkew ctx).commitCore c isLocal idx t
  else (s1.stopOne c 4).stopMates mates cLockSkew ctx

def State.commitBody (s : State) (c : Nat) (d : BitVec 128) (idx : BitVec 16) (t : Tick) : State :=
  if (s.lockMates c).all fun m => s.commitsAt m t then s.commitCore c (d.getLsbD 123) idx t
  else s.lockSkew c (d.getLsbD 123) idx t

/-- A COMMIT whose gate VOTE has acted takes effect on this die even when it is late (R132). -/
def execCommit (c : Fin 8) (s : State) : Res :=
  match s.nextDesc c 7 with
  | .no => .next s
  | .bad code => .next (s.fetchFault c code)
  | .desc d =>
    let t := actionTick (s.chan c).prog d
    let idx := (s.chan c).pc
    if s.now .tsu < t then .next s
    else if t < s.now .tsu ∨ (s.chan c).prog.breaks t then
      if (s.chan c).prog.gateVoted then .next ((s.late c t).commitBody c d idx t) else .next (s.late c t)
    else .next ((s.act c t).commitBody c d idx t)

/-! ## IDLE and HALT (R156, R157) -/

def execIdle (c : Fin 8) (s : State) : Res := s.seq c 8 fun _ _ _ s => .next s

/-- HALT. An UNBIND that waits for the next boundary goes on waiting: DESIGN CHOICE (assumption 190). -/
def State.haltBody (s : State) (c : Nat) (t : Tick) : State :=
  let x := s.chan c
  let isOpen := !committedAt x t
  let s1 := (s.stopStreams c).emit (.shd c false)
  let s2 := if isOpen && !x.prog.gateVoted then s1.earlyGate c else s1
  (s2.cancelWaits c).modChan c fun x =>
    { x with state := .halted, hold := false, holdWant := [],
             prog := { x.prog with inStep := false, streams := [], pend := if isOpen then [] else x.prog.pend,
                                   unsent := if isOpen then [] else x.prog.unsent } }

def execHalt (c : Fin 8) (s : State) : Res := s.seq c 0 fun _ _ t s => .next (s.haltBody c t)

end Sys2Proof.Machine
end

