-- ==== Sys2Proof/Machine/Stages.lean ====
section
/-! DEFINITION. What a Jupin stage knows of a group and does for it: records, members, expected inputs, results sent
down, Conjunction rounds (R171, R172, R219 to R226). -/
namespace Sys2Proof.Machine

/-! ## Records (R171, R469) -/

def grpBase (g : Nat) : Nat := 0x00800000 + 0x100 * g
def conjGrpBase (g : Nat) : Nat := 0x00A00000 + 0x100 * g

/-- The vote group record of a number, if valid. -/
def State.groupRec (s : State) (g : BitVec 12) : Option GroupRec :=
  let w := s.reg64 .jup (grpBase g.toNat)
  let w1 := s.reg64 .jup (grpBase g.toNat + 8)
  if w.getLsbD 0 then
    some { job := w.extractLsb' 49 15, op := fld w 48 45, fmt := fld w 44 41, lanes := fld w 40 33, words := fld w 32 29 + 1,
           span := fld w 28 27, k := fld w 26 22, dir := w.getLsbD 21, outFmt := fld w 20 19, bins := fld w 18 12,
           l2 := w.getLsbD 11, codewords := fld w 10 4, divFail := w.getLsbD 3, nanFault := w.getLsbD 2,
           thresh := fld w1 63 48, cwSet := fld w1 47 40 }
  else none

/-- The codewords of a group (R199, R467). -/
def State.codewordsOf (s : State) (g : GroupRec) : List (List Int) :=
  (List.range g.codewords).map fun c => (List.range 16).map fun i =>
    (s.reg .jup (0x00900000 + 0x1000 * g.cwSet + 0x40 * c + 4 * i)).toInt

/-- The MEMBERS words of a record for the steps begun at a tick (R172). -/
def State.memberWords (s : State) (base : Nat) (begin_ : Tick) : List Word :=
  match s.jup.stage.oldMembers.find? fun e => decide (begin_ < e.1 ∧ e.2.1 = base) with
  | some (_, _, ws) => ws
  | none => (List.range 16).map fun r => s.reg64 .jup (base + 8 * (2 + r))
/-- MEMBERS of a record: the valid ranges. -/
def State.memberRanges (s : State) (base : Nat) (begin_ : Tick) : List (Nat × Nat) :=
  (s.memberWords base begin_).filterMap fun w => if w.getLsbD 63 then some (fld w 16 0, fld w 33 17) else none

/-- The logical map in force when a step began (R172). -/
def State.runsAt (s : State) (begin_ : Tick) : List MapRun :=
  match s.jup.stage.oldMaps.find? fun e => decide (begin_ < e.1) with
  | some (_, ws) => (ws.filter fun w => w.getLsbD 0).map runOf
  | none => s.mapRuns.map Prod.snd

/-- Ranks common to a run and a range. -/
def commonRanks (m : MapRun) (r : Nat × Nat) : List Nat :=
  let lo := max m.first.toNat r.1
  (List.range (min m.last.toNat r.2 + 1 - lo)).map (lo + ·)
def meets (m : MapRun) (r : Nat × Nat) : Bool := decide (max m.first.toNat r.1 ≤ min m.last.toNat r.2)

/-- Level of the stage: 1 rack, 2 row, 3 root (R257 ROLE). -/
def State.isTop (s : State) (span : Nat) : Bool := decide (s.role = span)

/-- The inputs a stage expects of a group: ranks at a rack Jupin, down ports above (R171). -/
def State.expectedOf (s : State) (job : BitVec 15) (base : Nat) (begin_ : Tick) : List Nat :=
  let runs := (s.runsAt begin_).filter fun m => decide (m.job = job ∧ m.port.toNat < 88)
  let mem := s.memberRanges base begin_
  if s.role = 1 then (runs.flatMap fun m => mem.flatMap fun r => commonRanks m r).eraseDups
  else ((runs.filter fun m => mem.any (meets m)).map fun m => m.port.toNat).eraseDups

/-- The down ports that lead to members. -/
def State.memberPorts (s : State) (job : BitVec 15) (base : Nat) (begin_ : Tick) : List Nat :=
  let mem := s.memberRanges base begin_
  sortBy id ((((s.runsAt begin_).filter fun m =>
    decide (m.job = job ∧ m.port.toNat < 88) && mem.any (meets m)).map fun m => m.port.toNat).eraseDups)

/-- The run of a rank in the map of a begin tick. -/
def State.runOfRank (s : State) (job : BitVec 15) (rank : Nat) (begin_ : Tick) : Option MapRun :=
  (s.runsAt begin_).find? fun m => decide (m.job = job ∧ m.first.toNat ≤ rank ∧ rank ≤ m.last.toNat)

/-- The side of a pair this device is (R257): A 0, B 1. -/
def State.ownSide (s : State) : Nat := if s.side = 1 then 1 else 0

/-- The up port toward the active parent of a job (R16, R250). -/
def State.upPort (s : State) (job : BitVec 15) : Nat :=
  match s.mapRuns.find? fun e => decide (e.2.job = job) with
  | some (_, m) => 88 + m.side.toNat
  | none => 88 + s.ownSide

/-- NODE of the Jupin on a down port: as it announced itself, and side A before (R17; assumption 161). -/
def State.childNode (s : State) (p : Nat) : Nat :=
  let k := fld (s.link .jup p).ctl.farPath 31 29
  if 1 ≤ k ∧ k ≤ 3 then k else 1

/-- The path word of the child on a down port (R17). -/
def State.childPath (s : State) (p : Nat) : BitVec 32 :=
  let own := s.selfPath .jup
  if s.role = 1 then (own &&& 0x1FFFFF80) ||| put 32 6 0 p
  else put 32 31 29 (s.childNode p) |||
    (if s.role = 2 then (own &&& 0x1FFFC000) ||| put 32 13 7 p ||| put 32 6 0 127
     else (own &&& 0x1FE00000) ||| put 32 20 14 p ||| put 32 13 7 127 ||| put 32 6 0 127)

/-- Complete the low half of a tick near the running counter (R224). -/
def nearTick (now : Tick) (lo : Half) : Tick := now + (lo - now.setWidth 32).signExtend 64

def State.modStage (s : State) (f : Stage → Stage) : State := s.modJup fun j => { j with stage := f j.stage }
def State.grpStat (s : State) (g : Nat) : GrpStat := tget {} s.jup.stage.grp g
def State.modGrp (s : State) (g : Nat) (f : GrpStat → GrpStat) : State :=
  s.modStage fun t => { t with grp := tmod {} t.grp g f }
def State.voteCtx (s : State) (g : Nat) : Option VoteCtx := tget none s.jup.stage.votes g
def State.setVote (s : State) (g : Nat) (c : Option VoteCtx) : State :=
  s.modStage fun t => { t with votes := tset none t.votes g c }
def State.conjStage (s : State) (g : Nat) : ConjStage := tget {} s.jup.stage.conj g
def State.modConjStage (s : State) (g : Nat) (f : ConjStage → ConjStage) : State :=
  s.modStage fun t => { t with conj := tmod {} t.conj g f }

/-- Raise a fault of the reducer fabric, or of a port when the context names one (R313). -/
def State.raiseStage (s : State) (code : Code) (ctx : Ctx) : State := s.raiseFault .jup blkReducer code ctx
def State.raisePort (s : State) (p : Nat) (code : Code) (ctx : Ctx) : State :=
  s.raiseFault .jup p code { ctx with index := BitVec.ofNat 16 p }

/-! ## Conjunction rounds at a stage (R222 to R226) -/

/-- JOB and SPAN of a Conjunction group record, if valid (R219). -/
def State.conjGroupRec (s : State) (g : Nat) : Option (BitVec 15 × Nat) :=
  let w := s.reg64 .jup (conjGrpBase g)
  if w.getLsbD 0 then some (w.extractLsb' 49 15, fld w 48 47) else none

/-- RELEASE_LEAD of a span (R227). -/
def releaseLead (span : Nat) : Nat := if span = 2 then 724 else if span = 3 then 1624 else 264

/-- RUN of a job's record (R470). -/
def jobBase (j : Nat) : Nat := 0x00D80000 + 0x100 * j
def jobRecs : List Nat := List.range 1024
/-- The record of a job, of those listed. -/
def State.jobRec (s : State) (job : BitVec 15) : Option Nat :=
  ((s.listed .jup 0x00D80000 0x40000 0x100).map fun o => (o - 0x00D80000) / 0x100).find? fun j =>
    let w := s.reg64 .jup (jobBase j)
    w.getLsbD 0 && decide (w.extractLsb' 49 15 = job)
/-- A word of a job's record; zero where there is none. -/
def State.jobWord (s : State) (job : BitVec 15) (i : Nat) : Word :=
  match s.jobRec job with | some j => s.reg64 .jup (jobBase j + 8 * i) | none => 0
def State.setJobWord (s : State) (job : BitVec 15) (i : Nat) (w : Word) : State :=
  match s.jobRec job with | some j => s.setReg64 .jup (jobBase j + 8 * i) w | none => s
def State.jobRun (s : State) (job : BitVec 15) : BitVec 8 := (s.jobWord job 8).extractLsb' 0 8

/-- Words of an arrival forwarded by a stage, and of a release (R224). -/
def conjWord0 (job : BitVec 15) (g : Nat) (round : BitVec 16) (failed stage : Bool) (run : BitVec 8) : Word :=
  put 64 63 49 job.toNat ||| put 64 31 20 g ||| bit1 64 19 (round.getLsbD 0) ||| bit1 64 18 failed |||
  put 64 17 10 run.toNat ||| bit1 64 9 stage

/-- The next round opens, with the arrivals that came early for it (R222). -/
def ConjStage.advance (x : ConjStage) : ConjStage :=
  { x with round := x.round + 1, cur := x.next, next := [], beginTick := x.nextBegin, nextBegin := none, stepLo := x.nextStep,
           nextStep := 0, failed := x.nextFailed, nextFailed := false, nextSent := false }
/-- The group returns to a round number, and its arrival sets are dropped (R226). -/
def ConjStage.back (x : ConjStage) (run : BitVec 8) : ConjStage :=
  { x with round := x.recorded, cur := [], next := [], beginTick := none, nextBegin := none, stepLo := 0, nextStep := 0,
           failed := false, nextFailed := false, nextSent := false, returned := some run }

/-- The release of the open round goes down to every member, and the next round opens (R223). -/
def State.sendRelease (s : State) (g : Nat) (job : BitVec 15) (rTick : Tick) (begin_ : Tick) : State :=
  let x := s.conjStage g
  let ws := [conjWord0 job g x.round false false (s.jobRun job), put 64 63 32 rTick.toNat ||| put 64 15 0 x.stepLo.toNat]
  (s.sendAll .jup (s.memberPorts job (conjGrpBase g) begin_) (jobMsg mtConjRelease ws)).modConjStage g ConjStage.advance

/-- A round of a group fails here, the open one or the early one: a failed arrival goes up, or a failed release down from the
top. `begin_` and `lo` stand for the step where no arrival of the round names one (R224, R225). -/
def State.failOne (s : State) (g : Nat) (early : Bool) (begin_ : Tick) (lo : BitVec 16) : State :=
  match s.conjGroupRec g with
  | none => s
  | some (job, span) =>
    let x := s.conjStage g
    if (if early then x.nextFailed else x.failed) then s
    else
      let round := if early then x.round + 1 else x.round
      let known := if early then x.nextBegin else x.beginTick
      let b := known.getD begin_
      let step := if known.isNone then lo else if early then x.nextStep else x.stepLo
      let s1 := s.modConjStage g fun x => if early then { x with nextFailed := true } else { x with failed := true }
      if s.isTop span then
        s1.sendAll .jup (s.memberPorts job (conjGrpBase g) b)
          (jobMsg mtConjRelease [conjWord0 job g round true false (s.jobRun job), put 64 15 0 step.toNat])
      else
        s1.send .jup (s.upPort job)
          (jobMsg mtConjArrive [conjWord0 job g round true true (s.jobRun job), put 64 63 32 b.toNat ||| put 64 15 0 step.toNat])

/-- The open rounds of a group fail: the open one, and the next where early arrivals are held (R225). -/
def State.failRound (s : State) (g : Nat) (begin_ : Tick) (lo : BitVec 16) : State :=
  let s1 := s.failOne g false begin_ lo
  if (s.conjStage g).next.isEmpty then s1 else s1.failOne g true begin_ lo

/-- BEGIN_TICK and STEP_LO of the last vote of a job here: those of its step, where no arrival names one (R224; assumption
167). -/
def State.lastBegin (s : State) (job : BitVec 15) : Tick × BitVec 16 :=
  s.jup.stage.grp.foldl (fun t e =>
    if (s.groupRec (BitVec.ofNat 12 e.1)).any fun g => decide (g.job = job) then
      (if t.1 < e.2.beginTick then (e.2.beginTick, e.2.stepLo) else t) else t) (0, 0)

/-- The Conjunction groups of a job with a valid record. -/
def State.conjGroups (s : State) (job : BitVec 15) : List Nat :=
  ((s.listed .jup 0x00A00000 0x100000 0x100).map fun o => (o - 0x00A00000) / 0x100).filter fun g =>
    decide ((s.conjGroupRec g).map Prod.fst = some job)

/-- Digest of the image that brought a job: its own, or the Jupin's. -/
def State.jobDigest (s : State) (job : BitVec 15) : BitVec 384 :=
  ((s.jup.jobImages.find? fun i => decide (i.job = job)).map JobImage.digest).getD s.jupC.sec.imageDigest
/-! ### The runs of a job, partners and twins (R12, R20, R279, R303) -/

/-- Last value that a list of image writes gives an offset. -/
def imageVal (ws : List (BitVec 32 × Half)) (off : Nat) : Half :=
  match ws.reverse.find? fun e => decide (e.1.toNat = off) with | some (_, v) => v | none => 0
/-- The valid map runs that a job image writes. -/
def imageRuns (ws : List (BitVec 32 × Half)) : List MapRun :=
  (((ws.map fun e => e.1.toNat).filter fun o => decide (mapBase ≤ o ∧ o < mapBase + mapSize ∧ o % 8 = 0)).eraseDups.map fun o =>
    imageVal ws (o + 4) ++ imageVal ws o).filterMap fun w => if w.getLsbD 0 then some (runOf w) else none
/-- The runs of a job: those of the map, or before it starts those of its staged image (R285). -/
def State.jobRuns (s : State) (j : BitVec 15) : List MapRun :=
  let here := (s.mapRuns.map Prod.snd).filter fun m => decide (m.job = j)
  if here.isEmpty then (s.jup.jobImages.filter fun i => decide (i.job = j)).flatMap fun i => imageRuns i.writes else here

/-- The run that leads to a rank, and its port; 127 where there is none. -/
def State.rankRun (s : State) (j : BitVec 15) (rank : BitVec 17) : Option MapRun :=
  (s.jobRuns j).find? fun m => decide (m.first ≤ rank ∧ rank ≤ m.last)
def State.rankPort (s : State) (j : BitVec 15) (rank : BitVec 17) : Nat := ((s.rankRun j rank).map fun m => m.port.toNat).getD 127

/-- Partner of a rank (R279). -/
def State.partnerOf (s : State) (j : BitVec 15) (rank : BitVec 17) : Option (BitVec 17) := Config.partnerOf (s.jobDigest j) j rank
/-- The twins that the DIGEST groups among group records name: the job and the two members of each (R200, R303). -/
def State.twinPairs (s : State) (groups : List Nat) : List (BitVec 15 × List Nat) :=
  groups.filterMap fun g => match s.groupRec (BitVec.ofNat 12 g) with
    | some r => if r.op = 13 then some (r.job, (s.memberRanges (grpBase g) (s.now .jup)).flatMap fun e => (List.range (min 2 (e.2 + 1 - e.1))).map (e.1 + ·)) else none
    | none => none
/-- Twin of a rank: the other member of its DIGEST group (R283, R303). -/
def State.twinOf (s : State) (j : BitVec 15) (rank : BitVec 17) : Option (BitVec 17) :=
  let pairs := s.twinPairs ((s.listed .jup 0x800000 0x100000 0x100).map fun o => (o - 0x800000) / 0x100)
  match pairs.find? fun e => decide (e.1 = j) && e.2.contains rank.toNat with
  | some (_, ms) => (ms.find? fun k => decide (k ≠ rank.toNat)).map fun k => BitVec.ofNat 17 k
  | none => none
/-- Ports of one sled (R12). -/
def sameSled (p q : Nat) : Bool := decide (p < 88 ∧ q < 88 ∧ p / 4 = q / 4)
/-- A port on the sled of a rank's partner or twin (R329). -/
def State.nearMate (s : State) (j : BitVec 15) (rank : BitVec 17) (p : Nat) : Bool :=
  (s.partnerOf j rank).any (fun r => sameSled p (s.rankPort j r)) || (s.twinOf j rank).any fun r => sameSled p (s.rankPort j r)
/-- Path of the die of a rank's partner, as the map has it now; 0 for none (R279). -/
def State.partnerPath (s : State) (j : BitVec 15) (rank : BitVec 17) : Half :=
  match s.partnerOf j rank with
  | some r => if s.rankPort j r < 88 then s.childPath (s.rankPort j r) else 0
  | none => 0
/-- The shadow-currency records name the partners where the map has them. -/
def State.movePartners (s : State) : State :=
  s.modJup fun x => { x with shadows := x.shadows.map fun e => { e with partner := s.partnerPath e.job e.rank } }

/-- SHADOW_LAG of a job (R279). -/
def State.shadowLag (s : State) (job : BitVec 15) : Nat := ((Config.shadowLag (s.jobDigest job) job).map BitVec.toNat).getD 64
/-- Steps by which a rank's committed step exceeds the step its partner has acknowledged. -/
def State.lagOf (s : State) (x : Shadow) : Nat :=
  match tget none s.jup.stage.committed x.job.toNat with
  | some c => c.toNat - x.step.toNat
  | none => 0
/-- SHADOW_LAG holds while some rank lags (R279). -/
def State.checkLag (s : State) : State :=
  let s1 := s.modJup fun j => { j with shadows := j.shadows.map fun x => { x with lag := decide (s.shadowLag x.job < s.lagOf x) } }
  if s1.jup.shadows.any fun x => x.lag then s1.raiseLevel .jup blkRecord cShadowLag {} else s1.endLevel .jup blkRecord cShadowLag {}

/-- A step number from its low bits, near the last one of the job. -/
def fullStep (last : Option (BitVec 64)) (lo : BitVec 16) : BitVec 64 :=
  match last with | some c => c + (lo - c.setWidth 16).signExtend 64 | none => lo.setWidth 64
/-- Ranks of a job behind the ports of a rack Jupin. -/
def State.rankList (s : State) (j : BitVec 15) : List (BitVec 17) :=
  ((s.jobRuns j).filter fun m => decide (m.port.toNat < 88)).flatMap fun m =>
    (List.range (m.last.toNat + 1 - m.first.toNat)).map fun k => m.first + BitVec.ofNat 17 k
/-- Each rank that has a partner has a shadow-currency record from its first step here on, at the step before it: a partner that
acknowledges nothing lags too (R279). With the first commit the job's shadow flow opens, where a tracker entry is free (R270). -/
def State.openShadows (s : State) (job : BitVec 15) (step : BitVec 64) : State :=
  if s.role ≠ 1 then s
  else
    let mated := (s.rankList job).filter fun r => (s.partnerOf job r).isSome
    let new := mated.filter fun r => s.jup.shadows.all fun x => decide (x.job ≠ job ∨ x.rank ≠ r)
    (if mated.isEmpty then s else (s.openFlow .shadowFlow job).getD s).modJup fun j => { j with shadows := j.shadows ++ new.map fun r =>
      { job := job, rank := r, step := if step = 0 then 0 else step - 1, partner := s.partnerPath job r } }
/-- A step of a job has passed its gate here (R275, R279). -/
def State.noteCommit (s : State) (job : BitVec 15) (stepLo : BitVec 16) : State :=
  let n := fullStep (tget none s.jup.stage.committed job.toNat) stepLo
  ((s.modStage fun t =>
    { t with committed := tset none t.committed job.toNat (some n),
             rerun := t.rerun.filter fun e => !decide (e.1 = job) }).openShadows job n).checkLag
/-- A step whose gate failed waits to be run again (R326). -/
def State.noteRerun (s : State) (job : BitVec 15) (stepLo : BitVec 16) : State :=
  s.modStage fun t => { t with rerun := if t.rerun.any fun e => decide (e.1 = job) then t.rerun else t.rerun ++ [(job, stepLo)] }

/-- A job's gate passed here: round numbers are recorded; or failed: the open rounds fail, and each group returns to the
recorded number with its arrival sets dropped (R225, R226). -/
def State.gateSettled (s : State) (job : BitVec 15) (passed : Bool) (begin_ : Tick) (lo : BitVec 16) : State :=
  (s.conjGroups job).foldl (fun s g =>
    if passed then s.modConjStage g fun x => { x with recorded := x.round, returned := none }
    else (s.failRound g begin_ lo).modConjStage g fun x => x.back (s.jobRun job)) s

end Sys2Proof.Machine
end

