-- ==== Sys2Proof/Machine/Groups.lean ====
section
/-! DEFINITION. Commit groups: what a device on the path of a group holds, which ports lead to a target, and the abort that
several causes share (R351 to R357). -/
namespace Sys2Proof.Machine

/-- The words of a commit-group message (R357). -/
def groupWords (kind ordinal : Nat) (reason : BitVec 8) (h : Half) (arg : Word) (ws : List Word) : List Word :=
  (put 64 63 56 kind ||| put 64 55 40 ordinal ||| put 64 39 32 reason.toNat ||| put 64 31 0 h.toNat) :: arg :: ws
def groupMsg (kind ordinal : Nat) (reason : BitVec 8) (h : Half) (arg : Word) (ws : List Word) : Msg :=
  jobMsg mtGroup (groupWords kind ordinal reason h arg ws)

/-- A list in parts of k; an empty list is one empty part. -/
def partsOf {α : Type} (k : Nat) (l : List α) : List (List α) := (List.range ((l.length - 1) / k + 1)).map fun i => (l.drop (k * i)).take k

def msgKind (ws : List Word) : Nat := fld (nthW ws 0) 63 56
def msgReason (ws : List Word) : BitVec 8 := (nthW ws 0).extractLsb' 32 8
def msgGroup (ws : List Word) : Half := (nthW ws 0).extractLsb' 0 32

/-- The Jupin's own level in a path word: it is named by it, or the port below that leads to it; none: upward (R17). -/
def State.pathPort (s : State) (p : BitVec 32) : Option (Option Nat) :=
  let own := s.selfPath .jup
  let at_ (lo : Nat) : Option (Option Nat) :=
    if fld p (lo + 6) lo = 127 then some none else some (some (fld p (lo + 6) lo))
  if s.role = 1 ∧ fld p 28 7 = fld own 28 7 then at_ 0
  else if s.role = 2 ∧ fld p 28 14 = fld own 28 14 then at_ 7
  else if s.role = 3 ∧ fld p 28 21 = fld own 28 21 then at_ 14
  else none

/-- A word of the job's record, as its staged image writes it where there is no record yet. -/
def State.jobWordOr (s : State) (j : BitVec 15) (i : Nat) : Word :=
  if (s.jobRec j).isSome then s.jobWord j i
  else match s.jup.jobImages.find? fun x => decide (x.job = j) with
    | none => 0
    | some x =>
      match x.writes.find? fun e => decide (0xD80000 ≤ e.1.toNat ∧ e.1.toNat % 0x100 = 0) with
      | none => 0
      | some (o, _) => imageVal x.writes (o.toNat + 8 * i + 4) ++ imageVal x.writes (o.toNat + 8 * i)
/-- A list of map runs gives some rank two paths, or some path of a rack Jupin two ranks on one channel (R21). -/
def runsMeet (role : Nat) (a b : MapRun) : Bool :=
  decide (a.job = b.job ∧ a.first ≤ b.last ∧ b.first ≤ a.last) ||
  decide (role = 1 ∧ a.port.toNat < 88 ∧ a.port = b.port ∧ a.channel = b.channel)
def mapBroken (role : Nat) : List MapRun → Bool
  | [] => false
  | m :: ms => decide (role = 1 ∧ m.port.toNat < 88 ∧ m.first < m.last) || ms.any (runsMeet role m) || mapBroken role ms

/-- The last rank of a job's span. -/
def State.lastRank (s : State) (j : BitVec 15) : BitVec 17 := (s.jobWordOr j 0).extractLsb' 32 17
/-- Every rank of a job. -/
def State.wholeSpan (s : State) (j : BitVec 15) : Target := .job j 0 (s.lastRank j)

/-- A fence in force on a port covers a job (R253). -/
def State.fencedFrom (s : State) (p : Nat) (j : BitVec 15) : Bool :=
  (s.link .jup p).fences.any fun f => (f.domain || decide (f.job = j)) && decide (f.tick ≤ s.now .jup)

/-- Down ports that lead to a target, by path or by the runs that meet its ranks; fenced ranks are left out (R287). -/
def State.targetPorts (s : State) (t : Target) : List Nat :=
  match t with
  | .path p => match s.pathPort p with | some (some k) => [k] | _ => []
  | .job j a b => ((((s.jobRuns j).filter fun m => decide (m.first ≤ b ∧ a ≤ m.last ∧ m.port.toNat < 88) && !s.fencedFrom m.port.toNat j).map
      fun m => m.port.toNat).eraseDups)
  | _ => []

/-- The target of a STAGE from its word alone: ranks where a job or a last rank stands, else a path (assumption 80). -/
def stageTarget (w : Word) : Target :=
  if fld w 63 32 ≠ 0 then jobTarget w else if w = 0 then .self else .path (w.extractLsb' 0 32)

/-- The target names the Jupin itself. -/
def State.namesSelf (s : State) (t : Target) : Bool :=
  match t with
  | .self => true
  | .path p => decide (p = s.selfPath .jup)
  | _ => false

/-! ### The hot-standby in groups (R264 to R266) -/

/-- The peer-port routes of a takeover are open: the hot-standby passes on what comes for the side it stands for, and the
survivor takes it from the hot-standby once its own peer group is DOWN (R250, R265, R266; assumption 61). -/
def State.inTakeover (s : State) : Bool :=
  if s.side = 2 then !s.jup.takeover.isEmpty
  else [90, 91, 92, 93].all fun n => decide ((s.link .jup n).ctl.lstate ≠ .service)
/-- The hot-standby's two links to a member (R264). -/
def standbyLinks (sideB : Bool) : List Nat := if sideB then [95, 91] else [94, 90]
/-- At the hot-standby in a takeover, the link to the survivor: what the parents send for the lost side goes on there (R266). -/
def State.survivorPort (s : State) : Nat := s.linkOf (standbyLinks (!s.jup.takeover.contains true)) 0
/-- A member's link to the hot-standby, where one serves. -/
def State.standbyLink (s : State) : Option Nat :=
  if s.side = 2 then none else [94, 95].find? fun n => decide ((s.link .jup n).ctl.lstate = .service)
/-- The path word of the hot-standby (R17). -/
def State.standbyPath (s : State) : BitVec 32 := (s.selfPath .jup &&& 0x1FFFFFFF) ||| put 32 31 29 3
/-- Links on which a member answers: both uplinks and the peer group. The hot-standby answers the members of its pair, and the parents
too once it stands for one of them; a survivor answers it with the others. -/
def State.answerLinks (s : State) (key : Nat) : List Nat :=
  if s.side = 2 then (if s.inTakeover then [88, 89] else []) ++ s.pairPorts key
  else [88, 89, s.peerPort key] ++ (if s.inTakeover then s.standbyLink.toList else [])
/-- Ports by which a stage goes on, given the ports that lead to its target: from the hot-standby to the survivor alone; and where it
came from a parent, side A passes it to the hot-standby, which is a member of every group that touches its pair (R264). -/
def State.stageDown (s : State) (from_ : Nat) (ports : List Nat) : List Nat :=
  let parents := decide (from_ = 88 ∨ from_ = 89)
  if s.side = 2 then (if parents && s.inTakeover then [s.survivorPort] else [])
  else if parents && decide (s.side = 0 ∧ (s.link .jup 94).ctl.lstate = .service) then ports ++ [94] else ports

/-! ### Records -/

def State.group (s : State) (d : Dev) (h : Half) : Option MemberGroup := (s.com d).groups.find? fun g => decide (g.handle = h)
def State.coordGroup (s : State) (d : Dev) (h : Half) : Option CoordGroup := (s.com d).coord.find? fun g => decide (g.handle = h)
def State.modGroup (s : State) (d : Dev) (h : Half) (f : MemberGroup → MemberGroup) : State :=
  s.modCom d fun c => { c with groups := updFirst (fun g => decide (g.handle = h)) f c.groups }
def State.modCoord (s : State) (d : Dev) (h : Half) (f : CoordGroup → CoordGroup) : State :=
  s.modCom d fun c => { c with coord := updFirst (fun g => decide (g.handle = h)) f c.coord }
def State.dropGroup (s : State) (d : Dev) (h : Half) : State :=
  s.modCom d fun c => { c with groups := c.groups.filter fun g => !decide (g.handle = h) }
def State.dropCoord (s : State) (d : Dev) (h : Half) : State :=
  s.modCom d fun c => { c with coord := c.coord.filter fun g => !decide (g.handle = h) }

/-- The devices below and beside the coordinator that take a group's messages. -/
def State.groupLinks (s : State) (d : Dev) (g : MemberGroup) : List Nat :=
  match d with
  | .tsu => []
  | .jup => if (s.coordGroup .jup g.handle).isSome then g.ports ++ s.pairPorts g.handle.toNat else g.ports

/-- A staged write of the die-side registers (R352, R430). -/
def dieSide (w : StagedWrite) : Bool := decide (0x10000 ≤ w.offset.toNat)

/-- A member drops its staged writes (R354); a die discards what it handed to the commit port (R430). -/
def State.discardGroup (s : State) (d : Dev) (h : Half) : State :=
  match s.group d h with
  | none => s
  | some g => (if d = .tsu && g.writes.any dieSide then s.emit .dregDiscard else s).dropGroup d h

/-- Results of a group that does not commit: Tc and the counts are zero, then the reason and the path. -/
def abortResults (reason : BitVec 8) (path : BitVec 32) : List Word := [0, 0, put 64 39 32 reason.toNat ||| put 64 31 0 path.toNat]

/-- The status of a group that is refused for a reason: GROUP_LIMIT and TOO_EARLY have their own (R351, R353). -/
def abortStatus (reason : BitVec 8) : BitVec 8 := if reason = stGroupLimit ∨ reason = stTooEarly then reason else stAborted

/-- A refusal comes from a die in supply warning, whose job commands are tried again: known at its rack pair, free above it
(R339; assumption 172). -/
def State.warnRefused (s : State) (reason : BitVec 8) (path : BitVec 32) : Bool × State :=
  if reason ≠ stAborted then (false, s)
  else match s.pathPort path with
    | some (some p) => if s.role = 1 then (s.jup.warned.contains p, s) else (s.fresh.1.getLsbD 0, s.fresh.2)
    | _ => (false, s)

/-- The coordinator releases ABORT, and the group is posted with the reason and the path (R354). A group that serves a job
command keeps its outcome for the command. -/
def State.abortCoord (s : State) (d : Dev) (h : Half) (reason : BitVec 8) (path : BitVec 32) : State :=
  match s.coordGroup d h with
  | none => s
  | some g =>
    let links := match s.group d h with | some m => s.groupLinks d m | none => []
    let s1 := (s.sendAll d links (groupMsg 6 0 reason h 0 [])).discardGroup d h
    match g.serves with
    | some _ =>
      let r := s1.warnRefused reason path
      r.2.modCoord d h fun g => { g with outcome := some (abortStatus reason, put 64 39 32 reason.toNat ||| put 64 31 0 path.toNat), retry := r.1 }
    | none => (s1.dropCoord d h).post d h (abortStatus reason) (abortResults reason path)

/-- A group open here that includes the child on a port, when a fence on it is scheduled (R29): aborted if its COMMIT has not
been released; else the fence tick is after Tc. A Jupin that does not coordinate refuses toward the coordinator. -/
def State.fenceOneGroup (s : State) (p : Nat) (g : MemberGroup) : State :=
  if !g.ports.contains p || g.committed then s
  else
    match s.coordGroup .jup g.handle with
    | some c => if c.state = .committed then s else s.abortCoord .jup g.handle stAborted (s.childPath p)
    | none =>
      (s.modGroup .jup g.handle fun g => { g with refused := some (stAborted, s.childPath p), answered := true, denied := true }).sendAll .jup
        (s.answerLinks g.handle.toNat) (groupMsg 4 0 stAborted g.handle (s.childPath p).toNat [])

def State.fenceGroups (s : State) (p : Nat) : State := s.jupC.groups.foldl (fun s g => s.fenceOneGroup p g) s

/-- The tick of a fence on a port after the commits already released (R29). -/
def State.fenceAfter (s : State) (p : Nat) (t : Tick) : Tick :=
  s.jupC.groups.foldl (fun t g => match g.tc with
    | some tc => if g.ports.contains p && g.committed && decide (t ≤ tc) then tc + 1 else t
    | none => t) t

end Sys2Proof.Machine
end

