-- ==== Sys2Proof/Machine/Votes.lean ====
section
/-! DEFINITION. Votes: results and selectors at a TSU, contributions, partials and deadlines at a Jupin stage
(R26, R30, R173 to R185, R200 to R202, R269, R275). -/
namespace Sys2Proof.Machine
open Host

/-! ## At the TSU (R30, R177 to R179, R196, R203) -/

/-- A run of `n` ones from bit `start`, stopping at bit 63 (R196). -/
def onesRun (start n : Nat) : Word := (BitVec.ofNat 64 (2 ^ n - 1)) <<< start

/-- The die word of a SCATTER result. -/
def scatterWord (runM1 : Nat) (rank : BitVec 17) (ws : List Word) : Word :=
  ws.foldl (fun acc w =>
    if w.getLsbD 40 && !w.getLsbD 39 && decide (w.extractLsb' 22 17 = rank) then acc ||| onesRun (fld w 21 16) (min 64 (runM1 + 1)) else acc) 0

/-- The die word of a format entry (R179): COMMON, SCATTER or MASK. -/
def dieWord (entry : Word) (rank : BitVec 17) (mask : Word) (ws : List Word) : Word :=
  match fld entry 38 37 with
  | 0 => nthW ws 0
  | 1 => scatterWord (fld entry 36 31) rank ws
  | _ => mask

/-- A pending VOTE of a channel, by field. -/
def Prog.votePend (p : Prog) (f : Nat) : Option PendVote := p.pend.find? fun v => decide (v.field = f) && !v.done

def State.modPend (s : State) (c f : Nat) (g : PendVote → PendVote) : State :=
  s.modProg c fun p => { p with pend := updFirst (fun v => decide (v.field = f) && !v.done) g p.pend }

/-- GATE_STATE takes the outcome of the gate (R188). -/
def State.settleGate (s : State) (c : Nat) (passed : Bool) : State :=
  (s.modPend c 4 fun v => { v with done := true }).modProg c fun p => { p with gate := if passed then 2 else 3 }

/-- The selector becomes FAILED with VOTE_MISSING (R30, R148, R179). -/
def State.settleFailed (s : State) (c : Nat) (v : PendVote) : State :=
  ((s.modPend c v.field fun v => { v with done := true }).modChan c fun x =>
    { x with voteLast := tmod {} x.voteLast v.field fun l => { l with state := 3, tick := v.validTick.setWidth 32 },
             prog := if v.nosel then x.prog else { x.prog with states := tset .valid x.prog.states v.sel .failed } }).raiseChan c
    cVoteMissing { group := v.group }

/-- The die result goes to its slot and selector (R179, R423). -/
def State.settleValid (s : State) (c : Nat) (v : PendVote) (status : BitVec 7) (ws : List Word) : State :=
  (((if v.nosel then s else s.sramWrite 2 c v.sel).modPend c v.field fun v => { v with done := true }).modChan c fun x =>
    { x with voteLast := tmod {} x.voteLast v.field fun l => { l with state := 2, status := status, tick := v.validTick.setWidth 32 },
             prog := if v.nosel then x.prog else
               { x.prog with sels := tset 0 x.prog.sels v.sel (nthW ws 0), states := tset .valid x.prog.states v.sel .valid,
                             selTick := tset none x.prog.selTick v.sel (some v.validTick) } }).emit
    (.vres (fld v.entry 30 23) ws)

/-- A pending VOTE settles on its VALID_TICK. Where no result has come the channel holds at its next boundary too (R30), with
HOLD_CAUSE 3 (assumption 168). -/
def State.settle (s : State) (c : Nat) (v : PendVote) : State :=
  if v.field = 4 then
    match v.result with
    | some (failed, _, _) => s.settleGate c (!failed)
    | none => (s.settleGate c false).raiseChan c cVoteMissing { group := v.group }
  else match v.result with
    | some (false, status, ws) => s.settleValid c v status ws
    | some (true, _, _) => s.settleFailed c v
    | none => (s.settleFailed c v).wantHold c 3

/-- The VOTE whose outcome is due on this tick. -/
def State.settleDue (s : State) (c f : Nat) : Option PendVote :=
  match (s.chan c).prog.votePend f with
  | some v => if v.validTick = s.now .tsu then some v else none
  | none => none

def execSelectorValid (c : Fin 8) (field : Fin 5) (s : State) : Res :=
  match s.settleDue c field with
  | some v => .next (s.settle c v)
  | none => .next s

/-- A result matches a VOTE of the channel's current step by JOB, GROUP and STEP_LO (R179). -/
def resultMatches (x : Chan) (job : BitVec 15) (group : BitVec 12) (stepLo : BitVec 16) : Option PendVote :=
  if (x.state = .running ∨ x.state = .stopped) ∧ x.job = job ∧ x.step.setWidth 16 = stepLo then
    x.prog.pend.find? fun v => decide (v.group = group)
  else none

/-- A result of a matched VOTE: the die word is formed; after its VALID_TICK it counts as late and never as a result; a
failed gate without a VALID_TICK applies on arrival (R30, R177, R203). -/
def State.takeResult (s : State) (c : Nat) (v : PendVote) (ws : List Word) : State :=
  let w0 := nthW ws 0
  let w1 := nthW ws 1
  let failed := w0.getLsbD 16
  let lo : Half := w1.extractLsb' 32 32
  let vt := if lo = 0 then v.validTick else nearTick (s.now .tsu) lo
  let die := dieWord v.entry (s.chan c).rank (nthW ws 2) (ws.drop 3) :: ws.drop 3
  if v.done then s.modTsu fun t => { t with voteLate := satInc t.voteLate }
  else if failed ∧ lo = 0 ∧ v.field = 4 then s.settleGate c false
  else if vt < s.now .tsu then
    (s.modTsu fun t => { t with voteLate := satInc t.voteLate }).settle c { v with result := none }
  else s.modPend c v.field fun v => { v with validTick := vt, result := some (failed, w1.extractLsb' 0 7, die) }

/-- A result that matches no VOTE is discarded, counts as STRAY and raises VOTE_STRAY (R179). -/
def State.strayResult (s : State) (ws : List Word) : State :=
  let lo : Half := (nthW ws 1).extractLsb' 32 32
  let late := decide (lo ≠ 0 ∧ nearTick (s.now .tsu) lo < s.now .tsu)
  (s.modTsu fun t => { t with voteStray := satInc t.voteStray,
                              voteLate := if late then satInc t.voteLate else t.voteLate }).raiseFault .tsu (blkCmd .tsu)
    cVoteStray { group := (nthW ws 0).extractLsb' 20 12 }

def State.resultHits (s : State) (ws : List Word) : List (Nat × PendVote) :=
  let w0 := nthW ws 0
  chanNums.filterMap fun c =>
    (resultMatches (s.chan c) (w0.extractLsb' 49 15) (w0.extractLsb' 20 12) (w0.extractLsb' 0 16)).map fun v => (c, v)

/-- The channels whose gate a FAILED result without a VALID_TICK fails on its arrival, before their gate VOTE has acted: of the
job and step, and of their GATE_GROUP (R177). -/
def State.earlyFails (s : State) (ws : List Word) : List Nat :=
  let w0 := nthW ws 0
  if w0.getLsbD 16 ∧ fld (nthW ws 1) 63 32 = 0 then
    chanNums.filter fun c =>
      let x := s.chan c
      decide (x.state = .running ∨ x.state = .stopped) && !x.prog.gateVoted &&
      decide (x.job = w0.extractLsb' 49 15 ∧ x.step.setWidth 16 = w0.extractLsb' 0 16 ∧ s.gateGroup c = w0.extractLsb' 20 12)
  else []

def State.voteResult (s : State) (ws : List Word) : State :=
  if !(s.resultHits ws).isEmpty then (s.resultHits ws).foldl (fun s (c, v) => s.takeResult c v ws) s
  else if !(s.earlyFails ws).isEmpty then (s.earlyFails ws).foldl (fun s c => s.modProg c fun p => { p with gate := 3 }) s
  else s.strayResult ws

def execVoteResultRx (words : List Word) (s : State) : Res :=
  s.stepIn .tsu fun s => (s.consume .tsu 0 mtResult words).voteResult words

/-! ## At a Jupin stage -/

/-- Deadline for a stage's inputs, and the forwarding tick, after VOTE_TICK (R180). -/
def stageDeadline (role : Nat) : Nat := if role = 2 then 800 else if role = 3 then 1792 else 248
def stageForward (role span : Nat) : Nat :=
  if role = 1 then (if span = 1 then 328 else 312) else if role = 2 then (if span = 2 then 880 else 864) else 1872

/-- An open vote's inputs are all there. -/
def State.ctxFull (s : State) (v : VoteCtx) : Bool :=
  (s.expectedOf v.job (grpBase v.group.toNat) v.beginTick).all fun k => v.got.contains k

/-- Another vote of the same step of the job is open here. -/
def State.stepOpen (s : State) (v : VoteCtx) : Bool :=
  s.jup.stage.votes.any fun (_, e) => match e with
    | some u => !u.gate && decide (u.job = v.job ∧ u.stepLo = v.stepLo ∧ u.beginTick = v.beginTick)
    | none => false

/-- An INPUT record of the rank's step has been accepted and is not yet durable (R275). -/
def State.undurable (s : State) (job : BitVec 15) (stepLo : BitVec 16) : Bool :=
  decide (s.role = 1) && s.jup.journal.any fun (_, r) =>
    decide (r.job = job ∧ r.kind = 1 ∧ r.step.setWidth 16 = stepLo) && !r.durable

/-- A reduction of the step has failed here (R182). -/
def State.stepFailed (s : State) (v : VoteCtx) : Bool :=
  s.jup.stage.failedSteps.contains (v.job, v.stepLo, v.beginTick)

/-- An INPUT record of the step was refused or failed its CRC (R273, R277). -/
def State.inputBad (s : State) (job : BitVec 15) (stepLo : BitVec 16) : Bool :=
  s.jup.stage.badInputs.any fun e => decide (e.1 = job ∧ e.2.setWidth 16 = stepLo)

/-- The gate of a step passes at this stage (R182, R188, R273, R275, R277, R355). -/
def State.gatePasses (s : State) (v : VoteCtx) : Bool :=
  decide (v.acc = .gate true) && !s.stepFailed v && !s.undurable v.job v.stepLo && !s.inputBad v.job v.stepLo &&
    !s.jup.stage.partialJobs.contains v.job

/-- A failed gate leaves the step to be run again; at the top a COMMIT returns RERUN to 0 (R326). -/
def State.gateOver (s : State) (v : VoteCtx) (failed top : Bool) : State :=
  if failed then s.noteRerun v.job v.stepLo
  else if top then s.setJobWord v.job 0 (s.jobWord v.job 0 &&& 0xFFFFFFFFFFFF00FF) else s

/-- The vote leaves the stage: its status, and for a gate the end of the step here. A gate that passes at a lower stage is
settled there by the result that comes down. -/
def State.closeVote (s : State) (v : VoteCtx) (failed : Bool) (o : VoteOut) (missing : List (Bool × Nat)) : State :=
  let g := v.group.toNat
  let s1 := (s.setVote g none).modGrp g fun x =>
    { x with state := if failed then 3 else 2, status := if failed then 0 else o.status, stepLo := v.stepLo,
             beginTick := v.beginTick, missing := missing.take 8, missingRest := missing.length - 8,
             result := if failed ∨ v.gate then x.result else o.words }
  if v.gate then
    let s2 := s1.modStage fun t =>
      { t with failedSteps := t.failedSteps.filter fun e => !decide (e.1 = v.job ∧ e.2.1 = v.stepLo),
               badInputs := t.badInputs.filter fun e => !decide (e.1 = v.job ∧ e.2.setWidth 16 = v.stepLo) }
    let top := ((s.groupRec v.group).map fun g => s.isTop g.span).getD true
    let s3 := s2.gateOver v failed top
    if failed then s3.gateSettled v.job false v.beginTick v.stepLo
    else if top then (s3.gateSettled v.job true v.beginTick v.stepLo).noteCommit v.job v.stepLo else s3
  else if failed then s1.modStage fun t => { t with failedSteps := (v.job, v.stepLo, v.beginTick) :: t.failedSteps }
  else s1

/-- VALID_TICK of a vote at the top; zero when every input was EARLY (R177, R178). -/
def validOf (span : Nat) (v : VoteCtx) : Half :=
  match v.voteTick with
  | some t => (t + BitVec.ofNat 64 (decisionLead span)).setWidth 32
  | none => 0

/-- When a stage's partial leaves: now, or a failed one at its forwarding tick; `atOnce` for an EARLY gate, and where no
VOTE_TICK is known (R177, R180, R181). -/
def State.partialTick (s : State) (v : VoteCtx) (span : Nat) (failed atOnce : Bool) : Tick :=
  match v.voteTick with
  | some t =>
    let f := t + BitVec.ofNat 64 (stageForward s.role span)
    if failed && !atOnce && decide (s.now .jup < f) then f else s.now .jup
  | none => s.now .jup

/-- The top multicasts a result; a lower stage sends its partial up (R178, R180, R181). -/
def State.sendStage (s : State) (v : VoteCtx) (span : Nat) (failed : Bool) (o : VoteOut) (atOnce : Bool := false) : State :=
  if s.isTop span then
    s.sendAll .jup (s.memberPorts v.job (grpBase v.group.toNat) v.beginTick)
      (jobMsg mtResult (resultWords v.job v.group v.stepLo failed (validOf span v) o))
  else
    s.emit (.votePartial (s.upPort v.job)
      { job := v.job, group := v.group, gate := v.gate, failed := failed, stepLo := v.stepLo,
        voteTick := match v.voteTick with | some t => t.setWidth 32 | none => 0,
        beginTick := v.beginTick.setWidth 32, acc := if failed then .none else v.acc }
      (s.partialTick v span failed atOnce))

/-- The divergence record of a mismatch (R200, R283), and its fault; injected, INJ_DIGEST in its place (R323). -/
def State.divergence (s : State) (v : VoteCtx) (inj : Bool) (o : VoteOut) (ms : List (BitVec 17)) : State :=
  let w := nthW o.words 0
  let path (r : BitVec 17) : Word :=
    match s.runOfRank v.job r.toNat v.beginTick with | some m => (s.childPath m.port.toNat).setWidth 64 | none => 0
  let rec_ : List Word := [v.job.setWidth 64, fullStep (tget none s.jup.stage.committed v.job.toNat) v.stepLo, v.group.setWidth 64, bit1 64 63 inj ||| put 64 3 0 (fld w 3 0),
    put 64 15 0 (fld w 47 32)] ++ ms.map path ++ [s.now .jup]
  let s1 := if s.jup.stage.divLog.length < 256 then s.modStage fun t => { t with divLog := t.divLog ++ [rec_] }
            else s.modStage fun t => { t with divOverflow := satInc t.divOverflow }
  s1.raiseStage (if inj then cInjDigest else cDivergence) { group := v.group, index := BitVec.ofNat 16 (fld w 3 0) }

/-- The result of a vote at the top, with what follows from it (R200, R202). -/
def State.topResult (s : State) (g : GroupRec) (v : VoteCtx) : State :=
  let inj := (s.grpStat v.group.toNat).inj
  let o := finishAcc g (s.codewordsOf g) inj v.acc
  let bad := g.op = 13 ∧ o.status.getLsbD 5
  let s1 := (s.sendStage v g.span false o).closeVote v false o []
  let s2 := if g.op = 13 then s1.modGrp v.group.toNat fun x => { x with inj := false } else s1
  let s3 := if bad then
      let d := s2.divergence v inj o (match v.acc with | .digest ms => ms.map Prod.fst | _ => [])
      if g.divFail then d.modStage fun t => { t with failedSteps := (v.job, v.stepLo, v.beginTick) :: t.failedSteps } else d
    else s2
  if o.status.getLsbD 0 && g.nanFault then s3.raiseStage cVoteNan { group := v.group } else s3

/-- A vote or gate that fails at this stage (R181). -/
def State.failVote (s : State) (g : GroupRec) (v : VoteCtx) (missing : List (Bool × Nat)) (atOnce : Bool := false) : State :=
  (s.sendStage v g.span true {} atOnce).closeVote v true {} missing

/-- A vote that is complete at this stage goes on; a job whose commit this Jupin missed fails every vote (R355). -/
def State.finishVote (s : State) (g : GroupRec) (v : VoteCtx) : State :=
  if s.jup.stage.partialJobs.contains v.job then s.failVote g v []
  else if s.isTop g.span then s.topResult g v else (s.sendStage v g.span false {}).closeVote v false {} []

/-- A gate with every input, once no other vote of its step is open here. -/
def State.finishGate (s : State) (g : GroupRec) (v : VoteCtx) : State :=
  if s.gatePasses v then (s.sendStage v g.span false {}).closeVote v false {} [] else s.failVote g v []

/-- The gates of a job that waited for the last open vote of their step, or for a durable record. -/
def State.retryGates (s : State) (job : BitVec 15) : State :=
  s.jup.stage.votes.foldl (fun s (_, e) =>
    match e with
    | some v =>
      if v.gate ∧ v.job = job then
        match s.groupRec v.group with
        | some g => if s.ctxFull v && !s.stepOpen v && !s.undurable v.job v.stepLo then s.finishGate g v else s
        | none => s
      else s
    | none => s) s

/-- An input has been folded into an open vote: it goes on when complete. -/
def State.afterFold (s : State) (g : GroupRec) (v : VoteCtx) : State :=
  if !s.ctxFull v then s.setVote v.group.toNat (some v)
  else if v.gate then
    if s.stepOpen v || s.undurable v.job v.stepLo then s.setVote v.group.toNat (some v) else s.finishGate g v
  else (s.finishVote g v).retryGates v.job

/-- A stray input (R176). -/
def State.strayInput (s : State) (port : Nat) (group : BitVec 12) : State :=
  (s.modGrp group.toNat fun x => { x with stray := satInc x.stray }).raisePort port cVoteStray { group := group }

/-- One input of a vote at a stage: who sent it, and what it carries. -/
structure VoteInput where
  job : BitVec 15
  group : BitVec 12
  gate : Bool
  failed : Bool
  early : Bool
  stepLo : BitVec 16
  voteTick : Option Tick
  beginTick : Tick
  key : Nat
  acc : Acc
  deriving DecidableEq, Repr

/-- The context that the first input of a vote opens. -/
def VoteInput.ctx (i : VoteInput) : VoteCtx :=
  { job := i.job, group := i.group, gate := i.gate, stepLo := i.stepLo, voteTick := i.voteTick, beginTick := i.beginTick, got := [i.key], acc := i.acc }

/-! ### Contexts of the reducer units (R267, R269) -/

/-- Tree units of a group with their part: 1 leaf, 2 inner, 3 root. -/
def State.treeUnits (s : State) (g : Nat) : List (Nat × Nat) :=
  ((List.range 14).flatMap fun i => (List.range 4).map fun k => fld (s.reg64 .jup (grpBase g + 8 * (18 + i))) (16 * k + 15) (16 * k)).filterMap
    fun v => if v / 2 ^ 14 = 0 then none else some (v / 2 ^ 14, v % 256)
/-- Valid slots of a unit: whether a slot takes a unit, and the number. -/
def State.unitSlots (s : State) (u : Nat) : List (Bool × Nat) :=
  ((List.range 8).map fun k => s.reg .jup (0x98000 + 0x20 * u + 4 * k)).filterMap fun v =>
    if v.getLsbD 31 then some (v.getLsbD 30, fld v 7 0) else none
/-- The inputs that a vote expects by a port. -/
def State.portKeys (s : State) (v : VoteCtx) (p : Nat) : List Nat :=
  (s.expectedOf v.job (grpBase v.group.toNat) v.beginTick).filter fun k =>
    if s.role = 1 then (s.runOfRank v.job k v.beginTick).any fun m => decide (m.port.toNat = p) else decide (k = p)
/-- Of a unit in a vote's tree: an input has reached it, and all have. An inner unit takes the partials of units that are done; the
8 ticks of a unit are not shown. -/
def State.unitState (s : State) (v : VoteCtx) (units : List Nat) : Nat → Nat → Bool × Bool
  | 0, _ => (false, false)
  | n + 1, u =>
    let slots : List (Bool × Bool) := (s.unitSlots u).filterMap fun e =>
      if e.1 then (if units.contains e.2 then some ((s.unitState v units n e.2).2, (s.unitState v units n e.2).2) else none)
      else match s.portKeys v e.2 with
        | [] => none
        | ks => some (ks.any v.got.contains, ks.all v.got.contains)
    (slots.any Prod.fst, slots.all Prod.snd)
/-- Units of a vote that an input has reached. -/
def State.unitsBegun (s : State) (v : VoteCtx) : List Nat :=
  let us := s.treeUnits v.group.toNat
  (us.filter fun e => (s.unitState v (us.map Prod.snd) 4 e.2).1).map Prod.snd
/-- Units in which an open vote holds a context: one that has all its inputs has sent its partial on, but for the root unit, whose
output is the stage's own. -/
def State.unitsHeld (s : State) (v : VoteCtx) : List Nat :=
  let us := s.treeUnits v.group.toNat
  (us.filter fun e => (s.unitState v (us.map Prod.snd) 4 e.2).1 && (decide (e.1 = 3) || !(s.unitState v (us.map Prod.snd) 4 e.2).2)).map Prod.snd
/-- An input takes a vote to a unit, all of whose 32 contexts other votes hold (R269). -/
def State.contextFull (s : State) (old : Option VoteCtx) (new : VoteCtx) : Bool :=
  let was := match old with | some v => s.unitsBegun v | none => []
  (s.unitsBegun new).any fun u => !was.contains u &&
    decide (32 ≤ s.jup.stage.votes.countP fun (_, e) => e.any fun x => decide (x.group ≠ new.group) && (s.unitsHeld x).contains u)

/-- Two values of VOTE_TICK or BEGIN_TICK in one vote (R176); an EARLY input's VOTE_TICK is not compared (R177). -/
def tickSkew (v : VoteCtx) (i : VoteInput) : Bool :=
  decide (v.beginTick ≠ i.beginTick) ||
  (match v.voteTick, i.voteTick with | some a, some b => decide (a ≠ b) | _, _ => false)

/-- An input after its stage's deadline (R181). -/
def State.inputLate (s : State) (i : VoteInput) : Bool :=
  match i.voteTick with | some t => decide (t + BitVec.ofNat 64 (stageDeadline s.role) < s.now .jup) | none => false

/-- It is discarded and counted; a vote of which it is the first input here has failed at its deadline (R181, R182). -/
def State.lateInput (s : State) (i : VoteInput) : State :=
  let n := i.group.toNat
  let st := s.grpStat n
  let s1 := s.modGrp n fun x => { x with late := satInc x.late }
  if i.gate || (s.voteCtx n).isSome || decide (2 ≤ st.state.toNat ∧ st.stepLo = i.stepLo ∧ st.beginTick = i.beginTick) then s1
  else s1.modStage fun t => { t with failedSteps := (i.job, i.stepLo, i.beginTick) :: t.failedSteps }

/-- Fold an input of the contributor set (R176 to R182). -/
def State.foldInput (s : State) (port : Nat) (g : GroupRec) (i : VoteInput) : State :=
  let n := i.group.toNat
  let st := s.grpStat n
  if s.inputLate i then s.lateInput i
  else match s.voteCtx n with
  | none =>
    if decide (st.state = 2 ∨ st.state = 3) && decide (st.stepLo = i.stepLo ∧ st.beginTick = i.beginTick) then
      if st.state = 3 then s.modGrp n fun x => { x with late := satInc x.late } else s.strayInput port i.group
    else
      let v := i.ctx
      let s1 := s.modGrp n fun x => { x with state := 1, stepLo := i.stepLo, beginTick := i.beginTick, status := 0,
                                             missing := [], missingRest := 0 }
      if s.contextFull none v then ((s1.raiseStage cVoteContextFull { group := i.group }).failVote g v []).retryGates i.job
      else if i.failed ∨ i.early then (s1.failVote g v [] i.early).retryGates i.job
      else s1.afterFold g v
  | some v =>
    if v.got.contains i.key then s.strayInput port i.group
    else
      let w := { v with got := i.key :: v.got, acc := mergeAcc g v.acc i.acc,
                        voteTick := match v.voteTick with | some t => some t | none => i.voteTick }
      if tickSkew v i then ((s.raiseStage cVoteTickSkew { group := i.group }).failVote g w []).retryGates i.job
      else if s.contextFull (some v) w then ((s.raiseStage cVoteContextFull { group := i.group }).failVote g w []).retryGates i.job
      else if i.failed ∨ i.early then (s.failVote g w [] i.early).retryGates i.job
      else s.afterFold g w

/-- A contribution as an input of its group (R175, R177). -/
def contribInput (g : GroupRec) (now : Tick) (ws : List Word) : VoteInput :=
  let w0 := nthW ws 0
  let w1 := nthW ws 1
  let vt : Half := w1.extractLsb' 32 32
  let early := w0.getLsbD 17 && decide (fld w0 19 18 = 1)
  { job := w0.extractLsb' 49 15, group := w0.extractLsb' 20 12, gate := w0.getLsbD 17, failed := false, early := early,
    stepLo := w0.extractLsb' 0 16, voteTick := if early then none else some (nearTick now vt),
    beginTick := nearTick now (w1.extractLsb' 0 32), key := fld w0 48 32,
    acc := liftAcc g (w0.extractLsb' 32 17) (w0.getLsbD 16) (ws.drop 2) }

/-- The contribution is of the job's active side on this port, and its rank is a member (R172, R176). -/
def State.contribOk (s : State) (port : Nat) (i : VoteInput) : Bool :=
  (s.expectedOf i.job (grpBase i.group.toNat) i.beginTick).contains i.key &&
  match s.runOfRank i.job i.key i.beginTick with
  | some m => decide (m.port.toNat = port ∧ m.side.toNat = s.ownSide)
  | none => false

def State.contribution (s : State) (port : Nat) (ws : List Word) : State :=
  let group : BitVec 12 := (nthW ws 0).extractLsb' 20 12
  match s.groupRec group with
  | none => s.strayInput port group
  | some g =>
    let i := contribInput g (s.now .jup) ws
    if g.job = i.job ∧ s.role = 1 ∧ s.contribOk port i then s.foldInput port g i else s.strayInput port group

def execVoteContributionRx (port : Nat) (words : List Word) (s : State) : Res :=
  .next ((s.consume .jup port mtVote words).contribution port words)

/-- A partial as an input (R180). -/
def partialInput (now : Tick) (port : Nat) (p : VotePartial) : VoteInput :=
  { job := p.job, group := p.group, gate := p.gate, failed := p.failed, early := false, stepLo := p.stepLo,
    voteTick := if p.voteTick = 0 then none else some (nearTick now p.voteTick),
    beginTick := nearTick now p.beginTick, key := port, acc := p.acc }

def State.partialIn (s : State) (port : Nat) (p : VotePartial) : State :=
  match s.groupRec p.group with
  | none => s.strayInput port p.group
  | some g =>
    let i := partialInput (s.now .jup) port p
    if g.job = p.job ∧ (s.expectedOf p.job (grpBase p.group.toNat) i.beginTick).contains port then s.foldInput port g i
    else s.strayInput port p.group

def execVotePartialRx (port : Nat) (p : VotePartial) (s : State) : Res := .next (s.partialIn port p)

/-! ### VOTE_DEADLINE (R26, R181, R182, R275) -/

/-- The open vote of a group whose deadline at this stage is now. -/
def State.deadlineDue (s : State) (g : Nat) : Option VoteCtx :=
  match s.voteCtx g with
  | some v =>
    match v.voteTick with
    | some t => if s.now .jup = t + BitVec.ofNat 64 (stageDeadline s.role) then some v else none
    | none => none
  | none => none

/-- The expected inputs that have not arrived: ranks at a rack Jupin, ports above. -/
def State.missingInputs (s : State) (v : VoteCtx) : List (Bool × Nat) :=
  ((s.expectedOf v.job (grpBase v.group.toNat) v.beginTick).filter fun k => !v.got.contains k).map fun k => (decide (s.role ≠ 1), k)

/-- A vote or gate that lacks inputs at its deadline fails. -/
def State.lackAt (s : State) (g : GroupRec) (v : VoteCtx) (m : List (Bool × Nat)) : State :=
  (s.failVote g v m).raiseStage cVoteMissing { group := v.group, detail := detail m.length }

/-- A vote at its deadline. -/
def State.endVote (s : State) (g : GroupRec) (v : VoteCtx) : State :=
  let m := s.missingInputs v
  if m.isEmpty then s.finishVote g v else s.lackAt g v m

/-- The open votes of a gate's step whose deadline is now come before it (R182). -/
def State.votesFirst (s : State) (v : VoteCtx) : State :=
  s.jup.stage.votes.foldl (fun s e =>
    match s.deadlineDue e.1, s.groupRec (BitVec.ofNat 12 e.1) with
    | some u, some g => if !u.gate && decide (u.job = v.job ∧ u.stepLo = v.stepLo) then s.endVote g u else s
    | _, _ => s) s

/-- A lacking input fails the vote; a gate that has all its inputs is judged now. -/
def State.atDeadline (s : State) (g : GroupRec) (v : VoteCtx) : State :=
  if v.gate then
    let s1 := s.votesFirst v
    let m := s1.missingInputs v
    if m.isEmpty then s1.finishGate g v else s1.lackAt g v m
  else (s.endVote g v).retryGates v.job

def execVoteDeadline (group : BitVec 12) (s : State) : Res :=
  match s.deadlineDue group.toNat, s.groupRec group with
  | some v, some g => .next (s.atDeadline g v)
  | _, _ => .next s

end Sys2Proof.Machine
end

