-- ==== Sys2Proof/Machine/Sync.lean ====
section
/-! DEFINITION. Synchronisation objects, remote signals and Conjunctions (R142 to R144, R204 to R231, R422 to R426). -/
namespace Sys2Proof.Machine
open Host

/-! ### Waits (R142, R144, R207 to R210, R228, R229) -/

/-- A wait is satisfied: a taker takes its count, the channel goes on, a core is told. -/
def State.satisfy (s : State) (r : WaitRec) : State :=
  let s1 := s.dropWait r.who
  let s2 := if r.cond = 3 then s1.putSlot r.core r.slot (s1.slotVal (slotKey r.core r.slot) - r.count) else s1
  match r.who with
  | .chan c => s2.modProg c.toNat fun p => { p with readyTick := s.now .tsu }
  | .core n => s2.answerCore n 0 r.tag

def execWaitSatisfied (w : Waiter) (s : State) : Res :=
  match s.waitOf w with
  | none => .next s
  | some r =>
    if s.condHolds r && (decide (r.cond ≠ 3) || s.firstTaker r) then
      .next (s.sramRead 0 (cfgOwner (s.slotCfg r.core r.slot)) (slotKey r.core r.slot) fun s => s.satisfy r)
    else .next s

/-- Expiry of a wait with a TIMEOUT: it is unsatisfied TIMEOUT ticks after its action tick. -/
def State.timeoutDue (s : State) (w : Waiter) : Option WaitRec :=
  match s.waitOf w with
  | some r => if r.timeout ≠ 0 ∧ s.now .tsu = r.tick + r.timeout.setWidth 64 ∧ !s.condHolds r then some r else none
  | none => none

def execSyncTimeout (w : Waiter) (s : State) : Res :=
  match s.timeoutDue w with
  | some r => .next (s.expireWait r cSyncTimeout 16)
  | none => .next s

/-- Expiry of a wait with TIMEOUT 0 after 2^WD_LOG2 ticks. -/
def State.watchdogDue (s : State) (w : Waiter) : Option WaitRec :=
  match s.waitOf w with
  | some r => if r.timeout = 0 ∧ s.now .tsu = r.tick + BitVec.ofNat 64 (s.wdTicks r.ch) ∧ !s.condHolds r then some r else none
  | none => none

def execStepWatchdog (w : Waiter) (s : State) : Res :=
  match s.watchdogDue w with
  | some r => .next (s.expireWait r cWatchdog 17)
  | none => .next s

/-! ### Core operations (R205 to R210, R220, R422) -/

/-- A core runs a stream of a launch (R136). -/
def Stream.names (st : Stream) (core : Nat) : Bool := st.places.any fun e => decide (e.1 = core)

/-- The later of two LAUNCHes: channel and action tick; the first where they share a tick. -/
def laterLaunch (a b : Option (Nat × Tick)) : Option (Nat × Tick) :=
  match a, b with
  | some x, some y => if x.2 < y.2 then b else a
  | none, _ => b
  | _, none => a
/-- The last stream of a channel's step that names a core. -/
def State.lastStream (s : State) (core : BitVec 11) (c : Nat) : Option (Nat × Tick) :=
  ((s.chan c).prog.streams.find? fun st => Stream.names st core.toNat).map fun st => (c, st.tick)
/-- The channel whose stream the core is running: of those that name it, the stream launched last (R205). -/
def State.actingChan (s : State) (core : BitVec 11) : Option Nat :=
  (chanNums.foldl (fun a c => laterLaunch a (s.lastStream core c)) none).map Prod.fst

/-- A refused core operation (R205, R422). -/
def State.coreRefused (s : State) (r : CoreReq) : State :=
  let s1 := s.answerCore r.core 2 r.tag
  match s.actingChan r.core with
  | some c => s1.badObject c r.core r.slot r.tag
  | none => s1.raiseFault .tsu (blkChan (cfgOwner (s.slotCfg r.core r.slot))) cSyncBadObject { core := r.core, slot := r.slot, index := r.tag }

/-- The checks of R205 and R210 on a core's request. -/
def State.coreAllowed (s : State) (r : CoreReq) (op : Nat) : Bool :=
  (match s.actingChan r.core with | some c => s.opAllowed c r.core r.slot op | none => false) &&
  !((decide (4 ≤ op ∧ op ≤ 8)) && (s.waitOf (.core r.core)).isSome) && !(r.remote && decide (2 < op))

/-- The wait a core's request opens (R142, R210). -/
def CoreReq.wait (r : CoreReq) (ch : Nat) (cond : Nat) (tick : Tick) (round : BitVec 16) : WaitRec :=
  { who := .core r.core, ch := ch, core := r.core, slot := r.slot, cond := cond, count := r.count, timeout := r.timeout,
    tag := r.tag, tick := tick, round := round }

/-- SET, CLEAR and GIVE, local or remote. -/
def State.coreRemote (s : State) (r : CoreReq) (eg : EgAns) (op : Nat) : State :=
  match s.actingChan r.core with
  | none => s.coreRefused r
  | some c =>
    let s1 := if eg.path = noPath then s.answerCore r.core 2 r.tag else s
    s1.remoteSignal c eg r.rank r.core r.slot op r.count r.tag

def State.coreChange (s : State) (r : CoreReq) (eg : EgAns) (op : Nat) : State :=
  if r.remote then s.coreRemote r eg op
  else if s.coreAllowed r op then s.objOp r.core r.slot op r.count r.core
  else s.coreRefused r

def execCoreSet (r : CoreReq) (eg : EgAns) (s : State) : Res := s.mainIn fun s => s.coreChange r eg 0
def execCoreClear (r : CoreReq) (eg : EgAns) (s : State) : Res := s.mainIn fun s => s.coreChange r eg 1
def execCoreGive (r : CoreReq) (eg : EgAns) (s : State) : Res := s.mainIn fun s => s.coreChange r eg 2
def execCoreTake (r : CoreReq) (s : State) : Res :=
  s.mainIn fun s => if s.coreAllowed r 3 then s.objOp r.core r.slot 3 r.count r.core else s.coreRefused r

/-- A core begins to wait with a condition of R141. -/
def State.coreWait (s : State) (r : CoreReq) (cond : Nat) : State :=
  if s.coreAllowed r (4 + cond) then
    s.modSync fun y => { y with waits := y.waits ++ [CoreReq.wait r ((s.actingChan r.core).getD 0) cond (s.now .tsu) 0] }
  else s.coreRefused r

def execCoreWaitSet (r : CoreReq) (s : State) : Res := s.mainIn fun s => s.coreWait r 0
def execCoreWaitClear (r : CoreReq) (s : State) : Res := s.mainIn fun s => s.coreWait r 1
def execCoreWaitCount (r : CoreReq) (s : State) : Res := s.mainIn fun s => s.coreWait r 2
def execCoreWaitTake (r : CoreReq) (s : State) : Res := s.mainIn fun s => s.coreWait r 3

def execCoreEnter (r : CoreReq) (s : State) : Res :=
  s.mainIn fun s =>
    if s.coreAllowed r 8 then
      s.enterConj r.core r.slot r.tag fun round =>
        some (CoreReq.wait r ((s.actingChan r.core).getD 0) 4 (s.now .tsu) round)
    else s.coreRefused r

def execCoreArrive (r : CoreReq) (s : State) : Res :=
  s.mainIn fun s => if s.coreAllowed r 9 then s.enterConj r.core r.slot r.tag (fun _ => none) else s.coreRefused r

/-! ### Remote signals (R212 to R216, R425) -/

def sigRun (ws : List Word) : BitVec 8 := (nthW ws 0).extractLsb' 7 8
def sigSrc (ws : List Word) : BitVec 17 := (nthW ws 0).extractLsb' 15 17
def sigCore (ws : List Word) : BitVec 11 := (nthW ws 1).extractLsb' 53 11
def sigSlot (ws : List Word) : BitVec 6 := (nthW ws 1).extractLsb' 47 6
def sigOp (ws : List Word) : Nat := fld (nthW ws 1) 46 45
def sigPath (ws : List Word) : Half := (nthW ws 1).extractLsb' 0 32

/-- The bound channel that serves a rank of a job on this die. -/
def State.servingChan (s : State) (job : BitVec 15) (rank : BitVec 17) : Option Nat :=
  chanNums.find? fun c => decide ((s.chan c).state ≠ .unbound ∧ (s.chan c).job = job ∧ (s.chan c).rank = rank)

/-- A watch tag not in use. -/
def State.freeTag (s : State) : BitVec 8 :=
  BitVec.ofNat 8 (((List.range 256).find? fun n => !s.tsu.sync.held.any fun h => decide (h.tag.toNat = n)).getD 0)

/-- OP 3 suits no KIND (R205). -/
def sigOpCode (ws : List Word) : Nat := if sigOp ws = 3 then 15 else sigOp ws

def State.signalIn (s : State) (ws : List Word) : State :=
  match s.servingChan ((nthW ws 0).extractLsb' 49 15) ((nthW ws 0).extractLsb' 32 17) with
  | none => s.modSync fun y => { y with stray := satInc y.stray }
  | some c =>
    if sigRun ws ≠ (s.chan c).run then s.modSync fun y => { y with stale := satInc y.stale }
    else if !s.opAllowed c (sigCore ws) (sigSlot ws) (sigOpCode ws) then s.badObject c (sigCore ws) (sigSlot ws) 0xFFFF
    else if 256 ≤ s.tsu.sync.held.length then
      (s.modSync fun y => { y with holdFull := true }).stepFault c cSyncHoldFull
        { core := sigCore ws, slot := sigSlot ws, index := (sigSrc ws).setWidth 16, detail := ((sigSrc ws) >>> 16).setWidth 15 }
    else
      (s.modSync fun y => { y with held := y.held ++ [{ tag := s.freeTag, words := ws, ch := c, arrival := s.now .tsu, reached := none }] }).emit
        (.watch (sigPath ws) ((nthW ws 2).extractLsb' 32 32) s.freeTag)

def execRemoteSignalRx (words : List Word) (s : State) : Res :=
  s.stepIn .tsu fun s => (s.consume .tsu 0 mtSignal words).signalIn words

def execNiWatchReport (tag : BitVec 8) (s : State) : Res :=
  s.mainIn fun s => s.modSync fun y =>
    { y with held := updFirst (fun h => decide (h.tag = tag ∧ h.reached = none)) (fun h => { h with reached := some (s.now .tsu) }) y.held }

/-- The tick on which a held signal becomes visible (R215). -/
def HeldSig.visible (h : HeldSig) : Option Tick :=
  h.reached.map fun r => if r + 16 < h.arrival + 32 then h.arrival + 32 else r + 16

/-- The held signal of a tag, when its hold has ended and no earlier one from its source is held. -/
def State.visibleDue (s : State) (tag : BitVec 8) : Option HeldSig :=
  match s.tsu.sync.held.find? fun h => decide (h.tag = tag) with
  | none => none
  | some h =>
    let first := s.tsu.sync.held.find? fun k => decide (sigPath k.words = sigPath h.words)
    match HeldSig.visible h with
    | some t => if t ≤ s.now .tsu ∧ first = some h then some h else none
    | none => none

def execSignalVisible (tag : BitVec 8) (s : State) : Res :=
  match s.visibleDue tag with
  | none => .next s
  | some h =>
    .next ((s.modSync fun y => { y with held := y.held.filter fun k => !decide (k.tag = tag) }).objOp
      (sigCore h.words) (sigSlot h.words) (sigOp h.words) ((nthW h.words 1).extractLsb' 37 8) 0x7FF)

/-! ### Debug writes (R230, R295) -/

/-- A debug write that is ignored sets DENIED. -/
def State.dbgIgnored (s : State) : State := s.modSync fun y => { y with denied := true }

/-- A debug write under a CONTROL session on a slot of the kind it suits is accepted, and acts on the next tick. -/
def State.dbgObject (s : State) (core : BitVec 11) (slot : BitVec 6) (kind op : Nat) (v : BitVec 8) : State :=
  if s.tsuC.sec.session ≠ .control then s.dbgIgnored.denied .tsu
  else if cfgKind (s.slotCfg core slot) ≠ kind then s.dbgIgnored
  else s.modSync fun y => { y with dbgOps := y.dbgOps ++ [(core, slot, op, v, s.now .tsu + 1)] }

/-- A debug write acts: SET 0, CLEAR 1, PRESET 2, FORCE_RELEASE 3, whose release comes 64 ticks later. It touches the object, and
a forced release the record too (R295). -/
def State.dbgAct (s : State) (core : BitVec 11) (slot : BitVec 6) (op : Nat) (v : BitVec 8) : State :=
  let owner := cfgOwner (s.slotCfg core slot)
  let s1 := match op with
    | 0 => s.putSlot core slot 1
    | 1 => s.putSlot core slot 0
    | 2 => s.putSlot core slot v
    | _ => s.modSync fun y => { y with forced := y.forced ++ [(cfgRec (s.slotCfg core slot), s.now .tsu + 64)] }
  let touched := if op = 3 then [owner, conjOwner (s.conjCfg (cfgRec (s.slotCfg core slot)))].eraseDups else [owner]
  touched.foldl (fun s c => (s.modChan c fun x => { x with debug := true }).repeatBroken c { core := core, slot := slot }) s1

/-- The debug writes of this tick act after everything else of it (R209, R230). -/
def State.dbgDue (s : State) : State :=
  (s.tsu.sync.dbgOps.filter fun e => decide (e.2.2.2.2 ≤ s.now .tsu)).foldl (fun s e => s.dbgAct e.1 e.2.1 e.2.2.1 e.2.2.2.1)
    (s.modSync fun y => { y with dbgOps := y.dbgOps.filter fun e => !decide (e.2.2.2.2 ≤ s.now .tsu) })

/-- Responses leave on four lanes, the lower cores first; the others wait (R422). -/
def State.answerCores (s : State) : State :=
  let go := (sortBy (fun (e : BitVec 11 × Nat × BitVec 16 × Tick) => e.1.toNat)
    (s.tsu.sync.rsps.filter fun e => decide (e.2.2.2 ≤ s.now .tsu))).take 4
  (go.foldl (fun s e => s.emit (.syncRsp e.1 e.2.1 e.2.2.1)) s).modSync fun y =>
    { y with rsps := go.foldl (fun l e => dropOne e l) y.rsps }

def execDbgSet (core : BitVec 11) (slot : BitVec 6) (s : State) : Res := .next (s.dbgObject core slot 1 0 0)
def execDbgClear (core : BitVec 11) (slot : BitVec 6) (s : State) : Res := .next (s.dbgObject core slot 1 1 0)
def execDbgPreset (core : BitVec 11) (slot : BitVec 6) (v : BitVec 8) (s : State) : Res := .next (s.dbgObject core slot 2 2 v)
def execDbgForceRelease (core : BitVec 11) (slot : BitVec 6) (s : State) : Res := .next (s.dbgObject core slot 3 3 0)

def execForceReleaseApply (rec : BitVec 12) (s : State) : Res :=
  s.due (s.tsu.sync.forced.contains (rec.toNat, s.now .tsu)) fun s =>
    (s.modSync fun y => { y with forced := dropOne (rec.toNat, s.now .tsu) y.forced }).releaseRec rec.toNat (s.now .tsu) false

/-! ### Rounds on the die (R221, R223 to R225, R426) -/

/-- The drain is done: the arrivals leave, and the next drain begins. -/
def State.drainOver (s : State) : State :=
  let s1 := s.tsu.sync.drain.foldl (fun s e =>
    s.send .tsu (s.upOf (conjOwner (s.conjCfg e.1))) (jobMsg mtConjArrive (s.arrivalWords e.1 e.2))) (s.emit (.drainReq false))
  let s2 := s1.modSync fun y => { y with drain := y.drainNext, drainNext := [], drainOn := !y.drainNext.isEmpty }
  if s2.tsu.sync.drainOn then s2.emit (.drainReq true) else s2

def execDrainDone (s : State) : Res := s.mainIn fun s => if s.tsu.sync.drainOn then s.drainOver else s

/-- The release tick of a record is now. -/
def State.releaseDue (s : State) (rec : Nat) : Bool := decide ((s.conjRec rec).release = some (s.now .tsu))

def execLocalConjRelease (rec : BitVec 12) (s : State) : Res :=
  s.due (s.releaseDue rec.toNat && decide (conjSpan (s.conjCfg rec.toNat) = 0)) fun s => s.releaseRec rec.toNat (s.now .tsu) false

def execConjReleaseApply (rec : BitVec 12) (s : State) : Res :=
  s.due (s.releaseDue rec.toNat && decide (conjSpan (s.conjCfg rec.toNat) ≠ 0)) fun s => s.releaseRec rec.toNat (s.now .tsu) false

/-- The records of a job's Conjunction group on this die. -/
def State.groupRecs (s : State) (job : BitVec 15) (group : BitVec 12) : List Nat :=
  ((s.listed .tsu 0x03020000 0x4000 4).map fun o => (o - 0x03020000) / 4).filter fun r =>
    let cfg := s.conjCfg r
    decide (conjCount cfg ≠ 0 ∧ conjGroup cfg = group ∧ conjSpan cfg ≠ 0 ∧ (s.chan (conjOwner cfg)).state ≠ .unbound ∧
      (s.chan (conjOwner cfg)).job = job)

/-- Channels that own a waiter or an entry of a record's open round; the entries counted are the owner's. -/
def State.roundChans (s : State) (rec : Nat) : List Nat :=
  sortBy id (((if (s.conjRec rec).cur = 0 then [] else [conjOwner (s.conjCfg rec)]) ++ (s.releasedWaits rec).map WaitRec.ch).eraseDups)

/-- A failed round (R225). -/
def State.conjFailed (s : State) (rec : Nat) (group : BitVec 12) : State :=
  let cs := s.roundChans rec
  let ctx : Ctx := { group := group }
  cs.foldl (fun s c => s.stopStep c 4 cConjFailed ctx) (s.raiseChan (conjOwner (s.conjCfg rec)) cConjFailed ctx)

/-- A release for one record (R212, R223, R224). -/
def State.releaseIn (s : State) (ws : List Word) (rec : Nat) : State :=
  s.recRead rec fun s =>
  let w0 := nthW ws 0
  let x := s.conjRec rec
  if w0.extractLsb' 10 8 ≠ (s.chan (conjOwner (s.conjCfg rec))).run then s.modSync fun y => { y with stale := satInc y.stale }
  else if w0.getLsbD 19 ≠ x.round.getLsbD 0 then s.modSync fun y => { y with stray := satInc y.stray }
  else if w0.getLsbD 18 then s.conjFailed rec (w0.extractLsb' 20 12)
  else
    let r := nearTick (s.now .tsu) ((nthW ws 1).extractLsb' 32 32)
    if r < s.now .tsu then s.releaseRec rec r true else s.modConj rec fun x => { x with release := some r }

def State.releaseMsg (s : State) (ws : List Word) : State :=
  let rs := s.groupRecs ((nthW ws 0).extractLsb' 49 15) ((nthW ws 0).extractLsb' 20 12)
  if rs.isEmpty then s.modSync fun y => { y with stray := satInc y.stray }
  else rs.foldl (fun s r => s.releaseIn ws r) s

def execConjReleaseRx (words : List Word) (s : State) : Res :=
  s.stepIn .tsu fun s => (s.consume .tsu 0 mtConjRelease words).releaseMsg words

/-! ### CONJ_ARRIVAL_RX (R219, R222, R223, R225) -/

/-- An arrival discarded as stray (R222). -/
def State.strayArrival (s : State) (port g : Nat) : State :=
  (s.modConjStage g fun x => { x with stray := satInc x.stray }).raisePort port cConjStray { group := BitVec.ofNat 12 g }

/-- Every expected port has arrived for the open round: the arrival goes up, or the top fixes the release tick. A round that
has failed here sends nothing more. -/
def State.roundFull (s : State) (g : Nat) (job : BitVec 15) (span : Nat) (begin_ : Tick) : State :=
  let x := s.conjStage g
  if !x.failed && (s.memberPorts job (conjGrpBase g) begin_).all fun p => x.cur.contains p then
    if s.isTop span then s.sendRelease g job (s.now .jup + BitVec.ofNat 64 (releaseLead span)) begin_
    else s.send .jup (s.upPort job) (jobMsg mtConjArrive
      [conjWord0 job g x.round false true (s.jobRun job), put 64 63 32 begin_.toNat ||| put 64 15 0 x.stepLo.toNat])
  else s

/-- An arrival is of the job's active side on this port, its rank a participant, its RUN the job's (R222). -/
def State.arrivalOk (s : State) (port g : Nat) (job : BitVec 15) (ws : List Word) (begin_ : Tick) : Bool :=
  let w0 := nthW ws 0
  decide (w0.extractLsb' 10 8 = s.jobRun job) &&
  (if w0.getLsbD 9 then
     (s.memberPorts job (conjGrpBase g) begin_).contains port &&
     (s.runsAt begin_).any fun m => decide (m.job = job ∧ m.port.toNat = port ∧ m.side.toNat = s.ownSide)
   else
    match s.runOfRank job (fld w0 48 32) begin_ with
    | some m => decide (m.port.toNat = port ∧ m.side.toNat = s.ownSide) &&
                (s.memberRanges (conjGrpBase g) begin_).any fun r => decide (r.1 ≤ fld w0 48 32 ∧ fld w0 48 32 ≤ r.2)
    | none => false)

/-- A second arrival of a port for one round: the open rounds fail (R222). -/
def State.arrivalOverrun (s : State) (port g : Nat) (begin_ : Tick) (lo : BitVec 16) : State :=
  (s.raisePort port cConjOverrun { group := BitVec.ofNat 12 g }).failRound g begin_ lo

/-- Every expected port has arrived early, for the round after the open one: a stage below the top forwards its arrival at
once (R222). -/
def State.earlyFull (s : State) (g : Nat) (job : BitVec 15) (span : Nat) (begin_ : Tick) : State :=
  let x := s.conjStage g
  if !s.isTop span && !x.nextFailed && !x.nextSent && (s.memberPorts job (conjGrpBase g) begin_).all fun p => x.next.contains p then
    (s.send .jup (s.upPort job) (jobMsg mtConjArrive
      [conjWord0 job g (x.round + 1) false true (s.jobRun job), put 64 63 32 begin_.toNat ||| put 64 15 0 x.nextStep.toNat])).modConjStage g
      fun x => { x with nextSent := true }
  else s

/-- Count an arrival of the open round, or an early one (R222). -/
def State.countArrival (s : State) (port g : Nat) (job : BitVec 15) (span : Nat) (begin_ : Tick) (early : Bool) (step : BitVec 16) : State :=
  let x := s.conjStage g
  if (if early then x.next else x.cur).contains port then s.arrivalOverrun port g begin_ step
  else if early then
    (s.modConjStage g fun x => { x with next := port :: x.next, nextBegin := some begin_, nextStep := step, returned := none }).earlyFull g
      job span begin_
  else
    (s.modConjStage g fun x => { x with cur := port :: x.cur, beginTick := some begin_, stepLo := step, returned := none }).roundFull g
      job span begin_

/-- A failed arrival fails its round here; one of a gate that has returned the group already does not move it again (R226). -/
def State.failedArrival (s : State) (g : Nat) (early : Bool) (run : BitVec 8) (begin_ : Tick) (lo : BitVec 16) : State :=
  if (s.conjStage g).returned = some run then s else s.failOne g early begin_ lo

def State.arrival (s : State) (port : Nat) (ws : List Word) : State :=
  let w0 := nthW ws 0
  let g := fld w0 31 20
  match s.conjGroupRec g with
  | none => s.strayArrival port g
  | some (job, span) =>
    let begin_ := nearTick (s.now .jup) ((nthW ws 1).extractLsb' 32 32)
    if job ≠ w0.extractLsb' 49 15 ∨ !s.arrivalOk port g job ws begin_ then s.strayArrival port g
    else
      let x := s.conjStage g
      let early := decide (w0.getLsbD 19 ≠ x.round.getLsbD 0)
      let lo := (nthW ws 1).extractLsb' 0 16
      if w0.getLsbD 18 then s.failedArrival g early (w0.extractLsb' 10 8) begin_ lo
      else if (if early then x.nextBegin else x.beginTick).any fun b => decide (b ≠ begin_) then
        (s.strayArrival port g).failOne g early begin_ lo
      else s.countArrival port g job span begin_ early lo

def execConjArrivalRx (port : Nat) (words : List Word) (s : State) : Res :=
  .next ((s.consume .jup port mtConjArrive words).arrival port words)

/-- A release of the job's RUN that passes a stage: the open round's opens the next, and early arrivals that already make that
one whole go up (R222); a failed one fails its round here, unless a gate has returned the group since (R225, R226). -/
def State.releaseMoves (s : State) (g : Nat) (job : BitVec 15) (span : Nat) (w0 : Word) : State :=
  let x := s.conjStage g
  let openRound := decide (w0.getLsbD 19 = x.round.getLsbD 0)
  if w0.extractLsb' 10 8 ≠ s.jobRun job then s
  else if w0.getLsbD 18 then
    if x.returned = some (w0.extractLsb' 10 8) then s
    else s.modConjStage g fun x => if openRound then { x with failed := true } else { x with nextFailed := true }
  else if !openRound then s
  else
    let s1 := s.modConjStage g ConjStage.advance
    match (s1.conjStage g).beginTick with
    | some t => if x.nextSent then s1 else s1.roundFull g job span t
    | none => s1

/-- A release that passes a stage goes on to every member below. -/
def State.releasePasses (s : State) (ws : List Word) : State :=
  let g := fld (nthW ws 0) 31 20
  match s.conjGroupRec g with
  | none => s
  | some (job, span) =>
    (s.sendAll .jup (s.memberPorts job (conjGrpBase g) ((s.conjStage g).beginTick.getD (s.now .jup))) (jobMsg mtConjRelease ws)).releaseMoves
      g job span (nthW ws 0)

/-! ### TIMEOUT_RECORD_CLEAR (R228) -/

def execTimeoutRecordClear (s : State) : Res :=
  .next (s.modSync fun y => { y with timeout := y.timeout &&& ~~~((1 : BitVec 128) <<< 127) })

end Sys2Proof.Machine
end

