-- ==== Sys2Proof/Machine/Routing.lean ====
section
/-! DEFINITION. Messages in a Jupin: paths, trees, delivery reports, fences at a port (R249 to R254). -/
namespace Sys2Proof.Machine

/-! ## Ports -/

/-- A route from port `i` out of port `o` keeps to R250; a message to a rank below turns down at the Jupin above both
(R217). Port 128 stands for this Jupin itself. -/
def State.routeOk (s : State) (i o : Nat) : Bool :=
  if i = o then false
  else if i < 88 then decide (o < 90)
  else if i < 90 then decide (o < 88) || (decide (90 ≤ o) && decide (s.side = 2) && s.inTakeover)
  else if i < 96 then decide (o < 88) && decide (s.side ≠ 2) && decide (s.farSide i = 2) && s.inTakeover
  else true

/-- MTYPEs of STEP and BULK, which a fence may discard and a member's port may hold (R253, R355). -/
def isTime (m : BitVec 8) : Bool := decide (m.toNat < 0x10)
def isBulk (m : BitVec 8) : Bool := decide (0x20 ≤ m.toNat)

/-- The job a message names: votes, results, signals, Conjunctions, peer fences of a job and journal appends in bits [63:49]
of their first word, a command to a job in those of its second (R175, R178, R213, R224, R254, R273, R342). -/
def msgJob (m : Msg) : Option (BitVec 15) :=
  if (0x11 ≤ m.mtype.toNat ∧ m.mtype.toNat ≤ 0x15) ∨ m.mtype = mtAppend ∨ (m.mtype = mtPeerFence ∧ (nthW m.words 0).getLsbD 48 = false) then
    some ((nthW m.words 0).extractLsb' 49 15)
  else if m.mtype = mtCommand ∧ fld (nthW m.words 0) 33 32 = 2 then some ((nthW m.words 1).extractLsb' 49 15)
  else none
/-- The jobs a message belongs to: the one it names, or those of its commit group. -/
def State.msgJobs (s : State) (m : Msg) : List (BitVec 15) :=
  if m.mtype = mtGroup then match s.group .jup (msgGroup m.words) with | some g => g.jobs | none => []
  else (msgJob m).toList

/-- Handle and kind of a message whose delivery is reported: bits [31:0] and [63:56] of the first word of a command and
of a commit-group message (R252, R342, R357). -/
def msgHandle (m : Msg) : Option (Half × BitVec 8) :=
  let w := nthW m.words 0
  if (m.mtype = mtCommand ∨ m.mtype = mtGroup) ∧ w.extractLsb' 0 32 ≠ 0 then some (w.extractLsb' 0 32, w.extractLsb' 56 8) else none

/-- A fence covers a message of some jobs at a tick (R253). -/
def Fence.covers (f : Fence) (m : Msg) (js : List (BitVec 15)) (t : Tick) : Bool :=
  decide (f.tick ≤ t) && !isTime m.mtype && (f.domain || js.contains f.job)
def fenced (fs : List Fence) (m : Msg) (js : List (BitVec 15)) (t : Tick) : Bool := fs.any fun f => f.covers m js t

/-! ## The receive buffers (R247) -/

/-- Frames of a port's STEP or BULK buffer leave it: their credits go back with the next headers. -/
def LinkRx.free (r : LinkRx) (bulk : Bool) (k : Nat) : LinkRx :=
  if bulk then { r with heldBulk := r.heldBulk - k, freedBulk := r.freedBulk + k }
  else { r with heldStep := r.heldStep - k, freedStep := r.freedStep + k }
/-- A message leaves the buffer it came by: consumed, discarded, or launched on its way. -/
def State.leave (s : State) (d : Dev) (m : Msg) : State :=
  match m.src with
  | some i => if m.frames = 0 then s else s.modRx d i fun r => r.free (isBulk m.mtype) m.frames
  | none => s
/-- Copies of a message to several ports: the buffer is free once the last has left (R251). -/
def State.sendCopies (s : State) (ps : List Nat) (m : Msg) : State :=
  match ps.reverse with
  | [] => s.leave .jup m
  | p :: rest => (s.sendAll .jup rest.reverse { m with src := none, frames := 0 }).send .jup p m

/-! ## Delivery reports (R252) -/

/-- Deliveries whose message this Jupin sent itself. -/
def ownPort : Nat := 128

def treeBase (t : Nat) : Nat := 0x00B00000 + 0x200 * t
/-- The job and the down ports of a tree, in ascending order (R251, R469). -/
def State.treePorts (s : State) (t : Nat) : List Nat :=
  if (s.reg64 .jup (treeBase t)).getLsbD 0 then
    (List.range 88).filter fun p => (s.reg64 .jup (treeBase t + 8 * (1 + p / 64))).getLsbD (p % 64)
  else []
/-- Ports that a tree's messages leave by: at the hot-standby, in a takeover, the link to the survivor (R266). -/
def State.treeOut (s : State) (t : Nat) : List Nat :=
  if s.side = 2 then (if s.inTakeover && !(s.treePorts t).isEmpty then [s.survivorPort] else []) else s.treePorts t
/-- The job of a valid tree entry. -/
def State.treeJob (s : State) (t : Nat) : Option (BitVec 15) :=
  let w := s.reg64 .jup (treeBase t)
  if w.getLsbD 0 then some (w.extractLsb' 49 15) else none
def State.treeExpect (s : State) (t p : Nat) : Nat := fld (s.reg .jup (treeBase t + 24 + 4 * p)) 16 0
/-- The trees of a job. -/
def State.jobTrees (s : State) (job : BitVec 15) : List Nat :=
  ((s.listed .jup 0x00B00000 0x200000 0x200).map fun o => (o - 0x00B00000) / 0x200).filter fun t =>
    let w := s.reg64 .jup (treeBase t)
    w.getLsbD 0 && decide (w.extractLsb' 49 15 = job)

def State.delivery (s : State) (h : Half) (kind : BitVec 8) : Option Delivery :=
  s.jupC.deliveries.find? fun x => decide (x.handle = h ∧ x.kind = kind)

/-- Every port has delivered or been fenced: a report goes toward the origin, or the origin posts (R252, R350). -/
def State.finishDelivery (s : State) (x : Delivery) : State :=
  let s1 := s.modCom .jup fun c => { c with deliveries := dropOne x c.deliveries }
  let counts : Word := put 64 63 32 x.delivered ||| put 64 31 0 x.expected
  if x.fromPort ≠ ownPort then
    s1.send .jup x.fromPort (localMsg mtDelivery [put 64 63 32 x.handle.toNat, counts])
  else match x.results with
    | some ws => s1.post .jup x.handle stOk (ws ++ [counts])
    | none =>
      let add (g : CoordGroup) : CoordGroup := { g with delivered := g.delivered + x.delivered, expected := g.expected + x.expected }
      s1.modCom .jup fun c => { c with coord := updFirst (fun g => decide (g.handle = x.handle)) add c.coord }

/-- A port's part of a delivery is over, with the dies it delivered to. -/
def State.portDelivered (s : State) (x : Delivery) (p n : Nat) : State :=
  let y := { x with left := x.left.filter fun e => !decide (e.1 = p), delivered := x.delivered + n }
  if y.left.isEmpty then
    (s.modCom .jup fun c => { c with deliveries := updFirst (fun z => decide (z = x)) (fun _ => y) c.deliveries }).finishDelivery y
  else s.modCom .jup fun c => { c with deliveries := updFirst (fun z => decide (z = x)) (fun _ => y) c.deliveries }

def State.routeErr (s : State) (p : Nat) : State := s.modLink .jup p fun l => { l with routeErrs := l.routeErrs + 1 }

/-- Every rank that the job's record counts is reached from here, or this is a root: no message of the job goes further up. -/
def State.wholeHere (s : State) (j : BitVec 15) : Bool :=
  let n := ((((s.mapRuns.map Prod.snd).filter fun m => decide (m.job = j ∧ m.port.toNat < 88)).map fun m =>
    m.last.toNat + 1 - m.first.toNat)).foldl (· + ·) 0
  decide (s.role = 3) || (s.jobRec j).isSome && decide (fld (s.jobWord j 0) 48 32 + 1 ≤ n)

/-- This side of the pair carries STEP traffic of a job: it is the active side of some of the job's ranks here (R16). -/
def State.activeHere (s : State) (j : BitVec 15) : Bool :=
  let runs := (s.mapRuns.map Prod.snd).filter fun m => decide (m.job = j)
  runs.isEmpty || runs.any fun m => decide (m.side.toNat = s.ownSide)
/-- This side is the active side of a job's ranks behind a down port; of a port with none of them, as for the job (R16). -/
def State.activeAt (s : State) (j : BitVec 15) (p : Nat) : Bool :=
  let runs := (s.mapRuns.map Prod.snd).filter fun m => decide (m.job = j ∧ m.port.toNat = p)
  if runs.isEmpty then s.activeHere j else runs.any fun m => decide (m.side.toNat = s.ownSide)
/-- The job of a message that only the active side delivers: all STEP traffic of a job but commit-group messages and peer
fences (R16). -/
def stepJob (m : Msg) : Option (BitVec 15) := if isBulk m.mtype || decide (m.mtype = mtPeerFence) then none else msgJob m
/-- A message may pass a port on this side. -/
def State.sideOk (s : State) (p : Nat) (m : Msg) : Bool :=
  match stepJob m with
  | some j => decide (88 ≤ p) || s.activeAt j p
  | none => true

/-- A fence in force on a port covers a message. -/
def State.fencedAt (s : State) (p : Nat) (m : Msg) : Bool := fenced (s.link .jup p).fences m (s.msgJobs m) (s.now .jup)
/-- Messages discarded at ports. -/
def State.countDiscards (s : State) (ps : List Nat) : State :=
  ps.foldl (fun s p => s.modLink .jup p fun l => { l with discards := l.discards + 1 }) s

/-- Copies of a MULTICAST message in ascending port order, each in its link's stream; a nonzero handle opens the count
of its delivery (R251, R252). A copy back to the port it came by is a route error (R250); at a port already fenced it is
discarded, and the dies behind it count as expected and not delivered (R253). Job traffic takes the ports of which this side is
the active one (R16). -/
def State.multicast (s : State) (from_ : Nat) (m : Msg) (results : Option (List Word)) : State :=
  let t := fld m.addr 11 0
  let all := (s.treeOut t).filter fun p => s.sideOk p m
  let ok := all.filter fun p => s.routeOk from_ p
  let s0 := if all.length = ok.length then s else s.routeErr from_
  let ps := ok.filter fun p => !s.fencedAt p m
  let s1 := (s0.countDiscards (ok.filter fun p => s.fencedAt p m)).sendCopies ps m
  match msgHandle m with
  | none => s1
  | some (h, kind) =>
    let x : Delivery := { handle := h, kind := kind, results := results, fromPort := from_, left := ps.map fun p => (p, none),
                          delivered := 0, jobs := s.msgJobs m,
                          expected := (((if s.side = 2 then s.treePorts t else ok).map fun p => s.treeExpect t p).foldl (· + ·) 0) }
    if ps.isEmpty then s1.finishDelivery x else s1.modCom .jup fun c => { c with deliveries := c.deliveries ++ [x] }

/-! ## Forwarding -/

/-- A message discarded by a fence is counted at the port; the delivery it carries ends there uncounted (R253). -/
def State.discardAt (s : State) (d : Dev) (p : Nat) (m : Msg) : State :=
  let s1 := (s.modLink d p fun l => { l with discards := l.discards + 1 }).leave d m
  match msgHandle m with
  | some (h, k) => match s1.delivery h k with
    | some x => if x.left.any fun e => decide (e.1 = p) then s1.portDelivered x p 0 else s1
    | none => s1
  | none => s1

/-- Plate data of a die, in order of R388: its third word gives the total. A whole plate enters the archive (R389). -/
def plateOf (ws : List Word) : Plate :=
  let w0 := nthW ws 0
  let w2 := nthW ws 2
  { id := w0.extractLsb' 48 16, set := w0.extractLsb' 44 4, tick := nthW ws 1, level := w0.extractLsb' 42 2, masked := w0.getLsbD 41,
    present := w2.extractLsb' 48 16, absent := w2.extractLsb' 32 16, words := ws, reading := false }
def State.plateIn (s : State) (n : Nat) (ws : List Word) : State :=
  let all := tget [] s.jupC.shut.platePart n ++ ws
  if 3 ≤ all.length ∧ fld (nthW all 2) 31 0 ≤ all.length then
    s.modShut .jup fun x => { x with platePart := tset [] x.platePart n [], archive := (s.childPath n, plateOf all) :: x.archive }
  else s.modShut .jup fun x => { x with platePart := tset [] x.platePart n all }

/-! The bytes of a flow (R248). -/

/-- WINDOW of a flow: as the image sets it, within 4 KiB and 16 MiB, else 256 KiB. -/
def State.windowOf (s : State) (d : Dev) (f : BitVec 10) : Nat :=
  if (s.com d).sec.sealedImg then
    match Config.flowWindow (s.com d).sec.imageDigest f with
    | some w => max 4096 (min w 16777216)
    | none => 262144
  else 262144
def Link.flow (l : Link) (w : Nat) (f : BitVec 10) : Flow :=
  (l.flows.find? fun x => decide (x.num = f)).getD { num := f, window := w, sent := 0, credit := 0, consumed := 0, reported := 0 }
def Link.setFlow (l : Link) (x : Flow) : Link := { l with flows := x :: l.flows.filter fun y => !decide (y.num = x.num) }
def State.flow (s : State) (d : Dev) (n : Nat) (f : BitVec 10) : Flow := (s.link d n).flow (s.windowOf d f) f

/-- The destination of a flow has consumed a message: a window update goes back each quarter window. -/
def State.consumeBulk (s : State) (d : Dev) (n : Nat) (m : Msg) : State :=
  if m.mtype.toNat < 0x20 ∨ 0x24 ≤ m.mtype.toNat then s
  else
    let f := s.flow d n m.flow
    let got := f.consumed + 8 * m.words.length
    if f.reported + f.window / 4 ≤ got then
      (s.modLink d n fun l => l.setFlow { f with consumed := got, reported := got }).send d n
        { mtype := mtWindow, route := 0, flow := m.flow, addr := 0, words := [BitVec.ofNat 64 (got % 2 ^ 48)] }
    else s.modLink d n fun l => l.setFlow { f with consumed := got }

/-- A flow goes on from port `i` out of port `o`: window updates for it go back the same way. -/
def State.flowVia (s : State) (i o : Nat) (m : Msg) : State :=
  if isBulk m.mtype && decide (m.mtype.toNat < 0x24) then s.modLink .jup o fun l => l.setFlow { s.flow .jup o m.flow with via := some i }
  else s

/-- In DARK a STEP message waits in the receive buffer, and so does a BULK one until the wake's restore (R397, R398). -/
def State.darkHolds (s : State) (d : Dev) (m : Msg) : Bool :=
  decide (d = .tsu ∧ s.tsu.power.state = 4) && !isTime m.mtype && !(isBulk m.mtype && s.tsu.power.darkWake)
/-- A message delivered here is consumed: it waits in the inbox for the command that acts on it; plate data goes to the
archive. -/
def State.deliverMsg (s : State) (d : Dev) (n : Nat) (m : Msg) : State :=
  let s1 := (s.consumeBulk d n m).leave d m
  if d = .jup ∧ m.mtype = mtPlate ∧ n < 88 then s1.plateIn n m.words
  else s1.modCom d fun c => { c with inbox := c.inbox ++ [(n, { m with src := none, frames := 0 })] }
def State.toInbox (s : State) (d : Dev) (n : Nat) (m : Msg) : State :=
  if s.darkHolds d m then s.modTsu fun t => { t with power := { t.power with held := t.power.held ++ [(n, m)] } } else s.deliverMsg d n m
/-- The die has left DARK: what waits is delivered, and its credits go back. -/
def State.deliverHeld (s : State) : State :=
  s.tsu.power.held.foldl (fun s e => s.deliverMsg .tsu e.1 e.2) (s.modTsu fun t => { t with power := { t.power with held := [] } })

/-- Forward a message out of a port, if R250 and the job's active side admit it; a port fenced from it discards it. A handle on its way down opens a count: the die it is for (R252). -/
def State.forward (s : State) (i o : Nat) (m : Msg) : State :=
  if s.routeOk i o && s.sideOk o m then
    let gone := s.fencedAt o m
    let s1 := if gone then (s.countDiscards [o]).leave .jup m else (s.flowVia i o m).send .jup o m
    match msgHandle m with
    | some (h, kind) =>
      if o < 88 ∧ m.route = 2 then
        let x : Delivery := { handle := h, kind := kind, results := none, fromPort := i, left := [(o, none)],
                              delivered := 0, expected := 1, jobs := s.msgJobs m }
        if gone then s1.finishDelivery x else s1.modCom .jup fun c => { c with deliveries := c.deliveries ++ [x] }
      else s1
    | none => s1
  else (s.routeErr i).leave .jup m

/-- A result on its way down: to every member, and a gate result settles the step here (R178, R225, R226). -/
def State.resultPasses (s : State) (i : Nat) (m : Msg) : State :=
  let w0 := nthW m.words 0
  let g : BitVec 12 := w0.extractLsb' 20 12
  let job : BitVec 15 := w0.extractLsb' 49 15
  let st := s.grpStat g.toNat
  let ps := (s.memberPorts job (grpBase g.toNat) st.beginTick).filter fun p => s.sideOk p m
  let ok := ps.filter fun p => s.routeOk i p
  let s1 := (if ps.length = ok.length then s else s.routeErr i).sendCopies ok m
  match s.groupRec g with
  | some r =>
    if r.op ≠ 0 then s1
    else if w0.getLsbD 16 && decide (st.state = 3 ∧ st.stepLo = w0.extractLsb' 0 16) then s1
    else if w0.getLsbD 16 then (s1.gateSettled job false st.beginTick st.stepLo).noteRerun job (w0.extractLsb' 0 16)
    else (s1.gateSettled job true st.beginTick st.stepLo).noteCommit job (w0.extractLsb' 0 16)
  | none => s1

/-- The port out of which a message with a path goes on; none: this Jupin is its end (R235, R249). -/
def State.pathOut (s : State) (m : Msg) : Option Nat :=
  match s.pathPort m.addr with
  | some none => if m.addr = s.selfPath .jup then none else some ((s.pairPorts m.flow.toNat).getD (if fld m.addr 31 29 = 3 then 1 else 0) 90)
  | some (some p) => some p
  | none => some (88 + s.ownSide)

/-- Job traffic that arrives on a port where this side is not active (R16). -/
def State.inactive (s : State) (i : Nat) (m : Msg) : Bool :=
  match stepJob m with
  | some j => if i < 88 then !s.activeAt j i else !s.activeHere j
  | none => false

/-- In a takeover the hot-standby passes what a parent sends for the lost side to the survivor; a group's messages it takes itself too
(R264, R266). -/
def State.standsIn (s : State) (i : Nat) (m : Msg) : Bool := decide (s.side = 2 ∧ (i = 88 ∨ i = 89) ∧ m.mtype ≠ mtGroup) && s.inTakeover

/-- Where a Jupin takes a message that arrived on port `i` (R235, R249, R250). A message of a job that is not active on this
side is a route error (R16). -/
def State.jupRoute (s : State) (i : Nat) (m : Msg) : State :=
  if m.route = 0 then s.toInbox .jup i m
  else if !s.hasRole then s.leave .jup m
  else if s.standsIn i m then (if m.route = 3 then s.multicast i m none else s.forward i s.survivorPort m)
  else if s.inactive i m then (s.routeErr i).leave .jup m
  else if m.route = 2 then
    match s.pathOut m with
    | none => s.toInbox .jup i m
    | some o => s.forward i o m
  else if m.route = 3 then
    let s1 := s.multicast i m none
    match s.treeJob (fld m.addr 11 0) with
    | some j => if i < 88 && !s.wholeHere j then s1.send .jup (s.upPort j) { m with src := none, frames := 0 } else s1
    | none => s1
  else if m.mtype = mtResult then s.resultPasses i m
  else if m.mtype = mtConjRelease then (s.releasePasses m.words).leave .jup m
  else if m.mtype = mtSignal then
    let job := (nthW m.words 0).extractLsb' 49 15
    match s.resolve job ((nthW m.words 0).extractLsb' 32 17) with
    | some r => s.forward i r.port.toNat m
    | none => s.forward i (s.upPort job) m
  else s.toInbox .jup i m

/-- A die takes the uplink by which a job's STEP traffic comes as the job's active side (R16; assumption 162). -/
def State.noteSide (s : State) (n : Nat) (m : Msg) : State :=
  match msgJob m with
  | some j =>
    if 0x10 ≤ m.mtype.toNat ∧ m.mtype.toNat ≤ 0x15 then
      chanNums.foldl (fun s c =>
        if (s.chan c).state ≠ .unbound ∧ (s.chan c).job = j ∧ (s.chan c).sideB ≠ decide (n = 1) then
          s.modChan c fun x => { x with sideB := decide (n = 1) }
        else s) s
    else s
  | none => s

/-- A whole message accepted on a link: fenced, held under R355, routed by a Jupin, or delivered. -/
def State.accepted1 (s : State) (d : Dev) (n : Nat) (m : Msg) : State :=
  let l := s.link d n
  if fenced l.fences m (s.msgJobs m) (s.now d) then
    let s2 := (s.modLink d n fun l => { l with discards := l.discards + 1 }).leave d m
    if isBulk m.mtype && decide (m.route ≠ 0) && decide (d = .jup) then
      s2.jupRoute n { m with mtype := mtAbort, words := [m.flow.setWidth 64], src := none, frames := 0 } else s2
  else match d with
    | .tsu => (s.noteSide n m).toInbox .tsu n m
    | .jup => if l.holding && !isTime m.mtype then s.modLink .jup n fun l => { l with held := l.held ++ [m] } else s.jupRoute n m

/-- The port forwards what it held (R355). -/
def State.releaseHeld (s : State) (n : Nat) : State :=
  let ms := (s.link .jup n).held
  ms.foldl (fun s m => s.jupRoute n m) (s.modLink .jup n fun l => { l with held := [], holding := false })

/-! ## Fences (R253, R254, R320) -/

/-- Words of a fence and of a peer fence. -/
def fenceWords (f : Fence) : List Word :=
  [put 64 63 49 f.job.toNat ||| bit1 64 48 f.domain ||| put 64 31 0 f.path.toNat, f.tick]
def fenceOf (ws : List Word) : Fence :=
  { job := (nthW ws 0).extractLsb' 49 15, domain := (nthW ws 0).getLsbD 48, path := (nthW ws 0).extractLsb' 0 32, tick := nthW ws 1 }

/-- The jobs with ranks behind a port. -/
def State.jobsAt (s : State) (p : Nat) : List (BitVec 15) :=
  (((s.mapRuns.map Prod.snd).filter fun m => decide (m.port.toNat = p)).map MapRun.job).eraseDups

/-- The peer fence to every other rank: on the job's trees, or on those of every job the die served; and upward for the ranks
of other racks, while the job is not whole here (R254; assumption 163). -/
def State.peerFence (s : State) (p : Nat) (f : Fence) : State :=
  let jobs := if f.domain then s.jobsAt p else [f.job]
  jobs.foldl (fun s j => (s.jobTrees j).foldl (fun s t =>
    let m : Msg := { mtype := mtPeerFence, route := 3, flow := 0, addr := BitVec.ofNat 32 t, words := fenceWords f }
    let s1 := s.multicast ownPort m none
    if s.wholeHere j then s1 else s1.send .jup (s.upPort j) m) s) s

/-- The port-ownership entry of a port and step channel (R284, R467). -/
def portOwnOff (p c : Nat) : Nat := 0x81000 + 32 * p + 4 * c
/-- Some channel of the port is the job's (R284). -/
def State.ownsPort (s : State) (p : Nat) (j : BitVec 15) : Bool :=
  (List.range 8).any fun c => (s.reg .jup (portOwnOff p c)).getLsbD 31 && decide (fld (s.reg .jup (portOwnOff p c)) 14 0 = j.toNat)
/-- A fence of a job for a port of a rack Jupin that the job does not own: ignored and counted (R284). -/
def State.foreignFence (s : State) (p : Nat) (f : Fence) : Bool := !f.domain && decide (s.role = 1 ∧ p < 88) && !s.ownsPort p f.job

/-- Schedule a fence at a port: the port's rules, the TIME message to the die, the copy to the other side over the peer
group, and from side A, or the hot-standby, the peer fence (R253, R254, R320). A domain fence expels the die (R324). -/
def State.placeFence (s : State) (p : Nat) (f : Fence) : State :=
  if s.foreignFence p f then s.countDiscards [p] else
  let s1 := (s.modLink .jup p fun l => { l with fences := l.fences ++ [f] }).sendAll .jup [p, s.peerPort p] (localMsg mtFence (fenceWords f))
  let s2 := if f.domain && decide (s.role = 1 ∧ p < 88) then s1.setHealth p 3 else s1
  if s.ownSide = 0 then s2.peerFence p f else s2

/-- A fence scheduled for any cause but a group's own delivery check settles with the groups open on the port (R29, R356). -/
def State.settleFence (s : State) (p : Nat) (f : Fence) : State :=
  (if s.foreignFence p f then s else s.fenceGroups p).placeFence p { f with tick := s.fenceAfter p f.tick }

/-- A gate of the job has passed its stage here. -/
def State.gatePassed (s : State) (j : BitVec 15) : Bool :=
  s.jup.stage.grp.any fun e => decide (e.2.state = 2) &&
    (s.groupRec (BitVec.ofNat 12 e.1)).any fun g => decide (g.job = j ∧ g.op = 0)
/-- Jobs that a fence on a port covers. -/
def State.fenceJobs (s : State) (p : Nat) (f : Fence) : List (BitVec 15) := if f.domain then s.jobsAt p else [f.job]

/-- A fence tick does not fall inside a step whose gate the die has passed: it moves after the COMMIT. No message tells a
Jupin the COMMIT tick: free (R254; assumption 78). -/
def State.afterCommit (s : State) (p : Nat) (f : Fence) : State × Fence :=
  if (s.fenceJobs p f).any s.gatePassed then
    let c := s.fresh.1
    (s.fresh.2, if f.tick ≤ c then { f with tick := c + 1 } else f)
  else (s, f)

/-- Schedule a fence, after a COMMIT whose gate the die has passed. -/
def State.fencePort (s : State) (p : Nat) (f : Fence) : State := (s.afterCommit p f).1.settleFence p (s.afterCommit p f).2

/-- Fence the child on a port from every job whose active side uses the link (R261). -/
def State.fenceJobsAt (s : State) (p : Nat) (tick : Tick) : State :=
  (((s.mapRuns.map Prod.snd).filter fun m => decide (m.port.toNat = p ∧ m.side.toNat = s.ownSide)).map MapRun.job).eraseDups.foldl
    (fun s j => s.fencePort p { job := j, domain := false, path := s.childPath p, tick := tick }) s

end Sys2Proof.Machine
end

