-- ==== Sys2Proof/Machine/Link.lean ====
section
/-! DEFINITION. Transit Line: frames, replay, channels, training (R232 to R262). -/
namespace Sys2Proof.Machine

/-! ## Words and headers (R233, R234) -/

/-- Parity of the even bits (`o = 0`) or the odd bits (`o = 1`) of a word. -/
def parity66 (w : BitVec 66) (o : Nat) : Bool := (List.range 33).foldl (fun b i => b ^^ w.getLsbD (2 * i + o)) false
/-- A word with PE and PO. -/
def lineWord (v : Word) : BitVec 66 :=
  let w : BitVec 66 := v.setWidth 66
  w ||| bit1 66 64 (parity66 w 0) ||| bit1 66 65 (parity66 w 1)
def wordOk (w : BitVec 66) : Bool := !parity66 w 0 && !parity66 w 1

/-- The PAM4 level of two bits, Gray-coded, the more significant first: 00, 01, 11 and 10 from the lowest level up (R233).
The same exchange leads back from the level to the bits. -/
def gray (b : BitVec 2) : BitVec 2 := b ^^^ (b >>> 1)
/-- The 33 symbols of a word in order: symbol s carries bits 2s + 1 and 2s (R233). -/
def symbols (w : BitVec 66) : List (BitVec 2) := (List.range 33).map fun s => gray (w.extractLsb' (2 * s) 2)
/-- What lane `k` carries of a frame: words k, k + 2, k + 4 and k + 6 (R232). -/
def laneSymbols (k : Nat) (ws : List (BitVec 66)) : List (BitVec 2) := [0, 2, 4, 6].flatMap fun i => symbols (ws.getD (k + i) 0)

/-- The fields of a header that a replay keeps. -/
def frameHdr (vc : Vc) (fseq : BitVec 8) (first : Nat) (cont : Bool) (vseq : BitVec 12) : Word :=
  put 64 63 62 vc.code ||| put 64 59 52 fseq.toNat ||| put 64 35 33 first ||| bit1 64 32 cont ||| put 64 15 4 vseq.toNat
def hdrVc (h : Word) : Nat := fld h 63 62
def hdrFseq (h : Word) : BitVec 8 := h.extractLsb' 52 8
def hdrAck (h : Word) : BitVec 8 := h.extractLsb' 44 8
def hdrTack (h : Word) : BitVec 8 := h.extractLsb' 36 8
def hdrVseq (h : Word) : BitVec 12 := h.extractLsb' 4 12

/-- Hold time and ack timeout of a link (R240, R241). -/
def ackTimeout (l : Link) : Nat := 2 * l.ctl.flight.toNat + 112
def holdTime (l : Link) : Nat := 2 * l.ctl.flight.toNat + 48

/-! ## State changes of a link (R255) -/

/-- A link goes DOWN: electrical idle, retained frames and sequence state kept. -/
def State.linkToDown (s : State) (d : Dev) (n : Nat) : State :=
  let was := (s.link d n).ctl.lstate
  s.modCtl d n fun c =>
    { c with lstate := .down, frameLock := false, since := s.now d,
             downSince := if was = .service then some (s.now d) else c.downSince }

/-- A fault whose immediate action is link DOWN. -/
def State.linkFault (s : State) (d : Dev) (n : Nat) (code : Code) (ctx : Ctx := {}) : State :=
  (s.raiseLink d n code ctx).linkToDown d n

/-! ## Replay at the sender (R240, R242, R245) -/

/-- The frames of a retention list that an ACK covers. -/
def ackCount (l : List Frame) (ack : BitVec 8) : Nat :=
  match l.findIdx? fun f => decide (hdrFseq f.hdr = ack) with
  | some i => i + 1
  | none => 0

/-- An episode begins: counted, and the link fails once a frame's eighth replay was not accepted, or past REPLAY_MAX in
2^20 ticks. -/
def State.episode (s : State) (d : Dev) (n : Nat) (time : Bool) : State :=
  let l := s.link d n
  let oldest := (if time then l.tx.retainedT else l.tx.retained).head?
  match oldest with
  | none => s
  | some f =>
    let q := hdrFseq f.hdr
    let c := l.ctl
    let run := if time then (if c.sameReplayT ≠ 0 ∧ c.sameTseq = q then c.sameReplayT + 1 else 1)
               else (if c.sameReplay ≠ 0 ∧ c.sameFseq = q then c.sameReplay + 1 else 1)
    let eps := s.now d :: c.episodes.filter fun t => decide ((s.now d).toNat < t.toNat + 2 ^ 20)
    let s1 := s.modCtl d n fun c =>
      if time then { c with cntReplay := satInc c.cntReplay, episodes := eps, sameReplayT := run, sameTseq := q }
      else { c with cntReplay := satInc c.cntReplay, episodes := eps, sameReplay := run, sameFseq := q }
    let s2 := s1.modTx d n fun t => if time then { t with replayT := some q } else { t with replayAt := some q }
    if 8 < run ∨ s.replayMax d n < eps.length then s2.linkFault d n cReplayLimit else s2

/-- A replay whose next frame is freed goes on with the oldest frame still retained, and ends when there is none. -/
def replayFrom (at_ : Option (BitVec 8)) (freed : List (BitVec 8)) (rest : List Frame) : Option (BitVec 8) :=
  match at_ with
  | some q => if freed.contains q then rest.head?.map fun f => hdrFseq f.hdr else some q
  | none => none

/-- An ACK frees what it covers; at a rack Jupin it completes deliveries to the die (R240, R252, R355). -/
def State.takeAck (s : State) (d : Dev) (n : Nat) (ack : BitVec 8) : State :=
  let l := s.link d n
  let k := ackCount l.tx.retained ack
  let s1 := s.modTx d n fun t => { t with ackRx := ack }
  if k = 0 then s1
  else
    let freed := (l.tx.retained.take k).map fun f => hdrFseq f.hdr
    let s2 := (s1.modTx d n fun t => { t with retained := t.retained.drop k, ackTick := s.now d,
                                              replayAt := replayFrom t.replayAt freed (t.retained.drop k) }).modCtl d n fun c => { c with sameReplay := 0 }
    match d with
    | .tsu => s2
    | .jup =>
      (s2.jupC.deliveries.filter fun x => x.left.any fun e => decide (e.1 = n) && (match e.2 with | some q => freed.contains q | none => false)).foldl
        (fun s x => (if x.kind = 5 then s.releaseHeld n else s).portDelivered x n 1) s2

def State.takeTack (s : State) (d : Dev) (n : Nat) (ack : BitVec 8) : State :=
  let old := (s.link d n).tx.retainedT
  let k := ackCount old ack
  let s1 := s.modTx d n fun t => { t with tackRx := ack }
  if k = 0 then s1
  else (s1.modTx d n fun t => { t with retainedT := old.drop k, tackTick := s.now d,
                                       replayT := replayFrom t.replayT ((old.take k).map fun f => hdrFseq f.hdr) (old.drop k) }).modCtl d n fun c => { c with sameReplayT := 0 }

/-! ## FRAME_LAUNCH (R246 to R248) -/

/-- Words being placed in a frame. -/
structure Fill where
  words : List Word
  first : Nat
  cur : List Word
  /-- The message those words belong to. -/
  msg : Option Msg
  queue : List Msg
  /-- The words again by their messages, and the messages whose last word stands in the frame. -/
  parts : List (Option Msg × Bool × List Word) := []
  ended : List Msg
  deriving DecidableEq, Repr

/-- Fill up to `r` more words from the message in progress and the queue behind it. A message that has not wholly arrived
lets no other pass. -/
def fillFrame : Nat → Fill → Fill
  | 0, f => f
  | r + 1, f =>
    match f.cur with
    | w :: rest =>
      let done := rest.isEmpty && (match f.msg with | some m => decide (m.want = 0) | none => true)
      let parts := match f.parts.reverse with
        | (m, st, ws) :: before => before.reverse ++ [(m, st, ws ++ [w])]
        | [] => [(f.msg, false, [w])]
      fillFrame r { f with words := f.words ++ [w], parts := parts, cur := rest, ended := if done then f.ended ++ f.msg.toList else f.ended,
                           msg := if done then none else f.msg }
    | [] =>
      match f.msg, f.queue with
      | some _, _ => f
      | none, [] => f
      | none, m :: q =>
        fillFrame r { f with words := f.words ++ [Msg.header m], first := if f.first = 0 then f.words.length + 1 else f.first,
                             cur := m.words, msg := some m, queue := q, parts := f.parts ++ [(some m, true, [Msg.header m])] }

def padFrame (ws : List Word) : List Word := ws ++ List.replicate (7 - ws.length) 0

/-- Whole TIME messages that fit in `r` words, in queue order; what is left (R246). -/
def takeTime : Nat → List Msg → List Msg × List Msg
  | _, [] => ([], [])
  | r, m :: q =>
    if m.words.length + 1 ≤ r then
      let (a, b) := takeTime (r - (m.words.length + 1)) q
      (m :: a, b)
    else ([], m :: q)

def msgWords (m : Msg) : List Word := Msg.header m :: m.words

/-- The port number a device announces, and the path it announces on a link (R257). -/
def State.announcedPath (s : State) (d : Dev) (n : Nat) : BitVec 32 :=
  match d with
  | .tsu => s.selfPath .tsu
  | .jup => if n < 88 then s.childPath n else s.selfPath .jup

/-- The buffers announced: none without a verified image, or on a port of the wrong role (R256, R263). -/
def State.openPort (s : State) (d : Dev) (n : Nat) : Bool :=
  match d with
  | .tsu => true
  | .jup => s.hasRole && !((s.fblock .jup n).levels.any fun e => decide (e.1 = cRoleMismatch))

/-- Link control of a link end (R257). -/
def State.linkControl (s : State) (d : Dev) (n : Nat) : Msg :=
  let l := s.link d n
  let role := match d with | .tsu => 0 | .jup => s.role
  let buf (k : Nat) := if s.openPort d n then k else 0
  localMsg mtControl
    [ put 64 63 62 role ||| put 64 61 55 n ||| put 64 47 32 (s.com d).time.epochId.toNat ||| put 64 31 0 (s.announcedPath d n).toNat,
      put 64 63 48 l.ctl.session.toNat ||| put 64 47 40 l.rx.nextFseq.toNat ||| put 64 39 32 l.rx.nextTseq.toNat |||
        put 64 31 16 (buf 64) ||| put 64 15 0 (buf 512), 0, 0 ]

/-- Put a frame on the line: the current header fields are added, and what they carry is taken (R234, R239, R240). -/
def State.putFrame (s : State) (d : Dev) (n : Nat) (f : Frame) (replay badPe : Bool) : State :=
  let r := (s.link d n).rx
  let h := f.hdr ||| bit1 64 61 replay ||| bit1 64 60 r.nak ||| put 64 51 44 (r.nextFseq - 1).toNat |||
    put 64 43 36 (r.nextTseq - 1).toNat ||| put 64 31 24 (min r.freedStep 255) ||| put 64 23 16 (min r.freedBulk 255) ||| bit1 64 3 r.tnak
  let w0 := lineWord h
  ((s.modRx d n fun r => { r with nak := false, tnak := false, freedStep := r.freedStep - min r.freedStep 255,
                                  freedBulk := r.freedBulk - min r.freedBulk 255 }).modTx d n fun t => { t with lastLaunch := some (s.now d) }).emit
    (let ws := (if badPe then w0 ^^^ (1 <<< 64) else w0) :: f.words.map lineWord
     .frame d n (laneSymbols 0 ws) (laneSymbols 1 ws))

/-- The time code that a TIME frame carries, if it does. -/
def Frame.code (f : Frame) : Option (BitVec 128) :=
  if (nthW f.words 0).extractLsb' 56 8 = mtTimeCode then some (nthW f.words 2 ++ nthW f.words 1) else none

/-- The TIME frame that goes again in this slot, and where the replay goes on: the next of a replay, or the oldest of four
(R242). -/
def timeAgain (t : LinkTx) : Option (Frame × Option (BitVec 8)) :=
  match t.replayT, t.retainedT with
  | some q, f0 :: _ =>
    let i := (t.retainedT.findIdx? fun f => decide (hdrFseq f.hdr = q)).getD 0
    some ((t.retainedT[i]?).getD f0, (t.retainedT[i + 1]?).map fun f => hdrFseq f.hdr)
  | none, f0 :: _ => if 4 ≤ t.retainedT.length then some (f0, none) else none
  | _, [] => none

/-- A new TIME frame: the waiting time code, stamped for this slot; the clock-quality word; link control while the link
trains, where it has room; then queued TIME messages (R246, R257). -/
def State.newTimeFrame (s0 : State) (d : Dev) (n : Nat) : State :=
  let s := s0.restamp d n
  let l := s.link d n
  let t := l.tx
  let tc := match t.timeCode with | some c => msgWords (localMsg mtTimeCode [c.extractLsb' 0 64, c.extractLsb' 64 64]) | none => []
  let ql := match t.quality with
    | some q => if (s.now d).toNat % 262144 = 0 then msgWords (localMsg mtQuality [q.setWidth 64]) else []
    | none => []
  let head := tc ++ ql
  let ctl := if (l.ctl.lstate = .align ∨ l.ctl.lstate = .timing) ∧ head.length ≤ 2 then msgWords (s.linkControl d n) else []
  let (ms, rest) := takeTime (7 - head.length - ctl.length) t.qTime
  let ws := head ++ ctl ++ ms.flatMap msgWords
  let f : Frame := { hdr := frameHdr .time t.txTseq (if ws.isEmpty then 0 else 1) false t.vseqTime, words := padFrame ws }
  (s.modTx d n fun t =>
    { t with timeCode := none, quality := if ql.isEmpty then t.quality else none, qTime := rest, txTseq := t.txTseq + 1,
             vseqTime := t.vseqTime + 1, retainedT := t.retainedT ++ [f],
             tackTick := if t.retainedT.isEmpty then s.now d else t.tackTick }).putFrame d n f false false

/-- A TIME slot (R242, R246). A time code that goes again makes its exchange invalid (R43); its departure counts in TXD as any
(R238). -/
def State.timeSlot (s : State) (d : Dev) (n : Nat) : State :=
  match timeAgain (s.link d n).tx with
  | some (f, next) =>
    let s1 := match f.code with
      | some c => (s.codeReplayed d n c).modLt d n fun t => { t with handover := some (s.now d) }
      | none => s
    (s1.modTx d n fun t => { t with replayT := next }).putFrame d n f true false
  | none => s.newTimeFrame d n

/-! Fences at the sender (R253). -/

/-- Tick on which the last of `k` STEP frames can launch when the first launches now: no frame takes a TIME slot (R246). -/
def lastLaunchOf (now : Tick) (k : Nat) : Tick :=
  let gap := (128 - now.toNat % 128) % 128
  now + BitVec.ofNat 64 (k - 1 + (if k ≤ gap then 0 else 1 + (k - gap - 1) / 127))

/-- The queued STEP messages that a fence covers by the tick on which their last frame can launch; `ahead` words stand
before them. -/
def State.tooLate (s : State) (d : Dev) (fs : List Fence) : Nat → List Msg → List Msg
  | _, [] => []
  | ahead, m :: q =>
    let total := ahead + m.words.length + 1
    if fenced fs m (s.msgJobs m) (lastLaunchOf (s.now d) ((total + 6) / 7)) then m :: s.tooLate d fs ahead q
    else s.tooLate d fs total q

/-- STEP messages that cannot all launch before a fence tick are discarded whole; BULK is not launched from the tick on. -/
def State.dropFenced (s : State) (d : Dev) (n : Nat) : State :=
  let l := s.link d n
  if l.fences.isEmpty then s
  else
    let late := s.tooLate d l.fences l.tx.curStep.length l.tx.qStep ++ l.tx.qBulk.filter fun m => fenced l.fences m (s.msgJobs m) (s.now d)
    let s1 := s.modTx d n fun t => { t with qStep := t.qStep.filter fun m => !late.contains m, qBulk := t.qBulk.filter fun m => !late.contains m }
    match d with
    | .tsu => s1
    | .jup => late.foldl (fun s m => s.discardAt .jup n m) s1

/-- The window of R248 admits a message at the end that sends the flow; control messages of a flow take no window. -/
def State.windowOk (s : State) (d : Dev) (n : Nat) (m : Msg) : Bool :=
  decide (0x24 ≤ m.mtype.toNat) || m.src.isSome ||
  (let f := s.flow d n m.flow; decide (f.sent + 8 * m.words.length ≤ f.credit + f.window))

/-- A frame of a message can be filled: all of it has come, or a frame's worth (R249). -/
def bulkFits (m : Msg) : Bool := decide (m.want = 0 ∨ 6 ≤ m.words.length)

/-- The BULK message that is to go next: the flows take turns by number; of a flow, and of what came by one ingress port, the
first (R249). -/
def State.bulkNext (s : State) (d : Dev) (n : Nat) : Option Msg :=
  let t := (s.link d n).tx
  let firsts := (t.qBulk.filter fun m => s.windowOk d n m && bulkFits m).filter fun m =>
    decide ((t.qBulk.find? fun x => decide (x.flow = m.flow ∨ (m.src.isSome ∧ x.src = m.src))) = some m)
  (sortBy (fun m => (m.flow.toNat + 1023 - t.lastFlow) % 1024) firsts).head?

def bulkRetained (l : Link) : Nat := (l.tx.retained.filter fun f => decide (hdrVc f.hdr = 3)).length
def stepReady (l : Link) : Bool :=
  (!l.tx.curStep.isEmpty || !l.tx.qStep.isEmpty) && decide (0 < l.tx.stepCr ∧ l.tx.retained.length < 64)
def State.bulkReady (s : State) (d : Dev) (n : Nat) : Bool :=
  let l := s.link d n
  (match l.tx.curBulkMsg with
   | some m => decide (m.want = 0 ∨ 7 ≤ l.tx.curBulk.length)
   | none => (s.bulkNext d n).isSome) &&
  decide (0 < l.tx.bulkCr ∧ l.tx.retained.length < 64 ∧ bulkRetained l < (if holdTime l ≤ 64 then 48 else 16))

/-- Retain a new STEP or BULK frame and launch it; INJ_PAR spoils its first copy (R240, R323). -/
def State.launchNew (s : State) (d : Dev) (n : Nat) (f : Frame) : State :=
  let inj := (s.link d n).ctl.injPar
  let s1 := ((s.modTx d n fun t =>
    { t with retained := t.retained ++ [f], txFseq := t.txFseq + 1, ackTick := if t.retained.isEmpty then s.now d else t.ackTick }).modCtl d n
      fun c => { c with injPar := false }).putFrame d n f false inj
  if inj then s1.raiseLink d n cInjParity else s1

/-- The parts of a frame with the jobs of their messages (R253). -/
def State.frameParts (s : State) (r : Fill) : List FramePart :=
  r.parts.map fun e => { jobs := (e.1.map s.msgJobs).getD [], starts := e.2.1, words := e.2.2 }

def State.launchStep (s : State) (d : Dev) (n : Nat) : State :=
  let t := (s.link d n).tx
  let r := fillFrame 7 { words := [], first := 0, cur := t.curStep, msg := t.curStepMsg, queue := t.qStep, ended := [] }
  let f : Frame := { hdr := frameHdr .step t.txFseq r.first (!t.curStep.isEmpty) t.vseqStep, words := padFrame r.words,
                     parts := s.frameParts r }
  let s1 := (s.modTx d n fun t =>
    { t with curStep := r.cur, curStepMsg := r.msg, curHandle := r.msg.bind msgHandle, qStep := r.queue, stepCr := t.stepCr - 1,
             vseqStep := t.vseqStep + 1, stepSlots := t.stepSlots + 1 }).launchNew d n f
  let s2 := r.ended.foldl (fun s m => s.leave d m) s1
  let mark (x : Delivery) : Delivery :=
    if (r.ended.filterMap msgHandle).contains (x.handle, x.kind) then
      { x with left := x.left.map fun e => if e.1 = n ∧ e.2 = none then (n, some t.txFseq) else e } else x
  if d = .jup ∧ s.role = 1 ∧ n < 88 then s2.modCom .jup fun c => { c with deliveries := c.deliveries.map mark } else s2

/-- Of a message sent on as it comes, one frame of the ingress buffer is free with each frame launched; the rest with the
last. -/
def State.leaveOne (s : State) (d : Dev) (n : Nat) : State :=
  match (s.link d n).tx.curBulkMsg with
  | some m => (s.modTx d n fun t => { t with curBulkMsg := some { m with frames := m.frames - 1 } }).leave d { m with frames := min 1 m.frames }
  | none => s

def State.launchBulk (s : State) (d : Dev) (n : Nat) : State :=
  let t := (s.link d n).tx
  let head : List Msg := if t.curBulkMsg.isSome then [] else (s.bulkNext d n).toList
  let r := fillFrame 7 { words := [], first := 0, cur := t.curBulk, msg := t.curBulkMsg, queue := head, ended := [] }
  let f : Frame := { hdr := frameHdr .bulk t.txFseq r.first (!t.curBulk.isEmpty) t.vseqBulk, words := padFrame r.words,
                     parts := s.frameParts r }
  let s1 := match head with
    | m :: _ =>
      let x := s.flow d n m.flow
      (if m.mtype.toNat < 0x24 ∧ m.src = none then s.modLink d n fun l => l.setFlow { x with sent := x.sent + 8 * m.words.length } else s).modTx d n
        fun t => { t with qBulk := dropOne m t.qBulk, lastFlow := m.flow.toNat }
    | [] => s
  let s2 := (s1.modTx d n fun t => { t with curBulk := r.cur, curBulkMsg := r.msg, bulkCr := t.bulkCr - 1, vseqBulk := t.vseqBulk + 1 }).launchNew d n f
  r.ended.foldl (fun s m => s.leave d m) (s2.leaveOne d n)

def idleFrame : Frame := { hdr := frameHdr .idle 0 0 false 0, words := List.replicate 7 0 }

/-- The next frame of a replay in progress, and where the replay goes on. -/
def replayFrame (t : LinkTx) : Option (Frame × Option (BitVec 8)) :=
  match t.replayAt, t.retained with
  | some q, f0 :: _ =>
    let i := (t.retained.findIdx? fun f => decide (hdrFseq f.hdr = q)).getD 0
    some ((t.retained[i]?).getD f0, (t.retained[i + 1]?).map fun f => hdrFseq f.hdr)
  | _, _ => none

/-- A frame position of SERVICE: a replay, then STEP and BULK by turns, else IDLE (R246). A Jupin without its image sends no
STEP or BULK (R13). -/
def State.serviceFrame (s0 : State) (d : Dev) (n : Nat) : State :=
  let s := s0.dropFenced d n
  let l := s.link d n
  let step := stepReady l && s.openPort d n
  let bulk := s.bulkReady d n && s.openPort d n
  match replayFrame l.tx with
  | some (f, next) => (s.modTx d n fun t => { t with replayAt := next }).putFrame d n f true false
  | none =>
    if step && (!bulk || decide (l.tx.stepSlots < 16)) then s.launchStep d n
    else if step && bulk then
      if l.tx.alt then (s.modTx d n fun t => { t with alt := false }).launchBulk d n
      else (s.modTx d n fun t => { t with alt := true }).launchStep d n
    else if bulk then s.launchBulk d n
    else s.putFrame d n idleFrame false false

/-- One frame of one link end. -/
def State.launchFrame (s : State) (d : Dev) (n : Nat) : State :=
  let s1 := if (s.now d).toNat % 128 = 0 then s.modTx d n fun t => { t with stepSlots := 0 } else s
  match (s.link d n).ctl.lstate with
  | .down => s
  | .train => s
  | .align => if (s.now d).toNat % 128 = 0 then s1.timeSlot d n else s1.putFrame d n idleFrame false false
  | .timing => if (s.now d).toNat % 128 = 0 then s1.timeSlot d n else s1.putFrame d n idleFrame false false
  | .service => if (s.now d).toNat % 128 = 0 then s1.timeSlot d n else s1.serviceFrame d n

/-- One frame on every CORE edge (R232); a port in electrical idle launches none (R15, R264). -/
def execFrameLaunch (d : Dev) (n : Nat) (s : State) : Res :=
  s.due (!s.idlePort d n && decide ((s.link d n).tx.lastLaunch ≠ some (s.now d))) fun s => s.launchFrame d n

/-! ## FRAME_RX (R233 to R236, R239, R242, R247) -/

/-- The messages that a VC's word stream completes, with the words of the one in progress; none: LINK_BAD_MSG (R236).
A LEN the table does not admit is a bad message (assumption 62). -/
def parseWords (vc : Vc) : List Word → List Word → List Msg → Option (List Msg × List Word)
  | [], part, out => some (out, part)
  | w :: ws, [], out =>
    if w.extractLsb' 56 8 = (0 : BitVec 8) then some (out, [])
    else match mtypeForm (w.extractLsb' 56 8) with
      | some (v, lo, hi) => if v = vc ∧ lo ≤ fld w 55 44 ∧ fld w 55 44 ≤ hi then parseWords vc ws [w] out else none
      | none => none
  | w :: ws, h :: part, out =>
    let body := part ++ [w]
    if body.length = fld h 55 44 then parseWords vc ws [] (out ++ [msgOf h body]) else parseWords vc ws (h :: body) out

/-- A frame that fails its parity (R239): counted, and a replay asked for on the stream it belongs to; on both when its
header fails too (assumption 63). -/
def State.badFrame (s : State) (d : Dev) (n : Nat) (h : Option Word) : State :=
  let time := match h with | some h => decide (hdrVc h = 1) | none => true
  let data := match h with | some h => decide (hdrVc h ≠ 1) | none => true
  ((s.modRx d n fun r => { r with nak := r.nak || data, discarding := r.discarding || data, tnak := r.tnak || time,
                                  discardingT := r.discardingT || time }).modCtl d n
    fun c => { c with cntParity := satInc c.cntParity }).raiseLink d n cLinkParity

/-- What every header carries: acks, credits, replay requests. -/
def State.takeHeader (s : State) (d : Dev) (n : Nat) (h : Word) : State :=
  let s1 := ((s.takeAck d n (hdrAck h)).takeTack d n (hdrTack h)).modTx d n fun t =>
    { t with stepCr := min t.stepBuf (t.stepCr + fld h 31 24), bulkCr := min t.bulkBuf (t.bulkCr + fld h 23 16) }
  let s2 := if h.getLsbD 60 then s1.episode d n false else s1
  if h.getLsbD 3 then s2.episode d n true else s2

/-- Deliver the messages of an accepted frame in order. -/
def State.takeMsgs (s : State) (d : Dev) (n : Nat) (ms : List Msg) : State := ms.foldl (fun s m => s.accepted1 d n m) s

/-- An accepted TIME frame. In ALIGN, and from a session change to SERVICE, the streams are not yet matched, and any sequence
number is taken (assumption 64). -/
def State.timeFrame (s : State) (d : Dev) (n : Nat) (h : Word) (ws : List Word) : State :=
  let r := (s.link d n).rx
  let fresh := decide ((s.link d n).ctl.lstate = .align) || r.freshT
  if hdrFseq h ≠ r.nextTseq ∧ !fresh then s
  else if hdrVseq h ≠ r.vseqTime ∧ !fresh then s.linkFault d n cSeqGap
  else match parseWords .time ws [] [] with
    | none => s.linkFault d n cBadMsg
    | some (ms, _) =>
      (s.modRx d n fun r => { r with nextTseq := hdrFseq h + 1, vseqTime := hdrVseq h + 1, discardingT := false }).takeMsgs d n ms

/-- Content words of a frame as a receiver reads them: after words of a message it does not hold, from the first header
on (R234). -/
def contentOf (h : Word) (part ws : List Word) : List Word :=
  if h.getLsbD 32 && part.isEmpty then (if fld h 35 33 = 0 then [] else ws.drop (fld h 35 33 - 1)) else ws

/-- More words of a message that goes on as it comes, wherever it stands at its egress (R249). -/
def State.passMore (s : State) (o n : Nat) (ws : List Word) (frames : Nat) : State :=
  let more (m : Msg) : Msg := { m with want := m.want - ws.length, frames := m.frames + frames }
  match (s.link .jup o).tx.curBulkMsg with
  | some m =>
    if m.src = some n ∧ 0 < m.want then s.modTx .jup o fun t => { t with curBulk := t.curBulk ++ ws, curBulkMsg := some (more m) }
    else s.modTx .jup o fun t =>
      { t with qBulk := updFirst (fun m => decide (m.src = some n ∧ 0 < m.want)) (fun m => { more m with words := m.words ++ ws }) t.qBulk }
  | none => s.modTx .jup o fun t =>
      { t with qBulk := updFirst (fun m => decide (m.src = some n ∧ 0 < m.want)) (fun m => { more m with words := m.words ++ ws }) t.qBulk }

/-- What goes on as it comes ends where it stands: of a message begun at its egress, the frames that are full still go
(R253; assumption 54). -/
def State.cutPass (s : State) (o n : Nat) : State :=
  let t := (s.link .jup o).tx
  let here (m : Msg) : Bool := decide (m.src = some n ∧ 0 < m.want)
  match t.curBulkMsg.filter here, t.qBulk.find? here with
  | some m, _ =>
    let keep := t.curBulk.take (t.curBulk.length / 7 * 7)
    if keep.isEmpty then (s.modTx .jup o fun t => { t with curBulk := [], curBulkMsg := none }).leave .jup m
    else s.modTx .jup o fun t => { t with curBulk := keep, curBulkMsg := some { m with want := 0 } }
  | none, some m => (s.modTx .jup o fun t => { t with qBulk := dropOne m t.qBulk }).leave .jup m
  | none, none => s

/-- The egress of a BULK message that a Jupin sends on as it comes: one with a path that ends elsewhere, on a port that is
neither fenced from it nor held (R249, R253, R355). -/
def State.passOut (s : State) (d : Dev) (n : Nat) (m : Msg) : Option Nat :=
  match d with
  | .tsu => none
  | .jup =>
    if m.route = 2 ∧ s.hasRole ∧ !(s.link .jup n).holding ∧ !fenced (s.link .jup n).fences m (s.msgJobs m) (s.now .jup) then
      (s.pathOut m).filter fun o => s.routeOk n o
    else none

/-- A STEP frame is accepted: whole messages take with them the frames they occupied (R247). -/
def State.stepFrame (s : State) (d : Dev) (n : Nat) (ms : List Msg) (part : List Word) : State :=
  let r := (s.link d n).rx
  let done := r.partFrames + 1 - (if part.isEmpty then 0 else 1)
  let own (m : Msg) : Msg := { m with src := some n, frames := done }
  let s1 := s.modRx d n fun r => { r with nextFseq := r.nextFseq + 1, discarding := false, vseqStep := r.vseqStep + 1, partStep := part,
                                          heldStep := r.heldStep + 1,
                                          partFrames := if ms.isEmpty && !part.isEmpty then r.partFrames + 1 else if part.isEmpty then 0 else 1 }
  match ms.reverse with
  | [] => if part.isEmpty then s1.modRx d n fun r => r.free false done else s1
  | m :: rest =>
    (s1.takeMsgs d n rest.reverse).accepted1 d n (own m)

/-- The last message that ends in a BULK frame takes the frame with it, until it leaves (R247). -/
def ownLast (n : Nat) (ms : List Msg) : List Msg :=
  match ms.reverse with
  | [] => []
  | m :: rest => rest.reverse ++ [{ m with src := some n, frames := 1 }]
/-- A BULK frame is accepted: a message with a path goes on as it comes; of any other, the words are taken from the buffer as they
come, but for the frame in which it ends. -/
def State.bulkFrame (s : State) (d : Dev) (n : Nat) (old : List Word) (ws : List Word) (ms : List Msg) (part : List Word) : State :=
  let pass := (s.link d n).rx.passBulk
  let s1 := s.modRx d n fun r => { r with nextFseq := r.nextFseq + 1, discarding := false, vseqBulk := r.vseqBulk + 1, partBulk := part,
                                          heldBulk := r.heldBulk + 1, passBulk := if part.isEmpty then none else r.passBulk }
  let free (s : State) : State := s.modRx d n fun r => r.free true 1
  match pass, ms with
  | some o, [] => s1.passMore o n ws (if ws.isEmpty then 0 else 1)
  | _, _ =>
    let last (ms : List Msg) : List Msg := if part.isEmpty then ownLast n ms else ms
    let s2 := match pass, ms with
      | some o, m :: rest => (s1.passMore o n (m.words.drop (old.length - 1)) (if part.isEmpty && rest.isEmpty then 1 else 0)).takeMsgs d n (last rest)
      | _, _ => s1.takeMsgs d n (last ms)
    match part with
    | [] => if pass.isSome || !ms.isEmpty then s2 else free s2
    | h :: body =>
      let m : Msg := { msgOf h body with src := some n, frames := 1, want := fld h 55 44 - body.length }
      match (if ms.isEmpty && !old.isEmpty then none else s2.passOut d n m) with
      | some o => ((s2.flowVia n o m).send .jup o m).modRx d n fun r => { r with passBulk := some o }
      | none => free (s2.modRx d n fun r => { r with passBulk := none })

/-- An accepted STEP or BULK frame (R239, R247). A frame that begins anew ends what the one before left incomplete. -/
def State.dataFrame (s : State) (d : Dev) (n : Nat) (h : Word) (ws : List Word) : State :=
  let r := (s.link d n).rx
  let step := decide (hdrVc h = 2)
  let old := if h.getLsbD 32 then (if step then r.partStep else r.partBulk) else []
  if hdrFseq h ≠ r.nextFseq then s
  else if hdrVseq h ≠ (if step then r.vseqStep else r.vseqBulk) then s.linkFault d n cSeqGap
  else if !s.openPort d n ∨ (step ∧ 64 ≤ r.heldStep) ∨ (!step ∧ 512 ≤ r.heldBulk) then s.linkFault d n cLinkCredit
  else match parseWords (if step then .step else .bulk) (contentOf h old ws) old [] with
    | none => s.linkFault d n cBadMsg
    | some (ms, part) =>
      if step then s.stepFrame d n ms part
      else
        let s1 := match r.passBulk with
          | some o => if h.getLsbD 32 then s else (s.cutPass o n).modRx d n fun r => { r with passBulk := none }
          | none => s
        s1.bulkFrame d n old (contentOf h old ws) ms part

/-- A frame at a link that has frame lock. -/
def State.frameIn (s : State) (d : Dev) (n : Nat) (ws : List (BitVec 66)) : State :=
  let h : Word := (ws.headD 0).extractLsb' 0 64
  if !(ws.all wordOk && decide (ws.length = 8)) then s.badFrame d n (if wordOk (ws.headD 1) then some h else none)
  else
    let s1 := s.takeHeader d n h
    let body := ws.tail.map fun w => w.extractLsb' 0 64
    if (s1.link d n).ctl.lstate = .down then s1
    else match hdrVc h with
      | 0 => s1
      | 1 => s1.timeFrame d n h body
      | _ => s1.dataFrame d n h body

def execFrameRx (d : Dev) (n : Nat) (frame : List (BitVec 66)) (s : State) : Res :=
  s.due ((s.link d n).ctl.frameLock) fun s => s.frameIn d n frame

/-! ## ACK_TIMEOUT (R240, R242) -/

def timedOut (l : Link) (now : Tick) (time : Bool) : Bool :=
  if time then !l.tx.retainedT.isEmpty && decide (l.tx.tackTick.toNat + ackTimeout l ≤ now.toNat)
  else !l.tx.retained.isEmpty && decide (l.tx.ackTick.toNat + ackTimeout l ≤ now.toNat)

def State.ackLost (s : State) (d : Dev) (n : Nat) (time : Bool) : State :=
  if timedOut (s.link d n) (s.now d) time then
    ((s.modTx d n fun t => if time then { t with tackTick := s.now d } else { t with ackTick := s.now d }).modCtl d n
      fun c => { c with cntAckTo := satInc c.cntAckTo }).episode d n time
  else s

/-- STEP and BULK frames time out in SERVICE, TIME frames wherever they are sent (R240, R242, R255). -/
def execAckTimeout (d : Dev) (n : Nat) (s : State) : Res :=
  s.due (s.link d n).ctl.lstate.timed fun s =>
    (if (s.link d n).ctl.lstate = .service then s.ackLost d n false else s).ackLost d n true

/-! ## WINDOW_UPDATE_RX, FLOW_ABORT_RX, DELIVERY_REPORT_RX (R248, R252, R253) -/

/-- A window update: passed back by a Jupin that sends the flow on, taken by the end that sends it (R248). -/
def execWindowUpdateRx (d : Dev) (n : Nat) (flow : BitVec 10) (word : Word) (s : State) : Res :=
  let s1 := s.consume d n mtWindow [word]
  let s2 := s1.modLink d n fun l => l.setFlow { s.flow d n flow with credit := fld word 47 0 }
  .next (match (s.flow d n flow).via with
    | some i => s2.send d i { mtype := mtWindow, route := 0, flow := flow, addr := 0, words := [word] }
    | none => s2)

/-- The destination discards the incomplete message of the flow; its words stand in the assembly of the link. -/
def execFlowAbortRx (d : Dev) (n : Nat) (word : Word) (s : State) : Res :=
  let flow : BitVec 10 := word.extractLsb' 0 10
  .next ((s.consume d n mtAbort [word]).modLink d n fun l =>
    if l.rx.partBulk.head?.map (fun h => h.extractLsb' 32 10) = some flow then { l with rx := { l.rx with partBulk := [] } } else l)

/-- A report of a port's subtree. The count that waits on that port for the handle takes it. -/
def execDeliveryReportRx (port : Nat) (words : List Word) (s : State) : Res :=
  let h : Half := (nthW words 0).extractLsb' 32 32
  let s1 := s.consume .jup port mtDelivery words
  .next (match s1.jupC.deliveries.find? fun x => decide (x.handle = h) && x.left.any fun e => decide (e.1 = port) with
    | some x => s1.portDelivered x port (fld (nthW words 1) 63 32)
    | none => s1)

/-! ## LINK_CONTROL_RX (R38, R256 to R258, R263) -/

/-- The role a port's far end is to have; none where the table of R263 expects nothing of it. -/
def State.expectedRole (s : State) (n : Nat) : Option Nat :=
  if s.side = 2 ∨ !s.hasRole then none
  else if n < 88 then some (s.role - 1)
  else if n < 90 then (if s.role = 3 then none else some (s.role + 1))
  else some s.role

def State.roleCheck (s : State) (d : Dev) (n : Nat) (role : Nat) : State :=
  match d with
  | .tsu => s
  | .jup => match s.expectedRole n with
    | some r => if r = role then s.endLinkLevel .jup n cRoleMismatch else s.raiseLinkLevel .jup n cRoleMismatch
    | none => s

/-- What the far end announces is kept (R257); zero buffers mean TIME only (R256). -/
def State.keepAnnounced (s : State) (d : Dev) (n : Nat) (w0 w1 : Word) : State :=
  (s.modCtl d n fun c =>
    { c with farPath := if s.isChild d n then c.farPath else w0.extractLsb' 0 32,
             farRole := w0.extractLsb' 62 2, farPort := w0.extractLsb' 55 7, farEpoch := w0.extractLsb' 32 16, farSeen := true,
             timeOnly := decide (fld w1 31 0 = 0),
             path := if s.isChild d n then w0.extractLsb' 0 32 else c.path })

/-- The epochs of R38: the child of a parent with another EPOCH_ID resyncs and takes it; a TSU whose parents differ
follows the selected one. -/
def State.epochCheck (s : State) (d : Dev) (n : Nat) : State :=
  if !s.isChild d n then s
  else
    let (a, b) := uplinks d
    let la := (s.link d a).ctl
    let lb := (s.link d b).ctl
    let split := d = .tsu ∧ la.farSeen ∧ lb.farSeen ∧ la.farEpoch ≠ lb.farEpoch
    let s1 := if split then (s.raiseLevel d (blkTime d) cEpochSplit {}).modTime d fun t => { t with epochSplit := true }
              else (s.endLevel d (blkTime d) cEpochSplit {}).modTime d fun t => { t with epochSplit := false }
    let sel := match s.selLink d with | some k => k | none => n
    let e := (s.link d n).ctl.farEpoch
    if n = sel ∧ (s.com d).time.epochId ≠ e then ((s1.resyncNow d).modTime d fun t => { t with epochId := e }).modSec d Security.endSession else s1

/-- Streams resume where the far end expects them; credits are what its buffers hold free (R258). -/
def State.resumeStreams (s : State) (d : Dev) (n : Nat) (w1 : Word) : State :=
  let k := ackCount (s.link d n).tx.retained (w1.extractLsb' 40 8 - 1)
  let kt := ackCount (s.link d n).tx.retainedT (w1.extractLsb' 32 8 - 1)
  s.modTx d n fun t =>
    let r := t.retained.drop k
    let rt := t.retainedT.drop kt
    { t with retained := r, retainedT := rt, replayAt := r.head?.map (fun f => hdrFseq f.hdr), replayT := rt.head?.map (fun f => hdrFseq f.hdr),
             ackTick := s.now d, tackTick := s.now d,
             stepCr := fld w1 31 16 - (t.stepBuf - t.stepCr), bulkCr := fld w1 15 0 - (t.bulkBuf - t.bulkCr),
             stepBuf := fld w1 31 16, bulkBuf := fld w1 15 0 }

/-- The dies reached through a port are treated as reset: the die that served jobs is fenced from them, and the next group of
each job names its path (R258, R402, R428). -/
def State.diesReset (s : State) (d : Dev) (n : Nat) : State :=
  match d with
  | .tsu => s
  | .jup =>
    if n < 88 then
      (if s.role = 1 then s.modJup fun j => { j with peerResets := j.peerResets ++ [s.childPath n] } else s).fenceJobsAt n (s.now .jup + 1)
    else s

/-- The session changed: retained frames, sequence state and counters go, and both streams start at 0 (R258, R259). -/
def State.sessionChanged (s : State) (d : Dev) (n : Nat) (w1 : Word) : State :=
  let held := (s.link d n).tx.retained.length
  let first := !(s.link d n).ctl.served
  let s1 := (s.modTx d n fun t =>
    { t with retained := [], retainedT := [], txFseq := 0, txTseq := 0, vseqTime := 0, vseqStep := 0, vseqBulk := 0, replayAt := none,
             replayT := none, curStep := [], curBulk := [], curStepMsg := none, curBulkMsg := none, curHandle := none, ackRx := 0, tackRx := 0,
             stepCr := fld w1 31 16, bulkCr := fld w1 15 0, stepBuf := fld w1 31 16, bulkBuf := fld w1 15 0 }).modRx d n fun r =>
    { r with nextFseq := 0, nextTseq := 0, vseqTime := 0, freshT := true, nak := false, tnak := false, discardingT := false, partTime := [], vseqStep := 0, vseqBulk := 0, discarding := false, partStep := [], partBulk := [], heldStep := 0,
             heldBulk := 0, freedStep := 0, freedBulk := 0, partFrames := 0, passBulk := none }
  let s1 := s1.modCtl d n fun c => { c with cntParity := 0, cntReplay := 0, cntAckTo := 0, cntRetrains := 0 }
  let s2 := if held ≠ 0 then s1.raiseLink d n cSessionLost { detail := detail held } else s1
  if first then s2 else s2.diesReset d n

/-- After ALIGN: the sessions are compared once, and the link goes on to TIMING. -/
def State.alignDone (s : State) (d : Dev) (n : Nat) (w1 : Word) : State :=
  let c := (s.link d n).ctl
  if c.lstate = .align ∧ c.frameLock then
    let sess : BitVec 16 := w1.extractLsb' 48 16
    let s1 := if c.served ∧ c.farSession = sess then s.resumeStreams d n w1 else s.sessionChanged d n w1
    (s1.modCtl d n fun c => { c with lstate := .timing, since := s.now d, seenSession := sess }).modLt d n fun t => { t with exchanges := 0 }
  else s

/-- A rack port whose far end has gone from SERVICE into ALIGN follows it: its SESSION tells (R255, R257). -/
def State.followAlign (s : State) (d : Dev) (n : Nat) (w1 : Word) : State :=
  let c := (s.link d n).ctl
  if d = .jup ∧ n < 88 ∧ c.lstate = .service ∧ c.farSession ≠ w1.extractLsb' 48 16 then
    s.modCtl d n fun c => { c with lstate := .align, since := s.now d }
  else s

def execLinkControlRx (d : Dev) (n : Nat) (words : List Word) (s : State) : Res :=
  let w0 := nthW words 0
  let w1 := nthW words 1
  .next (((((s.consume d n mtControl words).roleCheck d n (fld w0 63 62)).keepAnnounced d n w0 w1).epochCheck d n).followAlign d n w1 |>.alignDone d n w1)

/-! ## Training (R255, R259 to R262) -/

/-- A link enters TRAIN; after SERVICE that is a retrain. -/
def State.toTrain (s : State) (d : Dev) (n : Nat) : State :=
  s.modCtl d n fun c =>
    { c with lstate := .train, since := s.now d, frameLock := false, retrain := false,
             cntRetrains := if c.served then satInc c.cntRetrains else c.cntRetrains }

/-- The end of a link is out of reset: a TSU's uplink other than the always-on one lies in the main domain, and reads DOWN in a
reset and in DARK (R400, R402, R406). -/
def State.endUp (s : State) (d : Dev) (n : Nat) : Bool :=
  match d with
  | .tsu => decide (n = s.aonUplink) || (s.tsu.power.mainUp && decide (s.tsu.power.state ≠ 4))
  | .jup => true
/-- A link leaves DOWN for TRAIN: out of reset and enabled. The far end's reset shows as no signal (R255). -/
def State.mayTrain (s : State) (d : Dev) (n : Nat) : Bool :=
  let c := (s.link d n).ctl
  decide (c.lstate = .down) && !c.disable && !s.idlePort d n && s.endUp d n

def execLinkSignalDetect (d : Dev) (n : Nat) (s : State) : Res :=
  s.due (s.mayTrain d n && decide ((s.link d n).ctl.trainFails < 3)) fun s => s.toTrain d n

/-- Time allowed in a state (R255). TIMING lasts 328 us or more and is not bounded. -/
def stateLimit : LState → Option Nat
  | .down => none
  | .train => some 3200000
  | .align => some 160000
  | .timing => none
  | .service => none

def State.overran (s : State) (d : Dev) (n : Nat) : Bool :=
  let c := (s.link d n).ctl
  match stateLimit c.lstate with
  | some k => decide (c.since.toNat + k < (s.now d).toNat)
  | none => false

def execLinkStateTimeout (d : Dev) (n : Nat) (s : State) : Res :=
  s.due (s.overran d n) fun s =>
    let s1 := (s.linkToDown d n).modCtl d n fun c => { c with trainFails := c.trainFails + 1 }
    if 3 ≤ (s1.link d n).ctl.trainFails then s1.raiseLink d n cTrainFail else s1

def execLinkTrainRetry (d : Dev) (n : Nat) (s : State) : Res :=
  s.due (s.mayTrain d n && decide (3 ≤ (s.link d n).ctl.trainFails) &&
    decide ((s.link d n).ctl.since.toNat + 1600000000 ≤ (s.now d).toNat)) fun s => s.toTrain d n

def execTrainLock (d : Dev) (n : Nat) (s : State) : Res :=
  s.due (decide ((s.link d n).ctl.lstate = .train)) fun s => s.modCtl d n fun c => { c with lstate := .align, since := s.now d }

def execFrameLock (d : Dev) (n : Nat) (s : State) : Res :=
  s.due (decide ((s.link d n).ctl.lstate = .align)) fun s => s.modCtl d n fun c => { c with frameLock := true }

def execLaneLoss (d : Dev) (n : Nat) (s : State) : Res := .next (s.linkToDown d n)

/-- The sides' active jobs behind a port are fenced at the next tick (R261). -/
def execLinkDown (port : Nat) (s : State) : Res :=
  s.due (match (s.link .jup port).ctl.downSince with
    | some t => decide ((s.link .jup port).ctl.lstate ≠ .service ∧ t.toNat + 2 ^ s.downLog2 port ≤ (s.now .jup).toNat) &&
        !(s.link .jup port).ctl.downRaised
    | none => false) fun s =>
    let s1 := (s.modCtl .jup port fun c => { c with downRaised := true }).raiseLinkLevel .jup port cLinkDown
    if port < 88 then s1.fenceJobsAt port (s.now .jup + 1) else s1

def execInjPar (d : Dev) (n : Nat) (src : Src) (s : State) : Res :=
  .next (if s.injDenied d src then s.denied d else s.modCtl d n fun c => { c with injPar := true })

def execRetrain (d : Dev) (n : Nat) (s : State) : Res :=
  .next ((s.linkToDown d n).modCtl d n fun c => { c with retrain := true })

def execDisable (d : Dev) (n : Nat) (v : Bool) (s : State) : Res :=
  .next (if v then (s.linkToDown d n).modCtl d n fun c => { c with disable := true } else s.modCtl d n fun c => { c with disable := false })

/-! ## Fences (R253, R254, R424) -/

/-- Held signals of some channels are discarded (R214). -/
def State.dropHeld (s : State) (cs : List Nat) : State :=
  s.modTsu fun t => { t with sync := { t.sync with held := t.sync.held.filter fun h => !cs.contains h.ch } }

/-- A fence reaches the die: its channels that serve the job hold, all of them for a domain fence, and their held signals go
at the fence tick (R214, R253). -/
def State.fenceDie (s : State) (f : Fence) : State :=
  let cs := chanNums.filter fun c => decide ((s.chan c).state ≠ .unbound) && (f.domain || decide ((s.chan c).job = f.job))
  let s1 := cs.foldl (fun s c => (s.wantHold c 1).modChan c fun x => { x with fenceTick := some f.tick }) s
  if f.tick ≤ s.now .tsu then s1.dropHeld cs else s1

/-- At a rack Jupin a fence is a copy from the peer group: groups open there settle with it (R29), and it takes effect on the
port of the fenced die. No port of another Jupin is that of a die. -/
def execFenceRx (d : Dev) (n : Nat) (words : List Word) (s : State) : Res :=
  let f := fenceOf words
  let s1 := s.consume d n mtFence words
  .next (match d with
    | .tsu => s1.fenceDie f
    | .jup => match s1.pathPort f.path with
      | some (some p) =>
        if s.role = 1 ∧ p < 88 then
          if s1.foreignFence p f then s1.countDiscards [p]
          else
            let g := { f with tick := s1.fenceAfter p f.tick }
            let s2 := s1.fenceGroups p
            let s3 := if g.domain then s2.setHealth p 3 else s2
            (s3.modLink .jup p fun l => { l with fences := l.fences ++ [g] }).send .jup p (localMsg mtFence (fenceWords g))
        else s1
      | _ => s1)

/-- A retained frame without the words of a job: its place in the sequence stays, with what it holds of other messages
(assumption 55). -/
def Frame.without (f : Frame) (j : BitVec 15) : Frame :=
  if f.parts.all fun x => !x.jobs.contains j then f
  else
    let ps := f.parts.filter fun x => !x.jobs.contains j
    let first := match ps.findIdx? FramePart.starts with
      | some i => ((ps.take i).map fun x => x.words.length).foldl (· + ·) 1
      | none => 0
    { hdr := (f.hdr &&& ~~~((0xF : Word) <<< 32)) ||| put 64 35 33 first ||| bit1 64 32 ((ps.head?.map fun x => !x.starts).getD false),
      words := padFrame (ps.flatMap FramePart.words), parts := ps }

/-- A fence covers a message of the jobs given, whatever the tick. -/
def State.fenceCovers (s : State) (f : Fence) (m : Msg) : Bool := f.domain || (s.msgJobs m).contains f.job

/-- Words still to be launched of a message in progress toward the fenced die go with it; each is counted (R253). -/
def State.cutOutgoing (s : State) (p : Nat) (f : Fence) : State :=
  let t := (s.link .jup p).tx
  let s1 := match t.curStepMsg with
    | some m => if s.fenceCovers f m then (s.modTx .jup p fun t => { t with curStep := [], curStepMsg := none, curHandle := none }).discardAt .jup p m else s
    | none => s
  match t.curBulkMsg with
  | some m => if s.fenceCovers f m then (s1.modTx .jup p fun t => { t with curBulk := [], curBulkMsg := none }).discardAt .jup p m else s1
  | none => s1

/-- An incoming BULK message cut off by a fence: an abort follows it toward its destination. -/
def State.cutIncoming (s : State) (p : Nat) (f : Fence) : State :=
  match (s.link .jup p).rx.partBulk with
  | [] => s
  | h :: body =>
    if !s.fenceCovers f (msgOf h body) then s
    else
      let s1 := match (s.link .jup p).rx.passBulk with | some o => s.cutPass o p | none => s
      ((s1.modRx .jup p fun r => { r with partBulk := [], passBulk := none }).modLink .jup p fun l => { l with discards := l.discards + 1 }).jupRoute p
        { msgOf h [] with mtype := mtAbort, words := [(h.extractLsb' 32 10).setWidth 64] }

/-- A fence on a member rank fails the open rounds of its job's Conjunction groups (R225). -/
def State.fenceRounds (s : State) (p : Nat) (f : Fence) : State :=
  (s.fenceJobs p f).foldl (fun s j => (s.conjGroups j).foldl (fun s g =>
    s.failRound g (s.lastBegin j).1 (s.lastBegin j).2) s) s

/-- At its tick a fence begins: what it cuts off is dropped, retained frames of what it covers are never relaunched, and
deliveries still counted end (R252, R253). -/
def State.beginFence (s : State) (p : Nat) (f : Fence) : State :=
  let s1 := (s.cutOutgoing p f).modTx .jup p fun t =>
    if f.domain then { t with retained := [], replayAt := none }
    else { t with retained := t.retained.map fun x => x.without f.job }
  let s2 := (s1.jupC.deliveries.filter fun x => (f.domain || x.jobs.contains f.job) && x.left.any fun e => decide (e.1 = p)).foldl
    (fun s x => s.portDelivered x p 0) s1
  (s2.cutIncoming p f).fenceRounds p f

/-- The filter entry of a peer fence: for the channel that serves the job, or for every channel. -/
def State.addFilter (s : State) (path : Half) (ch : Option Nat) : State :=
  let f : Filter := { path := path, ch := ch, acked := false, bound := chanNums.filter fun c => decide ((s.chan c).state ≠ .unbound) }
  (s.modTsu fun t => { t with filters := t.filters ++ [f] }).nfPresent false ch path

def execPeerFenceRx (words : List Word) (s : State) : Res :=
  s.stepIn .tsu fun s =>
    let f := fenceOf words
    let s1 := s.consume .tsu 0 mtPeerFence words
    if f.domain then s1.addFilter f.path none
    else (chanNums.filter fun c => decide ((s1.chan c).state ≠ .unbound ∧ (s1.chan c).job = f.job)).foldl
      (fun s c => s.addFilter f.path (some c)) s1

/-- The network interface answers the entries in the order presented: installed or cleared, or full. -/
def execNiFilterAck (full : Bool) (s : State) : Res :=
  s.mainIn fun s => match s.tsu.nfAsked with
    | [] => s
    | (clear, ch, path) :: rest =>
      let s1 := s.modTsu fun t => { t with nfAsked := rest }
      if full then s1.modTsu fun t => { t with nfFull := true }
      else if clear then s1.modTsu fun t => { t with nfFull := false }
      else s1.modTsu fun t => { t with filters := updFirst (fun f => decide (f.path = path ∧ f.ch = ch) && !f.acked) (fun f => { f with acked := true }) t.filters }

end Sys2Proof.Machine
end

