-- ==== Sys2Proof/Machine/PowerOps.lean ====
section
/-! DEFINITION. Power states and resets of the die: the next event, the choice of a state, low-rate time, and the one die
reset that several causes share (R60, R392 to R406). -/
namespace Sys2Proof.Machine

def State.power (s : State) : Power := s.tsu.power
def State.modPower (s : State) (f : Power → Power) : State := s.modTsu fun t => { t with power := f t.power }

/-! ## The next event (R394) -/

/-- What the look-ahead carries: its place, reference tick and loops, and the selectors that VOTEs on the way name. -/
structure Look where
  pc : BitVec 16
  ref : Tick
  loops : Table Half
  voted : List Nat
  deriving DecidableEq, Repr

/-- DELTA of the descriptor at an index; 0 where none can be fetched. -/
def State.deltaAt (s : State) (c : Nat) (pc : BitVec 16) : Tick :=
  match s.fetch c pc with
  | .ok d => BitVec.ofNat 64 (dDelta d)
  | .bad _ => 0

/-- The look-ahead over the program path. A descriptor that cannot be fetched ends it at its reference tick, where the
fetch will fault (assumption 70). -/
def State.lookEvent (s : State) (c : Nat) : Nat → Look → Option Tick
  | 0, l => some l.ref
  | n + 1, l =>
    match s.fetch c l.pc with
    | .bad _ => some l.ref
    | .ok d =>
      let t := l.ref + BitVec.ofNat 64 (dDelta d)
      match dKind d with
      | 0 => none
      | 1 => some t
      | 2 => if fld d 122 120 = 4 then some (t + s.deltaAt c (l.pc + 1)) else s.lookEvent c n { l with pc := l.pc + 1, ref := t }
      | 3 =>
        let q := fld d 95 92
        if s.selState c q = .valid ∧ !l.voted.contains q then
          s.lookEvent c n { l with pc := branchTo d (s.selVal c q) l.pc, ref := t }
        else some (t + 16)
      | 4 => s.lookEvent c n { l with pc := (loopTo d l.loops l.pc).1, ref := t, loops := (loopTo d l.loops l.pc).2 }
      | 5 => s.lookEvent c n { l with pc := l.pc + 1, ref := t,
                                      voted := if d.getLsbD 122 || d.getLsbD 123 then l.voted else fld d 81 78 :: l.voted }
      | 7 => s.lookEvent c n { l with pc := l.pc + 1, ref := t + (s.chan c).stretch.setWidth 64 }
      | _ => s.lookEvent c n { l with pc := l.pc + 1, ref := t }

/-- A WAIT with COND 4 of the channel is outstanding. -/
def State.conjWaiting (s : State) (c : Nat) : Bool :=
  s.tsu.sync.waits.any fun r => decide (r.cond = 4 ∧ r.ch = c) && (match r.who with | .chan _ => true | .core _ => false)

def State.cmdLead (s : State) : Nat := (s.reg .tsu 0x6008).toNat

/-- E of one channel, and whether CMD_LEAD gives it. -/
def State.chanEvent (s : State) (c : Nat) : Option (Tick × Bool) :=
  let x := s.chan c
  match x.state with
  | .unbound => none
  | .halted => none
  | .running =>
    if s.conjWaiting c then some (x.prog.refTick + s.deltaAt c x.pc, false)
    else (s.lookEvent c 64 { pc := x.pc, ref := x.prog.refTick, loops := x.prog.loops, voted := [] }).map fun t => (t, false)
  | _ => some (s.now .tsu + BitVec.ofNat 64 s.cmdLead, true)

/-- E: the earliest of the channels' events. -/
def State.nextEvent (s : State) : Option (Tick × Bool) :=
  (chanNums.filterMap s.chanEvent).foldl (fun a e => match a with | none => some e | some b => if e.1 < b.1 then some e else some b) none

/-! ## The choice of a state (R393, R396) -/

def wakeTicks (k : Nat) : Nat := if k = 1 then 32 else if k = 2 then 3200 else if k = 3 then 128000 else if k = 4 then 19200000 else 0
def State.wakeMargin (s : State) : Nat := fld (s.reg .tsu 0x6004) 31 16
def State.maxState (s : State) : Nat := min 4 (fld (s.reg .tsu 0x6004) 2 0)
def State.breakEven (s : State) (k : Nat) : Nat := (s.reg .tsu (0x6008 + 4 * k)).toNat

/-- DARK_READY: the always-on uplink is QUALIFIED (R110). -/
def State.darkReady (s : State) : Bool := decide ((s.ref .tsu s.aonUplink).state = .qualified)

/-- A LOAD_IMAGE or READ_PLATE of the TSU is open. -/
def State.cmdOpen (s : State) : Bool :=
  s.tsuC.cmds.entries.any fun (_, e) => match e with
    | some e => !e.valid && decide (e.opcode = opLoadImage ∨ e.opcode = opReadPlate)
    | none => false

/-- Why a state may not be chosen, as LIMIT codes it; 0 when it may. -/
def State.stateLimit (s : State) (k : Nat) : Nat :=
  let gapOk := match s.nextEvent with
    | some (e, _) => decide ((s.now .tsu).toNat + wakeTicks k + s.wakeMargin ≤ e.toNat)
    | none => true
  let beOk := match s.nextEvent with
    | some (e, _) => decide ((s.now .tsu).toNat + s.breakEven k ≤ e.toNat)
    | none => true
  let byLead := match s.nextEvent with | some (_, b) => b | none => false
  if s.maxState < k then 8
  else if !gapOk then (if byLead then 3 else 1)
  else if !beOk then 2
  else if 3 ≤ k ∧ (s.tsuC.sec.session = .control ∨ s.tsuC.sec.pending) then 4
  else if k < 4 then 0
  else if !(chanNums.all fun c => decide ((s.chan c).state = .unbound ∨ (s.chan c).state = .ready ∨ (s.chan c).state = .held)) then 7
  else if !s.darkReady then 5
  else if s.power.warn then 6
  else if s.cmdOpen then 9 else 0

/-- The deepest state allowed, with the limit on the one below it. -/
def State.chooseState (s : State) : Nat × Nat :=
  if s.tsu.chans.any fun (_, x) => x.running then (0, 1)
  else
    let k := ([4, 3, 2, 1].find? fun k => decide (s.stateLimit k = 0)).getD 0
    (k, if k = 4 then 0 else s.stateLimit (k + 1))

/-- The choice is made, and a new one is requested (R393, R431). -/
def State.powerChoice (s : State) : State :=
  if s.power.waking then s
  else
    let (k, lim) := s.chooseState
    let s1 := s.modPower fun p => { p with chosen := BitVec.ofNat 3 k, limit := BitVec.ofNat 4 lim }
    if s.power.chosen.toNat = k then s1 else s1.emit (.pwrReq k)

/-! ## Low-rate time (R60, R99, R110) -/

/-- The main rail is in warning, or DARK is entered: exchanges go on at the low rate over the always-on uplink alone, and TRACK
becomes LOWRATE on it; no other Clock Room state has this event (R60, R99, R110). The
averages of the other uplink start anew when it relocks (assumption 29). -/
def State.enterLowRate (s : State) : State :=
  let s1 :=
    if s.tsuC.cr.state = .track then
      let s2 := (s.switchRef .tsu s.aonUplink).modCr .tsu fun c => { c with state := .lowrate }
      s2.modTime .tsu fun t => { t with state := if t.state = .locked then .degraded else t.state, holdSince := none }
    else s
  (s1.modTime .tsu fun t => { t with lowRate := true }).modLt .tsu (1 - s.aonUplink)
    fun t => { t with xs := [], ds := [], ph := [], t1 := none, t2 := none, t3 := none }

/-- The full rate resumes from the next boundary; LOWRATE becomes TRACK, LOCKED again after one full average, and a reference
that a FORCE names meanwhile is taken (R60, R96, R99). -/
def State.leaveLowRate (s : State) : State :=
  let s1 := s.modTime .tsu fun t => { t with lowRate := false, fullFrom := s.nextBoundary .tsu }
  if s1.tsuC.cr.state = .lowrate then
    (s1.modCr .tsu fun c => { c with state := .track, dwellStart := s.nextBoundary .tsu, dwellOk := true }).crSelect .tsu
  else s1

/-! ## Resets (R401 to R406) -/

/-- A link end whose streams start anew, with the next SESSION; its status and counters read their reset values (R406). -/
def Link.restart (l : Link) (st : LState) (now : Tick) : Link :=
  { l with rx := {}, tx := {}, fences := [], flows := [], held := [], holding := false, time := { l.time with txd := [] },
           ctl := { l.ctl with lstate := st, frameLock := false, since := now, session := l.ctl.session + 1, cntParity := 0,
                               cntReplay := 0, cntAckTo := 0, cntRetrains := 0, injPar := false, retrain := false, flight := 0, path := 0,
                               timeOnly := false, sameReplay := 0, sameReplayT := 0, episodes := [], trainFails := 0 } }
/-- The always-on uplink in a die reset: its time-code exchanges keep running, so the TIME stream goes on as it is; STEP and BULK
start anew, through ALIGN (R402). -/
def Link.restartData (l : Link) (st : LState) (now : Tick) : Link :=
  let r := l.restart st now
  { r with rx := { r.rx with nextTseq := l.rx.nextTseq, vseqTime := l.rx.vseqTime, tnak := l.rx.tnak, discardingT := l.rx.discardingT, freshT := true },
           tx := { r.tx with txTseq := l.tx.txTseq, vseqTime := l.tx.vseqTime, tackRx := l.tx.tackRx, retainedT := l.tx.retainedT,
                             replayT := l.tx.replayT, qTime := l.tx.qTime, timeCode := l.tx.timeCode, quality := l.tx.quality,
                             tackTick := l.tx.tackTick, lastLaunch := l.tx.lastLaunch } }

/-- The tables on the main rail, and the words of the main domain that are not kept, read their reset values. The
always-on registers below 0x1000, the command port, power, Shutter and identity groups are kept (R400, R406). -/
def keptReg (off : Nat) : Bool :=
  decide (off < 0x40) || decide (0x80 ≤ off ∧ off < 0x1000) || decide (0x5000 ≤ off ∧ off < 0x8000)

/-- Tables that lose their contents with the main rail (R400, R406). -/
def State.loseTables (s : State) : State :=
  (s.modCom .tsu fun c => { c with regs := c.regs.filter fun (k, _) => decide (k < 0x01000000), sev := [] }).modTsu fun t =>
    { t with badEph := [], badWords := [], injArm := none }

/-- Commands whose work ends with the main domain are posted ABANDONED (R345, R402). -/
def State.abandon (s : State) : State :=
  (s.tsuC.cmds.entries.filterMap fun (_, e) => match e with
    | some e => if !e.valid && decide (e.opcode = opLoadImage ∨ e.opcode = opReadPlate) then some e.handle else none
    | none => none).foldl (fun s h => s.post .tsu h stAbandoned []) s

/-- Streams stop and shadow writes are dropped on every bound channel. -/
def State.stopAll (s : State) : State :=
  (chanNums.filter fun c => decide ((s.chan c).state ≠ .unbound)).foldl (fun s c => ((s.stopStreams c).emit (.shd c false)).cancelWaits c) s

/-- A die reset (R402, R406): one operation for every cause. -/
def State.dieReset (s : State) (cause : BitVec 4) : State :=
  if s.power.state = 4 then s.modPower fun p => { p with rstPend := some cause }
  else
    let aon := s.aonUplink
    let s1 := (s.abandon.stopAll).loseTables
    let s2 := s1.modCom .tsu fun c =>
      { c with regs := c.regs.filter fun (k, _) => keptReg k, blocks := [], groups := [], load := none, loadQueue := [], inbox := [],
               shut := { c.shut with plates := [] } }
    let s3 := { s2 with tsu := { power := { s2.tsu.power with cause := cause, rstTick := s.now .tsu, rstPend := none, mainUp := false, mainHold := 64, held := [] } } }
    let s4 := s3.modLink .tsu aon fun l => l.restartData (if l.ctl.lstate = .service then .align else l.ctl.lstate) (s.now .tsu)
    let s5 := s4.modLink .tsu (1 - aon) fun l => l.restart .down (s.now .tsu)
    s5.emit (.mainRst false)

/-- What acts on a channel on the tick after its write (R382, R403). -/
def State.nextTick (s : State) (a : ChanAct) (c : Nat) : State := s.modTsu fun t => { t with chanActs := t.chanActs ++ [(a, c, s.now .tsu + 1)] }

/-- A STOP, CONTINUE or channel reset that has been asked for and has not acted; the bit that asked reads 1 (R382, R403). -/
def State.actPending (s : State) (a : ChanAct) : Bool := s.tsu.chanActs.any fun e => decide (e.1 = a)

/-- OPEN, STOP or CONTINUE of TSU_DBG_CTRL reads 1. -/
def State.dbgBusy (s : State) (d : Dev) : Bool :=
  (s.com d).sec.opening.isSome || (decide (d = .tsu) && (s.actPending .stop || s.actPending .go))

/-- Return the objects and records that a channel owns to reset values. -/
def State.clearObjects (s : State) (c : Nat) : State :=
  let ks := s.ownedSlots c
  let rs := s.ownedRecs c
  s.modSync fun y =>
    { y with slots := y.slots.filter fun (k, _) => !ks.contains k, recs := y.recs.filter fun (k, _) => !rs.contains k,
             held := y.held.filter fun h => !decide (h.ch = c) }

/-- A channel reset (R403): the step stops, the channel's state returns to reset, and the rank of a bound channel is
fenced from its job. -/
def State.chanReset (s : State) (c : Nat) : State :=
  let x := s.chan c
  let bound := decide (x.state ≠ .unbound)
  let ctx : Ctx := chCtx c
  let ws := s.reportWords .tsu 0 (blkChan c) 2 2 (s.fblock .tsu (blkChan c)).overflow (s.now .tsu) ctx.word 0
  let s1 := match x.state with
    | .running => ((s.stopOne c 4).stopMates (s.lockMates c) cCommitFail ctx)
    | .stopped => (s.emit (.shd c false)).cancelWaits c
    | _ => s
  let s2 := ((s1.clearObjects c).modTsu fun t => { t with chans := tset {} t.chans c {} }).unbindFilters c
  let s3 := s2.modBlock .tsu (blkChan c) fun _ => {}
  if bound then s3.report .tsu ws else s3

end Sys2Proof.Machine
end

