-- ==== Sys2Proof/Machine/Power.lean ====
section
/-! DEFINITION. The power, supply and reset commands of the TSU (R336 to R339, R392 to R408, R414, R431). -/
namespace Sys2Proof.Machine

/-! ### STREAM_END (R393) -/

def execStreamEnd (c : Fin 8) (s : State) : Res :=
  s.mainIn fun s => (s.modChan c fun x => { x with running := false }).powerChoice

/-! ### WAKE_START (R393, R397) -/

/-- A STEP message waits for a die in DARK. -/
def State.stepWaits (s : State) : Bool :=
  s.power.held.any fun (_, m) => !isBulk m.mtype

/-- The wake is due: WAKE(S) and the margin before E, or at once for a message that waits in DARK. -/
def State.wakeDue (s : State) : Bool :=
  let k := s.power.state.toNat
  decide (k ≠ 0) && !s.power.waking &&
  ((match s.nextEvent with
    | some (e, _) => decide (e.toNat ≤ (s.now .tsu).toNat + wakeTicks k + s.wakeMargin)
    | none => false) || (decide (k = 4) && s.stepWaits))

def State.startWake (s : State) : State :=
  (s.modPower fun p => { p with waking := true, darkWake := decide (p.state = 4), chosen := 0,
                                wakeBy := s.now .tsu + BitVec.ofNat 64 (wakeTicks p.state.toNat) }).emit (.pwrReq 0)

def execWakeStart (s : State) : Res := s.due s.wakeDue State.startWake

/-! ### PM_STATE_CHANGE (R379, R381, R392, R397, R431) -/

/-- What entering DARK loses: the tables on the main rail, the other uplink, the debug session; time goes to low rate. -/
def State.enterDark (s : State) : State :=
  let s1 := s.loseTables.enterLowRate
  let s2 := s1.modSec .tsu Security.endSession
  ((s2.linkToDown .tsu (1 - s.aonUplink)).modPower fun p => { p with mainUp := false, mainHold := 64 }).emit (.mainRst false)

/-- A session whose OPEN was made in DEEP opens on reaching NAP (R381). -/
def State.openPending (s : State) : State :=
  if s.tsuC.sec.pending then s.modSec .tsu fun x => { x with session := .control, pending := false } else s

def State.powerNow (s : State) (k : Nat) : State :=
  let old := s.power.state.toNat
  let s1 := s.modPower fun p =>
    { p with state := BitVec.ofNat 3 k, entries := if old < k then tmod 0 p.entries k satInc else p.entries,
             waking := p.waking && decide (k ≠ 0) || p.darkWake }
  let s2 := if k = 4 ∧ old ≠ 4 then s1.enterDark else if old = 4 ∧ k ≠ 4 then s1.leaveLowRate.deliverHeld else s1
  if k ≤ 2 then s2.openPending else s2

def execPmStateChange (state : Fin 5) (s : State) : Res := .next (s.powerNow state.val)

/-! ### LATE_WAKE (R399, R431) -/

/-- The state is still too deep at the deadline: the action that needed the die is late (R125). -/
def execLateWake (s : State) : Res :=
  s.due (s.power.waking && decide (s.power.state ≠ 0) && decide (s.power.wakeBy ≤ s.now .tsu)) fun s =>
    (chanNums.filter fun c => decide ((s.chan c).state = .running)).foldl (fun s c => s.modProg c fun p => { p with lateNext := true }) s

/-! ### MAIN_RESET_RELEASE (R398, R414) -/

/-- Words of the wake report. -/
def State.wakeReport (s : State) : List Word := [0, put 64 34 32 4 ||| put 64 31 0 (s.selfPath .tsu).toNat]

/-- The main domain leaves reset, 64 ticks after it entered it at the earliest: a die reset that waited for the wake is applied, and a wake from DARK is reported. -/
def State.mainRelease (s : State) : State :=
  let s1 := (s.modPower fun p => { p with mainUp := true }).emit (.mainRst true)
  let s2 := if s.power.darkWake then s1.sendAll .tsu [0, 1] (localMsg mtCompletion s1.wakeReport) else s1
  match s.power.rstPend with
  | some c => ((s2.modPower fun p => { p with state := 0 }).dieReset c).modPower fun p => { p with mainUp := true }
  | none => s2

def execMainResetRelease (s : State) : Res := s.due (!s.power.mainUp && decide (s.power.mainHold = 0)) State.mainRelease

/-! ### Resets (R401 to R405) -/

/-- Power-on reset: everything but the fuses returns to reset; SESSION goes on from its last value. The block is in reset until
the next tick (assumption 176). -/
def State.powerOn (s : State) : State :=
  let sess (n : Nat) : Link := { ctl := { session := (s.link .tsu n).ctl.session + 1 } }
  { s with tsuC := { sec := { fuses := s.tsuC.sec.fuses }, links := tset {} (tset {} [] 0 (sess 0)) 1 (sess 1) },
           tsu := { power := { por := true } } }

def execPowerOnReset (s : State) : Res := .next s.powerOn

/-- In DARK the main rail is off, and its fall is no reset. -/
def execMainRailFall (s : State) : Res := s.due (decide (s.power.state ≠ 4)) fun s => s.dieReset 1

/-- The reset input; a loss of PLL lock counts while tsu_main_rst_n is high. -/
def execDieResetInput (pllLoss : Bool) (s : State) : Res := s.due (!pllLoss || s.power.mainUp) fun s => s.dieReset 2

def execDieRst (s : State) : Res :=
  .next (if s.anyBound then s.modPower fun p => { p with rstErr := 2 } else s.dieReset 4)

def execChRst (c : Fin 8) (s : State) : Res := .next (s.nextTick .reset c)

def execLinkRst (u : Fin 2) (s : State) : Res :=
  .next (if (s.link .tsu u).ctl.disable then s.modLink .tsu u fun l => l.restart .down (s.now .tsu)
         else s.modPower fun p => { p with rstErr := 1 })

/-! ### Supply warning (R336 to R339, R407, R408) -/

def execSupplyWarn (s : State) : Res :=
  s.due (!s.power.warn && decide (s.power.state ≠ 4) && !s.power.darkWake) fun s =>
    let s1 := s.raiseLevel .tsu (blkPower .tsu) cSupplyWarn {}
    let s2 := (s1.modPower fun p => { p with warn := true, warnAt := s.now .tsu, fenced := false, warnCnt := satInc p.warnCnt }).enterLowRate
    s2.wantHoldAll 6

/-- The die reports ready: the report of a cleared SUPPLY_WARN (R337; assumption 71). -/
def State.reportReady (s : State) : State :=
  s.report .tsu (s.reportWords .tsu cSupplyWarn (blkPower .tsu) 3 0 false (s.now .tsu) ({} : Ctx).word 0)

/-- An orderly fence from every job the die serves: running steps stop, and the rack pair is told (R338). -/
def State.orderlyFence (s : State) (code : Code) : State :=
  let s1 := (chanNums.filter fun c => decide ((s.chan c).state = .running)).foldl (fun s c => s.stopStep c 6 code {}) s
  let s2 := (s1.raiseFault .tsu (blkPower .tsu) code {}).modPower fun p => { p with fenced := true }
  s2.report .tsu (s2.reportWords .tsu code (blkPower .tsu) 2 2 false (s.now .tsu) ({} : Ctx).word 0)

def execSupplyWarnClear (sumsOk : Bool) (s : State) : Res :=
  s.due s.power.warn fun s =>
    let dur := (s.now .tsu).toNat - s.power.warnAt.toNat
    let s1 := (s.modPower fun p => { p with warn := false, lastDur := BitVec.ofNat 16 (min 0xFFFF (dur / 64)) }).leaveLowRate
    let s2 := s1.endLevel .tsu (blkPower .tsu) cSupplyWarn {}
    if dur ≤ 32000 then s2.reportReady
    else if s.power.fenced then s2
    else if dur ≤ 160000 ∧ sumsOk then s2.reportReady
    else (s2.raiseFault .tsu (blkImage .tsu) cImageSectionBad {}).orderlyFence cBrownoutFence

def execBrownoutFence (s : State) : Res :=
  s.due (s.power.warn && !s.power.fenced && decide (s.power.warnAt.toNat + 160000 ≤ (s.now .tsu).toNat)) fun s =>
    s.orderlyFence cBrownoutFence

end Sys2Proof.Machine
end

