-- ==== Sys2Proof/Machine/Debug.lean ====
section
/-! DEFINITION. Debug sessions and the life-cycle record (R373 to R382). -/
namespace Sys2Proof.Machine
open Host

/-- Encoding of R374, and back; code 3 is reserved. -/
def Level.code : Level → Nat
  | .opened => 0
  | .owner => 1
  | .sealed_ => 2
def levelOf (n : Nat) : Level := if n = 0 then .opened else if n = 1 then .owner else .sealed_

/-- Words of a list from `a` on, `n` of them. -/
def sliceW (ws : List Word) (a n : Nat) : List Word := (List.range n).map fun i => nthW ws (a + i)

/-- DEVICE_ID of a device, from its identity fuses. -/
def deviceId (d : Dev) : BitVec 64 := Config.fuseDeviceId (decide (d = .jup))

/-! ### DBG_CHAL, DBG_OPEN, DEBUG_TOKEN_CHECKED (R376 to R378, R381) -/

def execDbgChal (d : Dev) (s : State) : Res :=
  .next ((s.fresh.2).modSec d fun x => { x with challenge := s.fresh.1, chalFresh := true })

/-- OPEN reads 1 until the session is open or refused. -/
def execDbgOpen (d : Dev) (s : State) : Res :=
  .next (s.modSec d fun x => { x with opening := match x.opening with | some t => some t | none => some (s.now d) })

/-- The 29 words of the token. -/
def Security.tokenWords (x : Security) : List Word := (List.range 29).map fun i => tget 0 x.token i

/-- The token is signed by the owner key; another MAGIC fails here (assumption 72). -/
def tokenSigned (x : Security) (ws : List Word) : Bool :=
  decide (fld (nthW ws 0) 63 32 = 0x5144544B) && decide (x.fuses.owner ≠ 0 ∧ Config.sha384 (sliceW ws 5 12) = x.fuses.owner) &&
  Config.ecdsaVerify (sliceW ws 5 12) (sliceW ws 17 12) (Config.sha384 (sliceW ws 0 17))

/-- No session opens in DARK (R381). -/
def State.inDark (s : State) (d : Dev) : Bool := decide (d = .tsu ∧ s.power.state = 4)

/-- REFUSE of an OPEN; 0 opens. With several causes, the first in the order of R378. -/
def State.openRefusal (s : State) (d : Dev) : Nat :=
  let x := (s.com d).sec
  let ws := x.tokenWords
  if x.level = .opened ∧ !x.imgLock then (if s.inDark d then 6 else if x.req = 3 then 7 else 0)
  else if x.imgLock ∨ (x.level = .sealed_ ∧ x.req = 2) then 1
  else if !tokenSigned x ws then 2
  else if nthW ws 1 ≠ deviceId d then 3
  else if nthW ws 2 ≠ x.challenge ∨ !x.chalFresh then 4
  else if (nthW ws 3).extractLsb' 48 16 ≠ (s.com d).time.epochId ∨ nthW ws 4 < s.now d then 5
  else if s.inDark d then 6
  else if fld (nthW ws 0) 31 30 < x.req.toNat ∨ x.req = 3 then 7
  else 0

/-- The session opens; CONTROL asked for in DEEP waits for NAP (R381). -/
def State.openSession (s : State) (d : Dev) : State :=
  let x := (s.com d).sec
  let ws := x.tokenWords
  let token := x.level ≠ .opened
  let s1 := s.modSec d fun x =>
    { x with inject := decide token && (nthW ws 0).getLsbD 29, notAfter := if token then nthW ws 4 else 0xFFFFFFFFFFFFFFFF }
  if x.req = 2 ∧ d = .tsu ∧ s.power.state = 3 then (s1.modSec d fun x => { x with pending := true }).powerChoice
  else s1.modSec d fun x => { x with session := if x.req = 1 then .observe else if x.req = 2 then .control else .none }

def State.tokenChecked (s : State) (d : Dev) : State :=
  let r := s.openRefusal d
  let s1 := s.modSec d fun x => { x with opening := none }
  let s2 := if r = 0 then s1.openSession d
            else (s1.modSec d fun x => { x with refuse := BitVec.ofNat 4 r }).raiseFault d (blkImage d) cTokenBad {}
  s2.modSec d fun x => { x with chalFresh := false }

/-- Reserved fields of a token that is checked are zero (R9). -/
def tokenReserved (x : Security) : Bool :=
  decide (x.level ≠ .opened) && decide (fld (nthW x.tokenWords 0) 28 0 ≠ 0 ∨ fld (nthW x.tokenWords 3) 47 0 ≠ 0)

/-- A token is checked once the life-cycle record has been read (R375). -/
def execDebugTokenChecked (d : Dev) (s : State) : Res :=
  let x := (s.com d).sec
  if !x.opening.isSome || !x.lcRead then .next s
  else if tokenReserved x then .fault (.unpredictable "R9")
  else .next (s.tokenChecked d)

/-! ### DBG_CLOSE, DEBUG_SESSION_EXPIRY (R379) -/

def execDbgClose (d : Dev) (s : State) : Res := .next (s.modSec d Security.endSession)

def execDebugSessionExpiry (d : Dev) (s : State) : Res :=
  s.due (decide ((s.com d).sec.notAfter < s.now d)) fun s => s.modSec d Security.endSession

/-! ### DBG_STOP, DBG_CONTINUE (R382) -/

/-- STOP stops the step as R133 directs, with HOLD_CAUSE 9; the lock group's other members stop with it (R118). -/
def State.dbgStopStep (s : State) (c : Nat) : State :=
  if (s.chan c).state ≠ .running then s else (s.stopOne c 9).stopMates (s.lockMates c) cCommitFail {}

/-- CONTINUE acts only on a STOPPED channel: its wait counts as satisfied now, its next descriptor counts from now, and the
step's shadow writes are dropped (R145). -/
def State.dbgGoOn (s : State) (c : Nat) : State :=
  if (s.chan c).state ≠ .stopped then s
  else ((s.emit (.shd c false)).modChan c fun x =>
    { x with state := .running, holdCause := 0, debug := true,
             prog := { x.prog with refTick := s.now .tsu, readyTick := s.now .tsu, lateNext := false } }).repeatBroken c { index := (s.chan c).pc }

/-- STOP or CONTINUE of a channel is accepted in a CONTROL session, and acts on the tick after the write (R380, R382). -/
def State.dbgAsk (s : State) (go : Bool) (c : Nat) : State :=
  if s.tsuC.sec.session = .control then s.nextTick (if go then .go else .stop) c else s.denied .tsu

def State.chanAct (s : State) (a : ChanAct) (c : Nat) : State :=
  match a with
  | .stop => s.dbgStopStep c
  | .go => s.dbgGoOn c
  | .reset => s.chanReset c
/-- What was asked for this tick acts, oldest first (R382, R403). -/
def State.chanActsDue (s : State) : State :=
  (s.tsu.chanActs.filter fun e => decide (e.2.2 ≤ s.now .tsu)).foldl (fun s e => s.chanAct e.1 e.2.1)
    (s.modTsu fun t => { t with chanActs := t.chanActs.filter fun e => decide (s.now .tsu < e.2.2) })

def execDbgStop (c : Fin 8) (s : State) : Res := .next (s.dbgAsk false c)
def execDbgContinue (c : Fin 8) (s : State) : Res := .next (s.dbgAsk true c)

/-! ### LIFECYCLE_READ (R374, R375, R434, R448) -/

/-- Key words of R371 are signed by a vendor root key, or by the owner of the fuses. -/
def keyAccepted (f : Fuses) (key : List Word) : Bool :=
  decide (Config.sha384 key = Config.vendorKeyDigest) || decide (f.owner ≠ 0 ∧ Config.sha384 key = f.owner)

/-- OWNER_KEY of a record. -/
def recordOwner (ws : List Word) : BitVec 384 :=
  (List.range 6).foldl (fun a i => a ||| ((nthW ws (3 + i)).setWidth 384) <<< (64 * i)) 0

def recordLevel (ws : List Word) : Nat := fld (nthW ws 0) 31 30
def recordSeq (ws : List Word) : Nat := fld (nthW ws 2) 63 32

/-- A valid record (R375). -/
def recordValid (d : Dev) (f : Fuses) (ws : List Word) : Bool :=
  let lv := recordLevel ws
  decide (fld (nthW ws 0) 63 32 = 0x514C4352) && decide (nthW ws 1 = deviceId d) && decide (f.level.code ≤ lv ∧ lv < 3) &&
  decide (f.seq ≤ recordSeq ws) &&
  (decide (lv = 0) || (decide (recordOwner ws ≠ 0) && decide (f.owner = 0 ∨ f.owner = recordOwner ws))) &&
  keyAccepted f (sliceW ws 9 12) && Config.ecdsaVerify (sliceW ws 9 12) (sliceW ws 21 12) (Config.sha384 (sliceW ws 0 21))

/-- The copy in force: the valid one, of two the one with the larger RECORD_SEQ, else the first (R448). -/
def chooseCopy (v0 v1 : Bool) (q0 q1 : Nat) : Option Bool :=
  if v0 && (!v1 || decide (q1 ≤ q0)) then some false else if v1 then some true else none

/-- A valid record sets the level and blows the fuses. -/
def State.applyRecord (s : State) (d : Dev) (ws : List Word) : State :=
  let f := (s.com d).sec.fuses
  let lv := levelOf (recordLevel ws)
  let f' : Fuses := { level := lv, owner := if f.owner = 0 ∧ lv ≠ .opened then recordOwner ws else f.owner,
                      seq := max f.seq (min (recordSeq ws) 64) }
  let s1 := (s.modSec d fun x =>
    { x with fuses := f', level := lv, lcOk := true, imgLock := false, allowVendor := (nthW ws 0).getLsbD 29,
             minImageVersion := (nthW ws 2).extractLsb' 0 32 }).endLevel d (blkImage d) cLifecycleBad {}
  if f' = f then s1 else s1.emit (.fuseProg d lv.code f'.seq)

/-- A missing or invalid record: OPEN when LEVEL_FUSE is OPEN, else the level of the fuse with IMG_LOCK. -/
def State.noRecord (s : State) (d : Dev) : State :=
  let lv := (s.com d).sec.fuses.level
  (s.modSec d fun x => { x with level := lv, lcOk := false, imgLock := decide (lv ≠ .opened), allowVendor := false,
                                minImageVersion := 0 }).raiseLevel d (blkImage d) cLifecycleBad {}

def State.lifecycle (s : State) (d : Dev) (c0 c1 : List Word) : State :=
  let f := (s.com d).sec.fuses
  let v1 := decide (d = .jup) && recordValid d f c1
  let pick := chooseCopy (recordValid d f c0) v1 (recordSeq c0) (recordSeq c1)
  let s1 := (match pick with
    | some false => s.applyRecord d c0
    | some true => s.applyRecord d c1
    | none => s.noRecord d).modSec d fun x => { x with lcRead := true }
  match d with
  | .tsu => s1
  | .jup => s1.modJup fun j => { j with flash := tset [] (tset [] [] 0 c0) 1 c1, lcCopy := pick }

/-- A valid record whose reserved bits are not zero (R9). -/
def recordReserved (d : Dev) (f : Fuses) (ws : List Word) : Bool := recordValid d f ws && decide (fld (nthW ws 0) 28 0 ≠ 0)

/-- The record is read once after each power-on reset. -/
def execLifecycleRead (d : Dev) (copy0 copy1 : List Word) (s : State) : Res :=
  let x := (s.com d).sec
  if x.lcRead then .next s
  else if recordReserved d x.fuses copy0 || (decide (d = .jup) && recordReserved d x.fuses copy1) then .fault (.unpredictable "R9")
  else .next (s.lifecycle d copy0 copy1)

end Sys2Proof.Machine
end

