-- ==== Sys2Proof/Machine/RegRead.lean ====
section
/-! DEFINITION. What a register word reads: each group's layout over the state behind it (R61, R85, R114, R169, R203, R231,
R262, R308, R340, R346, R360, R390, R391, R411, R464, R471 to R473). A word without a layout here reads as stored. -/
namespace Sys2Proof.Machine

/-! ### Shapes -/

/-- One half of a 64-bit value. -/
def half {w : Nat} (v : BitVec w) (i : Nat) : Half := v.extractLsb' (32 * i) 32

/-- Bits 0 to 31 of a map of booleans. -/
def bits32 (f : Nat → Bool) : Half := (List.range 32).foldl (fun a i => a ||| bit1 32 i (f i)) 0

/-- A signed number as a register. -/
def sHalf (v : Int) : Half := BitVec.ofInt 32 v

/-- Key of a select, holding or latch register: each APB subordinate of a TSU has its own (R462). -/
def winKey (src : Src) (off : Nat) : Nat := if src = .jtag then off + 0x1000000 else off
def State.win (s : State) (d : Dev) (src : Src) (off : Nat) : Half := tget 0 (s.com d).win (winKey src off)
def State.setWin (s : State) (d : Dev) (src : Src) (off : Nat) (v : Half) : State :=
  s.modCom d fun c => { c with win := tset 0 c.win (winKey src off) v }

/-- The two devices' offsets differ in some groups: the word's place in a group at `b`, if `off` lies in `n` bytes from it. -/
def inGrp (b n off : Nat) : Option Nat := if b ≤ off ∧ off < b + n then some (off - b) else none

/-! ### Identity and security (R390, R464) -/

def Session.code : Session → Nat
  | .none => 0
  | .observe => 1
  | .control => 2

def State.fwSet (s : State) : Bool := (s.reg .tsu 0x44).getLsbD 31

def State.readIdent (s : State) (d : Dev) (o : Nat) : Half :=
  let x := (s.com d).sec
  let jup := decide (d = .jup)
  match o with
  | 0x00 =>
    if jup then put 32 31 24 0x96 ||| put 32 23 16 0xB1 ||| put 32 15 8 (Config.fuseGrade true).toNat ||| (s.reg .jup 0 &&& 0xF0)
    else put 32 31 24 3 ||| put 32 23 16 (Config.fuseStepping false).toNat ||| put 32 15 8 (Config.fuseGrade false).toNat
  | 0x04 => if jup then 0 else put 32 31 16 Config.fuseMapClass.toNat ||| put 32 11 0 Config.fuseCores.toNat
  | 0x08 => half (deviceId d) 0
  | 0x0C => half (deviceId d) 1
  | 0x40 =>
    put 32 23 16 (bits32 fun c => decide (c < 8) && (s.chan c).hostSel).toNat |||
    put 32 15 8 (bits32 fun c => decide (c < 8) && (s.chan c).debug).toNat |||
    put 32 7 0 (bits32 fun c => decide (c < 8) && (s.chan c).cycle).toNat
  | 0x80 =>
    put 32 31 30 x.level.code ||| bit1 32 29 x.lcOk ||| bit1 32 28 x.sealedImg ||| put 32 27 26 x.session.code |||
    bit1 32 25 x.inject ||| bit1 32 24 x.imgLock ||| put 32 6 0 x.fuses.seq
  | 0x84 => half x.challenge 0
  | 0x88 => half x.challenge 1
  | 0x98 => put 32 31 29 x.dbgCh.val ||| put 32 9 8 x.req.toNat ||| bit1 32 5 (!jup && s.actPending .go) |||
      bit1 32 4 (!jup && s.actPending .stop) ||| bit1 32 1 x.opening.isSome
  | 0x9C => bit1 32 31 x.pending ||| put 32 27 24 x.refuse.toNat ||| put 32 15 0 x.denied.toNat
  | 0xA0 => half x.notAfter 0
  | 0xA4 => half x.notAfter 1
  | 0x44 => s.reg .tsu 0x44
  | _ => if 0x10 ≤ o ∧ o < 0x40 then half x.imageDigest ((o - 0x10) / 4) else 0

/-! ### Time (R61) -/

def State.readTime (s : State) (d : Dev) (o : Nat) : Half :=
  let t := (s.com d).time
  match o with
  | 0x00 => half t.htc 0
  | 0x04 => t.htcHi
  | 0x08 =>
    put 32 31 16 t.epochId.toNat ||| put 32 15 8 t.temp.toNat |||
    bit1 32 5 (match (s.com d).cr.selected with | some r => decide (r.val = 1 ∨ r.val = 5) | none => false) |||
    bit1 32 4 (decide (d = .tsu) && (s.link d 0).asym.bank) ||| put 32 2 0 t.state.code
  | _ => s.reg d (timeBase d + o)

/-- OFFSET, RTD or ASYM of a link. -/
def State.readLinkTime (s : State) (d : Dev) (n i : Nat) : Half :=
  let l := (s.link d n).time
  if i = 0 then sHalf l.offset else if i = 1 then sHalf l.rtd else sHalf l.asym

def asymSwapWord (a : Asym) : Half := bit1 32 1 a.bad ||| bit1 32 0 a.go

/-- TSU words 0x110 to 0x148. -/
def State.readTsuTime (s : State) (src : Src) (o : Nat) : Half :=
  if o < 0x128 then s.readLinkTime .tsu ((o - 0x110) / 4 % 2) ((o - 0x110) / 8)
  else if o = 0x128 then (s.link .tsu 1).time.missed ++ (s.link .tsu 0).time.missed
  else if o = 0x130 then s.win .tsu src 0x130
  else if o < 0x144 then
    half (Asym.inactive (s.link .tsu (fld (s.win .tsu src 0x130) 0 0)).asym) ((o - 0x134) / 4)
  else if o = 0x148 then asymSwapWord (s.link .tsu 0).asym else 0

/-- A port's time block (R467). -/
def State.readPortTime (s : State) (p o : Nat) : Half :=
  if o < 0xC then s.readLinkTime .jup p (o / 4)
  else if o = 0xC then (s.link .jup p).time.missed.setWidth 32
  else if o < 0x20 then half (Asym.inactive (s.link .jup p).asym) ((o - 0x10) / 4)
  else if o = 0x24 then asymSwapWord (s.link .jup p).asym else 0

/-! ### Links (R262) -/

def State.readLink (s : State) (d : Dev) (n o : Nat) : Half :=
  let l := s.link d n
  match o with
  | 0x00 => put 32 31 29 l.ctl.lstate.code ||| bit1 32 28 l.ctl.timeOnly ||| put 32 27 21 l.tx.retained.length ||| put 32 15 0 l.ctl.flight.toNat
  | 0x04 => s.reg d (linkBase d n + 4) ||| bit1 32 2 l.ctl.injPar ||| bit1 32 1 l.ctl.retrain ||| bit1 32 0 l.ctl.disable
  | 0x08 => l.ctl.cntParity ++ l.ctl.cntReplay
  | 0x0C => put 32 31 16 l.ctl.cntAckTo.toNat ||| put 32 15 8 l.ctl.cntRetrains.toNat
  | 0x10 => put 32 31 24 l.tx.stepCr ||| put 32 23 12 l.tx.bulkCr
  | 0x14 => put 32 31 24 l.rx.nextFseq.toNat ||| put 32 23 16 l.tx.ackRx.toNat ||| put 32 15 8 l.rx.nextTseq.toNat
  | 0x18 => sHalf (meanNear l.time.txd)
  | _ => l.ctl.path

/-! ### Vernier (R85) -/

def Conv.histBit (c : Conv) (i : Nat) : Half := BitVec.ofNat 32 (tget 0 c.lastHist i)

/-- AGE of the active table. -/
def tableAge (now : Tick) (x : ConvCtl) : Nat :=
  match x.builtAt with
  | some t => min 0xFFFF ((now - t).toNat / 65536)
  | none => 0xFFFF

/-- A build of the converter is under way. -/
def State.convBusy (s : State) (d : Dev) (n : Nat) : Bool := (s.conv d n).running && s.building d n

def State.readConv (s : State) (d : Dev) (n o : Nat) : Half :=
  let c := s.conv d n
  let x := s.convCtl d n
  match o with
  | 0x04 => bit1 32 31 c.lastValid ||| put 32 23 16 c.lastCode.toNat ||| put 32 15 0 c.lastFrac.toNat
  | 0x08 => c.lastTickLo
  | 0x0C =>
    put 32 31 16 (tableAge (s.now d) x) ||| put 32 15 8 x.builtTemp.toNat ||| put 32 7 4 c.fails.toNat ||| bit1 32 3 c.cand.isSome |||
    bit1 32 2 x.wrIgn ||| bit1 32 1 c.bank ||| bit1 32 0 c.valid
  | 0x10 => put 32 31 16 ((widthList c.active).foldl max 0) ||| put 32 15 0 ((widthList c.active).foldl min 65535)
  | 0x14 => x.collide ++ x.dropped
  | 0x18 => bit1 32 1 x.bad ||| bit1 32 0 x.go
  | _ => s.reg d (convBase d n + o)

/-- One bit of converter status: BUSY, STALE, VALID. -/
def State.convBit (s : State) (d : Dev) (k n : Nat) : Bool :=
  decide (n < nConvs d) && (if k = 0 then s.convBusy d n else if k = 1 then (s.conv d n).stale else (s.conv d n).valid)

def State.readVrn (s : State) (d : Dev) (o : Nat) : Half :=
  match o with
  | 0x08 => bits32 fun i => decide (16 ≤ i) && s.convBit d 0 (i - 16) || (decide (8 ≤ i ∧ i < 13) && s.convBit d 1 (i - 8)) || (decide (i < 5) && s.convBit d 2 i)
  | 0x0C => (s.com d).ringCount
  | _ => s.reg d (vrnBase d + o)

/-- TDATA of a table window: a table's width and CUM, or a histogram count (R85). -/
def State.readTdata (s : State) (d : Dev) (conv target index : Nat) : Half :=
  let c := s.conv d conv
  if target = 2 then put 32 31 16 (tget 0 c.lastHist index / 65536) ||| put 32 15 0 (tget 0 c.lastHist index)
  else
    let t := if target = 0 then c.active else c.inactive
    put 32 31 16 (cumOf t index) ||| put 32 15 0 (widthOf t index)

/-! ### Clock Room (R114) -/

def State.readCr (s : State) (d : Dev) (o : Nat) : Half :=
  let c := (s.com d).cr
  match o with
  | 0x04 =>
    put 32 31 16 c.qlUnknown.toNat ||| bit1 32 15 (decide (d = .tsu) && s.darkReady) ||| bit1 32 14 c.holdShort |||
    bit1 32 13 (decide (c.pstepRemain ≠ 0)) ||| put 32 12 11 c.selMode.toNat ||| put 32 10 8 c.bwCur.toNat |||
    put 32 7 4 (match c.selected with | some r => r.val | none => 15) ||| put 32 2 0 c.state.code
  | 0x10 => bit1 32 31 c.pend.isSome ||| put 32 30 28 c.cmdErr.toNat
  | 0x14 => sHalf c.cv
  | 0x18 => sHalf c.holdCv
  | 0x1C => 0
  | 0x24 => bit1 32 31 c.errRange ||| bit1 32 30 c.errBound ||| put 32 17 0 (BitVec.ofInt 18 c.pstepRemain).toNat
  | 0x28 => sHalf c.target
  | _ => s.reg d (crBase d + o)

/-- Seconds left of the wait-to-restore. -/
def State.wtrRemain (s : State) (d : Dev) (r : Nat) : Nat :=
  match (s.ref d r).wtrStart with
  | some t => (s.wtrTime d * second + t.toNat - (s.now d).toNat + second - 1) / second
  | none => 0

/-- QL_RX of a reference whose QL_SRC is host or fixed reads the last value received, or 0xF with none: not the one in use, a reading that
the manual leaves open (assumption 188). -/
def State.readRef (s : State) (d : Dev) (r o : Nat) : Half :=
  let x := s.ref d r
  if o = 0 then s.reg d (refBase d r) ||| bit1 32 0 x.lockedOut
  else put 32 31 22 (s.wtrRemain d r) ||| put 32 15 12 x.qlRx.toNat ||| put 32 2 0 x.state.code

def State.readPulse (s : State) (d : Dev) (k o : Nat) : Half :=
  let p := s.pulse d k
  if o = 0x14 then bit1 32 31 p.aligned ||| bit1 32 30 p.alignLost ||| put 32 15 8 p.missed.toNat else s.reg d (pulseBase d k + o)

/-! ### Channels (R169, R203, R231, R308) -/

def ChState.code : ChState → Nat
  | .unbound => 0
  | .ready => 1
  | .running => 2
  | .held => 3
  | .stopped => 4
  | .halted => 5
def SelState.code : SelState → Nat
  | .valid => 0
  | .pending => 1
  | .failed => 2

/-- UNBIND of CTRL reads 0 also while a RUNNING channel waits for its boundary, a reading that the manual leaves open (assumption 191). -/
def State.readChan (s : State) (c o : Nat) : Half :=
  let x := s.chan c
  match o with
  | 0x08 => x.job ++ x.rank
  | 0x0C => put 32 31 29 x.state.code ||| bit1 32 28 x.bank ||| put 32 25 20 x.holdCause.toNat ||| put 32 15 0 x.pc.toNat
  | 0x10 => half x.step 0
  | 0x14 => half x.step 1
  | 0x18 => half x.bnd.tick 0
  | 0x1C => half x.bnd.tick 1
  | 0x20 => half x.startTick 0
  | 0x24 => half x.startTick 1
  | 0x28 => x.startIndex.setWidth 32
  | 0x2C => x.stretch.setWidth 32
  | 0x30 => put 32 7 5 x.err.toNat ||| bit1 32 4 x.resume ||| bit1 32 3 x.hold ||| bit1 32 2 x.arm
  | 0x34 => bit1 32 2 x.stbyBad ||| bit1 32 1 x.stbyOk ||| bit1 32 0 x.verify
  | 0x38 => bit1 32 16 x.swapGo ||| put 32 15 0 x.nextIndex.toNat
  | 0x3C => (List.range 16).foldl (fun a n => a ||| put 32 (2 * n + 1) (2 * n) (tget .valid x.prog.states n).code) 0
  | 0x60 => x.prog.gate.setWidth 32
  | _ => if 0x40 ≤ o ∧ o < 0x60 then tget 0 x.prog.loops ((o - 0x40) / 4) else s.reg .tsu (chBase c + o)

/-- TSU_VOTE_LAST and its tick; counters. -/
def State.readVotes (s : State) (o : Nat) : Half :=
  let last (k : Nat) : VoteLast := tget {} (s.chan (k / 4)).voteLast (k % 4)
  if 0x3100 ≤ o ∧ o < 0x3180 then
    let v := last ((o - 0x3100) / 4)
    put 32 31 30 v.state.toNat ||| put 32 29 18 v.group.toNat ||| put 32 6 0 v.status.toNat
  else if 0x3200 ≤ o ∧ o < 0x3280 then (last ((o - 0x3200) / 4)).tick
  else match o with
    | 0x3300 => s.tsu.voteLate ++ s.tsu.voteStray
    | 0x3304 => s.tsu.voteSent
    | 0x3308 => s.tsu.voteErr
    | _ => 0

/-- VALUE of a slot: a FLAG or TALLY, or the CNT_CUR of a CONJ slot's record. -/
def State.slotValue (s : State) (core : BitVec 11) (slot : BitVec 6) : BitVec 8 :=
  if 48 ≤ slot.toNat then 0
  else if cfgKind (s.slotCfg core slot) = 3 then (s.conjRec (cfgRec (s.slotCfg core slot))).cur
  else s.slotVal (slotKey core slot)

def State.slotWaiters (s : State) (core : BitVec 11) (slot : BitVec 6) : Nat :=
  min 255 (s.tsu.sync.waits.countP fun w => decide (w.core = core ∧ w.slot = slot))

def selCore (w : Half) : BitVec 11 := w.extractLsb' 6 11
def selSlot (w : Half) : BitVec 6 := w.extractLsb' 0 6

def State.readSync (s : State) (src : Src) (o : Nat) : Half :=
  let sel := s.win .tsu src 0x2000
  let rec_ := fld (s.win .tsu src 0x2010) 11 0
  let y := s.tsu.sync
  match o with
  | 0x2000 => sel
  | 0x2004 => s.slotCfg (selCore sel) (selSlot sel)
  | 0x2008 => put 32 15 8 (s.slotWaiters (selCore sel) (selSlot sel)) ||| put 32 7 0 (s.slotValue (selCore sel) (selSlot sel)).toNat
  | 0x2010 => BitVec.ofNat 32 rec_
  | 0x2014 => s.conjCfg rec_
  | 0x2018 => put 32 31 16 (s.conjRec rec_).round.toNat ||| put 32 15 8 (s.conjRec rec_).next.toNat ||| put 32 7 0 (s.conjRec rec_).cur.toNat
  | 0x201C => (s.conjRec rec_).relTick
  | 0x2020 => (s.chan 3).run ++ (s.chan 2).run ++ (s.chan 1).run ++ (s.chan 0).run
  | 0x2024 => (s.chan 7).run ++ (s.chan 6).run ++ (s.chan 5).run ++ (s.chan 4).run
  | 0x2028 => put 32 31 16 y.stale.toNat ||| put 32 8 0 y.held.length
  | 0x202C => put 32 31 16 y.stray.toNat ||| bit1 32 1 y.denied ||| bit1 32 0 y.holdFull
  | _ => if 0x2030 ≤ o ∧ o < 0x2040 then half y.timeout ((o - 0x2030) / 4) else 0

/-- Place of the descriptor that an ephemeris select names; none at or above the bank's size. -/
def State.ephPlace (s : State) (sel : Half) : Option Nat :=
  let c := fld sel 30 28
  let i := fld sel 15 0
  if i < s.bankSize c then some (s.bankBase c (if sel.getLsbD 27 then (s.chan c).bank else !(s.chan c).bank) + i) else none
/-- Load-space offset of the entry that a station-mask select names. -/
def State.smtPlace (s : State) (sel : Half) : Nat :=
  let c := fld sel 30 28
  smtOff c (if sel.getLsbD 27 then (s.chan c).bank else !(s.chan c).bank) (fld sel 11 0)
def fmtPlace (sel : Half) : Nat := 0x03000000 + 8 * (64 * fld sel 30 28 + fld sel 5 0)
def digPlace (sel : Half) : Nat := 0x03010000 + 4 * (16 * fld sel 30 28 + fld sel 3 0)

/-- The data registers of the TSU's table windows. -/
def State.readTables (s : State) (src : Src) (o : Nat) : Half :=
  if o = 0x1800 ∨ o = 0x1820 ∨ o = 0x3000 ∨ o = 0x3400 then s.win .tsu src o
  else if o < 0x1820 then
    match s.ephPlace (s.win .tsu src 0x1800) with
    | some i => s.reg .tsu (ephOff i + (o - 0x1804))
    | none => 0
  else if o < 0x1C00 then s.reg .tsu (s.smtPlace (s.win .tsu src 0x1820) + (o - 0x1824))
  else if o < 0x3400 then s.reg .tsu (fmtPlace (s.win .tsu src 0x3000) + (o - 0x3004))
  else s.reg .tsu (digPlace (s.win .tsu src 0x3400))

/-! ### Faults (R340) -/

def State.readFaults (s : State) (d : Dev) (src : Src) (o : Nat) : Half :=
  let blk := (s.win d src (fltBase d + 4)).toNat
  let b := s.fblock d blk
  let entry := tget 0 (s.com d).sev (s.win d src (fltBase d + 0x40)).toNat
  match o with
  | 0x00 => bits32 fun i => if i < 16 then (s.fblock d i).valid else (s.fblock d (i - 16)).sev
  | 0x04 => BitVec.ofNat 32 blk
  | 0x08 =>
    bit1 32 31 b.valid ||| bit1 32 30 b.overflow ||| bit1 32 29 b.sev ||| bit1 32 28 b.sevOvf ||| put 32 27 26 b.esc.toNat |||
    bit1 32 25 b.deferred ||| bit1 32 24 b.grace ||| put 32 15 0 b.events.toNat
  | 0x0C => b.firstCode ++ b.sevCode
  | 0x10 => half b.tick 0
  | 0x14 => half b.tick 1
  | 0x18 => half b.ctx 0
  | 0x1C => half b.ctx 1
  | 0x20 => half b.expiry 0
  | 0x24 => half b.expiry 1
  | 0x40 => s.win d src (fltBase d + 0x40)
  | 0x44 => half entry 0
  | 0x48 => half entry 1
  | 0x50 => match s.tsu.injArm with
    | some (t, c, w) => put 32 23 8 w ||| put 32 7 5 c ||| put 32 4 2 t ||| 1
    | none => s.reg .tsu 0x4050
  | _ => 0

/-! ### Commands and completions (R346, R360, R471) -/

/-- Words of a completion entry. -/
def CplEntry.words (e : CplEntry) : List Word :=
  [put 64 63 32 e.handle.toNat ||| put 64 31 24 e.opcode.toNat ||| put 64 23 16 e.status.toNat ||| bit1 64 15 e.valid, e.endTick] ++ e.results
def State.cplWord (s : State) (d : Dev) (i k : Nat) : Word :=
  match tget none (s.com d).cmds.entries i with | some e => nthW e.words k | none => 0

def State.readCmd (s : State) (d : Dev) (base n o : Nat) : Half :=
  let p := s.cmdPort d n
  if o = 0x100 then bit1 32 31 p.busy ||| put 32 23 16 (n + 1) ||| put 32 7 4 p.refuse.toNat ||| bit1 32 0 p.go
  else if o = 0x104 then p.handle else s.reg d (base + o)

def cplOldest (l : List (BitVec 16)) : Half := match l with | i :: _ => bit1 32 31 true ||| put 32 15 0 i.toNat | [] => 0

def State.readTsuCpl (s : State) (src : Src) (o : Nat) : Half :=
  let c := s.tsuC.cmds
  let sel := s.win .tsu src 0x5200
  if o = 0x5200 then sel
  else if o = 0x5240 then bit1 32 15 c.irqEn ||| bit1 32 14 c.postedFlag ||| put 32 12 0 c.posted.length
  else if o = 0x5244 then cplOldest c.posted
  else half (s.cplWord .tsu (fld sel 11 0) ((o - 0x5204) / 8)) ((o - 0x5204) / 4 % 2)

/-! ### Power, reset and Shutter (R391, R411) -/

def State.readPower (s : State) (o : Nat) : Half :=
  let p := s.power
  let next : Word := match s.nextEvent with | some (t, _) => t | none => BitVec.allOnes 64
  match o with
  | 0x6000 =>
    put 32 31 29 p.state.toNat ||| put 32 28 26 p.chosen.toNat ||| bit1 32 25 p.warn ||| bit1 32 24 p.waking ||| put 32 23 20 p.limit.toNat
  | 0x601C => half next 0
  | 0x6020 => half next 1
  | 0x6024 => tget 0 p.entries 4 ++ tget 0 p.entries 3 ++ tget 0 p.entries 2 ++ tget 0 p.entries 1
  | 0x6040 => put 32 31 28 p.rstErr.toNat
  | 0x6044 => put 32 31 28 p.cause.toNat
  | 0x6048 => half p.rstTick 0
  | 0x604C => half p.rstTick 1
  | 0x6050 => p.warnCnt ++ p.lastDur
  | _ => s.reg .tsu o

/-- A plate's words with its header (R387, R388). -/
def platePresent (p : Plate) : Nat := p.words.length

def State.readShut (s : State) (d : Dev) (o : Nat) : Half :=
  let x := (s.com d).shut
  if o = 0x40 then x.missed ++ x.latched
  else if 0x80 ≤ o then
    if d = .jup then BitVec.ofNat 32 x.plates.length
    else
      match x.plates[(o - 0x80) / 16]? with
      | none => 0
      | some p =>
        match o % 16 with
        | 0 => bit1 32 31 true ||| bit1 32 30 p.masked ||| bit1 32 29 p.reading ||| put 32 23 20 p.set.toNat ||| put 32 15 0 p.id.toNat
        | 4 => half p.tick 0
        | 8 => half p.tick 1
        | _ => BitVec.ofNat 32 (platePresent p)
  else s.reg d (shutBase d + o)

/-! ### Ranges of the Jupin alone (R467, R471 to R473) -/

/-- The die on a port is SPARE (R324): the image names the port, no channel is owned, and its time state is LOCKED, or DEGRADED in
DARK, which its exchanges at the low rate show where it is not in supply warning (assumption 81). -/
def State.isSpare (s : State) (p : Nat) : Bool :=
  (s.reg .jup (portHealthOff p)).getLsbD 29 && decide (s.healthState p < 2) &&
  ((List.range 8).all fun c => !(s.reg .jup (portOwnOff p c)).getLsbD 31) &&
  decide ((s.link .jup p).ctl.lstate = .service) && (decide ((s.link .jup p).time.farState = 2) ||
    decide ((s.link .jup p).time.farState = 3) && (s.link .jup p).time.lowFar && !s.jup.warned.contains p)
/-- STATE of JP_PORT_HEALTH: 0 SERVICE, 1 SPARE, 2 WATCHED, 3 EXPELLED. -/
def State.portState (s : State) (p : Nat) : Nat := if 2 ≤ s.healthState p then s.healthState p else if s.isSpare p then 1 else 0
def State.portClass (s : State) (p : Nat) : Nat := fld (s.reg .jup (portHealthOff p)) 15 0
/-- The spare floor of a map class (R325): 2 unless the image gives one. -/
def State.floorOf (s : State) (cls : Nat) : Nat := tget 2 s.jup.floors cls
def State.sparesOf (s : State) (cls : Nat) : Nat := (List.range 88).countP fun p => decide (s.portState p = 1 ∧ s.portClass p = cls)

/-- The command of an entry has been sent on, and waits for its completion message (R347): STATE WAITING; COMPLETING is never seen,
since the completion and the release of the entry are one (assumption 201). -/
def State.opWaits (s : State) (e : TrackEntry) : Bool := decide (e.handle ≠ 0) && s.jup.forwards.any fun f => decide (f.handle = e.handle)
def TrackEntry.word (e : TrackEntry) (waits : Bool) (k : Nat) : Word :=
  match k with
  | 0 => put 64 63 32 e.handle.toNat ||| put 64 31 28 e.kind.code ||| bit1 64 26 waits ||| bit1 64 25 e.job.isSome ||| put 64 14 0 (e.job.getD 0).toNat
  | 1 => e.deadline
  | 2 => put 64 63 32 e.delivered ||| put 64 31 0 e.expected
  | _ => 0

/-- Port bits 32k to 32k + 31 of a list of ports. -/
def portBits (l : List Nat) (k : Nat) : Half := bits32 fun i => l.contains (32 * k + i)

/-- The group status window (R472). -/
def State.readGroup (s : State) (src : Src) (o : Nat) : Half :=
  let sel := s.win .jup src 0x90000
  let g := fld sel 11 0
  let x := s.grpStat g
  if o = 0 then sel
  else if 0x30 ≤ o then (if sel.getLsbD 31 then portBits (s.conjStage g).cur ((o - 0x30) / 4) else 0)
  else if sel.getLsbD 31 then (if o = 8 then put 32 15 0 (s.conjStage g).stray.toNat else 0)
  else match o with
    | 0x04 => put 32 31 30 x.state.toNat ||| put 32 22 16 x.status.toNat ||| put 32 15 0 x.stepLo.toNat
    | 0x08 => x.late ++ x.stray
    | 0x0C => put 32 31 16 x.missingRest ||| bit1 32 0 x.inj
    | _ => match x.missing[(o - 0x10) / 4]? with
      | some (isPort, n) => bit1 32 31 true ||| bit1 32 30 isPort ||| put 32 16 0 n
      | none => 0

def mapRecWord (r : MapRec) (k : Nat) : Half :=
  half (r.seq ++ r.quality ++ r.leap ++ r.utcOffset ++ r.rate ++ r.taiNs ++ r.taiSec ++ r.htcRef) k

/-- The management range (R473). -/
def State.readMgmt (s : State) (o : Nat) : Half :=
  let j := s.jup
  if o = 0 then j.ntpAnswered else if o = 4 then j.ntpDropped else if o = 8 then j.ntpAuthFail
  else if 0x10 ≤ o ∧ o < 0x30 then (match j.mapCur with | some r => mapRecWord r ((o - 0x10) / 4) | none => 0)
  else if 0x40 ≤ o ∧ o < 0x60 then tget 0 j.readings ((o - 0x40) / 2 + 1) ++ tget 0 j.readings ((o - 0x40) / 2)
  else if o = 0x100 then put 32 30 29 j.flErr.toNat ||| put 32 4 2 j.flCtrl.toNat
  else if 0x414 ≤ o ∧ o < 0x610 ∧ (o - 0x410) % 32 ≠ 0 then 0
  else s.reg .jup (0x60000 + o)

/-- The fault log, the divergence log, the tracker and the lost lists. -/
def State.logWord (s : State) (i k : Nat) : Word :=
  let n := (i + 4096 - s.jup.logHead.toNat) % 4096
  nthW (s.jup.log.getD n []) k
def State.divWord (s : State) (i k : Nat) : Word := nthW (s.jup.stage.divLog.getD i []) k
/-- Entries of open reductions and Conjunction rounds stand in the part reserved for them, by group. -/
def State.stageEntry (s : State) (g : Nat) : Option TrackEntry :=
  match s.voteCtx g with
  | some v =>
    some { handle := 0, kind := .reduction, job := some v.job, delivered := v.got.length, expected := (s.expectedOf v.job (grpBase g) v.beginTick).length,
           deadline := match v.voteTick with
             | some t => t + BitVec.ofNat 64 (stageDeadline s.role)
             | none => v.beginTick + Config.opDeadline 1 }
  | none =>
    match s.conjGroupRec g with
    | some (job, _) =>
      if (s.conjStage g).cur.isEmpty || (s.conjStage g).failed then none
      else some { handle := 0, kind := .conjRound, job := some job, deadline := (s.conjStage g).beginTick.getD 0 + Config.opDeadline 2, delivered := (s.conjStage g).cur.length, expected := 0 }
    | none => none
def State.opEntry (s : State) (i : Nat) : Option TrackEntry := if i < trackerSize then tget none s.jup.tracker i else s.stageEntry (i - trackerSize)
def State.trackWord (s : State) (i k : Nat) : Word :=
  match s.opEntry i with | some e => e.word (s.opWaits e) k | none => 0
def State.lostWord (s : State) (sel : Half) : Word :=
  match (tget {} s.jup.lost (fld sel 31 17)).held[fld sel 11 0]? with
  | some (seqId, reason) => put 64 63 24 seqId.toNat ||| put 64 3 0 reason
  | none => 0

def State.readJupOnly (s : State) (src : Src) (o : Nat) : Half :=
  let h (f : Nat → Nat → Word) (b n : Nat) : Half := half (f ((o - b) / n) ((o - b) % n / 8)) (o / 4 % 2)
  if o = 0x3000 then bit1 32 30 s.jupC.cmds.postedFlag ||| put 32 16 0 s.jupC.cmds.posted.length
  else if o = 0x3004 then cplOldest s.jupC.cmds.posted
  else if 0x20100 ≤ o ∧ o < 0x2015C then bits32 fun i => s.convBit .jup ((o - 0x20100) / 32) (32 * ((o - 0x20100) % 32 / 4) + i)
  else if o = 0x23000 then s.win .jup src o
  else if o = 0x23004 then
    let sel := s.win .jup src 0x23000
    s.readTdata .jup (fld sel 31 24) (fld sel 5 4) (fld sel 15 8)
  else if 0x30100 ≤ o ∧ o < 0x30110 then bits32 fun i => (s.fblock .jup (32 * ((o - 0x30100) / 4) + i)).valid
  else if 0x30110 ≤ o ∧ o < 0x30120 then bits32 fun i => (s.fblock .jup (32 * ((o - 0x30110) / 4) + i)).sev
  else if o = 0x30200 then s.jup.logLost ++ BitVec.ofNat 16 s.jup.log.length
  else if o = 0x30204 then s.jup.logHead.setWidth 32
  else if 0x40000 ≤ o ∧ o < 0x60000 then h s.logWord 0x40000 32
  else if 0x60000 ≤ o ∧ o < 0x60800 then s.readMgmt (o - 0x60000)
  else if 0x80000 ≤ o ∧ o < 0x80160 then
    (s.reg .jup o &&& 0x3FFFFFFF) ||| put 32 31 30 (s.portState ((o - 0x80000) / 4))
  else if o = 0x82000 then s.win .jup src o
  else if o = 0x82004 then
    let cls := fld (s.win .jup src 0x82000) 15 0
    put 32 31 16 (s.sparesOf cls) ||| put 32 15 0 (s.floorOf cls)
  else if o = 0x82008 then BitVec.ofNat 32 s.jup.deferred.length
  else if 0x90000 ≤ o ∧ o < 0x90040 then s.readGroup src (o - 0x90000)
  else if o = 0x9B000 then put 32 31 16 s.jup.stage.divOverflow.toNat ||| put 32 8 0 s.jup.stage.divLog.length
  else if 0x9C000 ≤ o ∧ o < 0xA0000 then h s.divWord 0x9C000 64
  else if o = 0xA1000 then s.win .jup src o
  else if o = 0xA1004 ∨ o = 0xA1008 then half (s.lostWord (s.win .jup src 0xA1000)) ((o - 0xA1004) / 4)
  else if 0x200000 ≤ o ∧ o < 0x400000 then h s.trackWord 0x200000 32
  else if 0x400000 ≤ o ∧ o < 0x800000 then h (s.cplWord .jup) 0x400000 64
  else s.reg .jup o

/-! ### The whole map -/

/-- The TSU window. -/
def State.readTsuReg (s : State) (src : Src) (o : Nat) : Half :=
  if o < 0x100 then s.readIdent .tsu o
  else if o < 0x110 then s.readTime .tsu (o - 0x100)
  else if o < 0x200 then s.readTsuTime src o
  else if o < 0x280 then s.readLink .tsu ((o - 0x200) / 64) (o % 64)
  else if o < 0x440 then s.readVrn .tsu (o - 0x400)
  else if o < 0x4E0 then s.readConv .tsu ((o - 0x440) / 32) (o % 32)
  else if o = 0x600 then s.win .tsu src o
  else if o = 0x604 then
    let sel := s.win .tsu src 0x600
    s.readTdata .tsu (fld sel 2 0) (fld sel 5 4) (fld sel 15 8)
  else if o < 0x840 then s.readCr .tsu (o - 0x800)
  else if o < 0x860 then s.readRef .tsu ((o - 0x840) / 16) (o % 16)
  else if o < 0x8A0 then s.readPulse .tsu ((o - 0x880) / 32) (o % 32)
  else if o < 0x1400 then s.readChan ((o - 0x1000) / 128) (o % 128)
  else if o < 0x1C00 then s.readTables src o
  else if o < 0x2000 then half (tget 0 (s.chan ((o - 0x1C00) / 128)).prog.sels (o % 128 / 8)) (o / 4 % 2)
  else if o < 0x3000 then s.readSync src o
  else if o < 0x3100 ∨ (0x3400 ≤ o ∧ o < 0x3420) then s.readTables src o
  else if o < 0x3400 then s.readVotes o
  else if o < 0x4000 then half (s.chan ((o - 0x3420) / 8)).ckpt (o / 4 % 2)
  else if o < 0x5000 then s.readFaults .tsu src (o - 0x4000)
  else if o < 0x5200 then s.readCmd .tsu 0x5000 0 (o - 0x5000)
  else if o < 0x6000 then s.readTsuCpl src o
  else if o < 0x7000 then s.readPower o
  else if o < 0x8000 then s.readShut .tsu (o - 0x7000) else 0

/-- The Jupin BAR. -/
def State.readJupReg (s : State) (src : Src) (o : Nat) : Half :=
  if o < 0x100 then s.readIdent .jup o
  else if 0x4000 ≤ o ∧ o < 0x8000 then s.readCmd .jup (0x4000 + 0x400 * ((o - 0x4000) / 0x400)) ((o - 0x4000) / 0x400) (o % 0x400)
  else if 0x10000 ≤ o ∧ o < 0x10010 then s.readTime .jup (o - 0x10000)
  else if 0x11000 ≤ o ∧ o < 0x12800 then s.readPortTime ((o - 0x11000) / 64) (o % 64)
  else if 0x13000 ≤ o ∧ o < 0x14800 then s.readLink .jup ((o - 0x13000) / 64) (o % 64)
  else if 0x20000 ≤ o ∧ o < 0x20010 then s.readVrn .jup (o - 0x20000)
  else if 0x21000 ≤ o ∧ o < 0x21000 + 32 * 198 then s.readConv .jup ((o - 0x21000) / 32) (o % 32)
  else if 0x28000 ≤ o ∧ o < 0x28040 then s.readCr .jup (o - 0x28000)
  else if 0x28040 ≤ o ∧ o < 0x280C0 then s.readRef .jup ((o - 0x28040) / 16) (o % 16)
  else if 0x28100 ≤ o ∧ o < 0x28140 then s.readPulse .jup ((o - 0x28100) / 32) (o % 32)
  else if 0x30000 ≤ o ∧ o < 0x30100 then s.readFaults .jup src (o - 0x30000)
  else if 0x70000 ≤ o ∧ o < 0x70100 then s.readShut .jup (o - 0x70000)
  else s.readJupOnly src o

/-- Job data read zero at SEALED (R380): selectors, sync VALUE fields, checkpoint digests, the three tables. The mask of
what is not job data. -/
def jobDataMask (d : Dev) (o : Nat) : Half :=
  match d with
  | .jup => fullMask
  | .tsu =>
    if (0x1804 ≤ o ∧ o < 0x1814) ∨ (0x1824 ≤ o ∧ o < 0x182C) ∨ (0x1C00 ≤ o ∧ o < 0x2000) ∨ o = 0x3404 ∨ (0x3420 ≤ o ∧ o < 0x3460) then 0
    else if o = 0x2008 then 0xFF00
    else if o = 0x203C then 0xFFFFFF00   -- VALUE of the timeout record, bits [103:96] of R228
    else fullMask

/-- What the word at an offset holds now, halves of 64-bit registers included. -/
def State.regNow (s : State) (d : Dev) (src : Src) (off : Nat) : Half :=
  match regRow d off with
  | none => 0
  | some r =>
    let v := (match d with | .tsu => s.readTsuReg src off | .jup => s.readJupReg src off) &&& r.mask
    if (s.com d).sec.level = .sealed_ then v &&& jobDataMask d off else v

/-- The LO registers whose read latches the HI half (R61, R169, R308, R340, R411). -/
def splitLo (d : Dev) (off : Nat) : Bool :=
  match d with
  | .tsu =>
    (decide (0x1000 ≤ off ∧ off < 0x1400) && decide (off % 128 = 0x10 ∨ off % 128 = 0x18)) ||
    (decide (0x3420 ≤ off ∧ off < 0x3460) && decide (off % 8 = 0)) || decide (off = 0x4010 ∨ off = 0x601C)
  | .jup => decide (off = 0x30010)

/-- A read through the register window: a HI half as its LO half latched it. -/
def State.readReg (s : State) (d : Dev) (src : Src) (off : Nat) : Half :=
  if 4 ≤ off ∧ splitLo d (off - 4) then s.win d src off else s.regNow d src off

/-- JTAG with no session open reaches only the identity and security registers (R380). -/
def State.jtagBarred (s : State) (d : Dev) (src : Src) (off : Nat) : Bool :=
  decide (src = .jtag ∧ (s.com d).sec.session = .none) && !decide (off < (match d with | .tsu => 0xA8 | .jup => 0x100))

end Sys2Proof.Machine
end

