-- ==== Sys2Proof/Machine/Gens.lean ====
section
/-! DEFINITION. Restore images as the Jupin holds them: runs, frames, generations, and what they write (R280, R317, R365). -/
namespace Sys2Proof.Machine

/-! ### Runs (R365) -/

/-- A list of runs as it is read: the run in progress, the run headers and the values so far. -/
structure RunAcc where
  off : Nat := 0
  left : Nat := 0
  runs : List (Nat × Nat) := []
  writes : List (BitVec 32 × Half) := []
  /-- A run header with a reserved bit that is not zero (R9). -/
  reserved : Bool := false
  deriving DecidableEq, Repr

def RunAcc.step (a : RunAcc) (w : Word) : RunAcc :=
  if a.left = 0 then { a with off := fld w 63 32, left := fld w 23 0, runs := a.runs ++ [(fld w 63 32, fld w 23 0)],
                              reserved := a.reserved || decide (fld w 31 24 ≠ 0) }
  else if a.left = 1 then { a with left := 0, writes := a.writes ++ [(BitVec.ofNat 32 a.off, half w 0)] }
  else { a with off := a.off + 8, left := a.left - 2,
                writes := a.writes ++ [(BitVec.ofNat 32 a.off, half w 0), (BitVec.ofNat 32 (a.off + 4), half w 1)] }

def runsOf (ws : List Word) : RunAcc := ws.foldl RunAcc.step {}

/-! ### The regions of the stacked memory (R271, R272) -/

/-- The region of a stack: by default 0-3 RESTORE, 4-19 JOURNAL, 20-21 PLATE and 22-23 STAGE. -/
def State.regionOf (s : State) (n : Nat) : Nat :=
  let words := (List.range 15).map fun i => s.reg .jup (0x60084 + 4 * i)
  if words.all fun w => decide (w = 0) then (if n < 4 then 0 else if n < 20 then 1 else if n < 22 then 2 else 3)
  else (Config.stackRegion words n).val
/-- Stacks of a region that are in service: one that failed its training is mapped out, and its region shrinks. -/
def State.regionStacks (s : State) (r : Nat) : Nat :=
  (List.range 24).countP fun n => (s.reg .jup 0x60080).getLsbD n && decide (s.regionOf n = r)
/-- Blocks of 64 bytes of a stack of 48 GB (assumption 186), and of JOURNAL. -/
def stackBlocks : Nat := 750000000
def State.journalBlocks (s : State) : Nat := s.regionStacks 1 * stackBlocks

/-! ### The restore image of a port (R280) -/

/-- The generation of a port. -/
def genKey (port : Nat) (gen : Bool) : Nat := 2 * port + (if gen then 1 else 0)
def State.gen (s : State) (port : Nat) (gen : Bool) : Generation := tget {} s.jup.gens (genKey port gen)
def State.modGen (s : State) (port : Nat) (gen : Bool) (f : Generation → Generation) : State :=
  s.modJup fun j => { j with gens := tmod {} j.gens (genKey port gen) f }

/-- The frames of an image held as words. -/
def framesOf : Nat → List Word → List (List Word)
  | 0, _ => []
  | _, [] => []
  | n + 1, h :: t =>
    let k := fld h 35 27 + 1
    (h :: t.take k) :: framesOf n (t.drop k)

/-- The section of a generation, by type. -/
def Generation.section (g : Generation) (typ : BitVec 8) : List Word :=
  match g.sections.find? fun e => decide (e.1 = typ) with | some (_, ws) => ws | none => []

/-- Writes of the inner image of a generation, section by section. -/
def Generation.innerWrites (g : Generation) : List (BitVec 32 × Half) :=
  let ws := g.section 0x31
  let fs := framesOf ws.length ws
  ((fs.map fun f => fld (nthW f 0) 63 56).eraseDups.filter fun t => decide (t < 0x30 ∧ t ≠ 0)).flatMap fun t =>
    (runsOf ((fs.filter fun f => decide (fld (nthW f 0) 63 56 = t)).flatMap fun f => f.drop 1)).writes
/-- Last value that the inner image of a generation writes to an offset. -/
def Generation.imageWord (g : Generation) (off : Nat) : Half := imageVal g.innerWrites off

/-- The generation that a port's die was restored from. -/
def State.activeGen (s : State) (port : Nat) : Generation := s.gen port (tget false s.jup.genActive port)
/-- The severity table that the image of a generation gives its die (R317). -/
def Generation.severity (g : Generation) : List Word :=
  let ws := g.innerWrites.filter fun e => decide (0x03030000 ≤ e.1.toNat ∧ e.1.toNat < 0x03030400)
  ((ws.map fun e => e.1.toNat - e.1.toNat % 8).eraseDups).map fun o => imageVal ws (o + 4) ++ imageVal ws o
/-- The profile of a code in the die on a port: by the image of its generation, or where none is held by this Jupin's own table
(assumption 82). -/
def State.dieProfile (s : State) (port : Nat) (code : Code) : Profile :=
  if (s.activeGen port).header.isEmpty then s.jupC.profile code
  else match (s.activeGen port).severity.find? fun e => e.getLsbD 0 && decide (e.extractLsb' 48 16 = code) with
    | some e => profileOf e
    | none => defaultProfile code

end Sys2Proof.Machine
end

