-- ==== Sys2Proof/Machine/CommitGroup.lean ====
section
/-! DEFINITION. Commit groups: the commands, the messages and the answers, up to the release of COMMIT or ABORT
(R351 to R354, R357). Applying the writes stands in Apply.lean. -/
namespace Sys2Proof.Machine
open Host

/-! ### What is shared -/

/-- LEAD and COMMIT_LEAD of the coordinator's span (R353). -/
def State.groupLead (s : State) (d : Dev) : Nat × Nat :=
  match d with
  | .tsu => (0, 64)
  | .jup => if s.role = 1 then (560, 312) else if s.role = 2 then (1600, 800) else (3520, 1728)

/-- Open groups a member holds at most (R351), and writes it takes (R352). -/
def groupMax : Dev → Nat
  | .tsu => 2
  | .jup => 256
def writeMax : Nat := 256

/-- Bytes of a device's commit space (R352). -/
def commitSpace : Dev → Nat
  | .tsu => 0x20000
  | .jup => 0x1000000

/-- The link by which a message waits in the inbox, and the message taken from it. -/
def State.arrivedOn (s : State) (d : Dev) (mt : BitVec 8) (ws : List Word) : Nat :=
  match (s.com d).inbox.find? fun (_, m) => decide (m.mtype = mt ∧ m.words = ws) with
  | some (n, _) => n
  | none => match d with | .tsu => 0 | .jup => 88 + s.ownSide
def State.takeGroup (s : State) (d : Dev) (ws : List Word) : State := s.consume d (s.arrivedOn d mtGroup ws) mtGroup ws

/-- The path word by which the device answers. -/
def groupLinksUp : Dev → List Nat
  | .tsu => [0, 1]
  | .jup => [88, 89]

/-! ### CG_BEGIN (R351) -/

/-- Every rank of a range has a run here. -/
def State.rangeHere (s : State) (j : BitVec 15) (a b : BitVec 17) : Bool :=
  let runs := (s.jobRuns j).filter fun m => decide (m.port.toNat < 88)
  let n := (runs.map fun m => (min b.toNat m.last.toNat + 1) - max a.toNat m.first.toNat).foldl (· + ·) 0
  decide (a ≤ b ∧ n = b.toNat + 1 - a.toNat)

/-- Ports below that hold runs of a job. -/
def State.jobPorts (s : State) (j : BitVec 15) : List Nat :=
  (((s.jobRuns j).filter fun m => decide (m.port.toNat < 88)).map fun m => m.port.toNat).eraseDups

/-- Where a job's commands are carried out: at the lowest Jupin above every rank (R285, R348). -/
inductive JobPlace
  | top | port (p : Nat) | unknown
  deriving DecidableEq, Repr
def State.jobPlace (s : State) (j : BitVec 15) : JobPlace :=
  let ports := s.jobPorts j
  if ports.isEmpty || !s.rangeHere j 0 (s.lastRank j) then (if s.role = 3 then .unknown else .port (s.upPort j))
  else match ports with
    | [p] => if s.role = 1 then .top else .port p
    | _ => .top

/-- A member lies in the coordinator's reach. -/
def State.memberHere (s : State) (d : Dev) (t : Target) : Bool :=
  match d, t with
  | _, .self => true
  | .tsu, .path p => decide (p = s.selfPath .tsu)
  | .tsu, _ => false
  | .jup, .path p => (s.pathPort p).isSome
  | .jup, .job j a b => s.rangeHere j a b
  | .jup, .port _ => false

/-- Open a group at its coordinator. -/
def State.openGroup (s : State) (d : Dev) (h : Half) (members : List Target) (serves : Option (BitVec 8 × BitVec 15 × List Word)) : State :=
  s.modCom d fun c =>
    { c with coord := c.coord ++ [{ handle := h, members := members, state := .opened, stages := [], prepareTick := 0, tc := 0,
                                    delivered := 0, expected := 0, partialPath := none, serves := serves,
                                    resetsSeen := s.jup.peerResets.length }] }

def State.begin1 (s : State) (d : Dev) (hd : Half) (members : List Target) : State :=
  if !(members.all fun t => s.memberHere d t) then s.post d hd stBadAddr []
  else if groupMax d ≤ (s.com d).groups.length ∨ groupMax d ≤ (s.com d).coord.length then s.post d hd stGroupLimit []
  else s.openGroup d hd members none

def execCgBegin (d : Dev) (h : Hdr) (members : List Target) (s : State) : Res :=
  .next (s.withHandle d h opCgBegin fun hd s => s.begin1 d hd members)

/-! ### Stages (R352, R357) -/

/-- A member's part of a stage: its ordinal and its writes; a second copy of an ordinal changes nothing. -/
def State.holdStage (s : State) (d : Dev) (h : Half) (ordinal : BitVec 16) (job : Option (BitVec 15)) (ws : List StagedWrite) (member : Bool)
    (ports : List Nat) : State :=
  let beyond := decide (groupMax d ≤ (s.com d).groups.length)
  let g0 : MemberGroup := { handle := h, beyond := beyond }
  let s1 := if (s.group d h).isSome then s else s.modCom d fun c => { c with groups := c.groups ++ [g0] }
  let s2 := s1.modGroup d h fun g =>
    { g with ordinals := g.ordinals ++ [ordinal], member := g.member || member, ports := (g.ports ++ ports).eraseDups,
             writes := if member then g.writes ++ ws else g.writes,
             jobs := (g.jobs ++ job.toList).eraseDups }
  if d = .tsu then (ws.filter dieSide).foldl (fun s w => s.emit (.dreg w.offset w.value)) s2 else s2

/-! #### What a Jupin writes for a stage of a job

A stage that binds, unbinds or renumbers channels of a job changes the Jupins that lead to them on the same tick (R20, R21,
R284, R285, R287, R358): each adds the writes of its own registers. -/

def sw (off : Nat) (v : Half) : StagedWrite := { offset := BitVec.ofNat 24 off, value := v }
/-- Both halves of a 64-bit record word. -/
def sw64 (off : Nat) (v : Word) : List StagedWrite := [sw off (half v 0), sw (off + 4) (half v 1)]
/-- Channel whose TSU_CH_CTRL a write with a bit addresses. -/
def ctrlBit (bit : Nat) (w : StagedWrite) : Option Nat :=
  let o := w.offset.toNat
  if 0x1000 ≤ o ∧ o < 0x1400 ∧ o % 0x80 = 0x30 ∧ w.value.getLsbD bit then some ((o - 0x1000) / 0x80) else none
/-- RUN that a list of writes sets, if any. -/
def runIn (ws : List StagedWrite) : Option Nat :=
  (ws.filter fun w => decide (w.offset = 0x2020 ∨ w.offset = 0x2024)).foldl (fun a w =>
    [0, 1, 2, 3].foldl (fun a i => if fld w.value (8 * i + 7) (8 * i) = 0 then a else some (fld w.value (8 * i + 7) (8 * i))) a) none
/-- The job and rank that a list of writes binds to a channel. -/
def bindIn (ws : List StagedWrite) : Option (BitVec 15 × BitVec 17 × Nat) :=
  match ws.findSome? (ctrlBit 0) with
  | none => none
  | some c =>
    match ws.find? fun w => decide (w.offset.toNat = 0x1008 + 0x80 * c) with
    | some w => some (w.value.extractLsb' 17 15, w.value.extractLsb' 0 17, c)
    | none => none

/-- The job of a stage: that of the ranks it names, or of the rank it binds to a path. -/
def stageJob (t : Target) (ws : List StagedWrite) : Option (BitVec 15) :=
  match t with
  | .job j _ _ => some j
  | _ => (bindIn ws).map fun b => b.1

/-- Ownership of the ports of runs (R284). -/
def ownWrites (runs : List MapRun) (on : Bool) : List StagedWrite :=
  (runs.filter fun m => decide (m.port.toNat < 88)).map fun m =>
    sw (portOwnOff m.port.toNat m.channel.toNat) (if on then bit1 32 31 true ||| put 32 14 0 m.job.toNat else 0)

/-- A start: the staged image, and the ports. -/
def State.startWrites (s : State) (j : BitVec 15) : List StagedWrite :=
  if (s.jobRec j).isSome then []
  else (s.jup.jobImages.filter fun i => decide (i.job = j)).flatMap fun i =>
    (i.writes.map fun e => sw e.1.toNat e.2) ++ (if s.role = 1 then ownWrites (imageRuns i.writes) true else [])

/-- A teardown: map runs, group records, tree entries, the job's record and its ports (R287). -/
def State.teardownWrites (s : State) (j : BitVec 15) : List StagedWrite :=
  let groups := ((s.listed .jup 0x800000 0x100000 0x100).filter fun o =>
    (s.reg64 .jup o).getLsbD 0 && decide ((s.reg64 .jup o).extractLsb' 49 15 = j))
  let ports := (List.range 88).flatMap fun p => (List.range 8).filterMap fun c =>
    let v := s.reg .jup (portOwnOff p c)
    if v.getLsbD 31 && decide (fld v 14 0 = j.toNat) then some (sw (portOwnOff p c) 0) else none
  ((s.mapRuns.filter fun e => decide (e.2.job = j)).flatMap fun e => sw64 e.1 0) ++ (groups.flatMap fun o => sw64 o 0) ++
  ((s.conjGroups j).flatMap fun g => sw64 (conjGrpBase g) 0) ++ ((s.jobTrees j).flatMap fun t => sw64 (treeBase t) 0) ++
  (match s.jobRec j with | some r => sw64 (jobBase r) 0 | none => []) ++ ports

/-- Map slots that hold no run. -/
def State.freeSlots (s : State) : List Nat :=
  let used := s.mapRuns.map Prod.fst
  ((List.range (used.length + 4)).map fun k => mapBase + 8 * k).filter fun o => !used.contains o

/-- The entry of a rank at a port and channel: a rack Jupin's holds the channel (R20). One that no run of the job is at hand
for takes the side of the job's other runs here, else side A (assumption 169). -/
def State.entryAt (s : State) (j : BitVec 15) (rank : BitVec 17) (p c : Nat) : MapRun :=
  { job := j, first := rank, last := rank, port := BitVec.ofNat 7 p, channel := if s.role = 1 then BitVec.ofNat 3 c else 0,
    side := (((s.mapRuns.map Prod.snd).find? fun m => decide (m.job = j)).map MapRun.side).getD 0, state := 0 }
/-- Runs of other ranks still need the port and channel of a run. -/
def State.portShared (s : State) (m : MapRun) : Bool :=
  (s.mapRuns.filter fun e => decide (e.2.port = m.port ∧ e.2.channel = m.channel)).length ≠ 1

/-- A rank moves to a port and channel below this Jupin, or away from it: its run is split, a Jupin that held no entry of the
rank takes one, and at a rack Jupin the ownership of the ports moves (R20, R21, R284). Above the rack, an entry that leads to the
port already stays as it is: only those below the lowest common ancestor change (R20). -/
def State.moveWrites (s : State) (j : BitVec 15) (rank : BitVec 17) (target : Option (Nat × Nat)) : List StagedWrite :=
  let new : List MapRun := match target with | some (p, c) => [s.entryAt j rank p c] | none => []
  let own : List StagedWrite := if s.role = 1 then ownWrites new true else []
  match s.mapRuns.find? fun e => decide (e.2.job = j ∧ e.2.first ≤ rank ∧ rank ≤ e.2.last) with
  | none => ((s.freeSlots.zip new).flatMap fun e => sw64 e.1 e.2.word) ++ own
  | some (o, m) =>
    if s.role ≠ 1 ∧ (target.map Prod.fst) = some m.port.toNat then [] else
    let lo : List MapRun := if m.first < rank then [{ m with last := rank - 1 }] else []
    let hi : List MapRun := if rank < m.last then [{ m with first := rank + 1 }] else []
    let left : List StagedWrite := if s.role = 1 ∧ m.first = m.last ∧ s.portShared m = false then ownWrites [m] false else []
    match new ++ lo ++ hi with
    | [] => sw64 o 0 ++ left
    | ms => (((o :: s.freeSlots).zip ms).flatMap fun e => sw64 e.1 e.2.word) ++ left ++ own

/-- The Jupin's own words as the writes that a group holds here would leave them. -/
def State.withWrites (s : State) (ws : List StagedWrite) : State := ws.foldl (fun s w => s.setReg .jup w.offset.toNat w.value) s
/-- What a stage that binds a path to a rank changes here: the rank's entry on the new path, and on the old one alone (R20). -/
def State.moveHere (s : State) (held : List StagedWrite) (p : BitVec 32) (j : BitVec 15) (rank : BitVec 17) (c : Nat) : List StagedWrite :=
  let v := s.withWrites held
  match s.pathPort p with
  | some (some k) => if k < 88 then v.moveWrites j rank (some (k, c)) else []
  | none => if v.mapRuns.any fun e => decide (e.2.job = j ∧ e.2.first ≤ rank ∧ rank ≤ e.2.last ∧ e.2.port.toNat < 88) then v.moveWrites j rank none else []
  | _ => []

/-- What this Jupin adds for a stage; nothing that the group already holds. -/
def State.jobOwnWrites (s : State) (h : Half) (t : Target) (ws : List StagedWrite) : List StagedWrite :=
  let held : List StagedWrite := match s.group .jup h with | some g => g.writes | none => []
  let run (j : BitVec 15) : List StagedWrite :=
    match runIn ws with
    | none => []
    | some r =>
      match s.jobRec j with
      | some k => [sw (jobBase k + 64) (put 32 7 0 r)]
      | none => ((s.jup.jobImages.filter fun i => decide (i.job = j)).flatMap fun i => i.writes.filterMap fun e =>
          if 0xD80000 ≤ e.1.toNat ∧ e.1.toNat % 0x100 = 0 then some (sw (e.1.toNat + 64) (put 32 7 0 r)) else none)
  let fresh (ws : List StagedWrite) := ws.filter fun w => held.all fun x => decide (x.offset ≠ w.offset)
  match t with
  | .job j _ _ =>
    fresh ((if (bindIn ws).isSome then s.startWrites j else []) ++ (if (ws.findSome? (ctrlBit 1)).isSome then s.teardownWrites j else []) ++ run j)
  | .path p =>
    match bindIn ws with
    | some (j, rank, c) => s.moveHere held p j rank c ++ fresh (run j)
    | none => []
  | _ => []

/-- Ports that a stage goes on to: those that lead to its target; a stage that binds a path to a rank of a job goes to every
rank of the job too, whose dies clear their filter of the path with it (R254; assumption 59). -/
def State.stagePorts (s : State) (t : Target) (ws : List StagedWrite) : List Nat :=
  match t, bindIn ws with
  | .path _, some (j, _, _) => (s.targetPorts t ++ s.targetPorts (s.wholeSpan j)).eraseDups
  | _, _ => s.targetPorts t
/-- A stage names the device: by its own path, or by a range of ranks that led here. -/
def State.stageNames (s : State) (d : Dev) (t : Target) : Bool :=
  match d, t with
  | .tsu, .path p => decide (p = s.selfPath .tsu)
  | .tsu, _ => true
  | .jup, _ => s.namesSelf t
/-- A path of another die that a stage binds to a rank of a job. -/
def stageBinds (d : Dev) (t : Target) (ws : List StagedWrite) : List (Half × BitVec 15) :=
  match d, t, bindIn ws with
  | .tsu, .path p, some (j, _, _) => [(p, j)]
  | _, _, _ => []

/-- The words of a stage as a Jupin sends it on: a rack Jupin names the path of the rank that a stage binds, so that the other
dies of the job clear their filter of it (R254; assumption 59). -/
def State.stageOnward (s : State) (d : Dev) (words : List Word) : List Word :=
  match d, stageTarget (nthW words 1), bindIn ((words.drop 2).map stagedOf) with
  | .jup, .job j a b, some _ =>
    if s.role = 1 ∧ a = b ∧ s.rankPort j a < 88 then nthW words 0 :: Target.word (.path (s.childPath (s.rankPort j a))) :: words.drop 2 else words
  | _, _, _ => words

/-- A stage as it reaches a device by a link: held for the device, and sent on to the ports that lead to its target. -/
def State.stageHere (s : State) (d : Dev) (words : List Word) (from_ : Nat) : State :=
  let h := msgGroup words
  let ordinal : BitVec 16 := (nthW words 0).extractLsb' 40 16
  let t := stageTarget (nthW words 1)
  let on := s.stageOnward d words
  if (s.group d h).any fun g => g.ordinals.contains ordinal then s
  else
    let ws := (words.drop 2).map stagedOf
    let ports := match d with | .tsu => [] | .jup => s.stageDown from_ (s.stagePorts (stageTarget (nthW on 1)) ws)
    let own := match d with | .tsu => [] | .jup => s.jobOwnWrites h t ws
    let named := s.stageNames d t
    ((s.holdStage d h ordinal (stageJob t ws) (if named then ws ++ own else own) (named || !own.isEmpty) ports).modGroup d h fun g =>
      { g with binds := g.binds ++ stageBinds d t ws }).sendAll d ports (jobMsg mtGroup on)

/-- A target by its path, where it names the device itself. -/
def State.plainTarget (s : State) (d : Dev) (t : Target) : Target := if t = .self then .path (s.selfPath d) else t
/-- The coordinator stages up to 30 writes in one message, to its peers as well (R357). -/
def State.stagePart (s : State) (d : Dev) (h : Half) (t : Target) (ws : List StagedWrite) : State :=
  let n := ((s.coordGroup d h).map fun g => g.stages.length).getD 0
  let words := groupWords 1 n 0 h (Target.word (s.plainTarget d t)) (ws.map StagedWrite.word)
  let s1 := (s.modCoord d h fun g => { g with stages := g.stages ++ [(t, ws.length)] }).stageHere d words ownPort
  match d with
  | .tsu => s1
  | .jup => s1.sendAll .jup (s1.pairPorts h.toNat) (jobMsg mtGroup words)
/-- A stage: one message for each 30 of its writes. -/
def State.stageOut (s : State) (d : Dev) (h : Half) (t : Target) (ws : List StagedWrite) : State :=
  (partsOf 30 ws).foldl (fun s ws => s.stagePart d h t ws) s

/-- Whether a stage's target lies among the members, as named or inside a named range. -/
def amongMembers (members : List Target) (t : Target) : Bool :=
  members.any fun m => decide (m = t) || match m, t with
    | .job j a b, .job j' a' b' => decide (j = j' ∧ a ≤ a' ∧ b' ≤ b)
    | _, _ => false

def overlap (a b : Target) : Bool :=
  decide (a = b) || match a, b with
    | .job j x y, .job j' x' y' => decide (j = j' ∧ x ≤ y' ∧ x' ≤ y)
    | _, _ => false

/-- The commit space of a target: a die's, or a Jupin's (R17, R352). -/
def targetSpace (d : Dev) (t : Target) : Nat :=
  match t with
  | .self => commitSpace d
  | .path p => if fld p 31 29 = 0 then commitSpace .tsu else commitSpace .jup
  | _ => commitSpace .tsu

/-! #### The writes of one member (R352)

The limit counts what a member takes by every name it goes by: a path, the device itself, or a rank. -/

/-- The runs by which a rack Jupin's map leads ranks of a job to a path. -/
def State.pathRuns (s : State) (p : BitVec 32) (j : BitVec 15) (a b : BitVec 17) : List MapRun :=
  match s.pathPort p with
  | some (some k) => if s.role = 1 then (s.jobRuns j).filter fun m => decide (m.port.toNat = k ∧ m.first ≤ b ∧ a ≤ m.last) else []
  | _ => []
/-- A stage of a target reaches a member, named by its path or by its rank. -/
def State.stageTakes (s : State) (t member : Target) : Bool :=
  match t, member with
  | .path p, .path q => decide (p = q)
  | .job j a b, .job j' r _ => decide (j = j' ∧ a ≤ r ∧ r ≤ b)
  | .job j a b, .path p => !(s.pathRuns p j a b).isEmpty
  | .path p, .job j r _ => !(s.pathRuns p j r r).isEmpty
  | _, _ => false
/-- Members of a target among which one has the most writes: of a range, the ranks at which it or an earlier stage begins. -/
def State.stageMembers (s : State) (d : Dev) (stages : List (Target × Nat)) (t : Target) : List Target :=
  match s.plainTarget d t with
  | .job j a b => .job j a a :: stages.flatMap fun e => match s.plainTarget d e.1 with
    | .job j' x _ => if j' = j ∧ a ≤ x ∧ x ≤ b then [.job j x x] else []
    | .path p => (s.pathRuns p j a b).map fun m => if a ≤ m.first then .job j m.first m.first else .job j a a
    | _ => []
  | p => [p]
/-- Writes that the stages so far give a member. -/
def State.memberWrites (s : State) (d : Dev) (stages : List (Target × Nat)) (member : Target) : Nat :=
  ((stages.filter fun e => s.stageTakes (s.plainTarget d e.1) member).map Prod.snd).foldl (· + ·) 0

/-- Why a CG_STAGE is refused; 0 when it is not. -/
def State.stageRefusal (s : State) (d : Dev) (h : Half) (t : Target) (ws : List StagedWrite) : BitVec 4 :=
  match s.coordGroup d h with
  | none => rfGroupState
  | some g =>
    if g.state ≠ .opened then rfGroupState
    else if !amongMembers g.members t || ws.any (fun w => decide (targetSpace d t ≤ w.offset.toNat ∨ w.offset.toNat % 4 ≠ 0)) then rfBadAddr
    else if (s.stageMembers d g.stages t).any fun m => decide (writeMax < s.memberWrites d g.stages m + ws.length) then rfLimit
    else 0

/-- A short command at a port: refused with a reason, denied, or carried out. -/
def State.shortCmd (s : State) (d : Dev) (h : Hdr) (refusal : BitVec 4) (f : State → State) : State :=
  if s.cmdDenied d h false then (s.refuse d h rfDenied).denied d
  else if refusal ≠ 0 then s.refuse d h refusal
  else f (s.accepted d h)

def execCgStage (d : Dev) (h : Hdr) (handle : Half) (target : Target) (writes : List StagedWrite) (s : State) : Res :=
  .next (s.shortCmd d h (s.stageRefusal d handle target writes) fun s => s.stageOut d handle target writes)

def execCgStageMsg (d : Dev) (words : List Word) (s : State) : Res := s.stepIn d fun s => (s.takeGroup d words).stageHere d words (s.arrivedOn d mtGroup words)

/-! ### PREPARE and the answers (R353) -/

/-- A write whose register's own check fails: GO of TSU_CH_SWAP while the standby bank is not verified (R121). -/
def State.writeBars (s : State) (d : Dev) (w : StagedWrite) : Bool :=
  match d with
  | .jup => false
  | .tsu => decide (0x1000 ≤ w.offset.toNat ∧ w.offset.toNat < 0x1400 ∧ w.offset.toNat % 0x80 = 0x38) && w.value.getLsbD 16 &&
      !(s.chan ((w.offset.toNat - 0x1000) / 0x80)).stbyOk

/-- The group is a start, a resume or a remap of a job: it binds or resumes a channel here, or binds another die. -/
def MemberGroup.runsJob (g : MemberGroup) : Bool :=
  !g.binds.isEmpty || g.writes.any fun w => (ctrlBit 0 w).isSome || (ctrlBit 4 w).isSome
/-- A start, resume or remap of a job meets a fence filter of the job that is not acknowledged, a full filter, or an open
JOURNAL stream (R254, R328). -/
def State.groupHeldUp (s : State) (g : MemberGroup) : Bool :=
  let chans := chanNums.filter fun c => decide ((s.chan c).state ≠ .unbound) && g.jobs.contains (s.chan c).job
  g.runsJob && (s.tsu.nfFull || (chans.any fun c => s.tsu.jrnOpen.contains c) ||
    s.tsu.filters.any fun f => !f.acked && (match f.ch with | some c => chans.contains c | none => !chans.isEmpty))

/-- The routing-generation write of a group, and whether its routers are ready (R359). -/
def State.routeBars (s : State) (w : StagedWrite) (ready : BitVec 2) : Bool :=
  decide (w.offset = 0x10000) && (!ready.getLsbD (if w.value.getLsbD 31 then 1 else 0) || decide (s.now .tsu < s.tsu.drainTick))

/-- The map that a Jupin's group would leave breaks R21. -/
def State.mapClash (s : State) (g : MemberGroup) : Bool :=
  (g.writes.any fun w => decide (mapBase ≤ w.offset.toNat ∧ w.offset.toNat < mapBase + mapSize)) &&
    mapBroken s.role ((s.withWrites g.writes).mapRuns.map Prod.snd)

/-- Why a member refuses PREPARE, if it does. -/
def State.memberRefusal (s : State) (d : Dev) (g : MemberGroup) (ready : BitVec 2) : Option (BitVec 8) :=
  let others := (s.com d).groups.filter fun x => decide (x.handle ≠ g.handle) && x.prepared
  let clash := g.writes.any fun w => others.any fun x => x.writes.any fun y => decide (y.offset = w.offset)
  if g.beyond then some stGroupLimit
  else if clash then some stConflict
  else if g.writes.any fun w => s.writeBars d w then some stBadAddr
  else if d = .jup ∧ s.mapClash g then some stBadAddr
  else if d = .tsu ∧ (s.power.warn ∨ s.groupHeldUp g) then some stAborted
  else if d = .tsu ∧ g.writes.any fun w => s.routeBars w ready then some stRouteNotReady
  else none

/-- The Jupin's aggregate leaves once every child has answered, or at the first refusal; a refusal that comes after the answer
still goes (R29). -/
def State.sendAggregate (s : State) (h : Half) : State :=
  match s.group .jup h with
  | none => s
  | some g =>
    if !g.prepared || (s.coordGroup .jup h).isSome then s
    else
      match g.refused with
      | some (r, p) => if g.denied then s else (s.modGroup .jup h fun g => { g with answered := true, denied := true }).sendAll .jup (s.answerLinks h.toNat) (groupMsg 4 0 r h (put 64 63 32 g.count ||| put 64 31 0 p.toNat) [])
      | none =>
        if g.answered then s
        else if g.ports.all fun p => g.heard.contains p then
          (s.modGroup .jup h fun g => { g with answered := true }).sendAll .jup (s.answerLinks h.toNat)
            (groupMsg 3 0 0 h (put 64 63 32 g.count ||| put 64 31 0 (s.selfPath .jup).toNat) [])
        else s

/-- PREPARE at a device: Tc and the member's own answer. A second copy changes nothing. -/
def State.prepareHere (s : State) (d : Dev) (h : Half) (tc : Tick) (ready : BitVec 2) : State :=
  match s.group d h with
  | none => s
  | some g =>
    if g.prepared then s
    else
      let r := if g.member then s.memberRefusal d g ready else none
      let path := s.selfPath d
      let s1 := s.modGroup d h fun g =>
        { g with tc := some tc, prepared := true, count := g.count + (if g.member && r.isNone then 1 else 0),
                 refused := match g.refused with | some x => some x | none => r.map fun x => (x, path) }
      match d with
      | .tsu => if (s.coordGroup .tsu h).isSome then s1
                else s1.sendAll .tsu [0, 1] (match r with | some x => groupMsg 4 0 x h path.toNat [] | none => groupMsg 3 0 0 h path.toNat [])
      | .jup => (s1.sendAll .jup g.ports (groupMsg 2 0 0 h tc [])).sendAggregate h

def execCgPrepareMsg (d : Dev) (words : List Word) (routersReady : BitVec 2) (s : State) : Res :=
  s.stepIn d fun s => (s.takeGroup d words).prepareHere d (msgGroup words) (nthW words 1) routersReady

/-- A child's answer on a port, or what the peer has heard of it. What another device of the pair holds is its coordinator's to count. -/
def State.heardFrom (s : State) (h : Half) (p n : Nat) (refusal : Option (BitVec 8 × BitVec 32)) : State :=
  match s.group .jup h with
  | none => s
  | some g =>
    let n := if g.ports.contains p || (s.coordGroup .jup h).isSome then n else 0
    if g.heard.contains p && refusal.isNone then s
    else
      (s.modGroup .jup h fun g =>
        { g with heard := if g.heard.contains p then g.heard else g.heard ++ [p], count := g.count + n,
                 refused := match g.refused with | some x => some x | none => refusal }).sendAggregate h

/-- The port that an answer counts for: the child's own, or the child's that the peer names by path; 90 for the partner
and 94 for the hot-standby, whichever of their links carried it. -/
def State.answerPort (s : State) (link : Nat) (words : List Word) : Nat :=
  if link < 88 then link
  else match s.pathPort ((nthW words 1).extractLsb' 0 32) with
    | some (some p) => p
    | _ => if link < 90 then link else if s.side = 2 then s.survivorPort else if s.farSide link = 2 then 94 else 90

/-- An answer: counted for its port; a rack side tells its peer what a die answered. A member that missed its COMMIT is
named toward the coordinator (R355). -/
def State.answerHere (s : State) (link : Nat) (words : List Word) : State :=
  let h := msgGroup words
  let path : BitVec 32 := (nthW words 1).extractLsb' 0 32
  let p := s.answerPort link words
  let n := if s.role = 1 ∧ p < 88 then 1 else fld (nthW words 1) 63 32
  if msgReason words = stPartial then
    match s.coordGroup .jup h with
    | some _ => s.modCoord .jup h fun g => { g with partialPath := match g.partialPath with | some q => some q | none => some path }
    | none => s.sendAll .jup [88, 89] (jobMsg mtGroup words)
  else
  let s1 := if msgKind words = 3 then s.heardFrom h p n none else s.heardFrom h p 0 (some (msgReason words, path))
  if s.role = 1 ∧ link < 88 then s1.send .jup (s1.peerPort h.toNat) (jobMsg mtGroup words) else s1

/-- Only a Jupin hears answers. -/
def execCgAnswerMsg (d : Dev) (link : Nat) (words : List Word) (s : State) : Res :=
  let s1 := s.consume d link mtGroup words
  .next (match d with | .tsu => s1 | .jup => s1.answerHere link words)

/-! ### CG_COMMIT, CG_ABORT and the deadline (R353, R354) -/

/-- Members that no stage has named take an empty one, so that PREPARE finds them. -/
def State.stageRest (s : State) (d : Dev) (h : Half) : State :=
  match s.coordGroup d h with
  | none => s
  | some g => (g.members.filter fun t => !(g.stages.any fun e => overlap e.1 t)).foldl (fun s t => s.stageOut d h t []) s

/-- PREPARE is released with Tc. Whether a die's own routers are ready, when it coordinates its own switch, is free. -/
def State.releasePrepare (s : State) (d : Dev) (h : Half) (tick : Tick) : State :=
  let p := s.now d
  let (lead, commitLead) := s.groupLead d
  let least := p + BitVec.ofNat 64 (lead + commitLead)
  let tc := if tick = 0 then least else tick
  let s1 := (s.stageRest d h).modCoord d h fun g => { g with state := .prepared, prepareTick := p, tc := tc }
  let s2 := match d with | .tsu => s1 | .jup => s1.sendAll .jup (s1.pairPorts h.toNat) (groupMsg 2 0 0 h tc [])
  if decide (d = .tsu) && (s2.group .tsu h).any fun g => g.writes.any fun w => decide (w.offset = 0x10000) then
    s2.fresh.2.prepareHere d h tc (s2.fresh.1.setWidth 2)
  else s2.prepareHere d h tc 3

/-- An earlier tick than the leads allow aborts the group. -/
def State.commitAsked (s : State) (d : Dev) (h : Half) (tick : Tick) : State :=
  let (lead, commitLead) := s.groupLead d
  if tick ≠ 0 ∧ tick < s.now d + BitVec.ofNat 64 (lead + commitLead) then s.abortCoord d h stTooEarly (s.selfPath d)
  else s.releasePrepare d h tick

def State.commitRefusal (s : State) (d : Dev) (h : Half) : BitVec 4 :=
  match s.coordGroup d h with
  | some g => if g.state = .opened ∧ g.outcome.isNone then 0 else rfGroupState
  | none => rfGroupState

def execCgCommit (d : Dev) (h : Hdr) (handle : Half) (tick : Tick) (s : State) : Res :=
  .next (s.shortCmd d h (s.commitRefusal d handle) fun s => s.commitAsked d handle tick)

def State.abortRefusal (s : State) (d : Dev) (h : Half) : BitVec 4 :=
  match s.coordGroup d h with
  | some g => if g.state = .committed ∨ g.outcome.isSome then rfGroupState else 0
  | none => rfGroupState

def execCgAbort (d : Dev) (h : Hdr) (handle : Half) (s : State) : Res :=
  .next (s.shortCmd d h (s.abortRefusal d handle) fun s => s.abortCoord d handle stAborted (s.selfPath d))

/-- Fences on the group's ports that stand up to its commit tick come one tick after it, here, at the die and at the other side:
they were scheduled after the COMMIT had been released (R29). -/
def State.fencesPast (s : State) (g : MemberGroup) (tc : Tick) : State :=
  g.ports.foldl (fun s p =>
    let moved := (s.link .jup p).fences.filter fun f => decide (s.now .jup < f.tick ∧ f.tick ≤ tc) && (f.domain || g.jobs.contains f.job || g.jobs.isEmpty)
    moved.foldl (fun s f => (s.modLink .jup p fun l => { l with fences := dropOne f l.fences ++ [{ f with tick := tc + 1 }] }).sendAll .jup
      [p, s.peerPort p] (localMsg mtFence (fenceWords { f with tick := tc + 1 }))) s) s

/-- COMMIT passes a Jupin: its delivery is counted over the ports, the Jupin itself where it is a member (R252, R354). -/
def State.passCommit (s : State) (h : Half) (from_ : Nat) (words : List Word) : State :=
  match s.group .jup h with
  | none => s
  | some g =>
    let x : Delivery := { handle := h, kind := 5, results := none, fromPort := from_, left := g.ports.map fun p => (p, none),
                          delivered := if g.member then 1 else 0, expected := 0, jobs := g.jobs }
    let s1 := ((s.modGroup .jup h fun g => { g with committed := true }).sendAll .jup g.ports (jobMsg mtGroup words)).fencesPast g (nthW words 1)
    if g.ports.isEmpty then s1.finishDelivery x else s1.modCom .jup fun c => { c with deliveries := c.deliveries ++ [x] }

/-- Members that the coordinator expects COMMIT to reach, peers included. -/
def State.commitOut (s : State) (d : Dev) (h : Half) : State :=
  match s.coordGroup d h, s.group d h with
  | some g, some m =>
    let words := groupWords 5 0 0 h g.tc []
    let s1 := s.modCoord d h fun g => { g with state := .committed, expected := m.count }
    match d with
    | .tsu => (s1.modGroup .tsu h fun m => { m with committed := true }).modCoord .tsu h fun g => { g with delivered := 1 }
    | .jup => (s1.sendAll .jup (s1.pairPorts h.toNat) (jobMsg mtGroup words)).passCommit h ownPort words
  | _, _ => s

/-- Members that are not on a port below: the other side of the pair and the hot-standby. -/
def State.peerMembers (s : State) (g : CoordGroup) : List (BitVec 32) :=
  g.members.filterMap fun t => match t with
    | .path p => if s.pathPort p = some none ∧ p ≠ s.selfPath .jup then some p else none
    | _ => none

/-- The first refusal, or the first member that has not answered. -/
def State.groupFailure (s : State) (d : Dev) (g : CoordGroup) (m : MemberGroup) : Option (BitVec 8 × BitVec 32) :=
  match m.refused with
  | some r => some r
  | none =>
    match m.ports.find? fun p => !m.heard.contains p with
    | some p => some (stTimeout, s.childPath p)
    | none =>
      match d with
      | .tsu => none
      | .jup => ((s.peerMembers g).find? fun p => !m.heard.contains (if fld p 31 29 = 3 then 94 else 90)).map fun p => (stTimeout, p)

/-- The children that have not answered, by path (R287). -/
def State.silentPorts (s : State) (m : MemberGroup) : List (BitVec 32) :=
  (m.ports.filter fun p => decide (p < 88) && !m.heard.contains p).map s.childPath
/-- At LEAD after P: COMMIT, or ABORT. -/
def State.atPrepareDeadline (s : State) (d : Dev) (h : Half) : State :=
  match s.coordGroup d h, s.group d h with
  | some g, some m =>
    match s.groupFailure d g m with
    | some (r, p) => (s.abortCoord d h r p).modCoord d h fun x => { x with silent := s.silentPorts m }
    | none => s.commitOut d h
  | _, _ => s

/-- The deadline of a prepared group; or the tick on which a group that waited releases PREPARE (R358). -/
def State.deadlineNow (s : State) (d : Dev) (h : Half) : Bool :=
  match s.coordGroup d h with
  | some g => decide (g.state = .prepared ∧ g.outcome.isNone ∧ g.prepareTick + BitVec.ofNat 64 (s.groupLead d).1 = s.now d)
  | none => false
def State.prepareNow (s : State) (d : Dev) (h : Half) : Bool :=
  match s.coordGroup d h with
  | some g => decide (g.state = .opened ∧ g.outcome.isNone ∧ g.serves.isSome ∧ g.prepareTick ≤ s.now d)
  | none => false

def execCgPrepareDeadline (d : Dev) (handle : Half) (s : State) : Res :=
  if s.deadlineNow d handle then .next (s.atPrepareDeadline d handle)
  else if s.prepareNow d handle then .next (s.releasePrepare d handle 0)
  else .next s

/-! ### COMMIT and ABORT at a member (R354, R355) -/

/-- A die that receives COMMIT after Tc applies nothing, raises STEP_LATE and holds its channels. -/
def State.commitLate (s : State) (h : Half) : State :=
  (chanNums.filter fun c => decide ((s.chan c).state ≠ .unbound)).foldl (fun s c => (s.raiseChan c cStepLate {}).wantHold c 5)
    (s.discardGroup .tsu h)

def State.commitHere (s : State) (d : Dev) (words : List Word) (from_ : Nat) : State :=
  let h := msgGroup words
  match s.group d h with
  | none => s
  | some g =>
    if g.committed || g.applied then s
    else match d with
      | .tsu => if nthW words 1 < s.now .tsu then s.commitLate h
                else s.modGroup .tsu h fun g => { g with committed := true, tc := some (nthW words 1) }
      | .jup => s.passCommit h from_ words

def execCgCommitMsg (d : Dev) (words : List Word) (s : State) : Res :=
  s.stepIn d fun s => (s.takeGroup d words).commitHere d words (s.arrivedOn d mtGroup words)

def State.abortHere (s : State) (d : Dev) (words : List Word) : State :=
  let h := msgGroup words
  match s.group d h with
  | none => s
  | some g => if g.committed then s else (s.sendAll d (match d with | .tsu => [] | .jup => g.ports) (jobMsg mtGroup words)).discardGroup d h

def execCgAbortMsg (d : Dev) (words : List Word) (s : State) : Res := s.stepIn d fun s => (s.takeGroup d words).abortHere d words

/-! ### Groups that the Jupin runs itself -/

/-- A handle of context 0x40, for an operation that the Jupin starts itself (R343). -/
def State.selfHandle (s : State) (op : BitVec 8) (job : Option (BitVec 15)) : State × Option Half :=
  let (s1, h) := s.accept .jup { ctx := 0x40, override := false, notify := false } op false job
  (s1.modCmds .jup fun c => { c with ports := s.jupC.cmds.ports }, h)

/-- Run a group: open, stage, and release PREPARE. -/
def State.runGroup (s : State) (h : Half) (members : List Target) (serves : Option (BitVec 8 × BitVec 15 × List Word))
    (stages : List (Target × List StagedWrite)) : State :=
  (stages.foldl (fun s e => s.stageOut .jup h e.1 e.2) (s.openGroup .jup h members serves)).releasePrepare .jup h 0

/-! ### Channel writes (R117, R169, R231) -/

def chReg (c o : Nat) : Nat := 0x1000 + 0x80 * c + o
def rankRunWrite (c : Nat) (run : BitVec 8) : StagedWrite := sw (0x2020 + 4 * (c / 4)) (put 32 (8 * (c % 4) + 7) (8 * (c % 4)) run.toNat)
def bindWrite (c : Nat) (j : BitVec 15) (rank : BitVec 17) : StagedWrite :=
  sw (chReg c 8) (put 32 31 17 j.toNat ||| put 32 16 0 rank.toNat)
def startWrite (c : Nat) (t : Tick) : List StagedWrite := [sw (chReg c 0x20) (half t 0), sw (chReg c 0x24) (half t 1)]
/-- CTRL of a channel: BIND 0, UNBIND 1, HOLD 3, RESUME 4. -/
def ctrlWrite (c bits : Nat) : StagedWrite := sw (chReg c 0x30) (BitVec.ofNat 32 bits)
def ctlBind : Nat := 0x01
def ctlUnbind : Nat := 0x02
def ctlHold : Nat := 0x08
def ctlResume : Nat := 0x10

/-- The path word of the other side of the pair. -/
def State.peerPath (s : State) : BitVec 32 := (s.selfPath .jup &&& 0x1FFFFFFF) ||| put 32 31 29 (2 - s.ownSide)
/-- The devices of the pair as members of a group: this Jupin, the other side, and the hot-standby where one serves (R264). -/
def State.pairMembers (s : State) : List Target :=
  [.self, .path s.peerPath] ++ (if s.standbyLink.isSome then [.path s.standbyPath] else [])

end Sys2Proof.Machine
end

