-- ==== Sys2Proof/Machine/FaultCmds.lean ====
section
/-! DEFINITION. Grading windows, grace and escalation, clearing, reports received, the spare floor and deferred expulsions
(R312, R318 to R326, R456 to R458). -/
namespace Sys2Proof.Machine
open Host

/-! ### Escalation against a die (R320, R321, R325) -/

/-- Channel of a context, if it names one. -/
def ctxChan (ctx : Word) : Option Nat := if fld ctx 63 60 < 8 then some (fld ctx 63 60) else none

/-- The fence tick a rack side sets: the report's arrival plus 256 ticks. -/
def fenceDelay : Tick := 256

/-- Fence the die on a port from jobs, or from the domain. -/
def State.fenceRanks (s : State) (p : Nat) (esc : Nat) (jobs : List (BitVec 15)) (tick : Tick) : State :=
  if esc = 3 then s.fencePort p { job := 0, domain := true, path := s.childPath p, tick := tick }
  else jobs.foldl (fun s j => s.fencePort p { job := j, domain := false, path := s.childPath p, tick := tick }) s

/-- The runs of a port with a state in place of theirs, as staged writes of the logical map. -/
def State.mapStateWrites (s : State) (p st : Nat) : List StagedWrite :=
  (s.mapRuns.filter fun e => decide (e.2.port.toNat = p)).map fun (o, m) =>
    { offset := BitVec.ofNat 24 o, value := half ({ m with state := BitVec.ofNat 2 st } : MapRun).word 0 }

/-- The port and its map entries become WATCHED, by a group of the pair's own members (R325). -/
def State.watchPort (s : State) (p : Nat) : State :=
  match s.selfHandle opCgBegin none with
  | (s1, none) => s1
  | (s1, some h) =>
    let ws : List StagedWrite :=
      { offset := BitVec.ofNat 24 (portHealthOff p), value := (s.reg .jup (portHealthOff p) &&& 0x2FFFFFFF) ||| put 32 31 30 2 ||| bit1 32 28 true }
        :: s.mapStateWrites p 1
    s1.runGroup h s.pairMembers none (s.pairMembers.map fun t => (t, ws))

/-- Defer an expulsion for score: WATCHED, EXPEL_DEFERRED, and the die serves on. -/
def State.deferExpel (s : State) (p esc : Nat) : State :=
  let s1 := ((s.modJup fun j => { j with deferred := j.deferred ++ [(p, esc)] }).watchPort p).raisePort p cExpelDeferred {}
  let b := s1.fblock .jup p
  (s1.modBlock .jup p fun b => { b with deferred := true }).report .jup
    (s1.reportWords .jup cExpelDeferred p 4 b.esc b.overflow (s.now .jup) (portCtx p).word 0)

/-- The spare floor defers this escalation. -/
def State.floorDefers (s : State) (p : Nat) (hard : Bool) : Bool :=
  !hard && decide (s.portState p ≠ 2) && decide (s.sparesOf (s.portClass p) ≤ s.floorOf (s.portClass p))

/-- Steps 2 and 3 against the die on a port. -/
def State.escalateDie (s : State) (p esc : Nat) (hard : Bool) (jobs : List (BitVec 15)) : State :=
  if s.floorDefers p hard then s.deferExpel p esc
  else (s.modJup fun j => { j with deferred := j.deferred.filter fun e => !decide (e.1 = p) }).fenceRanks p esc jobs (s.now .jup + fenceDelay)

/-- A deferred expulsion is carried out when the spares of the die's class are above the floor. -/
def State.deferredDue (s : State) : Option (Nat × Nat) :=
  match s.jup.deferred with
  | (p, esc) :: _ => if s.floorOf (s.portClass p) < s.sparesOf (s.portClass p) then some (p, esc) else none
  | [] => none

def State.carryOut (s : State) (p esc : Nat) : State :=
  ((s.modJup fun j => { j with deferred := j.deferred.drop 1 }).setReg .jup (portHealthOff p)
    (s.reg .jup (portHealthOff p) &&& 0xEFFFFFFF)).fenceRanks p esc (s.jobsAt p) (s.now .jup + fenceDelay)

def execDeferredExpulsion (s : State) : Res :=
  match s.deferredDue with
  | some (p, esc) => .next (s.carryOut p esc)
  | none => .next s

/-! ### GRADING_WINDOW_CLOSE and GRACE_EXPIRY (R318 to R321) -/

def State.windowDue (s : State) (d : Dev) (b : Nat) (code : Code) : Bool :=
  let g := tget {} (s.fblock d b).grades code.toNat
  decide (g.count ≠ 0 ∧ g.opened.toNat + 2 ^ ((s.com d).profile code).wLog2 ≤ (s.now d).toNat)

def execGradingWindowClose (d : Dev) (b : Nat) (code : BitVec 16) (s : State) : Res :=
  s.due (s.windowDue d b code) fun s => s.modBlock d b fun x => { x with grades := tset {} x.grades code.toNat {} }

/-- Step 1 at the die: the channel in the context, or every bound channel, is held, and its RESUME is refused while the SEV of
the block stands. -/
def State.holdFor (s : State) (b : Nat) (ctx : Word) : State :=
  let cs := match ctxChan ctx with | some c => [c] | none => chanNums
  (cs.filter fun c => decide ((s.chan c).state ≠ .unbound)).foldl
    (fun s c => (s.wantHold c 4).modChan c fun x => { x with barredBy := (b :: x.barredBy).eraseDups }) s

/-- Step 1 against the die on a port: a group of this Jupin's own writes HOLD of the die's channels. DESIGN CHOICE: no message of
the spec carries such a hold (R321; assumption 197). -/
def State.holdDie (s : State) (p : Nat) : State :=
  let cs := (List.range 8).filter fun c => (s.reg .jup (portOwnOff p c)).getLsbD 31
  match cs, s.selfHandle opCgBegin none with
  | [], _ => s
  | _, (s1, none) => s1
  | _, (s1, some h) => s1.runGroup h [.path (s.childPath p)] none [(.path (s.childPath p), cs.map fun c => ctrlWrite c ctlHold)]

/-- A Jupin's own port: a die at L4, the link above (R321). -/
def State.portEscalate (s : State) (p esc : Nat) (hard : Bool) : State :=
  if s.role = 1 ∧ p < 88 then (if 2 ≤ esc then s.escalateDie p esc hard (s.jobsAt p) else s.holdDie p)
  else if (s.role = 2 ∨ s.role = 3) ∧ 2 ≤ esc then
    ((s.linkToDown .jup p).modCtl .jup p fun c => { c with disable := true }).modBlock .jup p fun x => { x with holdsPort := true }
  else s

/-- The grace timer of a block has run out. The report names the code that gave the step reached. -/
def State.graceEnd (s : State) (d : Dev) (b : Nat) : State :=
  let x := s.fblock d b
  let s1 := s.modBlock d b fun x => { x with grace := false, esc := if x.esc < x.pendEsc then x.pendEsc else x.esc }
  if x.pendEsc = 0 then s1
  else
    let s2 := s1.report d (s1.reportWords d x.pendCode b 2 x.pendEsc x.overflow (s.now d) x.sevCtx (tget {} x.grades x.pendCode.toNat).count)
    match d with
    | .tsu => if x.pendEsc = 1 then s2.holdFor b x.sevCtx else s2
    | .jup => if b < 96 then s2.portEscalate b x.pendEsc.toNat x.pendHard else s2

def State.graceDue (s : State) (d : Dev) (b : Nat) : Bool :=
  (s.fblock d b).sev && (s.fblock d b).grace && decide ((s.fblock d b).expiry ≤ s.now d)

def execGraceExpiry (d : Dev) (b : Nat) (s : State) : Res := s.due (s.graceDue d b) fun s => s.graceEnd d b

/-! ### FAULT_CLEAR and SEVERE_CLEAR (R322, R458) -/

/-- The trip is over once its conditions have ended and its fault is cleared: THERM_TRIP_N rises and the ports are
released. -/
def State.tripRelease (s : State) : State :=
  if s.jup.thermTrip && !((s.fblock .jup (blkPower .jup)).levels.any fun e => decide (e.1 = cThermalTrip)) then
    ((List.range 96).foldl (fun s n => if (s.link .jup n).ctl.disable then s.modCtl .jup n fun c => { c with disable := false } else s)
      (s.modJup fun j => { j with thermTrip := false })).emit (.thermTrip false)
  else s

/-- VALID is cleared, with OVERFLOW, EVENTS, ESC and DEFERRED; a level condition that holds latches again next tick. -/
def State.clearFault (s : State) (d : Dev) (b : Nat) : State :=
  let x := s.fblock d b
  let s1 := s.modBlock d b fun x =>
    { x with valid := false, overflow := false, events := 0, esc := 0, deferred := false, firstCode := 0, tick := 0, ctx := 0,
             relatch := !x.levels.isEmpty }
  let s2 := if x.valid then s1.report d (s1.reportWords d x.firstCode b 3 x.esc x.overflow (s.now d) x.ctx (tget {} x.grades x.firstCode.toNat).count) else s1
  if d = .jup ∧ b = blkPower .jup then s2.tripRelease else s2

def execFaultClear (d : Dev) (b : Nat) (s : State) : Res := .next (s.clearFault d b)

/-- The escalation of a block no longer bars a RESUME (R320). -/
def State.unbar (s : State) (b : Nat) : State :=
  chanNums.foldl (fun s c => if b ∈ (s.chan c).barredBy then s.modChan c fun x => { x with barredBy := x.barredBy.filter fun k => !decide (k = b) } else s) s

/-- SEV is cleared; a clear on the expiry tick or later comes after the escalation (R320). A link that an escalation of role
L5 or L6 holds DOWN is released (R321). -/
def State.clearSevere (s0 : State) (d : Dev) (b : Nat) : State :=
  let s := if s0.graceDue d b then s0.graceEnd d b else s0
  let x := s.fblock d b
  if !x.sev then s
  else
    let s1 := s.modBlock d b fun x =>
      { x with sev := false, sevOvf := false, grace := false, pendEsc := 0, pendHard := false, pendCode := 0, sevCode := 0,
               holdsPort := false, grades := tset {} x.grades x.sevCode.toNat {} }
    let s2 := s1.report d (s1.reportWords d x.sevCode b 3 x.esc x.overflow (s.now d) x.sevCtx 0)
    match d with
    | .tsu => s2.unbar b
    | .jup => if x.holdsPort then s2.modCtl .jup b fun c => { c with disable := false } else s2

def execSevereClear (d : Dev) (b : Nat) (s : State) : Res := .next (s.clearSevere d b)

/-! ### FLT_INJ_ARM (R323, R380) -/

/-- Tables 6 and 7 are reserved values without handling (R9). -/
def execFltInjArm (table : BitVec 3) (c : Fin 8) (word : BitVec 16) (src : Src) (s : State) : Res :=
  if 6 ≤ table.toNat then .fault (.unpredictable "R9")
  else .next (if s.injDenied .tsu src then s.denied .tsu
    else s.modTsu fun t => { t with injArm := some (table.toNat, c.val, word.toNat) })

/-! ### FAULT_REPORT_RX (R294, R316, R320, R339) -/

/-- A bit of the job's REPEAT word. -/
def State.setRepeat (s : State) (job : BitVec 15) (i : Nat) : State := s.setJobWord job 0 (s.jobWord job 0 ||| bit1 64 (16 + i) true)

/-- What a report means to the job's record: STEP_OVERRUN sets CYCLE; REPEAT_BROKEN sets DEBUG where its context names an object
or a descriptor, and HOST_SEL where it names neither (R315; assumption 145). -/
def State.noteRepeat (s : State) (code : Code) (ctx : Word) (job : BitVec 15) : State :=
  if code = cStepOverrun then s.setRepeat job 4
  else if code = cRepeatBroken then s.setRepeat job (if fld ctx 59 49 = 0x7FF ∧ fld ctx 30 15 = 0xFFFF then 3 else 2)
  else s

/-- The supply warnings of the dies below. -/
def State.noteWarn (s : State) (p : Nat) (code : Code) (event : Nat) : State :=
  if code ≠ cSupplyWarn then s
  else if event = 0 then s.modJup fun j => { j with warned := if j.warned.contains p then j.warned else j.warned ++ [p] }
  else if event = 3 then s.modJup fun j => { j with warned := j.warned.filter fun q => !decide (q = p) } else s

/-- A job held by a brown-out (R326, R336). -/
def State.noteBrown (s : State) (code : Code) (job : BitVec 15) : State :=
  if code = cBrownoutHold then s.modStage fun t => { t with brown := if t.brown.contains job then t.brown else t.brown ++ [job] } else s

/-- This rack side sets the fence: side A; side B while A is lost; the hot-standby once it has taken over (R320, R265). -/
def State.setsFences (s : State) : Bool := decide (s.role = 1) && (decide (s.side = 0) || s.inTakeover)

/-- A report from after the gate VOTE: the die is fenced from the job at the step's COMMIT tick, or one tick after it where it
has made the COMMIT. The report does not carry that tick: free (R132; assumption 78). -/
def State.fenceAtCommit (s : State) (p : Nat) (code : Code) (jobs : List (BitVec 15)) : State :=
  let t := if unreachable code then s.fresh.1 else s.fresh.1 + 1
  jobs.foldl (fun s j => s.settleFence p { job := j, domain := false, path := s.childPath p, tick := t }) s.fresh.2

/-- Block and path of a report. -/
def reportOf (ws : List Word) (x : SevSeen) : Bool :=
  decide (x.path = (nthW ws 0).extractLsb' 0 32 ∧ x.block = fld (nthW ws 0) 47 40)
/-- The job that a report names. -/
def reportJob (ws : List Word) : Option (BitVec 15) := (ctxChan (nthW ws 2)).map fun _ => (nthW ws 3).extractLsb' 49 15

/-- Another code of a block became severe: while the timer runs the higher step counts; after it a higher one starts a new timer
(R319). -/
def SevSeen.severe (x : SevSeen) (at_ due : Tick) (esc : Nat) : SevSeen :=
  if at_ < x.due then { x with esc := max x.esc esc }
  else if x.esc < esc then { x with due := due, esc := esc, acted := false } else x

/-- What a report says of the severe latch of its block. A clear of SEV is told by its COUNT, which it returns to 0 (R316, R322;
assumption 82). -/
def State.noteSev (s : State) (p : Nat) (ws : List Word) : State :=
  let prof := s.dieProfile p ((nthW ws 0).extractLsb' 48 16)
  let due := nthW ws 1 + BitVec.ofNat 64 (2 ^ prof.graceLog2)
  s.modJup fun j =>
    { j with sevSeen := match fld (nthW ws 0) 39 37 with
      | 1 => if j.sevSeen.any (reportOf ws) then updFirst (reportOf ws) (fun x => x.severe (nthW ws 1) due prof.esc.toNat) j.sevSeen
             else j.sevSeen ++ [{ path := (nthW ws 0).extractLsb' 0 32, block := fld (nthW ws 0) 47 40, job := reportJob ws, due := due,
                                  esc := prof.esc.toNat, acted := false }]
      | 2 => updFirst (reportOf ws) (fun x => { x with acted := x.acted || decide (x.due ≤ nthW ws 1) }) j.sevSeen
      | 3 => if fld (nthW ws 3) 31 16 = 0 then j.sevSeen.filter fun x => !reportOf ws x else j.sevSeen
      | _ => j.sevSeen }

/-- An escalation of a block is pending at a tick. -/
def SevSeen.pendingAt (x : SevSeen) (t : Tick) : Bool := !x.acted && decide (x.esc ≠ 0 ∧ t ≤ x.due)
/-- An escalated report comes from grading where the block's grace has run out; else it is a fence of R132, which no floor
defers (R325; assumption 82). -/
def State.gradedReport (s : State) (ws : List Word) : Bool :=
  s.jup.sevSeen.any fun x => reportOf ws x && !x.acted && decide (x.esc ≠ 0 ∧ x.due ≤ nthW ws 1)

/-- Escalated reports of steps 2 and 3. The report carries no HARD bit: the profile of its code in the die gives it. -/
def State.reportEscalates (s : State) (p : Nat) (ws : List Word) : State :=
  let code : Code := (nthW ws 0).extractLsb' 48 16
  let esc := fld (nthW ws 0) 36 35
  let jobs := match reportJob ws with | some j => [j] | none => s.jobsAt p
  if ¬(2 ≤ esc) || !s.setsFences then s
  else if esc = 2 ∧ !s.gradedReport ws then s.fenceAtCommit p code jobs
  else s.escalateDie p esc (s.dieProfile p code).hard jobs

/-- A report that names a job goes on to the top of the job, which keeps its record and runs its recovery, from the job's active
side (R294, R326). DESIGN CHOICE: the spec gives the report no way there (assumption 198). -/
def State.reportOnward (s : State) (p : Nat) (ws : List Word) : State :=
  match reportJob ws with
  | none => s
  | some j =>
    match s.jobPlace j with
    | .port u => if p < 88 ∧ 88 ≤ u ∧ !(s.jobPorts j).isEmpty ∧ s.activeHere j then s.send .jup u (localMsg mtCompletion ws) else s
    | _ => s

def State.faultReport (s : State) (port : Nat) (words : List Word) : State :=
  let code : Code := (nthW words 0).extractLsb' 48 16
  let event := fld (nthW words 0) 39 37
  let job : BitVec 15 := (nthW words 3).extractLsb' 49 15
  let s1 := ((s.consume .jup port mtCompletion words).logReport words).noteWarn port code event
  let s2 := if event ≤ 2 then s1.noteRepeat code (nthW words 2) job else s1
  let s3 := if event = 0 then s2.noteBrown code job else if event = 2 then s2.reportEscalates port words else s2
  (s3.noteSev port words).reportOnward port words

def execFaultReportRx (port : Nat) (words : List Word) (s : State) : Res := .next (s.faultReport port words)

/-! ### FABRIC_STALE_GEN (R312) -/

def execFabricStaleGen (c : Fin 8) (s : State) : Res := s.mainIn fun s => s.stepFault c cStaleGen {}

/-! ### THERMAL_WARN, THERMAL_TRIP, THERMAL_CLEAR (R456 to R458) -/

/-- Thresholds: °C, or mL/min for the flow. -/
def thermLimit : Reading → Bool → Int
  | .junction, trip => if trip then 105 else 95
  | .stack, trip => if trip then 95 else 85
  | .inlet, trip => if trip then 45 else 42
  | .flow, trip => if trip then 1000 else 1600
/-- The reading is at its threshold: below it for the flow, at or above it for the temperatures. -/
def thermAt (r : Reading) (trip : Bool) (v : Int) : Bool :=
  match r with
  | .flow => decide (v < thermLimit r trip)
  | _ => decide (thermLimit r trip ≤ v)
/-- The SMBus reading that shows a value (R473): junction, stack, inlet, then the outlet, then the flow. -/
def readingIx : Reading → Nat
  | .junction => 0
  | .stack => 1
  | .inlet => 2
  | .flow => 4
def State.setReading (s : State) (r : Reading) (v : Int) : State :=
  s.modJup fun j => { j with readings := tset 0 j.readings (readingIx r) (BitVec.ofInt 16 v) }

/-- A reading has reached its threshold. -/
def State.noteHot (s : State) (trip : Bool) (r : Reading) : State :=
  s.modJup fun j => { j with hot := if j.hot.contains (trip, r) then j.hot else j.hot ++ [(trip, r)] }

def execThermalWarn (r : Reading) (value : Int) (s : State) : Res :=
  s.due (thermAt r false value) fun s => ((s.setReading r value).noteHot false r).raiseLevel .jup (blkPower .jup) cThermalWarn {}

/-- DISABLE on every port, on the same tick. -/
def State.tripPorts (s : State) : State :=
  (List.range 96).foldl (fun s n => (s.linkToDown .jup n).modCtl .jup n fun c => { c with disable := true }) s

def execThermalTrip (r : Reading) (value : Int) (s : State) : Res :=
  s.due (thermAt r true value) fun s =>
    let s1 := ((s.setReading r value).noteHot true r).raiseLevel .jup (blkPower .jup) cThermalTrip {}
    if s1.jup.thermTrip then s1 else ((s1.modJup fun j => { j with thermTrip := true }).tripPorts).emit (.thermTrip true)

/-- The condition ends after its second of clearance, the level with the last reading that held it. The trip itself stays until
its fault is cleared. -/
def execThermalClear (r : Reading) (trip : Bool) (s : State) : Res :=
  let s1 := s.modJup fun j => { j with hot := j.hot.filter fun e => !decide (e = (trip, r)) }
  .next (if s1.jup.hot.any fun e => decide (e.1 = trip) then s1
    else s1.endLevel .jup (blkPower .jup) (if trip then cThermalTrip else cThermalWarn) {})

end Sys2Proof.Machine
end

