-- ==== Sys2Proof/Machine/Registers.lean ====
section
/-! DEFINITION. Writes of registers and the indexed windows: what a write stores, clears or starts, for every source of
R463 (R9, R10, R369, R380, R433, R461 to R473). -/
namespace Sys2Proof.Machine
open Host

/-! ### Rights (R369, R380) -/

/-- RWL fields are open to a source: before the seal, to images and commit groups, and to a CONTROL session at OPEN. -/
def State.rwlOpen (s : State) (d : Dev) (src : Src) : Bool :=
  let x := (s.com d).sec
  decide (src = .image ∨ src = .cg) || !x.sealedImg || (decide (x.session = .control) && decide (x.level = .opened))

/-- A CONTROL write to a sealed RWL field touches every bound channel (R295, R380). -/
def State.controlTouch (s : State) : State :=
  (chanNums.filter fun c => decide ((s.chan c).state ≠ .unbound)).foldl
    (fun s c => (s.modChan c fun x => { x with debug := true }).repeatBroken c { index := (s.chan c).pc }) s

/-- A write that would change RWL fields: carried out, carried out under CONTROL, or ignored and denied. -/
def State.rwlGuard (s : State) (d : Dev) (src : Src) (changes : Bool) (f : State → State) : State :=
  if !s.rwlOpen d src then (if changes then s.denied d else s)
  else if decide (src = .host ∨ src = .jtag) && (s.com d).sec.sealedImg && decide (d = .tsu) && changes then (f s).controlTouch
  else f s

/-- Any 1 written to the field clears it (W1C fields of several bits). -/
def hits (v : Half) (hi lo : Nat) : Bool := decide (fld v hi lo ≠ 0)

/-! ### Small writes with rows of their own -/

def State.fwVersionWrite (s : State) (v : Half) : State := if s.fwSet then s else s.setReg .tsu 0x44 (v ||| 0x80000000)
def execFwVersionWrite (v : Half) (s : State) : Res := .next (s.fwVersionWrite v)

/-- STATE 0 written to an EXPELLED port returns it to SERVICE; another write changes nothing (R472). Of a port returned
without a restore, a job bound on it later is unpredictable (R10). -/
def State.portReturn (s : State) (p : Nat) : State :=
  if s.healthState p ≠ 3 then s
  else (s.setHealth p 0).modJup fun j => { j with unrestored := p :: j.unrestored.filter fun q => !decide (q = p) }
def execPortReturnService (port : BitVec 7) (s : State) : Res :=
  .next (if port.toNat < 88 then s.portReturn port.toNat else s)

/-- FREE entries from HEAD; a larger value frees all. -/
def State.logFree (s : State) (n : Nat) : State :=
  s.modJup fun j => { j with log := j.log.drop n, logHead := j.logHead + BitVec.ofNat 12 (min n j.log.length) }
def execLogFree (n : BitVec 13) (s : State) : Res := .next (s.logFree n.toNat)

def State.divClear (s : State) : State := s.modStage fun t => { t with divLog := [], divOverflow := 0 }
def execDivLogClear (s : State) : Res := .next s.divClear

def execInjDigestArm (group : BitVec 12) (src : Src) (s : State) : Res :=
  .next (if s.injDenied .jup src then s.denied .jup else s.modGrp group.toNat fun x => { x with inj := true })

/-- Free a completion entry (R345): only one that is posted. -/
def State.cplFree (s : State) (d : Dev) (i : Nat) : State :=
  match tget none (s.com d).cmds.entries i with
  | some e => if e.valid then s.modCmds d fun c =>
      { c with entries := tset none c.entries i none, posted := c.posted.filter fun k => !decide (k.toNat = i) } else s
  | none => s
def execCompletionFree (d : Dev) (entry : BitVec 16) (s : State) : Res :=
  .next (s.cplFree d (match d with | .tsu => entry.toNat % 4096 | .jup => entry.toNat))

/-! ### Indexed windows (R466) -/

/-- Select register and first data register of a window. -/
def winRegs (d : Dev) (w : Win) : Nat × Nat :=
  match d, w with
  | .tsu, .asym => (0x130, 0x134)
  | .tsu, .vernier => (0x600, 0x604)
  | .tsu, .ephemeris => (0x1800, 0x1804)
  | .tsu, .smask => (0x1820, 0x1824)
  | .tsu, .syncCfg => (0x2000, 0x2004)
  | .tsu, .syncState => (0x2000, 0x2008)
  | .tsu, .conj => (0x2010, 0x2014)
  | .tsu, .voteFmt => (0x3000, 0x3004)
  | .tsu, .digest => (0x3400, 0x3404)
  | .tsu, .faultBlock => (0x4004, 0x4008)
  | .tsu, .severity => (0x4040, 0x4044)
  | .tsu, .completion => (0x5200, 0x5204)
  | .tsu, .token => (0x8C, 0x90)
  | .jup, .asym => (0, 0x11010)
  | .jup, .vernier => (0x23000, 0x23004)
  | .jup, .faultBlock => (0x30004, 0x30008)
  | .jup, .severity => (0x30040, 0x30044)
  | .jup, .completion => (0, 0x400000)
  | .jup, .token => (0x8C, 0x90)
  | .jup, _ => (0, 0)

/-- The window exists on the device. -/
def winHere (d : Dev) (w : Win) : Bool := decide (d = .tsu) || decide ((winRegs d w).2 ≠ 0)

/-- Offset of data register i. A Jupin's asymmetry and completion entries lie at their own offsets, four and sixteen to an
entry (R467). -/
def winData (d : Dev) (w : Win) (i : Nat) : Nat :=
  match d, w with
  | .jup, .asym => 0x11010 + 0x40 * (i / 4) + 4 * (i % 4)
  | _, _ => (winRegs d w).2 + 4 * i

/-- Data registers of a window. -/
def winCount (d : Dev) (w : Win) : Nat :=
  match d, w with
  | .tsu, .asym => 4
  | .tsu, .completion => 8
  | _, .vernier => 1
  | _, .ephemeris => 4
  | _, .syncCfg => 1
  | _, .syncState => 1
  | _, .conj => 3
  | _, .digest => 1
  | _, .faultBlock => 7
  | .jup, .asym => 4 * 96
  | .jup, .completion => 16 * 65536
  | _, _ => 2

def setFld (v : Half) (hi lo n : Nat) : Half := (v &&& ~~~(put 32 hi lo (2 ^ (hi + 1 - lo) - 1))) ||| put 32 hi lo n

/-- The select register after the access that moves its index; indexes wrap at the window's size. An INDEX of TSU_EPH_SEL beyond the bank
goes to 0 with the access, which the manual leaves open (assumption 194). -/
def State.winNext (s : State) (w : Win) (sel : Half) : Half :=
  let step (hi lo size : Nat) : Half := setFld sel hi lo ((fld sel hi lo + 1) % size)
  match w with
  | .vernier => step 15 8 256
  | .ephemeris => if s.bankSize (fld sel 30 28) ≤ fld sel 15 0 + 1 then setFld sel 15 0 0 else setFld sel 15 0 (fld sel 15 0 + 1)
  | .smask => step 11 0 4096
  | .syncState =>
    if 47 ≤ fld sel 5 0 then setFld (setFld sel 5 0 0) 16 6 (fld sel 16 6 + 1) else setFld sel 5 0 (fld sel 5 0 + 1)
  | .voteFmt => step 5 0 64
  | .digest => step 3 0 16
  | .severity => setFld sel 6 0 (fld sel 6 0 + 1)
  | .completion => step 11 0 4096
  | .token => setFld sel 4 0 ((fld sel 4 0 + 1) % 29)
  | _ => sel

/-- Whether an access moves the index. -/
def winMoves (w : Win) (i : Nat) (write : Bool) (sel : Half) : Bool :=
  match w with
  | .vernier => true
  | .ephemeris => decide (i = 3)
  | .smask => decide (i = 1)
  | .syncState => !write && sel.getLsbD 31
  | .voteFmt => decide (i = 1)
  | .digest => true
  | .severity => decide (i = 1)
  | .completion => !write && decide (i = 7) && sel.getLsbD 31
  | .token => write && decide (i = 1)
  | _ => false

def State.winStep (s : State) (d : Dev) (src : Src) (w : Win) (i : Nat) (write : Bool) : State :=
  let o := (winRegs d w).1
  let sel := s.win d src o
  if o ≠ 0 ∧ winMoves w i write sel then
    let nxt := if d = .jup ∧ w = .severity then setFld sel 8 0 (fld sel 8 0 + 1) else s.winNext w sel
    s.setWin d src o nxt
  else s

/-- The held words of an entry, the last one being written now. -/
def State.heldWords (s : State) (d : Dev) (src : Src) (w : Win) (first n : Nat) (v : Half) : List Half :=
  ((List.range (n - 1)).map fun k => s.win d src (winData d w (first + k))) ++ [v]
/-- Halves joined, the first lowest. -/
def joinHalves (l : List Half) : Nat := l.foldr (fun h acc => h.toNat + 2 ^ 32 * acc) 0

/-- A channel whose tables only a commit group may write. -/
def State.liveChan (s : State) (c : Nat) : Bool := decide ((s.chan c).state = .running ∨ (s.chan c).state = .stopped)

/-- Bits of a descriptor that its KIND assigns (R134, R135, R141, R146, R147, R150, R153, R155); a reserved KIND has no
reserved bits of its own (R476). -/
def descMask (d : BitVec 128) : BitVec 128 :=
  let bits (hi lo : Nat) : BitVec 128 := put 128 hi lo (2 ^ (hi + 1 - lo) - 1)
  (bits 127 124 ||| bits 119 96) |||
  match dKind d with
  | 0 => 0
  | 1 => bits 123 123 ||| bits 95 64 ||| (if d.getLsbD 123 then bits 3 0 else bits 63 0)
  | 2 => bits 122 120 ||| bits 95 71 ||| bits 63 32
  | 3 => bits 123 121 ||| bits 95 75 ||| bits 63 40
  | 4 => bits 123 122 ||| bits 95 93 ||| bits 79 64 ||| bits 63 32
  | 5 => bits 123 122 ||| bits 95 70
  | 6 => bits 123 121 ||| bits 95 54
  | 7 => bits 123 123
  | 8 => 0
  | _ => BitVec.allOnes 128
/-- A descriptor with a reserved field that is not zero (R9). -/
def descReserved (d : BitVec 128) : Bool := decide (d &&& ~~~descMask d ≠ 0)

/-- A core and slot that the die has (R204). -/
def slotExists (core : BitVec 11) (slot : BitVec 6) : Bool := decide (slot.toNat < 48 ∧ core.toNat < Config.fuseCores.toNat)

/-- Host errors of a window write that the manual calls unpredictable: the rule. -/
def State.winError (s : State) (d : Dev) (src : Src) (w : Win) (i : Nat) (v : Half) : Option String :=
  let sel := s.win d src (winRegs d w).1
  let outside := decide (src ≠ .cg)
  match w with
  | .asym => if (s.link d (match d with | .tsu => 0 | .jup => i / 4)).asym.go then some "R10" else none
  | .vernier => if (s.convCtl d (match d with | .tsu => fld sel 2 0 | .jup => fld sel 31 24)).go then some "R10" else none
  | .ephemeris =>
    if i = 3 ∧ outside ∧ sel.getLsbD 27 ∧ s.liveChan (fld sel 30 28) then some "R10"
    else if i = 3 ∧ descReserved (BitVec.ofNat 128 (joinHalves (s.heldWords d src .ephemeris 0 4 v))) then some "R9" else none
  | .smask => if i = 1 ∧ outside ∧ sel.getLsbD 27 ∧ s.liveChan (fld sel 30 28) then some "R10" else none
  | .syncCfg => if s.rwlOpen d src ∧ outside ∧ s.liveChan (cfgOwner (s.slotCfg (selCore sel) (selSlot sel))) then some "R10" else none
  | .conj => if s.rwlOpen d src ∧ i = 0 ∧ outside ∧ s.liveChan (conjOwner (s.conjCfg (fld sel 11 0))) then some "R10" else none
  | .voteFmt => if outside ∧ s.liveChan (fld sel 30 28) then some "R10" else none
  | .digest => if s.rwlOpen d src ∧ outside ∧ s.liveChan (fld sel 30 28) then some "R10" else none
  | .severity =>
    let e : Word := BitVec.ofNat 64 (joinHalves (s.heldWords d src .severity 0 2 v))
    if s.rwlOpen d src && ((s.com d).blocks.any fun (_, b) => b.sev) then some "R10"
    else if i = 1 ∧ fld e 25 1 ≠ 0 then some "R9"
    else if s.rwlOpen d src ∧ i = 1 ∧ e.getLsbD 0 ∧ (s.com d).sev.any fun (k, x) =>
        decide (k ≠ sel.toNat) && x.getLsbD 0 && decide (fld x 63 48 = fld e 63 48) then some "R10" else none
  | .token => if s.dbgBusy d then some "R10" else none
  | _ => none

/-- Reserved bits of an entry's words, and reserved codes of a format entry (R174, R186). -/
def winReserved (w : Win) (i : Nat) (v : Half) : Bool :=
  match w with
  | .asym => decide (i % 4 = 0 ∧ v &&& 0xFE ≠ 0)
  | .smask => decide (i = 0 ∧ v &&& 0xFFFF ≠ 0)
  | .syncCfg => decide (v &&& 0x03FFF000 ≠ 0)
  | .conj => decide (i = 0 ∧ v &&& 0x7F00 ≠ 0)
  | .voteFmt => decide (i = 0 ∧ v &&& 0x007FFFFF ≠ 0) || decide (i = 1 ∧ (14 ≤ fld v 18 15 ∨ 11 ≤ fld v 14 11 ∨ fld v 6 5 = 3))
  | .digest => decide (v &&& 0x1FFFF ≠ 0)
  | _ => false

/-- The channel whose standby bank an ephemeris or station-mask select names loses its verification (R169 OK). -/
def State.bankWritten (s : State) (sel : Half) : State :=
  if sel.getLsbD 27 then s else s.modChan (fld sel 30 28) fun x => { x with stbyOk := false }

/-- Store an ephemeris descriptor; INJ stores inverted parity (R120). -/
def State.storeEph (s : State) (sel : Half) (ws : List Half) : State :=
  match s.ephPlace sel with
  | none => s
  | some k =>
    let s1 := ((List.range 4).foldl (fun s j => s.setReg .tsu (ephOff k + 4 * j) (ws.getD j 0)) s).bankWritten sel
    s1.modTsu fun t => { t with badEph := if sel.getLsbD 31 then (if t.badEph.contains k then t.badEph else k :: t.badEph)
                                          else t.badEph.filter fun e => !decide (e = k) }

/-- A software-written width (R80). -/
def State.storeWidth (s : State) (d : Dev) (sel : Half) (v : Half) : State :=
  let n := match d with | .tsu => fld sel 2 0 | .jup => fld sel 31 24
  if fld sel 5 4 = 1 ∧ s.calManual d ∧ !s.convBusy d n then
    s.modConv d n fun c => c.setInactive (tset 256 c.inactive (fld sel 15 8) (v.extractLsb' 0 16))
  else s.modConvCtl d n fun x => { x with wrIgn := true }

/-- The word of the load space that a window's store writes (R366). -/
def State.winPlace (s : State) (w : Win) (sel : Half) : Option Nat :=
  match w with
  | .ephemeris => (s.ephPlace sel).map ephOff
  | .smask => some (s.smtPlace sel)
  | .syncCfg => some (slotCfgOff (slotKey (selCore sel) (selSlot sel)))
  | .conj => some (conjCfgOff (fld sel 11 0))
  | .voteFmt => some (fmtPlace sel)
  | .digest => some (digPlace sel)
  | .severity => some (0x03030000 + 8 * sel.toNat)
  | _ => none

/-- The store that the last data write of an entry makes. -/
def State.winStore (s : State) (d : Dev) (src : Src) (w : Win) (i : Nat) (v : Half) : State :=
  let sel := s.win d src (winRegs d w).1
  match w with
  | .asym =>
    let (n, j) := match d with | .tsu => (fld sel 0 0, i) | .jup => (i / 4, i % 4)
    if j = 3 then s.modAsym d n fun a => { a.setInactive (BitVec.ofNat 128 (joinHalves (s.heldWords d src .asym (i - 3) 4 v))) with measured := false }
    else s
  | .vernier => s.storeWidth d sel v
  | .ephemeris => if i = 3 then s.storeEph sel (s.heldWords d src .ephemeris 0 4 v) else s
  | .smask =>
    if i = 1 then ((s.setReg .tsu (s.smtPlace sel) (s.win d src 0x1824)).setReg .tsu (s.smtPlace sel + 4) v).bankWritten sel else s
  | .syncCfg => s.rwlGuard .tsu src (decide (v ≠ s.slotCfg (selCore sel) (selSlot sel))) fun s =>
      if !slotExists (selCore sel) (selSlot sel) then s else s.setReg .tsu (slotCfgOff (slotKey (selCore sel) (selSlot sel))) v
  | .conj =>
    if i = 0 then s.rwlGuard .tsu src (decide (v ≠ s.conjCfg (fld sel 11 0))) fun s => s.setReg .tsu (conjCfgOff (fld sel 11 0)) v else s
  | .voteFmt =>
    if i = 1 then (((s.setReg .tsu (fmtPlace sel) (s.win d src 0x3004)).setReg .tsu (fmtPlace sel + 4) v)).sramWrite 3 (fld sel 30 28) (fld sel 5 0)
    else s
  | .digest => s.rwlGuard .tsu src (decide (v ≠ s.reg .tsu (digPlace sel))) fun s =>
      (s.setReg .tsu (digPlace sel) v).sramWrite 4 (fld sel 30 28) (fld sel 3 0)
  | .faultBlock =>
    if i = 0 then
      let s1 := if v.getLsbD 29 then s.clearSevere d sel.toNat else s
      if v.getLsbD 31 then s1.clearFault d sel.toNat else s1
    else s
  | .severity =>
    if i = 1 then
      let e : Word := BitVec.ofNat 64 (joinHalves (s.heldWords d src .severity 0 2 v))
      s.rwlGuard d src (decide (e ≠ tget 0 (s.com d).sev sel.toNat)) fun s =>
        let s1 := s.modCom d fun c => { c with sev := tset 0 c.sev sel.toNat e }
        match d with | .tsu => s1.sramWrite 5 0 sel.toNat | .jup => s1
    else s
  | .completion =>
    match d with
    | .tsu => if i = 0 ∧ v.getLsbD 15 then s.cplFree .tsu (fld sel 11 0) else s
    | .jup => if i % 16 = 0 ∧ v.getLsbD 15 then s.cplFree .jup (i / 16) else s
  | .token =>
    if i = 1 then s.modSec d fun x => { x with token := tset 0 x.token (fld sel 4 0) (v ++ s.win d src 0x90) } else s
  | .syncState => s

/-- A store, unless a later source has written the entry on this CSR cycle (R463). -/
def State.winPut (s : State) (d : Dev) (src : Src) (w : Win) (i : Nat) (v : Half) : State :=
  let last := match w with
    | .ephemeris => decide (i = 3)
    | .conj => decide (i = 0)
    | .smask | .voteFmt | .severity => decide (i = 1)
    | _ => true
  match s.winPlace w (s.win d src (winRegs d w).1) with
  | some k => if last then s.csrPut d src k fun s => s.winStore d src w i v else s.winStore d src w i v
  | none => s.winStore d src w i v

/-- A write of a data register: held, and stored by the last one of the entry; then the index moves. -/
def State.winWrite (s : State) (d : Dev) (src : Src) (w : Win) (i : Nat) (v : Half) : Res :=
  if winReserved w i v then .fault (.unpredictable "R9")
  else match s.winError d src w i v with
    | some r => .fault (.unpredictable r)
    | none => .next (((s.winPut d src w i v).setWin d src (winData d w i) v).winStep d src w i true)

/-- A read of a data register: the entry selected; then the index moves. A parity check that fails acts as R311 says. -/
def State.winReadCheck (s : State) (d : Dev) (src : Src) (w : Win) : State :=
  let sel := s.win d src (winRegs d w).1
  let chk (t c k : Nat) : State := if s.sramBad t c k then s.sramFault t c k else s
  match d, w with
  | .tsu, .syncState => chk 0 (cfgOwner (s.slotCfg (selCore sel) (selSlot sel))) (slotKey (selCore sel) (selSlot sel))
  | .tsu, .voteFmt => chk 3 (fld sel 30 28) (fld sel 5 0)
  | .tsu, .digest => chk 4 (fld sel 30 28) (fld sel 3 0)
  | .tsu, .severity => chk 5 0 sel.toNat
  | _, _ => s

def State.winRead (s : State) (d : Dev) (src : Src) (w : Win) (i : Nat) : State :=
  let v := s.readReg d src (winData d w i)
  (((s.winReadCheck d src w).winStep d src w i false).modCom d fun c => { c with rdata := v.setWidth 64 })

/-- JTAG with no session reads zero and writes nothing outside the security registers (R380). -/
def State.jtagRefused (s : State) (d : Dev) : State := (s.modCom d fun c => { c with rdata := 0 }).denied d

def execIndexedWindowAccess (d : Dev) (src : Src) (w : Win) (data : Nat) (write : Option Half) (s : State) : Res :=
  if !winHere d w || decide (winCount d w ≤ data) then
    match write with | some _ => .next s | none => .next (s.modCom d fun c => { c with rdata := 0 })
  else if s.jtagBarred d src (winData d w data) then .next (s.jtagRefused d)
  else match write with
    | some v => s.winWrite d src w data v
    | none => .next (s.winRead d src w data)

/-! ### Reads with an effect (R61, R169) -/

def execHtcRead (d : Dev) (s : State) : Res :=
  .next ((s.modTime d fun t => { t with htcHi := half t.htc 1 }).modCom d fun c => { c with rdata := (half (s.now d) 0).setWidth 64 })

/-- A LO half is read, and the HI half latched. At another offset it is a plain read. -/
def execSplitReadLatch (d : Dev) (off : Nat) (s : State) : Res :=
  let v := s.readReg d .host off
  let s1 := if splitLo d off then s.setWin d .host (off + 4) (s.regNow d .host (off + 4)) else s
  .next (s1.modCom d fun c => { c with rdata := v.setWidth 64 })

/-! ### Registers with an effect of their own -/

/-- A write that loads codewords, THRESH, K or OUT_FMT into a group record while a vote of the group is in flight (R10, the host
errors of R171). -/
def State.liveVote (s : State) (off : Nat) (v : Half) : Bool :=
  let inFlight (g : Nat) : Bool := (s.voteCtx g).isSome
  let base := 0x800000 + (off - 0x800000) / 0x100 * 0x100
  let g := (off - 0x800000) / 0x100
  if 0x800000 ≤ off ∧ off < 0x900000 then
    inFlight g && (s.reg .jup base).getLsbD 0 &&
      ((decide (off = base) && v.getLsbD 0 && decide ((v ^^^ s.reg .jup off) &&& 0x07D80000 ≠ 0)) ||
       (decide (off = base + 12) && decide ((v ^^^ s.reg .jup off) &&& 0xFFFFFF00 ≠ 0)))
  else if 0x900000 ≤ off ∧ off < 0xA00000 then
    s.jup.stage.votes.any fun e => e.2.isSome && (s.groupRec (BitVec.ofNat 12 e.1)).any fun r => decide (r.op = 12 ∧ r.cwSet = (off - 0x900000) / 0x1000)
  else false

/-- Writes that the manual calls unpredictable: reserved values without handling (R9), and the host errors of the
chapters' tables (R10). -/
def State.writeError (s : State) (d : Dev) (src : Src) (off : Nat) (v : Half) : Option String :=
  let o := off
  let r9 (b : Bool) : Option String := if b then some "R9" else none
  let r10 (b : Bool) : Option String := if b then some "R10" else none
  let cr := crBase d
  let orElse (a b : Option String) : Option String := match a with | some x => some x | none => b
  let sealedOpen := s.rwlOpen d src
  let common :=
    if o = cr then r9 (sealedOpen && decide (fld v 6 5 = 3) && !decide (d = .jup ∧ src = .image))
    else if o = cr + 0x10 then r9 (decide (7 ≤ fld v 3 0))
    else if o = 0x98 then r10 (s.dbgBusy d)
    else if (List.range (nPulses d)).any fun k => decide (o = pulseBase d k) then
      r9 (sealedOpen && (decide (fld v 1 0 = 3) || (decide (d = .tsu) && decide (fld v 3 2 ≠ 0))))
    else if (List.range (nPulses d)).any fun k => decide (o = pulseBase d k + 4) then r10 (sealedOpen && decide (v.toNat < 64))
    else none
  match d with
  | .tsu =>
    orElse common (
      if o = 0x4C0 then r9 (sealedOpen && decide (fld v 1 0 = 3))
      else if o = 0x600 then orElse (r9 (decide (fld v 5 4 = 3 ∨ 5 ≤ fld v 2 0))) (r10 ((List.range 5).any fun n => (s.convCtl .tsu n).go))
      else if o = 0x2000 then r9 (decide (48 ≤ fld v 5 0))
      else if o = 0x200C then r9 (decide (5 ≤ fld v 31 29))
      else if o = 0x6040 then r10 s.power.waking
      else if 0x1000 ≤ o ∧ o < 0x1400 then
        let x := s.chan ((o - 0x1000) / 128)
        if o % 128 = 0x30 then r10 (v.getLsbD 0 && s.bindClash ((o - 0x1000) / 128))
        else if o % 128 = 0 then r9 (sealedOpen && decide (5 ≤ fld v 18 16) && decide (src = .cg ∨ s.tsuC.sec.sealedImg = true))
        else if o % 128 = 8 ∨ (0x20 ≤ o % 128 ∧ o % 128 ≤ 0x28) then r10 ((x.arm || x.resume) && decide (src ≠ .image)) else none
      else if 0x5000 ≤ o ∧ o < 0x5100 ∨ o = 0x5200 then r10 (s.cmdPort .tsu 0).go else none)
  | .jup =>
    orElse common (
      if (takesPort o v).any fun p => s.jup.unrestored.contains p then some "R10"
      else if o = 0x23000 then orElse (r9 (decide (fld v 5 4 = 3 ∨ 198 ≤ fld v 31 24))) (r10 ((List.range 198).any fun n => (s.convCtl .jup n).go))
      else if 0x28140 ≤ o ∧ o < 0x28160 then
        if o % 8 = 0 then r9 (sealedOpen && decide (fld v 1 0 = 3))
        else r10 (sealedOpen && decide (v.toNat < 64 ∨ 1600000000 < v.toNat))
      else if 0x800000 ≤ o ∧ o < 0xA00000 then r10 (sealedOpen && s.liveVote o v)
      else none)

/-- Before the seal a write of LOCK_GRP 5 to 7 leaves that field as it is (R118). -/
def State.keepLock (s : State) (d : Dev) (off : Nat) (v : Half) : Half :=
  if decide (d = .tsu ∧ 0x1000 ≤ off ∧ off < 0x1400 ∧ off % 128 = 0 ∧ 5 ≤ fld v 18 16) && !s.tsuC.sec.sealedImg then
    (v &&& 0xFFF8FFFF) ||| (s.reg .tsu off &&& 0x00070000)
  else v

/-- Bits that an image writes and, but for the role of JP_ID (R13), a commit group. -/
def imgBits (d : Dev) (src : Src) (off : Nat) (r : RegRow) : Half :=
  if src = .image ∨ (src = .cg ∧ ¬(d = .jup ∧ off = 0)) then r.img else 0

/-- The pulse output whose CFG stands at an offset. -/
def pulseOfCfg (d : Dev) (off : Nat) : Option Nat := (List.range (nPulses d)).find? fun k => decide (off = pulseBase d k)

/-- An output whose MODE or SRC changes follows no input edge of before (R111, R112). -/
def Pulse.leave (p : Pulse) : Pulse :=
  { p with aligned := false, alignLost := false, missRun := 0, mute := 0, ret := false, lastIn := none, ivals := [], pred := none,
           lastOut := none }

/-- What follows a change of a plain register at once: STALE against the new limits (R78), and a pulse output's MODE and SRC. -/
def State.regChanged (s : State) (d : Dev) (off : Nat) (old : Half) : State :=
  if s.reg d off = old then s
  else if off = vrnBase d ∨ off = vrnBase d + 4 then s.freshenAll d
  else match pulseOfCfg d off with
    | some k => if (s.reg d off ^^^ old) &&& 0xF = 0 then s else s.modPulse d k Pulse.leave
    | none => s

/-- The writable bits of a plain register for a source, and the write of it. -/
def State.plainWrite (s : State) (d : Dev) (src : Src) (off : Nat) (v : Half) (r : RegRow) : State :=
  let v := s.keepLock d off v
  let old := s.reg d off
  let mix (m : Half) (s : State) : State := s.setReg d off ((s.reg d off &&& ~~~m) ||| (v &&& m))
  let s1 := mix (r.rw ||| imgBits d src off r) s
  (s1.rwlGuard d src (decide ((old ^^^ v) &&& r.rwl ≠ 0)) (mix r.rwl)).regChanged d off old

/-- TSU_CR_CMD: a command, or with another reference number than R89 gives, NOT_CANDIDATE. -/
def State.crCmdWrite (s : State) (d : Dev) (v : Half) : State :=
  let op := fld v 3 0
  let ref := fld v 7 4
  let go (o : CrOp) : State :=
    if 8 ≤ ref ∧ o ≠ .clear then s.modCr d fun c => { c with cmdErr := if c.pend.isSome then 1 else 2 }
    else s.crCmd d o (Fin.ofNat 8 ref)
  match op with
  | 1 => go .force
  | 2 => go .manual
  | 3 => go .clear
  | 4 => go .lockout
  | 5 => go .unlock
  | 6 => go .wtrClear
  | _ => s.modCr d fun c => if c.pend.isSome then { c with cmdErr := 1 } else c

/-- TSU_CH_CTRL: BIND, ARM, RESUME, HOLD, UNBIND in this order. -/
def State.chCtrlWrite (s : State) (c : Nat) (v : Half) : State :=
  let s1 := if v.getLsbD 0 then s.doBind c else s
  let s2 := if v.getLsbD 2 then s1.doArm c else s1
  let s3 := if v.getLsbD 4 then s2.doResume c else s2
  let s4 := if v.getLsbD 3 then s3.doHold c else s3
  if v.getLsbD 1 then s4.doUnbind c else s4

def State.chanWrite (s : State) (src : Src) (c o : Nat) (v : Half) : State :=
  match o with
  | 0x08 => s.modChan c fun x => if x.state = .unbound then { x with job := v.extractLsb' 17 15, rank := v.extractLsb' 0 17 } else x
  | 0x20 => s.modChan c fun x => { x with startTick := half x.startTick 1 ++ v }
  | 0x24 => s.modChan c fun x => { x with startTick := v ++ half x.startTick 0 }
  | 0x28 => s.modChan c fun x => { x with startIndex := v.extractLsb' 0 16 }
  | 0x30 => s.chCtrlWrite c v
  | 0x34 => s.modChan c fun x => { x with check := v.extractLsb' 16 16, verify := x.verify || v.getLsbD 0 }
  | 0x38 =>
    let s1 := s.modChan c fun x => { x with nextIndex := v.extractLsb' 0 16 }
    if v.getLsbD 16 then s1.doSwap c (decide (src = .cg)) else s1
  | _ => s

/-- RUN of four channels, from a commit group alone; a zero byte leaves its channel as it is (R212, R358, assumption 83). -/
def State.runWrite (s : State) (src : Src) (base : Nat) (v : Half) : State :=
  if src ≠ .cg then s
  else [0, 1, 2, 3].foldl (fun s i =>
    let b := fld v (8 * i + 7) (8 * i)
    if b = 0 then s else s.setRun (base + i) (BitVec.ofNat 8 b)) s

/-- Debug operations on the selected slot (R230). -/
def State.syncDbgWrite (s : State) (src : Src) (v : Half) : State :=
  let sel := s.win .tsu src 0x2000
  let core := selCore sel
  let slot := selSlot sel
  match fld v 31 29 with
  | 1 => s.dbgObject core slot 1 0 0
  | 2 => s.dbgObject core slot 1 1 0
  | 3 => s.dbgObject core slot 2 2 (v.extractLsb' 0 8)
  | 4 => s.dbgObject core slot 3 3 0
  | _ => s

/-- TSU_DBG_CTRL: CH and REQ, then CHAL, OPEN, CLOSE, STOP and CONTINUE. A Jupin has no channels to stop. -/
def State.dbgCtrlWrite (s : State) (d : Dev) (v : Half) : State :=
  let ch : Fin 8 := Fin.ofNat 8 (fld v 31 29)
  let s1 := s.modSec d fun x => { x with dbgCh := ch, req := v.extractLsb' 8 2 }
  let s2 := if v.getLsbD 0 then (s1.fresh.2).modSec d fun x => { x with challenge := s1.fresh.1, chalFresh := true } else s1
  let s3 := if v.getLsbD 1 then s2.modSec d fun x => { x with opening := some (s.now d) } else s2
  let s4 := if v.getLsbD 2 then s3.modSec d Security.endSession else s3
  match d with
  | .jup => s4
  | .tsu =>
    let s5 := if v.getLsbD 4 then s4.dbgAsk false ch.val else s4
    if v.getLsbD 5 then s5.dbgAsk true ch.val else s5

/-- Link control: INJ_PAR, RETRAIN, DISABLE. -/
def State.lnkCtrlWrite (s : State) (d : Dev) (src : Src) (n : Nat) (v : Half) : State :=
  let s1 := if v.getLsbD 2 then (if s.injDenied d src then s.denied d else s.modCtl d n fun c => { c with injPar := true }) else s
  let s2 := if v.getLsbD 1 then (s1.linkToDown d n).modCtl d n fun c => { c with retrain := true } else s1
  if v.getLsbD 0 = (s2.link d n).ctl.disable then s2
  else if v.getLsbD 0 then (s2.linkToDown d n).modCtl d n fun c => { c with disable := true }
  else s2.modCtl d n fun c => { c with disable := false }

def State.linkWrite (s : State) (d : Dev) (n o : Nat) (v : Half) : State :=
  match o with
  | 0x08 => s.modCtl d n fun c => { c with cntParity := if hits v 31 16 then 0 else c.cntParity, cntReplay := if hits v 15 0 then 0 else c.cntReplay }
  | 0x0C => s.modCtl d n fun c => { c with cntAckTo := if hits v 31 16 then 0 else c.cntAckTo, cntRetrains := if hits v 15 8 then 0 else c.cntRetrains }
  | _ => s

/-- A write of a register of a Vernier converter; GO of its swap register comes with its CHECK. -/
def State.convWrite (s : State) (d : Dev) (n o : Nat) (v : Half) : State :=
  match o with
  | 0x0C => if v.getLsbD 2 then s.modConvCtl d n fun x => { x with wrIgn := false } else s
  | 0x14 => s.modConvCtl d n fun x => { x with collide := if hits v 31 16 then 0 else x.collide, dropped := if hits v 15 0 then 0 else x.dropped }
  | 0x18 => if v.getLsbD 0 then s.vrnSwap d n (v.extractLsb' 16 16) else s.modConvCtl d n fun x => { x with check := v.extractLsb' 16 16 }
  | _ => s

def State.crWrite (s : State) (d : Dev) (o : Nat) (v : Half) : State :=
  match o with
  | 0x04 => if hits v 31 16 then s.modCr d fun c => { c with qlUnknown := 0 } else s
  | 0x10 => s.crCmdWrite d v
  | 0x24 => s.modCr d fun c => { c with errRange := c.errRange && !v.getLsbD 31, errBound := c.errBound && !v.getLsbD 30 }
  | _ => s

/-- TSU_RST_CTRL: DIE_RST, then link resets, then channel resets. -/
def State.rstWrite (s : State) (v : Half) : State :=
  let s1 := if v.getLsbD 1 then (if s.anyBound then s.modPower fun p => { p with rstErr := 2 } else s.dieReset 4) else s
  let s2 := [0, 1].foldl (fun s u =>
    if !v.getLsbD (4 + u) then s
    else if (s.link .tsu u).ctl.disable then s.modLink .tsu u fun l => l.restart .down (s.now .tsu)
    else s.modPower fun p => { p with rstErr := 1 }) s1
  chanNums.foldl (fun s c => if v.getLsbD (8 + c) then s.nextTick .reset c else s) s2

def State.asymWrite (s : State) (d : Dev) (n : Nat) (swap : Bool) (v : Half) : State :=
  if swap then (if v.getLsbD 0 ∧ !(s.link d n).asym.go then s.modAsym d n fun a => { a with go := true, bad := false } else s)
  else s.modAsym d n fun a => { a with check := v.extractLsb' 0 16 }

def State.shutCntWrite (s : State) (d : Dev) (v : Half) : State :=
  s.modShut d fun x => { x with missed := if hits v 31 16 then 0 else x.missed, latched := if hits v 15 0 then 0 else x.latched }

/-- Windows by the offset of a data register. -/
def winOf (d : Dev) (off : Nat) : Option (Win × Nat) :=
  let ws : List Win := [.asym, .vernier, .ephemeris, .smask, .syncCfg, .syncState, .conj, .voteFmt, .digest, .faultBlock, .severity, .token]
  if d = .jup ∧ 0x11000 ≤ off ∧ off < 0x12800 then
    let o := off % 64
    if 0x10 ≤ o ∧ o < 0x20 then some (.asym, 4 * ((off - 0x11000) / 64) + (o - 0x10) / 4) else none
  else if d = .jup ∧ 0x400000 ≤ off ∧ off < 0x800000 then some (.completion, (off - 0x400000) / 4)
  else if d = .tsu ∧ 0x5204 ≤ off ∧ off < 0x5224 then some (.completion, (off - 0x5204) / 4)
  else
    (ws.find? fun w => winHere d w && decide (d = .tsu ∨ w ≠ .asym) &&
      decide ((winRegs d w).2 ≤ off ∧ off < (winRegs d w).2 + 4 * winCount d w)).map
      fun w => (w, (off - (winRegs d w).2) / 4)

/-- Select registers, which only steer a window. -/
def selectReg (d : Dev) (off : Nat) : Bool :=
  match d with
  | .tsu => [0x8C, 0x130, 0x600, 0x1800, 0x1820, 0x2000, 0x2010, 0x3000, 0x3400, 0x4004, 0x4040, 0x5200].contains off
  | .jup => [0x8C, 0x23000, 0x30004, 0x30040, 0x82000, 0x90000, 0xA1000].contains off

/-- A write of TSU_EPH_SEL with INJ arms injection (R380). -/
def State.selectWrite (s : State) (d : Dev) (src : Src) (off : Nat) (v : Half) : State :=
  if d = .tsu ∧ off = 0x1800 ∧ v.getLsbD 31 ∧ s.injDenied .tsu src then s.denied .tsu else s.setWin d src off v

/-- TSU registers with an effect of their own; none where the word is plain. -/
def State.tsuSpecial (s : State) (src : Src) (o : Nat) (v : Half) : Option State :=
  if o = 0x44 then some (s.fwVersionWrite v)
  else if o = 0x98 then some (s.dbgCtrlWrite .tsu v)
  else if o = 0x9C then some (if hits v 15 0 then s.modSec .tsu fun x => { x with denied := 0 } else s)
  else if o = 0x128 then
    let s1 := if hits v 15 0 then s.modLt .tsu 0 fun t => { t with missed := 0 } else s
    some (if hits v 31 16 then s1.modLt .tsu 1 fun t => { t with missed := 0 } else s1)
  else if o = 0x144 ∨ o = 0x148 then some (s.asymWrite .tsu 0 (decide (o = 0x148)) v)
  else if 0x200 ≤ o ∧ o < 0x280 then
    if o % 64 = 4 then none else some (s.linkWrite .tsu ((o - 0x200) / 64) (o % 64) v)
  else if 0x440 ≤ o ∧ o < 0x4E0 then (if o % 32 = 0 then none else some (s.convWrite .tsu ((o - 0x440) / 32) (o % 32) v))
  else if o = 0x804 ∨ o = 0x810 ∨ o = 0x824 then some (s.crWrite .tsu (o - 0x800) v)
  else if o = 0x894 then some (if hits v 15 8 then s.modPulse .tsu 0 fun p => { p with missed := 0 } else s)
  else if 0x1000 ≤ o ∧ o < 0x1400 then (if o % 128 < 8 then none else some (s.chanWrite src ((o - 0x1000) / 128) (o % 128) v))
  else if 0x1C00 ≤ o ∧ o < 0x2000 then some (s.writeSel ((o - 0x1C00) / 128) (o % 128 / 8) (decide (o % 8 = 4)) v)
  else if o = 0x200C then some (s.syncDbgWrite src v)
  else if o = 0x2020 then some (s.runWrite src 0 v)
  else if o = 0x2024 then some (s.runWrite src 4 v)
  else if o = 0x2028 then some (if hits v 31 16 then s.modSync fun y => { y with stale := 0 } else s)
  else if o = 0x202C then some (s.modSync fun y =>
    { y with stray := if hits v 31 16 then 0 else y.stray, denied := y.denied && !v.getLsbD 1, holdFull := y.holdFull && !v.getLsbD 0 })
  else if o = 0x203C then some (if v.getLsbD 31 then s.modSync fun y => { y with timeout := y.timeout &&& ~~~((1 : BitVec 128) <<< 127) } else s)
  else if o = 0x3300 then some (s.modTsu fun t =>
    { t with voteLate := if hits v 31 16 then 0 else t.voteLate, voteStray := if hits v 15 0 then 0 else t.voteStray })
  else if o = 0x5240 then some (s.modCmds .tsu fun c => { c with irqEn := v.getLsbD 15, postedFlag := c.postedFlag && !v.getLsbD 14 })
  else if o = 0x6024 then some (s.modPower fun p =>
    { p with entries := [1, 2, 3, 4].foldl (fun t k => if hits v (8 * k - 1) (8 * k - 8) then tset 0 t k 0 else t) p.entries })
  else if o = 0x6040 then some (s.rstWrite v)
  else if o = 0x6050 then some (if hits v 31 16 then s.modPower fun p => { p with warnCnt := 0 } else s)
  else if o = 0x7040 then some (s.shutCntWrite .tsu v)
  else none

/-- Group status words (R472). -/
def State.grpWrite (s : State) (src : Src) (o : Nat) (v : Half) : State :=
  let sel := s.win .jup src 0x90000
  let g := fld sel 11 0
  if o = 0x90008 then
    if sel.getLsbD 31 then (if hits v 15 0 then s.modConjStage g fun x => { x with stray := 0 } else s)
    else s.modGrp g fun x => { x with late := if hits v 31 16 then 0 else x.late, stray := if hits v 15 0 then 0 else x.stray }
  else if v.getLsbD 0 && !sel.getLsbD 31 then (if s.injDenied .jup src then s.denied .jup else s.modGrp g fun x => { x with inj := true })
  else s

/-- Jupin registers with an effect of their own. -/
def State.jupSpecial (s : State) (src : Src) (o : Nat) (v : Half) : Option State :=
  if o = 0x98 then some (s.dbgCtrlWrite .jup v)
  else if o = 0x9C then some (if hits v 15 0 then s.modSec .jup fun x => { x with denied := 0 } else s)
  else if o = 0x3000 then some (if v.getLsbD 30 then s.modCmds .jup fun c => { c with postedFlag := false } else s)
  else if 0x11000 ≤ o ∧ o < 0x12800 then
    let p := (o - 0x11000) / 64
    some (if o % 64 = 0xC then (if hits v 15 0 then s.modLt .jup p fun t => { t with missed := 0 } else s)
          else if o % 64 = 0x20 ∨ o % 64 = 0x24 then s.asymWrite .jup p (decide (o % 64 = 0x24)) v else s)
  else if 0x13000 ≤ o ∧ o < 0x14800 then (if o % 64 = 4 then none else some (s.linkWrite .jup ((o - 0x13000) / 64) (o % 64) v))
  else if 0x21000 ≤ o ∧ o < 0x21000 + 32 * 198 then (if o % 32 = 0 then none else some (s.convWrite .jup ((o - 0x21000) / 32) (o % 32) v))
  else if o = 0x28004 ∨ o = 0x28010 ∨ o = 0x28024 then some (s.crWrite .jup (o - 0x28000) v)
  else if o = 0x28114 ∨ o = 0x28134 then
    some (if hits v 15 8 then s.modPulse .jup ((o - 0x28100) / 32) fun p => { p with missed := 0 } else s)
  else if o = 0x30200 then some (if hits v 31 16 then s.modJup fun j => { j with logLost := 0 } else s)
  else if o = 0x30208 then some (s.logFree (fld v 12 0))
  else if o = 0x70040 then some (s.shutCntWrite .jup v)
  else if 0x80000 ≤ o ∧ o < 0x80160 ∧ (src = .host ∨ src = .jtag) then
    some (if fld v 31 30 = 0 then s.portReturn ((o - 0x80000) / 4) else s)
  else if o = 0x82004 then
    some (if src = .image ∨ src = .cg then s.modJup fun j => { j with floors := tset 2 j.floors (fld (s.win .jup .image 0x82000) 15 0) (fld v 15 0) } else s)
  else if o = 0x90008 ∨ o = 0x9000C then some (s.grpWrite src o v)
  else if o = 0x9B000 then
    let s1 := if hits v 31 16 then s.modStage fun t => { t with divOverflow := 0 } else s
    some (if v.getLsbD 31 then s1.divClear else s1)
  else none

/-- The parts of a write that act on their own: INJ_PAR and the like beside RWL fields, PSTEP, the bandwidth code, and the
arming of TSU_FLT_INJ. -/
def State.actWrite (s : State) (d : Dev) (src : Src) (off : Nat) (v : Half) : Option Res :=
  if off = crBase d + 8 then some (execBwForce d (v.getLsbD 8) (v.extractLsb' 0 3) s)
  else if off = crBase d + 0x1C then some (execPstepWrite d v s)
  else if d = .tsu ∧ off = 0x4050 then
    some (if v.getLsbD 0 then execFltInjArm (v.extractLsb' 2 3) (Fin.ofNat 8 (fld v 7 5)) (v.extractLsb' 8 16) src s
          else if 6 ≤ fld v 4 2 then .fault (.unpredictable "R9") else .next (s.setReg .tsu 0x4050 v))
  else none

/-- Stored fields among the registers with an effect of their own: TSU_CH_BIND, the start tick and index, and selectors. -/
def csrStored (d : Dev) (off : Nat) : Bool :=
  decide (d = .tsu) && (decide (0x1C00 ≤ off ∧ off < 0x2000) ||
    (decide (0x1000 ≤ off ∧ off < 0x1400) && [0x08, 0x20, 0x24, 0x28].contains (off % 128)))

/-- The link whose control word stands at an offset. -/
def ctrlLink (d : Dev) (off : Nat) : Option Nat := (List.range (nLinks d)).find? fun n => decide (off = linkBase d n + 4)

/-- A write of one register word by one source. -/
def State.regWrite (s : State) (d : Dev) (src : Src) (off : Nat) (v : Half) : Res :=
  match regRow d off with
  | none => if s.jtagBarred d src off then .next (s.denied d) else .next s
  | some r =>
    if s.jtagBarred d src off then .next (s.denied d)
    else if v &&& ~~~wordMask d off r ≠ 0 then .fault (.unpredictable "R9")
    else match s.writeError d src off v with
      | some e => .fault (.unpredictable e)
      | none =>
        match s.actWrite d src off v with
        | some res => res
        | none =>
          if selectReg d off then .next (s.selectWrite d src off v)
          else match winOf d off with
            | some (w, i) => s.winWrite d src w i v
            | none =>
              match (match d with | .tsu => s.tsuSpecial src off v | .jup => s.jupSpecial src off v) with
              | some s1 => .next (if csrStored d off then s.csrPut d src off fun _ => s1 else s1)
              | none =>
                .next (s.csrPut d src off fun s =>
                  let s1 := s.plainWrite d src off v r
                  match ctrlLink d off with | some n => s1.lnkCtrlWrite d src n v | none => s1)

end Sys2Proof.Machine
end

