-- ==== Sys2Proof/Machine/Apply.lean ====
section
/-! DEFINITION. A commit group at Tc and after: the writes, the held messages, the delivery check (R354, R355, R359). -/
namespace Sys2Proof.Machine
open Host

/-- Apply a list of staged register writes, in the order staged. -/
def State.applyWrites (s : State) (d : Dev) : List StagedWrite → Res
  | [] => .next s
  | w :: ws =>
    match s.regWrite d .cg w.offset.toNat w.value with
    | .next s1 => s1.applyWrites d ws
    | r => r

/-- The routing generation a group's last write names, and its drain tick (R359). -/
def State.switchRoutes (s : State) (ws : List StagedWrite) (tc : Tick) : State :=
  ws.foldl (fun s w =>
    if w.offset = 0x10000 then
      s.modTsu fun t => { t with gen := w.value.getLsbD 31, drainTick := tc + BitVec.ofNat 64 (fld w.value 23 0) }
    else s) s

/-- Filter entries of paths that the group binds to a rank of a job again are cleared: those of the channels that serve the
job, and those of every channel (R254). -/
def State.rebound (s : State) (binds : List (Half × BitVec 15)) : State :=
  binds.foldl (fun s b =>
    let serving := chanNums.filter fun c => decide ((s.chan c).state ≠ .unbound ∧ (s.chan c).job = b.2)
    if serving.isEmpty then s
    else (s.tsu.filters.filter fun f => decide (f.path = b.1) && (match f.ch with | some c => serving.contains c | none => true)).foldl
      State.clearFilter s) s

/-- A die applies: its registers, then the die-side writes on one tick (R430). -/
def State.applyDie (s : State) (g : MemberGroup) (tc : Tick) : Res :=
  let side := g.writes.filter dieSide
  match s.applyWrites .tsu (g.writes.filter fun w => !dieSide w) with
  | .next s1 =>
    let s2 := ((s1.switchRoutes side tc).rebound g.binds).dropGroup .tsu g.handle
    .next (if side.isEmpty then s2 else s2.emit .dregApply)
  | r => r

/-- The record whose MEMBERS a write touches (R469). -/
def membersOf (w : StagedWrite) : Option Nat :=
  let o := w.offset.toNat
  if (0x800000 ≤ o ∧ o < 0x900000 ∨ 0xA00000 ≤ o ∧ o < 0xB00000) ∧ 2 ≤ o % 0x100 / 8 ∧ o % 0x100 / 8 < 18 then some (o - o % 0x100) else none
/-- A write of MEMBERS keeps those in force before it (R172). -/
def State.keepMembers (s : State) (g : MemberGroup) (tc : Tick) : State :=
  (g.writes.filterMap membersOf).eraseDups.foldl (fun s base =>
    s.modStage fun t => { t with oldMembers := t.oldMembers ++ [(tc, base, s.memberWords base tc)] }) s

/-- A write of the logical map keeps the version in force before it (R172). -/
def touchesMap (w : StagedWrite) : Bool := decide (mapBase ≤ w.offset.toNat ∧ w.offset.toNat < mapBase + mapSize)
def State.keepMap (s : State) (g : MemberGroup) (tc : Tick) : State :=
  if g.writes.any touchesMap then
    s.modStage fun t => { t with oldMaps := t.oldMaps ++ [(tc, s.mapRuns.map fun e => MapRun.word e.2)] }
  else s

/-- Down ports at which COMMIT is not yet acknowledged hold what they accept (R355). -/
def State.unackedPorts (s : State) (h : Half) : List Nat :=
  match s.delivery h 5 with
  | some x => (x.left.map Prod.fst).filter fun p => decide (p < 88)
  | none => []
def State.holdPorts (s : State) (h : Half) : State :=
  if s.role = 1 then (s.unackedPorts h).foldl (fun s p => s.modLink .jup p fun l => { l with holding := true }) s else s

/-- The record is kept while a port still waits for its check, or while this device coordinates. -/
def State.endMember (s : State) (h : Half) : State :=
  if (s.coordGroup .jup h).isSome || (decide (s.role = 1) && !(s.unackedPorts h).isEmpty) then
    s.modGroup .jup h fun g => { g with applied := true }
  else s.dropGroup .jup h

/-- A Jupin member that holds neither COMMIT nor ABORT at Tc (R355). -/
def State.missCommit (s : State) (g : MemberGroup) : State :=
  let s1 := (s.raiseFault .jup blkTracker cOpTimeout {}).modStage fun t =>
    { t with partialJobs := (t.partialJobs ++ g.jobs).eraseDups }
  (s1.sendAll .jup (s1.answerLinks g.handle.toNat) (groupMsg 4 0 stPartial g.handle (s.selfPath .jup).toNat [])).dropGroup .jup g.handle

/-- A job that a group has torn down leaves nothing behind: its staged image, its journal and shadow records, and what its
votes had pending (R276, R287, R370). -/
def State.forgetJob (s : State) (j : BitVec 15) : State :=
  (((s.closeFlow .journalFlow 0 (some j)).closeFlow .shadowFlow 0 (some j)).modJup fun x =>
    { x with jobImages := x.jobImages.filter fun i => !decide (i.job = j), journal := x.journal.filter fun e => !decide (e.2.job = j),
             lost := tset {} x.lost j.toNat {}, shadows := x.shadows.filter fun e => !decide (e.job = j),
             resetsAt := tset 0 x.resetsAt j.toNat 0,
             quotaOver := x.quotaOver.filter fun k => !decide (k = j), budgetHeld := x.budgetHeld.filter fun k => !decide (k = j),
             bringIns := x.bringIns.filter fun b => !decide (b.job = j), spareless := x.spareless.filter fun k => !decide (k = j) }).modStage fun t =>
    { t with committed := tset none t.committed j.toNat none, rerun := t.rerun.filter fun e => !decide (e.1 = j),
             brown := t.brown.filter fun k => !decide (k = j), again := t.again.filter fun k => !decide (k = j),
             failedSteps := t.failedSteps.filter fun e => !decide (e.1 = j), badInputs := t.badInputs.filter fun e => !decide (e.1 = j),
             partialJobs := t.partialJobs.filter fun k => !decide (k = j) }
def State.forgetJobs (s0 s : State) (g : MemberGroup) : State :=
  (g.jobs.filter fun j => (s0.jobRec j).isSome && (s.jobRec j).isNone).foldl (fun s j => s.forgetJob j) s

def State.applyJup (s : State) (g : MemberGroup) (tc : Tick) : Res :=
  if g.committed then
    match ((s.keepMap g tc).keepMembers g tc).applyWrites .jup g.writes with
    | .next s1 => .next ((((s.forgetJobs s1 g).movePartners).holdPorts g.handle).endMember g.handle)
    | r => r
  else if g.member && g.refused.isNone then .next (s.missCommit g)
  else .next (s.dropGroup .jup g.handle)

/-- The group whose Tc is now; of several, the one with the lowest handle comes first (R354). -/
def State.applyDue (s : State) (d : Dev) (h : Half) : Option (MemberGroup × Tick) :=
  match s.group d h with
  | none => none
  | some g =>
    let dueNow (x : MemberGroup) : Bool :=
      decide (x.tc = some (s.now d)) && !x.applied && x.prepared && (x.committed || decide (d = .jup))
    if dueNow g && (s.com d).groups.all (fun x => !dueNow x || decide (g.handle ≤ x.handle)) then some (g, s.now d) else none

def execCgApply (d : Dev) (handle : Half) (s : State) : Res :=
  match s.applyDue d handle with
  | none => .next s
  | some (g, tc) => match d with
    | .tsu => s.applyDie g tc
    | .jup => s.applyJup g tc

/-! ### CG_DELIVERY_CHECK (R355) -/

/-- A die whose COMMIT no ACK covers is fenced with tick Tc, and what was held for it is dropped. -/
def State.fenceUnacked (s : State) (p : Nat) (g : MemberGroup) (tc : Tick) : State :=
  let s1 := s.modLink .jup p fun l => { l with held := [], holding := false, discards := l.discards + l.held.length }
  if s.ownSide ≠ 0 then s1
  else if g.jobs.isEmpty then s1.placeFence p { job := 0, domain := true, path := s.childPath p, tick := tc }
  else g.jobs.foldl (fun s j => s.placeFence p { job := j, domain := false, path := s.childPath p, tick := tc }) s1

/-- The port's part of the delivery is over, uncounted. -/
def State.endDelivery (s : State) (h : Half) (p : Nat) : State :=
  match s.delivery h 5 with
  | some x => if x.left.any fun e => decide (e.1 = p) then s.portDelivered x p 0 else s
  | none => s

def State.checkPort (s : State) (p : Nat) (g : MemberGroup) (tc : Tick) : State :=
  let s1 := if (s.unackedPorts g.handle).contains p then (s.fenceUnacked p g tc).endDelivery g.handle p else s.releaseHeld p
  if (s1.unackedPorts g.handle).isEmpty && (s1.coordGroup .jup g.handle).isNone then s1.dropGroup .jup g.handle else s1

def execCgDeliveryCheck (port : Nat) (handle : Half) (s : State) : Res :=
  match s.group .jup handle with
  | none => .next s
  | some g =>
    match g.tc with
    | none => .next s
    | some tc => s.due (g.applied && decide (s.role = 1 ∧ port < 88) && g.ports.contains port && decide (s.now .jup = tc + 64)) fun s => s.checkPort port g tc

end Sys2Proof.Machine
end

