-- ==== Sys2Proof/Machine/Journal.lean ====
section
/-! DEFINITION. The input journal, shadows, tracker deadlines, memory errors and member loss of a Jupin (R183, R264 to R279,
R327). -/
namespace Sys2Proof.Machine
open Host

/-! ### RESULT_LATE_DELIVERY (R183) -/

/-- The member knows of its late result itself; a late gate result fences the rank one tick after the step's COMMIT. -/
def execResultLateDelivery (port : Nat) (job : BitVec 15) (_rank : BitVec 17) (gate : Bool) (commitTick : Tick) (s : State) : Res :=
  s.due (gate && decide (s.role = 1 ∧ port < 88)) fun s =>
    s.settleFence port { job := job, domain := false, path := s.childPath port, tick := commitTick + 1 }

/-! ### JP_MEMBER_LOST (R264, R265) -/

/-- A link has been DOWN for 2^DOWN_LOG2 ticks. -/
def State.longDown (s : State) (n : Nat) : Bool :=
  let c := (s.link .jup n).ctl
  decide (c.lstate = .down) &&
  match c.downSince with | some t => decide (t.toNat + 2 ^ s.downLog2 n ≤ (s.now .jup).toNat) | none => false

/-- What the survivor reports of its peer group to a member, kept with the tick from which it has reported it DOWN. -/
def sideKey (side : Bool) : Nat := if side then 1 else 0
def State.notePeer (s : State) (side down : Bool) : State :=
  let t := if down then some ((tget none s.jup.peerDown (sideKey side)).getD (s.now .jup)) else none
  s.modJup fun j => { j with peerDown := tset none j.peerDown (sideKey side) t }
def State.peerLongDown (s : State) (side : Bool) : Bool :=
  match tget none s.jup.peerDown (sideKey side) with
  | some t => decide (t.toNat + 2 ^ s.downLog2 ((standbyLinks side).headD 0) ≤ (s.now .jup).toNat)
  | none => false

/-- What the survivor reports is an operand: no message that carries the report is given. Both conditions must have held for
2^DOWN_LOG2 ticks. -/
def execJpMemberLost (side : Bool) (peerDownReported : Bool) (s : State) : Res :=
  if s.side ≠ 2 then .next s
  else
    let s1 := s.notePeer side peerDownReported
    s1.due ((standbyLinks side).all s1.longDown && s1.peerLongDown side && !s1.jup.takeover.contains side) fun s =>
      (s.modJup fun j => { j with takeover := j.takeover ++ [side] }).raiseFault .jup blkTracker cMemberLost {}

/-! ### The lost list (R278) -/

def lostHeldMax : Nat := 4096
/-- A SEQ_ID enters a job's lost list with a reason, once; word 7 of the job's record counts it. -/
def State.addLost (s : State) (job : BitVec 15) (seqId : BitVec 40) (reason : Nat) : State :=
  let l := tget {} s.jup.lost job.toNat
  if l.held.any fun e => decide (e.1 = seqId) then s
  else
    let l' : LostList := if l.held.length < lostHeldMax then { l with held := l.held ++ [(seqId, reason)] } else { l with rest := l.rest + 1 }
    let s1 := s.modJup fun j => { j with lost := tset {} j.lost job.toNat l' }
    s1.setJobWord job 7 (put 64 63 32 (l'.held.length + l'.rest) ||| put 64 12 0 l'.held.length)

/-! ### MEMORY_UE (R272) -/

def lostJrnLate : Nat := 1
def lostMemUe : Nat := 2
def lostQuota : Nat := 3
def lostRecovery : Nat := 4

/-- The record lies over a 64-byte block. -/
def JrnRec.covers (r : JrnRec) (b : Nat) : Bool := decide (r.block ≤ b ∧ b < r.block + r.bytes / 64)

def State.journalUe (s : State) (b : Nat) : State :=
  let hit := (s.jup.journal.map Prod.snd).filter fun r => r.covers b
  let s1 := (s.modJup fun j => { j with journal := j.journal.map fun (n, r) => if r.covers b then (n, { r with lost := true }) else (n, r) }).raiseFault
    .jup blkMemory cJrnMemUe {}
  hit.foldl (fun s r => if r.kind = 3 then s else s.addLost r.job r.seqId lostMemUe) s1

def execMemoryUe (where_ : UeAt) (s : State) : Res :=
  .next (match where_ with
    | .journal b => s.journalUe b
    | .restore port g => (s.modGen port.toNat g fun x => { x with bad := true }).raiseFault .jup blkMemory cRestoreMemUe {})

/-! ### JOURNAL_APPEND (R273, R275, R277, R327) -/

/-- A record from the words of an append. The tick of acceptance joins it, and it is padded to 64 bytes. -/
def recordOf (ws : List Word) (block : Nat) (now : Tick) : JrnRec :=
  let w0 := nthW ws 0
  let len := fld (nthW ws 3) 31 16
  { job := w0.extractLsb' 49 15, rank := w0.extractLsb' 32 17, kind := fld w0 31 28, step := nthW ws 1,
    seqId := (nthW ws 2).extractLsb' 24 40, chunk := (nthW ws 2).extractLsb' 0 24, crc := (nthW ws 3).extractLsb' 32 32,
    bytes := 64 * ((5 + len + 7) / 8), block := block, tick := now, durable := false, endTick := none,
    data := (List.range (4 + len)).map fun i => nthW ws i }

def JrnRec.crcOk (r : JrnRec) : Bool := decide (crc32c (r.data.drop 4) = r.crc)

/-- The same chunk of the same rank and sequence. -/
def sameChunk (a b : JrnRec) : Bool :=
  decide (a.kind = b.kind ∧ a.job = b.job ∧ a.rank = b.rank ∧ a.seqId = b.seqId ∧ a.chunk = b.chunk)

/-- The step of a record has committed here. A CHECKPOINT always follows its step's COMMIT. -/
def State.stepPassed (s : State) (r : JrnRec) : Bool :=
  decide (r.kind ≠ 3) &&
  match tget none s.jup.stage.committed r.job.toNat with
  | some c => decide (r.step ≤ c)
  | none => false

def State.usage (s : State) (job : BitVec 15) : Nat := (s.jobWord job 5).toNat
def State.setUsage (s : State) (job : BitVec 15) (n : Nat) : State :=
  let s1 := s.setJobWord job 5 (BitVec.ofNat 64 n)
  if 8 * n < 7 * (s.jobWord job 4).toNat then s1.modJup fun j => { j with quotaOver := j.quotaOver.filter fun k => !decide (k = job) } else s1

/-- First block of a record: JOURNAL is written in a ring, and a record that its end would cut begins at block 0 (assumption
199). -/
def State.journalPlace (s : State) (bytes : Nat) : Nat :=
  if s.journalBlocks < s.jup.journalBlock + bytes / 64 then 0 else s.jup.journalBlock
/-- Store a record. -/
def State.storeRecord (s : State) (r : JrnRec) (durable : Bool) : State :=
  let b := s.journalPlace r.bytes
  (s.modJup fun j =>
    { j with journal := j.journal ++ [(j.journalNext, { r with block := b, durable := durable, endTick := if durable ∧ r.kind = 2 then some r.tick else none })],
             journalNext := j.journalNext + 1, journalBlock := b + r.bytes / 64 }).setUsage r.job (s.usage r.job + r.bytes)
/-- Forward it to the other member and to the hot-standby. -/
def State.forwardRecord (s : State) (r : JrnRec) : State := s.sendAll .jup (s.pairPorts r.rank.toNat) (appendMsg r.job r.data)

/-- The gate of the record's step fails. -/
def State.badInput (s : State) (r : JrnRec) : State :=
  s.modStage fun t => { t with badInputs := if t.badInputs.contains (r.job, r.step) then t.badInputs else t.badInputs ++ [(r.job, r.step)] }

/-- Header word of a command that a Jupin sends on (R342). -/
def cmdHdr (op : BitVec 8) (len tkind : Nat) (h : Half) : Word :=
  put 64 63 56 op.toNat ||| put 64 55 51 (len - 1) ||| put 64 33 32 tkind ||| put 64 31 0 h.toNat
/-- Every rank of a job, as its record counts them. -/
def State.wholeJob (s : State) (job : BitVec 15) : Target := .job job 0 ((s.jobWord job 0).extractLsb' 32 17)

/-- A hold for a step to every rank: on the job's trees here, and up for the others. A zero handle tells it from a command's
hold: its HOLD_CAUSE is 7. -/
def State.quotaHold (s : State) (r : JrnRec) : State :=
  let ws := [cmdHdr opHoldJob 3 2 0, Target.word (s.wholeJob r.job), r.step]
  let s1 := (s.jobTrees r.job).foldl (fun s t =>
    s.multicast ownPort { mtype := mtCommand, route := 3, flow := 0, addr := BitVec.ofNat 32 t, words := ws } none) s
  s1.send .jup (s.upPort r.job) (jobMsg mtCommand ws)

/-- An append over quota. -/
def State.overQuota (s : State) (r : JrnRec) : State :=
  let s1 := if s.jup.quotaOver.contains r.job then s
            else (s.modJup fun j => { j with quotaOver := j.quotaOver ++ [r.job] }).raiseFault .jup blkRecord cQuotaOver {}
  if r.kind ≠ 1 then s1
  else if (s.jobWord r.job 0).getLsbD 1 then (s1.badInput r).quotaHold r
  else s1.addLost r.job r.seqId lostQuota

/-- The durable INPUT record of the same chunk (R327). -/
def State.durableTwin (s : State) (r : JrnRec) : Option JrnRec :=
  (s.jup.journal.map Prod.snd).find? fun x => sameChunk x r && x.durable && decide (r.kind = 1)
/-- It is ignored, and counted. -/
def State.ignoreTwin (s : State) : State := s.modJup fun j => { j with journalDup := j.journalDup + 1 }

/-- A record of the job's active side: its CRC, a durable copy, its step and the quota are judged in this order. -/
def State.appendOwn (s : State) (port : Nat) (r : JrnRec) : State :=
  if !r.crcOk then (s.badInput r).raisePort port cJrnCrc {}
  else match s.durableTwin r with
    | some x => if x.crc = r.crc then s.ignoreTwin else (s.badInput r).raisePort port cJrnCrc {}
    | none =>
      if s.stepPassed r then (s.addLost r.job r.seqId lostJrnLate).raisePort port cJrnLate {}
      else if (s.jobWord r.job 4).toNat < s.usage r.job + r.bytes then s.overQuota r
      else (s.storeRecord r false).forwardRecord r

/-- Records leave the journal. -/
def State.dropRecords (s : State) (job : BitVec 15) (p : JrnRec → Bool) : State :=
  let gone := (s.jup.journal.filter fun e => decide (e.2.job = job) && p e.2)
  let n := (gone.map fun e => e.2.bytes).foldl (· + ·) 0
  (s.modJup fun j => { j with journal := j.journal.filter fun e => !(decide (e.2.job = job) && p e.2) }).setUsage job (s.usage job - n)

/-- Of each rank the two latest CHECKPOINT records are kept. -/
def State.keepTwo (s : State) (r : JrnRec) : State :=
  let own (x : JrnRec) : Bool := decide (x.kind = 3 ∧ x.rank = r.rank)
  let steps := ((s.jup.journal.map Prod.snd).filter fun x => decide (x.job = r.job) && own x && x.durable).map fun x => x.step
  s.dropRecords r.job fun x => own x && x.durable && decide (2 ≤ steps.countP fun t => decide (x.step < t))

/-- A copy from the other member is then on both; its CRC is checked here too, and a chunk that is durable is not stored twice
(R273, R274, R327). -/
def State.appendCopy (s : State) (port : Nat) (r : JrnRec) : State :=
  if !r.crcOk then s.raisePort port cJrnCrc {}
  else match s.durableTwin r with
    | some x => if x.crc = r.crc then s.ignoreTwin else s.raisePort port cJrnCrc {}
    | none => if r.kind = 3 then (s.storeRecord r true).keepTwo r else s.storeRecord r true

/-- The journal flow of a job opens with its first append; where no tracker entry is free it is refused, and with an INPUT record
refused the gate of its step fails as in R275 (assumption 201). -/
def State.appendIn (s : State) (port : Nat) (r : JrnRec) : State :=
  match s.openFlow .journalFlow r.job with
  | none => if port < 88 ∧ r.kind = 1 then s.badInput r else s
  | some s1 => if 88 ≤ port then s1.appendCopy port r else s1.appendOwn port r

/-- Reserved KIND values (R9). -/
def execJournalAppend (port : Nat) (words : List Word) (s : State) : Res :=
  let r := recordOf words 0 (s.now .jup)
  if r.kind = 0 ∨ 3 < r.kind then .fault (.unpredictable "R9")
  else .next ((s.consume .jup port mtAppend words).appendIn port r)

/-! ### JOURNAL_DURABLE and JOURNAL_AGE_OUT (R274 to R276) -/

def State.makeDurable (s : State) (n : Nat) (r : JrnRec) : State :=
  let s1 := s.modJup fun j => { j with journal := j.journal.map fun e =>
    if e.1 = n then (n, { e.2 with durable := true, endTick := if r.kind = 2 then some (s.now .jup) else none }) else e }
  let s2 := if r.kind = 3 then s1.keepTwo r else s1
  s2.retryGates r.job

def execJournalDurable (record : Nat) (s : State) : Res :=
  match s.jup.journal.find? fun e => decide (e.1 = record) with
  | some (n, r) => s.due (!r.durable) fun s => s.makeDurable n r
  | none => .next s

/-- RETAIN_TICKS of a job (R276). -/
def State.retain (s : State) (job : BitVec 15) : Nat :=
  match s.jobRec job with
  | some _ => fld (s.jobWord job 6) 39 0
  | none => 2 ^ 34

def State.ageDue (s : State) (job : BitVec 15) (seqId : BitVec 40) : Bool :=
  (s.jup.journal.map Prod.snd).any fun r => decide (r.job = job ∧ r.seqId = seqId ∧ r.kind = 2) &&
    match r.endTick with | some t => decide (t.toNat + s.retain job ≤ (s.now .jup).toNat) | none => false

def execJournalAgeOut (job : BitVec 15) (seqId : BitVec 40) (s : State) : Res :=
  s.due (s.ageDue job seqId) fun s => s.dropRecords job fun r => decide (r.kind ≠ 3 ∧ r.seqId = seqId)

/-! ### SHADOW_ACK (R279) -/

/-- An acknowledgement on a flow that was refused its tracker entry is none (R270). -/
def State.ackShadow (s : State) (job : BitVec 15) (rank : BitVec 17) (step : BitVec 64) : State :=
  let own (x : Shadow) : Bool := decide (x.job = job ∧ x.rank = rank)
  s.modJup fun j =>
    { j with shadows := if j.shadows.any own then updFirst own (fun x => { x with step := if x.step < step then step else x.step }) j.shadows
                        else j.shadows ++ [{ job := job, rank := rank, step := step, partner := s.partnerPath job rank }] }

/-- The record goes to the other member and to the hot-standby (R264). -/
def State.sendShadow (s : State) (job : BitVec 15) (rank : BitVec 17) : State :=
  match s.jup.shadows.find? fun x => decide (x.job = job ∧ x.rank = rank) with
  | some x => (s.pairPorts rank.toNat).foldl (fun s p => s.emit (.shadowCopy p x)) s
  | none => s
def execShadowAck (job : BitVec 15) (rank : BitVec 17) (step : BitVec 64) (s : State) : Res :=
  match s.openFlow .shadowFlow job with
  | some s1 => .next ((s1.ackShadow job rank step).sendShadow job rank).checkLag
  | none => .next s

end Sys2Proof.Machine
end

