-- ==== Sys2Proof/Machine/Plates.lean ====
section
/-! DEFINITION. What a plate holds: the blocks of each device and their words (R383, R387, R388, R474). -/
namespace Sys2Proof.Machine

/-! ### Words -/

/-- Registers two per word, the lower offset in the low half. -/
def packHalves : List Half → List Word
  | a :: b :: t => (b ++ a) :: packHalves t
  | [a] => [(0 : Half) ++ a]
  | [] => []

/-- The assigned registers from an offset to below another, in ascending order. -/
def regsIn (d : Dev) (lo hi : Nat) : List Nat :=
  ((List.range ((hi - lo) / 4)).map fun i => lo + 4 * i).filter fun o => (regRow d o).isSome

/-- Register ranges of a block. Windows into tables are among them as the registers they are. -/
def blockRanges : Dev → Nat → List (Nat × Nat)
  | .tsu, 0 => [(0, 0x100)]
  | .tsu, 1 => [(0x100, 0x280)]
  | .tsu, 2 => [(0x400, 0x800)]
  | .tsu, 3 => [(0x800, 0x900)]
  | .tsu, 4 => [(0x1000, 0x1400)]
  | .tsu, 5 => [(0x1C00, 0x2000)]
  | .tsu, 6 => [(0x3000, 0x3400)]
  | .tsu, 7 => [(0x3420, 0x3460)]
  | .tsu, 10 => [(0x2000, 0x2040)]
  | .tsu, 11 => [(0x4000, 0x4004)]
  | .tsu, 12 => [(0x5000, 0x5300)]
  | .tsu, 13 => [(0x6000, 0x6060)]
  | .jup, 0 => [(0, 0x100)]
  | .jup, 1 => [(0x10000, 0x13000)]
  | .jup, 2 => [(0x13000, 0x14800)]
  | .jup, 3 => [(0x20000, 0x23008)]
  | .jup, 4 => [(0x28000, 0x28160)]
  | .jup, 5 => [(0x30000, 0x30300)]
  | .jup, 7 => [(0x3000, 0x3008), (0x4000, 0x8000)]
  | .jup, 8 => [(0x80000, 0x82100)]
  | .jup, 9 => [(0x60000, 0x60080), (0x60100, 0x60800)]
  | .jup, 14 => [(0x60080, 0x60100)]
  | _, _ => []

/-- Blocks of job data (R383, R474). -/
def jobDataBlock : Dev → Nat → Bool
  | .tsu, b => [5, 7, 8, 15].contains b
  | .jup, b => decide (b = 12)

/-! ### Tables -/

/-- Selector states, two bits each. -/
def statesWord (t : Table SelState) : Half := (List.range 16).foldl (fun a n => a ||| put 32 (2 * n + 1) (2 * n) (tget .valid t n).code) 0
/-- The states of a channel's selectors, now and in the boundary record, then the recorded selectors. -/
def chanSelTable (c : Chan) : List Word :=
  (statesWord c.bnd.states ++ statesWord c.prog.states) :: (List.range 16).map fun n => tget 0 c.bnd.sels n

/-- Eight VALUEs per word, slot 0 of core 0 first. -/
def State.valueWord (s : State) (w : Nat) : Word :=
  (List.range 8).foldl (fun a i =>
    let k := 8 * w + i
    a ||| put 64 (8 * i + 7) (8 * i) (s.slotValue (BitVec.ofNat 11 (k / 48)) (BitVec.ofNat 6 (k % 48))).toNat) 0
/-- ROUND, CNT_NEXT, CNT_CUR and the release tick of a record. -/
def State.recWord (s : State) (r : Nat) : Word :=
  (s.conjRec r).relTick ++ (put 32 31 16 (s.conjRec r).round.toNat ||| put 32 15 8 (s.conjRec r).next.toNat ||| put 32 7 0 (s.conjRec r).cur.toNat)
/-- Words of a fault block, as its window shows them (R340). -/
def State.faultWords (s : State) (d : Dev) (b : Nat) : List Word :=
  let s1 := s.setWin d .host (fltBase d + 4) (BitVec.ofNat 32 b)
  packHalves ((List.range 8).map fun i => s1.readFaults d .host (8 + 4 * i))
/-- Words of a group's status (R472). -/
def State.statusWords (s : State) (g : Nat) : List Word :=
  let s1 := s.setWin .jup .host 0x90000 (BitVec.ofNat 32 g)
  packHalves ((List.range 14).map fun i => s1.readGroup .host (4 + 4 * i))

/-- The tables of a block, in index order. -/
def State.blockTable (s : State) : Dev → Nat → List Word
  | .tsu, 5 => (List.range 8).flatMap fun c => chanSelTable (s.chan c)
  | .tsu, 8 => (List.range (6 * Config.fuseCores.toNat)).map s.valueWord
  | .tsu, 9 => (List.range 4096).map s.recWord
  | .tsu, 11 => (List.range 16).flatMap (s.faultWords .tsu)
  | .tsu, 14 => s.tsu.sync.held.flatMap fun h => (List.range 3).map (nthW h.words)
  | .jup, 5 => (List.range 106).flatMap (s.faultWords .jup)
  | .jup, 6 => s.jup.log.flatMap id
  | .jup, 10 => s.jup.tracker.flatMap fun e => match e.2 with | some x => (List.range 4).map (x.word (s.opWaits x)) | none => []
  | .jup, 11 => s.jup.stage.grp.flatMap fun e => s.statusWords e.1
  | .jup, 12 => s.jup.stage.grp.flatMap fun e => e.2.result
  | .jup, 13 => ((s.listed .jup 0x00D80000 0x40000 0x100).filter fun o => (s.reg64 .jup o).getLsbD 0).flatMap fun o =>
      (List.range 16).map fun i => s.reg64 .jup (o + 8 * i)
  | _, _ => []

/-- The words of a block: its registers, then its tables. -/
def State.blockWords (s : State) (d : Dev) (b : Nat) : List Word :=
  packHalves ((blockRanges d b).flatMap fun r => (regsIn d r.1 r.2).map (s.regNow d .host)) ++ s.blockTable d b

/-! ### The size of a set at a TSU (R383) -/

/-- Words of the die-side block. -/
def dieBlockWords : Nat := 256
/-- The most words that a block of a TSU can take. -/
def blockMax (b : Nat) : Nat :=
  let table := match b with
    | 5 => 8 * 17
    | 8 => 6 * Config.fuseCores.toNat
    | 9 => 4096
    | 11 => 16 * 4
    | 14 => 3 * 256
    | 15 => dieBlockWords
    | _ => 0
  ((((blockRanges .tsu b).map fun r => (regsIn .tsu r.1 r.2).length).foldl (· + ·) 0) + 1) / 2 + table
/-- 128 KiB of words. -/
def plateMax : Nat := 16384
def setWords (mask : Half) : Nat :=
  3 + (((List.range 16).filter fun b => mask.getLsbD b).map fun b => 1 + blockMax b).foldl (· + ·) 0
/-- Every plate set that a load writes fits in a slot. -/
def setsFit (ws : List (BitVec 32 × Half)) : Bool :=
  ws.all fun e => !decide (0x7000 ≤ e.1.toNat ∧ e.1.toNat < 0x7040) || decide (setWords e.2 ≤ plateMax)

end Sys2Proof.Machine
end

