-- ==== Sys2Proof/Machine/Images.lean ====
section
/-! DEFINITION. Quigon images: acceptance, header and signature, sections, structure checks, the seal (R13, R19, R37, R170,
R267, R271, R361 to R372). -/
namespace Sys2Proof.Machine
open Host

/-! ### What the header says (R362, R363) -/

def imgKind (ws : List Word) : Nat := fld (nthW ws 0) 23 20
def imgSections (ws : List Word) : Nat := fld (nthW ws 0) 7 0
def imgSigner (ws : List Word) : Nat := fld (nthW ws 0) 15 14
def imgEval (ws : List Word) : Bool := (nthW ws 0).getLsbD 8
def imgJob (ws : List Word) : BitVec 15 := (nthW ws 2).extractLsb' 49 15
/-- Words of the header section. -/
def headerLen (ws : List Word) : Nat := 27 + 7 * imgSections ws
/-- The section table. -/
def sectionTable (ws : List Word) : List Section :=
  (List.range (imgSections ws)).map fun i =>
    { typ := (nthW ws (3 + 7 * i)).extractLsb' 56 8, length := fld (nthW ws (3 + 7 * i)) 47 0, digest := sliceW ws (4 + 7 * i) 6 }
/-- The signed part: the header to the end of the table, then PUBKEY (R371). -/
def signedPart (ws : List Word) : List Word := sliceW ws 0 (15 + 7 * imgSections ws)
def pubKey (ws : List Word) : List Word := sliceW ws (3 + 7 * imgSections ws) 12
def imgSig (ws : List Word) : List Word := sliceW ws (15 + 7 * imgSections ws) 12
/-- Six words as a digest, the first byte lowest, and back. -/
def digestOf (ws : List Word) : BitVec 384 := (List.range 6).foldl (fun a i => a ||| ((nthW ws i).setWidth 384) <<< (64 * i)) 0
def digestWords (x : BitVec 384) : List Word := (List.range 6).map fun i => x.extractLsb' (64 * i) 64

/-! ### Section types (R364, R467) -/

/-- Types a KIND admits, and those it requires. -/
def kindTypes (kind : Nat) : List Nat :=
  match kind with
  | 0 => [1, 2, 3, 4, 5, 6, 7, 8]
  | 1 => [0x10, 0x11, 0x12, 0x13, 0x14, 0x15, 0x16, 0x18, 0x19, 0x1A]
  | 2 => [0x18, 0x19, 0x1A]
  | 3 => [0x30, 0x31, 0x32]
  | _ => []
def kindNeeds (kind : Nat) : List Nat :=
  match kind with
  | 0 => [1, 2]
  | 1 => [0x10, 0x11, 0x12]
  | 3 => [0x30, 0x31, 0x32]
  | _ => []

def ascending : List Nat → Bool
  | a :: b :: t => decide (a < b) && ascending (b :: t)
  | _ => true
def tableOk (kind : Nat) (l : List Section) : Bool :=
  let ts := l.map fun e => e.typ.toNat
  ascending ts && (ts.all fun t => (kindTypes kind).contains t) && (kindNeeds kind).all fun t => ts.contains t

/-- Ranges of the load space that a type writes, first and end. -/
def typeRanges (typ : Nat) : List (Nat × Nat) :=
  match typ with
  | 0x01 => [(0x100, 0x1000), (0x6000, 0x7000)]
  | 0x02 => [(0x1000, 0x1400), (0x03031000, 0x03031080)]
  | 0x03 => [(0x01000000, 0x01100000), (0x02000000, 0x02080000)]
  | 0x04 => [(0x03000000, 0x03001000), (0x03010000, 0x03010200)]
  | 0x05 => [(0x04000000, 0x04060000), (0x03020000, 0x03024000)]
  | 0x06 => [(0x03030000, 0x03030400)]
  | 0x07 => [(0x7000, 0x7040)]
  | 0x08 => [(0x10000, 0x20000)]
  | 0x10 => [(0, 4), (0x10020, 0x10038)]
  | 0x11 => [(0x80000, 0x83000)]
  | 0x12 => [(0x60080, 0x60100)]
  | 0x13 => [(0x98000, 0x99800)]
  | 0x14 => [(0x30040, 0x3004C)]
  | 0x15 => [(0x60400, 0x60640), (0x28000, 0x28160)]
  | 0x16 => [(0x70000, 0x70040)]
  | 0x18 => [(0x800000, 0xB00000)]
  | 0x19 => [(0xB00000, 0xD00000)]
  | 0x1A => [(0xD00000, 0xDC0000)]
  | _ => []

/-- Writes of these types wait for the seal tick (R368). -/
def stagedType (typ : Nat) : Bool := [0x01, 0x10, 0x11, 0x12, 0x15].contains typ

/-- A row of the map has a word in a range of bytes. -/
def RegRow.meets (r : RegRow) (lo hi : Nat) : Bool :=
  let k := if lo ≤ r.base then 0 else (lo - r.base + r.stride - 1) / r.stride
  decide (k < r.count ∧ r.base + r.stride * k < hi)

/-- A run that stays in its type's range and off registers with an effect of their own. -/
def runOk (d : Dev) (typ : Nat) (r : Nat × Nat) : Bool :=
  decide (r.1 % 4 = 0 ∧ 1 ≤ r.2) && ((typeRanges typ).any fun e => decide (e.1 ≤ r.1 ∧ r.1 + 4 * r.2 ≤ e.2)) &&
  !((regRows d).any fun e => e.act && e.meets r.1 (r.1 + 4 * r.2))

/-- A run writes LOCK_GRP 5 to 7 of a channel (R118). -/
def lockBad (d : Dev) (ws : List (BitVec 32 × Half)) : Bool :=
  decide (d = .tsu) && ws.any fun e => decide (0x1000 ≤ e.1.toNat ∧ e.1.toNat < 0x1400 ∧ e.1.toNat % 128 = 0 ∧ 5 ≤ fld e.2 18 16)

/-! ### Writes of an image (R366, R467) -/

/-- The table entry that a word of the TSU load space belongs to (R366). -/
def tableWord (off : Nat) : Nat :=
  if off < 0x02000000 then off - off % 16
  else if off < 0x03010000 ∨ (0x03030000 ≤ off ∧ off < 0x03030400) then off - off % 8 else off
/-- A write into a channel's standby bank, or its station masks, clears OK (R121, R169). -/
def State.standbyTouched (s : State) (inBank : Nat → Bool → Bool) : State :=
  chanNums.foldl (fun s c => if inBank c (!(s.chan c).bank) && (s.chan c).stbyOk then s.modChan c fun x => { x with stbyOk := false } else s) s

/-- One value into the load space of a device. -/
def State.loadWrite (s : State) (d : Dev) (off : Nat) (v : Half) : Res :=
  match d with
  | .jup => s.regWrite .jup .image off v
  | .tsu =>
    if off < 0x10000 then s.regWrite .tsu .image off v
    else if off < 0x20000 then .next (s.emit (.dreg (BitVec.ofNat 24 off) v))
    else if s.csrLater .tsu .image (tableWord off) then .next s
    else if off < 0x02000000 then
      .next (((s.setReg .tsu off v).modTsu fun t => { t with badEph := t.badEph.filter fun k => !decide (k = (off - 0x01000000) / 16) }).standbyTouched
        (fun c b => s.bankBase c b ≤ (off - 0x01000000) / 16 && decide ((off - 0x01000000) / 16 < s.bankBase c b + s.bankSize c)))
    else if off < 0x03000000 then
      .next ((s.setReg .tsu off v).standbyTouched fun c b => decide ((off - 0x02000000) / 8 / 4096 = 2 * c + (if b then 1 else 0)))
    else if 0x03030000 ≤ off ∧ off < 0x03030400 then
      let k := (off - 0x03030000) / 8
      let e := tget 0 s.tsuC.sev k
      let e' : Word := if off % 8 = 0 then half e 1 ++ v else v ++ half e 0
      .next ((s.modCom .tsu fun c => { c with sev := tset 0 c.sev k e' }).sramWrite 5 0 k)
    else if 0x03000000 ≤ off ∧ off < 0x03010000 then
      .next ((s.setReg .tsu off v).sramWrite 3 ((off - 0x03000000) / 512) ((off - 0x03000000) / 8 % 64))
    else if 0x03010000 ≤ off ∧ off < 0x03020000 then
      .next ((s.setReg .tsu off v).sramWrite 4 ((off - 0x03010000) / 64) ((off - 0x03010000) / 4 % 16))
    else if 0x04000000 ≤ off ∧ Config.fuseCores.toNat ≤ (off - 0x04000000) / 4 / 48 then .next s
    else .next (s.setReg .tsu off v)

def State.loadWrites (s : State) (d : Dev) : List (BitVec 32 × Half) → Res
  | [] => .next s
  | (o, v) :: t =>
    match s.loadWrite d o.toNat v with
    | .next s1 => s1.loadWrites d t
    | r => r

/-! ### The end of a load -/

/-- RESULTS of LOAD_IMAGE (R350). -/
def loadResults (d : Dev) (checked count : Nat) (digest : BitVec 384) : List Word :=
  (put 64 63 56 checked ||| put 64 19 0 count) :: (digestWords digest).take (match d with | .tsu => 1 | .jup => 5)

def State.postLoad (s : State) (d : Dev) (h : Option Half) (status : BitVec 8) (results : List Word) : State :=
  match h, d with
  | some hd, .jup => (s.closeFlow .imageFlow hd none).post .jup hd status results
  | some hd, .tsu => s.post .tsu hd status results
  | none, _ => s

/-- A job touches the Jupin: it holds a map of it (R20, R367). -/
def State.jobsHere (s : State) (d : Dev) : Bool :=
  match d with
  | .tsu => s.anyBound
  | .jup => !s.mapRuns.isEmpty

/-- An IMAGE restore is taken while every bound channel is READY or HELD (R281). -/
def State.channelsQuiet (s : State) : Bool :=
  chanNums.all fun c => decide ((s.chan c).state = .unbound ∨ (s.chan c).state = .ready ∨ (s.chan c).state = .held)

/-- Start the first waiting load that is accepted (R367 step 1). Of a Jupin's own load the KIND shows only in the header. -/
def State.startFrom (s : State) (d : Dev) : List (Option Half × LoadTo × Nat) → State
  | [] => s.modCom d fun c => { c with load := none, loadQueue := [] }
  | (h, dest, stage) :: rest =>
    let busy := decide (d = .tsu) && (if h.isSome then s.anyBound else !s.channelsQuiet)
    if busy then (s.postLoad d h stJobsActive []).startFrom d rest
    else
      let l : Load := { handle := h, dest := dest, stage := stage, tablesOnly := decide (d = .tsu) && h.isNone && (s.anyBound || s.power.darkWake),
                        header := [], headerDone := false, sections := [], pos := 0, frame := 0, body := [], checked := 0,
                        staged := [], applied := [], kept := [], ready := false }
      s.modCom d fun c => { c with load := some l, loadQueue := rest }
def State.nextLoad (s : State) (d : Dev) : State := s.startFrom d (s.com d).loadQueue

/-- The load that a request opens, at once or after the one in progress. -/
def State.askLoad (s : State) (d : Dev) (h : Option Half) (dest : LoadTo) (stage : Nat) : State :=
  if (s.com d).load.isSome then s.modCom d fun c => { c with loadQueue := c.loadQueue ++ [(h, dest, stage)] }
  else s.startFrom d [(h, dest, stage)]

/-- What a failed load of the device itself wrote returns to reset values, and the device is unloaded (R368). -/
def State.unload (s : State) (d : Dev) (l : Load) : State :=
  let offs := l.applied.map fun e => e.1.toNat
  let s1 := s.modCom d fun c => { c with regs := c.regs.filter fun e => !offs.contains e.1 }
  let s2 := s1.modSec d fun x => { x with imageDigest := 0, sealedImg := false, evalOnly := false }
  match d with
  | .tsu =>
    let s3 := s2.modCom .tsu fun c => { c with sev := c.sev.filter fun e => !(offs.contains (0x03030000 + 8 * e.1) || offs.contains (0x03030004 + 8 * e.1)) }
    chanNums.foldl (fun s c => s.setReg .tsu (0x1004 + 0x80 * c) 0) s3
  | .jup => if offs.any fun o => decide (0x30040 ≤ o ∧ o < 0x3004C) then s2.modCom .jup fun c => { c with sev := [] } else s2

/-- A load ends with a status. A job image and a generation change nothing of the device. -/
def State.failLoad (s : State) (d : Dev) (l : Load) (status : BitVec 8) (code : Option Code) (count : Nat) : State :=
  let s1 := match code with | some c => s.raiseFault d (blkImage d) c {} | none => s
  let s2 := if decide (l.dest = .self) && decide (imgKind l.header ≠ 2 ∨ d = .tsu) then s1.unload d l else s1
  (s2.postLoad d l.handle status (loadResults d l.checked count 0)).nextLoad d

/-- A load that is refused changes nothing. -/
def State.refuseLoad (s : State) (d : Dev) (l : Load) (status : BitVec 8) (code : Option Code) : State :=
  let s1 := match code with | some c => s.raiseFault d (blkImage d) c {} | none => s
  (s1.postLoad d l.handle status []).nextLoad d

/-! ### LOAD_IMAGE (R348, R367) -/

/-- The flow of the image's sections into a Jupin takes a tracker entry, and without one the load does not open (R270). -/
def State.openImage (s : State) (d : Dev) (hd : Half) (dest : LoadTo) (stage : Nat) : State :=
  match d with
  | .tsu => s.askLoad .tsu (some hd) dest stage
  | .jup => match s.openEntry .imageFlow hd none (s.now .jup + Config.opDeadline 6) with
    | some s1 => s1.askLoad .jup (some hd) dest stage
    | none => s.post .jup hd stAborted []

/-- A generation of a port that no Jupin has is no destination. -/
def execLoadImage (d : Dev) (h : Hdr) (stage : Nat) (dest : LoadDest) (s : State) : Res :=
  .next (s.withHandle d h opLoadImage fun hd s =>
    match dest with
    | .self => s.openImage d hd .self stage
    | .generation p =>
      if d = .tsu ∨ 88 ≤ p.toNat then s.post d hd stFormat [] else s.openImage .jup hd (.generation p) stage)

/-! ### The header (R367 steps 1 to 3, R371, R372) -/

/-- The KIND suits the destination. -/
def kindOk (d : Dev) (dest : LoadTo) (kind : Nat) : Bool :=
  match dest, d with
  | .self, .tsu => decide (kind = 0)
  | .self, .jup => decide (kind = 1 ∨ kind = 2)
  | .generation _, _ => decide (kind = 3)

/-- STEPPING, GRADE and MAP_CLASS of a device. -/
def ownStepping : Dev → BitVec 8
  | .tsu => Config.fuseStepping false
  | .jup => 0xB1
def ownClass : Dev → BitVec 16
  | .tsu => Config.fuseMapClass
  | .jup => 0
def wants {w : Nat} (req own : BitVec w) : Bool := decide (req = 0 ∨ req = own)
def identityOk (d : Dev) (w1 : Word) : Bool :=
  wants (w1.extractLsb' 24 8) (ownStepping d) && wants (w1.extractLsb' 16 8) (Config.fuseGrade (decide (d = .jup))) &&
  wants (w1.extractLsb' 0 16) (ownClass d)

/-- Bytes of a restore generation at most (R280; 1 GB as the times of R282 count it, assumption 186). -/
def genMax : Nat := 1000000000
def genFits (ws : List Word) : Bool := decide (8 * (headerLen ws + ((sectionTable ws).map Section.length).foldl (· + ·) 0) ≤ genMax)

def headerOk (d : Dev) (l : Load) (ws : List Word) : Bool :=
  decide (fld (nthW ws 0) 63 32 = 0x51474F4E ∧ fld (nthW ws 0) 31 24 = 3) && kindOk d l.dest (imgKind ws) &&
  (decide (imgKind ws = 3) || identityOk d (nthW ws 1)) && tableOk (imgKind ws) (sectionTable ws) &&
  (decide (imgKind ws ≠ 3) || genFits ws)

/-- Reserved fields of the header section that are not zero (R362, R363; R9). -/
def headerReserved (ws : List Word) : Bool :=
  decide (fld (nthW ws 0) 13 9 ≠ 0 ∨ fld (nthW ws 2) 48 32 ≠ 0) ||
  (List.range (imgSections ws)).any fun i => decide (fld (nthW ws (3 + 7 * i)) 55 48 ≠ 0)

/-- The signature of a signer whose key the device accepts (R371). -/
def signatureOk (x : Security) (ws : List Word) : Bool :=
  let key := Config.sha384 (pubKey ws)
  let verified := Config.ecdsaVerify (pubKey ws) (imgSig ws) (Config.sha384 (signedPart ws))
  match imgSigner ws with
  | 0 => decide (x.level = .opened)
  | 1 => decide (key = Config.vendorKeyDigest) && verified && (decide (x.level = .opened) || x.allowVendor)
  | 2 => decide (x.fuses.owner ≠ 0 ∧ key = x.fuses.owner) && verified
  | _ => false

def versionOk (x : Security) (ws : List Word) : Bool :=
  decide (x.level = .opened) || decide (x.minImageVersion.toNat ≤ fld (nthW ws 1) 63 32)

/-- The whole header is judged: refused, failed, or the sections follow. -/
def State.judgeHeader (s : State) (d : Dev) (l : Load) : State ⊕ Load :=
  let x := (s.com d).sec
  let ws := l.header
  if x.imgLock then .inl (s.refuseLoad d l stSigBad (some cImageSigBad))
  else if !headerOk d l ws then .inl (s.failLoad d l stFormat (some cImageFormat) 0)
  else if imgKind ws = 1 ∧ s.jobsHere .jup then .inl (s.refuseLoad d l stJobsActive none)
  else if imgEval ws ∧ x.level ≠ .opened then .inl (s.failLoad d l stFormat (some cImageFormat) 0)
  else if !versionOk x ws || !signatureOk x ws then .inl (s.failLoad d l stSigBad (some cImageSigBad) 0)
  else .inr { l with headerDone := true, sections := sectionTable ws, pos := 1, frame := 0 }

/-! ### Structure checks (R367 step 5) -/

/-- Group numbers whose record a list of writes makes valid. -/
def groupsOf (base : Nat) (ws : List (BitVec 32 × Half)) : List Nat :=
  ws.filterMap fun (o, v) =>
    if base ≤ o.toNat ∧ o.toNat < base + 0x100000 ∧ (o.toNat - base) % 0x100 = 0 ∧ v.getLsbD 0 then some ((o.toNat - base) / 0x100) else none
def voteGroups (ws : List (BitVec 32 × Half)) : List Nat := groupsOf 0x800000 (ws.filter fun e => decide (e.1.toNat < 0x900000))
def conjGroupsOf (ws : List (BitVec 32 × Half)) : List Nat := groupsOf 0xA00000 ws
def twice : List Nat → Bool
  | [] => false
  | a :: t => t.contains a || twice t

/-- One number for two groups: in the image itself, or against one that the Jupin holds or has staged (R170, R370). -/
def State.groupConflict (s : State) (job : Bool) (ws : List (BitVec 32 × Half)) : Bool :=
  twice (voteGroups ws) || twice (conjGroupsOf ws) ||
  (job && ((voteGroups ws).any fun g => (s.reg64 .jup (grpBase g)).getLsbD 0 || s.jup.jobImages.any fun i => (voteGroups i.writes).contains g)) ||
  (job && ((conjGroupsOf ws).any fun g => (s.reg64 .jup (conjGrpBase g)).getLsbD 0 || s.jup.jobImages.any fun i => (conjGroupsOf i.writes).contains g))

/-- No chain of the group's units from `u` is longer than `n`: so no cycle either. -/
def State.depthOk (s : State) (units : List Nat) : Nat → Nat → Bool
  | 0, _ => false
  | n + 1, u => (s.unitSlots u).all fun e => !e.1 || !units.contains e.2 || s.depthOk units n e.2
/-- Every port that the group expects is a slot of exactly one leaf, and the tree is at most 4 units deep (R267). -/
def State.wiringOk (s : State) (g : Nat) : Bool :=
  match s.groupRec (BitVec.ofNat 12 g) with
  | none => true
  | some r =>
    let units := s.treeUnits g
    let leaves := (units.filter fun e => decide (e.1 = 1)).map Prod.snd
    ((s.memberPorts r.job (grpBase g) (s.now .jup)).all fun p =>
      decide (((leaves.flatMap s.unitSlots).countP fun e => !e.1 && decide (e.2 = p)) = 1)) &&
    (units.all fun e => s.depthOk (units.map Prod.snd) 4 e.2)

/-- Dies that an image admits: each admitted port of a root leads to at most 88 by 88 (R17, R19). -/
def State.admitted (s : State) : Nat :=
  7744 * ((List.range 88).countP fun p => (s.reg .jup (0x1002C + 4 * (p / 32))).getLsbD (p % 32))

/-- Words of one job alone: every record or run that a job image writes names its JOB (R370). -/
def entryHead (o : Nat) : Option (Nat × Nat) :=
  if 0x800000 ≤ o ∧ o < 0x900000 ∨ 0xA00000 ≤ o ∧ o < 0xB00000 ∨ 0xD80000 ≤ o then some (o - o % 0x100, 0x100)
  else if 0xB00000 ≤ o ∧ o < 0xD00000 then some (o - o % 0x200, 0x200)
  else if 0xD00000 ≤ o ∧ o < 0xD80000 then some (o - o % 8, 8) else none
def entriesOf (job : BitVec 15) (ws : List (BitVec 32 × Half)) : Bool :=
  ws.all fun e => match entryHead e.1.toNat with
    | some (b, _) => ws.any fun x => decide (x.1.toNat = b + 4 ∧ fld x.2 31 17 = job.toNat)
    | none => true

/-- LO_FREQ as an image names it; none where it writes no such word (R441). -/
def loFreqOf (ws : List (BitVec 32 × Half)) : Option Nat :=
  (ws.reverse.find? fun e => decide (e.1.toNat = crBase .jup)).map fun e => fld e.2 6 5

/-- A group record that is VALID holds a combination of the table of R186. -/
def State.recordOk (s : State) (g : Nat) : Bool := match s.groupRec (BitVec.ofNat 12 g) with | some r => r.ok | none => true

/-- The VALID entries of the vote format tables (R174). -/
def State.formats (s : State) : List Word :=
  ((List.range 512).map fun i => s.reg64 .tsu (0x03000000 + 8 * i)).filter fun e => e.getLsbD 63

/-- A format entry with a combination of R186, SCATTER with TOPK alone and MASK with HIST alone (R196). -/
def formatOk (e : Word) : Bool :=
  opOk (fld e 50 47) (fld e 46 43) (fld e 42 39 + 1) && (decide (fld e 38 37 ≠ 1) || decide (fld e 50 47 = 8)) &&
    (decide (fld e 38 37 ≠ 2) || decide (fld e 50 47 = 9))

/-- Some rank of the runs has its partner or its twin on its own sled (R279, R303). -/
def sledClash (digest : BitVec 384) (twins : List (BitVec 15 × List Nat)) (runs : List MapRun) : Bool :=
  let ranks := runs.flatMap fun m => (List.range (m.last.toNat + 1 - m.first.toNat)).map fun k => (m.job, m.first + BitVec.ofNat 17 k, m.port.toNat)
  ranks.any fun a => ranks.any fun b => decide (a.1 = b.1) && sameSled a.2.2 b.2.2 &&
    (decide (Config.partnerOf digest a.1 a.2.1 = some b.2.1) || 
      decide (a.2.1 ≠ b.2.1) && twins.any fun t => decide (t.1 = a.1) && t.2.contains a.2.1.toNat && t.2.contains b.2.1.toNat)

/-- The state as the image would leave it is judged, before anything staged is applied; a map that breaks R21 ends the load as
one of FORMAT (assumption 187). -/
def State.structureStatus (s s' : State) (kind : Nat) (l : Load) : BitVec 8 × Nat :=
  let ws := l.applied ++ l.staged
  let groups := if kind = 2 then voteGroups ws else (s'.listed .jup 0x800000 0x100000 0x100).map fun o => (o - 0x800000) / 0x100
  if kind = 2 ∧ !entriesOf (imgJob l.header) ws then (stFormat, 0)
  else if kind = 1 ∧ (loFreqOf ws).any (fun f => decide (f ≠ fld s.jup.straps 4 3)) = true then (stFormat, 0)
  else if !(groups.all s'.recordOk) then (stFormat, 0)
  else if s.groupConflict (decide (kind = 2)) ws then (stGroupConflict, 0)
  else if !(groups.all s'.wiringOk) then (stFabricWiring, 0)
  else if kind = 1 ∧ s'.idRole = 3 ∧ 131072 < s'.admitted then (stDomainSize, s'.admitted)
  else if kind = 1 ∧ 48 * s'.regionStacks 0 < 176 then (stFormat, 0)
  else if mapBroken s'.idRole (if kind = 2 then imageRuns ws else s'.tableRuns.map Prod.snd) then (stFormat, 0)
  else if sledClash (Config.sha384 (signedPart l.header)) (s'.twinPairs groups) (if kind = 2 then imageRuns ws else s'.tableRuns.map Prod.snd) then (stFormat, 0)
  else (stOk, if kind = 1 ∧ s'.idRole = 3 then s'.admitted else 0)

/-! #### Host errors that an image carries (R9, R10) -/

/-- An image writes a slot's or a Conjunction record's configuration twice: one slot for two objects, one record for two
groups. -/
def doubled (ws : List (BitVec 32 × Half)) : Bool :=
  twice ((ws.map fun e => e.1.toNat).filter fun o => decide (0x04000000 ≤ o ∨ (0x03020000 ≤ o ∧ o < 0x03024000)))
/-- Reserved fields of the tables of a TSU that are not zero, and FORM 3 of format entries; OP and FMT have their own check
(R186). -/
def State.tablesReserved (s : State) : Bool :=
  ((s.listed .tsu 0x01000000 0x100000 16).any fun o => descReserved (s.descAt ((o - 0x01000000) / 16))) ||
  ((s.listed .tsu 0x02000000 0x80000 8).any fun o => decide (fld (s.reg .tsu o) 15 0 ≠ 0)) ||
  ((s.listed .tsu 0x03000000 0x1000 8).any fun o => winReserved .voteFmt 0 (s.reg .tsu o) || decide (fld (s.reg .tsu (o + 4)) 6 5 = 3)) ||
  ((s.listed .tsu 0x03010000 0x200 4).any fun o => winReserved .digest 0 (s.reg .tsu o)) ||
  ((s.listed .tsu 0x03020000 0x4000 4).any fun o => winReserved .conj 0 (s.reg .tsu o)) ||
  ((s.listed .tsu 0x04000000 0x60000 4).any fun o => winReserved .syncCfg 0 (s.reg .tsu o)) ||
  s.tsuC.sev.any fun e => decide (fld e.2 25 1 ≠ 0)
/-- The unpredictable result of an image for a TSU, by its rule. -/
def State.imageError (s : State) (l : Load) : Option String :=
  if s.tablesReserved then some "R9" else if doubled (l.applied ++ l.staged) then some "R10" else none

/-- An image with a new EPOCH_ID for a root time master, while some die of the domain has a bound job, of which the root's own
map says nothing: an answer from outside, a free value (R37; assumption 164). -/
def State.epochRefused (s s' : State) (kind : Nat) : Bool :=
  let w := s'.reg .jup 0x10020
  decide (kind = 1 ∧ s'.idRole = 3 ∧ s'.side < 2 ∧ (s'.side = 1 ↔ fld w 17 16 = 1) ∧ w.extractLsb' 0 16 ≠ s.jupC.time.epochId) &&
  s.fresh.1.getLsbD 0

/-- Every section is checked: the structure checks of a Jupin's own image, then the load is ready to seal. -/
def State.judgeStructure (s : State) (d : Dev) (l : Load) : Res :=
  let done (s : State) : State := s.modCom d fun c => { c with load := some { l with ready := true } }
  if d = .tsu then
    match s.imageError l with
    | some r => .fault (.unpredictable r)
    | none => .next (if setsFit (l.applied ++ l.staged) && s.formats.all formatOk then done s
                     else s.failLoad .tsu l stFormat (some cImageFormat) 0)
  else if l.dest ≠ .self then .next (done s)
  else match s.loadWrites .jup l.staged with
    | .next s' =>
      let r := s.structureStatus s' (imgKind l.header) l
      .next (if r.1 ≠ stOk then s.failLoad .jup l r.1 none r.2 else done s)
    | r => r

/-! ### IMAGE_SECTION_RX (R361, R365, R367, R368) -/

/-- A section's body is whole: its digest, and no run cut short. -/
inductive SectionEnd
  | good (l : Load) | malformed | mismatch
  deriving DecidableEq, Repr

/-- The contents of a type are runs; those of a restore's sections are kept as they are. -/
def runType (typ : BitVec 8) : Bool := decide (typ.toNat < 0x30)

def endSection (l : Load) (e : Section) : SectionEnd :=
  if Config.sha384 l.body ≠ digestOf e.digest then .mismatch
  else if runType e.typ && decide ((runsOf l.body).left ≠ 0) then .malformed
  else
    let ws := if runType e.typ then (runsOf l.body).writes else []
    let stage := decide (imgKind l.header = 2) || stagedType e.typ.toNat
    .good { l with pos := l.pos + 1, frame := 0, body := [], checked := l.checked + 1,
                   staged := if stage then l.staged ++ ws else l.staged,
                   kept := if runType e.typ then l.kept else l.kept ++ [(e.typ, l.body)] }

/-- The ROLE section, which names EPOCH_ID, is the first of a Jupin's own image: a refusal of the new epoch comes before anything of
the image is applied, and changes nothing (R37, R364, R367). -/
def State.judgeEpoch (s : State) (d : Dev) (l : Load) (e : Section) : State ⊕ State :=
  if d = .jup ∧ l.dest = .self ∧ e.typ = 0x10 then
    match s.loadWrites .jup l.staged with
    | .next s' => if s.epochRefused s' (imgKind l.header) then .inl (s.fresh.2.refuseLoad .jup l stJobsActive none) else .inr s.fresh.2
    | _ => .inr s
  else .inr s

/-- Pass the sections that are complete with the words at hand (an empty section is complete at once). -/
def State.passSections (s : State) (d : Dev) : Nat → Load → Res
  | 0, l => s.judgeStructure d l
  | n + 1, l =>
    match l.sections[l.pos - 1]? with
    | none => s.judgeStructure d l
    | some e =>
      if l.body.length < e.length then .next (s.modCom d fun c => { c with load := some l })
      else match endSection l e with
        | .good l' => match s.judgeEpoch d l' e with
          | .inl s1 => .next s1
          | .inr s1 => s1.passSections d n l'
        | .malformed => .next (s.failLoad d l stFormat (some cImageFormat) 0)
        | .mismatch => .next (s.failLoad d l stFormat (some cImageSectionBad) 0)

/-- Writes of a frame that apply as they stream. -/
def newWrites (l : Load) (e : Section) (body : List Word) : List (BitVec 32 × Half) :=
  if !runType e.typ || stagedType e.typ.toNat || decide (imgKind l.header = 2) then []
  else (runsOf body).writes.drop (runsOf l.body).writes.length
/-- Tables alone, for a die that wakes from DARK (R281, R398). -/
def kept1 (l : Load) (ws : List (BitVec 32 × Half)) : List (BitVec 32 × Half) :=
  if l.tablesOnly then ws.filter fun e => decide (0x01000000 ≤ e.1.toNat) else ws

def State.bodyFrame (s : State) (d : Dev) (l : Load) (data : List Word) : Res :=
  match l.sections[l.pos - 1]? with
  | none => .next (s.failLoad d l stFormat (some cImageFormat) 0)
  | some e =>
    let body := l.body ++ data
    if e.length < body.length then .next (s.failLoad d l stFormat (some cImageFormat) 0)
    else if runType e.typ && !((runsOf body).runs.all (runOk d e.typ.toNat)) then .next (s.failLoad d l stFormat (some cImageFormat) 0)
    else if lockBad d (newWrites l e body) then .next (s.failLoad d l stFormat (some cImageFormat) 0)
    else if runType e.typ && (runsOf body).reserved then .fault (.unpredictable "R9")
    else
      let ws := kept1 l (newWrites l e body)
      match s.loadWrites d ws with
      | .next s1 => s1.passSections d (l.sections.length + 1) { l with frame := l.frame + 1, body := body, applied := l.applied ++ ws }
      | r => r

def State.headerFrame (s : State) (d : Dev) (l : Load) (data : List Word) : Res :=
  let l1 := { l with header := l.header ++ data, frame := l.frame + 1 }
  let n := imgSections l1.header
  if n = 0 ∨ 64 < n ∨ headerLen l1.header < l1.header.length then .next (s.failLoad d l1 stFormat (some cImageFormat) 0)
  else if l1.header.length < headerLen l1.header then .next (s.modCom d fun c => { c with load := some l1 })
  else match s.judgeHeader d l1 with
    | .inl s1 => .next s1
    | .inr l2 => if headerReserved l2.header then .fault (.unpredictable "R9") else s.passSections d (l2.sections.length + 1) l2

/-- A frame in its place; one out of order, or of another length than its header says, ends the load. Reserved bits of a frame
header that are not zero are unpredictable (R9). -/
def State.takeFrame (s : State) (d : Dev) (frame : List Word) : Res :=
  match (s.com d).load with
  | none => .next s
  | some l =>
    let h := nthW frame 0
    if l.ready ∨ fld h 63 56 ≠ l.pos ∨ fld h 55 36 ≠ l.frame ∨ (frame.drop 1).length ≠ fld h 35 27 + 1 then
      .next (s.failLoad d l stFormat (some cImageFormat) 0)
    else if fld h 26 0 ≠ 0 then .fault (.unpredictable "R9")
    else if l.pos = 0 then s.headerFrame d l (frame.drop 1) else s.bodyFrame d l (frame.drop 1)

/-- No image is judged before the life-cycle record has been read (R375). -/
def execImageSectionRx (d : Dev) (frame : List Word) (s : State) : Res :=
  if !(s.com d).sec.lcRead then .next s else (s.consume d (s.arrivedOn d mtImage frame) mtImage frame).takeFrame d frame

/-! ### IMAGE_SEAL (R37, R369, R370, R280) -/

/-- The registers of the root pair: the time master, LOCKED from now on, and a new epoch on it, which
ends a debug session (R37, R54, R100, R379). -/
def State.sealRoot (s : State) (digest : BitVec 384) : State :=
  if s.role ≠ 3 then s
  else
    let w := s.reg .jup 0x10020
    let masterB := decide (fld w 17 16 = 1)
    let master := decide (s.side < 2) && decide ((s.side = 1) = (masterB = true))
    let s1 := s.modJup fun j => { j with timeMaster := master, masterB := masterB, rootP := Config.rootPair digest }
    let epoch : BitVec 16 := w.extractLsb' 0 16
    let start : Tick := s.reg .jup 0x10028 ++ s.reg .jup 0x10024
    let s2 := if master ∧ s.jupC.time.epochId ≠ epoch then
        ((((s1.rebase .jup (s.now .jup - start)).modTime .jup fun t => { t with htc := start, epochId := epoch }).modJup fun j =>
          { j with labelled := [], labelUtc := 0, labelLeap := 0 }).modSec .jup Security.endSession)
      else s1
    if master then
      let s3 := s2.modTime .jup fun t => { t with state := .locked, holdSince := none, acqStart := none }
      if s.jupC.cr.state = .acquire then (s3.crFree .jup).modCr .jup fun c => { c with bwCur := 7, coarseTotal := 0, coarseDone := 0 } else s3
    else s2

/-- Ports that the role keeps in electrical idle go DOWN at the seal (R15, R264). -/
def State.idlePorts (s : State) : State :=
  (List.range 96).foldl (fun s n => if s.idlePort .jup n then s.linkToDown .jup n else s) s

/-- The device is loaded and locked. -/
def State.sealed1 (s : State) (d : Dev) (l : Load) : State :=
  let digest := Config.sha384 (signedPart l.header)
  let s1 := (s.modSec d fun x => { x with imageDigest := digest, sealedImg := true, evalOnly := imgEval l.header }).modTime d
    fun t => { t with holdLimit := Config.holdLimit digest }
  match d with
  | .jup => (s1.sealRoot digest).idlePorts
  | .tsu =>
    let s2 := if l.applied.any fun e => decide (e.1.toNat < 0x20000 ∧ 0x10000 ≤ e.1.toNat) then s1.emit .dregApply else s1
    if l.handle.isNone ∧ s2.power.darkWake then s2.modPower fun p => { p with darkWake := false, waking := false } else s2

/-- The checked sections become the port's inactive generation, and the generations swap (R280). -/
def State.newGeneration (s : State) (p : Nat) (l : Load) : State :=
  let g := !(tget false s.jup.genActive p)
  (s.modGen p g fun _ => { header := l.header, sections := l.kept, bad := false }).modJup fun j => { j with genActive := tset false j.genActive p g }

/-- A restore reads the generation of a port that a load would replace: unpredictable (R10, the host errors of R280). -/
def State.genRead (s : State) (p : Nat) : Bool :=
  s.jup.restores.any fun e => e.2.any fun r => decide (r.source = p ∧ r.gen = !(tget false s.jup.genActive p))

/-- A verified job image is kept in STAGE. -/
def State.keepJob (s : State) (l : Load) : State :=
  s.modJup fun j =>
    { j with jobImages := (j.jobImages.filter fun i => !decide (i.offset = l.stage)) ++ [{ offset := l.stage, job := imgJob l.header, digest := Config.sha384 (signedPart l.header), writes := l.staged }] }

def State.sealLoad (s : State) (d : Dev) (l : Load) : Res :=
  let done (s : State) : State :=
    (s.postLoad d l.handle stOk (loadResults d l.checked (if imgKind l.header = 1 ∧ s.idRole = 3 then s.admitted else 0) (Config.sha384 (signedPart l.header)))).nextLoad d
  match l.dest with
  | .generation p => if s.genRead p.toNat then .fault (.unpredictable "R10") else .next (done (s.newGeneration p.toNat l))
  | .self =>
    if d = .jup ∧ imgKind l.header = 2 then .next (done (s.keepJob l))
    else match s.loadWrites d (kept1 l l.staged) with
      | .next s1 => .next (done (s1.sealed1 d l))
      | r => r

/-- The seal tick is a CSR edge: every eighth tick (R88, R369). -/
def execImageSeal (d : Dev) (s : State) : Res :=
  match (s.com d).load with
  | some l => if l.ready ∧ (s.now d).toNat % 8 = 0 then s.sealLoad d l else .next s
  | none => .next s

end Sys2Proof.Machine
end

