-- ==== Sys2Proof/Machine/Restore.lean ====
section
/-! DEFINITION. Restores of a die: acceptance, identity, the streams and what the die does with them (R281, R293, R328, R398,
R432, R465). Their completion stands in Recovery.lean. -/
namespace Sys2Proof.Machine
open Host

/-! ### Commands passed to another Jupin (R347) -/

/-- A command sent on over a port, and tracked until its completion message returns. -/
def State.forwardCmd (s : State) (h : Half) (port : Nat) (words : List Word) : State :=
  (s.send .jup port (localMsg mtCommand words)).modJup fun j =>
    { j with forwards := j.forwards ++ [{ handle := h, fromPort := ownPort, left := [port], status := stOk, results := [] }] }

/-- The words of a command as it is sent on. -/
def cmdWords (op : BitVec 8) (t : Target) (h : Half) (args : List Word) (override : Bool := false) : List Word :=
  (cmdHdr op (2 + args.length) (Target.kind t) h ||| bit1 64 50 override) :: Target.word t :: args

/-! ### The restore image of a port -/

/-- AON_UPLINK in the CONTROL section of the inner image (R281): side A where the image does not write it. -/
def Generation.aonUplink (g : Generation) : Nat :=
  let ws := g.section 0x31
  let control := ((framesOf ws.length ws).filter fun f => decide (fld (nthW f 0) 63 56 = 1)).flatMap fun f => f.drop 1
  match ((runsOf control).writes.reverse).find? fun e => decide (e.1 = 0x800) with
  | some (_, v) => fld v 4 4
  | none => 0

/-- Sections of a mask, in order: MAP, IMAGE, WEIGHTS from bit 0. -/
def maskTypes (m : BitVec 3) : List (BitVec 8) :=
  (if m.getLsbD 0 then [0x30] else []) ++ (if m.getLsbD 1 then [0x31] else []) ++ (if m.getLsbD 2 then [0x32] else [])
def imageOnly (m : BitVec 3) : Bool := decide (m = 2)

/-! ### RESTORE (R281, R282) -/

/-- Some channel of the die on a port is owned by a job. -/
def State.dieOwned (s : State) (p : Nat) : Bool := (List.range 8).any fun c => (s.reg .jup (portOwnOff p c)).getLsbD 31
/-- The die is fenced from the domain. -/
def State.domainFenced (s : State) (p : Nat) : Bool :=
  decide (s.healthState p = 3) || (s.link .jup p).fences.any fun f => f.domain && decide (f.tick ≤ s.now .jup)

def State.dropBringIn (s : State) (b : BringIn) : State :=
  s.modJup fun j => { j with bringIns := j.bringIns.filter fun x => !decide (x = b) }
def State.setBringIn (s : State) (b b' : BringIn) : State :=
  s.modJup fun j => { j with bringIns := updFirst (fun x => decide (x = b)) (fun _ => b') j.bringIns }
/-- A job whose bring-in came to nothing waits for a re-run, which no new failure of its gate has called for: a second bring-in follows
(R330). -/
def State.bringAgain (s : State) (j : BitVec 15) (lacking : Bool) : State :=
  if !lacking then s
  else (s.noteRerun j ((((tget none s.jup.stage.committed j.toNat).map fun c => c + 1).getD 0).setWidth 16)).modStage fun t =>
    { t with again := if t.again.contains j then t.again else t.again ++ [j] }
/-- A bring-in ends with a status; where it was the top's own, another one follows. -/
def State.bringFails (s : State) (b : BringIn) (status : BitVec 8) : State :=
  ((s.post .jup b.handle status []).dropBringIn b).bringAgain b.job (decide (fld b.handle 31 24 = 0x40))
/-- The restore of a spare has come to nothing: a bring-in with two goes on with the other. -/
def State.spareLost (s : State) (p : Nat) (status : BitVec 8) : State :=
  s.jup.bringIns.foldl (fun s b =>
    if b.second = some (s.childPath p) then s.setBringIn b { b with second := none }
    else if b.spare = s.childPath p ∧ b.phase ≠ 2 then (match b.second with
      | some q => s.setBringIn b { b with spare := q, second := none }
      | none => s.bringFails b status)
    else s) s
/-- What a restore was for ends with a status. -/
def State.restoreEnds (s : State) (p : Nat) (r : RestoreOp) (status : BitVec 8) : State :=
  match r.handle with
  | some h => s.post .jup h status []
  | none => s.spareLost p status
/-- A restore ends with a status, and its tracker entry is freed (R270, R329). -/
def State.failRestore (s : State) (p : Nat) (r : RestoreOp) (status : BitVec 8) : State :=
  ((s.modJup fun j => { j with restores := tset none j.restores p none }).closeFlow .restoreFlow (r.handle.getD 0) r.job).restoreEnds p r status

/-- Open a restore on a port: the fences end with the old contents of the die, and the die is reset but for an IMAGE restore
alone. Its flow is refused where no tracker entry is free (R270; assumption 201). -/
def State.openRestore (s : State) (p : Nat) (r : RestoreOp) : State :=
  match s.openEntry .restoreFlow (r.handle.getD 0) r.job (s.now .jup + Config.cmdDeadline opRestore) with
  | none => s.restoreEnds p r stAborted
  | some s1 =>
    let s2 := s1.modJup fun j => { j with restores := tset none j.restores p (some r) }
    if imageOnly r.sections then s2 else (s2.modLink .jup p fun l => { l with fences := [] }).emit (.dieReset p)

/-- A RESTORE at the rack Jupin that carries it out. Whether the channels of a die with bound ones are all READY or HELD the
Jupin's own state does not tell: free. -/
def State.restoreHere (s0 : State) (h : Half) (p : Nat) (r : RestoreOp) : State :=
  let ask := s0.dieOwned p && imageOnly r.sections && !s0.domainFenced p
  let s := if ask then s0.fresh.2 else s0
  let quiet := s0.fresh.1.getLsbD 0
  if (tget none s.jup.restores p).isSome then s.post .jup h stDieInUse []
  else if s.dieOwned p && !s.domainFenced p && !(ask && quiet) then s.post .jup h stDieInUse []
  else if (s.gen p r.gen).bad || (s.gen p r.gen).header.isEmpty then s.post .jup h stImageBad []
  else s.openRestore p r

/-- The command's path leads to a die here, or to a Jupin below; the other side takes the restores of its own uplink. -/
def State.restoreCmd (s : State) (hd : Half) (override : Bool) (path : BitVec 32) (sections : BitVec 3) (gen : Bool) : State :=
  let ws := cmdWords opRestore (.path path) hd [sections.setWidth 64, bit1 64 0 gen] override
  match s.pathPort path with
  | some (some p) =>
    if s.role ≠ 1 then s.forwardCmd hd p ws
    else if 88 ≤ p then s.post .jup hd stBadAddr []
    else if (s.gen p gen).aonUplink ≠ s.ownSide ∧ s.side < 2 then s.forwardCmd hd (s.peerPort p) ws
    else s.restoreHere hd p { handle := some hd, source := p, job := none, sections := sections, gen := gen, override := override,
                              streaming := false, sent := 0, opened := s.now .jup }
  | _ => s.post .jup hd stBadAddr []

def execRestore (h : Hdr) (path : BitVec 32) (sections : BitVec 3) (gen : Bool) (s : State) : Res :=
  .next (s.withHandle .jup h opRestore fun hd s => s.restoreCmd hd h.override path sections gen)

/-! ### RESTORE_IDENTITY_CHECK (R281, R293, R465) -/

/-- Messages of a section: one content word, then data (R328). -/
def sectionMsgs (typ : BitVec 8) (ws : List Word) : List (List Word) :=
  let n := max 1 ((ws.length + 4093) / 4094)
  (List.range n).map fun i => (put 64 63 56 typ.toNat ||| bit1 64 55 (decide (i + 1 = n)) ||| put 64 47 0 (4094 * i)) :: (ws.drop (4094 * i)).take 4094

/-- BULK flow of the restore streams, and its window. -/
def restoreFlowNum : BitVec 10 := 0x3FF
def restoreWindow : Nat := 16777216
def State.streamSection (s : State) (p : Nat) (typ : BitVec 8) (ws : List Word) : State :=
  let f := s.flow .jup p restoreFlowNum
  let s1 := s.modLink .jup p fun l => l.setFlow { f with window := restoreWindow }
  (sectionMsgs typ ws).foldl (fun s m => s.send .jup p { mtype := mtRestore, route := 0, flow := restoreFlowNum, addr := 0, words := m }) s1

/-- Jobs whose reference versions bind a restore. -/
def State.restoreJobs (s : State) (p : Nat) (r : RestoreOp) : List (BitVec 15) :=
  (s.jobsAt p ++ (match r.job with | some j => [j] | none => [])).eraseDups

def mapMismatch (w1 : Word) (id : Identity) : Bool :=
  !(wants (w1.extractLsb' 24 8) id.stepping && wants (w1.extractLsb' 16 8) id.grade && wants (w1.extractLsb' 0 16) id.mapClass)
def versionMismatch (w9 : Word) (id : Identity) : Bool :=
  !(wants (w9.extractLsb' 56 8) id.tsuVer && wants (w9.extractLsb' 0 31) id.fwVersion)

/-- The sections leave, in order. -/
def State.startStreams (s : State) (p : Nat) (r : RestoreOp) : State :=
  let g := s.gen r.source r.gen
  let types := maskTypes r.sections
  let bytes := 8 * (types.map fun t => (g.section t).length).foldl (· + ·) 0
  types.foldl (fun s t => s.streamSection p t (g.section t))
    (s.modJup fun j => { j with restores := tset none j.restores p (some { r with streaming := true, sent := bytes }) })

/-- The identity is compared with MAP and with the jobs' versions; an override is noted in REPEAT. -/
def State.judgeIdentity (s : State) (p : Nat) (r : RestoreOp) (id : Identity) : State :=
  let jobs := s.restoreJobs p r
  let badMap := mapMismatch (nthW (s.gen r.source r.gen).header 1) id
  let badVer := jobs.filter fun j => versionMismatch (s.jobWord j 9) id
  if badMap && !r.override then s.failRestore p r stClassMismatch
  else if !badVer.isEmpty && !r.override then s.failRestore p r stVersionMismatch
  else
    let s1 := if badMap then jobs.foldl (fun s j => s.setRepeat j 0) s else s
    (badVer.foldl (fun s j => s.setRepeat j 1) s1).startStreams p r

/-- The port health word shows the class read from the die (R472). -/
def State.keepIdentity (s : State) (p : Nat) (id : Identity) : State :=
  (s.modJup fun j => { j with ids := tset none j.ids p (some id) }).setReg .jup (portHealthOff p)
    ((s.reg .jup (portHealthOff p) &&& 0xFFFF0000) ||| put 32 15 0 id.mapClass.toNat)

/-- The Jupin waits 2^20 ticks after the link is back in SERVICE for FW_SET; a die still without it is refused. -/
def execRestoreIdentityCheck (port : BitVec 7) (id : Identity) (s : State) : Res :=
  let p := port.toNat
  match tget none s.jup.restores p with
  | none => .next s
  | some r =>
    let l := (s.link .jup p).ctl
    let waited := decide ((max l.since.toNat r.opened.toNat) + 2 ^ 20 ≤ (s.now .jup).toNat)
    s.due (!r.streaming && decide (l.lstate = .service) && (id.fwSet || waited)) fun s =>
      if !id.fwSet then (s.keepIdentity p id).failRestore p r stVersionMismatch
      else (s.keepIdentity p id).judgeIdentity p r id

/-! ### RESTORE_STREAM_RX: what the die does (R328, R432) -/

/-- Feed the frames that are whole to the load. -/
def State.feedFrames (s : State) : Nat → Res
  | 0 => .next s
  | n + 1 =>
    match s.tsu.rstream with
    | none => .next s
    | some x =>
      let k := fld (nthW x.words 0) 35 27 + 2
      if x.words.length < k ∨ x.words.isEmpty then .next s
      else match (s.modTsu fun t => { t with rstream := some { x with words := x.words.drop k } }).takeFrame .tsu (x.words.take k) with
        | .next s1 => s1.feedFrames n
        | r => r

/-- The channel of a rank. -/
def State.chanOfRank (s : State) (job : BitVec 15) (rank : BitVec 17) : Option Nat :=
  chanNums.find? fun c => decide ((s.chan c).state ≠ .unbound ∧ (s.chan c).job = job ∧ (s.chan c).rank = rank)

/-- A record goes to the input queue with REPLAYED set. -/
def replayed (ws : List Word) : List Word := ws.set 0 (nthW ws 0 ||| bit1 64 27 true)

/-- A JOURNAL stream ends before its section does. -/
def State.endJournal (s : State) : State := s.modTsu fun t => { t with rstream := none, jrnOpen := [] }

/-- The records of a JOURNAL section as they come whole. A record that fails its CRC ends the stream, and so does one of a channel
that is no longer HELD. -/
def State.feedRecords (s : State) : Nat → State
  | 0 => s
  | n + 1 =>
    match s.tsu.rstream with
    | none => s
    | some x =>
      let k := 4 + fld (nthW x.words 3) 31 16
      if x.words.length < 4 ∨ x.words.length < k then s
      else
        let ws := x.words.take k
        let r := recordOf ws 0 0
        let s1 := s.modTsu fun t => { t with rstream := some { x with words := x.words.drop k } }
        match s.chanOfRank r.job r.rank with
        | none => s.endJournal
        | some c =>
          if !r.crcOk then s.endJournal.raiseChan c cJrnCrc {}
          else if (s.chan c).state ≠ .held then s.endJournal
          else (s1.emit (.dma .tsu (Config.tieInqBase.setWidth 64) (replayed ws))).feedRecords n

/-- The words join the section being taken; offset 0 begins one. -/
def State.joinStream (s : State) (typ : BitVec 8) (off : Nat) (ws : List Word) : State :=
  s.modTsu fun t => { t with rstream := match t.rstream with
    | some x => if x.typ = typ ∧ off ≠ 0 then some { x with offset := off + ws.length, words := x.words ++ ws }
                else if off = 0 then some { typ := typ, offset := ws.length, words := ws } else some x
    | none => if off = 0 then some { typ := typ, offset := ws.length, words := ws } else none }

/-- A JOURNAL section begins: its first record names the rank, and it is accepted only while the rank's channel is HELD; from here
to its end the channel's stream is open (R328). -/
def State.openJournal (s : State) (off : Nat) (data : List Word) : State :=
  if off ≠ 0 then s.joinStream 0x33 off data
  else match s.chanOfRank ((nthW data 0).extractLsb' 49 15) ((nthW data 0).extractLsb' 32 17) with
    | some c =>
      if (s.chan c).state = .held then
        (s.joinStream 0x33 0 data).modTsu fun t => { t with jrnOpen := if t.jrnOpen.contains c then t.jrnOpen else t.jrnOpen ++ [c] }
      else s.modTsu fun t => { t with rstream := none }
    | none => s.modTsu fun t => { t with rstream := none }

/-- LAST closes the section, and with a JOURNAL section the streams of its channels. -/
def State.closeStream (s : State) (last : Bool) : State :=
  if last then s.modTsu fun t => { t with rstream := none, jrnOpen := [] } else s

def State.streamIn (s : State) (ws : List Word) : Res :=
  let typ : BitVec 8 := (nthW ws 0).extractLsb' 56 8
  let last := (nthW ws 0).getLsbD 55
  let off := fld (nthW ws 0) 47 0
  let data := ws.drop 1
  match typ.toNat with
  | 0x31 =>
    if s.tsuC.sec.imgLock then .next (if off = 0 then s.raiseFault .tsu (blkImage .tsu) cImageSigBad {} else s)
    else
      let s1 := (if off = 0 then s.askLoad .tsu none .self 0 else s).joinStream typ off data
      match s1.feedFrames (data.length + 1) with
      | .next s2 => .next (s2.closeStream last)
      | r => r
  | 0x32 => .next (s.emit (.dma .tsu (Config.tieWloadBase.setWidth 64 + BitVec.ofNat 64 (8 * off)) data))
  | 0x33 => .next (((s.openJournal off data).feedRecords (data.length + 1)).closeStream last)
  | 0x30 => .next ((s.joinStream typ off data).closeStream last)
  | _ => .next s

/-- No IMAGE section is taken before the life-cycle record has been read (R375). -/
def execRestoreStreamRx (words : List Word) (s : State) : Res :=
  if (nthW words 0).extractLsb' 56 8 = 0x31 ∧ !s.tsuC.sec.lcRead then .next s
  else (s.consume .tsu (s.arrivedOn .tsu mtRestore words) mtRestore words).streamIn words

/-! ### WAKE_REPORT_RX (R398) -/

/-- The side of AON_UPLINK runs the IMAGE restore of the active generation; a restore that waited for the wake goes on
instead. -/
def State.wakeReported (s : State) (p : Nat) : State :=
  let gen := tget false s.jup.genActive p
  let g := s.gen p gen
  if s.role ≠ 1 ∨ g.header.isEmpty ∨ g.bad ∨ (tget none s.jup.restores p).isSome ∨ g.aonUplink ≠ s.ownSide then s
  else s.openRestore p { handle := none, source := p, job := none, sections := 2, gen := gen, override := false, streaming := false,
                         sent := 0, opened := s.now .jup }

def execWakeReportRx (port : Nat) (words : List Word) (s : State) : Res :=
  .next ((s.consume .jup port mtCompletion words).wakeReported port)

end Sys2Proof.Machine
end

