-- ==== Sys2Proof/Machine/Jobs.lean ====
section
/-! DEFINITION. Job commands at the Jupin: start, teardown, hold, resume, stretch, quota, fence and remap, the groups they run,
and the completions of what they forward (R284 to R294, R298, R326, R347 to R350, R358). Bring-ins stand in Recovery.lean. -/
namespace Sys2Proof.Machine
open Host

/-! ### The job at this Jupin -/

/-- A job command at the top, or sent on toward it. -/
def State.atTop (s : State) (hd : Half) (j : BitVec 15) (words : List Word) (f : State → State) : State :=
  match s.jobPlace j with
  | .top => f s
  | .port p => s.forwardCmd hd p words
  | .unknown => s.post .jup hd stBadAddr []

/-- The job's ranks with their channels, in map order. -/
def State.rankChans (s : State) (j : BitVec 15) : List (BitVec 17 × Nat) :=
  ((s.jobRuns j).filter fun m => decide (m.port.toNat < 88)).flatMap fun m =>
    (List.range (m.last.toNat + 1 - m.first.toNat)).map fun k => (m.first + BitVec.ofNat 17 k, m.channel.toNat)
/-- A stage for each rank. -/
def State.rankStages (s : State) (j : BitVec 15) (ws : BitVec 17 → Nat → List StagedWrite) : List (Target × List StagedWrite) :=
  (s.rankChans j).map fun e => (.job j e.1 e.1, ws e.1 e.2)

/-! ### The groups of a job (R285, R287, R358) -/

/-- Members of a job's groups: its ranks and the devices of this pair. -/
def State.jobMembers (s : State) (j : BitVec 15) : List Target := s.wholeSpan j :: s.pairMembers

/-- RUN after the present one: 0 never names a run. -/
def nextRun (r : BitVec 8) : BitVec 8 := if r + 1 = 0 then 1 else r + 1
/-- Ticks for which a RUN is not issued again. -/
def runGap : Nat := 2 ^ 24
/-- The tick on which PREPARE can be released with a RUN. -/
def State.runFree (s : State) (j : BitVec 15) (run : BitVec 8) : Tick :=
  s.jup.runs.foldl (fun t e =>
    if e.1 = j ∧ e.2.1 = run ∧ t < e.2.2 + BitVec.ofNat 64 runGap then e.2.2 + BitVec.ofNat 64 runGap else t) (s.now .jup)
def State.noteRun (s : State) (j : BitVec 15) (run : BitVec 8) (t : Tick) : State :=
  s.modJup fun x => { x with runs := (x.runs.filter fun e => decide (t < e.2.2 + BitVec.ofNat 64 runGap)) ++ [(j, run, t)] }

/-- Run a job's group under a handle: PREPARE now, or at a later tick. -/
def State.runJobGroup (s : State) (h : Half) (members : List Target) (serves : BitVec 8 × BitVec 15 × List Word)
    (stages : List (Target × List StagedWrite)) (at_ : Tick) : State :=
  if groupMax .jup ≤ s.jupC.groups.length ∨ groupMax .jup ≤ s.jupC.coord.length then s.post .jup h stGroupLimit []
  else if at_ ≤ s.now .jup then s.runGroup h members (some serves) stages
  else (stages.foldl (fun s e => s.stageOut .jup h e.1 e.2) (s.openGroup .jup h members (some serves))).modCoord .jup h fun g =>
    { g with prepareTick := at_ }

/-- Tc of a group whose PREPARE is released at a tick. -/
def State.tcFrom (s : State) (t : Tick) : Tick := t + BitVec.ofNat 64 ((s.groupLead .jup).1 + (s.groupLead .jup).2)
/-- The decision lead of the span (R180) is the LEAD of R353. -/
def State.decisionLead (s : State) : Nat := (s.groupLead .jup).1
/-- START_MARGIN: at least the decision lead, by default twice that, and at least CMD_LEAD (R285, R395). -/
def State.marginOf (s : State) (j : BitVec 15) (given : Nat) : Nat :=
  max (if given = 0 then 2 * s.decisionLead else given) (max s.decisionLead (fld (s.jobWordOr j 2) 31 0))
/-- START_MARGIN as the start left it in the record. -/
def State.jobMargin (s : State) (j : BitVec 15) : Nat := s.marginOf j (fld (s.jobWord j 8) 63 32)

/-! ### Dies treated as reset (R428) -/

/-- NI_PEER_RESET of the commit space, once for each path. -/
def peerResetWrites (ps : List Half) : List StagedWrite := ps.map fun p => sw 0x10004 p
/-- A path below this Jupin, from free bits. -/
def State.freePath (s : State) (v : BitVec 64) : BitVec 32 :=
  let own := s.selfPath .jup
  if s.role = 2 then (own &&& 0x1FFFC000) ||| (v.setWidth 32 &&& 0x3FFF) else (own &&& 0x1FE00000) ||| (v.setWidth 32 &&& 0x1FFFFF)
/-- Paths of a job, with those it moves to, that this rack Jupin has treated as reset since the job's last group. Above the
rack no message tells which the rack pairs have: free (assumption 174). -/
def State.resetPaths (s : State) (j : BitVec 15) (moves : List (BitVec 32)) : List Half × State :=
  if s.role = 1 then
    (((s.jup.peerResets.drop (tget 0 s.jup.resetsAt j.toNat)).filter fun p => ((s.jobPorts j).map s.childPath ++ moves).contains p).eraseDups, s)
  else (List.range ((s.lastRank j).toNat + 1)).foldl (fun a _ =>
    (if a.2.fresh.1.getLsbD 63 then a.1 ++ [a.2.freePath a.2.fresh.1] else a.1, a.2.fresh.2)) ([], s)
/-- Groups that go first: 64 paths each, the last 64 staying for the group itself. -/
def firstParts (ps : List Half) : List (List Half) := (partsOf 64 ps).dropLast
def lastPart (ps : List Half) : List Half := ((partsOf 64 ps).getLast?).getD []
/-- The tick on which PREPARE of the job's group can be released: each group before it has its Tc first. -/
def State.groupAt (s : State) (j : BitVec 15) (run : BitVec 8) (ps : List Half) : Tick :=
  let t := s.runFree j run
  let t1 := s.now .jup + BitVec.ofNat 64 ((firstParts ps).length * ((s.groupLead .jup).1 + (s.groupLead .jup).2))
  if t < t1 then t1 else t
/-- The groups that go first, under context 0x40, each with its PREPARE at the Tc of the one before it; one that aborts ends the job's
group with it. -/
def State.resetGroups (s : State) (hd : Half) (j : BitVec 15) (members targets : List Target) (ps : List Half) : State :=
  let at_ (i : Nat) : Tick := s.now .jup + BitVec.ofNat 64 (i * ((s.groupLead .jup).1 + (s.groupLead .jup).2))
  ((firstParts ps).zip (List.range ps.length)).foldl (fun s e => match s.selfHandle opCgBegin (some j) with
    | (s1, some h) => s1.runJobGroup h members (opCgBegin, j, [hd.setWidth 64]) (targets.map fun t => (t, peerResetWrites e.1)) (at_ e.2)
    | (s1, none) => s1) s
/-- The group of a job's start, resume or remap, with what R428 adds on every die of the job; `other` stages take none of it. -/
def State.runResetGroup (s : State) (hd : Half) (j : BitVec 15) (members : List Target) (serves : BitVec 8 × BitVec 15 × List Word)
    (stages other : List (Target × List StagedWrite)) (ps : List Half) (run : BitVec 8) (at_ : Tick) : State :=
  ((s.resetGroups hd j members (stages.map Prod.fst) ps).runJobGroup hd members serves
    ((stages.map fun e => (e.1, e.2 ++ peerResetWrites (lastPart ps))) ++ other) at_).noteRun j run at_

/-! ### START_JOB (R285, R293) -/

/-- What a start learns of the dies: an image missing, a class and a version that differ, and word 9 as the start leaves it. -/
structure StartCheck where
  missing : Bool
  badClass : Bool
  badVersion : Bool
  word9 : Word
  deriving DecidableEq, Repr

/-- A zero field of word 9 takes the lowest rank's value. -/
def fillWord9 (w : Word) (id : Identity) : Word :=
  (if fld w 63 56 = 0 then put 64 63 56 id.tsuVer.toNat else put 64 63 56 (fld w 63 56)) |||
  (if fld w 30 0 = 0 then put 64 30 0 id.fwVersion.toNat else put 64 30 0 (fld w 30 0))
/-- The identity of the die on a port; free where it has never been read. -/
def freeIdentity (v : BitVec 64) : Identity :=
  { stepping := v.extractLsb' 0 8, grade := v.extractLsb' 8 8, mapClass := v.extractLsb' 16 16, tsuVer := v.extractLsb' 32 8,
    fwVersion := v.extractLsb' 33 31, fwSet := true }
def State.idOf (s : State) (p : Nat) (v : BitVec 64) : Identity := (tget none s.jup.ids p).getD (freeIdentity v)

/-- At a rack Jupin: each port's generation and identity. A die without a generation may have been loaded otherwise, so that its IMAGE
section is in place: that the Jupin's own state does not tell, and `loaded` is free. -/
def State.checkRack (s : State) (j : BitVec 15) (v : BitVec 64) (loaded : Bool) : StartCheck :=
  let runs := (s.jobRuns j).filter fun m => decide (m.port.toNat < 88)
  let low := (runs.find? fun m => decide (m.first = 0)).map fun m => m.port.toNat
  let w9 := fillWord9 (s.jobWordOr j 9) (s.idOf (low.getD 0) v)
  let g (p : Nat) : Generation := s.gen p (tget false s.jup.genActive p)
  let ports := s.jobPorts j
  { missing := (ports.any fun p => (g p).header.isEmpty || (g p).bad) && !loaded,
    badClass := ports.any fun p => mapMismatch (nthW (g p).header 1) (s.idOf p v),
    badVersion := ports.any fun p => versionMismatch w9 (s.idOf p v), word9 := w9 }
/-- Above the rack the dies' images and identities are not held here: free. -/
def State.startCheck (s : State) (j : BitVec 15) (v w : BitVec 64) : StartCheck :=
  if s.role = 1 then s.checkRack j w (v.getLsbD 60)
  else { missing := v.getLsbD 63, badClass := v.getLsbD 62, badVersion := v.getLsbD 61,
         word9 := fillWord9 (s.jobWordOr j 9) (freeIdentity w) }

def State.startGroup (s : State) (hd : Half) (j : BitVec 15) (margin : BitVec 32) (override : Bool) (x : StartCheck) : State :=
  let r := s.resetPaths j []
  let stages := s.rankStages j fun r c => [bindWrite c j r, ctrlWrite c ctlBind, rankRunWrite c 1]
  let flags : Word := bit1 64 0 (x.badClass && override) ||| bit1 64 1 (x.badVersion && override)
  r.2.runResetGroup hd j (s.jobMembers j) (opStartJob, j, [margin.setWidth 64, flags, x.word9]) stages [] r.1 1 (s.groupAt j 1 r.1)

def State.startHere (s0 : State) (hd : Half) (j : BitVec 15) (stage : Nat) (margin : BitVec 32) (override : Bool) : State :=
  if !(s0.jup.jobImages.any fun i => decide (i.job = j ∧ i.offset = stage)) then s0.post .jup hd stImageMissing []
  else
    let x := s0.startCheck j s0.fresh.1 s0.fresh.2.fresh.1
    let s := s0.fresh.2.fresh.2
    if x.missing then s.post .jup hd stImageMissing []
    else if x.badClass && !override then s.post .jup hd stClassMismatch []
    else if x.badVersion && !override then s.post .jup hd stVersionMismatch []
    else s.startGroup hd j margin override x

def execStartJob (h : Hdr) (job : BitVec 15) (stage : Nat) (margin : BitVec 32) (s : State) : Res :=
  .next (s.withHandle .jup h opStartJob (job := some job) fun hd s =>
    s.atTop hd job (cmdWords opStartJob (s.wholeSpan job) hd [BitVec.ofNat 64 stage, margin.setWidth 64] h.override)
      fun s => s.startHere hd job stage margin h.override)

/-! ### HOLD_JOB and STRETCH_JOB (R159, R161) -/

/-- A job's step commands pass through its active side alone: taken by the other side, they go over the peer group (R16). -/
def State.atActive (s : State) (hd : Half) (j : BitVec 15) (words : List Word) (f : State → State) : State :=
  s.atTop hd j words fun s => if s.activeHere j then f s else s.forwardCmd hd (s.peerPort hd.toNat) words

/-- A command to every rank on the job's tree; its completion counts the dies reached (R252). -/
def State.jobCommand (s : State) (hd : Half) (j : BitVec 15) (op : BitVec 8) (args results : List Word) : State :=
  match s.jobTrees j with
  | t :: _ => s.multicast ownPort { mtype := mtCommand, route := 3, flow := 0, addr := BitVec.ofNat 32 t,
                                    words := cmdWords op (s.wholeSpan j) hd args } (some results)
  | [] => s.post .jup hd stOk (results ++ [0])

def execHoldJob (h : Hdr) (job : BitVec 15) (step : BitVec 64) (s : State) : Res :=
  .next (s.withHandle .jup h opHoldJob (job := some job) fun hd s =>
    s.atActive hd job (cmdWords opHoldJob (s.wholeSpan job) hd [step]) fun s => s.jobCommand hd job opHoldJob [step] [])

/-- STRETCH in force, in word 3 of the record (R470). -/
def State.stretchTo (s : State) (hd : Half) (j : BitVec 15) (step : BitVec 64) (v : BitVec 20) : State :=
  (s.setJobWord j 3 ((s.jobWord j 3 &&& 0xFFFFFFFF00000000) ||| v.setWidth 64)).jobCommand hd j opStretchJob [step, v.setWidth 64] []

def execStretchJob (h : Hdr) (job : BitVec 15) (step : BitVec 64) (stretch : BitVec 20) (s : State) : Res :=
  .next (s.withHandle .jup h opStretchJob (job := some job) fun hd s =>
    s.atActive hd job (cmdWords opStretchJob (s.wholeSpan job) hd [step, stretch.setWidth 64]) fun s => s.stretchTo hd job step stretch)

/-! ### TEARDOWN_JOB (R287) -/

/-- Phase 0 holds every rank, phase 1 unbinds and removes. REPEAT is kept for the completion, since the record goes. -/
def State.tearGroup (s : State) (hd : Half) (j : BitVec 15) (phase : Nat) (at_ : Tick) : State :=
  s.runJobGroup hd (s.jobMembers j) (opTeardownJob, j, [BitVec.ofNat 64 phase, ((s.jobWord j 0).extractLsb' 16 16).setWidth 64])
    (s.rankStages j fun _ c => [ctrlWrite c (if phase = 0 then ctlHold else ctlUnbind)]) at_
/-- Ticks after which a held job stands at a boundary: the step period and the stretch in force (R470). -/
def State.stepTicks (s : State) (j : BitVec 15) : Nat := fld (s.jobWord j 2) 63 32 + fld (s.jobWord j 3) 19 0

def execTeardownJob (h : Hdr) (job : BitVec 15) (s : State) : Res :=
  .next (s.withHandle .jup h opTeardownJob (job := some job) fun hd s =>
    s.atTop hd job (cmdWords opTeardownJob (s.wholeSpan job) hd []) fun s => s.tearGroup hd job 0 (s.now .jup))

/-! ### RESUME_JOB (R160, R358) -/

/-- The writes of a resume on a rank (R326). -/
def resumeWrites (c : Nat) (t : Tick) (run : BitVec 8) : List StagedWrite :=
  startWrite c t ++ [ctrlWrite c ctlResume, rankRunWrite c run]

/-- The tick on which PREPARE of a resume can be released, and the earliest resume tick: Tc plus START_MARGIN. -/
def State.resumeAt (s : State) (j : BitVec 15) : Tick := s.groupAt j (nextRun (s.jobRun j)) (s.resetPaths j []).1
def State.leastResume (s : State) (j : BitVec 15) : Tick := s.tcFrom (s.resumeAt j) + BitVec.ofNat 64 (s.jobMargin j)
/-- A resume group with the next RUN. Tick 0 takes the earliest. -/
def State.resumeHere (s : State) (hd : Half) (j : BitVec 15) (tick : Tick) : State :=
  let run := nextRun (s.jobRun j)
  let r := s.resetPaths j []
  let least := s.leastResume j
  let t := if tick = 0 then least else tick
  if t < least then s.post .jup hd stTooEarly []
  else r.2.runResetGroup hd j (s.jobMembers j) (opResumeJob, j, [t, run.setWidth 64]) (s.rankStages j fun _ c => resumeWrites c t run) [] r.1 run
         (s.resumeAt j)

/-- A job held by its budget resumes only on a later BUDGET: a RESUME_JOB or REMAP_RANK of it is posted ABORTED (R410;
assumption 175). -/
def State.budgetBars (s : State) (hd : Half) (j : BitVec 15) (f : State → State) : State :=
  if s.jup.budgetHeld.contains j then s.post .jup hd stAborted [] else f s

def execResumeJob (h : Hdr) (job : BitVec 15) (tick : Tick) (s : State) : Res :=
  .next (s.withHandle .jup h opResumeJob (job := some job) fun hd s =>
    s.atTop hd job (cmdWords opResumeJob (s.wholeSpan job) hd [tick]) fun s => s.budgetBars hd job fun s => s.resumeHere hd job tick)

/-! ### REMAP_RANK (R21, R298, R329) -/

/-- A rank's move: to a path and channel. -/
structure Move where
  rank : BitVec 17
  path : BitVec 32
  channel : Nat
  deriving DecidableEq, Repr

/-- Moves as the words of a group's operands, and back. -/
def moveWords (ms : List Move) : List Word := ms.flatMap fun m => [m.rank.setWidth 64, m.path.setWidth 64, BitVec.ofNat 64 m.channel]
def movesOf : List Word → List Move
  | r :: p :: c :: ws => { rank := r.setWidth 17, path := p.setWidth 32, channel := c.toNat } :: movesOf ws
  | _ => []

/-- The die below this Jupin that a rank leaves is unbound, where this Jupin is its rack Jupin and no fence covers it. -/
def State.leaveStages (s : State) (j : BitVec 15) (m : Move) : List (Target × List StagedWrite) :=
  match (s.jobRuns j).find? fun x => decide (x.first ≤ m.rank ∧ m.rank ≤ x.last) with
  | some x =>
    let p := x.port.toNat
    if s.role = 1 ∧ p < 88 ∧ !s.fencedFrom p j ∧ s.childPath p ≠ m.path then [(.path (s.childPath p), [ctrlWrite x.channel.toNat ctlUnbind])] else []
  | none => []

/-- One group remaps ranks, binds their new channels and resumes every rank with a new RUN. -/
def State.remapGroup (s : State) (hd : Half) (j : BitVec 15) (ms : List Move) (serves : BitVec 8) : State :=
  let run := nextRun (s.jobRun j)
  let r := s.resetPaths j (ms.map Move.path)
  let at_ := s.groupAt j run r.1
  let t := s.tcFrom at_ + BitVec.ofNat 64 (s.jobMargin j)
  let new := ms.map fun m => (Target.path m.path, [bindWrite m.channel j m.rank, ctrlWrite m.channel (ctlBind + ctlResume)] ++
    startWrite m.channel t ++ [rankRunWrite m.channel run])
  let rest := ((s.rankChans j).filter fun e => ms.all fun m => decide (m.rank ≠ e.1)).map fun e => (Target.job j e.1 e.1, resumeWrites e.2 t run)
  r.2.runResetGroup hd j (s.jobMembers j ++ ms.map fun m => .path m.path) (serves, j, moveWords ms) (new ++ rest) (ms.flatMap (s.leaveStages j))
    r.1 run at_

def State.below (s : State) (p : BitVec 32) : Bool := match s.pathPort p with | some (some _) => true | _ => false

def execRemapRank (h : Hdr) (job : BitVec 15) (rank : BitVec 17) (path : BitVec 32) (channel : Fin 8) (s : State) : Res :=
  .next (s.withHandle .jup h opRemapRank (job := some job) fun hd s =>
    s.atTop hd job (cmdWords opRemapRank (s.wholeSpan job) hd [rank.setWidth 64, path.setWidth 64, BitVec.ofNat 64 channel.val]) fun s =>
      if !s.below path then s.post .jup hd stSpanExceeded []
      else if s.lastRank job < rank then s.post .jup hd stBadAddr []
      else s.budgetBars hd job fun s => s.remapGroup hd job [{ rank := rank, path := path, channel := channel.val }] opRemapRank)

/-! ### SET_QUOTA (R277) -/

/-- A rack pair's usage, as SET_QUOTA reports it. -/
def State.usageWord (s : State) (j : BitVec 15) : Word := put 64 63 24 (s.usage j) ||| put 64 21 0 (fld (s.selfPath .jup) 28 7)
def State.quotaHere (s : State) (hd : Half) (j : BitVec 15) (bytes : BitVec 64) : State :=
  let s1 := ((s.setJobWord j 4 bytes).setUsage j (s.usage j)).send .jup (s.peerPort j.toNat) (localMsg mtCommand (cmdWords opSetQuota (s.wholeSpan j) 0 [bytes]))
  s1.post .jup hd stOk [s1.usageWord j]

/-- A command sent on to several ports, and tracked until all have completed. -/
def State.forwardAll (s : State) (h : Half) (ports : List Nat) (words : List Word) : State :=
  (s.sendAll .jup ports (localMsg mtCommand words)).modJup fun j =>
    { j with forwards := j.forwards ++ [{ handle := h, fromPort := ownPort, left := ports, status := stOk, results := [] }] }

def execSetQuota (h : Hdr) (job : BitVec 15) (bytes : BitVec 64) (s : State) : Res :=
  .next (s.withHandle .jup h opSetQuota (job := some job) fun hd s =>
    let ws := cmdWords opSetQuota (s.wholeSpan job) hd [bytes]
    s.atTop hd job ws fun s => if s.role = 1 then s.quotaHere hd job bytes else s.forwardAll hd (s.jobPorts job) ws)

/-! ### FENCE (R253, R284, R320) -/

/-- The fence is placed, and its command is posted with the tick it fell on. -/
def State.fenceAsked (s : State) (hd : Half) (p : Nat) (f : Fence) : State :=
  let a := s.afterCommit p f
  (a.1.settleFence p a.2).post .jup hd stOk [a.1.fenceAfter p a.2.tick]

/-- The earliest fence is at the next tick (as in R261); a port the job does not own takes none, and the fence is counted. -/
def State.fenceCmd (s : State) (hd : Half) (p : Nat) (job : Option (BitVec 15)) (tick : Tick) : State :=
  let least := s.now .jup + 1
  let t := if tick < least then least else tick
  match job with
  | none => s.fenceAsked hd p { job := 0, domain := true, path := s.childPath p, tick := t }
  | some j =>
    if s.ownsPort p j then s.fenceAsked hd p { job := j, domain := false, path := s.childPath p, tick := t }
    else (s.modLink .jup p fun l => { l with discards := l.discards + 1 }).post .jup hd stOk [0]

def fenceArgs (job : Option (BitVec 15)) (tick : Tick) : List Word :=
  [match job with | some j => put 64 63 49 j.toNat | none => bit1 64 48 true, tick]

def State.fenceAt (s : State) (hd : Half) (path : BitVec 32) (job : Option (BitVec 15)) (tick : Tick) : State :=
  match s.pathPort path with
  | some (some p) =>
    if s.role = 1 ∧ p < 88 then s.fenceCmd hd p job tick
    else if s.role = 1 then s.post .jup hd stBadAddr []
    else s.forwardCmd hd p (cmdWords opFence (.path path) hd (fenceArgs job tick))
  | _ => s.post .jup hd stBadAddr []

def execFence (h : Hdr) (path : BitVec 32) (job : Option (BitVec 15)) (tick : Tick) (s : State) : Res :=
  .next (s.withHandle .jup h opFence fun hd s => s.fenceAt hd path job tick)

/-! ### COMPLETION_MSG_RX (R347) -/

/-- The worst of two statuses. -/
def statusRank (x : BitVec 8) : Nat := if x = stPartial then 4 else if x = stAborted then 3 else if x = stTimeout then 2 else if x = stOk then 0 else 1
def worse (a b : BitVec 8) : BitVec 8 := if statusRank a < statusRank b then b else a

/-- Results of several devices, by command: usages, largest first, up to six; counts, added; else the last device's. -/
def addCounts (a b : Word) : Word := put 64 63 32 (fld a 63 32 + fld b 63 32) ||| put 64 31 0 (fld a 31 0 + fld b 31 0)
def joinResults (op : BitVec 8) (a b : List Word) : List Word :=
  if op = opSetQuota then (sortBy (fun w : Word => 2 ^ 64 - w.toNat) ((a ++ b).filter fun w => decide (w ≠ 0))).take 6
  else if op = opShutter then [addCounts (nthW a 0) (nthW b 0), nthW (a ++ b) 1]
  else b

end Sys2Proof.Machine
end

