-- ==== Sys2Proof/Machine/Recovery.lean ====
section
/-! DEFINITION. Re-runs, bring-ins, the end of a restore, what the top does when a group of a job command ends, and the power
budget (R281, R326 to R339, R350, R354, R409, R410). -/
namespace Sys2Proof.Machine
open Host

/-! ### Spares (R324, R329, R331) -/

/-- Spares here that nothing has taken, and that lie on no sled of the rank's partner or twin (R329). -/
def State.freeSpares (s : State) (j : BitVec 15) (rank : BitVec 17) : List Nat :=
  (List.range 88).filter fun p => decide (s.portState p = 1) && !s.nearMate j rank p && (tget none s.jup.restores p).isNone &&
    s.jup.bringIns.all fun b => decide (b.spare ≠ s.childPath p ∧ b.second ≠ some (s.childPath p))

/-- The spare's class is the one that the rank's restore image requires. -/
def State.classFits (s : State) (src p : Nat) : Bool :=
  wants ((nthW (s.gen src (tget false s.jup.genActive src)).header 1).extractLsb' 0 16) (BitVec.ofNat 16 (s.portClass p))

/-- Outcome of a choice. -/
inductive Pick
  | spare (path : BitVec 32) | mismatch | lacking | outside
  deriving DecidableEq, Repr

def pickOf (s : State) (fit others : List Nat) (override : Bool) : Pick :=
  match fit, others with
  | p :: _, _ => .spare (s.childPath p)
  | [], p :: _ => if override then .spare (s.childPath p) else .mismatch
  | [], [] => .lacking

/-- At a rack Jupin: the named spare, or the lowest of the class; a spare of another class is offered only under the override
(R329). -/
def State.pickRack (s : State) (j : BitVec 15) (rank : BitVec 17) (given : BitVec 32) (override : Bool) : Pick :=
  let free := s.freeSpares j rank
  let src := s.rankPort j rank
  if given = 0 then pickOf s (free.filter fun p => s.classFits src p) (if override then free else []) override
  else match s.pathPort given with
    | some (some p) => pickOf s ((free.filter fun q => decide (q = p)).filter fun q => s.classFits src q) (free.filter fun q => decide (q = p)) override
    | _ => .outside

/-- Above the rack, which spares the pairs below hold is not known here: the choice is free. -/
def State.pickSpare (s : State) (j : BitVec 15) (rank : BitVec 17) (given : BitVec 32) (override : Bool) (v : BitVec 64) : Pick :=
  if s.role = 1 then s.pickRack j rank given override
  else if given ≠ 0 then (if s.below given then .spare given else .outside)
  else if v.getLsbD 63 then .spare (s.freePath v) else .lacking

/-! ### How the state is obtained (R332 to R335) -/

/-- The rank has a recompute program: RECOMPUTE_INDEX of its channel is not 0. Free above the rack. -/
def State.hasRecompute (s : State) (j : BitVec 15) (rank : BitVec 17) (v : BitVec 64) : Bool :=
  if s.role ≠ 1 then v.getLsbD 61
  else match s.rankRun j rank with
    | some m => decide (fld ((s.gen m.port.toNat (tget false s.jup.genActive m.port.toNat)).imageWord (0x0303100C + 16 * m.channel.toNat)) 15 0 ≠ 0)
    | none => false
/-- The partner serves: it has acknowledged the rank's steps, and no fence or expulsion has taken its die (R279, R332). Free above the
rack. -/
def State.hasPartner (s : State) (j : BitVec 15) (rank : BitVec 17) (v : BitVec 64) : Bool :=
  if s.role ≠ 1 then v.getLsbD 60
  else s.jup.shadows.any (fun x => decide (x.job = j ∧ x.rank = rank)) &&
    (s.partnerOf j rank).all fun r => !s.fencedFrom (s.rankPort j r) j && decide (s.healthState (s.rankPort j r) ≠ 3)
/-- Records of the rank are lost, or their SEQ_IDs stand in the job's lost list. -/
def State.recordsLost (s : State) (j : BitVec 15) (rank : BitVec 17) : Bool :=
  s.jup.journal.any fun e => decide (e.2.job = j ∧ e.2.rank = rank) &&
    (e.2.lost || (tget {} s.jup.lost j.toNat).held.any fun x => decide (x.1 = e.2.seqId))
/-- 0 COPY, 1 RECOMPUTE, 2 LOST_RANGE. -/
def State.bringMode (s : State) (j : BitVec 15) (rank : BitVec 17) (copy : Bool) (v : BitVec 64) : Nat :=
  if copy && s.hasPartner j rank v then 0 else if s.hasRecompute j rank v && !s.recordsLost j rank then 1 else 2

/-- The lost-range path: the rank's SEQ_IDs are lost, and SEQ_LOST is raised once with their count. -/
def State.rankSeqs (s : State) (j : BitVec 15) (rank : BitVec 17) : List (BitVec 40) :=
  ((s.jup.journal.filter fun e => decide (e.2.job = j ∧ e.2.rank = rank ∧ e.2.kind ≠ 3)).map fun e => e.2.seqId).eraseDups
def State.loseRange (s : State) (b : BringIn) : State :=
  let ids := s.rankSeqs b.job b.rank
  ((ids.foldl (fun s i => s.addLost b.job i lostRecovery) s).raiseFault .jup blkRecord cSeqLost { detail := detail ids.length }).setBringIn b
    { b with mode := 2, phase := 2, lost := ids }

/-! ### Restores and choices of spares (R329, R331) -/

/-- A restore for a bring-in: here, or at the rack pair that holds the port. -/
def State.bringRestore (s : State) (b : BringIn) (path : BitVec 32) (sections : BitVec 3) (override : Bool) : State :=
  let src := s.rankPort b.job b.rank
  let gen := tget false s.jup.genActive src
  match s.pathPort path with
  | some (some p) =>
    if s.role = 1 then
      s.openRestore p { handle := none, source := src, job := some b.job, sections := sections, gen := gen, override := override,
                        streaming := false, sent := 0, opened := s.now .jup }
    else s.forwardCmd b.handle p (cmdWords opRestore (.path path) b.handle [sections.setWidth 64, bit1 64 0 gen] override)
  | _ => s

/-- Sections of a full restore. -/
def allSections : BitVec 3 := 7

/-- A second spare for a recompute (R334). -/
def State.pickSecond (s0 : State) (b : BringIn) (override : Bool) : State :=
  let s := if s0.role = 1 then s0 else s0.fresh.2
  match s0.pickSpare b.job b.rank 0 override s0.fresh.1 with
  | .spare p => if p = b.spare then s else
      let b' : BringIn := { b with second := some p }
      (s.setBringIn b b').bringRestore b' p allSections override
  | _ => s

def State.bringIn (s0 : State) (hd : Half) (j : BitVec 15) (rank : BitVec 17) (given : BitVec 32) (dual override : Bool) : State :=
  let s := if s0.role = 1 then s0 else s0.fresh.2
  match s0.pickSpare j rank given override s0.fresh.1 with
  | .outside => s.post .jup hd stSpanExceeded []
  | .mismatch => s.post .jup hd stClassMismatch []
  | .lacking => (s.raiseFault .jup blkRecord cNoSpare {}).post .jup hd stNoSpare []
  | .spare p =>
    let b : BringIn := { handle := hd, job := j, rank := rank, spare := p, second := none, mode := s0.bringMode j rank true s0.fresh.1,
                         started := s.now .jup, override := override }
    let s1 := (s.modJup fun x => { x with bringIns := x.bringIns ++ [b] }).bringRestore b p allSections override
    if dual && decide (b.mode = 1) then s1.pickSecond b override else s1

def State.bringAt (s : State) (j : BitVec 15) (rank : BitVec 17) (p : BringIn → Bool) : Option BringIn :=
  s.jup.bringIns.find? fun b => decide (b.job = j ∧ b.rank = rank) && p b

/-- Ranks that are fenced: by a fence on their port, or as the map has them. -/
def State.fencedRanks (s : State) (j : BitVec 15) : List (BitVec 17) :=
  ((s.jobRuns j).filter fun m => decide (m.state = 2) || (decide (m.port.toNat < 88) && s.fencedFrom m.port.toNat j)).flatMap fun m =>
    (List.range (m.last.toNat + 1 - m.first.toNat)).map fun k => m.first + BitVec.ofNat 17 k

/-- Fenced ranks of a job that no bring-in brings back. -/
def State.lackingRanks (s : State) (j : BitVec 15) : List (BitVec 17) := (s.fencedRanks j).filter fun r => (s.bringAt j r fun _ => true).isNone
/-- The spare of a bring-in is here, and has itself been fenced from the domain (R330). -/
def State.spareFailed (s : State) (b : BringIn) : Bool :=
  match s.pathPort b.spare with | some (some p) => decide (s.role = 1) && s.domainFenced p | _ => false

/-- A bring-in for each fenced rank that has none. -/
def State.rerunBringIns (s : State) (j : BitVec 15) (ranks : List (BitVec 17)) : State :=
  ranks.foldl (fun s r =>
    if (s.bringAt j r fun _ => true).isSome then s
    else match s.selfHandle opBringIn (some j) with
      | (s1, some hd) => s1.bringIn hd j r 0 false false
      | (s1, none) => s1) s
/-- A job some of whose fenced ranks found no spare stays held, and waits for one (R331). -/
def State.awaitSpares (s : State) (j : BitVec 15) : State :=
  let s1 := s.modJup fun x => { x with spareless := x.spareless.filter fun k => !decide (k = j) }
  if (s1.lackingRanks j).isEmpty then s1
  else (s1.modJup fun x => { x with spareless := x.spareless ++ [j] }).noteRerun j
    ((((tget none s.jup.stage.committed j.toNat).map fun c => c + 1).getD 0).setWidth 16)

/-! ### The remap (R329, R330) -/

def bringMove (s : State) (b : BringIn) : Move :=
  { rank := b.rank, path := b.spare, channel := ((s.rankRun b.job b.rank).map fun m => m.channel.toNat).getD 0 }

/-- Once every bring-in of the job has its state, one group remaps them all. A spare that has failed is replaced first, and a
rank fenced meanwhile is brought in too (R330). A job held by its budget waits for it (R410). -/
def State.tryRemap (s : State) (j : BitVec 15) : State :=
  let bs := s.jup.bringIns.filter fun b => decide (b.job = j)
  match bs with
  | [] => s
  | b :: _ =>
    if !(bs.all fun x => decide (x.phase = 2)) || (s.coordGroup .jup b.handle).isSome || s.jup.budgetHeld.contains j then s
    else match bs.find? s.spareFailed, s.lackingRanks j with
      | some x, _ => (s.dropBringIn x).bringIn x.handle j x.rank 0 x.second.isSome false
      | none, [] => s.remapGroup b.handle j (bs.map (bringMove s)) opBringIn
      | none, ranks => (s.rerunBringIns j ranks).awaitSpares j

/-! ### The steps of a bring-in (R332 to R335) -/

/-- The spare's restore is done: a copy or a recompute begins, or the range is lost. -/
def State.bringRestored (s : State) (b : BringIn) : State :=
  if b.phase ≠ 0 then s
  else if b.mode = 2 then (s.loseRange b).tryRemap b.job
  else s.setBringIn b { b with phase := 1, started := s.now .jup }

/-- An override is noted in REPEAT where the restore was another Jupin's: what it found there is free (R293). -/
def State.noteOverride (s : State) (b : BringIn) : State :=
  if !b.override then s
  else
    let v := s.fresh.1
    let s1 := if v.getLsbD 0 then s.fresh.2.setRepeat b.job 0 else s.fresh.2
    if v.getLsbD 1 then s1.setRepeat b.job 1 else s1

/-- The state is in the spare. -/
def State.bringReady (s : State) (b : BringIn) : State := (s.setBringIn b { b with phase := 2 }).tryRemap b.job

/-- From copy to recompute mode, after an IMAGE restore that discards what was copied. -/
def State.toRecompute (s0 : State) (b : BringIn) : State :=
  let s := if s0.role = 1 then s0 else s0.fresh.2
  let b' : BringIn := { b with mode := s0.bringMode b.job b.rank false s0.fresh.1, phase := 0 }
  (s.setBringIn b b').bringRestore b' b.spare 2 false

/-! ### BRING_IN (R329, R331) -/

/-- The spare path and DUAL stand in the third argument. -/
def execBringIn (h : Hdr) (job : BitVec 15) (rank : BitVec 17) (spare : BitVec 32) (dual : Bool) (s : State) : Res :=
  .next (s.withHandle .jup h opBringIn (job := some job) fun hd s =>
    s.atTop hd job (cmdWords opBringIn (s.wholeSpan job) hd [rank.setWidth 64, spare.setWidth 64, bit1 64 0 dual] h.override) fun s =>
      if s.lastRank job < rank then s.post .jup hd stBadAddr [] else s.bringIn hd job rank spare dual h.override)

/-! ### RESTORE_COMPLETE (R281, R324) -/

def State.restored (s : State) (p : Nat) (r : RestoreOp) (checkTick : Tick) : State :=
  let s1 := (s.modJup fun j =>
    { j with restores := tset none j.restores p none, unrestored := j.unrestored.filter fun q => !decide (q = p) }).closeFlow .restoreFlow
      (r.handle.getD 0) r.job
  let s2 := if s1.healthState p = 3 then s1.setHealth p 0 else s1
  match r.handle with
  | some h => s2.post .jup h stOk [BitVec.ofNat 64 r.sent, checkTick]
  | none =>
    match s2.jup.bringIns.find? fun b => decide (b.phase = 0 ∧ (b.spare = s2.childPath p ∨ b.second = some (s2.childPath p))) with
    | some b => s2.bringRestored b
    | none => s2

/-- The die has checked the last section at a tick, or a section's digest has failed (none): it is the die's answer, of which no
message is given. -/
def execRestoreComplete (port : BitVec 7) (checkTick : Option Tick) (s : State) : Res :=
  match tget none s.jup.restores port.toNat with
  | none => .next s
  | some r => s.due r.streaming fun s =>
      match checkTick with
      | some t => s.restored port.toNat r t
      | none => s.failRestore port.toNat r stImageBad

/-! ### COPY_DIGEST_COMPARE, RECOMPUTE_MATCH, RECOMPUTE_LIMIT (R332 to R335) -/

/-- The copy stands at the last committed step. -/
def State.copyCurrent (s : State) (j : BitVec 15) (rank : BitVec 17) : Bool :=
  match s.jup.shadows.find? fun x => decide (x.job = j ∧ x.rank = rank), tget none s.jup.stage.committed j.toNat with
  | some x, some c => decide (c ≤ x.step)
  | _, _ => true

def State.copyCompared (s : State) (b : BringIn) (same : Bool) : State :=
  if !same then s.toRecompute b
  else if s.copyCurrent b.job b.rank then s.bringReady b
  else if s.hasRecompute b.job b.rank s.fresh.1 && !s.recordsLost b.job b.rank then
    (if s.role = 1 then s else s.fresh.2).setBringIn b { b with phase := 3 }
  else s.toRecompute b

/-- A copy whose partner a fence takes goes on as a recompute; before the restore is done its mode alone changes (R332). -/
def State.partnerLost (s : State) (p : Nat) (f : Fence) : State :=
  (s.jup.bringIns.filter fun b => decide (b.mode = 0 ∧ b.phase ≤ 1) && (f.domain || decide (b.job = f.job)) &&
    (s.partnerOf b.job b.rank).any fun r => decide (s.rankPort b.job r = p)).foldl
    (fun s b => if b.phase = 1 then s.toRecompute b
      else (if s.role = 1 then s else s.fresh.2).setBringIn b { b with mode := s.bringMode b.job b.rank false s.fresh.1 }) s

/-- A fence begins once, on its tick, or at once where the tick had passed when it was placed (R355). -/
def execFenceTick (port : Nat) (s : State) : Res :=
  let due (f : Fence) : Bool := decide (f.tick ≤ s.now .jup) && !f.begun
  s.due ((s.link .jup port).fences.any due) fun s =>
    ((s.link .jup port).fences.filter due).foldl (fun s f => (s.beginFence port f).partnerLost port f)
      (s.modLink .jup port fun l => { l with fences := l.fences.map fun f => if due f then { f with begun := true } else f })

def execCopyDigestCompare (job : BitVec 15) (rank : BitVec 17) (partner spare : Word) (s : State) : Res :=
  match s.bringAt job rank fun b => decide (b.mode = 0 ∧ b.phase = 1) with
  | some b => .next (s.copyCompared b (decide (partner = spare)))
  | none => .next s

/-- The rank's latest durable CHECKPOINT record (R273, R305). -/
def State.checkpointOf (s : State) (j : BitVec 15) (rank : BitVec 17) : Option JrnRec :=
  let rs := (s.jup.journal.map Prod.snd).filter fun r => decide (r.job = j ∧ r.rank = rank ∧ r.kind = 3) && r.durable
  rs.foldl (fun (a : Option JrnRec) r => match a with | some x => (if x.step < r.step then some r else a) | none => some r) none
/-- Steps follow the rank's checkpoint, up to the last one committed. -/
def State.stepsLeft (s : State) (b : BringIn) : Bool :=
  match s.checkpointOf b.job b.rank, tget none s.jup.stage.committed b.job.toNat with
  | some r, some c => decide (r.step < c)
  | _, _ => false

/-- The spare that matched is kept; the other is reset, and is a spare again. Where steps follow the checkpoint, the kept one goes on with
them (R333). -/
def State.keepSpare (s : State) (b : BringIn) (path : BitVec 32) (unverified : Bool) : State :=
  let other := if path = b.spare then b.second else some b.spare
  let s1 := match other with
    | some q => match s.pathPort q with
      | some (some p) => if s.role = 1 then (s.modJup fun j => { j with restores := tset none j.restores p none }).emit (.dieReset p) else s
      | _ => s
    | none => s
  let b' : BringIn := { b with spare := path, second := none, unverified := unverified, matched := none }
  if !unverified && s.stepsLeft b then s1.setBringIn b { b' with phase := 3 } else (s1.setBringIn b b').bringReady b'

/-- The spare with the lower path is kept at once; a match of the other stands until its tick ends, since both may match on one
(R334). -/
def State.spareMatched (s : State) (b : BringIn) (path : BitVec 32) (unverified : Bool) : State :=
  if b.second.all fun q => decide (path ≤ q ∧ path ≤ b.spare) then s.keepSpare b path unverified
  else s.setBringIn b { b with matched := some (path, unverified) }
/-- The matches that stand as a tick ends are kept. -/
def State.settleMatches (s : State) : State :=
  s.jup.bringIns.foldl (fun s b => match b.matched with | some m => s.keepSpare b m.1 m.2 | none => s) s

/-- A state brought up to the last step by recompute needs no further match; a rank without a durable CHECKPOINT record has run to the last
step, unverified. -/
def State.recomputed (s : State) (b : BringIn) (path : BitVec 32) (digest : Word) : State :=
  if b.phase = 3 then s.bringReady b
  else match s.checkpointOf b.job b.rank with
    | none => s.spareMatched b path true
    | some r => if nthW r.data 4 = digest then s.spareMatched b path false else s

def execRecomputeMatch (job : BitVec 15) (rank : BitVec 17) (spare : BitVec 32) (digest : Word) (s : State) : Res :=
  match s.bringAt job rank fun b => (decide (b.mode = 1 ∧ b.phase = 1) || decide (b.phase = 3)) && (decide (b.spare = spare) || decide (b.second = some spare)) with
  | some b => .next (s.recomputed b spare digest)
  | none => .next s

/-- RECOMPUTE_LIMIT of a job (R334). -/
def State.recomputeLimit (s : State) (j : BitVec 15) : Nat := ((Config.recomputeLimit (s.jobDigest j) j).map BitVec.toNat).getD (2 ^ 32)
def execRecomputeLimit (job : BitVec 15) (rank : BitVec 17) (s : State) : Res :=
  match s.bringAt job rank fun b => decide (b.mode = 1 ∧ b.phase = 1 ∧ b.matched = none ∧ b.started.toNat + s.recomputeLimit job ≤ (s.now .jup).toNat) with
  | some b => .next (((s.raiseFault .jup blkRecord cNoMatch {}).loseRange b).tryRemap job)
  | none => .next s

/-! ### JOB_RERUN (R326 to R329, R337) -/

/-- Each rank's durable INPUT records of a step or later, in order, as a JOURNAL section. -/
def State.replayRank (s : State) (p : Nat) (j : BitVec 15) (rank : BitVec 17) (n : BitVec 64) : State :=
  let rs := (s.jup.journal.map Prod.snd).filter fun r =>
    decide (r.job = j ∧ r.rank = rank ∧ r.kind = 1 ∧ n ≤ r.step) && r.durable && !r.lost
  let key (r : JrnRec) : Nat := r.step.toNat * 2 ^ 64 + r.seqId.toNat * 2 ^ 24 + r.chunk.toNat
  if rs.isEmpty then s else s.streamSection p 0x33 ((sortBy key rs).flatMap fun r => r.data)
def State.replayJob (s : State) (j : BitVec 15) (n : BitVec 64) : State :=
  if s.role ≠ 1 then s
  else ((s.jobRuns j).filter fun m => decide (m.port.toNat < 88)).foldl (fun s m =>
    (List.range (m.last.toNat + 1 - m.first.toNat)).foldl (fun s k => s.replayRank m.port.toNat j (m.first + BitVec.ofNat 17 k) n) s) s

/-- RERUN_MAX of a job (R326). -/
def State.rerunMax (s : State) (j : BitVec 15) : Nat := ((Config.rerunMax (s.jobDigest j) j).map BitVec.toNat).getD 3
def State.clearRerun (s : State) (j : BitVec 15) : State :=
  s.modStage fun t => { t with rerun := t.rerun.filter fun e => !decide (e.1 = j), brown := t.brown.filter fun k => !decide (k = j),
                               again := t.again.filter fun k => !decide (k = j) }

/-- The resume of a re-run, under context 0x40. -/
def State.rerunResume (s : State) (j : BitVec 15) (counted : Bool) : State :=
  let w := s.jobWord j 0
  let n := fld w 15 8
  let s1 := s.clearRerun j
  if counted && decide (s.rerunMax j ≤ n) then s1.raiseFault .jup blkRecord cRerunLimit {}
  else
    let s2 := if counted then s1.setJobWord j 0 ((w &&& 0xFFFFFFFFFFFF00FF) ||| put 64 15 8 (n + 1)) else s1
    match s2.selfHandle opResumeJob (some j) with
    | (s3, some hd) => s3.resumeHere hd j 0
    | (s3, none) => s3

def State.rerunHere (s : State) (j : BitVec 15) (n : BitVec 64) : State :=
  let s1 := if s.jup.spareless.contains j then s else s.replayJob j n
  if s.jobPlace j ≠ .top then s1.clearRerun j
  else
    let bad := s.fencedRanks j
    if bad.isEmpty then s1.rerunResume j (!s.jup.stage.brown.contains j && !s.jup.stage.again.contains j) else ((s1.clearRerun j).rerunBringIns j bad).awaitSpares j

/-- A job that needs its journal has room in its quota again (R277; assumption 171). -/
def State.quotaAllows (s : State) (j : BitVec 15) : Bool :=
  !((s.jobWord j 0).getLsbD 1 && s.jup.quotaOver.contains j) || decide (s.usage j < (s.jobWord j 4).toNat)
/-- A rank that waits for a spare has one: what the pairs below hold is not known above a rack (R331). -/
def State.spareThere (s : State) (j : BitVec 15) : Bool :=
  !s.jup.spareless.contains j || decide (s.role ≠ 1) || (s.lackingRanks j).any fun r => !(s.freeSpares j r).isEmpty
/-- An escalation of the job's channels, or of a die that serves it, is pending in its die (R326). -/
def State.escPending (s : State) (j : BitVec 15) : Bool :=
  s.jup.sevSeen.any fun x => x.pendingAt (s.now .jup) &&
    (decide (x.job = some j) || (x.job.isNone && (s.jobPorts j).any fun p => decide (s.childPath p = x.path)))
/-- No escalation of the job's dies is pending, none is in supply warning, and nothing else that holds the job stands. -/
def State.rerunReady (s : State) (j : BitVec 15) : Bool :=
  ((s.jobPorts j).all fun p => !(s.fblock .jup p).grace && !s.jup.warned.contains p) && !s.escPending j && s.quotaAllows j && s.spareThere j &&
    !s.jup.budgetHeld.contains j

def execJobRerun (job : BitVec 15) (s : State) : Res :=
  match s.jup.stage.rerun.find? fun e => decide (e.1 = job) with
  | none => .next s
  | some (_, lo) => s.due (s.rerunReady job) fun s => s.rerunHere job (fullStep (tget none s.jup.stage.committed job.toNat) lo)

/-! ### CG_POST: the group has ended (R350, R354, R355) -/

/-- The group is over at its coordinator; what a port still checks stays. -/
def State.endGroup (s : State) (d : Dev) (h : Half) : State :=
  let s1 := s.dropCoord d h
  match s1.group d h with
  | some g => if g.applied && (decide (d = .tsu) || (s1.unackedPorts h).isEmpty) then s1.dropGroup d h else s1
  | none => s1

/-- A start's group has committed: the record, then the start on the job's tree (R158, R285). -/
def State.startPosted (s : State) (h : Half) (j : BitVec 15) (args : List Word) (tc : Tick) : State :=
  let margin := s.marginOf j (nthW args 0).toNat
  let t := tc + BitVec.ofNat 64 margin
  let s1 := (s.setJobWord j 8 (put 64 63 32 margin ||| put 64 7 0 (s.jobRun j).toNat)).setJobWord j 9 (nthW args 2)
  let s2 := if (nthW args 1).getLsbD 0 then s1.setRepeat j 0 else s1
  let s3 := if (nthW args 1).getLsbD 1 then s2.setRepeat j 1 else s2
  s3.jobCommand h j opStartJob [t, 0] [tc, t]

/-- A path below a child Jupin, from free bits: which of its dies was silent no message tells. -/
def State.freeBelow (s : State) (p : Nat) (v : BitVec 64) : BitVec 32 :=
  if s.role = 2 then (s.selfPath .jup &&& 0x1FFFC000) ||| put 32 13 7 p ||| put 32 6 0 (v.setWidth 7).toNat
  else (s.selfPath .jup &&& 0x1FE00000) ||| put 32 20 14 p ||| put 32 13 0 (v.setWidth 14).toNat
/-- A rank that did not answer a teardown is fenced from the job (R287): the state, and the fence tick as far as it is known
here. -/
def State.tearFence (s : State) (j : BitVec 15) (path : BitVec 32) : State × Tick :=
  let t := s.now .jup + fenceDelay
  match s.pathPort path with
  | some (some p) =>
    if s.role = 1 then
      let a := s.afterCommit p { job := j, domain := false, path := path, tick := t }
      (a.1.settleFence p a.2, a.1.fenceAfter p a.2.tick)
    else
      let die := s.freeBelow p s.fresh.1
      (s.fresh.2.send .jup p (localMsg mtCommand (cmdWords opFence (.path die) 0 (fenceArgs (some j) t))), t)
  | _ => (s, t)
/-- Each of them, and the latest of their fence ticks. -/
def State.tearFences (s : State) (j : BitVec 15) (paths : List (BitVec 32)) : State × Tick :=
  paths.foldl (fun a p =>
    let b := a.1.tearFence j p
    (b.1, if a.2 < b.2 then b.2 else a.2)) (s, 0)

/-- A teardown's group did not commit: every silent rank is fenced, and once every fence tick has passed the group runs again. -/
def State.tearAborted (s : State) (g : CoordGroup) (j : BitVec 15) (phase : Nat) (status : BitVec 8) (w4 : Word) : State :=
  if 2 ≤ phase then (s.endGroup .jup g.handle).tearGroup g.handle j (phase - 2) (s.now .jup)
  else if !g.silent.isEmpty then
    let r := s.tearFences j g.silent
    r.1.modCoord .jup g.handle fun x =>
      { x with serves := some (opTeardownJob, j, [BitVec.ofNat 64 (phase + 2), (s.jobWord j 0).extractLsb' 16 16 |>.setWidth 64]), prepareTick := r.2 + 1 }
  else (s.endGroup .jup g.handle).post .jup g.handle status [0, (s.jobWord j 0).extractLsb' 16 16 |>.setWidth 64, w4]

/-- The two halves of a teardown. The record goes with the second, and REPEAT is read before it. -/
def State.tearPosted (s : State) (h : Half) (j : BitVec 15) (phase : Nat) (tc : Tick) (repeat_ : Word) : State :=
  if phase = 0 then s.tearGroup h j 1 (tc + BitVec.ofNat 64 (s.stepTicks j)) else s.post .jup h stOk [tc, repeat_]

/-- Results of a bring-in (R350). -/
def bringResults (b : BringIn) (tc : Tick) : List Word :=
  [put 64 63 48 b.lost.length ||| bit1 64 34 b.unverified ||| put 64 33 32 b.mode ||| put 64 31 0 b.spare.toNat, tc] ++
  (b.lost.take 4).map fun i => put 64 63 24 i.toNat
def State.bringPosted (s : State) (j : BitVec 15) (status : BitVec 8) (tc : Tick) : State :=
  ((s.jup.bringIns.filter fun b => decide (b.job = j)).foldl (fun s b =>
    (s.post .jup b.handle status (if status = stOk then bringResults b tc else [])).dropBringIn b) s).clearRerun j |>.bringAgain j
      (decide (status ≠ stOk) && !(s.fencedRanks j).isEmpty)

/-- What a command does when its group has committed. -/
def State.servePosted (s : State) (h : Half) (op : BitVec 8) (j : BitVec 15) (args : List Word) (tc : Tick) (repeat_ : Word) : State :=
  if op = opStartJob then s.startPosted h j args tc
  else if op = opTeardownJob then s.tearPosted h j (nthW args 0).toNat tc repeat_
  else if op = opResumeJob then (s.clearRerun j).post .jup h stOk [tc, nthW args 0, nthW args 1]
  else if op = opBringIn then s.bringPosted j stOk tc
  else (s.modJup fun x => { x with spareless := x.spareless.filter fun k => !decide (k = j) }).post .jup h stOk [tc]

/-- A start, resume or remap that a die in supply warning refused is tried again (R339). -/
def State.serveAgain (s : State) (h : Half) (op : BitVec 8) (j : BitVec 15) (args : List Word) : State :=
  if op = opStartJob then
    s.startGroup h j ((nthW args 0).setWidth 32) true { missing := false, badClass := (nthW args 1).getLsbD 0,
                                                        badVersion := (nthW args 1).getLsbD 1, word9 := nthW args 2 }
  else if op = opResumeJob then s.resumeHere h j (if nthW args 0 < s.leastResume j then 0 else nthW args 0)
  else if op = opBringIn then s.tryRemap j
  else s.remapGroup h j (movesOf args) op

/-- And when it has not: a re-run's resume is tried anew, with no new failure of the gate to count (R326). A group that a warned die refused is tried again (R339). -/
def State.serveAborted (s : State) (g : CoordGroup) (op : BitVec 8) (j : BitVec 15) (args : List Word) (status : BitVec 8) (w4 : Word) : State :=
  if op = opTeardownJob then s.tearAborted g j (nthW args 0).toNat status w4
  else if op = opCgBegin then
    ((s.endGroup .jup g.handle).post .jup g.handle status []).abortCoord .jup ((nthW args 0).setWidth 32) (w4.extractLsb' 32 8) (w4.extractLsb' 0 32)
  else
    let s1 := s.endGroup .jup g.handle
    if op = opResumeJob ∧ fld g.handle 31 24 = 0x40 then
      (s1.bringAgain j true).post .jup g.handle status []
    else if g.retry then s1.serveAgain g.handle op j args
    else if op = opBringIn then s1.bringPosted j status 0
    else s1.post .jup g.handle status []

/-- The die that refused in supply warning has reported ready, or is fenced. -/
def State.readyAgain (s : State) (g : CoordGroup) (w4 : Word) : Bool :=
  !g.retry || match s.pathPort (w4.extractLsb' 0 32) with
    | some (some p) => decide (s.role ≠ 1) || !s.jup.warned.contains p || s.domainFenced p
    | _ => true

/-- The dies treated as reset up to a group of R428 are done with. -/
def State.noteResets (s : State) (g : CoordGroup) : State :=
  match g.serves with
  | some (op, j, _) =>
    if op = opTeardownJob ∨ op = opCgBegin then s else s.modJup fun x => { x with resetsAt := tset 0 x.resetsAt j.toNat g.resetsSeen }
  | none => s

/-- A committed group posts once its delivery is settled, 64 ticks after Tc. -/
def State.postCommitted (s : State) (d : Dev) (g : CoordGroup) : State :=
  let counts : Word := put 64 63 32 g.delivered ||| put 64 31 0 g.expected
  let s1 := (s.endGroup d g.handle).noteResets g
  match g.partialPath, g.serves with
  | some p, none => s1.post d g.handle stPartial [g.tc, counts, put 64 39 32 stPartial.toNat ||| put 64 31 0 p.toNat]
  | some _, some (op, j, _) => if op = opBringIn then s1.bringPosted j stPartial g.tc else s1.post d g.handle stPartial [g.tc]
  | none, none => s1.post d g.handle stOk [g.tc, counts]
  | none, some (op, j, args) => s1.servePosted g.handle op j args g.tc (nthW args 1)

def State.postReady (s : State) (d : Dev) (g : CoordGroup) : Bool :=
  decide (g.state = .committed ∧ g.tc + 64 ≤ s.now d) && (decide (d = .tsu) || (s.delivery g.handle 5).isNone)

def execCgPost (d : Dev) (handle : Half) (s : State) : Res :=
  match s.coordGroup d handle with
  | none => .next s
  | some g =>
    match g.outcome, g.serves with
    | some (st, w4), some (op, j, args) => s.due (decide (g.prepareTick ≤ s.now d) && s.readyAgain g w4) fun s => s.serveAborted g op j args st w4
    | _, _ => s.due (s.postReady d g) fun s => s.postCommitted d g

/-! ### BUDGET (R409, R410) -/

/-- S of a budget: the stretch, or none where no stretch holds the job to it. N ranks, E nJ, I mW, B W, T ticks; with
t = 625 ps, S = ceil(8 (1000 N E - 625 B T) / (5 (1000 B - N I))). -/
def budgetStretch (n e i b t : Nat) : Option Nat :=
  if b = 0 then some 0
  else if 1000 * b ≤ n * i then none
  else
    let x : Int := 8 * (1000 * (n * e : Int) - 625 * (b * t : Int))
    let y : Nat := 5 * (1000 * b - n * i)
    let s := if x ≤ 0 then 0 else (x.toNat + y - 1) / y
    if s ≤ 1048575 then some s else none

/-- The first step whose COMMIT falls at least the decision lead after now. -/
def State.budgetStep (s : State) (j : BitVec 15) : BitVec 64 :=
  let period := max 1 (s.stepTicks j)
  let c : BitVec 64 := match tget none s.jup.stage.committed j.toNat with | some c => c + 1 | none => 0
  c + BitVec.ofNat 64 ((s.decisionLead + period - 1) / period)

/-- Under context 0x40, on the job's tree. -/
def State.selfCommand (s : State) (j : BitVec 15) (op : BitVec 8) (f : Half → State → State) : State :=
  match s.selfHandle op (some j) with
  | (s1, some hd) => f hd s1
  | (s1, none) => s1

def State.applyBudget (s : State) (j : BitVec 15) (v : Nat) (hold : Bool) : State :=
  let step := s.budgetStep j
  let s1 := s.selfCommand j opStretchJob fun hd s => s.stretchTo hd j step (BitVec.ofNat 20 v)
  let s2 := s1.raiseFault .jup (blkPower .jup) cPowerBudget {}
  if hold then
    (s2.modJup fun x => { x with budgetHeld := if x.budgetHeld.contains j then x.budgetHeld else x.budgetHeld ++ [j] }).selfCommand j opHoldJob
      fun hd s => s.jobCommand hd j opHoldJob [step] []
  else if s2.jup.budgetHeld.contains j then
    let s3 := s2.modJup fun x => { x with budgetHeld := x.budgetHeld.filter fun k => !decide (k = j) }
    if s3.jup.bringIns.any fun b => decide (b.job = j) then s3.tryRemap j else s3.selfCommand j opResumeJob fun hd s => s.resumeHere hd j 0
  else s2

/-- A write of BUDGET: kept in the record, and applied by the top. -/
def State.writeBudget (s : State) (j : BitVec 15) (watts : Half) : State :=
  let s1 := s.setJobWord j 3 ((s.jobWord j 3 &&& 0xFFFFFFFF) ||| put 64 63 32 watts.toNat)
  if (s.jobRec j).isNone ∨ s.jobPlace j ≠ .top then s1
  else
    let w1 := s.jobWord j 1
    match budgetStretch ((s.lastRank j).toNat + 1) (fld w1 63 32) (fld w1 31 0) watts.toNat (fld (s.jobWord j 2) 63 32) with
    | some v => s1.applyBudget j v false
    | none => s1.applyBudget j 1048575 true

def execBudgetWrite (job : BitVec 15) (watts : Half) (s : State) : Res := .next (s.writeBudget job watts)

/-! ### JP_OP_TIMEOUT (R270, R347) -/

/-- A restore flow that times out ends its restore; another operation's handle, if it has one, is posted TIMEOUT. -/
def State.opTimeout (s : State) (i : Nat) (e : TrackEntry) : State :=
  let s1 := (s.raiseFault .jup blkTracker cOpTimeout {}).modJup fun j => { j with tracker := tset none j.tracker i none }
  let own := if e.kind = .restoreFlow then s1.jup.restores.find? fun x => x.2.any fun r => decide (r.handle.getD 0 = e.handle ∧ r.job = e.job) else none
  match own with
  | some (p, some r) => s1.failRestore p r stTimeout
  | _ => if e.handle ≠ 0 then s1.post .jup e.handle stTimeout [] else s1
/-- A reduction or a round that times out fails at this stage. -/
def State.stageTimeout (s : State) (g : Nat) (e : TrackEntry) : State :=
  let s1 := s.raiseFault .jup blkTracker cOpTimeout {}
  match e.kind, s.voteCtx g, s.groupRec (BitVec.ofNat 12 g) with
  | .reduction, some v, some r => (s1.failVote r v (s1.missingInputs v)).retryGates v.job
  | _, _, _ => s1.failOne g false 0 0

def execJpOpTimeout (entry : BitVec 16) (s : State) : Res :=
  match s.opEntry entry.toNat with
  | some e => s.due (decide (e.deadline < s.now .jup)) fun s =>
      if entry.toNat < trackerSize then s.opTimeout entry.toNat e else s.stageTimeout (entry.toNat - trackerSize) e
  | none => .next s

/-! ### COMPLETION_MSG_RX (R347) -/

/-- A completion message: the words of a completion entry (R346, R347). -/
def completionWords (h : Half) (op st : BitVec 8) (t : Tick) (results : List Word) : List Word :=
  [put 64 63 32 h.toNat ||| put 64 31 24 op.toNat ||| put 64 23 16 st.toNat ||| bit1 64 15 true, t] ++ results

/-- The command goes on where it came from, once all have answered. -/
def State.forwardEnds (s : State) (f : Forward) (op : BitVec 8) : State :=
  let s1 := s.modJup fun j => { j with forwards := j.forwards.filter fun x => !decide (x.handle = f.handle ∧ x.fromPort = f.fromPort) }
  if f.fromPort = ownPort then
    (match s1.jup.bringIns.find? fun b => decide (b.handle = f.handle ∧ b.phase = 0 ∧ op = opRestore) with
     | some b => if f.status = stOk then (s1.noteOverride b).bringRestored b else s1.bringFails b f.status
     | none => s1.post .jup f.handle f.status f.results)
  else s1.send .jup f.fromPort (localMsg mtCompletion (completionWords f.handle op f.status (s1.now .jup) f.results))

/-- A part of a forwarded command is over: from a port, or here. -/
def State.answered (s : State) (h : Half) (port : Nat) (op st : BitVec 8) (results : List Word) : State :=
  match s.jup.forwards.find? fun f => decide (f.handle = h) && f.left.contains port with
  | none => s
  | some f =>
    let f' : Forward := { f with left := f.left.filter fun p => !decide (p = port), status := worse f.status st,
                                 results := joinResults op f.results results }
    if f'.left.isEmpty then s.forwardEnds f' op
    else s.modJup fun j => { j with forwards := updFirst (fun x => decide (x = f)) (fun _ => f') j.forwards }

def State.completionIn (s : State) (port : Nat) (ws : List Word) : State :=
  s.answered ((nthW ws 0).extractLsb' 32 32) port ((nthW ws 0).extractLsb' 24 8) ((nthW ws 0).extractLsb' 16 8) (ws.drop 2)

def execCompletionMsgRx (port : Nat) (words : List Word) (s : State) : Res :=
  .next ((s.consume .jup port mtCompletion words).completionIn port words)

end Sys2Proof.Machine
end

