-- ==== Sys2Proof/Machine/Shutter.lean ====
section
/-! DEFINITION. Shutters and plates (R383 to R391, R474). -/
namespace Sys2Proof.Machine
open Host

/-! ### Answers (R386) -/

/-- Results of a device that latched, or did not: DELIVERED and EXPECTED, then SHUTTER_ID. -/
def shutterResults (id : BitVec 16) (latched : Bool) : List Word := [bit1 64 32 latched ||| 1, put 64 63 48 id.toNat]

/-- A device's own answer: to the link the Shutter came by, or into the count of those below. -/
def State.shutterAnswer (s : State) (d : Dev) (id : BitVec 16) (h : Half) (link : Nat) (latched : Bool) : State :=
  match d with
  | .tsu => s.send .tsu link (localMsg mtCompletion (completionWords h opShutter stOk (s.now .tsu) (shutterResults id latched)))
  | .jup => s.answered h ownPort opShutter stOk (shutterResults id latched)

/-- Links on which a Jupin sends a Shutter on: every down, peer and hot-standby link in SERVICE but the one it came by. -/
def State.shutterLinks (s : State) (from_ : Nat) : List Nat :=
  ((List.range 88) ++ [90, 91, 92, 93, 94, 95]).filter fun n => decide (n ≠ from_ ∧ (s.link .jup n).ctl.lstate = LState.service)

/-- A Shutter that a Jupin has: sent on, and its completions counted. -/
def State.shutterOn (s : State) (h : Half) (from_ : Nat) (words : List Word) : State :=
  let links := s.shutterLinks from_
  (s.sendAll .jup links (localMsg mtShutter words)).modJup fun j =>
    { j with forwards := j.forwards ++ [{ handle := h, fromPort := from_, left := links ++ [ownPort], status := stOk, results := [] }] }

/-- The Shutter waits for its tick; a late one is MISSED. -/
def State.shutterWait (s : State) (d : Dev) (id : BitVec 16) (set : BitVec 4) (tick : Tick) (h : Half) (link : Nat) : State :=
  if tick ≤ s.now d then (s.modShut d fun x => { x with missed := satInc x.missed }).shutterAnswer d id h link false
  else s.modShut d fun x => { x with waiting := x.waiting ++ [(id, set, tick, h, link)] }

/-! ### SHUTTER (R384) -/

def shutterWords (id : BitVec 16) (set : BitVec 4) (h : Half) (tick : Tick) : List Word :=
  [put 64 63 48 id.toNat ||| put 64 47 44 set.toNat ||| put 64 31 0 h.toNat, tick]
/-- Ticks that a Shutter needs to reach every device. -/
def shutterLead : Tick := 16384

/-- The SHUTTER_IDs that a device remembers. -/
def seenMax : Nat := 256
def State.noteShutter (s : State) (d : Dev) (id : BitVec 16) : State := s.modShut d fun x => { x with seen := (id :: x.seen).take seenMax }

def State.shutterMaster (s : State) (hd : Half) (tick : Tick) (set : BitVec 4) : State :=
  let id := s.jupC.shut.nextId
  (((s.modShut .jup fun x => { x with nextId := x.nextId + 1 }).noteShutter .jup id).shutterOn hd ownPort (shutterWords id set hd tick)).shutterWait
    .jup id set tick hd ownPort

/-- The link toward the time master from the other side of the root, or from the hot-standby: one of the links that lead to
it (R14). -/
def State.masterLink (s : State) (key : Nat) : Nat :=
  s.linkOf (s.pairLinks.getD (if s.side = 2 ∧ s.jup.masterB then 1 else 0) []) key

def execShutter (h : Hdr) (tick : Tick) (set : BitVec 4) (s : State) : Res :=
  .next (s.withHandle .jup h opShutter fun hd s =>
    if s.role ≠ 3 then s.post .jup hd stNotMaster []
    else if !s.jup.timeMaster then s.forwardCmd hd (s.masterLink hd.toNat) (cmdWords opShutter .self hd [tick, set.setWidth 64])
    else if tick < s.now .jup + shutterLead then s.post .jup hd stTooEarly []
    else s.shutterMaster hd tick set)

/-! ### SHUTTER_RX (R384, R385) -/

/-- A later copy of a Shutter is ignored; its sender's count ends with nothing. -/
def State.shutterAgain (s : State) (d : Dev) (link : Nat) (id : BitVec 16) (h : Half) : State :=
  match d with
  | .tsu => s
  | .jup => s.send .jup link (localMsg mtCompletion (completionWords h opShutter stOk (s.now .jup) [0, put 64 63 48 id.toNat]))

/-- The arrival of a Shutter carries a timestamp; its FRAC comes by no command and is free (R35; assumption 185). -/
def State.stampShutter (s : State) (d : Dev) : State :=
  s.fresh.2.modShut d fun x => { x with arrival := some { tick := s.now d, frac := s.fresh.1.setWidth 16 } }

def State.shutterIn (s : State) (d : Dev) (link : Nat) (ws : List Word) : State :=
  let id : BitVec 16 := (nthW ws 0).extractLsb' 48 16
  let set : BitVec 4 := (nthW ws 0).extractLsb' 44 4
  let h : Half := (nthW ws 0).extractLsb' 0 32
  if (s.com d).shut.seen.contains id then s.shutterAgain d link id h
  else
    let s1 := (s.noteShutter d id).stampShutter d
    (match d with | .tsu => s1 | .jup => s1.shutterOn h link ws).shutterWait d id set (nthW ws 1) h link

def execShutterRx (d : Dev) (link : Nat) (words : List Word) (s : State) : Res :=
  .next ((s.consume d link mtShutter words).shutterIn d link words)

/-! ### SHUTTER_LATCH (R385, R387, R388) -/

/-- The words that the die-side port returns are free (R430). -/
def State.freeWords : Nat → State → List Word × State
  | 0, s => ([], s)
  | n + 1, s => let r := s.fresh.2.freeWords n; (s.fresh.1 :: r.1, r.2)

/-- State of a block in a plate: 0 present, 1 absent, 2 masked. The die-side block does not survive DARK. -/
def State.blockState (s : State) (d : Dev) (b : Nat) : Nat :=
  if d = .tsu ∧ b = 15 ∧ s.tsu.power.state = 4 then 1
  else if (s.com d).sec.level = .sealed_ && jobDataBlock d b then 2 else 0

/-- The words of one block with its header. -/
def State.plateBlock (s : State) (d : Dev) (b : Nat) : List Word × State :=
  let st := s.blockState d b
  let r : List Word × State := if st ≠ 0 then ([], s) else if d = .tsu ∧ b = 15 then s.freeWords dieBlockWords else (s.blockWords d b, s)
  ((put 64 63 56 b ||| put 64 55 54 st ||| put 64 31 0 r.1.length) :: r.1, r.2)

def State.plateBlocks (d : Dev) : List Nat → State → List Word × State
  | [], s => ([], s)
  | b :: t, s => let r := s.plateBlock d b; let q := State.plateBlocks d t r.2; (r.1 ++ q.1, q.2)

def maskOf (l : List Nat) : BitVec 16 := l.foldl (fun a b => a ||| bit1 16 b true) 0

/-- The plate of a Shutter as the device stands. -/
def State.makePlate (s : State) (d : Dev) (id : BitVec 16) (set : BitVec 4) (tick : Tick) : Plate × State :=
  let mask := s.reg d (shutBase d + 4 * set.toNat)
  let blocks := (List.range 16).filter fun b => mask.getLsbD b
  let here := blocks.filter fun b => decide (s.blockState d b ≠ 1)
  let gone := blocks.filter fun b => decide (s.blockState d b = 1)
  let level := (s.com d).sec.level
  let masked := decide (level = .sealed_)
  let r := State.plateBlocks d blocks s
  let head : List Word :=
    [put 64 63 48 id.toNat ||| put 64 47 44 set.toNat ||| put 64 43 42 level.code ||| bit1 64 41 masked ||| put 64 31 0 (s.selfPath d).toNat, tick,
     put 64 63 48 (maskOf here).toNat ||| put 64 47 32 (maskOf gone).toNat ||| put 64 31 0 (3 + r.1.length)]
  ({ id := id, set := set, tick := tick, level := BitVec.ofNat 2 level.code, masked := masked, present := maskOf here, absent := maskOf gone,
     words := head ++ r.1, reading := false }, r.2)

/-- Plates a Jupin counts at most (R467 PLATES_HELD). -/
def platesHeldMax : Nat := 65535
/-- Keep a plate: in a TSU, in place of the older slot that is not being read. None: no slot is free. -/
def keepPlate (d : Dev) (p : Plate) (held : List Plate) : Option (List Plate) :=
  match d with
  | .jup => some ((p :: held).take platesHeldMax)
  | .tsu =>
    match held with
    | [a, b] => if !b.reading then some [p, a] else if !a.reading then some [p, b] else none
    | _ => some (p :: held)

/-- A TSU in a reset latches nothing (R385). -/
def State.inReset (s : State) (d : Dev) : Bool := decide (d = .tsu ∧ s.tsu.power.mainUp = false ∧ s.tsu.power.state ≠ 4)

def State.latchOne (s : State) (d : Dev) (e : BitVec 16 × BitVec 4 × Tick × Half × Nat) : State :=
  let s1 := s.modShut d fun x => { x with waiting := x.waiting.filter fun y => !decide (y = e) }
  if s.inReset d then s1.shutterAnswer d e.1 e.2.2.2.1 e.2.2.2.2 false
  else
    let (p, s2) := s1.makePlate d e.1 e.2.1 e.2.2.1
    match keepPlate d p (s2.com d).shut.plates with
    | none => (s1.modShut d fun x => { x with missed := satInc x.missed }).shutterAnswer d e.1 e.2.2.2.1 e.2.2.2.2 false
    | some ps =>
      let s3 := s2.modShut d fun x => { x with plates := ps, latched := satInc x.latched, lastLatch := some e.2.2.1 }
      (if d = .tsu then s3.emit .shutterLat else s3).shutterAnswer d e.1 e.2.2.2.1 e.2.2.2.2 true

/-- Each Shutter of this tick makes its own plate. -/
def execShutterLatch (d : Dev) (s : State) : Res :=
  .next ((((s.com d).shut.waiting.filter fun e => decide (e.2.2.1 = s.now d))).foldl (fun s e => s.latchOne d e) s)

/-! ### READ_PLATE (R387 to R389) -/

/-- One block of a plate, with its header word. -/
def blockOf (b : Nat) : Nat → List Word → List Word
  | 0, _ => []
  | _, [] => []
  | n + 1, h :: t =>
    let k := fld h 31 0
    if fld h 63 56 = b then h :: t.take k else blockOf b n (t.drop k)

/-- What READ_PLATE writes: every block, or one behind the header words. -/
def plateRead (p : Plate) (block : BitVec 8) : List Word :=
  if block = 0xFF then p.words else p.words.take 3 ++ blockOf block.toNat 17 (p.words.drop 3)

def State.plateFor (s : State) (d : Dev) (archived : Option (BitVec 32)) (set : BitVec 4) : Option Plate :=
  match archived with
  | none => (s.com d).shut.plates.find? fun p => decide (p.set = set)
  | some path => ((s.com d).shut.archive.find? fun e => decide (e.1 = path ∧ e.2.set = set)).map Prod.snd

def execReadPlate (d : Dev) (h : Hdr) (archived : Option (BitVec 32)) (set : BitVec 4) (block : BitVec 8) (addr : BitVec 48) (s : State) : Res :=
  .next (s.withHandle d h opReadPlate (light := true) fun hd s =>
    match s.plateFor d archived set with
    | none => s.post d hd stNoPlate []
    | some p =>
      let ws := plateRead p block
      (s.emit (.dma d (addr.setWidth 64) ws)).post d hd stOk [BitVec.ofNat 64 (8 * ws.length)])

end Sys2Proof.Machine
end

