-- ==== Sys2Proof/Machine/Board.lean ====
section
/-! DEFINITION. The Jupin on its board: the flash window, and the resets (R374, R440 to R443, R448, R468, R473). -/
namespace Sys2Proof.Machine
open Host

/-! ### The flash (R448, R473) -/

/-- Words of a record copy. -/
def recordWords : Nat := 33
def flashKey (copy : Bool) : Nat := if copy then 1 else 0
/-- A copy's words: free where nothing has read or written it. -/
def State.flashCopy (s : State) (copy : Bool) : List Word × State :=
  match tget [] s.jup.flash (flashKey copy) with
  | [] => s.freeWords recordWords
  | ws => (((List.range recordWords).map fun i => nthW ws i), s)
def State.setFlash (s : State) (copy : Bool) (ws : List Word) : State :=
  s.modJup fun j => { j with flash := tset [] j.flash (flashKey copy) ws }

/-- The operation that JP_FL_CTRL shows, with its ERR: 0 none, 1 INUSE, 2 FAILED. -/
def State.flashDone (s : State) (copy : Bool) (op : Nat) (err : BitVec 2) : State :=
  s.modJup fun j => { j with flErr := err, flCtrl := bit1 3 2 copy ||| BitVec.ofNat 3 op }

/-- Offset of the flash buffer in the BAR. -/
def flashBuffer : Nat := 0x60200
def State.bufferWords (s : State) : List Word := (List.range recordWords).map fun i => s.reg64 .jup (flashBuffer + 8 * i)

def State.readFlash (s : State) (copy : Bool) : State :=
  let r := s.flashCopy copy
  ((((List.range recordWords).zip r.1).foldl (fun s e => s.setReg64 .jup (flashBuffer + 8 * e.1) e.2) r.2).setFlash copy r.1).flashDone copy 1 0
def execFlashRead (copy : Bool) (s : State) : Res := .next (s.readFlash copy)

/-- An erase or program of the copy in force changes nothing but ERR. -/
def State.inForce (s : State) (copy : Bool) : Bool := decide (s.jup.lcCopy = some copy)

def State.eraseFlash (s : State) (copy : Bool) : State :=
  if s.inForce copy then s.flashDone copy 2 1
  else (s.setFlash copy (List.replicate recordWords (BitVec.allOnes 64))).flashDone copy 2 0
def execFlashErase (copy : Bool) (s : State) : Res := .next (s.eraseFlash copy)

/-- NOR flash: a program clears bits; a copy that does not then hold the buffer has FAILED. -/
def State.programFlash (s : State) (copy : Bool) : State :=
  if s.inForce copy then s.flashDone copy 3 1
  else
    let r := s.flashCopy copy
    let buf := s.bufferWords
    let new := (r.1.zip buf).map fun e => e.1 &&& e.2
    (r.2.setFlash copy new).flashDone copy 3 (if new = buf then 0 else 2)
def execFlashProgram (copy : Bool) (s : State) : Res := .next (s.programFlash copy)

/-! ### JP_POWER_ON_RESET (R440, R442, R468) -/

/-- STRAP_LO among the straps: SMB in bits 2 to 0, LO in 4 and 3, then PCIE_REV, FLASH_QUAD and TEST. -/
def strapLo (v : BitVec 8) : Nat := fld v 4 3

/-- The links after a power-on reset: only SESSION goes on. -/
def nextSessions (t : Table Link) : Table Link := t.map fun e => (e.1, { ctl := { session := e.2.ctl.session + 1 } })
/-- LO_FREQ resets to the strap; the stacks that fail training are mapped out (R272, R454). -/
def strapRegs (v : BitVec 8) (failed : BitVec 24) : Table Half :=
  tset (regReset .jup 0x60080) (tset (regReset .jup (crBase .jup)) [] (crBase .jup)
    ((regReset .jup (crBase .jup) &&& 0xFFFFFF9F) ||| put 32 6 5 (strapLo v))) 0x60080 ((~~~failed).setWidth 32)

/-- Everything but the fuses, the flash and the levels of the pins returns to reset. -/
def State.jupPowerOn (s : State) (v : BitVec 8) (failed : BitVec 24) : State :=
  { s with jupC := { sec := { fuses := s.jupC.sec.fuses }, links := nextSessions s.jupC.links, regs := strapRegs v failed },
           jup := { flash := s.jup.flash, straps := v, mainLow := s.jup.mainLow, pcieReset := s.jup.pcieReset } }

/-- The straps and the stacks that fail training are the board's. STRAP_LO 3 is reserved (R9). -/
def execJpPowerOnReset (board : BitVec 8 × BitVec 24) (s : State) : Res :=
  if strapLo board.1 = 3 then .fault (.unpredictable "R9") else .next (s.jupPowerOn board.1 board.2)

/-! ### JP_MAIN_RESET (R443, R468) -/

/-- Registers that a main reset keeps: the time, Vernier and Clock Room ranges, and the security registers. -/
def mainKept (off : Nat) : Bool :=
  decide (0x80 ≤ off ∧ off < 0x100) || decide (0x10000 ≤ off ∧ off < 0x13000) || decide (0x20000 ≤ off ∧ off < 0x24000) ||
  decide (0x28000 ≤ off ∧ off < 0x29000)

/-- PG_MAIN falls. The image is gone, so only TIME is carried until one is sealed. -/
def State.mainFall (s : State) : State :=
  let c := s.jupC
  { s with jupC := { time := c.time, cr := c.cr, convs := c.convs, convCtl := c.convCtl, ringCount := c.ringCount,
                     links := c.links.map fun e => (e.1, { time := e.2.time, asym := e.2.asym, ctl := { session := e.2.ctl.session } }),
                     sec := { c.sec with sealedImg := false, imageDigest := 0, evalOnly := false },
                     regs := c.regs.filter fun e => mainKept e.1 },
           jup := { flash := s.jup.flash, lcCopy := s.jup.lcCopy, straps := s.jup.straps, mainLow := true, pcieReset := s.jup.pcieReset } }

/-- PG_MAIN rises: every link retrains with a new SESSION. -/
def State.mainRise (s : State) : State :=
  let s1 := s.modJup fun j => { j with mainLow := false }
  s1.modCom .jup fun c => { c with links := c.links.map fun e =>
    (e.1, { e.2 with ctl := { e.2.ctl with session := e.2.ctl.session + 1, lstate := .train, since := c.time.htc } }) }

def execJpMainReset (rise : Bool) (s : State) : Res :=
  if rise then s.due s.jup.mainLow State.mainRise else .next s.mainFall

/-! ### PERST (R442) -/

/-- Registers of the endpoint itself: MSI-X. -/
def endpointReg (off : Nat) : Bool := decide (0x7F000 ≤ off ∧ off < 0x80000)

/-- PERST_N low resets the endpoint; its BAR is unreachable until it rises. Commands already accepted go on. -/
def execPerst (level : Bool) (s : State) : Res :=
  .next (if level then s.modJup fun j => { j with pcieReset := false }
         else (s.modCom .jup fun c => { c with regs := c.regs.filter fun e => !endpointReg e.1 }).modJup fun j => { j with pcieReset := true })

end Sys2Proof.Machine
end

