-- ==== Sys2Proof/Machine/Submit.lean ====
section
/-! DEFINITION. Writes through the register windows, the command ports behind them, and the journal append window (R341, R342,
R348, R360, R433, R461, R467). -/
namespace Sys2Proof.Machine
open Host

/-! ### Command words (R341, R342, R348) -/

/-- The form of a command: the devices and the TKINDs that take it, and the least and most argument words. -/
structure CmdForm where
  tsu : Bool
  jup : Bool
  kinds : List Nat
  least : Nat
  most : Nat
  deriving DecidableEq, Repr

def cmdForm (op : BitVec 8) : Option CmdForm :=
  match op.toNat with
  | 0x01 => some { tsu := false, jup := true, kinds := [3], least := 1, most := 1 }
  | 0x02 => some { tsu := true, jup := true, kinds := [0], least := 4, most := 4 }
  | 0x03 => some { tsu := true, jup := true, kinds := [0], least := 0, most := 0 }
  | 0x04 => some { tsu := false, jup := true, kinds := [0], least := 3, most := 3 }
  | 0x10 => some { tsu := true, jup := true, kinds := [0], least := 3, most := 3 }
  | 0x11 => some { tsu := false, jup := true, kinds := [1], least := 2, most := 2 }
  | 0x20 => some { tsu := false, jup := true, kinds := [2], least := 2, most := 2 }
  | 0x21 => some { tsu := false, jup := true, kinds := [2], least := 0, most := 0 }
  | 0x22 => some { tsu := false, jup := true, kinds := [2], least := 1, most := 1 }
  | 0x23 => some { tsu := false, jup := true, kinds := [2], least := 1, most := 1 }
  | 0x24 => some { tsu := false, jup := true, kinds := [2], least := 2, most := 2 }
  | 0x25 => some { tsu := false, jup := true, kinds := [2], least := 1, most := 1 }
  | 0x26 => some { tsu := false, jup := true, kinds := [1], least := 2, most := 2 }
  | 0x27 => some { tsu := false, jup := true, kinds := [2], least := 3, most := 3 }
  | 0x28 => some { tsu := false, jup := true, kinds := [2], least := 3, most := 3 }
  | 0x30 => some { tsu := false, jup := true, kinds := [0], least := 2, most := 2 }
  | 0x31 => some { tsu := true, jup := true, kinds := [0, 1], least := 3, most := 3 }
  | 0x40 => some { tsu := true, jup := true, kinds := [0], least := 1, most := 14 }
  | 0x41 => some { tsu := true, jup := true, kinds := [0, 1, 2], least := 1, most := 30 }
  | 0x42 => some { tsu := true, jup := true, kinds := [0], least := 2, most := 2 }
  | 0x43 => some { tsu := true, jup := true, kinds := [0], least := 1, most := 1 }
  | _ => none

/-- The target of word 1 under a TKIND. -/
def targetOf (kind : Nat) (w : Word) : Target :=
  match kind with
  | 0 => .self
  | 1 => .path (w.extractLsb' 0 32)
  | 2 => jobTarget w
  | _ => .port (w.extractLsb' 0 7)

/-- Job and first and last rank of a target, its path, its port. -/
def targetJob : Target → BitVec 15 | .job j _ _ => j | _ => 0
def targetPath : Target → BitVec 32 | .path p => p | _ => 0
def targetPort : Target → BitVec 7 | .port p => p | _ => 0

/-- Destination of LOAD_IMAGE: bit 8 names a generation, of the port in [6:0]. -/
def loadDest (w : Word) : LoadDest := if w.getLsbD 8 then .generation (w.extractLsb' 0 7) else .self
/-- JOB or DOMAIN of a fence, as in R253. -/
def fenceJob (w : Word) : Option (BitVec 15) := if w.getLsbD 48 then none else some (w.extractLsb' 49 15)

/-- A sequence that the port has checked is carried out. What a child reports of its selection is free. -/
def State.runCmd (s : State) (d : Dev) (h : Hdr) (op : BitVec 8) (t : Target) (a : List Word) : Res :=
  let w := nthW a
  match op.toNat with
  | 0x01 => execMeasureLink h (targetPort t) ((w 0).getLsbD 0) (s.fresh.1.getLsbD 0) s.fresh.2
  | 0x02 => execCalVernier d h (w 0).toNat (w 1).toNat ((w 2).getLsbD 0) ((w 3).getLsbD 0) s
  | 0x03 => execTimeResync d h s
  | 0x04 => execSetTod h ((w 0).setWidth 48) ((w 1).setWidth 16) ((w 2).setWidth 2) s
  | 0x10 => execLoadImage d h (w 0).toNat (loadDest (w 2)) s
  | 0x11 => execRestore h (targetPath t) ((w 0).setWidth 3) ((w 1).getLsbD 0) s
  | 0x20 => execStartJob h (targetJob t) (w 0).toNat ((w 1).setWidth 32) s
  | 0x21 => execTeardownJob h (targetJob t) s
  | 0x22 => execHoldJob h (targetJob t) (w 0) s
  | 0x23 => execResumeJob h (targetJob t) (w 0) s
  | 0x24 => execStretchJob h (targetJob t) (w 0) ((w 1).setWidth 20) s
  | 0x25 => execSetQuota h (targetJob t) (w 0) s
  | 0x26 => execFence h (targetPath t) (fenceJob (w 0)) (w 1) s
  | 0x27 => execBringIn h (targetJob t) ((w 0).setWidth 17) ((w 1).setWidth 32) ((w 2).getLsbD 0) s
  | 0x28 => execRemapRank h (targetJob t) ((w 0).setWidth 17) ((w 1).setWidth 32) (Fin.ofNat 8 (w 2).toNat) s
  | 0x30 => execShutter h (w 0) ((w 1).setWidth 4) s
  | 0x31 => execReadPlate d h (match t with | .path p => some p | _ => none) ((w 0).setWidth 4) ((w 1).setWidth 8) ((w 2).setWidth 48) s
  | 0x40 => execCgBegin d h (a.map stageTarget) s
  | 0x41 => execCgStage d h ((w 0).setWidth 32) t ((a.drop 1).map stagedOf) s
  | 0x42 => execCgCommit d h ((w 0).setWidth 32) (w 1) s
  | 0x43 => execCgAbort d h ((w 0).setWidth 32) s
  | _ => .next s

/-- The header's checks, in the order of the REFUSE codes (R341, R360). Reserved bits that are not zero are unpredictable (R9);
HANDLE is the port's to fill in, whatever software wrote there (R342). -/
def State.submitWords (s : State) (d : Dev) (ctx : BitVec 8) (ws : List Word) : Res :=
  let w0 := nthW ws 0
  let op : BitVec 8 := w0.extractLsb' 56 8
  let len := fld w0 55 51 + 1
  let kind := fld w0 33 32
  let h : Hdr := { ctx := ctx, override := w0.getLsbD 50, notify := w0.getLsbD 49 }
  if fld w0 48 34 ≠ 0 then .fault (.unpredictable "R9")
  else match cmdForm op with
    | none => .next (s.refuse d h rfBadOpcode)
    | some f =>
      if !(match d with | .tsu => f.tsu | .jup => f.jup) then .next (s.refuse d h rfBadOpcode)
      else if len < 2 + f.least ∨ 2 + f.most < len then .next (s.refuse d h rfBadLen)
      else if !f.kinds.contains kind then .next (s.refuse d h rfBadAddr)
      else s.runCmd d h op (targetOf kind (nthW ws 1)) ((ws.take len).drop 2)

/-! ### Command ports (R360, R467) -/

/-- Base of command port `n`. -/
def cmdBase (d : Dev) (n : Nat) : Nat := match d with | .tsu => 0x5000 | .jup => 0x4000 + 0x400 * n
/-- The port whose CTRL stands at an offset. -/
def ctrlPort (d : Dev) (off : Nat) : Option Nat :=
  (List.range (match d with | .tsu => 1 | .jup => 16)).find? fun n => decide (off = cmdBase d n + 0x100)

/-- JTAG submits through the same registers, under its own context: what the port shows is that context's outcome (R343). -/
def State.jtagPort (s : State) (d : Dev) (n : Nat) : State :=
  let p := s.cmdPort d (portOfCtx 0x20)
  (s.modPort d n fun q => { q with refuse := p.refuse, handle := if p.handle = 0 then q.handle else p.handle }).modPort d (portOfCtx 0x20) fun _ => {}

/-- GO with bit 0 of CTRL. -/
def State.goWrite (s : State) (d : Dev) (src : Src) (n : Nat) : Res :=
  let ws := (List.range 32).map fun i => s.reg64 d (cmdBase d n + 8 * i)
  if src = .jtag then
    match s.submitWords d 0x20 ws with
    | .next s1 => .next (s1.jtagPort d n)
    | r => r
  else s.submitWords d (BitVec.ofNat 8 (1 + n)) ws

/-! ### REGISTER_WRITE (R433, R461) -/

/-- JP_FL_CTRL: GO runs OP on COPY. OP 0 is reserved (R9). -/
def State.flashCtrl (s : State) (v : Half) : Res :=
  let copy := v.getLsbD 4
  if !v.getLsbD 0 then .next (s.modJup fun j => { j with flCtrl := v.extractLsb' 2 3 })
  else match fld v 3 2 with
    | 1 => execFlashRead copy s
    | 2 => execFlashErase copy s
    | 3 => execFlashProgram copy s
    | _ => .fault (.unpredictable "R9")

/-- The job record whose BUDGET stands at an offset (R470). -/
def budgetRec (off : Nat) : Option Nat :=
  if 0xD80000 ≤ off ∧ off < 0xDC0000 ∧ (off - 0xD80000) % 0x100 = 0x1C then some ((off - 0xD80000) / 0x100) else none
def State.budgetAt (s : State) (j : Nat) (v : Half) : Res :=
  let w := s.reg64 .jup (jobBase j)
  if w.getLsbD 0 then execBudgetWrite (w.extractLsb' 49 15) v s else .next (s.setReg .jup (jobBase j + 0x1C) v)

/-- The words with an effect that runs a command; else the register's own. -/
def State.portWrite (s : State) (d : Dev) (src : Src) (off : Nat) (v : Half) : Res :=
  if s.jtagBarred d src off then .next (s.denied d)
  else match ctrlPort d off with
    | some n =>
      if v &&& 0x7F00FF0E ≠ 0 then .fault (.unpredictable "R9")
      else if v.getLsbD 0 then s.goWrite d src n else s.regWrite d src off v
    | none =>
      if d = .jup ∧ off = 0x60100 then s.flashCtrl v
      else match (if d = .jup then budgetRec off else none) with
        | some j => s.budgetAt j v
        | none => s.regWrite d src off v

/-- A partial write strobe reaches no register of a TSU; PERST_N low and production test let none from the host reach the BAR
(R440, R442); and an unaligned access reaches none at all. -/
def State.unreached (s : State) (d : Dev) (src : Src) (off : Nat) (strobe : BitVec 4) : Bool :=
  decide (off % 4 ≠ 0) ||
  (match d with
   | .tsu => decide (strobe ≠ 0xF)
   | .jup => decide (src = .host) && (s.jup.pcieReset || s.testMode))

/-- An access acts when it is given: the CSR edge that carries it is the sender's (R88; assumption 195). -/
def execRegisterWrite (d : Dev) (src : Src) (off : Nat) (strobe : BitVec 4) (v : Half) (s : State) : Res :=
  if s.unreached d src off strobe then .next s else s.portWrite d src off v

/-! ### APPEND_WINDOW_WRITE (R273, R433) -/

/-- The words of a record: four of header and LEN of data. -/
def recordLen (ws : List Word) : Nat := 4 + fld (nthW ws 3) 31 16

/-- The record goes to the active rack Jupin of its job; nothing is framed before its words have arrived. -/
def State.frameAppend (s : State) (ws : List Word) : State :=
  let job : BitVec 15 := (nthW ws 0).extractLsb' 49 15
  let rank : BitVec 17 := (nthW ws 0).extractLsb' 32 17
  let link := match s.chanOfRank job rank with | some c => s.upOf c | none => 0
  if ws.length < recordLen ws then s else s.send .tsu link (appendMsg job (ws.take (recordLen ws)))

def execAppendWindowWrite (words : List Word) (s : State) : Res := s.mainIn fun s => s.frameAppend words

end Sys2Proof.Machine
end

