-- ==== Sys2Proof/Machine/Dispatch.lean ====
section
/-! DEFINITION. One arm for each command: the direct call of its meaning. -/
namespace Sys2Proof.Machine
open Sys2Proof

/-- What a command does, to everything but the queue. -/
def exec (i : Instr) (s : State) : Host.Outcome State Fault Refusal :=
  match i with
  | .timeCodeSend d link => Sys2Proof.Machine.execTimeCodeSend d link s
  | .timeCodeRx d link code replayed peOk poOk => Sys2Proof.Machine.execTimeCodeRx d link code replayed peOk poOk s
  | .parentLost d link => Sys2Proof.Machine.execParentLost d link s
  | .timeParentSkew d => Sys2Proof.Machine.execTimeParentSkew d s
  | .timeMasterChange masterLost otherLost => Sys2Proof.Machine.execTimeMasterChange masterLost otherLost s
  | .timeLost d => Sys2Proof.Machine.execTimeLost d s
  | .coarseLoad d => Sys2Proof.Machine.execCoarseLoad d s
  | .dwellEnd d => Sys2Proof.Machine.execDwellEnd d s
  | .crAcqFail d => Sys2Proof.Machine.execCrAcqFail d s
  | .timeResync d h => Sys2Proof.Machine.execTimeResync d h s
  | .mappingPublish => Sys2Proof.Machine.execMappingPublish s
  | .mappingRecordRx r => Sys2Proof.Machine.execMappingRecordRx r s
  | .mappingApply => Sys2Proof.Machine.execMappingApply s
  | .mappingHoldover => Sys2Proof.Machine.execMappingHoldover s
  | .setTod h taiSec utcOffset leap => Sys2Proof.Machine.execSetTod h taiSec utcOffset leap s
  | .ntpRequest mode key body => Sys2Proof.Machine.execNtpRequest mode key body s
  | .measureLink h port reflect childSelected => Sys2Proof.Machine.execMeasureLink h port reflect childSelected s
  | .reflectComplete port pairs => Sys2Proof.Machine.execReflectComplete port pairs s
  | .asymSwapGo d link => Sys2Proof.Machine.execAsymSwapGo d link s
  | .asymBankSwap d link => Sys2Proof.Machine.execAsymBankSwap d link s
  | .vernierEdge d conv code e => Sys2Proof.Machine.execVernierEdge d conv code e s
  | .timestampDelivered d conv => Sys2Proof.Machine.execTimestampDelivered d conv s
  | .calHit d conv code => Sys2Proof.Machine.execCalHit d conv code s
  | .vernierBuildEnd d conv => Sys2Proof.Machine.execVernierBuildEnd d conv s
  | .vernierTableSwap d conv => Sys2Proof.Machine.execVernierTableSwap d conv s
  | .vernierCalStale d conv => Sys2Proof.Machine.execVernierCalStale d conv s
  | .vrnSwapGo d conv check => Sys2Proof.Machine.execVrnSwapGo d conv check s
  | .calVernier d h first last fg hold => Sys2Proof.Machine.execCalVernier d h first last fg hold s
  | .tempUpdate d t => Sys2Proof.Machine.execTempUpdate d t s
  | .refEdgeMissing d ref => Sys2Proof.Machine.execRefEdgeMissing d ref s
  | .wtrExpiry d ref => Sys2Proof.Machine.execWtrExpiry d ref s
  | .clockQualitySend port => Sys2Proof.Machine.execClockQualitySend port s
  | .clockQualityRx d link word => Sys2Proof.Machine.execClockQualityRx d link word s
  | .qlTimeout d ref => Sys2Proof.Machine.execQlTimeout d ref s
  | .esmcPduRx input mac valid ql => Sys2Proof.Machine.execEsmcPduRx input mac valid ql s
  | .esmcTimeout input => Sys2Proof.Machine.execEsmcTimeout input s
  | .refSelect d => Sys2Proof.Machine.execRefSelect d s
  | .crForce d ref => Sys2Proof.Machine.execCrForce d ref s
  | .crManual d ref => Sys2Proof.Machine.execCrManual d ref s
  | .crClear d => Sys2Proof.Machine.execCrClear d s
  | .crLockout d ref => Sys2Proof.Machine.execCrLockout d ref s
  | .crUnlock d ref => Sys2Proof.Machine.execCrUnlock d ref s
  | .crWtrClear d ref => Sys2Proof.Machine.execCrWtrClear d ref s
  | .crCmdApply d => Sys2Proof.Machine.execCrCmdApply d s
  | .cvBlockAverage d => Sys2Proof.Machine.execCvBlockAverage d s
  | .pstepWrite d step => Sys2Proof.Machine.execPstepWrite d step s
  | .bwForce d en code => Sys2Proof.Machine.execBwForce d en code s
  | .pulseEdgeOut d k => Sys2Proof.Machine.execPulseEdgeOut d k s
  | .alignEdgeMissing d k => Sys2Proof.Machine.execAlignEdgeMissing d k s
  | .bind c => Sys2Proof.Machine.execBind c s
  | .arm c => Sys2Proof.Machine.execArm c s
  | .resume c => Sys2Proof.Machine.execResume c s
  | .hold c => Sys2Proof.Machine.execHold c s
  | .unbind c => Sys2Proof.Machine.execUnbind c s
  | .startTickReached c => Sys2Proof.Machine.execStartTickReached c s
  | .resumeTickReached c => Sys2Proof.Machine.execResumeTickReached c s
  | .launch c => Sys2Proof.Machine.execLaunch c s
  | .wait c => Sys2Proof.Machine.execWait c s
  | .branch c => Sys2Proof.Machine.execBranch c s
  | .loop c => Sys2Proof.Machine.execLoop c s
  | .vote c coreRun => Sys2Proof.Machine.execVote c coreRun s
  | .signal c eg => Sys2Proof.Machine.execSignal c eg s
  | .commit c => Sys2Proof.Machine.execCommit c s
  | .idle c => Sys2Proof.Machine.execIdle c s
  | .halt c => Sys2Proof.Machine.execHalt c s
  | .waitSatisfied w => Sys2Proof.Machine.execWaitSatisfied w s
  | .syncTimeout w => Sys2Proof.Machine.execSyncTimeout w s
  | .stepWatchdog w => Sys2Proof.Machine.execStepWatchdog w s
  | .stbyVerify c check => Sys2Proof.Machine.execStbyVerify c check s
  | .verifyDone c => Sys2Proof.Machine.execVerifyDone c s
  | .bankSwapGo c next src => Sys2Proof.Machine.execBankSwapGo c next src s
  | .selectorWrite c n hi v src => Sys2Proof.Machine.execSelectorWrite c n hi v src s
  | .stepStart c tick index => Sys2Proof.Machine.execStepStart c tick index s
  | .stepHold c step quota => Sys2Proof.Machine.execStepHold c step quota s
  | .stepStretch c step stretch => Sys2Proof.Machine.execStepStretch c step stretch s
  | .stationBusyReport c => Sys2Proof.Machine.execStationBusyReport c s
  | .overrunReport c core station cycles => Sys2Proof.Machine.execOverrunReport c core station cycles s
  | .captureWrite c stream slot word last data => Sys2Proof.Machine.execCaptureWrite c stream slot word last data s
  | .checkpointDelta c delta => Sys2Proof.Machine.execCheckpointDelta c delta s
  | .digestUpdate c stream crc busy => Sys2Proof.Machine.execDigestUpdate c stream crc busy s
  | .voteContributionRx port words => Sys2Proof.Machine.execVoteContributionRx port words s
  | .votePartialRx port p => Sys2Proof.Machine.execVotePartialRx port p s
  | .voteDeadline group => Sys2Proof.Machine.execVoteDeadline group s
  | .voteResultRx words => Sys2Proof.Machine.execVoteResultRx words s
  | .selectorValid c field => Sys2Proof.Machine.execSelectorValid c field s
  | .resultLateDelivery port job rank gate commitTick => Sys2Proof.Machine.execResultLateDelivery port job rank gate commitTick s
  | .coreSet r eg => Sys2Proof.Machine.execCoreSet r eg s
  | .coreClear r eg => Sys2Proof.Machine.execCoreClear r eg s
  | .coreGive r eg => Sys2Proof.Machine.execCoreGive r eg s
  | .coreTake r => Sys2Proof.Machine.execCoreTake r s
  | .coreWaitSet r => Sys2Proof.Machine.execCoreWaitSet r s
  | .coreWaitClear r => Sys2Proof.Machine.execCoreWaitClear r s
  | .coreWaitCount r => Sys2Proof.Machine.execCoreWaitCount r s
  | .coreWaitTake r => Sys2Proof.Machine.execCoreWaitTake r s
  | .coreEnter r => Sys2Proof.Machine.execCoreEnter r s
  | .coreArrive r => Sys2Proof.Machine.execCoreArrive r s
  | .remoteSignalRx words => Sys2Proof.Machine.execRemoteSignalRx words s
  | .niWatchReport tag => Sys2Proof.Machine.execNiWatchReport tag s
  | .signalVisible tag => Sys2Proof.Machine.execSignalVisible tag s
  | .dbgSet core slot => Sys2Proof.Machine.execDbgSet core slot s
  | .dbgClear core slot => Sys2Proof.Machine.execDbgClear core slot s
  | .dbgPreset core slot v => Sys2Proof.Machine.execDbgPreset core slot v s
  | .dbgForceRelease core slot => Sys2Proof.Machine.execDbgForceRelease core slot s
  | .forceReleaseApply rc => Sys2Proof.Machine.execForceReleaseApply rc s
  | .drainDone => Sys2Proof.Machine.execDrainDone s
  | .localConjRelease rc => Sys2Proof.Machine.execLocalConjRelease rc s
  | .conjArrivalRx port words => Sys2Proof.Machine.execConjArrivalRx port words s
  | .conjReleaseRx words => Sys2Proof.Machine.execConjReleaseRx words s
  | .conjReleaseApply rc => Sys2Proof.Machine.execConjReleaseApply rc s
  | .timeoutRecordClear => Sys2Proof.Machine.execTimeoutRecordClear s
  | .frameRx d link frame => Sys2Proof.Machine.execFrameRx d link frame s
  | .ackTimeout d link => Sys2Proof.Machine.execAckTimeout d link s
  | .windowUpdateRx d link flow word => Sys2Proof.Machine.execWindowUpdateRx d link flow word s
  | .flowAbortRx d link word => Sys2Proof.Machine.execFlowAbortRx d link word s
  | .deliveryReportRx port words => Sys2Proof.Machine.execDeliveryReportRx port words s
  | .linkControlRx d link words => Sys2Proof.Machine.execLinkControlRx d link words s
  | .linkSignalDetect d link => Sys2Proof.Machine.execLinkSignalDetect d link s
  | .linkStateTimeout d link => Sys2Proof.Machine.execLinkStateTimeout d link s
  | .linkTrainRetry d link => Sys2Proof.Machine.execLinkTrainRetry d link s
  | .linkDown port => Sys2Proof.Machine.execLinkDown port s
  | .injPar d link src => Sys2Proof.Machine.execInjPar d link src s
  | .retrain d link => Sys2Proof.Machine.execRetrain d link s
  | .disable d link v => Sys2Proof.Machine.execDisable d link v s
  | .fenceRx d link words => Sys2Proof.Machine.execFenceRx d link words s
  | .fenceTick port => Sys2Proof.Machine.execFenceTick port s
  | .peerFenceRx words => Sys2Proof.Machine.execPeerFenceRx words s
  | .niFilterAck full => Sys2Proof.Machine.execNiFilterAck full s
  | .jpMemberLost side peerDownReported => Sys2Proof.Machine.execJpMemberLost side peerDownReported s
  | .jpOpTimeout entry => Sys2Proof.Machine.execJpOpTimeout entry s
  | .memoryUe at_ => Sys2Proof.Machine.execMemoryUe at_ s
  | .journalAppend port words => Sys2Proof.Machine.execJournalAppend port words s
  | .journalDurable record => Sys2Proof.Machine.execJournalDurable record s
  | .journalAgeOut job seqId => Sys2Proof.Machine.execJournalAgeOut job seqId s
  | .shadowAck job rank step => Sys2Proof.Machine.execShadowAck job rank step s
  | .loadImage d h stage dest => Sys2Proof.Machine.execLoadImage d h stage dest s
  | .imageSectionRx d frame => Sys2Proof.Machine.execImageSectionRx d frame s
  | .imageSeal d => Sys2Proof.Machine.execImageSeal d s
  | .restore h path sections gen => Sys2Proof.Machine.execRestore h path sections gen s
  | .restoreIdentityCheck port id => Sys2Proof.Machine.execRestoreIdentityCheck port id s
  | .restoreStreamRx words => Sys2Proof.Machine.execRestoreStreamRx words s
  | .restoreComplete port checkTick => Sys2Proof.Machine.execRestoreComplete port checkTick s
  | .startJob h job stage margin => Sys2Proof.Machine.execStartJob h job stage margin s
  | .teardownJob h job => Sys2Proof.Machine.execTeardownJob h job s
  | .holdJob h job step => Sys2Proof.Machine.execHoldJob h job step s
  | .resumeJob h job tick => Sys2Proof.Machine.execResumeJob h job tick s
  | .stretchJob h job step stretch => Sys2Proof.Machine.execStretchJob h job step stretch s
  | .setQuota h job bytes => Sys2Proof.Machine.execSetQuota h job bytes s
  | .fence h path job tick => Sys2Proof.Machine.execFence h path job tick s
  | .bringIn h job rank spare dual => Sys2Proof.Machine.execBringIn h job rank spare dual s
  | .remapRank h job rank path channel => Sys2Proof.Machine.execRemapRank h job rank path channel s
  | .shutter h tick set => Sys2Proof.Machine.execShutter h tick set s
  | .readPlate d h archived set block addr => Sys2Proof.Machine.execReadPlate d h archived set block addr s
  | .cgBegin d h members => Sys2Proof.Machine.execCgBegin d h members s
  | .cgStage d h handle target writes => Sys2Proof.Machine.execCgStage d h handle target writes s
  | .cgCommit d h handle tick => Sys2Proof.Machine.execCgCommit d h handle tick s
  | .cgAbort d h handle => Sys2Proof.Machine.execCgAbort d h handle s
  | .cgStageMsg d words => Sys2Proof.Machine.execCgStageMsg d words s
  | .cgPrepareMsg d words routersReady => Sys2Proof.Machine.execCgPrepareMsg d words routersReady s
  | .cgAnswerMsg d link words => Sys2Proof.Machine.execCgAnswerMsg d link words s
  | .cgCommitMsg d words => Sys2Proof.Machine.execCgCommitMsg d words s
  | .cgAbortMsg d words => Sys2Proof.Machine.execCgAbortMsg d words s
  | .cgPrepareDeadline d handle => Sys2Proof.Machine.execCgPrepareDeadline d handle s
  | .cgApply d handle => Sys2Proof.Machine.execCgApply d handle s
  | .cgDeliveryCheck port handle => Sys2Proof.Machine.execCgDeliveryCheck port handle s
  | .cgPost d handle => Sys2Proof.Machine.execCgPost d handle s
  | .completionMsgRx port words => Sys2Proof.Machine.execCompletionMsgRx port words s
  | .completionFree d entry => Sys2Proof.Machine.execCompletionFree d entry s
  | .faultReportRx port words => Sys2Proof.Machine.execFaultReportRx port words s
  | .gradingWindowClose d block code => Sys2Proof.Machine.execGradingWindowClose d block code s
  | .graceExpiry d block => Sys2Proof.Machine.execGraceExpiry d block s
  | .faultClear d block => Sys2Proof.Machine.execFaultClear d block s
  | .severeClear d block => Sys2Proof.Machine.execSevereClear d block s
  | .fltInjArm table c word src => Sys2Proof.Machine.execFltInjArm table c word src s
  | .deferredExpulsion => Sys2Proof.Machine.execDeferredExpulsion s
  | .jobRerun job => Sys2Proof.Machine.execJobRerun job s
  | .copyDigestCompare job rank partner spare => Sys2Proof.Machine.execCopyDigestCompare job rank partner spare s
  | .recomputeMatch job rank spare digest => Sys2Proof.Machine.execRecomputeMatch job rank spare digest s
  | .recomputeLimit job rank => Sys2Proof.Machine.execRecomputeLimit job rank s
  | .supplyWarn => Sys2Proof.Machine.execSupplyWarn s
  | .supplyWarnClear sumsOk => Sys2Proof.Machine.execSupplyWarnClear sumsOk s
  | .brownoutFence => Sys2Proof.Machine.execBrownoutFence s
  | .fabricStaleGen c => Sys2Proof.Machine.execFabricStaleGen c s
  | .dbgChal d => Sys2Proof.Machine.execDbgChal d s
  | .dbgOpen d => Sys2Proof.Machine.execDbgOpen d s
  | .debugTokenChecked d => Sys2Proof.Machine.execDebugTokenChecked d s
  | .dbgClose d => Sys2Proof.Machine.execDbgClose d s
  | .debugSessionExpiry d => Sys2Proof.Machine.execDebugSessionExpiry d s
  | .dbgStop c => Sys2Proof.Machine.execDbgStop c s
  | .dbgContinue c => Sys2Proof.Machine.execDbgContinue c s
  | .lifecycleRead d copy0 copy1 => Sys2Proof.Machine.execLifecycleRead d copy0 copy1 s
  | .shutterRx d link words => Sys2Proof.Machine.execShutterRx d link words s
  | .shutterLatch d => Sys2Proof.Machine.execShutterLatch d s
  | .flashRead copy => Sys2Proof.Machine.execFlashRead copy s
  | .flashErase copy => Sys2Proof.Machine.execFlashErase copy s
  | .flashProgram copy => Sys2Proof.Machine.execFlashProgram copy s
  | .fwVersionWrite v => Sys2Proof.Machine.execFwVersionWrite v s
  | .wakeStart => Sys2Proof.Machine.execWakeStart s
  | .pmStateChange state => Sys2Proof.Machine.execPmStateChange state s
  | .lateWake => Sys2Proof.Machine.execLateWake s
  | .wakeReportRx port words => Sys2Proof.Machine.execWakeReportRx port words s
  | .powerOnReset => Sys2Proof.Machine.execPowerOnReset s
  | .mainRailFall => Sys2Proof.Machine.execMainRailFall s
  | .dieResetInput pllLoss => Sys2Proof.Machine.execDieResetInput pllLoss s
  | .dieRst => Sys2Proof.Machine.execDieRst s
  | .chRst c => Sys2Proof.Machine.execChRst c s
  | .linkRst u => Sys2Proof.Machine.execLinkRst u s
  | .budgetWrite job watts => Sys2Proof.Machine.execBudgetWrite job watts s
  | .jpPowerOnReset board => Sys2Proof.Machine.execJpPowerOnReset board s
  | .jpMainReset rise => Sys2Proof.Machine.execJpMainReset rise s
  | .perst level => Sys2Proof.Machine.execPerst level s
  | .thermalWarn r value => Sys2Proof.Machine.execThermalWarn r value s
  | .thermalTrip r value => Sys2Proof.Machine.execThermalTrip r value s
  | .thermalClear r trip => Sys2Proof.Machine.execThermalClear r trip s
  | .portReturnService port => Sys2Proof.Machine.execPortReturnService port s
  | .logFree n => Sys2Proof.Machine.execLogFree n s
  | .divLogClear => Sys2Proof.Machine.execDivLogClear s
  | .injDigestArm group src => Sys2Proof.Machine.execInjDigestArm group src s
  | .indexedWindowAccess d src w data write => Sys2Proof.Machine.execIndexedWindowAccess d src w data write s
  | .htcRead d => Sys2Proof.Machine.execHtcRead d s
  | .splitReadLatch d off => Sys2Proof.Machine.execSplitReadLatch d off s
  | .registerWrite d src off strobe v => Sys2Proof.Machine.execRegisterWrite d src off strobe v s
  | .frameLaunch d link => Sys2Proof.Machine.execFrameLaunch d link s
  | .cvUpdate d => Sys2Proof.Machine.execCvUpdate d s
  | .trainLock d link => Sys2Proof.Machine.execTrainLock d link s
  | .frameLock d link => Sys2Proof.Machine.execFrameLock d link s
  | .laneLoss d link => Sys2Proof.Machine.execLaneLoss d link s
  | .streamEnd c => Sys2Proof.Machine.execStreamEnd c s
  | .mainResetRelease => Sys2Proof.Machine.execMainResetRelease s
  | .appendWindowWrite words => Sys2Proof.Machine.execAppendWindowWrite words s

end Sys2Proof.Machine
end

