-- ==== Sys2Proof/Machine/Tick.lean ====
section
/-! DEFINITION. One CORE tick: what happens with time alone when no command waits (R34, R175, R322, R324, R348, R393; assumption 2). -/
namespace Sys2Proof.Machine

/-- The counters advance (R34). -/
def State.countTick (s : State) : State :=
  (s.modTime .tsu fun t => { t with htc := t.htc + 1 }).modTime .jup fun t => { t with htc := t.htc + 1 }

/-- A power-on reset is over, and tsu_main_rst_n has been low for one tick more (R402, R412, R414). -/
def State.countReset (s : State) : State :=
  s.modPower fun p => { p with por := false, mainHold := if p.mainUp then 64 else p.mainHold - 1 }

/-- What the end of a tick settles: the slots of the VOTEs judged on it, the debug writes accepted before it, the responses to
the cores, the matches of spares (R209, R230, R334, R418, R422). -/
def State.endTick (s : State) : State := s.judgeVotes.dbgDue.parityStop.answerCores.settleMatches

/-- Ring-oscillator edges in the last 65,536 ticks: free, and 0 while the ring is off (R70, R85). -/
def State.countRing (s : State) (d : Dev) : State :=
  if s.ringEn d then
    (if (s.now d).toNat % 65536 = 0 then s.fresh.2.modCom d fun c => { c with ringCount := s.fresh.1.setWidth 32 } else s)
  else s.modCom d fun c => { c with ringCount := 0 }

/-- The held signals of the channels whose fence tick this is go (R214). -/
def State.dropFenceTick (s : State) : State :=
  s.dropHeld (chanNums.filter fun c => decide ((s.chan c).fenceTick = some (s.now .tsu)))

/-- Contributions whose framing is over leave (R175). -/
def State.sendDueVotes (s : State) : State :=
  chanNums.foldl (fun s c =>
    let due := (s.chan c).prog.unsent.filter fun u => decide (u.due = s.now .tsu)
    if due.isEmpty then s
    else (due.foldl (fun s u => s.sendVote c u.words) s).modProg c fun p =>
      { p with unsent := p.unsent.filter fun u => !decide (u.due = s.now .tsu) }) s

/-- A level code that still holds latches again after a clear, and is reported again (R322). -/
def State.relatchBlock (s : State) (d : Dev) (b : Nat) : State :=
  let x := s.fblock d b
  match x.levels with
  | [] => s.modBlock d b fun x => { x with relatch := false }
  | (code, ctx) :: _ =>
    if x.valid then s.modBlock d b fun x => { x with relatch := false }
    else
      let s1 := s.modBlock d b fun x => { x.latch (s.now d) code ctx with relatch := false }
      s1.report d (s1.reportWords d code b 0 x.esc false (s.now d) ctx (tget {} x.grades code.toNat).count)
def State.relatchAll (s : State) (d : Dev) : State :=
  ((s.com d).blocks.filter fun (_, x) => x.relatch).foldl (fun s (k, _) => s.relatchBlock d k) s

/-- A TIME_RESYNC that has not reached LOCKED 2^30 ticks after its acceptance is posted TIMEOUT (R348). -/
def State.resyncTimeout (s : State) (d : Dev) : State :=
  match (s.com d).time.resync with
  | some (h, t) =>
    if t.toNat + 2 ^ 30 ≤ (s.now d).toNat then (s.modTime d fun x => { x with resync := none }).post d h stTimeout [0] else s
  | none => s

/-- Map classes of the ports that the image names spare ports. -/
def State.spareClasses (s : State) : List Nat :=
  (((List.range 88).filter fun p => (s.reg .jup (portHealthOff p)).getLsbD 29).map s.portClass).eraseDups
/-- SPARE_FLOOR holds at a rack pair while the spares of a class are at or below its floor; each class that comes to its floor
is an event of it (R318, R324). -/
def State.checkFloor (s : State) : State :=
  if s.role ≠ 1 then s
  else
    let low := s.spareClasses.filter fun c => decide (s.sparesOf c ≤ s.floorOf c)
    let new := low.filter fun c => !s.jup.lowClasses.contains c
    let s1 := s.modJup fun j => { j with lowClasses := low }
    if low.isEmpty then s1.endLevel .jup blkRecord cSpareFloor {}
    else if s.jup.lowClasses.isEmpty then
      (new.drop 1).foldl (fun s _ => s.raiseFault .jup blkRecord cSpareFloor {}) (s1.raiseLevel .jup blkRecord cSpareFloor {})
    else new.foldl (fun s _ => s.raiseFault .jup blkRecord cSpareFloor {}) s1

/-- One tick with nothing commanded; the TSU chooses its power state (R393). -/
def State.tick (s : State) : State :=
  let s1 := s.endTick.countTick.chanActsDue.countReset
  ((((((((s1.countRing .tsu).countRing .jup).dropFenceTick).sendDueVotes).relatchAll .tsu).relatchAll .jup).resyncTimeout .tsu).resyncTimeout .jup).checkFloor.powerChoice

end Sys2Proof.Machine
end

