-- ==== Sys2Proof/Machine/Pins.lean ====
section
/-! DEFINITION. The levels that the TSU block drives on its ports, and their ties while they are clamped (R412 to R416, R431, R432, R435,
R436). -/
namespace Sys2Proof.Machine

/-- Levels of the outputs that no event of `State.out` carries. A clock that runs has no level. -/
structure Pins where
  clk : Option Bool
  mainRstN : Bool
  pwrReq : BitVec 3
  keep : BitVec 2
  /-- tsu_flt_irq and tsu_cpl_irq. -/
  irq : BitVec 2
  /-- tsu_shutter_oe, tsu_fault_oe and tsu_pps_oe. -/
  padOe : BitVec 3
  shutterOut : Bool
  /-- tsu_pps_out: the level of the pulse output (R111). -/
  pps : Bool
  deriving DecidableEq, Repr

/-- TSU_SHUTTER is high for 64 ticks from each SHUTTER_TICK of a plate (R435). -/
def State.shutterHigh (s : State) : Bool :=
  match s.tsuC.shut.lastLatch with
  | some t => decide (t ≤ s.now .tsu ∧ s.now .tsu < t + 64)
  | none => false
/-- Some fault block has latched, and some has its severe record (R432, R435). -/
def State.anyLatched (s : State) : Bool := (List.range 16).any fun b => (s.fblock .tsu b).valid
def State.anySevere (s : State) : Bool := (List.range 16).any fun b => (s.fblock .tsu b).sev
/-- POSTED while IRQ_EN (R346, R432). -/
def State.cplIrq (s : State) : Bool := s.tsuC.cmds.irqEn && s.tsuC.cmds.postedFlag

/-- While clamped, every output takes its tie; else the block drives it (R436). -/
def State.pins (s : State) : Pins :=
  if s.clamped false then
    { clk := some Config.tieClk, mainRstN := Config.tieMainRstN, pwrReq := Config.tiePwr, keep := Config.tieKeep, irq := Config.tieIrq,
      padOe := Config.tiePadOe, shutterOut := Config.tieData 0, pps := Config.tieData 1 }
  else
    { clk := none, mainRstN := s.power.mainUp, pwrReq := s.power.chosen,
      keep := if s.aonUplink = 0 then 1 else 2, irq := BitVec.ofBool s.anyLatched ++ BitVec.ofBool s.cplIrq,
      padOe := 1#1 ++ BitVec.ofBool s.anySevere ++ 1#1, shutterOut := s.shutterHigh, pps := s.pulseLevel .tsu 0 }

/-- A valid, request, apply or strobe output, and a data output, of a domain that no event drives now (R436). -/
def State.quietValid (s : State) (main : Bool) (bit : Nat) : Bool := s.clamped main && Config.tieValid bit
def State.quietData (s : State) (main : Bool) (bit : Nat) (last : Bool) : Bool := if s.clamped main then Config.tieData bit else last

end Sys2Proof.Machine
end

