-- ==== Sys2Proof/Safety.lean ====
section
/-! DEFINITION. What counts as a safe answer, as a run, and as well-kept tables. -/
namespace Sys2Proof
open Sys2Proof.Machine

/-- The step answered a next state. -/
def answersNext (r : Host.Outcome State Fault Refusal) : Prop := ∃ t, r = .next t

/-- The state after `n` steps that all answered one; none when one stopped. -/
def runSteps : Nat → State → Option State
  | 0, s => some s
  | n + 1, s => match step s with
    | .next t => runSteps n t
    | _ => none

namespace Machine

/-- The sparse tables that a read of a register, fault block, completion entry or window word goes through are in canonical
form. -/
def Common.tablesOk (d : Dev) (c : Common) : Bool :=
  tok (regReset d) none c.regs && Table.wf {} c.blocks && Table.wf none c.cmds.entries && Table.wf 0 c.win

/-- So are the loop counters of a channel, and those of its boundary record. -/
def Chan.tablesOk (x : Chan) : Bool := Table.wf 0 x.prog.loops && Table.wf 0 x.bnd.loops

/-- And those of both devices, of every channel and of the restore generations. -/
def State.tablesOk (s : State) : Bool :=
  s.tsuC.tablesOk .tsu && s.jupC.tablesOk .jup && (s.tsu.chans.all fun e => e.2.tablesOk) && Table.wf {} s.jup.gens &&
  Table.wf false s.jup.genActive

end Machine
end Sys2Proof
end

