-- ==== Sys2Proof/Certificates/Slice0/Obligations.lean ====
section
/-! DEFINITION. What is claimed of the block, for the provers. -/
open Sys2Proof Sys2Proof.Machine

/-! ## Hall time -/

/-- R40, R41, R60, R238: at its exchange tick an end of a trained link queues its time code for the next TIME slot; M notes
its departure stamp as t1 of a new exchange and has no t4 for it, C notes its own as t3 of the exchange that M's code
opened, and where none is open the exchange counts as missed. The exchange tick of M is a multiple of 8,192, of C 4,096
later, and at the low rate multiples of 65,536 and 4,096 after; at another tick nothing is sent. Which of the two rates a
child keeps is read at M from its SEQ (assumption 151). -/
def Obligations.TimeCodeSent : Prop :=
  (∀ (d : Dev) (n : Nat) (s : State), (s.link d n).ctl.lstate.timed = true → s.isChild d n = false → s.isParent d n = true →
    (s.now d).toNat % (if (s.link d n).time.lowFar then 65536 else 8192) = 0 →
    ∃ t, exec (.timeCodeSend d n) s = .next t ∧ (t.link d n).tx.timeCode = some (s.codeNow d n) ∧
      (t.link d n).time.t1 = some (codeStamp (s.codeNow d n)) ∧ (t.link d n).time.t4 = none ∧
      (t.link d n).time.handover = some (s.now d) ∧ (t.link d n).ctl = (s.link d n).ctl ∧ (t.com d).time = (s.com d).time ∧
      t.tsu = s.tsu ∧ t.jup = s.jup ∧ t.out = s.out) ∧
  (∀ (d : Dev) (n : Nat) (s : State), (s.link d n).ctl.lstate.timed = true → s.isChild d n = true →
    (s.com d).time.fullFrom ≤ s.now d → s.timeOn d n = true →
    (s.now d).toNat % (if (s.com d).time.lowRate then 65536 else 8192) = 4096 → (s.link d n).time.t1.isSome = true →
    (s.link d n).time.t3 = none →
    ∃ t, exec (.timeCodeSend d n) s = .next t ∧ (t.link d n).tx.timeCode = some (s.codeNow d n) ∧
      (t.link d n).time.t3 = some (codeStamp (s.codeNow d n)) ∧ (t.link d n).time.t1 = (s.link d n).time.t1 ∧
      (t.link d n).time.missed = (s.link d n).time.missed ∧ (t.link d n).ctl = (s.link d n).ctl ∧
      t.tsu = s.tsu ∧ t.jup = s.jup ∧ t.out = s.out) ∧
  (∀ (d : Dev) (n : Nat) (s : State), (s.link d n).ctl.lstate.timed = true → s.isChild d n = true →
    (s.com d).time.fullFrom ≤ s.now d → s.timeOn d n = true →
    (s.now d).toNat % (if (s.com d).time.lowRate then 65536 else 8192) = 4096 → (s.link d n).time.t1 = none →
    ∃ t, exec (.timeCodeSend d n) s = .next t ∧ (t.link d n).tx.timeCode = some (s.codeNow d n) ∧ (t.link d n).time.t3 = none ∧
      (t.link d n).time.missed = satInc (s.link d n).time.missed ∧
      (t.link d n).time.consecInvalid = (s.link d n).time.consecInvalid + 1) ∧
  (∀ (d : Dev) (n : Nat) (s : State), s.isChild d n = true → codeEcho (s.codeNow d n) = 0) ∧
  (∀ (d : Dev) (n : Nat) (s : State), (s.now d).toNat % 4096 ≠ 0 → exec (.timeCodeSend d n) s = .next s)

/-- R41 to R43: at C, a code of M that is good (not replayed, parity good, in sequence, from a LOCKED or DEGRADED M, and
timestamped at its arrival by calibrated converters) closes the exchange that is open and opens the next one, with its own
departure stamp as t1 and its arrival as t2. A closed exchange whose four stamps are there, with an ECHO, enters x and D
into the averages, which hold at most 1,024; any other open exchange counts as missed and leaves both averages as they are.
At M the code's arrival becomes the next t4. On a link over which no time transfer goes on a code changes only the inbox and
forgets its arrival. -/
def Obligations.TimeCodeTaken : Prop :=
  (∀ (d : Dev) (n : Nat) (code : BitVec 128) (rep pe po : Bool) (s : State), s.isChild d n = true → s.timeOn d n = true →
    exec (.timeCodeRx d n code rep pe po) s =
      .next ((((s.consume d n mtTimeCode [code.extractLsb' 0 64, code.extractLsb' 64 64]).childCode d n code rep (pe && po)).modLt d n
        fun t => { t with arrived := none }).timingDone d n)) ∧
  (∀ (d : Dev) (n : Nat) (code : BitVec 128) (rep pe po : Bool) (s : State), s.isChild d n = false → s.isParent d n = true →
    exec (.timeCodeRx d n code rep pe po) s =
      .next ((((s.consume d n mtTimeCode [code.extractLsb' 0 64, code.extractLsb' 64 64]).parentCode d n code rep (pe && po)).modLt d n
        fun t => { t with arrived := none }).timingDone d n)) ∧
  (∀ (d : Dev) (n : Nat) (code : BitVec 128) (rep pe po : Bool) (s : State), s.isChild d n = true → s.timeOn d n = true →
    (s.com d).time.lowRate = false →
    ∃ t, exec (.timeCodeRx d n code rep pe po) s = .next t ∧ (t.link d n).time.t1 = some (codeStamp code) ∧
      (t.link d n).time.t2 = s.codeStampNow d n ∧ (t.link d n).time.t3 = none ∧ (t.link d n).time.arrived = none ∧
      (t.link d n).time.bad = !codeGood (s.link d n).time code (s.codeStampNow d n) rep (pe && po) (s.convsValid d n) ∧
      (t.link d n).time.missed = ((s.link d n).time.close code (codeSound (s.link d n).time code rep (pe && po))).1.missed ∧
      (t.link d n).time.xs = ((s.link d n).time.close code (codeSound (s.link d n).time code rep (pe && po))).1.xs ∧
      (t.link d n).time.ds = ((s.link d n).time.close code (codeSound (s.link d n).time code rep (pe && po))).1.ds) ∧
  (∀ (d : Dev) (n : Nat) (code : BitVec 128) (rep pe po : Bool) (s : State), s.isChild d n = false → s.isParent d n = true →
    (s.link d n).time.t1.isSome = true →
    ∃ t, exec (.timeCodeRx d n code rep pe po) s = .next t ∧ (t.link d n).time.t4 =
      (if pe && po && !rep && (s.codeStampNow d n).isSome && LinkTime.follows (s.link d n).time code && s.convsValid d n
        then s.codeStampNow d n else none) ∧ (t.link d n).time.arrived = none ∧
      (t.link d n).time.t1 = (s.link d n).time.t1) ∧
  (∀ (t : LinkTime) (code : BitVec 128) (ok : Bool), t.xs.length ≤ 1024 → t.ds.length ≤ 1024 →
    (t.close code ok).1.xs.length ≤ 1024 ∧ (t.close code ok).1.ds.length ≤ 1024) ∧
  (∀ (t : LinkTime) (code : BitVec 128) (ok : Bool), t.t1.isSome = true →
    t.t2 = none ∨ t.t3 = none ∨ t.bad = true ∨ ok = false ∨ codeEcho code = 0 →
    (t.close code ok).1.xs = t.xs ∧ (t.close code ok).1.ds = t.ds ∧ (t.close code ok).1.missed = satInc t.missed ∧
    (t.close code ok).1.consecInvalid = t.consecInvalid + 1) ∧
  (∀ (t : LinkTime) (code : BitVec 128) (a b c : Stamp), t.t1 = some a → t.t2 = some b → t.t3 = some c → t.bad = false →
    codeEcho code ≠ 0 →
    (t.close code true).1.xs.head? = some (exchangeX a b c (absOf (codeStamp code) + codeEcho code)) ∧
    (t.close code true).1.ds.head? = some (exchangeD a b c (absOf (codeStamp code) + codeEcho code)) ∧
    (t.close code true).1.missed = t.missed ∧ (t.close code true).1.consecInvalid = 0) ∧
  (∀ (a b c : Stamp) (t4 : Int), exchangeX a b c t4 = wrapS 48 ((absOf b - absOf a) - (t4 - absOf c)) ∧
    exchangeD a b c t4 = wrapS 48 ((absOf b - absOf a) + (t4 - absOf c)))

/-- R44, R46, R55, R103: the judgments of a parent and of the time state, each on its own count or limit, and nothing before it.
64 consecutive invalid exchanges lose the parent, whose averages start again; 1,024 of either uplink with the offsets further
apart than SKEW_LIMIT raise TIME_PARENT_SKEW naming each uplink; HOLD_LIMIT ticks of HOLDOVER leave DEGRADED for LOST, and at
the TSU every channel is to be held with cause 10; 128,000,000 ticks of an acquisition without LOCKED leave UNSET. A level is
raised once while it stands. -/
def Obligations.ParentsJudged : Prop :=
  (∀ (d : Dev) (n : Nat) (s : State), s.isChild d n = true → 64 ≤ (s.link d n).time.consecInvalid →
    (s.link d n).time.lost = false →
    exec (.parentLost d n) s = .next ((s.modLt d n fun t => { t with lost := true, xs := [], ds := [], ph := [] }).crSelect d) ∧
    ∃ t, exec (.parentLost d n) s = .next t ∧ (t.link d n).time.lost = true ∧ (t.link d n).time.xs = [] ∧ (t.link d n).time.ds = [] ∧
      (t.link d n).tx = (s.link d n).tx ∧ (t.link d n).ctl = (s.link d n).ctl ∧ ∀ k, k ≠ n → t.link d k = s.link d k) ∧
  (∀ (d : Dev) (n : Nat) (s : State), (s.link d n).time.consecInvalid < 64 → exec (.parentLost d n) s = .next s) ∧
  (∀ (d : Dev) (s : State), 1024 ≤ (s.com d).time.skewCount ∨ 1024 ≤ (s.com d).time.skewCountB →
    exec (.timeParentSkew d) s =
      .next ((s.raiseLevel d (blkLink d (uplinks d).1) cParentSkew (linkCtx d (uplinks d).1)).raiseLevel d
        (blkLink d (uplinks d).2) cParentSkew (linkCtx d (uplinks d).2))) ∧
  uplinks .jup = (88, 89) ∧ uplinks .tsu = (0, 1) ∧
  (∀ (d : Dev) (s : State), (s.com d).time.skewCount < 1024 → (s.com d).time.skewCountB < 1024 →
    exec (.timeParentSkew d) s = .next s) ∧
  (∀ (d : Dev) (b : Nat) (c : Code) (x : Ctx) (s : State), (c, x.word) ∈ (s.fblock d b).levels → s.raiseLevel d b c x = s) ∧
  (∀ (d : Dev) (b : Nat) (c : Code) (x : Ctx) (s : State), (c, x.word) ∉ (s.fblock d b).levels →
    s.raiseLevel d b c x = (s.raiseFault d b c x).modBlock d b fun k => { k with levels := k.levels ++ [(c, x.word)] }) ∧
  (∀ (d : Dev) (h : Tick) (s : State), (s.com d).time.state = .degraded → s.rootMaster d = false → (s.com d).cr.state = .holdover →
    (s.com d).time.holdSince = some h → h.toNat + (s.com d).time.holdLimit ≤ (s.now d).toNat →
    ∃ t, exec (.timeLost d) s = .next t ∧ (t.com d).time = { (s.com d).time with state := .lost } ∧ (t.com d).cr = (s.com d).cr ∧
      (d = .tsu → ∀ c : Fin 8, (s.chan c).state = .running → 10 ∈ (t.chan c).holdWant)) ∧
  (∀ (d : Dev) (s : State), s.lostDue d = true → (s.com d).time.state = .degraded ∧ s.rootMaster d = false ∧
    ((s.com d).cr.state = .holdover ∨ s.offsetLost d = true)) ∧
  (∀ (d : Dev) (s : State), s.lostDue d = false → exec (.timeLost d) s = .next s) ∧
  (∀ (d : Dev) (e : Tick) (s : State), (s.com d).cr.state = .acquire → (s.com d).time.acqStart = some e →
    e.toNat + 128000000 ≤ (s.now d).toNat →
    ∃ t, exec (.crAcqFail d) s = .next t ∧ (t.com d).time = { (s.com d).time with state := .unset, acqStart := none } ∧
      (t.com d).cr = { (s.com d).cr with bwCur := 0, coarseTotal := 0, coarseDone := 0 } ∧
      (t.fblock d (blkCr d)).valid = true) ∧
  (∀ (d : Dev) (s : State), (s.com d).cr.state ≠ .acquire → exec (.crAcqFail d) s = .next s)

/-- R39, R56, R57, R102, R103, R107: acquisition and its ends. 131,072 ticks after the first of 16 valid exchanges of a device
that is UNSET and in ACQUIRE, the counter moves by the measured whole ticks, CV is preset within its clamp and what remains is
left to a move of the phase; a good third dwell ends in LOCKED, a dwell at a lower code moves the code up, and one with an
offset past its limit repeats; a resync of a TSU with a bound channel is refused with CHANNELS_BOUND, and otherwise leaves
the counter UNSET with the command waiting for LOCKED; the new time master is LOCKED without a step of its counter or CV,
and the hot-standby follows the other member as long as that is there. -/
def Obligations.AcquisitionRuns : Prop :=
  (∀ (d : Dev) (n : Nat) (e : Tick) (s : State), (s.com d).cr.state = .acquire → (s.com d).time.state = .unset →
    (s.com d).time.acqStart = some e → s.selLink d = some n → e.toNat + 131072 ≤ (s.now d).toNat →
    16 ≤ (s.link d n).time.xs.length →
    ∃ t, exec (.coarseLoad d) s = .next t ∧ (t.com d).time.state = .acquiring ∧
      (t.com d).time.htc = s.now d - BitVec.ofInt 64 (divNear (s.coarseTheta d n) 65536) ∧
      (t.com d).cr.coarseTotal = -(s.coarseTheta d n - divNear (s.coarseTheta d n) 65536 * 65536) ∧
      (t.com d).cr.coarseDone = 0 ∧ (t.com d).cr.bwCur = 0 ∧
      -268435456 ≤ (t.com d).cr.cv ∧ (t.com d).cr.cv ≤ 268435456 ∧ t.tsu = s.tsu ∧ t.jup = s.jup ∧ t.out = s.out) ∧
  (∀ (d : Dev) (s : State), (s.com d).time.state ≠ .unset → exec (.coarseLoad d) s = .next s) ∧
  (∀ (d : Dev) (s : State), (s.com d).cr.dwellStart.toNat + 8388608 ≤ (s.now d).toNat → (s.com d).cr.state = .acquire →
    (s.com d).time.state = .acquiring → (s.com d).cr.bwCur.toNat < 3 → 2 * s.lockThr d < s.selOffset d →
    ∃ t, exec (.dwellEnd d) s = .next t ∧ (t.com d).cr = { (s.com d).cr with dwellStart := s.now d, dwellOk := true } ∧
      (t.com d).time = (s.com d).time) ∧
  (∀ (d : Dev) (s : State), (s.com d).cr.dwellStart.toNat + 8388608 ≤ (s.now d).toNat → (s.com d).cr.state = .acquire →
    (s.com d).time.state = .acquiring → (s.com d).cr.bwCur.toNat < 3 → s.selOffset d ≤ 2 * s.lockThr d →
    ∃ t, exec (.dwellEnd d) s = .next t ∧ (t.com d).cr =
      { (s.com d).cr with dwellStart := s.now d, dwellOk := true, bwCur := (s.com d).cr.bwCur + 1 } ∧
      (t.com d).time = (s.com d).time) ∧
  (∀ (d : Dev) (s : State), (s.com d).cr.dwellStart.toNat + 8388608 ≤ (s.now d).toNat → (s.com d).cr.state = .acquire →
    (s.com d).time.state = .acquiring → 3 ≤ (s.com d).cr.bwCur.toNat → (s.com d).cr.dwellOk = true →
    (s.com d).time.lowRate = false →
    ∃ t, exec (.dwellEnd d) s = .next t ∧ (t.com d).time.state = .locked ∧ (t.com d).time.acqStart = none ∧
      (t.com d).time.resync = none ∧ (t.com d).cr.state = .track ∧ (t.com d).cr.bwCur = 3) ∧
  (∀ (d : Dev) (s : State), (s.com d).cr.dwellStart.toNat + 8388608 ≤ (s.now d).toNat → (s.com d).cr.state = .track →
    (s.com d).time.state = .degraded → s.returnSlewing d = false → (s.com d).cr.dwellOk = true → (s.com d).time.lowRate = false →
    ∃ t, exec (.dwellEnd d) s = .next t ∧ (t.com d).time.state = .locked ∧ (t.com d).cr.state = .track) ∧
  (∀ (d : Dev) (s : State), s.dwellDue d = false → exec (.dwellEnd d) s = .next s) ∧
  (∀ (h : Hdr) (s : State) (hd : Half) (s' : State), s.accept .tsu h opTimeResync = (s', some hd) → s'.anyBound = true →
    exec (.timeResync .tsu h) s = .next (s'.post .tsu hd stChannelsBound [])) ∧
  (∀ (h : Hdr) (s : State) (hd : Half) (s' : State), s.accept .tsu h opTimeResync = (s', some hd) → s'.anyBound = false →
    ∃ t, exec (.timeResync .tsu h) s = .next t ∧ (t.com .tsu).time.state = .unset ∧ (t.com .tsu).cr.state = .free ∧
      (t.com .tsu).time.resync = some (hd, t.now .tsu)) ∧
  (∀ (h : Hdr) (s : State) (hd : Half) (s' : State), s.accept .jup h opTimeResync = (s', some hd) → s'.rootMaster .jup = false →
    ∃ t, exec (.timeResync .jup h) s = .next t ∧ (t.com .jup).time.state = .unset ∧ (t.com .jup).cr.state = .free ∧
      (t.com .jup).time.resync = some (hd, t.now .jup)) ∧
  (∀ (h : Hdr) (s : State) (hd : Half) (s' : State), s.accept .jup h opTimeResync = (s', some hd) → s'.rootMaster .jup = true →
    exec (.timeResync .jup h) s =
      .next (((s'.crFree .jup).modCr .jup fun c => { c with target := 0 }).post .jup hd stOk [s'.now .jup])) ∧
  (∀ (s : State) (ol : Bool), s.hasRole = true → s.role = 3 → s.jup.timeMaster = false → s.side ≠ 2 ∨ ol = true →
    ∃ t, exec (.timeMasterChange true ol) s = .next t ∧ t.jup.timeMaster = true ∧ t.now .jup = s.now .jup ∧
      t.jupC.time.state = .locked ∧ t.jupC.cr.cv = s.jupC.cr.cv ∧ t.tsu = s.tsu) ∧
  (∀ (s : State), s.hasRole = true → s.role = 3 → s.jup.timeMaster = false → s.side = 2 →
    ∃ t, exec (.timeMasterChange true false) s = .next t ∧ t.jup.timeMaster = false ∧ t.jup.masterB = !s.jup.masterB ∧
      t.now .jup = s.now .jup ∧ t.jupC.cr.cv = s.jupC.cr.cv ∧ t.tsu = s.tsu) ∧
  (∀ (s : State) (ol : Bool), exec (.timeMasterChange false ol) s = .next s)

/-- R62, R64: the UTC mapping record and the NTPv4 service. The root time master publishes a record once a second, a label
waits for its pulse at the root time master and is posted NOT_MASTER elsewhere (LEAP 3 is reserved and stops), and of the
requests (mode 3; another mode is dropped) one that is authenticated is answered in version 4 and mode 4, up to 2,000 in a second,
and counted; one beyond that is counted as dropped, and one not authenticated in its own count. A record that waits is the
served one from the first second boundary on (R63), and 4 s after the last arrival the record kept is served as HOLDOVER. -/
def Obligations.UtcServed : Prop :=
  (∀ (s : State), s.jup.mapNext.isSome = true → (s.now .jup).toNat % 1600000000 = 0 →
    ∃ t, exec .mappingApply s = .next t ∧ t.jup.mapCur = s.jup.mapNext ∧ t.jup.mapNext = none ∧ t.jup.mapTick = s.jup.mapTick ∧
      t.jup.mapHold = s.jup.mapHold ∧ t.jupC = s.jupC ∧ t.tsuC = s.tsuC ∧ t.tsu = s.tsu ∧ t.out = s.out) ∧
  (∀ (s : State), s.jup.mapTick.toNat + 6400000000 ≤ (s.now .jup).toNat →
    ∃ t, exec .mappingHoldover s = .next t ∧ t.jup.mapCur = s.jup.mapCur ∧ t.jup.mapNext = s.jup.mapNext ∧
      (t.jup.mapCur.isSome = true → t.servedQuality = 1) ∧ t.jupC = s.jupC ∧ t.tsuC = s.tsuC ∧ t.tsu = s.tsu ∧ t.out = s.out) ∧
  (∀ (s : State), s.rootMaster .jup = true → s.jup.pubTick = none ∨
      (∃ p, s.jup.pubTick = some p ∧ p.toNat + 1600000000 ≤ (s.now .jup).toNat) →
    ∃ t, exec .mappingPublish s = .next t ∧ t.out = s.out ++ [.mapping s.mapRecord] ∧ t.jup.mapNext = some s.mapRecord ∧
      t.jup.pubTick = some (s.now .jup) ∧ t.jup.pubSeq = s.jup.pubSeq + 1 ∧ t.jupC = s.jupC ∧ t.tsuC = s.tsuC ∧ t.tsu = s.tsu) ∧
  (∀ (s : State), s.rootMaster .jup = false → exec .mappingPublish s = .next s) ∧
  (∀ (s : State) (r : MapRec), ∃ t, exec (.mappingRecordRx r) s = .next t ∧ t.jup.mapNext = some r ∧
    t.jup.mapTick = s.now .jup ∧ t.jup.mapHold = false ∧ t.jup.mapCur = s.jup.mapCur ∧ t.jupC = s.jupC ∧ t.tsu = s.tsu) ∧
  (∀ (h : Hdr) (sec : BitVec 48) (utc : BitVec 16) (leap : BitVec 2) (s s' : State) (hd : Half), leap ≠ 3 →
    s.accept .jup h opSetTod = (s', some hd) → s'.rootMaster .jup = true →
    exec (.setTod h sec utc leap) s = .next { s' with jup := { s'.jup with tod := some (sec, utc, leap, hd) } }) ∧
  (∀ (h : Hdr) (sec : BitVec 48) (utc : BitVec 16) (leap : BitVec 2) (s s' : State) (hd : Half), leap ≠ 3 →
    s.accept .jup h opSetTod = (s', some hd) → s'.rootMaster .jup = false →
    exec (.setTod h sec utc leap) s = .next (s'.post .jup hd stNotMaster [])) ∧
  (∀ (h : Hdr) (sec : BitVec 48) (utc : BitVec 16) (s : State), exec (.setTod h sec utc 3) s = .fault (.unpredictable "R9")) ∧
  (∀ (s : State) (key : Option (BitVec 16 × BitVec 128)) (body : List Word), s.ntpAuth key body = true →
    s.jup.ntpSecond ≠ (s.now .jup).toNat / 1600000000 ∨ s.jup.ntpInSecond < 2000 →
    ∃ t, exec (.ntpRequest 3 key body) s = .next t ∧ t.out = s.out ++ [.ntpReply (s.ntpAnswer key (Config.freeValue s.freeCtr) body)] ∧
      t.jup.ntpAnswered = s.jup.ntpAnswered + 1 ∧ t.jup.ntpDropped = s.jup.ntpDropped ∧ t.jupC = s.jupC ∧ t.tsu = s.tsu) ∧
  (∀ (s : State) (key : Option (BitVec 16 × BitVec 128)) (v : BitVec 64) (body : List Word),
    (s.ntpAnswer key v body).version = 4 ∧ (s.ntpAnswer key v body).mode = 4 ∧
    (s.ntpAnswer key v body).rxNs = (s.ntpAnswer key v body).txNs ∧
    (s.servedQuality ≠ 2 → (s.ntpAnswer key v body).stratum = 1 ∧ (s.ntpAnswer key v body).refId = 0x48414C4C) ∧
    (key = none → (s.ntpAnswer key v body).mac = none)) ∧
  (∀ (s : State) (key : Option (BitVec 16 × BitVec 128)) (body : List Word), s.ntpAuth key body = true →
    s.jup.ntpSecond = (s.now .jup).toNat / 1600000000 → 2000 ≤ s.jup.ntpInSecond →
    exec (.ntpRequest 3 key body) s = .next { s with jup := { s.jup with ntpDropped := s.jup.ntpDropped + 1 } }) ∧
  (∀ (s : State) (key : Option (BitVec 16 × BitVec 128)) (body : List Word), s.ntpAuth key body = false →
    exec (.ntpRequest 3 key body) s = .next { s with jup := { s.jup with ntpAuthFail := s.jup.ntpAuthFail + 1 } }) ∧
  (∀ (s : State) (m : BitVec 3) (key : Option (BitVec 16 × BitVec 128)) (body : List Word), m ≠ 3 →
    exec (.ntpRequest m key body) s = .next s)
/-- R63, whole: a new mapping record applies at the first boundary of 1.6e9 ticks after it arrived, and only there; after
4 s without one the last record stays and is served with QUALITY as HOLDOVER. -/
def Obligations.MappingApplied : Prop :=
  (∀ (s : State) (r : MapRec), s.jup.mapNext = some r → (s.now .jup).toNat % 1600000000 = 0 →
    exec .mappingApply s = .next { s with jup := { s.jup with mapCur := some r, mapNext := none } }) ∧
  (∀ (s : State), (s.now .jup).toNat % 1600000000 ≠ 0 → exec .mappingApply s = .next s) ∧
  (∀ (s : State), s.jup.mapNext = none → exec .mappingApply s = .next s) ∧
  (∀ (s : State), s.jup.mapTick.toNat + 6400000000 ≤ (s.now .jup).toNat →
    exec .mappingHoldover s = .next { s with jup := { s.jup with mapHold := true } }) ∧
  (∀ (s : State), (s.now .jup).toNat < s.jup.mapTick.toNat + 6400000000 → exec .mappingHoldover s = .next s) ∧
  (∀ (s : State) (r : MapRec), s.jup.mapCur = some r → s.jup.mapHold = true → s.servedQuality = 1) ∧
  (∀ (s : State) (r : MapRec), s.jup.mapCur = some r → s.jup.mapHold = false → s.servedQuality = r.quality.toNat)

/-- R50, R51, R52: measuring a link, and the swaps of the asymmetry banks. Without reflection MEASURE_LINK posts offset, round
trip and A; with it a port that serves a job is refused with LINK_IN_USE and another goes DOWN; the end of the reflections gives
A_MED0 from the two pair delays and lets service resume through training. A swap asked for takes effect at the next multiple of
8,192 ticks, both links of a TSU at once, where the check holds, and is dropped with ASYM_TABLE_BAD where it does not. -/
def Obligations.AsymmetryMeasured : Prop :=
  (∀ (h : Hdr) (port : BitVec 7) (sel : Bool) (s s' : State) (hd : Half),
    s.accept .jup h opMeasureLink (light := true) = (s', some hd) →
    exec (.measureLink h port false sel) s = .next (s'.post .jup hd stOk
      [put 64 63 32 (BitVec.ofInt 32 (s'.link .jup port.toNat).time.offset).toNat |||
         put 64 31 0 (BitVec.ofInt 32 (s'.link .jup port.toNat).time.rtd).toNat,
       put 64 63 32 (BitVec.ofInt 32 (s'.link .jup port.toNat).time.asym).toNat])) ∧
  (∀ (h : Hdr) (port : BitVec 7) (sel : Bool) (s s' : State) (hd : Half),
    s.accept .jup h opMeasureLink (light := false) = (s', some hd) → sel = true ∨ s'.portActive port.toNat = true →
    exec (.measureLink h port true sel) s = .next (s'.post .jup hd stLinkInUse [])) ∧
  (∀ (h : Hdr) (port : BitVec 7) (s s' : State) (hd : Half), s.accept .jup h opMeasureLink (light := false) = (s', some hd) →
    s'.portActive port.toNat = false →
    ∃ t, exec (.measureLink h port true false) s = .next t ∧ (t.link .jup port.toNat).asym.reflect = some hd ∧
      (t.link .jup port.toNat).ctl.lstate = .down ∧ (t.link .jup port.toNat).tx = (s'.link .jup port.toNat).tx ∧ t.tsu = s'.tsu) ∧
  (∀ (port : BitVec 7) (po pi : Int) (s : State) (hd : Half), (s.link .jup port.toNat).asym.reflect = some hd →
    (s.link .jup port.toNat).asym.medium = none →
    ∃ t, exec (.reflectComplete port (po, pi)) s = .next t ∧ (t.link .jup port.toNat).ctl.lstate = .train ∧
      (t.link .jup port.toNat).asym.medium = some (if s.isChild .jup port.toNat then pi - po else po - pi) ∧
      (t.link .jup port.toNat).time.ds = [] ∧ t.tsu = s.tsu ∧ t.out = s.out) ∧
  (∀ (port : BitVec 7) (po pi : Int) (s : State), (s.link .jup port.toNat).asym.reflect = none →
    exec (.reflectComplete port (po, pi)) s = .next s) ∧
  (∀ (n : Nat) (hd : Half) (med : Int) (s : State), (s.link .jup n).asym.reflect = some hd → (s.link .jup n).asym.medium = some med →
    s.reflectFinish .jup n = ((s.modAsym .jup n fun a => { (Asym.setInactive a (s.reflectEntry n med)) with
      reflect := none, medium := none, go := true, bad := false, measured := true }).emit (.farEntry n (asymMirror (s.reflectEntry n med)))).post
        .jup hd stOk (reflectResults (s.reflectEntry n med))) ∧
  (∀ (d : Dev) (n : Nat) (s : State), (s.link d (asymKey d n)).asym.go = false →
    exec (.asymSwapGo d n) s = .next (s.modAsym d (asymKey d n) fun a => { a with go := true, bad := false })) ∧
  (∀ (d : Dev) (n : Nat) (s : State), (s.link d (asymKey d n)).asym.go = true → exec (.asymSwapGo d n) s = .next s) ∧
  (∀ (n : Nat) (s : State), (s.link .jup n).asym.go = true → (s.now .jup).toNat % 8192 = 0 →
    s.asymCheckOk .jup n = true →
    exec (.asymBankSwap .jup n) s = .next ((s.modAsym .jup n fun a => { a with go := false }).swapAsym .jup n)) ∧
  (∀ (n : Nat) (s : State), (s.link .tsu 0).asym.go = true → (s.now .tsu).toNat % 8192 = 0 → s.asymCheckOk .tsu n = true →
    exec (.asymBankSwap .tsu n) s =
      .next (((s.modAsym .tsu 0 fun a => { a with go := false }).swapAsym .tsu 0).swapAsym .tsu 1)) ∧
  (∀ (d : Dev) (n : Nat) (s : State), (s.link d (asymKey d n)).asym.go = true → (s.now d).toNat % 8192 = 0 →
    s.asymCheckOk d n = false →
    exec (.asymBankSwap d n) s = .next (((s.modAsym d (asymKey d n) fun a => { a with go := false }).modAsym d (asymKey d n)
      fun a => { a with bad := true, measured := false }).raiseFault d (blkAsym d n) cAsymTableBad (linkCtx d n))) ∧
  (∀ (d : Dev) (n : Nat) (s : State), (s.now d).toNat % 8192 ≠ 0 → exec (.asymBankSwap d n) s = .next s)

/-! ## The Vernier -/

/-- R67, R71, R74, R89: an edge is converted only where the converter is free and the last accepted edge lies 32 ticks or more
back: the conversion then holds the tick of the edge and its code. On a programmable input an edge of the other direction or one
that does not cross the switching band is ignored, one too narrow counts in DROPPED; an edge that comes too early counts in
DROPPED, one just after a ring hit in COLLIDE; none of these is converted. The timestamp is delivered 20 ticks after the edge,
with FRAC looked up in the table active then. -/
def Obligations.EdgeTimestamped : Prop :=
  (∀ (d : Dev) (n : Nat) (code : BitVec 8) (e : EdgeIn) (s : State), (d = .tsu → n = 4 → s.evtSrc ≠ 0) →
    (s.conditioned d n = true → s.detects d n e = true ∧ e.wide = true) → s.gated d n = false → s.afterHit d n = false →
    s.convReady d n = true →
    ∃ t, exec (.vernierEdge d n code e) s = .next t ∧ (t.conv d n).lastEdge = some (s.now d) ∧ (t.conv d n).busy = some (s.now d, code) ∧
      (t.convCtl d n).lastService = some (s.now d) ∧ (t.convCtl d n).dropped = (s.convCtl d n).dropped ∧
      (∀ m, m ≠ n → t.conv d m = s.conv d m) ∧ (t.com d).time = (s.com d).time ∧ t.tsu = s.tsu ∧ t.jup = s.jup ∧ t.out = s.out) ∧
  (∀ (d : Dev) (n : Nat) (code : BitVec 8) (e : EdgeIn) (s : State), s.conditioned d n = true → s.detects d n e = false →
    exec (.vernierEdge d n code e) s = .next s) ∧
  (∀ (d : Dev) (n : Nat) (code : BitVec 8) (e : EdgeIn) (s : State), (d = .tsu → n = 4 → s.evtSrc ≠ 0) →
    s.conditioned d n = true → s.detects d n e = true → e.wide = false → s.gated d n = false →
    exec (.vernierEdge d n code e) s = .next (s.modConvCtl d n fun c => { c with dropped := satInc c.dropped })) ∧
  (∀ (d : Dev) (n : Nat) (code : BitVec 8) (e : EdgeIn) (s : State), (d = .tsu → n = 4 → s.evtSrc ≠ 0) →
    (s.conditioned d n = true → s.detects d n e = true ∧ e.wide = true) → s.gated d n = false → s.afterHit d n = false →
    s.convReady d n = false →
    exec (.vernierEdge d n code e) s = .next (s.modConvCtl d n fun c => { c with dropped := satInc c.dropped })) ∧
  (∀ (d : Dev) (n : Nat) (code : BitVec 8) (e : EdgeIn) (s : State), (d = .tsu → n = 4 → s.evtSrc ≠ 0) →
    (s.conditioned d n = true → s.detects d n e = true ∧ e.wide = true) → s.gated d n = false → s.afterHit d n = true →
    exec (.vernierEdge d n code e) s =
      .next (s.modConvCtl d n fun c => { c with collide := satInc c.collide, lastService := some (s.now d) })) ∧
  (∀ (s : State) (code : BitVec 8) (e : EdgeIn), s.evtSrc = 0 → exec (.vernierEdge .tsu 4 code e) s = .next s) ∧
  (∀ (s : State) (d : Dev) (n : Nat) (t : Tick), (s.conv d n).lastEdge = some t →
    (s.convReady d n = true ↔ t.toNat + 32 ≤ (s.now d).toNat)) ∧
  (∀ (d : Dev) (n : Nat) (t : Tick) (code : BitVec 8) (s : State), (s.conv d n).busy = some (t, code) →
    t.toNat + 20 ≤ (s.now d).toNat →
    exec (.timestampDelivered d n) s = .next ((s.modConv d n fun c =>
      { c with busy := none, lastValid := true, lastCode := code,
               lastFrac := BitVec.ofNat 16 (fracOf (s.tableAt d n (t.toNat + 20)) code.toNat),
               lastTickLo := t.extractLsb' 0 32 }).deliver d n
        { tick := t, frac := BitVec.ofNat 16 (fracOf (s.tableAt d n (t.toNat + 20)) code.toNat) })) ∧
  (∀ (d : Dev) (n : Nat) (t : Tick) (code : BitVec 8) (s : State), (s.conv d n).busy = some (t, code) →
    t.toNat + 20 ≤ (s.now d).toNat →
    ∃ u, exec (.timestampDelivered d n) s = .next u ∧ (u.conv d n).busy = none ∧ (u.conv d n).lastValid = true ∧
      (u.conv d n).lastCode = code ∧ (u.conv d n).lastTickLo = t.extractLsb' 0 32 ∧
      (u.conv d n).lastFrac = BitVec.ofNat 16 (fracOf (s.tableAt d n (t.toNat + 20)) code.toNat)) ∧
  (∀ (d : Dev) (n : Nat) (s : State), (s.conv d n).busy = none → exec (.timestampDelivered d n) s = .next s)

/-- R73, R75 to R78: a hit counts in the histogram of its build; a build ends at 2^20 hits, its histogram stands as the last one,
and a table that passes its checks where none was valid waits for the next multiple of 8,192 ticks, while one that does not
pass counts in FAILS; the waiting table becomes active on that tick and no sooner; an active table that is too old or was built at
another temperature is STALE. -/
def Obligations.TablesBuilt : Prop :=
  (∀ (d : Dev) (n : Nat) (code : BitVec 8) (s : State), s.ringEn d = true → s.building d n = true → s.reflecting d n = false →
    s.hitWindow d n = true → s.convReady d n = true → (s.conv d n).hits < 1048576 →
    ∃ t, exec (.calHit d n code) s = .next t ∧ t.conv d n =
      { s.conv d n with running := true, hits := (s.conv d n).hits + 1, lastEdge := some (s.now d),
                        hist := tmod 0 (s.conv d n).hist code.toNat (· + 1) } ∧
      (t.convCtl d n).lastHit = some (s.now d) ∧ t.tsu = s.tsu ∧ t.jup = s.jup ∧ t.out = s.out) ∧
  (∀ (d : Dev) (n : Nat) (code : BitVec 8) (s : State), s.ringEn d = false ∨ s.building d n = false ∨ s.reflecting d n = true →
    exec (.calHit d n code) s = .next s) ∧
  (∀ (d : Dev) (n : Nat) (s : State), (s.conv d n).hits = 1048576 → exec (.vernierBuildEnd d n) s = .next (s.buildEnd d n)) ∧
  (∀ (d : Dev) (n : Nat) (s : State), (s.conv d n).hits = 1048576 → (s.convCtl d n).hold = false → (s.conv d n).cand = none →
    Conv.valid (s.conv d n) = false →
    widthsValid (buildWidths ((List.range 256).map fun k => tget 0 (s.conv d n).hist k) 0 0) = true →
    ∃ t, exec (.vernierBuildEnd d n) s = .next t ∧ (t.convCtl d n).swapPend = true ∧
      (t.convCtl d n).swapAt.toNat % 8192 = 0 ∧ (t.convCtl d n).newAt = some (s.now d) ∧
      (t.convCtl d n).swapOwner = (s.convCtl d n).owner ∧ (t.convCtl d n).owner = none) ∧
  (∀ (d : Dev) (n : Nat) (s : State), (s.conv d n).hits = 1048576 →
    widthsValid (buildWidths ((List.range 256).map fun k => tget 0 (s.conv d n).hist k) 0 0) = false →
    ∃ t, exec (.vernierBuildEnd d n) s = .next t ∧ (t.conv d n).fails = satInc (s.conv d n).fails ∧ (t.conv d n).hits = 0 ∧
      (t.conv d n).lastHist = (s.conv d n).hist ∧ (t.conv d n).bank = (s.conv d n).bank) ∧
  (∀ (d : Dev) (n : Nat) (s : State), (s.conv d n).hits < 1048576 → exec (.vernierBuildEnd d n) s = .next s) ∧
  (∀ (d : Dev) (n : Nat) (s : State), (s.convCtl d n).swapPend = true → (s.now d).toNat % 8192 = 0 →
    (s.convCtl d n).swapAt ≤ s.now d →
    ∃ t, exec (.vernierTableSwap d n) s = .next t ∧ (t.convCtl d n).swapPend = false ∧ (t.convCtl d n).go = false ∧
      (t.convCtl d n).swappedAt = some (s.now d) ∧ (t.convCtl d n).builtAt = (s.convCtl d n).newAt ∧
      (Table.wf {} (s.com d).convs = true → (t.conv d n).bank = !(s.conv d n).bank ∧ (t.conv d n).stale = false)) ∧
  (∀ (d : Dev) (n : Nat) (s : State), (s.now d).toNat % 8192 ≠ 0 ∨ s.now d < (s.convCtl d n).swapAt ∨
    (s.convCtl d n).swapPend = false → exec (.vernierTableSwap d n) s = .next s) ∧
  (∀ (d : Dev) (n : Nat) (s : State), s.staleDue d n = true →
    exec (.vernierCalStale d n) s =
      .next ((s.modConv d n fun c => { c with stale := true }).raiseLevel d (blkConv d n) cCalStale (convCtx d n)) ∧
    ∃ t, exec (.vernierCalStale d n) s = .next t ∧ (t.conv d n).stale = true) ∧
  (∀ (d : Dev) (n : Nat) (t : Tick) (s : State), Conv.valid (s.conv d n) = true → s.hasService d n = true →
    (s.conv d n).stale = false → (s.convCtl d n).builtAt = some t → t.toNat + s.calMaxAge d * 65536 < (s.now d).toNat →
    s.staleDue d n = true) ∧
  (∀ (d : Dev) (n : Nat) (s : State), Conv.valid (s.conv d n) = true → s.hasService d n = true → (s.conv d n).stale = false →
    s.tempLimit d < ((s.com d).time.temp.toInt - (s.convCtl d n).builtTemp.toInt).natAbs → s.staleDue d n = true) ∧
  (∀ (d : Dev) (n : Nat) (s : State), s.staleDue d n = false → exec (.vernierCalStale d n) s = .next s)

/-- R80 to R83, R413: a table that software wrote is checked before it may swap; CAL_VERNIER starts a build on each converter of
its range, is posted BUSY where one of them is building for a command, and a foreground one IN_SERVICE where one has
service edges; a new temperature is TEMP from then on, and the counter goes on. -/
def Obligations.TablesCommanded : Prop :=
  (∀ (d : Dev) (n : Nat) (k : BitVec 16) (s : State), (s.convCtl d n).go = false → s.writtenOk d n k = false →
    exec (.vrnSwapGo d n k) s = .next ((s.modConvCtl d n fun x => { x with check := k, bad := true }).raiseFault d (blkConv d n) cCalBad
      (convCtx d n)) ∧
    ∃ t, exec (.vrnSwapGo d n k) s = .next t ∧ (t.convCtl d n).bad = true ∧ (t.convCtl d n).go = false ∧ (t.convCtl d n).check = k) ∧
  (∀ (d : Dev) (n : Nat) (k : BitVec 16) (s : State), (s.convCtl d n).go = false → s.writtenOk d n k = true →
    ∃ t, exec (.vrnSwapGo d n k) s = .next t ∧ (t.convCtl d n).go = true ∧ (t.convCtl d n).bad = false ∧
      (t.convCtl d n).swapPend = true ∧ (t.convCtl d n).swapAt = s.nextBoundary d ∧ (t.convCtl d n).check = k ∧
      (if (s.conv d n).bank then (t.conv d n).valid0 else (t.conv d n).valid1) = true ∧ (t.conv d n).bank = (s.conv d n).bank ∧
      t.tsu = s.tsu ∧ t.jup = s.jup ∧ t.out = s.out) ∧
  (∀ (d : Dev) (n : Nat) (k : BitVec 16) (s : State), (s.convCtl d n).go = true → exec (.vrnSwapGo d n k) s = .next s) ∧
  (∀ (d : Dev) (h : Hdr) (a b : Nat) (hold fg : Bool) (s s' : State) (hd : Half), s.accept d h opCalVernier = (s', some hd) →
    (∃ n ∈ convRange d a b, (s'.convCtl d n).owner.isSome = true) →
    exec (.calVernier d h a b fg hold) s = .next (s'.post d hd stBusy [])) ∧
  (∀ (d : Dev) (h : Hdr) (a b : Nat) (hold : Bool) (s s' : State) (hd : Half), s.accept d h opCalVernier = (s', some hd) →
    (∀ n ∈ convRange d a b, (s'.convCtl d n).owner = none) → (∃ n ∈ convRange d a b, s'.hasService d n = true) →
    exec (.calVernier d h a b true hold) s = .next (s'.post d hd stInService [])) ∧
  (∀ (d : Dev) (h : Hdr) (a b : Nat) (hold fg : Bool) (s s' : State) (hd : Half), s.accept d h opCalVernier = (s', some hd) →
    (∀ n ∈ convRange d a b, (s'.convCtl d n).owner = none) → (fg = true → ∀ n ∈ convRange d a b, s'.hasService d n = false) →
    ∃ t, exec (.calVernier d h a b fg hold) s = .next t ∧ ∀ n ∈ convRange d a b, (t.convCtl d n).owner = some hd ∧
      (t.convCtl d n).hold = hold ∧ (t.conv d n).running = true ∧ (t.conv d n).hits = 0 ∧ (t.conv d n).hist = []) ∧
  (∀ (d : Dev) (t : BitVec 8) (s : State), ∃ u, exec (.tempUpdate d t) s = .next u ∧ (u.com d).time = { (s.com d).time with temp := t } ∧
    (u.com d).cr = (s.com d).cr ∧ u.tsu = s.tsu ∧ u.jup = s.jup ∧ u.out = s.out)

/-- R73: cumulative rounding loses nothing: the widths that a histogram of 2^20 hits gives sum to one tick exactly. -/
def Obligations.BuiltWidthsSum : Prop :=
  ∀ h : List Nat, h.foldl (· + ·) 0 = 1048576 → (buildWidths h 0 0).foldl (· + ·) 0 = 65536


/-! ## The Clock Room -/

/-- R90 to R94: what makes and breaks the qualification of a reference. A reference with PRIORITY 0, or that is no candidate, is
ABSENT; one whose signal is not good is FAILED; a good one that meets the further condition is QUALIFIED. An edge out of its window
or missing counts; a wait-to-restore that has run its time leaves a good candidate QUALIFIED. A QL that no word of R92 renewed
for 5 word periods, or no ESMC PDU for 5 s, is FAILED; an unassigned QL counts in QL_UNKNOWN; the word a Jupin sends is queued
every 262,144 ticks on the ports that carry it. That a reference which is no candidate is ABSENT is the model's (assumption 148). -/
def Obligations.ReferencesJudged : Prop :=
  (∀ (d : Dev) (r : Nat) (s : State), s.priority d r = 0 ∨ s.candidate d r = false →
    s.evalRef d r = s.modRef d r fun x => { x with state := .absent, wtrStart := none, wtrDone := false }) ∧
  (∀ (d : Dev) (r : Nat) (s : State), s.priority d r ≠ 0 → s.candidate d r = true →
    (∀ n, s.refLink d r = some n → (s.link d n).ctl.lstate.timed = true) → s.signalGood d r true = false →
    s.evalRef d r = s.modRef d r fun x => { x with state := .failed, wtrStart := none, wtrDone := false }) ∧
  (∀ (d : Dev) (r : Nat) (s : State), s.priority d r ≠ 0 → s.candidate d r = true → s.signalGood d r true = true →
    s.furtherOk d r = true → s.evalRef d r = s.modRef d r fun x => { x with state := .qualified, wtrStart := none }) ∧
  (∀ (d : Dev) (r : Fin 8) (s : State), ∃ t, exec (.refEdgeMissing d r) s = .next t ∧
    (t.ref d r.val).missing = (s.ref d r.val).missing + 1 ∧
    (t.ref d r.val).good = (if (s.ref d r.val).good < 16 ∨ 4 ≤ (s.ref d r.val).missing + 1 then 0 else (s.ref d r.val).good) ∧
    (∀ q, q ≠ r.val → t.ref d q = s.ref d q) ∧ (t.com d).time = (s.com d).time ∧ t.tsu = s.tsu ∧ t.jup = s.jup ∧ t.out = s.out) ∧
  (∀ (d : Dev) (r : Fin 8) (t : Tick) (s : State), (s.ref d r.val).wtrStart = some t →
    t.toNat + s.wtrTime d * 1600000000 ≤ (s.now d).toNat → s.signalGood d r.val true = true → s.priority d r.val ≠ 0 →
    s.candidate d r.val = true → s.wtrMode d = true →
    ∃ u, exec (.wtrExpiry d r) s = .next u ∧ (u.ref d r.val).state = .qualified ∧ (u.ref d r.val).wtrStart = none ∧
      (u.ref d r.val).wtrDone = true ∧ u.tsu = s.tsu ∧ u.jup = s.jup ∧ u.out = s.out) ∧
  (∀ (d : Dev) (r : Fin 8) (s : State), (s.ref d r.val).wtrStart = none → exec (.wtrExpiry d r) s = .next s) ∧
  (∀ (p : Nat) (s : State), qualityPort p = true → (s.now .jup).toNat % 262144 = 0 →
    ∃ t, exec (.clockQualitySend p) s = .next t ∧ (t.link .jup p).tx.quality = some (s.qualityWord p) ∧
      (t.link .jup p).ctl = (s.link .jup p).ctl ∧ t.tsu = s.tsu ∧ t.jup = s.jup ∧ t.out = s.out) ∧
  (∀ (p : Nat) (s : State), (s.now .jup).toNat % 262144 ≠ 0 → exec (.clockQualitySend p) s = .next s) ∧
  (∀ (p : Nat) (s : State), s.carriesSel p = true → s.qlToSend p = 0xF) ∧
  (∀ (d : Dev) (n r : Nat) (w : BitVec 16) (s : State), s.linkRef d n = some r → qlKnown (w.extractLsb' 12 4) = true →
    ∃ t, exec (.clockQualityRx d n w) s = .next t ∧ (t.ref d r).qlRx = w.extractLsb' 12 4 ∧ (t.ref d r).qlTick = some (s.now d) ∧
      (t.ref d r).chain = w.extractLsb' 8 4 ∧ (t.ref d r).hold = w.getLsbD 7 ∧ (t.com d).cr.qlUnknown = (s.com d).cr.qlUnknown ∧
      t.tsu = s.tsu ∧ t.jup = s.jup) ∧
  (∀ (d : Dev) (n r : Nat) (w : BitVec 16) (s : State), s.linkRef d n = some r → qlKnown (w.extractLsb' 12 4) = false →
    ∃ t, exec (.clockQualityRx d n w) s = .next t ∧ (t.ref d r).qlRx = 0xF ∧ (t.ref d r).qlTick = some (s.now d) ∧
      (t.com d).cr.qlUnknown = satInc (s.com d).cr.qlUnknown ∧ t.tsu = s.tsu ∧ t.jup = s.jup) ∧
  (∀ (d : Dev) (r : Fin 8) (t : Tick) (s : State), (s.ref d r.val).qlTick = some t → (s.refLink d r.val).isSome = true →
    t.toNat + 1310720 ≤ (s.now d).toNat →
    exec (.qlTimeout d r) s = .next ((s.modRef d r.val fun x => { x with qlTick := none, qlRx := 0xF }).evalRef d r.val)) ∧
  (∀ (d : Dev) (r : Fin 8) (t : Tick) (s : State), (s.ref d r.val).qlTick = some t → (s.now d).toNat < t.toNat + 1310720 →
    exec (.qlTimeout d r) s = .next s) ∧
  (∀ (k : Fin 4) (mac : BitVec 48) (ql : BitVec 4) (s : State), s.esmcBound k.val mac = true → qlKnown ql = true →
    ∃ t, exec (.esmcPduRx k mac true ql) s = .next t ∧ (t.ref .jup k.val).qlRx = ql ∧ (t.ref .jup k.val).qlTick = some (s.now .jup) ∧
      t.jupC.cr.qlUnknown = s.jupC.cr.qlUnknown ∧ t.tsu = s.tsu ∧ t.jup = s.jup ∧ t.out = s.out) ∧
  (∀ (k : Fin 4) (mac : BitVec 48) (ql : BitVec 4) (s : State), s.esmcBound k.val mac = true → qlKnown ql = false →
    ∃ t, exec (.esmcPduRx k mac true ql) s = .next t ∧ (t.ref .jup k.val).qlRx = 0xF ∧
      t.jupC.cr.qlUnknown = satInc s.jupC.cr.qlUnknown) ∧
  (∀ (k : Fin 4) (mac : BitVec 48) (v : Bool) (ql : BitVec 4) (s : State), s.esmcBound k.val mac = false ∨ v = false →
    exec (.esmcPduRx k mac v ql) s = .next s) ∧
  (∀ (k : Fin 4) (t : Tick) (s : State), (s.ref .jup k.val).qlTick = some t → t.toNat + 8000000000 ≤ (s.now .jup).toNat →
    exec (.esmcTimeout k) s = .next ((s.modRef .jup k.val fun x => { x with qlTick := none, qlRx := 0xF }).evalRef .jup k.val)) ∧
  (∀ (k : Fin 4) (t : Tick) (s : State), (s.ref .jup k.val).qlTick = some t → (s.now .jup).toNat < t.toNat + 8000000000 →
    exec (.esmcTimeout k) s = .next s)

/-- R95, R96, R99: a Clock Room command waits for the exchange boundary, one at a time, a second being refused with CMD_ERR 1;
there it takes effect or is refused with its CMD_ERR, and waits no more: FORCE and MANUAL set the selection mode and keep
the reference that they name. References are compared again at every boundary, and TRACK in automatic mode without a QUALIFIED
candidate goes to HOLDOVER. -/
def Obligations.ClockCommands : Prop :=
  (∀ (d : Dev) (r : Fin 8) (s : State), (s.com d).cr.pend = none →
    (∃ t, exec (.crForce d r) s = .next t ∧ (t.com d).cr = { (s.com d).cr with pend := some (.force, r) }) ∧
    (∃ t, exec (.crManual d r) s = .next t ∧ (t.com d).cr = { (s.com d).cr with pend := some (.manual, r) }) ∧
    (∃ t, exec (.crClear d) s = .next t ∧ (t.com d).cr = { (s.com d).cr with pend := some (.clear, 0) }) ∧
    (∃ t, exec (.crLockout d r) s = .next t ∧ (t.com d).cr = { (s.com d).cr with pend := some (.lockout, r) }) ∧
    (∃ t, exec (.crUnlock d r) s = .next t ∧ (t.com d).cr = { (s.com d).cr with pend := some (.unlock, r) }) ∧
    (∃ t, exec (.crWtrClear d r) s = .next t ∧ (t.com d).cr = { (s.com d).cr with pend := some (.wtrClear, r) })) ∧
  (∀ (d : Dev) (r : Fin 8) (p : CrOp × Fin 8) (s : State), (s.com d).cr.pend = some p →
    exec (.crForce d r) s = .next (s.modCr d fun c => { c with cmdErr := 1 }) ∧
    exec (.crManual d r) s = .next (s.modCr d fun c => { c with cmdErr := 1 }) ∧
    exec (.crClear d) s = .next (s.modCr d fun c => { c with cmdErr := 1 }) ∧
    exec (.crLockout d r) s = .next (s.modCr d fun c => { c with cmdErr := 1 }) ∧
    exec (.crUnlock d r) s = .next (s.modCr d fun c => { c with cmdErr := 1 }) ∧
    exec (.crWtrClear d r) s = .next (s.modCr d fun c => { c with cmdErr := 1 })) ∧
  (∀ (d : Dev) (op : CrOp) (r : Fin 8) (s : State), (s.com d).cr.pend = some (op, r) → (s.now d).toNat % 8192 = 0 →
    ((s.evalRefs d).modCr d fun c => { c with pend := none }).crRefusal d op r.val = 0 →
    ∃ t, exec (.crCmdApply d) s = .next t ∧ t = ((s.evalRefs d).modCr d fun c => { c with pend := none }).crApply d op r.val ∧
      (t.com d).cr.pend = none ∧ (op = .force → (t.com d).cr.selMode = 2 ∧ (t.com d).cr.forceRef = some r) ∧
      (op = .manual → (t.com d).cr.selMode = 1 ∧ (t.com d).cr.forceRef = some r)) ∧
  (∀ (d : Dev) (op : CrOp) (r : Fin 8) (s : State), (s.com d).cr.pend = some (op, r) → (s.now d).toNat % 8192 = 0 →
    ((s.evalRefs d).modCr d fun c => { c with pend := none }).crRefusal d op r.val ≠ 0 →
    exec (.crCmdApply d) s = .next (((s.evalRefs d).modCr d fun c => { c with pend := none }).modCr d fun c =>
      { c with cmdErr := ((s.evalRefs d).modCr d fun c => { c with pend := none }).crRefusal d op r.val })) ∧
  (∀ (d : Dev) (s : State), (s.now d).toNat % 8192 ≠ 0 → exec (.crCmdApply d) s = .next s) ∧
  (∀ (d : Dev) (s : State), (s.com d).cr.pend = none → exec (.crCmdApply d) s = .next s) ∧
  (∀ (d : Dev) (s : State), (s.now d).toNat % 8192 = 0 → exec (.refSelect d) s = .next (s.crSelect d)) ∧
  (∀ (d : Dev) (s : State), (s.now d).toNat % 8192 = 0 → (s.com d).cr.state = .track → (s.com d).cr.selMode = 0 →
    (s.com d).time.state ≠ .lost → ((s.evalRefs d).followLink d).bestQualified d = none →
    ∃ t, exec (.refSelect d) s = .next t ∧ (t.com d).cr.state = .holdover ∧ (t.com d).cr.selected = none ∧ t.now d = s.now d) ∧
  (∀ (s : State) (d : Dev) (op : CrOp) (r : Nat), s.candidate d r = false → op = .force ∨ op = .manual ∨ op = .lockout →
    s.crRefusal d op r = 2) ∧
  (∀ (s : State) (d : Dev) (r : Nat), s.candidate d r = true → (s.ref d r).state ≠ .qualified → s.crRefusal d .manual r = 3)

/-- R86, R102, R104, R105, R108: the loop and the phase-step engine. On each LOOP edge CV takes its next value, the bandwidth
code is the one in force, and what the engine moves is taken from what remains, the coarse load's own move apart; a block of
2^22 ticks ends with its average among at most 64; a forced bandwidth code is stored. A reserved code, and a forced code in
HOLDOVER, stop. -/
def Obligations.LoopSteered : Prop :=
  (∀ (d : Dev) (s : State), (s.now d).toNat % 32 = 0 →
    ∃ t, exec (.cvUpdate d) s = .next t ∧ (t.com d).cr.cv = (s.cvNext d).1 ∧ (t.com d).cr.bwCur = s.bwNow d ∧
      (t.com d).cr.coarseDone = s.coarseMoved d ∧
      (t.com d).cr.pstepRemain + (t.com d).cr.moved - (t.com d).cr.coarseDone =
        (s.com d).cr.pstepRemain + (s.com d).cr.moved - (s.com d).cr.coarseDone ∧
      (t.com d).cr.blockCount = (s.com d).cr.blockCount + 1 ∧
      (t.com d).time = (s.com d).time ∧ t.out = s.out) ∧
  (∀ (d : Dev) (s : State), (s.now d).toNat % 32 ≠ 0 → exec (.cvUpdate d) s = .next s) ∧
  (∀ (d : Dev) (s : State), s.rootMaster d = false → s.loopRuns d = true → -268435456 ≤ (s.cvNext d).1 ∧ (s.cvNext d).1 ≤ 268435456) ∧
  (∀ (d : Dev) (s : State), s.rootMaster d = true → ((s.cvNext d).1 - (s.com d).cr.cv).natAbs ≤ 1) ∧
  (∀ (d : Dev) (s : State), (s.now d).toNat % 4194304 = 0 → 0 < (s.com d).cr.blockCount →
    ∃ t, exec (.cvBlockAverage d) s = .next t ∧
      (t.com d).cr.blocks.head? = some (divNear (s.com d).cr.blockSum (s.com d).cr.blockCount, (s.com d).cr.blockOk) ∧
      (t.com d).cr.blocks.length ≤ 64 ∧ (t.com d).cr.blockCount = 0 ∧ (t.com d).cr.cv = (s.com d).cr.cv) ∧
  (∀ (d : Dev) (s : State), (s.now d).toNat % 4194304 ≠ 0 → exec (.cvBlockAverage d) s = .next s) ∧
  (∀ (d : Dev) (en : Bool) (code : BitVec 3) (s : State), (code.toNat < 4 ∨ code.toNat = 7) → (s.com d).cr.state ≠ .holdover →
    exec (.bwForce d en code) s = .next (s.setReg d (crBase d + 8) (bit1 32 8 en ||| put 32 2 0 code.toNat))) ∧
  (∀ (d : Dev) (en : Bool) (code : BitVec 3) (s : State), 4 ≤ code.toNat → code.toNat ≤ 6 →
    exec (.bwForce d en code) s = .fault (.unpredictable "R9")) ∧
  (∀ (d : Dev) (en : Bool) (code : BitVec 3) (s : State), (code.toNat < 4 ∨ code.toNat = 7) → (s.com d).cr.state = .holdover →
    exec (.bwForce d en code) s = .fault (.unpredictable "R10"))

/-- R109, whole: STEP is accepted where the remainder stays within 32,768 FRAC and, at a time child, nothing is bound; it
then adds to PSTEP_REMAIN, and at a child to TARGET. A refused write changes nothing but ERR_RANGE or ERR_BOUND. -/
def Obligations.PhaseStepWritten : Prop :=
  (∀ (d : Dev) (v : Half) (s : State), ((s.com d).cr.pstepRemain + v.toInt).natAbs ≤ 32768 → s.rootMaster d = false →
    s.devBound d = false →
    ∃ t, exec (.pstepWrite d v) s = .next t ∧ (t.com d).cr =
      { (s.com d).cr with pstepRemain := (s.com d).cr.pstepRemain + v.toInt, target := (s.com d).cr.target + v.toInt } ∧
      (t.com d).time = (s.com d).time ∧ (t.com d).regs = (s.com d).regs ∧ t.tsu = s.tsu ∧ t.jup = s.jup ∧ t.out = s.out) ∧
  (∀ (d : Dev) (v : Half) (s : State), ((s.com d).cr.pstepRemain + v.toInt).natAbs ≤ 32768 → s.rootMaster d = true →
    ∃ t, exec (.pstepWrite d v) s = .next t ∧ (t.com d).cr =
      { (s.com d).cr with pstepRemain := (s.com d).cr.pstepRemain + v.toInt } ∧ t.tsu = s.tsu ∧ t.jup = s.jup ∧ t.out = s.out) ∧
  (∀ (d : Dev) (v : Half) (s : State), 32768 < ((s.com d).cr.pstepRemain + v.toInt).natAbs →
    ∃ t, exec (.pstepWrite d v) s = .next t ∧ (t.com d).cr =
      { (s.com d).cr with errRange := true, errBound := (s.com d).cr.errBound || (!s.rootMaster d && s.devBound d) } ∧
      t.tsu = s.tsu ∧ t.jup = s.jup ∧ t.out = s.out) ∧
  (∀ (d : Dev) (v : Half) (s : State), ((s.com d).cr.pstepRemain + v.toInt).natAbs ≤ 32768 → s.rootMaster d = false →
    s.devBound d = true →
    ∃ t, exec (.pstepWrite d v) s = .next t ∧ (t.com d).cr = { (s.com d).cr with errBound := true } ∧
      t.tsu = s.tsu ∧ t.jup = s.jup ∧ t.out = s.out) ∧
  (∀ (s : State), s.devBound .tsu = s.tsu.chans.any fun e => decide (e.2.state ≠ .unbound))

/-- R111, R113, R114: pulse outputs. A FREE edge of a period of 64 ticks or more is placed on the grid of its period and driven
once, at the level of POL, and its inactive edge follows WIDTH times 64 ticks later; OFF drives the inactive level; an ALIGN edge
leaves in the tick that it is placed on: at its target, or, when edges return after missing ones, within 256 FRAC a period
toward a target within half a tick; a missing input edge counts, and the fourth in a row sets ALIGN_LOST. MODE 3 and a shorter FREE period stop. -/
def Obligations.PulsesPlaced : Prop :=
  (∀ (d : Dev) (k : Fin 2) (e : Int) (s : State), fld (s.pulseCfg d k.val) 1 0 = 1 → 64 ≤ s.pulsePeriod d k.val →
    s.freeEdge d k.val = some e → s.offDue d k.val = none →
    ∃ t, exec (.pulseEdgeOut d k) s = .next t ∧ t.out = s.out ++ [.pulse d k (stampOf e) (!(s.pulseCfg d k.val).getLsbD 4)] ∧
      (t.pulse d k.val).lastOut = some e ∧
      (t.pulse d k.val).offAt = some (e + fld (s.pulseCfg d k.val) 31 16 * 64 * 65536) ∧ (t.com d).time = (s.com d).time) ∧
  (∀ (d : Dev) (k : Fin 2) (s : State), fld (s.pulseCfg d k.val) 1 0 = 1 → 64 ≤ s.pulsePeriod d k.val →
    s.freeEdge d k.val = none → s.offDue d k.val = none → exec (.pulseEdgeOut d k) s = .next s) ∧
  (∀ (d : Dev) (k : Fin 2) (e : Int) (s : State), fld (s.pulseCfg d k.val) 1 0 = 1 → 64 ≤ s.pulsePeriod d k.val →
    s.freeEdge d k.val = none → (s.pulse d k.val).offAt = some e → e / 65536 = (s.now d).toNat →
    ∃ t, exec (.pulseEdgeOut d k) s = .next t ∧ t.out = s.out ++ [.pulse d k (stampOf e) ((s.pulseCfg d k.val).getLsbD 4)]) ∧
  (∀ (d : Dev) (k : Fin 2) (s : State), fld (s.pulseCfg d k.val) 1 0 = 0 → (s.pulse d k.val).offAt = none →
    exec (.pulseEdgeOut d k) s = .next s) ∧
  (∀ (d : Dev) (k : Fin 2) (s : State), fld (s.pulseCfg d k.val) 1 0 = 0 → (s.pulse d k.val).offAt.isSome = true →
    ∃ t, exec (.pulseEdgeOut d k) s = .next t ∧
      t.out = s.out ++ [.pulse d k (stampOf ((s.now d).toNat * 65536)) ((s.pulseCfg d k.val).getLsbD 4)]) ∧
  (∀ (k : Fin 2) (t : Int) (s : State), fld (s.pulseCfg .jup k.val) 1 0 = 2 → s.alignTarget .jup k.val = some t →
    s.offDue .jup k.val = none → (Pulse.place (s.pulse .jup k.val) t).1 / 65536 = (s.now .jup).toNat →
    exec (.pulseEdgeOut .jup k) s = .next (s.alignEdge .jup k t)) ∧
  (∀ (d : Dev) (k : Fin 2) (t : Int) (s : State), (s.pulse d k.val).alignLost = false → (s.pulse d k.val).mute = 0 →
    Pulse.jumps (s.pulse d k.val) t = false →
    (s.alignEdge d k t).out =
      s.out ++ [.pulse d k (stampOf (snap (Pulse.place (s.pulse d k.val) t).1)) (!(s.pulseCfg d k.val).getLsbD 4)]) ∧
  (∀ (p : Pulse) (l t : Int), p.lastOut = some l → p.ret = true → p.missRun = 0 →
    (t - (l + meanNear p.ivals)).natAbs ≤ 32768 → ((Pulse.place p t).1 - (l + meanNear p.ivals)).natAbs ≤ 256) ∧
  (∀ (p : Pulse) (t : Int), p.ret = false ∨ p.missRun ≠ 0 → Pulse.place p t = (t, true)) ∧
  (∀ (d : Dev) (k : Fin 2) (s : State), fld (s.pulseCfg d k.val) 1 0 = 3 →
    exec (.pulseEdgeOut d k) s = .fault (.unpredictable "R9")) ∧
  (∀ (d : Dev) (k : Fin 2) (s : State), fld (s.pulseCfg d k.val) 1 0 = 1 → s.pulsePeriod d k.val < 64 →
    exec (.pulseEdgeOut d k) s = .fault (.unpredictable "R10")) ∧
  (∀ (d : Dev) (k : Fin 2) (s : State), fld (s.pulseCfg d k.val) 1 0 = 2 →
    ∃ t, exec (.alignEdgeMissing d k) s = .next t ∧ (t.pulse d k.val).missed = satInc (s.pulse d k.val).missed ∧
      (t.pulse d k.val).missRun = (s.pulse d k.val).missRun + 1 ∧
      (t.pulse d k.val).alignLost = ((s.pulse d k.val).alignLost || decide (4 ≤ (s.pulse d k.val).missRun + 1)) ∧ t.out = s.out) ∧
  (∀ (d : Dev) (k : Fin 2) (s : State), fld (s.pulseCfg d k.val) 1 0 ≠ 2 → exec (.alignEdgeMissing d k) s = .next s)


/-! ## Step channels -/

/-- R10, R38, R116, R117, R118, R158, R160, R162, R169: the controls of a channel. BIND of an UNBOUND channel of a LOCKED TSU with a
region leaves it READY at step 0, another leaves its reason in ERR, and banks that overlap another bound channel's stop; ARM and
RESUME are accepted in their states only, ARM with a tick already past raises STEP_LATE, RESUME with one stops the step; HOLD
and UNBIND of a RUNNING channel wait for its boundary, and UNBIND of another that is bound takes effect at once. -/
def Obligations.ChannelControls : Prop :=
  (∀ (c : Fin 8) (s : State), s.bankClash c = false → s.tsuC.time.state = .locked → s.tsuC.time.epochSplit = false →
    (s.chan c).state = .unbound → s.bankSize c ≠ 0 →
    ∃ t, exec (.bind c) s = .next t ∧ (t.chan c).state = .ready ∧ (t.chan c).step = 0 ∧ (t.chan c).pc = 0 ∧
      (t.chan c).holdCause = 0 ∧ (t.chan c).ckpt = s.ckptInit c ∧ (t.chan c).job = (s.chan c).job ∧
      (t.chan c).rank = (s.chan c).rank ∧ (∀ k, k ≠ c.val → t.chan k = s.chan k) ∧ t.tsuC = s.tsuC ∧ t.jup = s.jup ∧ t.out = s.out) ∧
  (∀ (c : Fin 8) (s : State), s.bindErr c ≠ 0 →
    exec (.bind c) s = .next (s.modChan c fun x => { x with err := s.bindErr c })) ∧
  (∀ (c : Nat) (s : State), (s.bindErr c = 1 ↔ (s.tsuC.time.state ≠ .locked ∨ s.tsuC.time.epochSplit = true)) ∧
    (s.bindErr c = 2 → (s.chan c).state ≠ .unbound) ∧ (s.bindErr c = 3 → s.bankSize c = 0)) ∧
  (∀ (c : Fin 8) (s : State), s.bindErr c = 0 → s.bankClash c = true → exec (.bind c) s = .fault (.unpredictable "R10")) ∧
  (∀ (c : Fin 8) (s : State), (s.chan c).state = .ready → s.now .tsu < (s.chan c).startTick →
    exec (.arm c) s = .next (s.modChan c fun x => { x with arm := true })) ∧
  (∀ (c : Fin 8) (s : State), (s.chan c).state = .ready → (s.chan c).startTick ≤ s.now .tsu →
    exec (.arm c) s = .next (s.raiseChan c cStepLate (idxCtx c (s.chan c).startIndex))) ∧
  (∀ (c : Fin 8) (s : State), (s.chan c).state ≠ .ready → exec (.arm c) s = .next s) ∧
  (∀ (c : Fin 8) (s : State), s.resumeBarred c = false → s.now .tsu ≤ (s.chan c).startTick →
    exec (.resume c) s = .next (s.modChan c fun x => { x with resume := true })) ∧
  (∀ (c : Fin 8) (s : State), s.resumeBarred c = true → exec (.resume c) s = .next (s.modChan c fun x => { x with err := 2 })) ∧
  (∀ (c : Fin 8) (s : State), s.resumeBarred c = false → (s.chan c).startTick < s.now .tsu →
    exec (.resume c) s = .next ((s.raiseChan c cStepLate {}).stopStep c 5 cStepLate {})) ∧
  (∀ (c : Fin 8) (s : State), (s.chan c).state = .running → s.lockMates c = [] →
    ∃ t, exec (.hold c) s = .next t ∧ (t.chan c).hold = true ∧ 2 ∈ (t.chan c).holdWant ∧ (t.chan c).state = .running ∧
      (t.chan c).step = (s.chan c).step ∧ (∀ k, k ≠ c.val → t.chan k = s.chan k) ∧ t.tsuC = s.tsuC ∧ t.out = s.out) ∧
  (∀ (c : Fin 8) (s : State), (s.chan c).state ≠ .running → exec (.hold c) s = .next s) ∧
  (∀ (c : Fin 8) (s : State), (s.chan c).state = .running →
    exec (.unbind c) s = .next (s.modChan c fun x => { x with unbindPend := true })) ∧
  (∀ (c : Fin 8) (s : State), (s.chan c).state = .ready ∨ (s.chan c).state = .held ∨ (s.chan c).state = .halted →
    exec (.unbind c) s = .next ((s.modChan c Chan.unbound).unbindFilters c)) ∧
  (∀ (c : Fin 8) (s : State), (s.chan c).state = .stopped →
    exec (.unbind c) s = .next ((((s.emit (.shd c false)).cancelWaits c).modChan c Chan.unbound).unbindFilters c)) ∧
  (∀ (c : Fin 8) (s : State), Table.wf {} s.tsu.chans = true →
    (s.chan c).state = .ready ∨ (s.chan c).state = .held ∨ (s.chan c).state = .halted →
    ∃ t, exec (.unbind c) s = .next t ∧ (t.chan c).state = .unbound ∧ (∀ k, k ≠ c.val → t.chan k = s.chan k) ∧ t.tsuC = s.tsuC)

/-- R118, R126, R158 to R162, R397: an armed READY channel starts on START_TICK exactly, at step 0 of its start index, a resume on
its tick, from the boundary record. A start command arms the channel; a hold or stretch command is kept for its step on a
channel that is still to commit it, and for the same boundary of every bound member of its lock group; one that comes too late
stops the step. An UNBOUND channel takes none but a start, and in DARK none is delivered. -/
def Obligations.ChannelsStart : Prop :=
  (∀ (c : Fin 8) (s : State), (s.chan c).arm = true → (s.chan c).state = .ready → (s.chan c).startTick = s.now .tsu →
    s.clamped true = false → s.badFrom 0 c 0 = [] → s.badFrom 1 c 0 = [] →
    ∃ t, exec (.startTickReached c) s = .next t ∧ (t.chan c).state = .running ∧ (t.chan c).step = 0 ∧
      (t.chan c).pc = (s.chan c).startIndex ∧ (t.chan c).bnd.tick = s.now .tsu ∧ (t.chan c).bnd.index = (s.chan c).startIndex ∧
      (t.chan c).prog.beginTick = s.now .tsu ∧ (t.chan c).prog.refTick = s.now .tsu ∧
      (t.chan c).arm = false ∧ t.out = s.out ++ [.stepBegin c (s.now .tsu)] ∧ t.jup = s.jup ∧ t.jupC = s.jupC) ∧
  (∀ (c : Fin 8) (s : State), (s.chan c).startTick ≠ s.now .tsu → exec (.startTickReached c) s = .next s) ∧
  (∀ (c : Fin 8) (s : State), (s.chan c).resume = true → (s.chan c).startTick = s.now .tsu →
    exec (.resumeTickReached c) s = .next (s.resumeNow c)) ∧
  (∀ (c : Fin 8) (s : State), (s.chan c).resume = true → (s.chan c).startTick = s.now .tsu → s.lockGrp c = 0 →
    (s.chan c).state = .held ∨ (s.chan c).state = .stopped → s.badFrom 2 c boundaryWord = [] →
    ∃ t, exec (.resumeTickReached c) s = .next t ∧ (t.chan c).state = .running ∧ (t.chan c).step = (s.chan c).bnd.step ∧
      (t.chan c).pc = (s.chan c).bnd.index ∧ (t.chan c).prog.sels = (s.chan c).bnd.sels ∧
      (t.chan c).prog.states = (s.chan c).bnd.states ∧ (t.chan c).prog.loops = (s.chan c).bnd.loops ∧
      (t.chan c).prog.beginTick = s.now .tsu ∧ (t.chan c).run = (s.chan c).run ∧ (t.chan c).resume = false) ∧
  (∀ (c : Fin 8) (s : State), resumable (s.chan c) = false →
    s.resumeNow c = (s.modChan c fun x => { x with resume := false }).modChan c fun x => { x with err := 2 }) ∧
  (∀ (c : Fin 8) (tick : Tick) (i : BitVec 16) (s : State), s.tsu.power.state ≠ 4 → (s.chan c).state = .ready → s.now .tsu < tick →
    ∃ t, exec (.stepStart c tick i) s = .next t ∧ (t.chan c).startTick = tick ∧ (t.chan c).startIndex = i ∧ (t.chan c).arm = true ∧
      (t.chan c).state = .ready ∧ (∀ k, k ≠ c.val → t.chan k = s.chan k) ∧ t.jup = s.jup ∧ t.out = s.out) ∧
  (∀ (c : Fin 8) (n : BitVec 64) (q : Bool) (s : State), s.tsu.power.state ≠ 4 → (s.chan c).state ≠ .unbound →
    stepAhead (s.chan c) n = true →
    ∃ t, exec (.stepHold c n q) s = .next t ∧ (t.chan c).holdStep = (s.chan c).holdStep ++ [(n, if q then 7 else 1)] ∧
      (t.chan c).state = (s.chan c).state ∧
      (∀ j ∈ s.lockBound c, (mateStep (s.chan c) (s.chan j) n, 8) ∈ (t.chan j).holdStep) ∧ t.jup = s.jup ∧ t.out = s.out) ∧
  (∀ (c : Fin 8) (n : BitVec 64) (v : BitVec 20) (s : State), s.tsu.power.state ≠ 4 → (s.chan c).state ≠ .unbound →
    stepAhead (s.chan c) n = true →
    ∃ t, exec (.stepStretch c n v) s = .next t ∧ (n, v) ∈ (t.chan c).stretchNext ∧
      (t.chan c).stretchNext.length = (s.chan c).stretchNext.length + 1 ∧ (t.chan c).state = (s.chan c).state ∧
      (∀ j ∈ s.lockBound c, (mateStep (s.chan c) (s.chan j) n, v) ∈ (t.chan j).stretchNext) ∧ t.jup = s.jup ∧ t.out = s.out) ∧
  (∀ (c : Fin 8) (n : BitVec 64) (q : Bool) (v : BitVec 20) (s : State), s.tsu.power.state ≠ 4 → (s.chan c).state ≠ .unbound →
    stepAhead (s.chan c) n = false →
    exec (.stepHold c n q) s = .next ((s.takeCommand opHoldJob).lateCommand c) ∧
    exec (.stepStretch c n v) s = .next ((s.takeCommand opStretchJob).lateCommand c)) ∧
  (∀ (c : Fin 8) (n : BitVec 64) (q : Bool) (v : BitVec 20) (s : State), s.tsu.power.state ≠ 4 → (s.chan c).state = .unbound →
    exec (.stepHold c n q) s = .next (s.takeCommand opHoldJob) ∧
    exec (.stepStretch c n v) s = .next (s.takeCommand opStretchJob)) ∧
  (∀ (c : Fin 8) (n : BitVec 64) (q : Bool) (v : BitVec 20) (k : Tick) (i : BitVec 16) (s : State), s.tsu.power.state = 4 →
    exec (.stepHold c n q) s = .next s ∧ exec (.stepStretch c n v) s = .next s ∧ exec (.stepStart c k i) s = .next s)

/-- R122, R125, R128, R136, R138, R142, R146, R148, R151, R156, R157: the descriptor that is next acts on its action tick and on no
other, with the effect of its kind: a LAUNCH leaves on the channel's lanes, a WAIT opens a wait, a BRANCH goes where its
selector sends it, a gate VOTE and a VOTE queue their contribution for 32 ticks later, a SIGNAL changes the object it may use, an
IDLE only takes its tick, a HALT leaves the channel HALTED. Before that tick nothing happens; after it, and where a limit of R123
is broken, the descriptor does not act and STEP_LATE is raised; a LAUNCH after the gate VOTE raises STEP_GATE_ORDER. -/
def Obligations.DescriptorsAct : Prop :=
  (∀ (c : Fin 8) (d : BitVec 128) (s : State), s.nextDesc c 1 = .desc d → actionTick (s.chan c).prog d = s.now .tsu →
    (s.chan c).prog.breaks (s.now .tsu) = false → (s.chan c).prog.gateVoted = false →
    badEntry (s.reg64 .tsu (smtOff c (s.chan c).bank (fld d 95 84))) = false → d.getLsbD 123 = false → s.clamped true = false →
    ∃ t, exec (.launch c) s = .next t ∧ t.out = s.out ++ [.launch c (BitVec.ofNat 20 (max 256 (fld d 83 64)))
        ((s.reg64 .tsu (smtOff c (s.chan c).bank (fld d 95 84))).extractLsb' 16 48) (d.extractLsb' 0 64)] ∧
      (t.chan c).pc = (s.chan c).pc + 1 ∧ (t.chan c).prog.refTick = s.now .tsu ∧ (t.chan c).state = .running) ∧
  (∀ (c : Fin 8) (d : BitVec 128) (s : State), s.nextDesc c 2 = .desc d → actionTick (s.chan c).prog d = s.now .tsu →
    (s.chan c).prog.breaks (s.now .tsu) = false → s.opAllowed c (dCore d) (dSlot d) (4 + fld d 122 120) = true → fld d 122 120 ≠ 4 →
    ∃ t, exec (.wait c) s = .next t ∧ t.tsu.sync.waits = s.tsu.sync.waits ++
        [{ who := .chan c, ch := c, core := dCore d, slot := dSlot d, cond := fld d 122 120, count := dCount d,
           timeout := d.extractLsb' 32 32, tag := (s.chan c).pc, tick := s.now .tsu, round := 0 }] ∧
      (t.chan c).pc = (s.chan c).pc + 1 ∧ t.out = s.out) ∧
  (∀ (c : Fin 8) (d : BitVec 128) (s : State), s.nextDesc c 3 = .desc d → actionTick (s.chan c).prog d = s.now .tsu →
    (s.chan c).prog.breaks (s.now .tsu) = false → s.sramBad 2 c (fld d 95 92) = false → s.selState c (fld d 95 92) = .valid →
    ∃ t, exec (.branch c) s = .next t ∧ (t.chan c).pc = branchTo d (s.selVal c (fld d 95 92)) (s.chan c).pc ∧
      (t.chan c).prog.refTick = s.now .tsu ∧ (t.chan c).state = .running ∧ t.out = s.out) ∧
  (∀ (c : Fin 8) (run : Bool) (d : BitVec 128) (e : Nat × Word) (s : State), s.nextDesc c 5 = .desc d →
    actionTick (s.chan c).prog d = s.now .tsu → (s.chan c).prog.breaks (s.now .tsu) = false → (s.chan c).prog.gateVoted = false →
    s.formatEntry c (dGroup d) = some e → s.sramBad 3 c e.1 = false → s.groupOk c d e.2 = true → d.getLsbD 122 = true →
    ∃ t, exec (.vote c run) s = .next t ∧ (t.chan c).prog.gateVoted = true ∧
      (∃ u, (t.chan c).prog.unsent = (s.chan c).prog.unsent ++ [u] ∧ u.due = s.now .tsu + 32 ∧ u.gate = true) ∧
      dGroup d ∈ (t.chan c).prog.named ∧ t.out = s.out) ∧
  (∀ (c : Fin 8) (run : Bool) (d : BitVec 128) (e : Nat × Word) (s : State), s.nextDesc c 5 = .desc d →
    actionTick (s.chan c).prog d = s.now .tsu → (s.chan c).prog.breaks (s.now .tsu) = false → (s.chan c).prog.gateVoted = false →
    s.formatEntry c (dGroup d) = some e → s.sramBad 3 c e.1 = false → s.groupOk c d e.2 = true → d.getLsbD 122 = false →
    (s.chan c).prog.fields.contains (fld d 83 82) = false → fmtOp e.2 ≠ 0xD → d.getLsbD 123 = false →
    ∃ t, exec (.vote c run) s = .next t ∧ tget .valid (t.chan c).prog.states (fld d 81 78) = .pending ∧
      (∃ u, (t.chan c).prog.unsent = (s.chan c).prog.unsent ++ [u] ∧ u.due = s.now .tsu + 32 ∧ u.gate = false) ∧
      dGroup d ∈ (t.chan c).prog.named ∧ t.out = s.out) ∧
  (∀ (c : Fin 8) (eg : EgAns) (d : BitVec 128) (s : State), s.nextDesc c 6 = .desc d →
    actionTick (s.chan c).prog d = s.now .tsu → (s.chan c).prog.breaks (s.now .tsu) = false → d.getLsbD 121 = false →
    s.opAllowed c (dCore d) (dSlot d) (fld d 123 122) = true →
    exec (.signal c eg) s = .next ((s.act c (s.now .tsu)).objOp (dCore d) (dSlot d) (fld d 123 122) (dCount d) 0x7FF)) ∧
  (∀ (c : Fin 8) (eg : EgAns) (d : BitVec 128) (s : State), s.nextDesc c 6 = .desc d →
    actionTick (s.chan c).prog d = s.now .tsu → (s.chan c).prog.breaks (s.now .tsu) = false → d.getLsbD 121 = true →
    eg.path ≠ noPath → s.clamped true = false →
    ∃ t, exec (.signal c eg) s = .next t ∧ t.out = s.out ++ [.egq c (d.extractLsb' 54 17)] ∧ t.tsu.sync.slots = s.tsu.sync.slots) ∧
  (∀ (c : Fin 8) (d : BitVec 128) (s : State), s.nextDesc c 8 = .desc d → actionTick (s.chan c).prog d = s.now .tsu →
    (s.chan c).prog.breaks (s.now .tsu) = false →
    ∃ t, exec (.idle c) s = .next t ∧ (t.chan c).pc = (s.chan c).pc + 1 ∧ (t.chan c).prog.refTick = s.now .tsu ∧
      (t.chan c).state = .running ∧ t.out = s.out) ∧
  (∀ (c : Fin 8) (d : BitVec 128) (s : State), s.nextDesc c 0 = .desc d → actionTick (s.chan c).prog d = s.now .tsu →
    (s.chan c).prog.breaks (s.now .tsu) = false → s.clamped true = false →
    ∃ t, exec (.halt c) s = .next t ∧ (t.chan c).state = .halted ∧ (t.chan c).running = false ∧
      .stop c ∈ t.out ∧ .shd c false ∈ t.out) ∧
  (∀ (c : Fin 8) (d : BitVec 128) (eg : EgAns) (run : Bool) (s : State), s.now .tsu < actionTick (s.chan c).prog d →
    (s.nextDesc c 1 = .desc d → exec (.launch c) s = .next s) ∧ (s.nextDesc c 2 = .desc d → exec (.wait c) s = .next s) ∧
    (s.nextDesc c 3 = .desc d → exec (.branch c) s = .next s) ∧ (s.nextDesc c 5 = .desc d → exec (.vote c run) s = .next s) ∧
    (s.nextDesc c 6 = .desc d → exec (.signal c eg) s = .next s) ∧ (s.nextDesc c 7 = .desc d → exec (.commit c) s = .next s) ∧
    (s.nextDesc c 8 = .desc d → exec (.idle c) s = .next s) ∧ (s.nextDesc c 0 = .desc d → exec (.halt c) s = .next s)) ∧
  (∀ (c : Fin 8) (d : BitVec 128) (eg : EgAns) (run : Bool) (s : State), actionTick (s.chan c).prog d < s.now .tsu →
    (s.nextDesc c 1 = .desc d → exec (.launch c) s = .next (s.late c (actionTick (s.chan c).prog d))) ∧
    (s.nextDesc c 2 = .desc d → exec (.wait c) s = .next (s.late c (actionTick (s.chan c).prog d))) ∧
    (s.nextDesc c 3 = .desc d → exec (.branch c) s = .next (s.late c (actionTick (s.chan c).prog d))) ∧
    (s.nextDesc c 5 = .desc d → exec (.vote c run) s = .next (s.late c (actionTick (s.chan c).prog d))) ∧
    (s.nextDesc c 6 = .desc d → exec (.signal c eg) s = .next (s.late c (actionTick (s.chan c).prog d))) ∧
    (s.nextDesc c 8 = .desc d → exec (.idle c) s = .next (s.late c (actionTick (s.chan c).prog d))) ∧
    (s.nextDesc c 0 = .desc d → exec (.halt c) s = .next (s.late c (actionTick (s.chan c).prog d)))) ∧
  (∀ (c : Fin 8) (d : BitVec 128) (s : State), s.nextDesc c 1 = .desc d → actionTick (s.chan c).prog d = s.now .tsu →
    (s.chan c).prog.gateVoted = true →
    exec (.launch c) s = .next ((s.advance c (s.now .tsu)).stepFault c cGateOrder (idxCtx c (s.chan c).pc))) ∧
  (∀ (s : State) (c : Nat) (t : Tick), (s.act c t).jup = s.jup ∧ (s.act c t).jupC = s.jupC ∧ (s.act c t).tsuC = s.tsuC ∧
    (s.act c t).out = s.out)

/-- R154, whole: COUNT loads a counter of 0 with COUNT, counts it down and jumps while it is nonzero; FOREVER jumps and
leaves the counter alone; CLEAR sets it to 0 and falls through. No other counter changes. -/
def Obligations.LoopModes : Prop :=
  (∀ (c : Fin 8) (d : BitVec 128) (s : State), s.nextDesc c 4 = .desc d →
    (s.chan c).prog.breaks (actionTick (s.chan c).prog d) = false →
    exec (.loop c) s = .next ((s.actLoop c (actionTick (s.chan c).prog d)).modChan c fun x =>
      { x with pc := (loopTo d x.prog.loops (s.chan c).pc).1,
               prog := { x.prog with loops := (loopTo d x.prog.loops (s.chan c).pc).2 } })) ∧
  (∀ (d : BitVec 128) (l : Table Half) (i : BitVec 16), Table.wf 0 l = true → fld d 123 122 = 0 →
    (loopTo d l i).1 = (if (if tget 0 l (fld d 95 93) = 0 then d.extractLsb' 32 32 else tget 0 l (fld d 95 93)) = 1
      then i + 1 else d.extractLsb' 64 16) ∧
    tget 0 (loopTo d l i).2 (fld d 95 93) =
      (if tget 0 l (fld d 95 93) = 0 then d.extractLsb' 32 32 else tget 0 l (fld d 95 93)) - 1 ∧
    Table.wf 0 (loopTo d l i).2 = true) ∧
  (∀ (d : BitVec 128) (l : Table Half) (i : BitVec 16), fld d 123 122 = 1 → loopTo d l i = (d.extractLsb' 64 16, l)) ∧
  (∀ (d : BitVec 128) (l : Table Half) (i : BitVec 16), Table.wf 0 l = true → fld d 123 122 = 2 →
    (loopTo d l i).1 = i + 1 ∧ tget 0 (loopTo d l i).2 (fld d 95 93) = 0) ∧
  (∀ (d : BitVec 128) (l : Table Half) (i : BitVec 16) (k : Nat), k ≠ fld d 95 93 → tget 0 (loopTo d l i).2 k = tget 0 l k) ∧
  (∀ (c : Fin 8) (k : Code) (s : State), s.nextDesc c 4 = .bad k → exec (.loop c) s = .next (s.fetchFault c k))

/-- R130, R131, R159, R161: a COMMIT takes effect only when no selector is PENDING, the step has not stopped and its
gate passed (a LOCAL one, of a die-local job, without a gate); it then makes the shadow writes visible and steps the step number, with
the boundary record of the next descriptor, and the next step begins. One that fails drops the shadow writes, raises its fault
and holds at the boundary. -/
def Obligations.CommitRule : Prop :=
  (∀ (c : Fin 8) (d : BitVec 128) (s : State), s.nextDesc c 7 = .desc d → actionTick (s.chan c).prog d = s.now .tsu →
    (s.chan c).prog.breaks (s.now .tsu) = false →
    exec (.commit c) s = .next ((s.act c (s.now .tsu)).commitBody c d (s.chan c).pc (s.now .tsu))) ∧
  (∀ (c : Fin 8) (d : BitVec 128) (s : State), s.nextDesc c 7 = .desc d → actionTick (s.chan c).prog d = s.now .tsu →
    (s.chan c).prog.breaks (s.now .tsu) = false → s.lockMates c = [] → s.commitFail c (d.getLsbD 123) = none →
    holdCauses (s.chan c) (s.chan c).step = [] → (s.chan c).unbindPend = false → (s.chan c).swapGo = false → s.clamped true = false →
    s.badFrom 0 c 0 = [] → s.badFrom 1 c 0 = [] →
    ∃ t, exec (.commit c) s = .next t ∧ (t.chan c).state = .running ∧ (t.chan c).step = (s.chan c).step + 1 ∧
      (t.chan c).bnd.step = (s.chan c).step + 1 ∧ (t.chan c).bnd.tick = s.now .tsu ∧
      (t.chan c).bnd.index = (s.chan c).pc + 1 ∧ (t.chan c).bnd.sels = (s.chan c).prog.sels ∧
      (∃ b, t.out = s.out ++ [.shd c true, .stepBegin c b])) ∧
  (∀ (c : Nat) (s : State), s.commitFail c false = none →
    (s.chan c).prog.gate = 2 ∧ (s.chan c).prog.stopped = false ∧ s.conjOpen c = false ∧
    ∀ e ∈ (s.chan c).prog.states, e.2 ≠ .pending) ∧
  (∀ (c : Nat) (s : State), s.commitFail c true = none →
    s.chSpan c = 0 ∧ (s.chan c).prog.stopped = false ∧ s.conjOpen c = false ∧ ∀ e ∈ (s.chan c).prog.states, e.2 ≠ .pending) ∧
  (∀ (c : Nat) (t : Tick) (s : State), (s.chan c).step ≠ 0xFFFFFFFFFFFFFFFF → s.clamped true = false →
    ((s.commitTaken c t).chan c).step = (s.chan c).step + 1 ∧
    ((s.commitTaken c t).chan c).bnd.step = (s.chan c).step + 1 ∧ ((s.commitTaken c t).chan c).bnd.tick = t ∧
    (s.commitTaken c t).out = s.out ++ [.shd c true] ∧ (s.commitTaken c t).tsuC = s.tsuC ∧ (s.commitTaken c t).jup = s.jup) ∧
  (∀ (c : Nat) (il : Bool) (i : BitVec 16) (t : Tick) (k : Code) (s : State), s.commitFail c il = some k →
    s.commitCore c il i t = (((s.emit (.shd c false)).raiseChan c k (idxCtx c i)).modChan c fun x =>
      x.clearHoldStep x.step).holdAtBoundary c (3 :: holdCauses (s.chan c) (s.chan c).step)) ∧
  (∀ (c : Nat) (il : Bool) (i : BitVec 16) (t : Tick) (s : State), s.commitFail c il = none → holdCauses (s.chan c) (s.chan c).step = [] →
    (s.chan c).unbindPend = false →
    s.commitCore c il i t =
      ((s.commitTaken c t).emit (.stepBegin c ((s.commitTaken c t).chan c).prog.beginTick)).snapCheck c) ∧
  (∀ (c : Nat) (il : Bool) (i : BitVec 16) (t : Tick) (s : State), s.commitFail c il = none → holdCauses (s.chan c) (s.chan c).step ≠ [] →
    s.commitCore c il i t =
      (((s.commitTaken c t).noteParity 0 c 0).noteParity 1 c 0).holdAtBoundary c (holdCauses (s.chan c) (s.chan c).step))

/-- R133, R211: a stop of the step before the gate VOTE: the channel is HELD with the cause; its selectors, selector
states and loop counters are those of the last boundary record, the streams are ended and the shadow writes dropped. -/
def Obligations.StopRestoresBoundary : Prop :=
  ∀ (c : Nat) (cause : Nat) (s : State), (s.chan c).state = .running → (s.chan c).unbindPend = false →
    ((s.stopOne c cause).chan c).state = .held ∧ ((s.stopOne c cause).chan c).holdCause = BitVec.ofNat 6 cause ∧
    ((s.stopOne c cause).chan c).pc = (s.chan c).bnd.index ∧ ((s.stopOne c cause).chan c).step = (s.chan c).bnd.step ∧
    ((s.stopOne c cause).chan c).prog.sels = (s.chan c).bnd.sels ∧ ((s.stopOne c cause).chan c).prog.states = (s.chan c).bnd.states ∧
    ((s.stopOne c cause).chan c).prog.loops = (s.chan c).bnd.loops ∧ ((s.stopOne c cause).chan c).prog.unsent = [] ∧
    (s.clamped true = false → Out.stop c ∈ (s.stopOne c cause).out ∧ Out.shd c false ∈ (s.stopOne c cause).out)

/-- R142, R144, R207, R209, R228: a wait ends by its condition, by its TIMEOUT or by the watchdog, each only when it is due. A wait that
ends by its condition is over, a taker takes its count, a channel goes on, and a core is answered on the next tick; one that
expires is over as well, leaves the first record, and its channel is STOPPED. -/
def Obligations.WaitsEnd : Prop :=
  (∀ (w : Waiter) (s : State), s.waitOf w = none → exec (.waitSatisfied w) s = .next s ∧ exec (.syncTimeout w) s = .next s ∧
    exec (.stepWatchdog w) s = .next s) ∧
  (∀ (w : Waiter) (r : WaitRec) (s : State), s.waitOf w = some r → s.condHolds r = true → r.cond ≠ 3 →
    s.sramBad 0 (cfgOwner (s.slotCfg r.core r.slot)) (slotKey r.core r.slot) = false →
    ∃ t, exec (.waitSatisfied w) s = .next t ∧ t.waitOf w = none ∧ t.tsu.sync.slots = s.tsu.sync.slots ∧ t.out = s.out ∧
      t.tsu.sync.rsps = s.tsu.sync.rsps ++ (match r.who with | .core n => [(n, 0, r.tag, s.now .tsu + 1)] | .chan _ => [])) ∧
  (∀ (w : Waiter) (r : WaitRec) (s : State), s.waitOf w = some r → s.condHolds r = true → r.cond = 3 → s.firstTaker r = true →
    s.sramBad 0 (cfgOwner (s.slotCfg r.core r.slot)) (slotKey r.core r.slot) = false →
    ∃ t, exec (.waitSatisfied w) s = .next t ∧ t.waitOf w = none ∧
      (Table.wf {} s.tsu.sync.slots = true →
        t.slotVal (slotKey r.core r.slot) = s.slotVal (slotKey r.core r.slot) - r.count)) ∧
  (∀ (w : Waiter) (r : WaitRec) (s : State), s.waitOf w = some r → s.condHolds r = false → exec (.waitSatisfied w) s = .next s) ∧
  (∀ (w : Waiter) (r : WaitRec) (s : State), s.waitOf w = some r → r.timeout ≠ 0 → s.condHolds r = false →
    s.now .tsu = r.tick + r.timeout.setWidth 64 →
    exec (.syncTimeout w) s = .next (s.expireWait r cSyncTimeout 16)) ∧
  (∀ (w : Waiter) (r : WaitRec) (s : State), s.waitOf w = some r → s.now .tsu ≠ r.tick + r.timeout.setWidth 64 →
    exec (.syncTimeout w) s = .next s) ∧
  (∀ (w : Waiter) (r : WaitRec) (s : State), s.waitOf w = some r → r.timeout = 0 → s.condHolds r = false →
    s.now .tsu = r.tick + BitVec.ofNat 64 (s.wdTicks r.ch) →
    exec (.stepWatchdog w) s = .next (s.expireWait r cWatchdog 17)) ∧
  (∀ (w : Waiter) (r : WaitRec) (s : State), s.waitOf w = some r → r.timeout ≠ 0 → exec (.stepWatchdog w) s = .next s) ∧
  (∀ (w : Waiter) (r : WaitRec) (k : Code) (cause : Nat) (s : State), s.waitOf w = some r → r.who = w →
    (s.chan r.ch).state = .running → s.lockMates r.ch = [] → s.tsu.sync.timeout.getLsbD 127 = false →
    (if cfgKind (s.slotCfg r.core r.slot) = 3 then
        s.sramBad 1 (conjOwner (s.conjCfg (cfgRec (s.slotCfg r.core r.slot)))) (cfgRec (s.slotCfg r.core r.slot))
      else s.sramBad 0 (cfgOwner (s.slotCfg r.core r.slot)) (slotKey r.core r.slot)) = false →
    ((s.expireWait r k cause).chan r.ch).state = .stopped ∧
    ((s.expireWait r k cause).chan r.ch).holdCause = BitVec.ofNat 6 cause ∧
    (s.expireWait r k cause).tsu.sync.timeout = s.timeoutRecord r)

/-- R121, R169, R295, R380: the standby bank. VERIFY starts a check, whose end sets OK or BAD by the sum; a swap in READY, HELD or
HALTED is immediate, the next descriptor being NEXT_INDEX, and staged for the boundary only from a commit group; a selector
written in READY or HELD becomes VALID, and in HELD it also enters the boundary record and sets HOST_SEL; in another state nothing is
written. JTAG without a session changes nothing here and is counted as denied. -/
def Obligations.StandbyBank : Prop :=
  (∀ (c : Fin 8) (k : BitVec 16) (s : State),
    ∃ t, exec (.stbyVerify c k) s = .next t ∧ (t.chan c).check = k ∧ (t.chan c).verify = true ∧ (t.chan c).bank = (s.chan c).bank ∧
      (∀ j, j ≠ c.val → t.chan j = s.chan j) ∧ t.tsuC = s.tsuC ∧ t.jup = s.jup ∧ t.out = s.out) ∧
  (∀ (c : Fin 8) (s : State), (s.chan c).verify = true → s.standbySum c = (s.chan c).check →
    ∃ t, exec (.verifyDone c) s = .next t ∧ (t.chan c).stbyOk = true ∧ (t.chan c).stbyBad = false ∧ (t.chan c).verify = false ∧
      t.tsuC = s.tsuC ∧ t.out = s.out) ∧
  (∀ (c : Fin 8) (s : State), (s.chan c).verify = true → s.standbySum c ≠ (s.chan c).check →
    ∃ t, exec (.verifyDone c) s = .next t ∧ (t.chan c).stbyOk = false ∧ (t.chan c).stbyBad = true ∧ t.tsuC = s.tsuC) ∧
  (∀ (c : Fin 8) (s : State), (s.chan c).verify = false → exec (.verifyDone c) s = .next s) ∧
  (∀ (c : Fin 8) (n : BitVec 16) (src : Src) (s : State), s.srcDenied .tsu src = false →
    (s.chan c).state = .ready ∨ (s.chan c).state = .held ∨ (s.chan c).state = .halted →
    ∃ t, exec (.bankSwapGo c n src) s = .next t ∧ (t.chan c).bank = !(s.chan c).bank ∧ (t.chan c).pc = n ∧
      (t.chan c).bnd.index = n ∧ (t.chan c).stbyOk = false ∧ t.tsuC = s.tsuC ∧ t.out = s.out) ∧
  (∀ (c : Fin 8) (n : BitVec 16) (s : State), (s.chan c).state = .running ∨ (s.chan c).state = .stopped →
    ∃ t, exec (.bankSwapGo c n .cg) s = .next t ∧ (t.chan c).bank = (s.chan c).bank ∧ (t.chan c).swapGo = true ∧
      (t.chan c).nextIndex = n) ∧
  (∀ (c : Fin 8) (n : BitVec 16) (s : State), s.srcDenied .tsu .jtag = true →
    exec (.bankSwapGo c n .jtag) s = .next (s.denied .tsu)) ∧
  (∀ (c : Fin 8) (n : Fin 16) (hi : Bool) (v : Half) (src : Src) (s : State), s.srcDenied .tsu src = false →
    (s.chan c).state = .ready ∨ (s.chan c).state = .held →
    ∃ t, exec (.selectorWrite c n hi v src) s = .next t ∧
      (Table.wf 0 (s.chan c).prog.sels = true →
        tget 0 (t.chan c).prog.sels n = selWith (tget 0 (s.chan c).prog.sels n) hi v) ∧
      (Table.wf .valid (s.chan c).prog.states = true → tget .valid (t.chan c).prog.states n = .valid) ∧
      ((s.chan c).state = .held → (t.chan c).hostSel = true ∧ (Table.wf 0 (s.chan c).bnd.sels = true →
        tget 0 (t.chan c).bnd.sels n = selWith (tget 0 (s.chan c).prog.sels n) hi v)) ∧ (t.chan c).state = (s.chan c).state) ∧
  (∀ (c : Fin 8) (n : Fin 16) (hi : Bool) (v : Half) (s : State), s.srcDenied .tsu .jtag = true →
    exec (.selectorWrite c n hi v .jtag) s = .next (s.denied .tsu)) ∧
  (∀ (c : Fin 8) (n : Fin 16) (hi : Bool) (v : Half) (src : Src) (s : State), s.srcDenied .tsu src = false →
    (s.chan c).state ≠ .ready → (s.chan c).state ≠ .held → exec (.selectorWrite c n hi v src) s = .next s)


/-- R139, R148, R393, R412, R418, R420, R421, R423, R427, R429: what the stations, the drains, the network interface and the
shadow-bank controller report, while the main rail is up. A refused launch stops the step of a RUNNING channel with
STATION_BUSY; an overrun is logged with its core, station and cycles, and sets CYCLE; a drained word enters the capture table,
and LAST of a launched stream is kept; the commit's delta joins the channel's sum, and the shadow flow starts; a digest and
the end of a channel's last stream are kept. -/
def Obligations.StationReports : Prop :=
  (∀ (c : Fin 8) (s : State), s.mainOff = false → (s.chan c).state = .running → (s.chan c).prog.unsent.any Unsent.gate = false →
    exec (.stationBusyReport c) s = .next (s.stepFault c cStationBusy {})) ∧
  (∀ (c : Fin 8) (s : State), s.mainOff = false → (s.chan c).state = .running → s.lockMates c = [] →
    (s.chan c).unbindPend = false → (s.chan c).prog.unsent.any Unsent.gate = false → (s.chan c).prog.gateVoted = false →
    ∃ t, exec (.stationBusyReport c) s = .next t ∧ (t.chan c).state = .held ∧ (t.chan c).pc = (s.chan c).bnd.index ∧
      (t.chan c).step = (s.chan c).bnd.step ∧ (s.clamped true = false → Out.stop c ∈ t.out ∧ Out.shd c false ∈ t.out)) ∧
  (∀ (c : Fin 8) (s : State), (s.chan c).state ≠ .running → exec (.stationBusyReport c) s = .next s) ∧
  (∀ (c : Fin 8) (core : BitVec 11) (st : Fin 8) (n : BitVec 31) (s : State), s.mainOff = false →
    exec (.overrunReport c core st n) s = .next (s.raiseChan c cStepOverrun
      { core := core, slot := BitVec.ofNat 6 st.val, detail := detail n.toNat })) ∧
  (∀ (c : Fin 8) (core : BitVec 11) (st : Fin 8) (n : BitVec 31) (s : State), s.mainOff = false →
    ∃ t, exec (.overrunReport c core st n) s = .next t ∧ (t.chan c).cycle = true ∧ (t.chan c).state = (s.chan c).state ∧
      (t.chan c).step = (s.chan c).step ∧ (t.fblock .tsu (blkChan c)).valid = true ∧ (∀ k, k ≠ c.val → t.chan k = s.chan k)) ∧
  (∀ (c : Fin 8) (st : BitVec 13) (slot : BitVec 8) (k : BitVec 4) (last : Bool) (data : Word) (s : State), s.mainOff = false →
    ∃ t, exec (.captureWrite c st slot k last data) s = .next t ∧
      (data ≠ 0 ∨ Table.wf 0 s.tsu.capture = true → tget 0 t.tsu.capture (captureKey slot k.toNat) = data) ∧
      (∀ j, j ≠ captureKey slot k.toNat → tget 0 t.tsu.capture j = tget 0 s.tsu.capture j) ∧ t.tsuC = s.tsuC ∧ t.jup = s.jup ∧
      t.out = s.out) ∧
  (∀ (c : Fin 8) (st : BitVec 13) (slot : BitVec 8) (k : BitVec 4) (data : Word) (s : State), s.mainOff = false →
    (s.chan c).state ≠ .unbound → (s.chan c).prog.writing (s.now .tsu) st = true →
    ∃ t, exec (.captureWrite c st slot k true data) s = .next t ∧
      (t.chan c).prog.captured = (slot, st) :: (s.chan c).prog.captured) ∧
  (∀ (c : Fin 8) (delta : Word) (s : State), s.mainOff = false → (s.chan c).state ≠ .unbound →
    ∃ t, exec (.checkpointDelta c delta) s = .next t ∧ (t.chan c).ckpt = (s.chan c).ckpt + delta ∧ (t.chan c).ckptDue = none ∧
      (t.chan c).step = (s.chan c).step ∧ (∀ k, k ≠ c.val → t.chan k = s.chan k) ∧ t.jup = s.jup ∧
      (s.clamped true = false → t.out = s.out ++ [.shadowFlow c (s.chan c).step]) ∧
      ((s.chan c).ckptDue = none → t.tsuC = s.tsuC)) ∧
  (∀ (c : Fin 8) (i : Fin 16) (crc : Word) (b : Bool) (s : State), s.mainOff = false → (s.chan c).state ≠ .unbound →
    s.sramBad 4 c i = false →
    ∃ t, exec (.digestUpdate c i crc b) s = .next t ∧ (t.chan c).digBusy = b ∧
      (crc ≠ 0 ∨ Table.wf 0 (s.chan c).digests = true → tget 0 (t.chan c).digests i = crc) ∧
      (∀ j, j ≠ i.val → tget 0 (t.chan c).digests j = tget 0 (s.chan c).digests j) ∧ t.tsuC = s.tsuC ∧ t.jup = s.jup ∧ t.out = s.out) ∧
  (∀ (c : Fin 8) (s : State), s.mainOff = false →
    exec (.streamEnd c) s = .next ((s.modChan c fun x => { x with running := false }).powerChoice)) ∧
  (∀ (c : Fin 8) (s : State), s.mainOff = false → (s.chan c).state ≠ .unbound →
    ∃ t, exec (.streamEnd c) s = .next t ∧ (t.chan c).running = false ∧ (t.chan c).state = (s.chan c).state ∧
      (∀ k, k ≠ c.val → t.chan k = s.chan k) ∧ t.jup = s.jup)

/-! ## Votes -/

/-- R30, R148, R177, R179, R203, R269: results at a TSU, out of DARK. A result that matches no VOTE of a current step is discarded as
STRAY with VOTE_STRAY, or fails on arrival the gate of a step whose gate VOTE has not acted; one that matches is kept for its
VALID_TICK, and after it counts as late. On its tick a VOTE settles: its selector takes the first word and becomes VALID, or
FAILED, and the gate passes or fails. Without a result it fails with VOTE_MISSING and the channel holds at its boundary, with
HOLD_CAUSE 3 (assumption 168). -/
def Obligations.ResultsAtTsu : Prop :=
  (∀ (ws : List Word) (s : State), s.tsu.power.state ≠ 4 → s.resultHits ws = [] → s.earlyFails ws = [] →
    ∃ t, exec (.voteResultRx ws) s = .next t ∧ t.tsu.voteStray = satInc s.tsu.voteStray ∧ t.tsu.chans = s.tsu.chans ∧
      t.tsu.sync = s.tsu.sync ∧ (t.fblock .tsu (blkCmd .tsu)).valid = true ∧ t.jup = s.jup ∧ t.out = s.out) ∧
  (∀ (ws : List Word) (s : State), s.tsu.power.state = 4 → exec (.voteResultRx ws) s = .next s) ∧
  (∀ (ws : List Word) (c : Nat) (v : PendVote) (vt : Tick) (s : State), s.tsu.power.state ≠ 4 → s.resultHits ws = [(c, v)] → v.done = false →
    vt = (if (nthW ws 1).extractLsb' 32 32 = 0 then v.validTick else nearTick (s.now .tsu) ((nthW ws 1).extractLsb' 32 32)) →
    s.now .tsu ≤ vt → (nthW ws 1).extractLsb' 32 32 ≠ 0 ∨ v.field ≠ 4 →
    ∃ t, exec (.voteResultRx ws) s = .next t ∧
      (t.chan c).prog.pend = updFirst (fun u => decide (u.field = v.field) && !u.done) (fun u =>
        { u with validTick := vt, result := some ((nthW ws 0).getLsbD 16, (nthW ws 1).extractLsb' 0 7,
                 dieWord v.entry (s.chan c).rank (nthW ws 2) (ws.drop 3) :: ws.drop 3) }) (s.chan c).prog.pend ∧
      (t.chan c).state = (s.chan c).state ∧ (∀ k, k ≠ c → t.chan k = s.chan k) ∧ t.tsu.voteStray = s.tsu.voteStray ∧ t.out = s.out) ∧
  (∀ (ws : List Word) (c : Nat) (v : PendVote) (s : State), s.tsu.power.state ≠ 4 → s.resultHits ws = [(c, v)] → v.done = true →
    ∃ t, exec (.voteResultRx ws) s = .next t ∧ t.tsu.voteLate = satInc s.tsu.voteLate ∧ t.tsu.chans = s.tsu.chans ∧ t.out = s.out) ∧
  (∀ (ws : List Word) (c : Nat) (s : State), s.tsu.power.state ≠ 4 → s.resultHits ws = [] → s.earlyFails ws = [c] →
    ∃ t, exec (.voteResultRx ws) s = .next t ∧ (t.chan c).prog.gate = 3 ∧ (∀ k, k ≠ c → t.chan k = s.chan k) ∧
      t.tsu.voteStray = s.tsu.voteStray) ∧
  (∀ (c : Fin 8) (f : Fin 5) (v : PendVote) (st : BitVec 7) (ws : List Word) (s : State), (s.chan c).state ≠ .unbound →
    (s.chan c).prog.votePend f = some v → v.validTick = s.now .tsu → v.field ≠ 4 → v.nosel = false → v.result = some (false, st, ws) →
    ∃ t, exec (.selectorValid c f) s = .next t ∧
      (Table.wf 0 (s.chan c).prog.sels = true → tget 0 (t.chan c).prog.sels v.sel = nthW ws 0) ∧
      (Table.wf .valid (s.chan c).prog.states = true → tget .valid (t.chan c).prog.states v.sel = .valid) ∧
      tget none (t.chan c).prog.selTick v.sel = some (s.now .tsu) ∧ (tget {} (t.chan c).voteLast v.field).state = 2 ∧
      (tget {} (t.chan c).voteLast v.field).status = st ∧ (t.chan c).state = (s.chan c).state ∧
      (s.clamped true = false → t.out = s.out ++ [.vres (fld v.entry 30 23) ws]) ∧ t.tsuC = s.tsuC ∧ t.jup = s.jup) ∧
  (∀ (c : Fin 8) (f : Fin 5) (v : PendVote) (s : State), (s.chan c).state = .running →
    (s.chan c).prog.votePend f = some v → v.validTick = s.now .tsu → v.field ≠ 4 → v.nosel = false → v.result = none →
    ∃ t, exec (.selectorValid c f) s = .next t ∧ tget .valid (t.chan c).prog.states v.sel = .failed ∧ 3 ∈ (t.chan c).holdWant ∧
      (t.chan c).prog.sels = (s.chan c).prog.sels ∧ (tget {} (t.chan c).voteLast v.field).state = 3 ∧
      (t.fblock .tsu (blkChan c)).valid = true ∧ t.out = s.out) ∧
  (∀ (c : Fin 8) (f : Fin 5) (v : PendVote) (b : Bool) (st : BitVec 7) (ws : List Word) (s : State), (s.chan c).state ≠ .unbound →
    (s.chan c).prog.votePend f = some v → v.validTick = s.now .tsu → v.field = 4 → v.result = some (b, st, ws) →
    ∃ t, exec (.selectorValid c f) s = .next t ∧ (t.chan c).prog.gate = (if b then 3 else 2) ∧
      (t.chan c).prog.sels = (s.chan c).prog.sels ∧ t.tsuC = s.tsuC ∧ t.out = s.out) ∧
  (∀ (c : Fin 8) (f : Fin 5) (v : PendVote) (s : State), (s.chan c).state ≠ .unbound →
    (s.chan c).prog.votePend f = some v → v.validTick = s.now .tsu → v.field = 4 → v.result = none →
    ∃ t, exec (.selectorValid c f) s = .next t ∧ (t.chan c).prog.gate = 3 ∧ (t.fblock .tsu (blkChan c)).valid = true) ∧
  (∀ (c : Fin 8) (f : Fin 5) (v : PendVote) (s : State), (s.chan c).prog.votePend f = some v → v.validTick ≠ s.now .tsu →
    exec (.selectorValid c f) s = .next s) ∧
  (∀ (c : Fin 8) (f : Fin 5) (s : State), (s.chan c).prog.votePend f = none → exec (.selectorValid c f) s = .next s)

/-- R29, R172, R176, R177, R180 to R182, R254: at a Jupin stage, an input that no group record, job or map admits is a STRAY; the
first admitted input of a vote opens its context, a second one joins it, and the vote stays open until its set is full; a deadline
with an input missing fails the vote with VOTE_MISSING, and does nothing before its tick. A gate result that reached a die too
late fences it from the job from the tick after its COMMIT, or after the groups open on the port. -/
def Obligations.InputsAtStage : Prop :=
  (∀ (p : Nat) (ws : List Word) (s : State), s.groupRec ((nthW ws 0).extractLsb' 20 12) = none →
    ∃ t, exec (.voteContributionRx p ws) s = .next t ∧
      (t.grpStat ((nthW ws 0).extractLsb' 20 12).toNat).stray = satInc (s.grpStat ((nthW ws 0).extractLsb' 20 12).toNat).stray ∧
      t.jup.stage.votes = s.jup.stage.votes ∧ (t.fblock .jup p).valid = true ∧ t.tsu = s.tsu) ∧
  (∀ (p : Nat) (ws : List Word) (g : GroupRec) (i : VoteInput) (s : State), s.groupRec ((nthW ws 0).extractLsb' 20 12) = some g →
    i = contribInput g (s.now .jup) ws → g.job ≠ i.job ∨ s.role ≠ 1 ∨ s.contribOk p i = false →
    exec (.voteContributionRx p ws) s = .next ((s.consume .jup p mtVote ws).strayInput p ((nthW ws 0).extractLsb' 20 12))) ∧
  (∀ (p : Nat) (ws : List Word) (g : GroupRec) (i : VoteInput) (s : State), s.groupRec ((nthW ws 0).extractLsb' 20 12) = some g →
    i = contribInput g (s.now .jup) ws → g.job = i.job → s.role = 1 → s.contribOk p i = true → s.inputLate i = false →
    s.voteCtx i.group.toNat = none → (s.grpStat i.group.toNat).stepLo ≠ i.stepLo → s.contextFull none i.ctx = false → i.early = false →
    (∃ k ∈ s.expectedOf i.job (grpBase i.group.toNat) i.beginTick, k ≠ i.key) →
    ∃ t, exec (.voteContributionRx p ws) s = .next t ∧
      t.voteCtx i.group.toNat = some { job := i.job, group := i.group, gate := i.gate, stepLo := i.stepLo, voteTick := i.voteTick,
                                       beginTick := i.beginTick, got := [i.key], acc := i.acc } ∧
      (t.grpStat i.group.toNat).state = 1 ∧ (t.grpStat i.group.toNat).stepLo = i.stepLo ∧
      (∀ n, n ≠ i.group.toNat → t.voteCtx n = s.voteCtx n) ∧ t.tsu = s.tsu ∧ t.out = s.out) ∧
  (∀ (p : Nat) (ws : List Word) (g : GroupRec) (i : VoteInput) (v : VoteCtx) (s : State),
    s.groupRec ((nthW ws 0).extractLsb' 20 12) = some g →
    i = contribInput g (s.now .jup) ws → g.job = i.job → s.role = 1 → s.contribOk p i = true → s.inputLate i = false →
    s.voteCtx i.group.toNat = some v → v.group = i.group → v.got.contains i.key = false → tickSkew v i = false → i.early = false →
    s.contextFull (some v) { v with got := i.key :: v.got, acc := mergeAcc g v.acc i.acc,
                                    voteTick := match v.voteTick with | some k => some k | none => i.voteTick } = false →
    (∃ k ∈ s.expectedOf v.job (grpBase v.group.toNat) v.beginTick, k ≠ i.key ∧ k ∉ v.got) →
    ∃ t, exec (.voteContributionRx p ws) s = .next t ∧
      t.voteCtx i.group.toNat = some { v with got := i.key :: v.got, acc := mergeAcc g v.acc i.acc,
                                              voteTick := match v.voteTick with | some k => some k | none => i.voteTick } ∧
      (∀ n, n ≠ i.group.toNat → t.voteCtx n = s.voteCtx n) ∧ t.jup.stage.grp = s.jup.stage.grp ∧ t.out = s.out) ∧
  (∀ (port : Nat) (p : VotePartial) (s : State), s.groupRec p.group = none →
    exec (.votePartialRx port p) s = .next (s.strayInput port p.group)) ∧
  (∀ (port : Nat) (p : VotePartial) (g : GroupRec) (s : State), s.groupRec p.group = some g → g.job = p.job →
    (s.expectedOf p.job (grpBase p.group.toNat) (partialInput (s.now .jup) port p).beginTick).contains port = true →
    exec (.votePartialRx port p) s = .next (s.foldInput port g (partialInput (s.now .jup) port p))) ∧
  (∀ (port : Nat) (p : VotePartial) (g : GroupRec) (i : VoteInput) (s : State), s.groupRec p.group = some g → g.job = p.job →
    i = partialInput (s.now .jup) port p →
    (s.expectedOf p.job (grpBase p.group.toNat) i.beginTick).contains port = true → s.inputLate i = false →
    s.voteCtx p.group.toNat = none → (s.grpStat p.group.toNat).stepLo ≠ p.stepLo → s.contextFull none i.ctx = false →
    p.failed = false → (∃ k ∈ s.expectedOf p.job (grpBase p.group.toNat) i.beginTick, k ≠ port) →
    ∃ t, exec (.votePartialRx port p) s = .next t ∧
      t.voteCtx p.group.toNat = some { job := p.job, group := p.group, gate := p.gate, stepLo := p.stepLo, voteTick := i.voteTick,
                                       beginTick := i.beginTick, got := [port], acc := p.acc } ∧
      (t.grpStat p.group.toNat).state = 1 ∧ (∀ n, n ≠ p.group.toNat → t.voteCtx n = s.voteCtx n) ∧ t.tsu = s.tsu ∧ t.out = s.out) ∧
  (∀ (g : BitVec 12) (r : GroupRec) (v : VoteCtx) (k : Tick) (s : State), s.voteCtx g.toNat = some v → v.voteTick = some k →
    s.now .jup = k + BitVec.ofNat 64 (stageDeadline s.role) → s.groupRec g = some r → v.gate = false → s.missingInputs v ≠ [] →
    exec (.voteDeadline g) s = .next (((s.failVote r v (s.missingInputs v)).raiseStage cVoteMissing
      { group := v.group, detail := detail (s.missingInputs v).length }).retryGates v.job)) ∧
  (∀ (g : BitVec 12) (r : GroupRec) (v : VoteCtx) (k : Tick) (s : State), s.voteCtx g.toNat = some v → v.voteTick = some k →
    s.now .jup = k + BitVec.ofNat 64 (stageDeadline s.role) → s.groupRec g = some r → v.gate = true → v.group = g → s.missingInputs v ≠ [] →
    (∀ e ∈ s.jup.stage.votes, ∀ u, e.2 = some u → u.gate = true) →
    ∃ t, exec (.voteDeadline g) s = .next t ∧ (t.fblock .jup blkReducer).valid = true ∧ (t.grpStat g.toNat).state = 3 ∧
      (t.grpStat g.toNat).missing = (s.missingInputs v).take 8 ∧ (Table.wf none s.jup.stage.votes = true → t.voteCtx g.toNat = none)) ∧
  (∀ (g : BitVec 12) (v : VoteCtx) (t : Tick) (s : State), s.voteCtx g.toNat = some v → v.voteTick = some t →
    s.now .jup ≠ t + BitVec.ofNat 64 (stageDeadline s.role) → exec (.voteDeadline g) s = .next s) ∧
  (∀ (p : Nat) (j : BitVec 15) (r : BitVec 17) (ct : Tick) (s : State), s.role = 1 → p < 88 →
    s.ownsPort p j = true →
    ∃ t, exec (.resultLateDelivery p j r true ct) s = .next t ∧
      ({ job := j, domain := false, path := s.childPath p, tick := s.fenceAfter p (ct + 1) } : Fence) ∈ (t.link .jup p).fences) ∧
  (∀ (p : Nat) (j : BitVec 15) (r : BitVec 17) (ct : Tick) (s : State), s.role = 1 → p < 88 → s.ownsPort p j = false →
    exec (.resultLateDelivery p j r true ct) s = .next (s.countDiscards [p])) ∧
  (∀ (p : Nat) (j : BitVec 15) (r : BitVec 17) (ct : Tick) (s : State), exec (.resultLateDelivery p j r false ct) s = .next s)

/-- R184, R188 to R190, R198: GATE, the two integer sums, FSUM, HIST, OR, AND and NEAREST give one result for one set of
contributions, whatever the order and the tree they are folded in. -/
def Obligations.VotesOrderFree : Prop :=
  ∀ (g : GroupRec), g.op ∈ [0, 1, 2, 3, 9, 10, 11, 12] →
    (∀ (l l' : List (BitVec 17 × Bool × List Word)), l.Perm l' →
      l.foldl (fun a e => mergeAcc g a (liftAcc g e.1 e.2.1 e.2.2)) .none =
        l'.foldl (fun a e => mergeAcc g a (liftAcc g e.1 e.2.1 e.2.2)) .none) ∧
    (∀ (l l' : List (BitVec 17 × Bool × List Word)),
      (l ++ l').foldl (fun a e => mergeAcc g a (liftAcc g e.1 e.2.1 e.2.2)) .none =
        mergeAcc g (l.foldl (fun a e => mergeAcc g a (liftAcc g e.1 e.2.1 e.2.2)) .none)
          (l'.foldl (fun a e => mergeAcc g a (liftAcc g e.1 e.2.1 e.2.2)) .none))


/-! ## Objects, signals and Conjunctions -/

/-- R136, R205 to R208, R213, R215, R412, R422: operations of a core while the main rail is up. SET and CLEAR set an object it may use to 1 and
0, GIVE adds its count, TAKE takes it, and nothing else of the objects changes; a GIVE beyond 255 stays at 255 with TALLY_OVERFLOW, a TAKE of
more than there is takes nothing, with TALLY_UNDERFLOW; a remote one asks for the egress count and sends a signal; a request that is not
allowed changes no object and is answered as refused on the next tick. -/
def Obligations.CoreOperations : Prop :=
  (∀ (r : CoreReq) (eg : EgAns) (s : State), s.mainOff = false → r.remote = false → s.coreAllowed r 0 = true →
    s.sramBad 0 (cfgOwner (s.slotCfg r.core r.slot)) (slotKey r.core r.slot) = false → Table.wf {} s.tsu.sync.slots = true →
    ∃ t, exec (.coreSet r eg) s = .next t ∧ t.slotVal (slotKey r.core r.slot) = 1 ∧
      (∀ k, k ≠ slotKey r.core r.slot → t.slotVal k = s.slotVal k) ∧ t.tsu.chans = s.tsu.chans ∧ t.tsu.sync.recs = s.tsu.sync.recs ∧
      t.tsuC = s.tsuC ∧ t.jup = s.jup ∧ t.out = s.out) ∧
  (∀ (r : CoreReq) (eg : EgAns) (s : State), s.mainOff = false → r.remote = false → s.coreAllowed r 1 = true →
    s.sramBad 0 (cfgOwner (s.slotCfg r.core r.slot)) (slotKey r.core r.slot) = false → Table.wf {} s.tsu.sync.slots = true →
    ∃ t, exec (.coreClear r eg) s = .next t ∧ t.slotVal (slotKey r.core r.slot) = 0 ∧
      (∀ k, k ≠ slotKey r.core r.slot → t.slotVal k = s.slotVal k) ∧ t.tsu.chans = s.tsu.chans ∧ t.tsu.sync.recs = s.tsu.sync.recs ∧
      t.tsuC = s.tsuC ∧ t.jup = s.jup ∧ t.out = s.out) ∧
  (∀ (r : CoreReq) (eg : EgAns) (s : State), s.mainOff = false → r.remote = false → s.coreAllowed r 2 = true →
    s.sramBad 0 (cfgOwner (s.slotCfg r.core r.slot)) (slotKey r.core r.slot) = false → Table.wf {} s.tsu.sync.slots = true →
    (s.slotVal (slotKey r.core r.slot)).toNat + r.count.toNat ≤ 255 →
    ∃ t, exec (.coreGive r eg) s = .next t ∧ t.slotVal (slotKey r.core r.slot) = s.slotVal (slotKey r.core r.slot) + r.count ∧
      (∀ k, k ≠ slotKey r.core r.slot → t.slotVal k = s.slotVal k) ∧ t.tsu.chans = s.tsu.chans ∧ t.tsu.sync.recs = s.tsu.sync.recs ∧
      t.tsuC = s.tsuC ∧ t.jup = s.jup ∧ t.out = s.out) ∧
  (∀ (r : CoreReq) (eg : EgAns) (s : State), s.mainOff = false → r.remote = false → s.coreAllowed r 2 = true →
    s.sramBad 0 (cfgOwner (s.slotCfg r.core r.slot)) (slotKey r.core r.slot) = false →
    255 < (s.slotVal (slotKey r.core r.slot)).toNat + r.count.toNat →
    exec (.coreGive r eg) s = .next ((s.putSlot r.core r.slot 255).stepFault (cfgOwner (s.slotCfg r.core r.slot)) cTallyOverflow
        { core := r.core, slot := r.slot })) ∧
  (∀ (r : CoreReq) (s : State), s.mainOff = false → s.coreAllowed r 3 = true →
    s.sramBad 0 (cfgOwner (s.slotCfg r.core r.slot)) (slotKey r.core r.slot) = false → Table.wf {} s.tsu.sync.slots = true →
    r.count ≤ s.slotVal (slotKey r.core r.slot) →
    ∃ t, exec (.coreTake r) s = .next t ∧ t.slotVal (slotKey r.core r.slot) = s.slotVal (slotKey r.core r.slot) - r.count ∧
      (∀ k, k ≠ slotKey r.core r.slot → t.slotVal k = s.slotVal k) ∧ t.tsu.chans = s.tsu.chans ∧ t.tsu.sync.recs = s.tsu.sync.recs ∧
      t.tsuC = s.tsuC ∧ t.jup = s.jup ∧ t.out = s.out) ∧
  (∀ (r : CoreReq) (s : State), s.mainOff = false → s.coreAllowed r 3 = true →
    s.sramBad 0 (cfgOwner (s.slotCfg r.core r.slot)) (slotKey r.core r.slot) = false →
    s.slotVal (slotKey r.core r.slot) < r.count →
    exec (.coreTake r) s = .next (s.stepFault (cfgOwner (s.slotCfg r.core r.slot)) cTallyUnderflow
        { core := r.core, slot := r.slot, detail := r.core.setWidth 15 })) ∧
  (∀ (r : CoreReq) (eg : EgAns) (c : Nat) (s : State), s.mainOff = false → r.remote = true → s.actingChan r.core = some c →
    eg.path ≠ noPath → s.clamped true = false →
    (∃ t, exec (.coreSet r eg) s = .next t ∧ t.out = s.out ++ [.egq c r.rank] ∧ t.tsu = s.tsu ∧ jobMsg mtSignal
      (signalWords (s.chan c) (s.selfPath .tsu) r.rank r.core r.slot 0 r.count eg.count) ∈ (t.link .tsu (s.upOf c)).tx.qStep) ∧
    (∃ t, exec (.coreClear r eg) s = .next t ∧ t.out = s.out ++ [.egq c r.rank] ∧ t.tsu = s.tsu ∧ jobMsg mtSignal
      (signalWords (s.chan c) (s.selfPath .tsu) r.rank r.core r.slot 1 r.count eg.count) ∈ (t.link .tsu (s.upOf c)).tx.qStep) ∧
    (∃ t, exec (.coreGive r eg) s = .next t ∧ t.out = s.out ++ [.egq c r.rank] ∧ t.tsu = s.tsu ∧ jobMsg mtSignal
      (signalWords (s.chan c) (s.selfPath .tsu) r.rank r.core r.slot 2 r.count eg.count) ∈ (t.link .tsu (s.upOf c)).tx.qStep)) ∧
  (∀ (r : CoreReq) (eg : EgAns) (s : State), s.mainOff = false →
    (r.remote = false → s.coreAllowed r 0 = false → exec (.coreSet r eg) s = .next (s.coreRefused r)) ∧
    (r.remote = false → s.coreAllowed r 1 = false → exec (.coreClear r eg) s = .next (s.coreRefused r)) ∧
    (r.remote = false → s.coreAllowed r 2 = false → exec (.coreGive r eg) s = .next (s.coreRefused r)) ∧
    (s.coreAllowed r 3 = false → exec (.coreTake r) s = .next (s.coreRefused r))) ∧
  (∀ (r : CoreReq) (s : State), (r.core, 2, r.tag, s.now .tsu + 1) ∈ (s.coreRefused r).tsu.sync.rsps)

/-- R142, R207, R208, R210, R220, R221, R412: a core's waits, while the main rail is up. Each of the four wait operations opens a wait with its
own condition and changes no object; ENTER counts an entry and waits for the release, ARRIVE counts one and does not; a core that
waits already gets none. An entry that would be two rounds ahead is CONJ_OVERRUN. -/
def Obligations.CoreWaits : Prop :=
  (∀ (r : CoreReq) (s : State), s.mainOff = false → s.coreAllowed r 4 = true →
    ∃ t, exec (.coreWaitSet r) s = .next t ∧
      t.tsu.sync = { s.tsu.sync with waits := s.tsu.sync.waits ++ [CoreReq.wait r ((s.actingChan r.core).getD 0) 0 (s.now .tsu) 0] } ∧
      t.tsu.chans = s.tsu.chans ∧ t.tsuC = s.tsuC ∧ t.out = s.out) ∧
  (∀ (r : CoreReq) (s : State), s.mainOff = false → s.coreAllowed r 5 = true →
    ∃ t, exec (.coreWaitClear r) s = .next t ∧
      t.tsu.sync = { s.tsu.sync with waits := s.tsu.sync.waits ++ [CoreReq.wait r ((s.actingChan r.core).getD 0) 1 (s.now .tsu) 0] } ∧
      t.tsu.chans = s.tsu.chans ∧ t.tsuC = s.tsuC ∧ t.out = s.out) ∧
  (∀ (r : CoreReq) (s : State), s.mainOff = false → s.coreAllowed r 6 = true →
    ∃ t, exec (.coreWaitCount r) s = .next t ∧
      t.tsu.sync = { s.tsu.sync with waits := s.tsu.sync.waits ++ [CoreReq.wait r ((s.actingChan r.core).getD 0) 2 (s.now .tsu) 0] } ∧
      t.tsu.chans = s.tsu.chans ∧ t.tsuC = s.tsuC ∧ t.out = s.out) ∧
  (∀ (r : CoreReq) (s : State), s.mainOff = false → s.coreAllowed r 7 = true →
    ∃ t, exec (.coreWaitTake r) s = .next t ∧
      t.tsu.sync = { s.tsu.sync with waits := s.tsu.sync.waits ++ [CoreReq.wait r ((s.actingChan r.core).getD 0) 3 (s.now .tsu) 0] } ∧
      t.tsu.chans = s.tsu.chans ∧ t.tsuC = s.tsuC ∧ t.out = s.out) ∧
  (∀ (r : CoreReq) (round : BitVec 16) (s : State), s.mainOff = false → s.coreAllowed r 8 = true →
    s.entryRound (cfgRec (s.slotCfg r.core r.slot)) = some round →
    s.sramBad 1 (conjOwner (s.conjCfg (cfgRec (s.slotCfg r.core r.slot)))) (cfgRec (s.slotCfg r.core r.slot)) = false →
    exec (.coreEnter r) s = .next (((s.modSync fun y => { y with waits := y.waits ++
      [CoreReq.wait r ((s.actingChan r.core).getD 0) 4 (s.now .tsu) round] }).countEntry (cfgRec (s.slotCfg r.core r.slot))).sramWrite 1
        (conjOwner (s.conjCfg (cfgRec (s.slotCfg r.core r.slot)))) (cfgRec (s.slotCfg r.core r.slot)))) ∧
  (∀ (r : CoreReq) (s : State), s.mainOff = false → s.coreAllowed r 8 = true →
    (s.conjRec (cfgRec (s.slotCfg r.core r.slot))).cur.toNat + 1 < conjCount (s.conjCfg (cfgRec (s.slotCfg r.core r.slot))) →
    s.sramBad 1 (conjOwner (s.conjCfg (cfgRec (s.slotCfg r.core r.slot)))) (cfgRec (s.slotCfg r.core r.slot)) = false →
    ∃ t, exec (.coreEnter r) s = .next t ∧ t.tsu.sync.waits = s.tsu.sync.waits ++ [CoreReq.wait r ((s.actingChan r.core).getD 0) 4
        (s.now .tsu) (s.conjRec (cfgRec (s.slotCfg r.core r.slot))).round] ∧
      (t.conjRec (cfgRec (s.slotCfg r.core r.slot))).cur = (s.conjRec (cfgRec (s.slotCfg r.core r.slot))).cur + 1 ∧
      t.tsu.chans = s.tsu.chans ∧ t.tsuC = s.tsuC ∧ t.out = s.out) ∧
  (∀ (r : CoreReq) (s : State), s.mainOff = false → s.coreAllowed r 9 = true →
    (s.conjRec (cfgRec (s.slotCfg r.core r.slot))).cur.toNat + 1 < conjCount (s.conjCfg (cfgRec (s.slotCfg r.core r.slot))) →
    s.sramBad 1 (conjOwner (s.conjCfg (cfgRec (s.slotCfg r.core r.slot)))) (cfgRec (s.slotCfg r.core r.slot)) = false →
    ∃ t, exec (.coreArrive r) s = .next t ∧ t.tsu.sync.waits = s.tsu.sync.waits ∧
      (t.conjRec (cfgRec (s.slotCfg r.core r.slot))).cur = (s.conjRec (cfgRec (s.slotCfg r.core r.slot))).cur + 1 ∧
      t.tsu.chans = s.tsu.chans ∧ t.tsuC = s.tsuC ∧ t.out = s.out) ∧
  (∀ (r : CoreReq) (s : State), s.mainOff = false → s.coreAllowed r 9 = true → s.entryRound (cfgRec (s.slotCfg r.core r.slot)) = none →
    s.sramBad 1 (conjOwner (s.conjCfg (cfgRec (s.slotCfg r.core r.slot)))) (cfgRec (s.slotCfg r.core r.slot)) = false →
    exec (.coreArrive r) s = .next (s.conjOverrun (cfgRec (s.slotCfg r.core r.slot)) r.core r.slot r.tag)) ∧
  (∀ (r : CoreReq) (s : State), s.mainOff = false → s.coreAllowed r 8 = true → s.entryRound (cfgRec (s.slotCfg r.core r.slot)) = none →
    s.sramBad 1 (conjOwner (s.conjCfg (cfgRec (s.slotCfg r.core r.slot)))) (cfgRec (s.slotCfg r.core r.slot)) = false →
    exec (.coreEnter r) s = .next (s.conjOverrun (cfgRec (s.slotCfg r.core r.slot)) r.core r.slot r.tag)) ∧
  (∀ (r : CoreReq) (op : Nat) (s : State), 4 ≤ op → op ≤ 8 → (s.waitOf (.core r.core)).isSome = true → s.coreAllowed r op = false) ∧
  (∀ (r : CoreReq) (s : State), s.mainOff = false →
    (s.coreAllowed r 4 = false → exec (.coreWaitSet r) s = .next (s.coreRefused r)) ∧
    (s.coreAllowed r 5 = false → exec (.coreWaitClear r) s = .next (s.coreRefused r)) ∧
    (s.coreAllowed r 6 = false → exec (.coreWaitCount r) s = .next (s.coreRefused r)) ∧
    (s.coreAllowed r 7 = false → exec (.coreWaitTake r) s = .next (s.coreRefused r)) ∧
    (s.coreAllowed r 8 = false → exec (.coreEnter r) s = .next (s.coreRefused r)) ∧
    (s.coreAllowed r 9 = false → exec (.coreArrive r) s = .next (s.coreRefused r)))

/-- R205, R212 to R215, R397, R425: a remote signal for no channel here is a STRAY, of another RUN is stale, and neither acts; one
that is accepted is held with a watch on its source, and becomes visible, in its source's order, 32 ticks after its arrival or 16
after the report, whichever is later: its operation then acts on its object, and the hold is over. In DARK none is delivered. -/
def Obligations.RemoteSignals : Prop :=
  (∀ (ws : List Word) (s : State), s.tsu.power.state ≠ 4 →
    (s.servingChan ((nthW ws 0).extractLsb' 49 15) ((nthW ws 0).extractLsb' 32 17)) = none →
    ∃ t, exec (.remoteSignalRx ws) s = .next t ∧ t.tsu.sync = { s.tsu.sync with stray := satInc s.tsu.sync.stray } ∧
      t.tsu.chans = s.tsu.chans ∧ t.out = s.out) ∧
  (∀ (ws : List Word) (c : Nat) (s : State), s.tsu.power.state ≠ 4 →
    (s.servingChan ((nthW ws 0).extractLsb' 49 15) ((nthW ws 0).extractLsb' 32 17)) = some c →
    (nthW ws 0).extractLsb' 7 8 ≠ (s.chan c).run →
    ∃ t, exec (.remoteSignalRx ws) s = .next t ∧ t.tsu.sync = { s.tsu.sync with stale := satInc s.tsu.sync.stale } ∧
      t.tsu.chans = s.tsu.chans ∧ t.out = s.out) ∧
  (∀ (ws : List Word) (c : Nat) (s : State), s.tsu.power.state ≠ 4 →
    (s.servingChan ((nthW ws 0).extractLsb' 49 15) ((nthW ws 0).extractLsb' 32 17)) = some c →
    (nthW ws 0).extractLsb' 7 8 = (s.chan c).run → s.opAllowed c (sigCore ws) (sigSlot ws) (sigOpCode ws) = true →
    s.tsu.sync.held.length < 256 → s.clamped true = false →
    ∃ t, exec (.remoteSignalRx ws) s = .next t ∧
      t.tsu.sync.held = s.tsu.sync.held ++ [{ tag := s.freeTag, words := ws, ch := c, arrival := s.now .tsu, reached := none }] ∧
      t.out = s.out ++ [.watch (sigPath ws) ((nthW ws 2).extractLsb' 32 32) s.freeTag] ∧ t.tsu.sync.slots = s.tsu.sync.slots ∧
      t.tsu.chans = s.tsu.chans) ∧
  (∀ (ws : List Word) (s : State), s.tsu.power.state = 4 → exec (.remoteSignalRx ws) s = .next s) ∧
  (∀ (tag : BitVec 8) (s : State), s.mainOff = false → ∃ t, exec (.niWatchReport tag) s = .next t ∧ t.tsu.sync.slots = s.tsu.sync.slots ∧
    t.tsu.chans = s.tsu.chans ∧ t.out = s.out ∧
    t.tsu.sync.held = updFirst (fun h => decide (h.tag = tag ∧ h.reached = none)) (fun h => { h with reached := some (s.now .tsu) })
      s.tsu.sync.held) ∧
  (∀ (tag : BitVec 8) (h : HeldSig) (s : State), s.visibleDue tag = some h →
    exec (.signalVisible tag) s = .next ((s.modSync fun y => { y with held := y.held.filter fun k => !decide (k.tag = tag) }).objOp
      (sigCore h.words) (sigSlot h.words) (sigOp h.words) ((nthW h.words 1).extractLsb' 37 8) 0x7FF)) ∧
  (∀ (tag : BitVec 8) (h : HeldSig) (s : State), s.visibleDue tag = some h → sigOp h.words = 2 →
    s.sramBad 0 (cfgOwner (s.slotCfg (sigCore h.words) (sigSlot h.words))) (slotKey (sigCore h.words) (sigSlot h.words)) = false →
    (s.slotVal (slotKey (sigCore h.words) (sigSlot h.words))).toNat + (fld (nthW h.words 1) 44 37) ≤ 255 →
    Table.wf {} s.tsu.sync.slots = true →
    ∃ t, exec (.signalVisible tag) s = .next t ∧
      (t.slotVal (slotKey (sigCore h.words) (sigSlot h.words))).toNat =
        (s.slotVal (slotKey (sigCore h.words) (sigSlot h.words))).toNat + fld (nthW h.words 1) 44 37 ∧
      t.tsu.sync.held = s.tsu.sync.held.filter (fun k => !decide (k.tag = tag)) ∧ t.tsu.chans = s.tsu.chans ∧ t.out = s.out) ∧
  (∀ (tag : BitVec 8) (h : HeldSig) (s : State), s.visibleDue tag = some h → sigOp h.words = 0 ∨ sigOp h.words = 1 →
    s.sramBad 0 (cfgOwner (s.slotCfg (sigCore h.words) (sigSlot h.words))) (slotKey (sigCore h.words) (sigSlot h.words)) = false →
    Table.wf {} s.tsu.sync.slots = true →
    ∃ t, exec (.signalVisible tag) s = .next t ∧
      t.slotVal (slotKey (sigCore h.words) (sigSlot h.words)) = (if sigOp h.words = 0 then 1 else 0) ∧
      t.tsu.sync.held = s.tsu.sync.held.filter (fun k => !decide (k.tag = tag)) ∧ t.tsu.chans = s.tsu.chans ∧ t.out = s.out) ∧
  (∀ (tag : BitVec 8) (s : State), s.visibleDue tag = none → exec (.signalVisible tag) s = .next s) ∧
  (∀ (tag : BitVec 8) (h : HeldSig) (s : State), s.visibleDue tag = some h → h ∈ s.tsu.sync.held ∧
    ∃ r, h.reached = some r ∧ (h.arrival + 32 ≤ s.now .tsu ∧ r + 16 ≤ s.now .tsu))

/-- R223, R228, R230, R295: debug writes of objects. Without a CONTROL session nothing but DENIED changes in the sync block; with
one, on an object of the kind, the write is accepted and acts on the next tick (log 45): the value is written and the owner's channel is
marked, for a forced release the record's owner too; a forced release acts 64 ticks after that, and advances its record by one round. -/
def Obligations.DebugWrites : Prop :=
  (∀ (core : BitVec 11) (slot : BitVec 6) (v : BitVec 8) (s : State), s.tsuC.sec.session ≠ .control →
    (∃ t, exec (.dbgSet core slot) s = .next t ∧ t.tsu.sync = { s.tsu.sync with denied := true } ∧ t.tsu.chans = s.tsu.chans) ∧
    (∃ t, exec (.dbgClear core slot) s = .next t ∧ t.tsu.sync = { s.tsu.sync with denied := true } ∧ t.tsu.chans = s.tsu.chans) ∧
    (∃ t, exec (.dbgPreset core slot v) s = .next t ∧ t.tsu.sync = { s.tsu.sync with denied := true } ∧ t.tsu.chans = s.tsu.chans) ∧
    (∃ t, exec (.dbgForceRelease core slot) s = .next t ∧ t.tsu.sync = { s.tsu.sync with denied := true } ∧
      t.tsu.chans = s.tsu.chans)) ∧
  (∀ (core : BitVec 11) (slot : BitVec 6) (s : State), s.tsuC.sec.session = .control → cfgKind (s.slotCfg core slot) = 1 →
    (∃ t, exec (.dbgSet core slot) s = .next t ∧ t.tsu.sync = { s.tsu.sync with
      dbgOps := s.tsu.sync.dbgOps ++ [(core, slot, 0, 0, s.now .tsu + 1)] } ∧ t.tsu.chans = s.tsu.chans ∧ t.tsuC = s.tsuC) ∧
    (∃ t, exec (.dbgClear core slot) s = .next t ∧ t.tsu.sync = { s.tsu.sync with
      dbgOps := s.tsu.sync.dbgOps ++ [(core, slot, 1, 0, s.now .tsu + 1)] } ∧ t.tsu.chans = s.tsu.chans ∧ t.tsuC = s.tsuC)) ∧
  (∀ (core : BitVec 11) (slot : BitVec 6) (v : BitVec 8) (s : State), s.tsuC.sec.session = .control →
    cfgKind (s.slotCfg core slot) = 2 →
    ∃ t, exec (.dbgPreset core slot v) s = .next t ∧ t.tsu.sync = { s.tsu.sync with
      dbgOps := s.tsu.sync.dbgOps ++ [(core, slot, 2, v, s.now .tsu + 1)] } ∧ t.tsu.chans = s.tsu.chans ∧ t.tsuC = s.tsuC) ∧
  (∀ (core : BitVec 11) (slot : BitVec 6) (s : State), s.tsuC.sec.session = .control → cfgKind (s.slotCfg core slot) = 3 →
    ∃ t, exec (.dbgForceRelease core slot) s = .next t ∧ t.tsu.sync = { s.tsu.sync with
      dbgOps := s.tsu.sync.dbgOps ++ [(core, slot, 3, 0, s.now .tsu + 1)] } ∧ t.tsu.chans = s.tsu.chans ∧ t.tsuC = s.tsuC) ∧
  (∀ (core : BitVec 11) (slot : BitVec 6) (v : BitVec 8) (s : State), s.tsuC.sec.session = .control →
    (cfgKind (s.slotCfg core slot) ≠ 1 → exec (.dbgSet core slot) s = .next s.dbgIgnored ∧ exec (.dbgClear core slot) s = .next s.dbgIgnored) ∧
    (cfgKind (s.slotCfg core slot) ≠ 2 → exec (.dbgPreset core slot v) s = .next s.dbgIgnored) ∧
    (cfgKind (s.slotCfg core slot) ≠ 3 → exec (.dbgForceRelease core slot) s = .next s.dbgIgnored)) ∧
  (∀ (core : BitVec 11) (slot : BitVec 6) (v : BitVec 8) (s : State), Table.wf {} s.tsu.sync.slots = true →
    ((s.dbgAct core slot 0 v).slotVal (slotKey core slot) = 1 ∧ (s.dbgAct core slot 1 v).slotVal (slotKey core slot) = 0 ∧
    (s.dbgAct core slot 2 v).slotVal (slotKey core slot) = v)) ∧
  (∀ (core : BitVec 11) (slot : BitVec 6) (op : Nat) (v : BitVec 8) (s : State),
    ((s.dbgAct core slot op v).chan (cfgOwner (s.slotCfg core slot))).debug = true ∧
    ((s.dbgAct core slot op v).fblock .tsu (blkChan (cfgOwner (s.slotCfg core slot)))).valid = true) ∧
  (∀ (core : BitVec 11) (slot : BitVec 6) (v : BitVec 8) (s : State),
    ((s.dbgAct core slot 3 v).chan (conjOwner (s.conjCfg (cfgRec (s.slotCfg core slot))))).debug = true ∧
    ((s.dbgAct core slot 3 v).fblock .tsu (blkChan (conjOwner (s.conjCfg (cfgRec (s.slotCfg core slot)))))).valid = true) ∧
  (∀ (core : BitVec 11) (slot : BitVec 6) (v : BitVec 8) (s : State),
    (s.dbgAct core slot 3 v).tsu.sync.forced = s.tsu.sync.forced ++ [(cfgRec (s.slotCfg core slot), s.now .tsu + 64)]) ∧
  (∀ (rec : BitVec 12) (s : State), (rec.toNat, s.now .tsu) ∈ s.tsu.sync.forced →
    s.sramBad 1 (conjOwner (s.conjCfg rec.toNat)) rec.toNat = false →
    ∃ t, exec (.forceReleaseApply rec) s = .next t ∧ t.tsu.sync.forced = dropOne (rec.toNat, s.now .tsu) s.tsu.sync.forced ∧
      (Table.wf {} s.tsu.sync.recs = true → (t.conjRec rec.toNat).round = (s.conjRec rec.toNat).round + 1 ∧
        (t.conjRec rec.toNat).cur = (s.conjRec rec.toNat).next ∧ (t.conjRec rec.toNat).relTick = (s.now .tsu).setWidth 32) ∧
      t.tsu.sync.slots = s.tsu.sync.slots ∧ t.tsuC = s.tsuC ∧ t.out = s.out) ∧
  (∀ (rec : BitVec 12) (s : State), (rec.toNat, s.now .tsu) ∉ s.tsu.sync.forced → exec (.forceReleaseApply rec) s = .next s) ∧
  (∀ (s : State), ∃ t, exec .timeoutRecordClear s = .next t ∧ t.tsu.sync.timeout.getLsbD 127 = false ∧
    (∀ i, i < 127 → t.tsu.sync.timeout.getLsbD i = s.tsu.sync.timeout.getLsbD i) ∧ t.tsu.chans = s.tsu.chans ∧ t.tsuC = s.tsuC ∧
    t.jup = s.jup ∧ t.out = s.out)

/-- R212, R220 to R225, R397, R412, R426: the rounds of a Conjunction. A drain that ends sends the arrivals that waited for it; a release acts
on its tick, on the die-local record after 32 ticks, and advances the record by one round; an arrival for no group here is a STRAY, the
first one of an open round is counted for its port; a release for no record here, or of another round, is a STRAY and releases nobody, of
another RUN is stale; one of the open round sets the tick on which the record is released. -/
def Obligations.ConjunctionRounds : Prop :=
  (∀ (s : State), s.tsu.sync.drainOn = false → exec .drainDone s = .next s) ∧
  (∀ (s : State), s.mainOff = false → s.tsu.sync.drainOn = true → ∃ t, exec .drainDone s = .next t ∧
    t.tsu.sync.drain = s.tsu.sync.drainNext ∧ t.tsu.sync.drainNext = [] ∧ t.tsu.sync.drainOn = !s.tsu.sync.drainNext.isEmpty ∧ t.tsu.chans = s.tsu.chans ∧
    (∀ e ∈ s.tsu.sync.drain, jobMsg mtConjArrive (s.arrivalWords e.1 e.2) ∈ (t.link .tsu (s.upOf (conjOwner (s.conjCfg e.1)))).tx.qStep)) ∧
  (∀ (rec : BitVec 12) (s : State), (s.conjRec rec.toNat).release = some (s.now .tsu) → conjSpan (s.conjCfg rec.toNat) = 0 →
    exec (.localConjRelease rec) s = .next (s.releaseRec rec.toNat (s.now .tsu) false) ∧
    exec (.conjReleaseApply rec) s = .next s) ∧
  (∀ (rec : BitVec 12) (s : State), (s.conjRec rec.toNat).release = some (s.now .tsu) → conjSpan (s.conjCfg rec.toNat) ≠ 0 →
    exec (.conjReleaseApply rec) s = .next (s.releaseRec rec.toNat (s.now .tsu) false) ∧
    exec (.localConjRelease rec) s = .next s) ∧
  (∀ (rec : BitVec 12) (b : Bool) (i : Instr) (s : State), (s.conjRec rec.toNat).release = some (s.now .tsu) →
    i = (if b then .localConjRelease rec else .conjReleaseApply rec) → (conjSpan (s.conjCfg rec.toNat) = 0 ↔ b = true) →
    Table.wf {} s.tsu.sync.recs = true →
    s.sramBad 1 (conjOwner (s.conjCfg rec.toNat)) rec.toNat = false →
    ∃ t, exec i s = .next t ∧ (t.conjRec rec.toNat).round = (s.conjRec rec.toNat).round + 1 ∧
      (t.conjRec rec.toNat).cur = (s.conjRec rec.toNat).next ∧ (t.conjRec rec.toNat).next = 0 ∧
      (t.conjRec rec.toNat).relTick = (s.now .tsu).setWidth 32 ∧
      (∀ w ∈ t.tsu.sync.waits, w ∈ s.tsu.sync.waits ∧ w ∉ s.releasedWaits rec.toNat) ∧ t.tsu.sync.slots = s.tsu.sync.slots ∧
      t.tsuC = s.tsuC ∧ t.out = s.out) ∧
  (∀ (rec : BitVec 12) (s : State), (s.conjRec rec.toNat).release ≠ some (s.now .tsu) →
    exec (.conjReleaseApply rec) s = .next s ∧ exec (.localConjRelease rec) s = .next s) ∧
  (∀ (p : Nat) (ws : List Word) (s : State), s.conjGroupRec (fld (nthW ws 0) 31 20) = none →
    ∃ t, exec (.conjArrivalRx p ws) s = .next t ∧
      (t.conjStage (fld (nthW ws 0) 31 20)).stray = satInc (s.conjStage (fld (nthW ws 0) 31 20)).stray ∧
      (t.conjStage (fld (nthW ws 0) 31 20)).cur = (s.conjStage (fld (nthW ws 0) 31 20)).cur ∧ (t.fblock .jup p).valid = true ∧ t.tsu = s.tsu) ∧
  (∀ (p : Nat) (ws : List Word) (s : State),
    exec (.conjArrivalRx p ws) s = .next ((s.consume .jup p mtConjArrive ws).arrival p ws)) ∧
  (∀ (p : Nat) (ws : List Word) (j : BitVec 15) (span : Nat) (b : Tick) (s : State),
    s.conjGroupRec (fld (nthW ws 0) 31 20) = some (j, span) → j = (nthW ws 0).extractLsb' 49 15 →
    b = nearTick (s.now .jup) ((nthW ws 1).extractLsb' 32 32) →
    s.arrivalOk p (fld (nthW ws 0) 31 20) j ws b = true → (nthW ws 0).getLsbD 18 = false →
    (nthW ws 0).getLsbD 19 = (s.conjStage (fld (nthW ws 0) 31 20)).round.getLsbD 0 →
    (s.conjStage (fld (nthW ws 0) 31 20)).beginTick = none ∨ (s.conjStage (fld (nthW ws 0) 31 20)).beginTick = some b →
    (s.conjStage (fld (nthW ws 0) 31 20)).cur.contains p = false →
    (∃ k ∈ s.memberPorts j (conjGrpBase (fld (nthW ws 0) 31 20)) b, k ≠ p ∧ k ∉ (s.conjStage (fld (nthW ws 0) 31 20)).cur) →
    ∃ t, exec (.conjArrivalRx p ws) s = .next t ∧
      (t.conjStage (fld (nthW ws 0) 31 20)).cur = p :: (s.conjStage (fld (nthW ws 0) 31 20)).cur ∧
      (t.conjStage (fld (nthW ws 0) 31 20)).beginTick = some b ∧
      (t.conjStage (fld (nthW ws 0) 31 20)).round = (s.conjStage (fld (nthW ws 0) 31 20)).round ∧
      (∀ g, g ≠ fld (nthW ws 0) 31 20 → t.conjStage g = s.conjStage g) ∧ t.tsu = s.tsu ∧ t.out = s.out) ∧
  (∀ (ws : List Word) (s : State), s.tsu.power.state ≠ 4 →
    s.groupRecs ((nthW ws 0).extractLsb' 49 15) ((nthW ws 0).extractLsb' 20 12) = [] →
    ∃ t, exec (.conjReleaseRx ws) s = .next t ∧ t.tsu.sync = { s.tsu.sync with stray := satInc s.tsu.sync.stray } ∧
      t.tsu.chans = s.tsu.chans ∧ t.out = s.out) ∧
  (∀ (ws : List Word) (r : Nat) (s : State), s.tsu.power.state ≠ 4 →
    s.groupRecs ((nthW ws 0).extractLsb' 49 15) ((nthW ws 0).extractLsb' 20 12) = [r] →
    exec (.conjReleaseRx ws) s = .next ((s.consume .tsu 0 mtConjRelease ws).releaseIn ws r)) ∧
  (∀ (ws : List Word) (r : Nat) (s : State), s.tsu.power.state ≠ 4 →
    s.groupRecs ((nthW ws 0).extractLsb' 49 15) ((nthW ws 0).extractLsb' 20 12) = [r] →
    (nthW ws 0).extractLsb' 10 8 ≠ (s.chan (conjOwner (s.conjCfg r))).run →
    s.sramBad 1 (conjOwner (s.conjCfg r)) r = false →
    ∃ t, exec (.conjReleaseRx ws) s = .next t ∧ t.tsu.sync = { s.tsu.sync with stale := satInc s.tsu.sync.stale }) ∧
  (∀ (ws : List Word) (r : Nat) (s : State), s.tsu.power.state ≠ 4 →
    s.groupRecs ((nthW ws 0).extractLsb' 49 15) ((nthW ws 0).extractLsb' 20 12) = [r] →
    (nthW ws 0).extractLsb' 10 8 = (s.chan (conjOwner (s.conjCfg r))).run →
    (nthW ws 0).getLsbD 19 = (s.conjRec r).round.getLsbD 0 → (nthW ws 0).getLsbD 18 = false →
    s.now .tsu ≤ nearTick (s.now .tsu) ((nthW ws 1).extractLsb' 32 32) →
    s.sramBad 1 (conjOwner (s.conjCfg r)) r = false →
    ∃ t, exec (.conjReleaseRx ws) s = .next t ∧
      (t.conjRec r).release = some (nearTick (s.now .tsu) ((nthW ws 1).extractLsb' 32 32)) ∧
      (t.conjRec r).round = (s.conjRec r).round ∧ (∀ k, k ≠ r → t.conjRec k = s.conjRec k) ∧
      t.tsu.sync.waits = s.tsu.sync.waits ∧ t.tsu.chans = s.tsu.chans ∧ t.out = s.out) ∧
  (∀ (ws : List Word) (s : State), s.tsu.power.state = 4 → exec (.conjReleaseRx ws) s = .next s)


/-! ## Transit Line -/

/-- R232, R233, R239: every word the line carries passes both parities and holds its data; a word with any one bit inverted
fails. Its 33 symbols give back its bits in pairs, and one level up or down is one bit; lane k carries words k, k + 2, k + 4 and k + 6. A
frame with a failed word at a link with frame lock is not taken: it counts as a parity error, asks for a replay and delivers nothing. A good
IDLE frame gives its header's fields alone; a good TIME frame in sequence delivers its messages to the die. -/
def Obligations.ParityGuards : Prop :=
  (∀ v : Word, wordOk (lineWord v) = true ∧ (lineWord v).extractLsb' 0 64 = v) ∧
  (∀ (v : Word) (i : Nat), i < 66 → wordOk (lineWord v ^^^ (1 <<< i)) = false) ∧
  (∀ (w : BitVec 66) (i : Nat), i < 33 → (symbols w).length = 33 ∧ gray ((symbols w).getD i 0) = w.extractLsb' (2 * i) 2) ∧
  (∀ a b : BitVec 2, (gray a).toNat + 1 = (gray b).toNat → a ^^^ b = 1 ∨ a ^^^ b = 2) ∧
  (∀ a b c d e f g h : BitVec 66, laneSymbols 0 [a, b, c, d, e, f, g, h] = symbols a ++ symbols c ++ symbols e ++ symbols g ∧
    laneSymbols 1 [a, b, c, d, e, f, g, h] = symbols b ++ symbols d ++ symbols f ++ symbols h) ∧
  (∀ (d : Dev) (n : Nat) (f : List (BitVec 66)) (s : State), (s.link d n).ctl.frameLock = true → f.all wordOk = false →
    ∃ t, exec (.frameRx d n f) s = .next t ∧ (t.com d).inbox = (s.com d).inbox ∧
      (t.link d n).ctl.cntParity = satInc (s.link d n).ctl.cntParity ∧
      ((t.link d n).rx.nak = true ∨ (t.link d n).rx.tnak = true) ∧ (t.link d n).rx.nextFseq = (s.link d n).rx.nextFseq ∧
      (t.fblock d (blkLink d n)).valid = true) ∧
  (∀ (d : Dev) (n : Nat) (f : List (BitVec 66)) (s : State), (s.link d n).ctl.frameLock = true → f.all wordOk = true → f.length = 8 →
    hdrVc ((f.headD 0).extractLsb' 0 64) = 0 →
    exec (.frameRx d n f) s = .next (s.takeHeader d n ((f.headD 0).extractLsb' 0 64))) ∧
  (∀ (n : Nat) (f : List (BitVec 66)) (h : Word) (m : Msg) (s : State), (s.link .tsu n).ctl.frameLock = true →
    f.all wordOk = true → f.length = 8 → h = (f.headD 0).extractLsb' 0 64 → h.getLsbD 60 = false → h.getLsbD 3 = false →
    (s.link .tsu n).ctl.lstate = .service → hdrVc h = 1 → hdrFseq h = (s.link .tsu n).rx.nextTseq → hdrVseq h = (s.link .tsu n).rx.vseqTime →
    parseWords .time (f.tail.map fun w => w.extractLsb' 0 64) [] [] = some ([m], []) → (s.link .tsu n).fences = [] →
    s.tsu.power.state ≠ 4 →
    ∃ t, exec (.frameRx .tsu n f) s = .next t ∧ t.tsuC.inbox = s.tsuC.inbox ++ [(n, m)] ∧
      (t.link .tsu n).rx.nextTseq = hdrFseq h + 1 ∧ (t.link .tsu n).rx.vseqTime = hdrVseq h + 1 ∧
      (t.link .tsu n).ctl.lstate = .service ∧ t.jup = s.jup ∧ t.out = s.out) ∧
  (∀ (d : Dev) (n : Nat) (f : List (BitVec 66)) (s : State), (s.link d n).ctl.frameLock = false →
    exec (.frameRx d n f) s = .next s)

/-- R15, R232, R234, R240, R242, R245, R246, R255, R264: a link end that is not held in electrical idle launches one frame on a tick, on both
lanes, none in DOWN and TRAIN; in SERVICE, off the TIME slots, with nothing to send or replay, an IDLE frame, and with a STEP message ready
and no BULK a STEP frame, which is retained and takes a credit. An ack that stops advancing is counted and starts a replay with the oldest
frame retained, in SERVICE only for STEP and BULK. -/
def Obligations.FramesLaunched : Prop :=
  (∀ (d : Dev) (n : Nat) (s : State), (s.link d n).tx.lastLaunch = some (s.now d) → exec (.frameLaunch d n) s = .next s) ∧
  (∀ (d : Dev) (n : Nat) (s : State), s.idlePort d n = true → exec (.frameLaunch d n) s = .next s) ∧
  (∀ (d : Dev) (n : Nat) (s : State), (s.link d n).ctl.lstate = .down ∨ (s.link d n).ctl.lstate = .train →
    exec (.frameLaunch d n) s = .next s) ∧
  (∀ (d : Dev) (n : Nat) (s : State), s.idlePort d n = false → (s.link d n).tx.lastLaunch ≠ some (s.now d) →
    (s.link d n).ctl.lstate = .align ∨ (s.link d n).ctl.lstate = .timing ∨ (s.link d n).ctl.lstate = .service →
    (s.link d n).ctl.injPar = false → (s.link d n).fences = [] →
    ∃ t, exec (.frameLaunch d n) s = .next t ∧ (∃ a b, t.out = s.out ++ [.frame d n a b] ∧ a.length = 132 ∧ b.length = 132) ∧
      (t.link d n).tx.lastLaunch = some (s.now d)) ∧
  (∀ (d : Dev) (n : Nat) (s : State), s.idlePort d n = false → (s.link d n).tx.lastLaunch ≠ some (s.now d) →
    (s.link d n).ctl.lstate = .service → (s.now d).toNat % 128 ≠ 0 → exec (.frameLaunch d n) s = .next (s.serviceFrame d n)) ∧
  (∀ (d : Dev) (n : Nat) (s : State), (s.link d n).fences = [] → replayFrame (s.link d n).tx = none →
    stepReady (s.link d n) = false → s.bulkReady d n = false →
    s.serviceFrame d n = s.putFrame d n idleFrame false false) ∧
  (∀ (d : Dev) (n : Nat) (s : State), s.idlePort d n = false → (s.link d n).tx.lastLaunch ≠ some (s.now d) →
    (s.link d n).ctl.lstate = .service → (s.now d).toNat % 128 ≠ 0 → (s.link d n).fences = [] → replayFrame (s.link d n).tx = none →
    stepReady (s.link d n) = true → s.openPort d n = true → s.bulkReady d n = false → (s.link d n).ctl.injPar = false →
    ∃ t, exec (.frameLaunch d n) s = .next t ∧ (t.link d n).tx.stepCr = (s.link d n).tx.stepCr - 1 ∧
      (t.link d n).tx.txFseq = (s.link d n).tx.txFseq + 1 ∧ (t.link d n).tx.vseqStep = (s.link d n).tx.vseqStep + 1 ∧
      (∃ f, (t.link d n).tx.retained = (s.link d n).tx.retained ++ [f] ∧ f.words.length = 7 ∧ hdrVc f.hdr = 2 ∧
        hdrFseq f.hdr = (s.link d n).tx.txFseq)) ∧
  (∀ (d : Dev) (n : Nat) (f : Frame) (r b : Bool) (s : State), f.words.length = 7 →
    ∃ w : BitVec 66, (s.putFrame d n f r b).out = s.out ++ [.frame d n (laneSymbols 0 (w :: f.words.map lineWord))
      (laneSymbols 1 (w :: f.words.map lineWord))] ∧ (b = false → wordOk w = true) ∧ (b = true → wordOk w = false)) ∧
  (∀ (d : Dev) (n : Nat) (f : Frame) (s : State), (s.link d n).ctl.lstate = .service → (s.link d n).tx.retained.head? = some f →
    (s.link d n).tx.retainedT = [] → (s.link d n).tx.ackTick.toNat + ackTimeout (s.link d n) ≤ (s.now d).toNat →
    (s.link d n).ctl.sameReplay = 0 → (s.link d n).ctl.episodes = [] → s.replayMax d n ≠ 0 →
    ∃ t, exec (.ackTimeout d n) s = .next t ∧ (t.link d n).tx.replayAt = some (hdrFseq f.hdr) ∧
      (t.link d n).tx.retained = (s.link d n).tx.retained ∧ (t.link d n).ctl.cntAckTo = satInc (s.link d n).ctl.cntAckTo ∧
      (t.link d n).ctl.cntReplay = satInc (s.link d n).ctl.cntReplay ∧ (t.link d n).ctl.lstate = .service ∧ t.out = s.out) ∧
  (∀ (d : Dev) (n : Nat) (s : State), (s.link d n).ctl.lstate = .service →
    exec (.ackTimeout d n) s = .next ((s.ackLost d n false).ackLost d n true)) ∧
  (∀ (d : Dev) (n : Nat) (s : State), (s.link d n).ctl.lstate = .align ∨ (s.link d n).ctl.lstate = .timing →
    exec (.ackTimeout d n) s = .next (s.ackLost d n true)) ∧
  (∀ (d : Dev) (n : Nat) (s : State), (s.link d n).ctl.lstate = .down ∨ (s.link d n).ctl.lstate = .train →
    exec (.ackTimeout d n) s = .next s) ∧
  (∀ (d : Dev) (n : Nat) (tm : Bool) (s : State), timedOut (s.link d n) (s.now d) tm = false → s.ackLost d n tm = s)

/-- R248, R252, R253: flows and deliveries. A window update sets the flow's credit at the end that sends it, and goes back by a Jupin that
sends the flow on; an abort drops the message in progress of its flow only; a delivery report is taken by the count that waits on its port,
and one of an unknown handle changes nothing but the inbox. -/
def Obligations.FlowsAndDeliveries : Prop :=
  (∀ (d : Dev) (n : Nat) (flow : BitVec 10) (w : Word) (s : State), (s.flow d n flow).via = none →
    ∃ t, exec (.windowUpdateRx d n flow w) s = .next t ∧ (t.flow d n flow).credit = fld w 47 0 ∧
      (t.flow d n flow).sent = (s.flow d n flow).sent ∧ (∀ f, f ≠ flow → t.flow d n f = s.flow d n f) ∧
      (t.link d n).tx = (s.link d n).tx ∧ (∀ k, k ≠ n → t.link d k = s.link d k) ∧ t.out = s.out) ∧
  (∀ (d : Dev) (n i : Nat) (flow : BitVec 10) (w : Word) (s : State), (s.flow d n flow).via = some i →
    exec (.windowUpdateRx d n flow w) s = .next (((s.consume d n mtWindow [w]).modLink d n fun l =>
      l.setFlow { s.flow d n flow with credit := fld w 47 0 }).send d i { mtype := mtWindow, route := 0, flow := flow, addr := 0, words := [w] })) ∧
  (∀ (d : Dev) (n : Nat) (w : Word) (s : State), Table.wf {} (s.com d).links = true →
    (s.link d n).rx.partBulk.head?.map (fun h => h.extractLsb' 32 10) = some (w.extractLsb' 0 10) →
    ∃ t, exec (.flowAbortRx d n w) s = .next t ∧ (t.link d n).rx = { (s.link d n).rx with partBulk := [] } ∧
      (t.link d n).tx = (s.link d n).tx ∧ (∀ k, k ≠ n → t.link d k = s.link d k) ∧ t.out = s.out) ∧
  (∀ (d : Dev) (n : Nat) (w : Word) (s : State), Table.wf {} (s.com d).links = true →
    (s.link d n).rx.partBulk.head?.map (fun h => h.extractLsb' 32 10) ≠ some (w.extractLsb' 0 10) →
    ∃ t, exec (.flowAbortRx d n w) s = .next t ∧ (∀ k, t.link d k = s.link d k) ∧ t.out = s.out) ∧
  (∀ (p : Nat) (ws : List Word) (s : State), s.jupC.deliveries = [] →
    exec (.deliveryReportRx p ws) s = .next (s.consume .jup p mtDelivery ws)) ∧
  (∀ (p : Nat) (ws : List Word) (x : Delivery) (s : State), s.jupC.deliveries = [x] →
    x.handle = (nthW ws 0).extractLsb' 32 32 → x.left.any (fun e => decide (e.1 = p)) = true →
    exec (.deliveryReportRx p ws) s = .next ((s.consume .jup p mtDelivery ws).portDelivered x p (fld (nthW ws 1) 63 32))) ∧
  (∀ (p : Nat) (ws : List Word) (x : Delivery) (s : State), s.jupC.deliveries = [x] →
    x.handle = (nthW ws 0).extractLsb' 32 32 → x.left.any (fun e => decide (e.1 = p)) = true → (∃ e ∈ x.left, e.1 ≠ p) →
    ∃ t, exec (.deliveryReportRx p ws) s = .next t ∧ t.jupC.deliveries = [{ x with
        left := x.left.filter (fun e => !decide (e.1 = p)), delivered := x.delivered + fld (nthW ws 1) 63 32 }] ∧ t.jup = s.jup ∧ t.tsu = s.tsu ∧ t.out = s.out)

/-- R15, R232, R255, R258, R259, R261, R262, R264, R404: the states of a link. Each event moves the link along its own edge and leaves the
retained frames and the sequence state as they are; DISABLE, electrical idle and the reset of the link's own end hold it DOWN; a state that overruns its time goes to
DOWN, the third time in a row with LINK_TRAIN_FAIL, and the next try comes a second later. A port that stays DOWN is a fault and fences its
child from the jobs of this side. -/
def Obligations.LinkStates : Prop :=
  (∀ (d : Dev) (n : Nat) (s : State), (s.link d n).ctl.lstate = .down → (s.link d n).ctl.disable = false → s.idlePort d n = false →
    s.endUp d n = true → (s.link d n).ctl.trainFails < 3 →
    ∃ t, exec (.linkSignalDetect d n) s = .next t ∧ (t.link d n).ctl.lstate = .train ∧ (t.link d n).tx = (s.link d n).tx ∧
      (t.link d n).rx = (s.link d n).rx ∧ (∀ k, k ≠ n → t.link d k = s.link d k) ∧ t.out = s.out) ∧
  (∀ (d : Dev) (n : Nat) (s : State), (s.link d n).ctl.disable = true ∨ s.idlePort d n = true ∨ s.endUp d n = false →
    exec (.linkSignalDetect d n) s = .next s ∧ exec (.linkTrainRetry d n) s = .next s) ∧
  (∀ (d : Dev) (n : Nat) (s : State), (s.link d n).ctl.lstate = .train →
    ∃ t, exec (.trainLock d n) s = .next t ∧ (t.link d n).ctl.lstate = .align ∧ (t.link d n).tx = (s.link d n).tx ∧
      (t.link d n).rx = (s.link d n).rx ∧ (∀ k, k ≠ n → t.link d k = s.link d k) ∧ t.out = s.out) ∧
  (∀ (d : Dev) (n : Nat) (s : State), (s.link d n).ctl.lstate ≠ .train → exec (.trainLock d n) s = .next s) ∧
  (∀ (d : Dev) (n : Nat) (s : State), (s.link d n).ctl.lstate = .align →
    ∃ t, exec (.frameLock d n) s = .next t ∧ (t.link d n).ctl.frameLock = true ∧ (t.link d n).ctl.lstate = .align ∧
      (t.link d n).tx = (s.link d n).tx ∧ (∀ k, k ≠ n → t.link d k = s.link d k) ∧ t.out = s.out) ∧
  (∀ (d : Dev) (n : Nat) (s : State), s.overran d n = true → (s.link d n).ctl.trainFails = 0 →
    ∃ t, exec (.linkStateTimeout d n) s = .next t ∧ (t.link d n).ctl.lstate = .down ∧ (t.link d n).ctl.trainFails = 1 ∧
      (t.link d n).tx = (s.link d n).tx ∧ (t.link d n).rx = (s.link d n).rx ∧ (∀ k, k ≠ n → t.link d k = s.link d k)) ∧
  (∀ (d : Dev) (n : Nat) (s : State), s.overran d n = true → 2 ≤ (s.link d n).ctl.trainFails →
    ∃ t, exec (.linkStateTimeout d n) s = .next t ∧ (t.link d n).ctl.lstate = .down ∧
      (t.link d n).ctl.trainFails = (s.link d n).ctl.trainFails + 1 ∧ (t.fblock d (blkLink d n)).valid = true) ∧
  (∀ (d : Dev) (n : Nat) (s : State), (s.link d n).ctl.lstate = .service → s.overran d n = false) ∧
  (∀ (d : Dev) (n : Nat) (s : State), (s.link d n).ctl.lstate = .down → (s.link d n).ctl.disable = false → s.idlePort d n = false →
    s.endUp d n = true → 3 ≤ (s.link d n).ctl.trainFails → (s.link d n).ctl.since.toNat + 1600000000 ≤ (s.now d).toNat →
    ∃ t, exec (.linkTrainRetry d n) s = .next t ∧ (t.link d n).ctl.lstate = .train ∧ (t.link d n).tx = (s.link d n).tx ∧
      (t.link d n).rx = (s.link d n).rx ∧ t.out = s.out) ∧
  (∀ (d : Dev) (n : Nat) (s : State), exec (.laneLoss d n) s = .next (s.linkToDown d n) ∧
    exec (.retrain d n) s = .next ((s.linkToDown d n).modCtl d n fun c => { c with retrain := true }) ∧
    exec (.disable d n true) s = .next ((s.linkToDown d n).modCtl d n fun c => { c with disable := true }) ∧
    exec (.disable d n false) s = .next (s.modCtl d n fun c => { c with disable := false })) ∧
  (∀ (d : Dev) (n : Nat) (s : State), Table.wf {} (s.com d).links = true →
    (∃ t, exec (.laneLoss d n) s = .next t ∧ (t.link d n).ctl.lstate = .down ∧ (t.link d n).ctl.frameLock = false ∧
      (t.link d n).tx = (s.link d n).tx ∧ (t.link d n).rx = (s.link d n).rx ∧ (∀ k, k ≠ n → t.link d k = s.link d k) ∧ t.out = s.out) ∧
    (∃ t, exec (.retrain d n) s = .next t ∧ (t.link d n).ctl.lstate = .down ∧ (t.link d n).ctl.retrain = true ∧
      (t.link d n).tx = (s.link d n).tx ∧ (t.link d n).rx = (s.link d n).rx ∧ (∀ k, k ≠ n → t.link d k = s.link d k) ∧ t.out = s.out) ∧
    (∃ t, exec (.disable d n true) s = .next t ∧ (t.link d n).ctl.lstate = .down ∧ (t.link d n).ctl.disable = true ∧
      (t.link d n).tx = (s.link d n).tx ∧ (t.link d n).rx = (s.link d n).rx ∧ t.out = s.out) ∧
    (∃ t, exec (.disable d n false) s = .next t ∧ (t.link d n).ctl.lstate = (s.link d n).ctl.lstate ∧
      (t.link d n).ctl.disable = false ∧ (t.link d n).tx = (s.link d n).tx ∧ t.out = s.out)) ∧
  (∀ (p : Nat) (k : Tick) (s : State), p < 88 → (s.link .jup p).ctl.downSince = some k → (s.link .jup p).ctl.lstate ≠ .service →
    k.toNat + 2 ^ s.downLog2 p ≤ (s.now .jup).toNat → (s.link .jup p).ctl.downRaised = false →
    exec (.linkDown p) s = .next (((s.modCtl .jup p fun c => { c with downRaised := true }).raiseLinkLevel .jup p cLinkDown).fenceJobsAt p
      (s.now .jup + 1))) ∧
  (∀ (p : Nat) (k : Tick) (s : State), (s.link .jup p).ctl.downSince = some k → (s.link .jup p).ctl.lstate ≠ .service →
    k.toNat + 2 ^ s.downLog2 p ≤ (s.now .jup).toNat → (s.link .jup p).ctl.downRaised = false →
    ∃ t, exec (.linkDown p) s = .next t ∧ (t.link .jup p).ctl.downRaised = true ∧ (t.link .jup p).ctl.lstate = (s.link .jup p).ctl.lstate ∧
      (p < 88 → ∀ e ∈ s.mapRuns, e.2.port.toNat = p → e.2.side.toNat = s.ownSide → (s.role = 1 → s.ownsPort p e.2.job = true) →
        ∃ f ∈ (t.link .jup p).fences, f.job = e.2.job ∧ f.domain = false ∧ f.path = s.childPath p))

/-- R38, R255 to R258, R323: what link control announces is kept for the far end, and once a link in ALIGN has frame lock it
goes on to TIMING, with the retained frames kept where the SESSION is the one known and dropped where it is another; elsewhere the link
stays in its state, but for a down port of a Jupin whose child's SESSION has changed in SERVICE: it follows it into ALIGN.
INJ_PAR is armed by those whose rights allow it and is DENIED otherwise. -/
def Obligations.LinkControlTaken : Prop :=
  (∀ (d : Dev) (n : Nat) (ws : List Word) (s : State), exec (.linkControlRx d n ws) s =
    .next ((((((s.consume d n mtControl ws).roleCheck d n (fld (nthW ws 0) 63 62)).keepAnnounced d n (nthW ws 0) (nthW ws 1)).epochCheck
      d n).followAlign d n (nthW ws 1)).alignDone d n (nthW ws 1))) ∧
  (∀ (d : Dev) (n : Nat) (ws : List Word) (s : State), (s.link d n).ctl.lstate = .align → (s.link d n).ctl.frameLock = true →
    ∃ t, exec (.linkControlRx d n ws) s = .next t ∧ (t.link d n).ctl.lstate = .timing ∧
      (t.link d n).ctl.seenSession = (nthW ws 1).extractLsb' 48 16 ∧ (t.link d n).ctl.farSession = (s.link d n).ctl.farSession ∧
      (t.link d n).ctl.farEpoch = (nthW ws 0).extractLsb' 32 16 ∧
      (t.link d n).ctl.farRole = (nthW ws 0).extractLsb' 62 2 ∧ (t.link d n).ctl.farPort = (nthW ws 0).extractLsb' 55 7 ∧
      (t.link d n).ctl.timeOnly = decide (fld (nthW ws 1) 31 0 = 0)) ∧
  (∀ (d : Dev) (n : Nat) (ws : List Word) (s : State), (s.link d n).ctl.lstate ≠ .align →
    d = .tsu ∨ 88 ≤ n ∨ (s.link d n).ctl.lstate ≠ .service →
    ∃ t, exec (.linkControlRx d n ws) s = .next t ∧ (t.link d n).ctl.lstate = (s.link d n).ctl.lstate ∧
      (t.link d n).ctl.farSession = (s.link d n).ctl.farSession ∧ (t.link d n).ctl.farEpoch = (nthW ws 0).extractLsb' 32 16 ∧
      (t.link d n).tx.retained = (s.link d n).tx.retained) ∧
  (∀ (n : Nat) (ws : List Word) (s : State), n < 88 → (s.link .jup n).ctl.lstate = .service → (s.link .jup n).ctl.frameLock = false →
    (s.link .jup n).ctl.farSession ≠ (nthW ws 1).extractLsb' 48 16 →
    ∃ t, exec (.linkControlRx .jup n ws) s = .next t ∧ (t.link .jup n).ctl.lstate = .align) ∧
  (∀ (d : Dev) (n : Nat) (w1 : Word) (s : State), (s.link d n).ctl.lstate ≠ .align → s.alignDone d n w1 = s) ∧
  (∀ (d : Dev) (n : Nat) (w1 : Word) (s : State), (s.link d n).ctl.lstate = .align → (s.link d n).ctl.frameLock = true →
    (s.link d n).ctl.served = false ∨ (s.link d n).ctl.farSession ≠ w1.extractLsb' 48 16 →
    ((s.alignDone d n w1).link d n).tx.retained = [] ∧ ((s.alignDone d n w1).link d n).rx.nextFseq = 0 ∧
    ((s.alignDone d n w1).link d n).rx.nextTseq = 0 ∧ ((s.alignDone d n w1).link d n).ctl.cntParity = 0) ∧
  (∀ (d : Dev) (n : Nat) (src : Src) (s : State), s.injDenied d src = false →
    ∃ t, exec (.injPar d n src) s = .next t ∧ (t.link d n).ctl.injPar = true ∧ (t.link d n).tx = (s.link d n).tx ∧
      (t.link d n).ctl.lstate = (s.link d n).ctl.lstate ∧ (∀ k, k ≠ n → t.link d k = s.link d k) ∧ t.out = s.out) ∧
  (∀ (d : Dev) (n : Nat) (src : Src) (s : State), s.injDenied d src = true → exec (.injPar d n src) s = .next (s.denied d)) ∧
  (∀ (d : Dev) (src : Src) (s : State), (s.com d).sec.level = .sealed_ → (s.com d).sec.session ≠ .observe → s.injDenied d src = true)

/-- R29, R214, R253, R254, R397, R412, R424: a fence of a job holds the RUNNING channels of that job at their next boundary, one of the domain
every RUNNING channel, and the held signals of those channels go at its tick; at a rack Jupin it takes effect on the port of the fenced
die, or is counted where the job does not own that port, at any other Jupin the message is only taken, and at its tick the port begins to discard. A peer fence presents a filter entry, and the answer of the network interface installs
it, clears it, or reports the filter full. -/
def Obligations.FencesAct : Prop :=
  (∀ (n : Nat) (ws : List Word) (s : State),
    ∃ t, exec (.fenceRx .tsu n ws) s = .next t ∧
      (∀ c : Fin 8, (s.chan c).state ≠ .unbound → ((fenceOf ws).domain = true ∨ (s.chan c).job = (fenceOf ws).job) →
        (t.chan c).fenceTick = some (fenceOf ws).tick ∧ (t.chan c).state = (s.chan c).state ∧
        ((s.chan c).state = .running → 1 ∈ (t.chan c).holdWant)) ∧
      (∀ c : Nat, (s.chan c).state = .unbound ∨ ((fenceOf ws).domain = false ∧ (s.chan c).job ≠ (fenceOf ws).job) → t.chan c = s.chan c) ∧
      (s.now .tsu < (fenceOf ws).tick → t.tsu.sync = s.tsu.sync) ∧ t.jup = s.jup ∧ t.out = s.out) ∧
  (∀ (n : Nat) (ws : List Word) (h : HeldSig) (s : State), (fenceOf ws).tick ≤ s.now .tsu → h ∈ s.tsu.sync.held → h.ch < 8 →
    (s.chan h.ch).state ≠ .unbound → (s.chan h.ch).job = (fenceOf ws).job →
    ∃ t, exec (.fenceRx .tsu n ws) s = .next t ∧ h ∉ t.tsu.sync.held) ∧
  (∀ (n p : Nat) (ws : List Word) (s : State), s.pathPort (fenceOf ws).path = some (some p) → s.role = 1 → p < 88 →
    (fenceOf ws).domain = true ∨ s.ownsPort p (fenceOf ws).job = true →
    ∃ t, exec (.fenceRx .jup n ws) s = .next t ∧
      { fenceOf ws with tick := s.fenceAfter p (fenceOf ws).tick } ∈ (t.link .jup p).fences ∧ t.tsu = s.tsu) ∧
  (∀ (n p : Nat) (ws : List Word) (s : State), s.pathPort (fenceOf ws).path = some (some p) → s.role = 1 → p < 88 →
    (fenceOf ws).domain = false → s.ownsPort p (fenceOf ws).job = false →
    exec (.fenceRx .jup n ws) s = .next ((s.consume .jup n mtFence ws).countDiscards [p])) ∧
  (∀ (n p : Nat) (ws : List Word) (s : State), (fenceOf ws).domain = false → s.jupC.groups = [] →
    s.pathPort (fenceOf ws).path = some (some p) → s.role = 1 → p < 88 → s.ownsPort p (fenceOf ws).job = true →
    exec (.fenceRx .jup n ws) s = .next (((s.consume .jup n mtFence ws).modLink .jup p fun l =>
      { l with fences := l.fences ++ [fenceOf ws] }).send .jup p (localMsg mtFence (fenceWords (fenceOf ws))))) ∧
  (∀ (p : Nat) (s : State), (∀ f ∈ (s.link .jup p).fences, s.now .jup < f.tick ∨ f.begun = true) → exec (.fenceTick p) s = .next s) ∧
  (∀ (p : Nat) (f : Fence) (s : State), (s.link .jup p).fences = [f] → f.tick ≤ s.now .jup → f.begun = false →
    exec (.fenceTick p) s = .next (((s.modLink .jup p fun l => { l with fences := [{ f with begun := true }] }).beginFence p f).partnerLost
      p f)) ∧
  (∀ (p : Nat) (f : Fence) (s : State), (s.link .jup p).fences = [f] → f.tick ≤ s.now .jup → f.begun = false → f.domain = true →
    ∃ t, exec (.fenceTick p) s = .next t ∧ (t.link .jup p).tx.retained = [] ∧ t.tsu = s.tsu) ∧
  (∀ (p : Nat) (f : Fence) (s : State), (s.link .jup p).fences = [f] → f.tick ≤ s.now .jup → f.begun = false → f.domain = false →
    ∃ t, exec (.fenceTick p) s = .next t ∧ (t.link .jup p).tx.retained = (s.link .jup p).tx.retained.map (fun x => x.without f.job) ∧
      t.tsu = s.tsu) ∧
  (∀ (f : Fence) (m : Msg) (js : List (BitVec 15)) (k : Tick), f.tick ≤ k → isTime m.mtype = false → f.domain = true ∨ f.job ∈ js →
    fenced [f] m js k = true) ∧
  (∀ (ws : List Word) (s : State), s.tsu.power.state ≠ 4 → (fenceOf ws).domain = true →
    ∃ t, exec (.peerFenceRx ws) s = .next t ∧ t.tsu.nfAsked = s.tsu.nfAsked ++ [(false, none, (fenceOf ws).path)] ∧
      (∃ f, t.tsu.filters = s.tsu.filters ++ [f] ∧ f.path = (fenceOf ws).path ∧ f.ch = none ∧ f.acked = false) ∧
      (s.clamped true = false → t.out = s.out ++ [.filter false none (fenceOf ws).path]) ∧ t.tsu.chans = s.tsu.chans) ∧
  (∀ (ws : List Word) (s : State), s.tsu.power.state ≠ 4 → (fenceOf ws).domain = false →
    ∃ t, exec (.peerFenceRx ws) s = .next t ∧ t.tsu.nfAsked = s.tsu.nfAsked ++
      (chanNums.filter fun c => decide ((s.chan c).state ≠ .unbound ∧ (s.chan c).job = (fenceOf ws).job)).map
        fun c => (false, some c, (fenceOf ws).path)) ∧
  (∀ (ws : List Word) (s : State), s.tsu.power.state = 4 → exec (.peerFenceRx ws) s = .next s) ∧
  (∀ (full : Bool) (s : State), s.tsu.nfAsked = [] → exec (.niFilterAck full) s = .next s) ∧
  (∀ (a : Bool × Option Nat × Half) (r : List (Bool × Option Nat × Half)) (s : State), s.mainOff = false → s.tsu.nfAsked = a :: r →
    ∃ t, exec (.niFilterAck true) s = .next t ∧ t.tsu.nfFull = true ∧ t.tsu.nfAsked = r ∧ t.tsu.filters = s.tsu.filters) ∧
  (∀ (ch : Option Nat) (path : Half) (r : List (Bool × Option Nat × Half)) (s : State), s.mainOff = false →
    s.tsu.nfAsked = (false, ch, path) :: r →
    ∃ t, exec (.niFilterAck false) s = .next t ∧ t.tsu.nfAsked = r ∧ t.tsu.filters =
      updFirst (fun f => decide (f.path = path ∧ f.ch = ch) && !f.acked) (fun f => { f with acked := true }) s.tsu.filters) ∧
  (∀ (ch : Option Nat) (path : Half) (r : List (Bool × Option Nat × Half)) (s : State), s.mainOff = false →
    s.tsu.nfAsked = (true, ch, path) :: r →
    ∃ t, exec (.niFilterAck false) s = .next t ∧ t.tsu.nfAsked = r ∧ t.tsu.nfFull = false) ∧
  (∀ (n : Nat) (ws : List Word) (s : State), s.role ≠ 1 → exec (.fenceRx .jup n ws) s = .next (s.consume .jup n mtFence ws))

/-- R17, R41, R235, R253, R342, R352, R469: the word forms lose nothing: a link header gives back the message it heads (as it stands on
the line), a fence message its fence, a staged write, a map run and a job target give back themselves,
and a time code its stamp, echo, temperature, state and sequence. -/
def Obligations.WordsRoundTrip : Prop :=
  (∀ m : Msg, m.words.length < 4096 → m.src = none → m.frames = 0 → m.want = 0 →
    msgOf (Msg.header m) m.words = m ∧ fld (Msg.header m) 55 44 = m.words.length) ∧
  (∀ f : Fence, f.begun = false → fenceOf (fenceWords f) = f) ∧
  (∀ w : StagedWrite, stagedOf (StagedWrite.word w) = w) ∧
  (∀ m : MapRun, runOf (MapRun.word m) = m ∧ (MapRun.word m).getLsbD 0 = true) ∧
  (∀ (j : BitVec 15) (a b : BitVec 17), jobTarget (Target.word (.job j a b)) = .job j a b) ∧
  (∀ (st : Stamp) (e : Int) (temp : BitVec 8) (x q : Nat), -2147483648 ≤ e → e < 2147483648 → x < 8 →
    codeStamp (timeCode st e temp x q) = st ∧ codeEcho (timeCode st e temp x q) = e ∧ codeTemp (timeCode st e temp x q) = temp ∧
    (codeState (timeCode st e temp x q)).toNat = x ∧ (codeSeq (timeCode st e temp x q)).toNat = q % 32)


/-! ## The journal, shadows and the pair -/

/-- R9, R270, R273, R275, R277, R327: an append of a reserved KIND stops; with its first append the journal flow of a job
opens, and one that gets no tracker entry is refused, with the gate of an INPUT record's step failing (log 201). A record whose
CRC fails is not kept and fails its step; a duplicate of a durable INPUT is discarded and counted; a copy from the other member
is stored as durable; any other record is stored and forwarded while it fits the quota. The order of the judgments and the failed
step of a duplicate with another CRC are the model's (log 93), and so is the block that a record gets (log 199). -/
def Obligations.JournalRecords : Prop :=
  (∀ (p : Nat) (ws : List Word) (s : State), fld (nthW ws 0) 31 28 = 0 ∨ 3 < fld (nthW ws 0) 31 28 →
    exec (.journalAppend p ws) s = .fault (.unpredictable "R9")) ∧
  (∀ (p : Nat) (ws : List Word) (s : State), 1 ≤ fld (nthW ws 0) 31 28 → fld (nthW ws 0) 31 28 ≤ 3 →
    exec (.journalAppend p ws) s = .next ((s.consume .jup p mtAppend ws).appendIn p (recordOf ws 0 (s.now .jup)))) ∧
  (∀ (p : Nat) (r : JrnRec) (s t : State), s.openFlow .journalFlow r.job = some t →
    s.appendIn p r = if 88 ≤ p then t.appendCopy p r else t.appendOwn p r) ∧
  (∀ (p : Nat) (r : JrnRec) (s : State), s.openFlow .journalFlow r.job = none →
    s.appendIn p r = if p < 88 ∧ r.kind = 1 then s.badInput r else s) ∧
  (∀ (k : TrackKind) (j : BitVec 15) (s : State), s.flowOpen k j = true → s.openFlow k j = some s) ∧
  (∀ (k : TrackKind) (j : BitVec 15) (s : State), s.flowOpen k j = false → 61440 ≤ s.jup.tracker.length → s.openFlow k j = none) ∧
  (∀ (k : TrackKind) (j : BitVec 15) (s : State), s.flowOpen k j = false → s.jup.tracker.length < 61440 →
    ∃ t, s.openFlow k j = some t ∧ t.flowOpen k j = true ∧ t.jup.journal = s.jup.journal ∧ t.jup.stage = s.jup.stage ∧
      t.jupC = s.jupC ∧ t.tsu = s.tsu ∧ t.out = s.out) ∧
  (∀ (p : Nat) (r : JrnRec) (s : State), r.crcOk = true → s.durableTwin r = none → r.kind ≠ 3 →
    s.appendCopy p r = s.storeRecord r true) ∧
  (∀ (p : Nat) (r : JrnRec) (s : State), r.crcOk = false →
    s.appendCopy p r = s.raisePort p cJrnCrc {} ∧ s.appendOwn p r = (s.badInput r).raisePort p cJrnCrc {}) ∧
  (∀ (p : Nat) (ws : List Word) (r : JrnRec) (s : State), r = recordOf ws 0 (s.now .jup) → 1 ≤ fld (nthW ws 0) 31 28 →
    fld (nthW ws 0) 31 28 ≤ 3 → p < 88 → s.flowOpen .journalFlow r.job = true →
    crc32c (r.data.drop 4) ≠ (nthW ws 3).extractLsb' 32 32 →
    exec (.journalAppend p ws) s = .next (((s.consume .jup p mtAppend ws).badInput r).raisePort p cJrnCrc {})) ∧
  (∀ (p n : Nat) (x r : JrnRec) (ws : List Word) (s : State), r = recordOf ws 0 (s.now .jup) → s.jup.journal = [(n, x)] →
    x.durable = true → fld (nthW ws 0) 31 28 = 1 → r.crcOk = true → s.flowOpen .journalFlow r.job = true →
    sameChunk x r = true → x.crc = r.crc →
    exec (.journalAppend p ws) s = .next ((s.consume .jup p mtAppend ws).modJup fun j => { j with journalDup := j.journalDup + 1 })) ∧
  (∀ (p : Nat) (r x : JrnRec) (s : State), r.crcOk = true → s.durableTwin r = some x → x.crc ≠ r.crc →
    s.appendOwn p r = (s.badInput r).raisePort p cJrnCrc {}) ∧
  (∀ (p : Nat) (r : JrnRec) (s : State), r.crcOk = true → s.jup.journal.any (fun e => sameChunk e.2 r && e.2.durable) = false →
    s.stepPassed r = false → s.usage r.job + r.bytes ≤ (s.jobWord r.job 4).toNat →
    s.appendOwn p r = (s.storeRecord r false).forwardRecord r) ∧
  (∀ (p : Nat) (r : JrnRec) (s : State), r.crcOk = true → s.jup.journal.any (fun e => sameChunk e.2 r && e.2.durable) = false →
    s.stepPassed r = true → s.appendOwn p r = (s.addLost r.job r.seqId lostJrnLate).raisePort p cJrnLate {}) ∧
  (∀ (p : Nat) (r : JrnRec) (s : State), r.crcOk = true → s.jup.journal.any (fun e => sameChunk e.2 r && e.2.durable) = false →
    s.stepPassed r = false → (s.jobWord r.job 4).toNat < s.usage r.job + r.bytes → s.appendOwn p r = s.overQuota r) ∧
  (∀ (p : Nat) (ws : List Word) (r : JrnRec) (s : State), r = recordOf ws 0 (s.now .jup) →
    1 ≤ fld (nthW ws 0) 31 28 → fld (nthW ws 0) 31 28 ≤ 3 → p < 88 → r.crcOk = true → s.flowOpen .journalFlow r.job = true →
    s.jup.journal.any (fun e => sameChunk e.2 r && e.2.durable) = false → s.stepPassed r = false →
    s.usage r.job + r.bytes ≤ (s.jobWord r.job 4).toNat →
    ∃ t, exec (.journalAppend p ws) s = .next t ∧
      t.jup.journal = s.jup.journal ++
        [(s.jup.journalNext, { r with block := s.journalPlace r.bytes, durable := false, endTick := none })] ∧
      t.jup.journalNext = s.jup.journalNext + 1 ∧ t.jup.journalBlock = s.journalPlace r.bytes + r.bytes / 64 ∧
      t.jup.journalDup = s.jup.journalDup ∧ t.jup.stage = s.jup.stage ∧ t.tsu = s.tsu ∧ t.out = s.out)

/-- R264, R265, R270, R272, R274, R276, R279: what comes to a Jupin's records in time. A record becomes durable once; a
sequence whose END is durable leaves the journal RETAIN_TICKS later; a memory error marks the records it lies under, or
the restore generation; a shadow's acknowledgement only moves it forward, and counts for nothing on a flow that got no tracker entry (log 201); an
operation past its DEADLINE posts TIMEOUT and leaves the tracker, and a reduction or round fails; the hot-standby takes a lost
member's groups over once, when its links to the member and the peer group that the survivor reports have been DOWN for
2^DOWN_LOG2 ticks. -/
def Obligations.RecordsAge : Prop :=
  (∀ (n : Nat) (r : JrnRec) (s : State), s.jup.journal = [(n, r)] → r.durable = false →
    exec (.journalDurable n) s = .next (s.makeDurable n r)) ∧
  (∀ (n : Nat) (r : JrnRec) (s : State), s.jup.journal = [(n, r)] → r.durable = false → r.kind ≠ 3 →
    ∃ t, exec (.journalDurable n) s = .next t ∧ t.jup.journal = [(n, { r with
        durable := true, endTick := if r.kind = 2 then some (s.now .jup) else none })] ∧ t.tsu = s.tsu) ∧
  (∀ (n : Nat) (r : JrnRec) (s : State), s.jup.journal = [(n, r)] → r.durable = true → exec (.journalDurable n) s = .next s) ∧
  (∀ (n : Nat) (s : State), s.jup.journal = [] → exec (.journalDurable n) s = .next s) ∧
  (∀ (j : BitVec 15) (q : BitVec 40) (s : State), s.ageDue j q = true →
    ∃ t, exec (.journalAgeOut j q) s = .next t ∧
      t.jup.journal = s.jup.journal.filter (fun e => !(decide (e.2.job = j) && decide (e.2.kind ≠ 3 ∧ e.2.seqId = q))) ∧
      t.jup.stage = s.jup.stage ∧ t.tsu = s.tsu ∧ t.out = s.out) ∧
  (∀ (j : BitVec 15) (q : BitVec 40) (s : State), s.ageDue j q = false → exec (.journalAgeOut j q) s = .next s) ∧
  (∀ (j : BitVec 15) (q : BitVec 40) (s : State), (∀ e ∈ s.jup.journal, e.2.endTick = none) → s.ageDue j q = false) ∧
  (∀ (b : Nat) (s : State), ∃ t, exec (.memoryUe (.journal b)) s = .next t ∧
    (t.fblock .jup blkMemory).valid = true ∧ t.tsu = s.tsu ∧
    t.jup.journal = s.jup.journal.map fun e => if e.2.covers b then (e.1, { e.2 with lost := true }) else e) ∧
  (∀ (p : BitVec 7) (g : Bool) (s : State), ∃ t, exec (.memoryUe (.restore p g)) s = .next t ∧ (t.gen p.toNat g).bad = true ∧
    (t.fblock .jup blkMemory).valid = true ∧ t.jup.journal = s.jup.journal ∧ t.tsu = s.tsu) ∧
  (∀ (j : BitVec 15) (r : BitVec 17) (st : BitVec 64) (s t : State), s.openFlow .shadowFlow j = some t →
    exec (.shadowAck j r st) s = .next ((t.ackShadow j r st).sendShadow j r).checkLag) ∧
  (∀ (j : BitVec 15) (r : BitVec 17) (st : BitVec 64) (s : State), s.openFlow .shadowFlow j = none →
    exec (.shadowAck j r st) s = .next s) ∧
  (∀ (j : BitVec 15) (r : BitVec 17) (st : BitVec 64) (x : Shadow) (s : State), s.jup.shadows = [x] → x.job = j → x.rank = r →
    s.flowOpen .shadowFlow j = true →
    ∃ t y, exec (.shadowAck j r st) s = .next t ∧ t.jup.shadows = [y] ∧ y.step = (if x.step < st then st else x.step) ∧
      y.job = j ∧ y.rank = r ∧ t.jup.journal = s.jup.journal ∧ t.tsu = s.tsu) ∧
  (∀ (i : BitVec 16) (e : TrackEntry) (s : State), i.toNat < 61440 → tget none s.jup.tracker i.toNat = some e →
    e.deadline < s.now .jup → exec (.jpOpTimeout i) s = .next (s.opTimeout i.toNat e)) ∧
  (∀ (i : BitVec 16) (e : TrackEntry) (s : State), 61440 ≤ i.toNat → s.stageEntry (i.toNat - 61440) = some e →
    e.deadline < s.now .jup → exec (.jpOpTimeout i) s = .next (s.stageTimeout (i.toNat - 61440) e)) ∧
  (∀ (i : BitVec 16) (e : TrackEntry) (s : State), i.toNat < 61440 → tget none s.jup.tracker i.toNat = some e →
    e.deadline < s.now .jup → e.kind ≠ .restoreFlow → e.handle = 0 → Table.wf none s.jup.tracker = true →
    ∃ t, exec (.jpOpTimeout i) s = .next t ∧ tget none t.jup.tracker i.toNat = none ∧
      (∀ k, k ≠ i.toNat → tget none t.jup.tracker k = tget none s.jup.tracker k) ∧ (t.fblock .jup blkTracker).valid = true ∧
      t.tsu = s.tsu) ∧
  (∀ (i : BitVec 16) (e : TrackEntry) (s : State), s.opEntry i.toNat = some e → ¬ e.deadline < s.now .jup →
    exec (.jpOpTimeout i) s = .next s) ∧
  (∀ (b : Bool) (k : Tick) (s : State), s.side = 2 → (standbyLinks b).all s.longDown = true →
    tget none s.jup.peerDown (sideKey b) = some k → k.toNat + 2 ^ s.downLog2 ((standbyLinks b).headD 0) ≤ (s.now .jup).toNat →
    s.jup.takeover.contains b = false →
    ∃ t, exec (.jpMemberLost b true) s = .next t ∧ t.jup.takeover = s.jup.takeover ++ [b] ∧
      (t.fblock .jup blkTracker).valid = true ∧ t.jup.stage = s.jup.stage ∧ t.tsu = s.tsu) ∧
  (∀ (b r : Bool) (s : State), s.side ≠ 2 → exec (.jpMemberLost b r) s = .next s) ∧
  (∀ (b : Bool) (s : State), tget none (s.notePeer b true).jup.peerDown (sideKey b) =
    some ((tget none s.jup.peerDown (sideKey b)).getD (s.now .jup))) ∧
  (∀ (b r : Bool) (s : State), s.side = 2 → s.jup.takeover.contains b = true ∨ (standbyLinks b).all s.longDown = false ∨
      (r = false ∧ Table.wf none s.jup.peerDown = true) →
    exec (.jpMemberLost b r) s = .next (s.notePeer b r))


/-! ## Images and restores -/

/-- R88, R348, R361, R367 to R369, R371, R372, R375: a LOAD_IMAGE that gets its handle opens the load, or waits behind the one in
progress (a TSU with a bound channel posts JOBS_ACTIVE); no section is taken before the life-cycle record has been read; a frame out of place ends the load with FORMAT, and one in its place with a
reserved bit set stops; a header is judged by IMG_LOCK, its form, the jobs, EVAL, its version and its signature, and an unsigned image is accepted
at LEVEL OPEN only; a ready load seals on a CSR edge (R88), which locks the device with the image's digest, and one that would replace a
generation that a restore reads stops. That loads wait behind one in progress is the model's (log 102), and that a load without a tracker entry is posted ABORTED (log 201). -/
def Obligations.LoadsJudged : Prop :=
  (∀ (d : Dev) (h : Hdr) (st : Nat) (s s' : State) (hd : Half), s.accept d h opLoadImage = (s', some hd) →
    exec (.loadImage d h st .self) s = .next (s'.openImage d hd .self st)) ∧
  (∀ (h : Hdr) (st : Nat) (p : BitVec 7) (s s' : State) (hd : Half), s.accept .jup h opLoadImage = (s', some hd) → p.toNat < 88 →
    exec (.loadImage .jup h st (.generation p)) s = .next (s'.openImage .jup hd (.generation p) st)) ∧
  (∀ (hd : Half) (dest : LoadTo) (st : Nat) (s : State), s.openImage .tsu hd dest st = s.askLoad .tsu (some hd) dest st ∧
    (61440 ≤ s.jup.tracker.length → s.openImage .jup hd dest st = s.post .jup hd stAborted []) ∧
    (s.jup.tracker.length < 61440 → ∃ t, s.openEntry .imageFlow hd none (s.now .jup + Config.opDeadline 6) = some t ∧
      s.openImage .jup hd dest st = t.askLoad .jup (some hd) dest st)) ∧
  (∀ (d : Dev) (h : Hdr) (st : Nat) (s s' : State) (hd : Half), s.accept d h opLoadImage = (s', some hd) → (s'.com d).load = none →
    (d = .tsu → s'.anyBound = false) → (d = .jup → s'.jup.tracker.length < 61440) →
    ∃ t l, exec (.loadImage d h st .self) s = .next t ∧ (t.com d).load = some l ∧ l.handle = some hd ∧ l.dest = .self ∧ l.stage = st ∧
      l.header = [] ∧ l.pos = 0 ∧ l.ready = false ∧ (t.com d).regs = (s'.com d).regs ∧ (t.com d).sec = (s'.com d).sec) ∧
  (∀ (d : Dev) (hd : Option Half) (dest : LoadTo) (st : Nat) (s : State), (s.com d).load ≠ none →
    s.askLoad d hd dest st = s.modCom d fun c => { c with loadQueue := c.loadQueue ++ [(hd, dest, st)] }) ∧
  (∀ (hd : Half) (dest : LoadTo) (st : Nat) (s : State), s.tsuC.load = none → s.anyBound = true →
    s.askLoad .tsu (some hd) dest st = (s.post .tsu hd stJobsActive []).modCom .tsu fun c => { c with load := none, loadQueue := [] }) ∧
  (∀ (d : Dev) (f : List Word) (s : State), (s.com d).sec.lcRead = false → exec (.imageSectionRx d f) s = .next s) ∧
  (∀ (d : Dev) (f : List Word) (l : Load) (s : State), (s.com d).sec.lcRead = true → (s.com d).load = some l →
    fld (nthW f 0) 63 56 ≠ l.pos →
    exec (.imageSectionRx d f) s = .next ((s.consume d (s.arrivedOn d mtImage f) mtImage f).failLoad d l stFormat
      (some cImageFormat) 0)) ∧
  (∀ (d : Dev) (f : List Word) (s : State), (s.com d).sec.lcRead = true → (s.com d).load = none →
    exec (.imageSectionRx d f) s = .next (s.consume d (s.arrivedOn d mtImage f) mtImage f)) ∧
  (∀ (d : Dev) (f : List Word) (l : Load) (s : State), (s.com d).sec.lcRead = true → (s.com d).load = some l → l.ready = false →
    l.pos = 0 → fld (nthW f 0) 63 56 = 0 → fld (nthW f 0) 55 36 = l.frame → (f.drop 1).length = fld (nthW f 0) 35 27 + 1 →
    fld (nthW f 0) 26 0 = 0 → (l.header ++ f.drop 1).length < headerLen (l.header ++ f.drop 1) → 1 ≤ imgSections (l.header ++ f.drop 1) →
    imgSections (l.header ++ f.drop 1) ≤ 64 →
    ∃ t, exec (.imageSectionRx d f) s = .next t ∧
      (t.com d).load = some { l with header := l.header ++ f.drop 1, frame := l.frame + 1 } ∧ (t.com d).regs = (s.com d).regs ∧
      (t.com d).sec = (s.com d).sec ∧ t.out = s.out) ∧
  (∀ (d : Dev) (f : List Word) (l : Load) (s : State), (s.com d).sec.lcRead = true → (s.com d).load = some l → l.ready = false →
    fld (nthW f 0) 63 56 = l.pos → fld (nthW f 0) 55 36 = l.frame → (f.drop 1).length = fld (nthW f 0) 35 27 + 1 →
    fld (nthW f 0) 26 0 ≠ 0 → exec (.imageSectionRx d f) s = .fault (.unpredictable "R9")) ∧
  (∀ (d : Dev) (l : Load) (s : State), (s.com d).load = some l → l.ready = false → exec (.imageSeal d) s = .next s) ∧
  (∀ (d : Dev) (s : State), (s.com d).load = none ∨ (s.now d).toNat % 8 ≠ 0 → exec (.imageSeal d) s = .next s) ∧
  (∀ (p : BitVec 7) (l : Load) (s : State), s.jupC.load = some l → l.ready = true → (s.now .jup).toNat % 8 = 0 → l.dest = .generation p →
    s.genRead p.toNat = false → Table.wf {} s.jup.gens = true → Table.wf false s.jup.genActive = true →
    ∃ t, exec (.imageSeal .jup) s = .next t ∧
      t.gen p.toNat (!(tget false s.jup.genActive p.toNat)) = { header := l.header, sections := l.kept, bad := false } ∧
      tget false t.jup.genActive p.toNat = !(tget false s.jup.genActive p.toNat)) ∧
  (∀ (p : BitVec 7) (l : Load) (s : State), s.jupC.load = some l → l.ready = true → (s.now .jup).toNat % 8 = 0 → l.dest = .generation p →
    s.genRead p.toNat = true → exec (.imageSeal .jup) s = .fault (.unpredictable "R10")) ∧
  (∀ (l : Load) (s : State), s.tsuC.load = some l → l.ready = true → (s.now .tsu).toNat % 8 = 0 → l.dest = .self → l.staged = [] →
    ∃ t, exec (.imageSeal .tsu) s = .next t ∧ t.tsuC.sec.sealedImg = true ∧
      t.tsuC.sec.imageDigest = Config.sha384 (signedPart l.header) ∧ t.tsuC.regs = s.tsuC.regs) ∧
  (∀ (d : Dev) (l : Load) (s : State), (s.com d).sec.imgLock = true →
    s.judgeHeader d l = .inl (s.refuseLoad d l stSigBad (some cImageSigBad))) ∧
  (∀ (d : Dev) (l : Load) (s : State), (s.com d).sec.imgLock = false → headerOk d l l.header = false →
    s.judgeHeader d l = .inl (s.failLoad d l stFormat (some cImageFormat) 0)) ∧
  (∀ (l : Load) (s : State), s.jupC.sec.imgLock = false → headerOk .jup l l.header = true → imgKind l.header = 1 →
    s.mapRuns ≠ [] → s.judgeHeader .jup l = .inl (s.refuseLoad .jup l stJobsActive none)) ∧
  (∀ (d : Dev) (l : Load) (s : State), (s.com d).sec.imgLock = false → headerOk d l l.header = true → imgKind l.header ≠ 1 →
    imgEval l.header = true → (s.com d).sec.level ≠ .opened →
    s.judgeHeader d l = .inl (s.failLoad d l stFormat (some cImageFormat) 0)) ∧
  (∀ (d : Dev) (l : Load) (s : State), (s.com d).sec.imgLock = false → headerOk d l l.header = true → imgKind l.header ≠ 1 →
    imgEval l.header = false → versionOk (s.com d).sec l.header = true → signatureOk (s.com d).sec l.header = true →
    s.judgeHeader d l = .inr { l with headerDone := true, sections := sectionTable l.header, pos := 1, frame := 0 }) ∧
  (∀ (d : Dev) (l : Load) (s : State), (s.com d).sec.imgLock = false → headerOk d l l.header = true → imgKind l.header ≠ 1 →
    imgEval l.header = false → versionOk (s.com d).sec l.header = true → signatureOk (s.com d).sec l.header = false →
    s.judgeHeader d l = .inl (s.failLoad d l stSigBad (some cImageSigBad) 0)) ∧
  (∀ (x : Security) (ws : List Word), imgSigner ws = 0 → signatureOk x ws = decide (x.level = .opened)) ∧
  (∀ (x : Security) (ws : List Word), imgSigner ws = 2 → x.fuses.owner = 0 → signatureOk x ws = false) ∧
  (∀ (x : Security) (ws : List Word), imgSigner ws = 1 → x.level ≠ .opened → x.allowVendor = false → signatureOk x ws = false)


/-- R281, R293, R328, R398, R432, R465: a RESTORE with a handle goes to the port its path leads to, posts BAD_ADDR where
it leads nowhere, DIE_IN_USE or IMAGE_BAD where the die or the generation does not suit; the identity is judged once FW_SET
or 2^20 ticks after the link; a weights section streams to its
address at once; a wake report of a die starts the IMAGE restore of its active generation, on the side of its AON_UPLINK. -/
def Obligations.RestoresRun : Prop :=
  (∀ (h : Hdr) (p : BitVec 32) (m : BitVec 3) (g : Bool) (s s' : State) (hd : Half),
    s.accept .jup h opRestore = (s', some hd) →
    exec (.restore h p m g) s = .next (s'.restoreCmd hd h.override p m g)) ∧
  (∀ (h : Hdr) (p : BitVec 32) (n : Nat) (m : BitVec 3) (g : Bool) (s s' : State) (hd : Half),
    s.accept .jup h opRestore = (s', some hd) → s'.pathPort p = some (some n) → s'.role = 1 → n < 88 →
    (s'.gen n g).aonUplink = s'.ownSide ∨ s'.side = 2 → tget none s'.jup.restores n = none → s'.dieOwned n = false →
    (s'.gen n g).bad = false → (s'.gen n g).header ≠ [] → s'.jup.tracker.length < 61440 →
    ∃ t, exec (.restore h p m g) s = .next t ∧ tget none t.jup.restores n = some
        { handle := some hd, source := n, job := none, sections := m, gen := g, override := h.override, streaming := false, sent := 0,
          opened := s'.now .jup } ∧
      (m ≠ 2 → Out.dieReset n ∈ t.out ∧ (Table.wf {} s'.jupC.links = true → (t.link .jup n).fences = [])) ∧ t.tsu = s'.tsu) ∧
  (∀ (hd : Half) (o : Bool) (p : BitVec 32) (m : BitVec 3) (g : Bool) (s : State), s.pathPort p = none →
    s.restoreCmd hd o p m g = s.post .jup hd stBadAddr []) ∧
  (∀ (hd : Half) (p : Nat) (r : RestoreOp) (s : State), tget none s.jup.restores p = none → s.dieOwned p = false →
    (s.gen p r.gen).bad = true → s.restoreHere hd p r = s.post .jup hd stImageBad []) ∧
  (∀ (hd : Half) (p : Nat) (r : RestoreOp) (s : State), tget none s.jup.restores p = none → s.dieOwned p = false →
    (s.gen p r.gen).bad = false → (s.gen p r.gen).header ≠ [] → s.restoreHere hd p r = s.openRestore p r) ∧
  (∀ (p : Nat) (r : RestoreOp) (s : State), 61440 ≤ s.jup.tracker.length → s.openRestore p r = s.restoreEnds p r stAborted) ∧
  (∀ (hd : Half) (p : Nat) (r : RestoreOp) (s : State), s.dieOwned p = true → s.domainFenced p = false →
    imageOnly r.sections = false → s.restoreHere hd p r = s.post .jup hd stDieInUse []) ∧
  (∀ (p : BitVec 7) (id : Identity) (s : State), tget none s.jup.restores p.toNat = none →
    exec (.restoreIdentityCheck p id) s = .next s) ∧
  (∀ (p : BitVec 7) (id : Identity) (r : RestoreOp) (s : State), tget none s.jup.restores p.toNat = some r →
    r.streaming = false → (s.link .jup p.toNat).ctl.lstate = .service → id.fwSet = true →
    exec (.restoreIdentityCheck p id) s = .next ((s.keepIdentity p.toNat id).judgeIdentity p.toNat r id)) ∧
  (∀ (p : BitVec 7) (id : Identity) (r : RestoreOp) (s : State), tget none s.jup.restores p.toNat = some r →
    r.streaming = false → (s.link .jup p.toNat).ctl.lstate = .service → id.fwSet = true →
    r.override = true ∨ (mapMismatch (nthW (s.gen r.source r.gen).header 1) id = false ∧
      ∀ j ∈ (s.keepIdentity p.toNat id).restoreJobs p.toNat r, versionMismatch ((s.keepIdentity p.toNat id).jobWord j 9) id = false) →
    ∃ t x, exec (.restoreIdentityCheck p id) s = .next t ∧ tget none t.jup.restores p.toNat = some x ∧ x.streaming = true ∧
      x.handle = r.handle ∧ x.sections = r.sections ∧ tget none t.jup.ids p.toNat = some id ∧ t.tsu = s.tsu) ∧
  (∀ (p : BitVec 7) (id : Identity) (r : RestoreOp) (s : State), tget none s.jup.restores p.toNat = some r →
    (s.link .jup p.toNat).ctl.lstate ≠ .service → exec (.restoreIdentityCheck p id) s = .next s) ∧
  (∀ (ws : List Word) (s : State), (nthW ws 0).extractLsb' 56 8 = 0x32 →
    s.clamped true = false →
    ∃ t, exec (.restoreStreamRx ws) s = .next t ∧ t.tsu = s.tsu ∧ t.jup = s.jup ∧
      t.out = s.out ++ [.dma .tsu (Config.tieWloadBase.setWidth 64 + BitVec.ofNat 64 (8 * fld (nthW ws 0) 47 0)) (ws.drop 1)]) ∧
  (∀ (ws : List Word) (s : State), (nthW ws 0).extractLsb' 56 8 = 0x31 → s.tsuC.sec.lcRead = false →
    exec (.restoreStreamRx ws) s = .next s) ∧
  (∀ (p : Nat) (ws : List Word) (s : State), s.role ≠ 1 →
    exec (.wakeReportRx p ws) s = .next (s.consume .jup p mtCompletion ws)) ∧
  (∀ (p : Nat) (ws : List Word) (g : Bool) (s : State), g = tget false s.jup.genActive p → s.role = 1 → (s.gen p g).header ≠ [] →
    (s.gen p g).bad = false → tget none s.jup.restores p = none → (s.gen p g).aonUplink = s.ownSide →
    s.jup.tracker.length < 61440 →
    ∃ t, exec (.wakeReportRx p ws) s = .next t ∧ tget none t.jup.restores p = some
        { handle := none, source := p, job := none, sections := 2, gen := g, override := false, streaming := false, sent := 0,
          opened := s.now .jup } ∧ t.tsu = s.tsu ∧ t.out = s.out)


/-! ## Jobs -/

/-- R160, R253, R277, R285, R287, R329, R348, R350, R353, R358: a job command that gets its handle is carried out where the job's ranks all lie
below, goes on toward that Jupin over the port to it, and posts BAD_ADDR where no Jupin knows the job. A start of an image
that is not staged posts IMAGE_MISSING; a resume before the earliest tick posts TOO_EARLY; a fence falls on the next
tick at the earliest, on a port that the job owns, and posts its tick. At a rack Jupin with no other group a start, a teardown, a resume
and a remap release PREPARE of their group at once, 872 ticks ahead of its Tc; a hold and a stretch go down the job's tree
from the job's active side, and from the other one over the peer group; a quota and a fence are posted; a bring-in takes its spare. A job held by its budget resumes only on a later BUDGET (assumption 175).
The next tick as the earliest and the tick 0 posted for a port that the job does not own are the model's (log 122). -/
def Obligations.JobCommands : Prop :=
  (∀ (h : Hdr) (j : BitVec 15) (st : Nat) (m : BitVec 32) (s s' : State) (hd : Half),
    s.accept .jup h opStartJob (job := some j) = (s', some hd) → s'.jobPlace j = .top →
    exec (.startJob h j st m) s = .next (s'.startHere hd j st m h.override)) ∧
  (∀ (h : Hdr) (j : BitVec 15) (s s' : State) (hd : Half), s.accept .jup h opTeardownJob (job := some j) = (s', some hd) →
    s'.jobPlace j = .top → exec (.teardownJob h j) s = .next (s'.tearGroup hd j 0 (s'.now .jup))) ∧
  (∀ (h : Hdr) (j : BitVec 15) (n : BitVec 64) (s s' : State) (hd : Half),
    s.accept .jup h opHoldJob (job := some j) = (s', some hd) → s'.jobPlace j = .top → s'.activeHere j = true →
    exec (.holdJob h j n) s = .next (s'.jobCommand hd j opHoldJob [n] [])) ∧
  (∀ (h : Hdr) (j : BitVec 15) (n : BitVec 64) (s s' : State) (hd : Half),
    s.accept .jup h opHoldJob (job := some j) = (s', some hd) → s'.jobPlace j = .top → s'.activeHere j = false →
    exec (.holdJob h j n) s = .next (s'.forwardCmd hd (s'.peerPort hd.toNat) (cmdWords opHoldJob (s'.wholeSpan j) hd [n]))) ∧
  (∀ (h : Hdr) (j : BitVec 15) (t : Tick) (s s' : State) (hd : Half),
    s.accept .jup h opResumeJob (job := some j) = (s', some hd) → s'.jobPlace j = .top →
    s'.jup.budgetHeld.contains j = false → exec (.resumeJob h j t) s = .next (s'.resumeHere hd j t)) ∧
  (∀ (h : Hdr) (j : BitVec 15) (t : Tick) (s s' : State) (hd : Half),
    s.accept .jup h opResumeJob (job := some j) = (s', some hd) → s'.jobPlace j = .top → s'.jup.budgetHeld.contains j = true →
    exec (.resumeJob h j t) s = .next (s'.post .jup hd stAborted [])) ∧
  (∀ (h : Hdr) (j : BitVec 15) (n : BitVec 64) (v : BitVec 20) (s s' : State) (hd : Half),
    s.accept .jup h opStretchJob (job := some j) = (s', some hd) → s'.jobPlace j = .top → s'.activeHere j = true →
    exec (.stretchJob h j n v) s = .next (s'.stretchTo hd j n v)) ∧
  (∀ (h : Hdr) (j : BitVec 15) (n : BitVec 64) (v : BitVec 20) (s s' : State) (hd : Half),
    s.accept .jup h opStretchJob (job := some j) = (s', some hd) → s'.jobPlace j = .top → s'.activeHere j = false →
    exec (.stretchJob h j n v) s = .next (s'.forwardCmd hd (s'.peerPort hd.toNat)
      (cmdWords opStretchJob (s'.wholeSpan j) hd [n, v.setWidth 64]))) ∧
  (∀ (h : Hdr) (j : BitVec 15) (b : BitVec 64) (s s' : State) (hd : Half),
    s.accept .jup h opSetQuota (job := some j) = (s', some hd) → s'.jobPlace j = .top → s'.role = 1 →
    exec (.setQuota h j b) s = .next (s'.quotaHere hd j b)) ∧
  (∀ (h : Hdr) (j : BitVec 15) (r : BitVec 17) (p : BitVec 32) (c : Fin 8) (s s' : State) (hd : Half),
    s.accept .jup h opRemapRank (job := some j) = (s', some hd) → s'.jobPlace j = .top → s'.below p = true → r ≤ s'.lastRank j →
    s'.jup.budgetHeld.contains j = false →
    exec (.remapRank h j r p c) s = .next (s'.remapGroup hd j [{ rank := r, path := p, channel := c.val }] opRemapRank)) ∧
  (∀ (h : Hdr) (j : BitVec 15) (r : BitVec 17) (p : BitVec 32) (c : Fin 8) (s s' : State) (hd : Half),
    s.accept .jup h opRemapRank (job := some j) = (s', some hd) → s'.jobPlace j = .top → s'.below p = false →
    exec (.remapRank h j r p c) s = .next (s'.post .jup hd stSpanExceeded [])) ∧
  (∀ (h : Hdr) (j : BitVec 15) (r : BitVec 17) (p : BitVec 32) (dual : Bool) (s s' : State) (hd : Half),
    s.accept .jup h opBringIn (job := some j) = (s', some hd) → s'.jobPlace j = .top → r ≤ s'.lastRank j →
    exec (.bringIn h j r p dual) s = .next (s'.bringIn hd j r p dual h.override)) ∧
  (∀ (hd : Half) (j : BitVec 15) (ws : List Word) (f : State → State) (p : Nat) (s : State), s.jobPlace j = .port p →
    s.atTop hd j ws f = s.forwardCmd hd p ws) ∧
  (∀ (hd : Half) (j : BitVec 15) (ws : List Word) (f : State → State) (s : State), s.jobPlace j = .unknown →
    s.atTop hd j ws f = s.post .jup hd stBadAddr []) ∧
  (∀ (h : Hdr) (j : BitVec 15) (st : Nat) (m : BitVec 32) (s s' : State),
    s.accept .jup h opStartJob (job := some j) = (s', none) → exec (.startJob h j st m) s = .next s') ∧
  (∀ (hd : Half) (j : BitVec 15) (st : Nat) (m : BitVec 32) (o : Bool) (s : State), s.jup.jobImages = [] →
    s.startHere hd j st m o = s.post .jup hd stImageMissing []) ∧
  (∀ (hd : Half) (j : BitVec 15) (t : Tick) (s : State), t ≠ 0 → t < s.leastResume j →
    s.resumeHere hd j t = s.post .jup hd stTooEarly []) ∧
  (∀ (h : Hdr) (path : BitVec 32) (j : BitVec 15) (t : Tick) (p : Nat) (s s' : State) (hd : Half),
    s.accept .jup h opFence = (s', some hd) → s'.pathPort path = some (some p) → s'.role = 1 → p < 88 → s'.ownsPort p j = true →
    exec (.fence h path (some j) t) s = .next (s'.fenceAsked hd p
      { job := j, domain := false, path := s'.childPath p, tick := if t < s'.now .jup + 1 then s'.now .jup + 1 else t })) ∧
  (∀ (h : Hdr) (path : BitVec 32) (j : BitVec 15) (t u : Tick) (p : Nat) (s s' : State) (hd : Half),
    s.accept .jup h opFence = (s', some hd) → s'.pathPort path = some (some p) → s'.role = 1 → p < 88 → s'.ownsPort p j = true →
    s'.gatePassed j = false → s'.jupC.groups = [] → u = (if t < s'.now .jup + 1 then s'.now .jup + 1 else t) →
    ∃ x, exec (.fence h path (some j) t) s = .next x ∧
      ({ job := j, domain := false, path := s'.childPath p, tick := u } : Fence) ∈ (x.link .jup p).fences ∧
      (x.cplEntry .jup hd).map (fun e => (e.valid, e.status, e.results)) = some (true, stOk, [u]) ∧ x.tsu = s'.tsu) ∧
  (∀ (h : Hdr) (path : BitVec 32) (j : BitVec 15) (t : Tick) (p : Nat) (s s' : State) (hd : Half),
    s.accept .jup h opFence = (s', some hd) → s'.pathPort path = some (some p) → s'.role = 1 → p < 88 → s'.ownsPort p j = false →
    exec (.fence h path (some j) t) s = .next
      ((s'.modLink .jup p fun l => { l with discards := l.discards + 1 }).post .jup hd stOk [0])) ∧
  (∀ (h : Hdr) (path : BitVec 32) (job : Option (BitVec 15)) (t : Tick) (s s' : State) (hd : Half),
    s.accept .jup h opFence = (s', some hd) → s'.pathPort path = none →
    exec (.fence h path job t) s = .next (s'.post .jup hd stBadAddr [])) ∧
  (∀ (h : Hdr) (j : BitVec 15) (op : BitVec 8) (s s' : State) (hd : Half),
    s.accept .jup h op (job := some j) = (s', some hd) → s'.jobPlace j = .top → s'.role = 1 → s'.jupC.groups.length < 256 →
    s'.jupC.coord.length < 256 → s'.jup.runs = [] → s'.jup.peerResets = [] → s'.jup.budgetHeld = [] →
    (∀ g ∈ s'.jupC.coord, g.handle ≠ hd) →
    (∀ (st : Nat) (m : BitVec 32), op = opStartJob → s'.jup.jobImages.any (fun i => decide (i.job = j ∧ i.offset = st)) = true →
      (s'.startCheck j s'.fresh.1 s'.fresh.2.fresh.1).missing = false → (s'.startCheck j s'.fresh.1 s'.fresh.2.fresh.1).badClass = false →
      (s'.startCheck j s'.fresh.1 s'.fresh.2.fresh.1).badVersion = false →
      ∃ t g, exec (.startJob h j st m) s = .next t ∧ t.coordGroup .jup hd = some g ∧ g.state = .prepared ∧
        g.prepareTick = s'.now .jup ∧ g.tc = s'.now .jup + 872 ∧ g.serves.map (fun e => (e.1, e.2.1)) = some (opStartJob, j)) ∧
    (op = opTeardownJob →
      ∃ t g, exec (.teardownJob h j) s = .next t ∧ t.coordGroup .jup hd = some g ∧ g.state = .prepared ∧
        g.prepareTick = s'.now .jup ∧ g.tc = s'.now .jup + 872 ∧ g.serves.map (fun e => (e.1, e.2.1)) = some (opTeardownJob, j)) ∧
    (∀ tk : Tick, op = opResumeJob → tk = 0 ∨ s'.leastResume j ≤ tk →
      ∃ t g, exec (.resumeJob h j tk) s = .next t ∧ t.coordGroup .jup hd = some g ∧ g.state = .prepared ∧
        g.prepareTick = s'.now .jup ∧ g.tc = s'.now .jup + 872 ∧ g.serves.map (fun e => (e.1, e.2.1)) = some (opResumeJob, j)) ∧
    (∀ (r : BitVec 17) (p : BitVec 32) (c : Fin 8), op = opRemapRank → s'.below p = true → r ≤ s'.lastRank j →
      ∃ t g, exec (.remapRank h j r p c) s = .next t ∧ t.coordGroup .jup hd = some g ∧ g.state = .prepared ∧
        g.prepareTick = s'.now .jup ∧ g.tc = s'.now .jup + 872 ∧ g.serves.map (fun e => (e.1, e.2.1)) = some (opRemapRank, j))) ∧
  (∀ (h : Hdr) (j : BitVec 15) (n : BitVec 64) (k p : Nat) (r : List Nat) (x : Msg) (s s' : State) (hd : Half),
    s.accept .jup h opHoldJob (job := some j) = (s', some hd) → s'.jobPlace j = .top → s'.activeHere j = true →
    s'.jobTrees j = k :: r → k < 4096 → p ∈ s'.treeOut k →
    x = { mtype := mtCommand, route := 3, flow := 0, addr := BitVec.ofNat 32 k, words := cmdWords opHoldJob (s'.wholeSpan j) hd [n] } →
    s'.sideOk p x = true → s'.fencedAt p x = false →
    ∃ t m, exec (.holdJob h j n) s = .next t ∧ m ∈ (t.link .jup p).tx.qStep ∧ m.mtype = mtCommand ∧
      m.words = cmdWords opHoldJob (s'.wholeSpan j) hd [n]) ∧
  (∀ (h : Hdr) (j : BitVec 15) (n : BitVec 64) (v : BitVec 20) (k p : Nat) (r : List Nat) (x : Msg) (s s' u : State) (hd : Half),
    s.accept .jup h opStretchJob (job := some j) = (s', some hd) → s'.jobPlace j = .top → s'.activeHere j = true →
    u = s'.setJobWord j 3 ((s'.jobWord j 3 &&& 0xFFFFFFFF00000000) ||| v.setWidth 64) → u.jobTrees j = k :: r → k < 4096 →
    p ∈ u.treeOut k →
    x = { mtype := mtCommand, route := 3, flow := 0, addr := BitVec.ofNat 32 k,
          words := cmdWords opStretchJob (u.wholeSpan j) hd [n, v.setWidth 64] } →
    u.sideOk p x = true → u.fencedAt p x = false →
    ∃ t m, exec (.stretchJob h j n v) s = .next t ∧ t.jupC.regs = u.jupC.regs ∧ m ∈ (t.link .jup p).tx.qStep ∧ m.mtype = mtCommand ∧
      m.words = cmdWords opStretchJob (u.wholeSpan j) hd [n, v.setWidth 64]) ∧
  (∀ (h : Hdr) (j : BitVec 15) (n : BitVec 64) (s s' : State) (hd : Half),
    s.accept .jup h opHoldJob (job := some j) = (s', some hd) → s'.jobPlace j = .top → s'.activeHere j = true → s'.jobTrees j = [] →
    ∃ t, exec (.holdJob h j n) s = .next t ∧
      (t.cplEntry .jup hd).map (fun e => (e.valid, e.status, e.results)) = some (true, stOk, [0])) ∧
  (∀ (h : Hdr) (j : BitVec 15) (b : BitVec 64) (s s' : State) (hd : Half),
    s.accept .jup h opSetQuota (job := some j) = (s', some hd) → s'.jobPlace j = .top → s'.role = 1 →
    ∃ t, exec (.setQuota h j b) s = .next t ∧
      (t.cplEntry .jup hd).map (fun e => (e.valid, e.status, e.results.length)) = some (true, stOk, 1)) ∧
  (∀ (h : Hdr) (j : BitVec 15) (r : BitVec 17) (p q : BitVec 32) (s s' : State) (hd : Half),
    s.accept .jup h opBringIn (job := some j) = (s', some hd) → s'.jobPlace j = .top → s'.role = 1 → r ≤ s'.lastRank j →
    s'.pickRack j r p h.override = .spare q → s'.jup.tracker.length < 61440 →
    ∃ t x, exec (.bringIn h j r p false) s = .next t ∧ t.jup.bringIns = s'.jup.bringIns ++ [x] ∧ x.handle = hd ∧ x.job = j ∧
      x.rank = r ∧ x.spare = q ∧ x.phase = 0 ∧ x.second = none ∧ x.override = h.override) ∧
  (∀ (r : BitVec 8), nextRun r ≠ 0 ∧ (r ≠ 255 → nextRun r = r + 1)) ∧
  (∀ (hd : Half) (j : BitVec 15) (t : Tick) (rep : Word) (s : State),
    s.tearPosted hd j 0 t rep = s.tearGroup hd j 1 (t + BitVec.ofNat 64 (s.stepTicks j)) ∧
    s.tearPosted hd j 1 t rep = s.post .jup hd stOk [t, rep])


/-- R281, R324, R326 to R329, R331 to R335, R337, R347, R410: bring-ins and re-runs. The end of a restore posts its byte count and
check tick; the two digests of a copy decide whether the spare is ready; a matching recompute keeps its spare, which runs the
steps after its checkpoint first, a match of the higher of two spares stands until its tick ends, and one
without a match in time loses the range; a re-run waits for its pending escalations; a completion message counts at the
command it answers, and changes nothing else where none waits. -/
def Obligations.RecoveryRuns : Prop :=
  (∀ (p : BitVec 7) (t : Tick) (r : RestoreOp) (s : State), tget none s.jup.restores p.toNat = some r → r.streaming = true →
    exec (.restoreComplete p (some t)) s = .next (s.restored p.toNat r t) ∧
    exec (.restoreComplete p none) s = .next (s.failRestore p.toNat r stImageBad)) ∧
  (∀ (p : BitVec 7) (t : Tick) (r : RestoreOp) (h : Half) (e : CplEntry) (s : State), tget none s.jup.restores p.toNat = some r →
    r.streaming = true → r.handle = some h → s.cplEntry .jup h = some e → e.valid = false →
    (∃ x, exec (.restoreComplete p (some t)) s = .next x ∧ (Table.wf none s.jup.restores = true → tget none x.jup.restores p.toNat = none) ∧
      (x.cplEntry .jup h).map (fun e => (e.valid, e.status, e.results)) = some (true, stOk, [BitVec.ofNat 64 r.sent, t]) ∧ x.tsu = s.tsu) ∧
    (∃ x, exec (.restoreComplete p none) s = .next x ∧ (Table.wf none s.jup.restores = true → tget none x.jup.restores p.toNat = none) ∧
      (x.cplEntry .jup h).map (fun e => (e.valid, e.status, e.results)) = some (true, stImageBad, []) ∧ x.tsu = s.tsu)) ∧
  (∀ (p : BitVec 7) (t : Option Tick) (r : RestoreOp) (s : State), tget none s.jup.restores p.toNat = some r → r.streaming = false →
    exec (.restoreComplete p t) s = .next s) ∧
  (∀ (p : BitVec 7) (t : Option Tick) (s : State), tget none s.jup.restores p.toNat = none →
    exec (.restoreComplete p t) s = .next s) ∧
  (∀ (j : BitVec 15) (r : BitVec 17) (d : Word) (b : BringIn) (s : State), s.jup.bringIns = [b] → b.job = j → b.rank = r →
    b.mode = 0 → b.phase = 1 → s.copyCurrent j r = true →
    exec (.copyDigestCompare j r d d) s = .next (s.bringReady b)) ∧
  (∀ (j : BitVec 15) (r : BitVec 17) (d : Word) (b x : BringIn) (s : State), s.jup.bringIns = [b, x] → b.job = j → b.rank = r →
    b.mode = 0 → b.phase = 1 → s.copyCurrent j r = true → x.job = j → x.phase ≠ 2 →
    ∃ t, exec (.copyDigestCompare j r d d) s = .next t ∧ t.jup.bringIns = [{ b with phase := 2 }, x] ∧ t.jupC = s.jupC ∧ t.tsu = s.tsu) ∧
  (∀ (j : BitVec 15) (r : BitVec 17) (p : BitVec 32) (d : Word) (b x : BringIn) (s : State), s.jup.bringIns = [b, x] → b.job = j →
    b.rank = r → b.mode = 1 → b.phase = 1 → b.spare = p → b.second = none → (s.checkpointOf j r).map (fun c => nthW c.data 4) = some d →
    x.job = j → x.phase ≠ 2 →
    ∃ t, exec (.recomputeMatch j r p d) s = .next t ∧
      t.jup.bringIns = [{ b with unverified := false, matched := none, phase := if s.stepsLeft b then 3 else 2 }, x] ∧ t.jupC = s.jupC ∧
      t.tsu = s.tsu) ∧
  (∀ (j : BitVec 15) (r : BitVec 17) (p : BitVec 32) (d : Word) (b x : BringIn) (s : State), s.jup.bringIns = [b, x] → b.job = j →
    b.rank = r → b.phase = 3 → b.spare = p → x.job = j → x.phase ≠ 2 →
    ∃ t, exec (.recomputeMatch j r p d) s = .next t ∧ t.jup.bringIns = [{ b with phase := 2 }, x] ∧ t.jupC = s.jupC ∧ t.tsu = s.tsu) ∧
  (∀ (j : BitVec 15) (r : BitVec 17) (p : BitVec 32) (d : Word) (b : BringIn) (q : BitVec 32) (s : State), s.jup.bringIns = [b] →
    b.job = j → b.rank = r → b.mode = 1 → b.phase = 1 → b.spare = q → b.second = some p → q < p →
    (s.checkpointOf j r).map (fun c => nthW c.data 4) = some d →
    ∃ t, exec (.recomputeMatch j r p d) s = .next t ∧ t.jup.bringIns = [{ b with matched := some (p, false) }] ∧ t.jupC = s.jupC ∧
      t.tsu = s.tsu) ∧
  (∀ (j : BitVec 15) (r : BitVec 17) (b x : BringIn) (s : State), s.jup.bringIns = [b, x] → b.job = j → b.rank = r → b.mode = 1 →
    b.phase = 1 → b.matched = none → b.started.toNat + s.recomputeLimit j ≤ (s.now .jup).toNat → x.job = j → x.phase ≠ 2 →
    ∃ t, exec (.recomputeLimit j r) s = .next t ∧ t.jup.bringIns = [{ b with mode := 2, phase := 2, lost := s.rankSeqs j r }, x] ∧
      (t.fblock .jup blkRecord).valid = true) ∧
  (∀ (j : BitVec 15) (r : BitVec 17) (d e : Word) (b : BringIn) (s : State), s.jup.bringIns = [b] → b.job = j → b.rank = r →
    b.mode = 0 → b.phase = 1 → d ≠ e → exec (.copyDigestCompare j r d e) s = .next (s.toRecompute b)) ∧
  (∀ (j : BitVec 15) (r : BitVec 17) (d e : Word) (s : State), s.jup.bringIns = [] → exec (.copyDigestCompare j r d e) s = .next s) ∧
  (∀ (j : BitVec 15) (r : BitVec 17) (p : BitVec 32) (d : Word) (b : BringIn) (s : State), s.jup.bringIns = [b] → b.job = j →
    b.rank = r → b.mode = 1 → b.phase = 1 → b.spare = p →
    (s.checkpointOf j r).map (fun c => nthW c.data 4) = some d → (∀ q, b.second = some q → p ≤ q) →
    exec (.recomputeMatch j r p d) s = .next (s.keepSpare b p false)) ∧
  (∀ (j : BitVec 15) (r : BitVec 17) (p : BitVec 32) (d : Word) (b : BringIn) (s : State), s.jup.bringIns = [b] → b.job = j →
    b.rank = r → b.mode = 1 → b.phase = 1 → b.spare = p → s.checkpointOf j r = none →
    (∀ q, b.second = some q → p ≤ q) → exec (.recomputeMatch j r p d) s = .next (s.keepSpare b p true)) ∧
  (∀ (j : BitVec 15) (r : BitVec 17) (p : BitVec 32) (d e : Word) (b : BringIn) (s : State), s.jup.bringIns = [b] → b.job = j →
    b.rank = r → b.mode = 1 → b.phase = 1 → b.spare = p → (s.checkpointOf j r).map (fun c => nthW c.data 4) = some e → d ≠ e →
    exec (.recomputeMatch j r p d) s = .next s) ∧
  (∀ (j : BitVec 15) (r : BitVec 17) (b : BringIn) (s : State), s.jup.bringIns = [b] → b.job = j → b.rank = r → b.mode = 1 →
    b.phase = 1 → b.matched = none → b.started.toNat + s.recomputeLimit j ≤ (s.now .jup).toNat →
    exec (.recomputeLimit j r) s = .next (((s.raiseFault .jup blkRecord cNoMatch {}).loseRange b).tryRemap j)) ∧
  (∀ (j : BitVec 15) (r : BitVec 17) (b : BringIn) (s : State), s.jup.bringIns = [b] →
    (s.now .jup).toNat < b.started.toNat + s.recomputeLimit j → exec (.recomputeLimit j r) s = .next s) ∧
  (∀ (j : BitVec 15) (lo : BitVec 16) (s : State), s.jup.stage.rerun = [(j, lo)] → s.rerunReady j = true →
    exec (.jobRerun j) s = .next (s.rerunHere j (fullStep (tget none s.jup.stage.committed j.toNat) lo))) ∧
  (∀ (j : BitVec 15) (lo : BitVec 16) (s : State), s.jup.stage.rerun = [(j, lo)] → s.rerunReady j = true → s.jobPlace j ≠ .top →
    ∃ t, exec (.jobRerun j) s = .next t ∧ t.jup.stage.rerun = [] ∧ t.jup.journal = s.jup.journal ∧ t.tsu = s.tsu) ∧
  (∀ (j : BitVec 15) (lo : BitVec 16) (s : State), s.jup.stage.rerun = [(j, lo)] → s.rerunReady j = true → s.jobPlace j = .top →
    s.fencedRanks j = [] → s.jup.stage.brown.contains j = false → s.jup.stage.again.contains j = false → s.rerunMax j ≤ fld (s.jobWord j 0) 15 8 →
    ∃ t, exec (.jobRerun j) s = .next t ∧ t.jup.stage.rerun = [] ∧ (t.fblock .jup blkRecord).valid = true) ∧
  (∀ (j : BitVec 15) (lo : BitVec 16) (s : State), s.jup.stage.rerun = [(j, lo)] → s.rerunReady j = false →
    exec (.jobRerun j) s = .next s) ∧
  (∀ (j : BitVec 15) (s : State), s.jup.stage.rerun = [] → exec (.jobRerun j) s = .next s) ∧
  (∀ (p : Nat) (ws : List Word) (s : State), s.jup.forwards = [] →
    exec (.completionMsgRx p ws) s = .next (s.consume .jup p mtCompletion ws)) ∧
  (∀ (p : Nat) (ws : List Word) (f : Forward) (s : State), s.jup.forwards = [f] → f.handle = (nthW ws 0).extractLsb' 32 32 →
    f.left = [p] →
    exec (.completionMsgRx p ws) s = .next ((s.consume .jup p mtCompletion ws).forwardEnds
      { f with left := [], status := worse f.status ((nthW ws 0).extractLsb' 16 8),
               results := joinResults ((nthW ws 0).extractLsb' 24 8) f.results (ws.drop 2) } ((nthW ws 0).extractLsb' 24 8))) ∧
  (∀ (p : Nat) (ws : List Word) (f : Forward) (e : CplEntry) (s : State), s.jup.forwards = [f] →
    f.handle = (nthW ws 0).extractLsb' 32 32 → f.left = [p] → f.fromPort = ownPort → s.jup.bringIns = [] →
    s.cplEntry .jup f.handle = some e → e.valid = false →
    ∃ t, exec (.completionMsgRx p ws) s = .next t ∧ t.jup.forwards = [] ∧
      (t.cplEntry .jup f.handle).map (fun e => (e.valid, e.status)) = some (true, worse f.status ((nthW ws 0).extractLsb' 16 8)) ∧
      t.tsu = s.tsu) ∧
  (∀ (p q : Nat) (ws : List Word) (f : Forward) (s : State), s.jup.forwards = [f] →
    f.handle = (nthW ws 0).extractLsb' 32 32 → p ∈ f.left → q ∈ f.left → p ≠ q →
    ∃ t x, exec (.completionMsgRx p ws) s = .next t ∧ t.jup.forwards = [x] ∧ x.left = f.left.filter (fun k => !decide (k = p)) ∧
      x.handle = f.handle ∧ x.status = worse f.status ((nthW ws 0).extractLsb' 16 8) ∧ t.tsu = s.tsu ∧ t.out = s.out)


/-! ## Shutters and plates -/

/-- R384 to R389: a SHUTTER at the time master of the domain, 16,384 ticks ahead or more, takes the next SHUTTER_ID, which counts
on by one, waits for its tick and goes to every device; elsewhere at the root it goes on toward the master, below the root it is
NOT_MASTER, and nearer than 16,384 ticks TOO_EARLY. A Shutter received is stamped with its arrival, and waits for its tick, or counts in MISSED when its tick has
come; a copy of one already seen starts nothing; each latches on its tick only, and makes a plate that holds its id, set, level
and tick, answers and raises the latch output of a die whose main domain is up. READ_PLATE writes the plate of its set, all of it
or one block, and posts the bytes written; with no plate of the set it posts NO_PLATE. -/
def Obligations.ShuttersTaken : Prop :=
  (∀ (h : Hdr) (t : Tick) (set : BitVec 4) (s s' : State) (hd : Half), s.accept .jup h opShutter = (s', some hd) → s'.role ≠ 3 →
    exec (.shutter h t set) s = .next (s'.post .jup hd stNotMaster [])) ∧
  (∀ (h : Hdr) (t : Tick) (set : BitVec 4) (s s' : State) (hd : Half), s.accept .jup h opShutter = (s', some hd) → s'.role = 3 →
    s'.jup.timeMaster = true → t < s'.now .jup + 16384 →
    exec (.shutter h t set) s = .next (s'.post .jup hd stTooEarly [])) ∧
  (∀ (h : Hdr) (t : Tick) (set : BitVec 4) (s s' : State) (hd : Half), s.accept .jup h opShutter = (s', some hd) → s'.role = 3 →
    s'.jup.timeMaster = true → s'.now .jup + 16384 ≤ t →
    exec (.shutter h t set) s = .next (s'.shutterMaster hd t set)) ∧
  (∀ (h : Hdr) (t : Tick) (set : BitVec 4) (s s' : State) (hd : Half), s.accept .jup h opShutter = (s', some hd) → s'.role = 3 →
    s'.jup.timeMaster = false →
    exec (.shutter h t set) s = .next (s'.forwardCmd hd (s'.masterLink hd.toNat) (cmdWords opShutter .self hd [t, set.setWidth 64]))) ∧
  (∀ (h : Hdr) (t : Tick) (set : BitVec 4) (s s' : State) (hd : Half), s.accept .jup h opShutter = (s', some hd) → s'.role = 3 →
    s'.jup.timeMaster = true → s'.now .jup + 16384 ≤ t → s'.now .jup < t →
    ∃ x, exec (.shutter h t set) s = .next x ∧ x.jupC.shut.nextId = s'.jupC.shut.nextId + 1 ∧
      x.jupC.shut.waiting = s'.jupC.shut.waiting ++ [(s'.jupC.shut.nextId, set, t, hd, ownPort)] ∧
      x.jupC.shut.seen = (s'.jupC.shut.nextId :: s'.jupC.shut.seen).take 256 ∧
      x.jup.forwards = s'.jup.forwards ++
        [{ handle := hd, fromPort := ownPort, left := s'.shutterLinks ownPort ++ [ownPort], status := stOk, results := [] }] ∧ x.tsu = s'.tsu ∧ x.tsuC = s'.tsuC ∧ x.out = s'.out) ∧
  (∀ (d : Dev) (n : Nat) (ws : List Word) (s : State),
    exec (.shutterRx d n ws) s = .next ((s.consume d n mtShutter ws).shutterIn d n ws)) ∧
  (∀ (d : Dev) (n : Nat) (ws : List Word) (s : State), (s.com d).shut.seen.contains ((nthW ws 0).extractLsb' 48 16) = false →
    s.now d < nthW ws 1 →
    ∃ t, exec (.shutterRx d n ws) s = .next t ∧ (t.com d).shut.waiting = (s.com d).shut.waiting ++
        [((nthW ws 0).extractLsb' 48 16, (nthW ws 0).extractLsb' 44 4, nthW ws 1, (nthW ws 0).extractLsb' 0 32, n)] ∧
      (t.com d).shut.seen = ((nthW ws 0).extractLsb' 48 16 :: (s.com d).shut.seen).take 256 ∧
      (t.com d).shut.arrival.map Stamp.tick = some (s.now d) ∧ (t.com d).shut.missed = (s.com d).shut.missed ∧ (t.com d).shut.plates = (s.com d).shut.plates ∧ t.out = s.out) ∧
  (∀ (n : Nat) (ws : List Word) (s : State), s.tsuC.shut.seen.contains ((nthW ws 0).extractLsb' 48 16) = false →
    nthW ws 1 ≤ s.now .tsu →
    ∃ t, exec (.shutterRx .tsu n ws) s = .next t ∧ t.tsuC.shut.waiting = s.tsuC.shut.waiting ∧
      t.tsuC.shut.missed = satInc s.tsuC.shut.missed ∧ t.tsuC.shut.plates = s.tsuC.shut.plates ∧ t.out = s.out) ∧
  (∀ (n : Nat) (ws : List Word) (s : State), s.tsuC.shut.seen.contains ((nthW ws 0).extractLsb' 48 16) = true →
    s.shutterIn .tsu n ws = s) ∧
  (∀ (n : Nat) (ws : List Word) (s : State), s.tsuC.shut.seen = [] → s.now .tsu < nthW ws 1 →
    (s.shutterIn .tsu n ws).tsuC.shut.waiting = s.tsuC.shut.waiting ++
      [((nthW ws 0).extractLsb' 48 16, (nthW ws 0).extractLsb' 44 4, nthW ws 1, (nthW ws 0).extractLsb' 0 32, n)] ∧
    (s.shutterIn .tsu n ws).tsuC.shut.seen = [(nthW ws 0).extractLsb' 48 16]) ∧
  (∀ (d : Dev) (s : State), (∀ e ∈ (s.com d).shut.waiting, e.2.2.1 ≠ s.now d) → exec (.shutterLatch d) s = .next s) ∧
  (∀ (d : Dev) (e : BitVec 16 × BitVec 4 × Tick × Half × Nat) (s : State), (s.com d).shut.waiting = [e] → e.2.2.1 = s.now d →
    exec (.shutterLatch d) s = .next (s.latchOne d e)) ∧
  (∀ (d : Dev) (e : BitVec 16 × BitVec 4 × Tick × Half × Nat) (s : State), (s.com d).shut.waiting = [e] → e.2.2.1 = s.now d →
    s.inReset d = false → d = .jup ∨ (s.com d).shut.plates.length < 2 →
    ∃ t p, exec (.shutterLatch d) s = .next t ∧ (t.com d).shut.waiting = [] ∧ (t.com d).shut.plates.head? = some p ∧ p.id = e.1 ∧
      p.set = e.2.1 ∧ p.tick = s.now d ∧ p.level = BitVec.ofNat 2 (s.com d).sec.level.code ∧ nthW p.words 1 = s.now d ∧
      p.reading = false ∧ (t.com d).shut.latched = satInc (s.com d).shut.latched ∧ (t.com d).shut.missed = (s.com d).shut.missed ∧
      (d = .tsu → s.clamped true = false → t.out = s.out ++ [.shutterLat])) ∧
  (∀ (e : BitVec 16 × BitVec 4 × Tick × Half × Nat) (s : State), s.tsuC.shut.waiting = [e] → e.2.2.1 = s.now .tsu →
    s.inReset .tsu = true → ∃ t, exec (.shutterLatch .tsu) s = .next t ∧ t.tsuC.shut.plates = s.tsuC.shut.plates ∧
      t.tsuC.shut.waiting = [] ∧ t.out = s.out) ∧
  (∀ (d : Dev) (h : Hdr) (a : Option (BitVec 32)) (set : BitVec 4) (b : BitVec 8) (addr : BitVec 48) (s s' : State) (hd : Half),
    s.accept d h opReadPlate true = (s', some hd) → s'.plateFor d a set = none →
    exec (.readPlate d h a set b addr) s = .next (s'.post d hd stNoPlate [])) ∧
  (∀ (d : Dev) (h : Hdr) (a : Option (BitVec 32)) (set : BitVec 4) (addr : BitVec 48) (p : Plate) (s s' : State) (hd : Half),
    s.accept d h opReadPlate true = (s', some hd) → s'.plateFor d a set = some p →
    exec (.readPlate d h a set 0xFF addr) s =
      .next ((s'.emit (.dma d (addr.setWidth 64) p.words)).post d hd stOk [BitVec.ofNat 64 (8 * p.words.length)])) ∧
  (∀ (d : Dev) (h : Hdr) (a : Option (BitVec 32)) (set : BitVec 4) (b : BitVec 8) (addr : BitVec 48) (p : Plate) (s s' : State)
    (hd : Half), s.accept d h opReadPlate true = (s', some hd) → s'.plateFor d a set = some p →
    ∃ t, exec (.readPlate d h a set b addr) s = .next t ∧
      (t.cplEntry d hd).map (fun e => (e.valid, e.status, e.results)) = some (true, stOk, [BitVec.ofNat 64 (8 * (plateRead p b).length)]) ∧
      (d = .jup ∨ s'.clamped true = false → Out.dma d (addr.setWidth 64) (plateRead p b) ∈ t.out) ∧
      (t.com d).shut = (s'.com d).shut ∧ t.tsu = s'.tsu) ∧
  (∀ (p : Plate) (b : BitVec 8), b ≠ 0xFF → plateRead p b = p.words.take 3 ++ blockOf b.toNat 17 (p.words.drop 3)) ∧
  (∀ (p q n : Plate), keepPlate .tsu n [] = some [n] ∧ keepPlate .tsu n [p] = some [n, p] ∧
    (q.reading = false → keepPlate .tsu n [p, q] = some [n, p]) ∧
    (q.reading = true → p.reading = true → keepPlate .tsu n [p, q] = none))


/-! ## Commit groups -/

/-- R351 to R355, R397: a group opens over members it reaches, takes stages while it is open, up to 30 writes in one message
(R357), and takes Tc with CG_COMMIT, the least its leads allow for 0; at its deadline it commits or aborts. At the member: a stage
is held once, one that would give a member more than 256 writes is refused, PREPARE is answered PREPARED or with the refusal, COMMIT marks the group (a die that receives it after Tc discards
the group), ABORT discards a group not committed, and the writes are applied on the tick Tc and on no other; a down port whose COMMIT is
not acknowledged 64 ticks later is fenced; then the coordinator posts OK with Tc and the counts. No message of a group is taken
by a die in DARK (R397). -/
def Obligations.GroupsCommit : Prop :=
  (∀ (d : Dev) (h : Hdr) (ms : List Target) (s s' : State) (hd : Half), s.accept d h opCgBegin = (s', some hd) →
    (∀ t ∈ ms, s'.memberHere d t = true) → (s'.com d).groups.length < groupMax d → (s'.com d).coord.length < groupMax d →
    exec (.cgBegin d h ms) s = .next (s'.openGroup d hd ms none)) ∧
  (∀ (d : Dev) (h : Hdr) (ms : List Target) (s s' : State) (hd : Half), s.accept d h opCgBegin = (s', some hd) →
    (∀ t ∈ ms, s'.memberHere d t = true) → (s'.com d).groups.length < groupMax d → (s'.com d).coord.length < groupMax d →
    ∃ t g, exec (.cgBegin d h ms) s = .next t ∧ (t.com d).coord = (s'.com d).coord ++ [g] ∧ g.handle = hd ∧ g.members = ms ∧
      g.state = .opened ∧ g.stages = [] ∧ g.serves = none ∧ (t.com d).groups = (s'.com d).groups ∧ (t.com d).regs = (s'.com d).regs ∧
      t.tsu = s'.tsu ∧ t.jup = s'.jup ∧ t.out = s'.out) ∧
  (∀ (d : Dev) (h : Hdr) (ms : List Target) (t : Target) (s s' : State) (hd : Half), s.accept d h opCgBegin = (s', some hd) →
    t ∈ ms → s'.memberHere d t = false → exec (.cgBegin d h ms) s = .next (s'.post d hd stBadAddr [])) ∧
  (∀ (d : Dev) (h : Hdr) (g : Half) (t : Target) (ws : List StagedWrite) (s : State), s.cmdDenied d h false = false →
    s.stageRefusal d g t ws = 0 → exec (.cgStage d h g t ws) s = .next ((s.accepted d h).stageOut d g t ws)) ∧
  (∀ (d : Dev) (h : Hdr) (g : Half) (ws : List StagedWrite) (c : CoordGroup) (s : State), s.cmdDenied d h false = false →
    s.stageRefusal d g .self ws = 0 → s.coordGroup d g = some c → s.group d g = none → ws.length ≤ 30 → d = .tsu ∨ bindIn ws = none →
    ∃ t, exec (.cgStage d h g .self ws) s = .next t ∧
      (t.group d g).map (fun m => (m.ordinals, m.writes, m.member, m.committed)) =
        some ([BitVec.ofNat 16 c.stages.length], ws, true, false) ∧
      (t.coordGroup d g).map (fun x => x.stages) = some (c.stages ++ [(.self, ws.length)]) ∧ (t.com d).regs = (s.com d).regs) ∧
  (∀ (d : Dev) (h : Hdr) (g : Half) (t : Target) (ws : List StagedWrite) (s : State), s.cmdDenied d h false = false →
    s.coordGroup d g = none → exec (.cgStage d h g t ws) s = .next (s.refuse d h rfGroupState)) ∧
  (∀ (d : Dev) (h : Hdr) (g : Half) (t m : Target) (ws : List StagedWrite) (c : CoordGroup) (s : State), s.cmdDenied d h false = false →
    s.coordGroup d g = some c → c.state = .opened → amongMembers c.members t = true →
    (∀ w ∈ ws, w.offset.toNat < targetSpace d t ∧ w.offset.toNat % 4 = 0) → m ∈ s.stageMembers d c.stages t →
    256 < s.memberWrites d c.stages m + ws.length → exec (.cgStage d h g t ws) s = .next (s.refuse d h rfLimit)) ∧
  (∀ (d : Dev) (h : Hdr) (g : Half) (t : Tick) (s : State), s.cmdDenied d h false = false → s.commitRefusal d g = 0 →
    exec (.cgCommit d h g t) s = .next ((s.accepted d h).commitAsked d g t)) ∧
  (∀ (d : Dev) (h : Hdr) (g : Half) (t : Tick) (c : CoordGroup) (s : State), s.cmdDenied d h false = false →
    s.coordGroup d g = some c → c.state = .opened → c.outcome = none →
    t = 0 ∨ s.now d + BitVec.ofNat 64 ((s.groupLead d).1 + (s.groupLead d).2) ≤ t →
    ∃ x, exec (.cgCommit d h g t) s = .next x ∧ (x.coordGroup d g).map (fun y => (y.state, y.prepareTick, y.tc)) =
      some (.prepared, s.now d, if t = 0 then s.now d + BitVec.ofNat 64 ((s.groupLead d).1 + (s.groupLead d).2) else t)) ∧
  (∀ (d : Dev) (h : Hdr) (g : Half) (s : State), s.cmdDenied d h false = false → s.abortRefusal d g = 0 →
    exec (.cgAbort d h g) s = .next ((s.accepted d h).abortCoord d g stAborted ((s.accepted d h).selfPath d))) ∧
  (∀ (d : Dev) (h : Hdr) (g : Half) (c : CoordGroup) (s : State), s.cmdDenied d h false = false → s.coordGroup d g = some c →
    c.state ≠ .committed → c.outcome = none → c.serves = none →
    ∃ t, exec (.cgAbort d h g) s = .next t ∧ t.coordGroup d g = none ∧ t.group d g = none ∧ (t.com d).regs = (s.com d).regs ∧
      (∀ e, s.cplEntry d g = some e → e.valid = false →
        (t.cplEntry d g).map (fun e => (e.valid, e.status)) = some (true, stAborted))) ∧
  (∀ (d : Dev) (g : Half) (t : Tick) (s : State), t ≠ 0 →
    t < s.now d + BitVec.ofNat 64 ((s.groupLead d).1 + (s.groupLead d).2) →
    s.commitAsked d g t = s.abortCoord d g stTooEarly (s.selfPath d)) ∧
  (∀ (d : Dev) (ws : List Word) (s : State), d = .jup ∨ s.tsu.power.state ≠ 4 →
    exec (.cgStageMsg d ws) s = .next ((s.takeGroup d ws).stageHere d ws (s.arrivedOn d mtGroup ws))) ∧
  (∀ (ws : List Word) (r : BitVec 2) (s : State), s.tsu.power.state = 4 → exec (.cgStageMsg .tsu ws) s = .next s ∧
    exec (.cgPrepareMsg .tsu ws r) s = .next s ∧ exec (.cgCommitMsg .tsu ws) s = .next s ∧ exec (.cgAbortMsg .tsu ws) s = .next s) ∧
  (∀ (ws : List Word) (s : State), s.tsu.power.state ≠ 4 → s.group .tsu (msgGroup ws) = none →
    (s.takeGroup .tsu ws).stageNames .tsu (stageTarget (nthW ws 1)) = true →
    ∃ t, exec (.cgStageMsg .tsu ws) s = .next t ∧
      (t.group .tsu (msgGroup ws)).map (fun m => (m.ordinals, m.writes, m.member, m.prepared)) =
        some ([(nthW ws 0).extractLsb' 40 16], (ws.drop 2).map stagedOf, true, false) ∧
      t.tsuC.regs = s.tsuC.regs ∧ t.tsu = s.tsu ∧ t.jup = s.jup) ∧
  (∀ (ws : List Word) (s : State), s.group .jup (msgGroup ws) = none →
    ∃ t, exec (.cgStageMsg .jup ws) s = .next t ∧
      (t.group .jup (msgGroup ws)).map (fun m => (m.ordinals, m.prepared)) = some ([(nthW ws 0).extractLsb' 40 16], false) ∧
      t.jupC.regs = s.jupC.regs ∧ t.tsu = s.tsu ∧ t.jup = s.jup) ∧
  (∀ (d : Dev) (ws : List Word) (n : Nat) (g : MemberGroup) (s : State), s.group d (msgGroup ws) = some g →
    g.ordinals.contains ((nthW ws 0).extractLsb' 40 16) = true → s.stageHere d ws n = s) ∧
  (∀ (d : Dev) (ws : List Word) (r : BitVec 2) (s : State), d = .jup ∨ s.tsu.power.state ≠ 4 →
    exec (.cgPrepareMsg d ws r) s = .next ((s.takeGroup d ws).prepareHere d (msgGroup ws) (nthW ws 1) r)) ∧
  (∀ (ws : List Word) (r : BitVec 2) (g : MemberGroup) (s : State), s.tsu.power.state ≠ 4 → s.group .tsu (msgGroup ws) = some g →
    g.prepared = false → g.member = true → g.refused = none → s.coordGroup .tsu (msgGroup ws) = none →
    (s.takeGroup .tsu ws).memberRefusal .tsu g r = none →
    ∃ t, exec (.cgPrepareMsg .tsu ws r) s = .next t ∧
      t.group .tsu (msgGroup ws) = some { g with tc := some (nthW ws 1), prepared := true, count := g.count + 1 } ∧
      (∀ u, u < 2 → groupMsg 3 0 0 (msgGroup ws) ((s.selfPath .tsu).setWidth 64) [] ∈ (t.link .tsu u).tx.qStep) ∧
      t.tsuC.regs = s.tsuC.regs ∧ t.tsu = s.tsu) ∧
  (∀ (ws : List Word) (r : BitVec 2) (g : MemberGroup) (x : BitVec 8) (s : State), s.tsu.power.state ≠ 4 →
    s.group .tsu (msgGroup ws) = some g → g.prepared = false → g.member = true → g.refused = none →
    s.coordGroup .tsu (msgGroup ws) = none → (s.takeGroup .tsu ws).memberRefusal .tsu g r = some x →
    ∃ t, exec (.cgPrepareMsg .tsu ws r) s = .next t ∧
      t.group .tsu (msgGroup ws) = some { g with tc := some (nthW ws 1), prepared := true, refused := some (x, s.selfPath .tsu) } ∧
      (∀ u, u < 2 → groupMsg 4 0 x (msgGroup ws) ((s.selfPath .tsu).setWidth 64) [] ∈ (t.link .tsu u).tx.qStep) ∧
      t.tsuC.regs = s.tsuC.regs ∧ t.tsu = s.tsu) ∧
  (∀ (ws : List Word) (r : BitVec 2) (g : MemberGroup) (s : State), s.group .jup (msgGroup ws) = some g → g.prepared = false →
    ∃ t, exec (.cgPrepareMsg .jup ws r) s = .next t ∧
      (t.group .jup (msgGroup ws)).map (fun m => (m.tc, m.prepared)) = some (some (nthW ws 1), true) ∧ t.jupC.regs = s.jupC.regs) ∧
  (∀ (d : Dev) (g : MemberGroup) (r : BitVec 2) (s : State), g.beyond = true → s.memberRefusal d g r = some stGroupLimit) ∧
  (∀ (d : Dev) (h : Half) (t : Tick) (r : BitVec 2) (g : MemberGroup) (s : State), s.group d h = some g → g.prepared = true →
    s.prepareHere d h t r = s) ∧
  (∀ (n : Nat) (ws : List Word) (s : State),
    exec (.cgAnswerMsg .jup n ws) s = .next ((s.consume .jup n mtGroup ws).answerHere n ws) ∧
    exec (.cgAnswerMsg .tsu n ws) s = .next (s.consume .tsu n mtGroup ws)) ∧
  (∀ (n : Nat) (ws : List Word) (g : MemberGroup) (s : State), n < 88 → s.role = 1 → msgKind ws = 3 → msgReason ws ≠ stPartial →
    s.group .jup (msgGroup ws) = some g → g.heard.contains n = false →
    g.ports.contains n = true → ∃ t, exec (.cgAnswerMsg .jup n ws) s = .next t ∧
      (t.group .jup (msgGroup ws)).map (fun m => (m.heard, m.count, m.refused)) = some (g.heard ++ [n], g.count + 1, g.refused) ∧
      t.jupC.regs = s.jupC.regs) ∧
  (∀ (ws : List Word) (g : MemberGroup) (s : State), s.tsu.power.state ≠ 4 →
    (s.takeGroup .tsu ws).group .tsu (msgGroup ws) = some g → g.committed = false →
    g.applied = false → s.now .tsu ≤ nthW ws 1 →
    exec (.cgCommitMsg .tsu ws) s = .next ((s.takeGroup .tsu ws).modGroup .tsu (msgGroup ws) fun g =>
      { g with committed := true, tc := some (nthW ws 1) })) ∧
  (∀ (ws : List Word) (g : MemberGroup) (s : State), s.tsu.power.state ≠ 4 →
    (s.takeGroup .tsu ws).group .tsu (msgGroup ws) = some g → g.committed = false →
    g.applied = false → nthW ws 1 < s.now .tsu →
    exec (.cgCommitMsg .tsu ws) s = .next ((s.takeGroup .tsu ws).commitLate (msgGroup ws))) ∧
  (∀ (ws : List Word) (s : State), (s.takeGroup .jup ws).group .jup (msgGroup ws) = none →
    exec (.cgCommitMsg .jup ws) s = .next (s.takeGroup .jup ws)) ∧
  (∀ (ws : List Word) (g : MemberGroup) (s : State), s.group .jup (msgGroup ws) = some g → g.committed = false → g.applied = false →
    g.ports ≠ [] →
    ∃ t, exec (.cgCommitMsg .jup ws) s = .next t ∧ (t.group .jup (msgGroup ws)).map (fun m => m.committed) = some true ∧
      t.jupC.deliveries.length = s.jupC.deliveries.length + 1 ∧ t.jupC.regs = s.jupC.regs) ∧
  (∀ (ws : List Word) (g : MemberGroup) (s : State), s.tsu.power.state ≠ 4 → s.group .tsu (msgGroup ws) = some g →
    g.committed = false → g.applied = false → nthW ws 1 < s.now .tsu →
    ∃ t, exec (.cgCommitMsg .tsu ws) s = .next t ∧ t.group .tsu (msgGroup ws) = none ∧ t.tsuC.regs = s.tsuC.regs) ∧
  (∀ (ws : List Word) (g : MemberGroup) (s : State), s.tsu.power.state ≠ 4 →
    (s.takeGroup .tsu ws).group .tsu (msgGroup ws) = some g → g.committed = false →
    (∀ w ∈ g.writes, dieSide w = false) → exec (.cgAbortMsg .tsu ws) s = .next ((s.takeGroup .tsu ws).dropGroup .tsu (msgGroup ws))) ∧
  (∀ (ws : List Word) (g : MemberGroup) (s : State), s.tsu.power.state ≠ 4 →
    (s.takeGroup .tsu ws).group .tsu (msgGroup ws) = some g → g.committed = true →
    exec (.cgAbortMsg .tsu ws) s = .next (s.takeGroup .tsu ws)) ∧
  (∀ (ws : List Word) (g : MemberGroup) (s : State), s.group .jup (msgGroup ws) = some g → g.committed = false →
    ∃ t, exec (.cgAbortMsg .jup ws) s = .next t ∧ t.group .jup (msgGroup ws) = none ∧ t.jupC.regs = s.jupC.regs ∧ t.tsu = s.tsu) ∧
  (∀ (d : Dev) (h : Half) (s : State), s.deadlineNow d h = true →
    exec (.cgPrepareDeadline d h) s = .next (s.atPrepareDeadline d h)) ∧
  (∀ (d : Dev) (h : Half) (c : CoordGroup) (m : MemberGroup) (s : State), s.coordGroup d h = some c → s.group d h = some m →
    s.deadlineNow d h = true → s.groupFailure d c m = none → d = .tsu ∨ m.ports ≠ [] →
    ∃ t, exec (.cgPrepareDeadline d h) s = .next t ∧ (t.coordGroup d h).map (fun x => (x.state, x.expected, x.tc)) =
        some (.committed, m.count, c.tc) ∧ (t.group d h).map (fun x => x.committed) = some true ∧ (t.com d).regs = (s.com d).regs) ∧
  (∀ (d : Dev) (h : Half) (c : CoordGroup) (m : MemberGroup) (r : BitVec 8) (p : BitVec 32) (s : State), s.coordGroup d h = some c →
    s.group d h = some m → s.deadlineNow d h = true → s.groupFailure d c m = some (r, p) → c.serves = none →
    ∃ t, exec (.cgPrepareDeadline d h) s = .next t ∧ t.coordGroup d h = none ∧ t.group d h = none ∧
      (∀ e, s.cplEntry d h = some e → e.valid = false →
        (t.cplEntry d h).map (fun e => (e.valid, e.status, e.results)) = some (true, abortStatus r, abortResults r p))) ∧
  (∀ (d : Dev) (h : Half) (s : State), s.coordGroup d h = none → exec (.cgPrepareDeadline d h) s = .next s) ∧
  (∀ (d : Dev) (h : Half) (c : CoordGroup) (m : MemberGroup) (s : State), s.coordGroup d h = some c → s.group d h = some m →
    s.groupFailure d c m = none → s.atPrepareDeadline d h = s.commitOut d h) ∧
  (∀ (d : Dev) (h : Half) (g : MemberGroup) (s : State), s.group d h = some g → g.tc ≠ some (s.now d) →
    exec (.cgApply d h) s = .next s) ∧
  (∀ (h : Half) (g : MemberGroup) (s : State), s.tsuC.groups = [g] → g.handle = h → g.tc = some (s.now .tsu) → g.applied = false →
    g.prepared = true → g.committed = true → g.writes = [] → exec (.cgApply .tsu h) s = .next (s.dropGroup .tsu h)) ∧
  (∀ (h : Half) (g : MemberGroup) (s : State), s.jupC.groups = [g] → g.handle = h → g.tc = some (s.now .jup) → g.applied = false →
    g.prepared = true → g.committed = false → g.member = true → g.refused = none →
    exec (.cgApply .jup h) s = .next (s.missCommit g)) ∧
  (∀ (h v : Half) (g : MemberGroup) (s : State), s.tsuC.groups = [g] → g.handle = h → g.tc = some (s.now .tsu) → g.applied = false →
    g.prepared = true → g.committed = true → g.writes = [{ offset := 0x6008, value := v }] → g.binds = [] →
    tok (regReset .tsu) none s.tsuC.regs = true → s.csrLater .tsu .cg 0x6008 = false →
    ∃ t, exec (.cgApply .tsu h) s = .next t ∧ t.reg .tsu 0x6008 = v ∧ (∀ o, o ≠ 0x6008 → t.reg .tsu o = s.reg .tsu o) ∧
      t.tsuC.groups = [] ∧ t.tsu = s.tsu ∧ t.jup = s.jup ∧ t.out = s.out) ∧
  (∀ (p : Nat) (h : Half) (g : MemberGroup) (t : Tick) (s : State), s.group .jup h = some g → g.tc = some t → g.applied = true →
    s.role = 1 → p < 88 → p ∈ g.ports → s.now .jup = t + 64 → exec (.cgDeliveryCheck p h) s = .next (s.checkPort p g t)) ∧
  (∀ (p : Nat) (h : Half) (g : MemberGroup) (t : Tick) (s : State), s.group .jup h = some g → g.tc = some t → g.applied = true →
    s.role = 1 → p < 88 → p ∈ g.ports → s.now .jup = t + 64 → s.unackedPorts h = [] → (s.link .jup p).held = [] → s.coordGroup .jup h = none →
    ∃ x, exec (.cgDeliveryCheck p h) s = .next x ∧ x.group .jup h = none ∧ (x.link .jup p).holding = false ∧
      (x.link .jup p).fences = (s.link .jup p).fences ∧ x.jupC.regs = s.jupC.regs ∧ x.tsu = s.tsu ∧ x.out = s.out) ∧
  (∀ (p : Nat) (h : Half) (g : MemberGroup) (t : Tick) (s : State), s.group .jup h = some g → g.tc = some t →
    s.now .jup ≠ t + 64 → exec (.cgDeliveryCheck p h) s = .next s) ∧
  (∀ (d : Dev) (h : Half) (g : CoordGroup) (s : State), s.coordGroup d h = some g → g.outcome = none → s.postReady d g = true →
    exec (.cgPost d h) s = .next (s.postCommitted d g)) ∧
  (∀ (d : Dev) (h : Half) (g : CoordGroup) (e : CplEntry) (s : State), s.coordGroup d h = some g → g.outcome = none →
    g.serves = none → g.partialPath = none → s.postReady d g = true → s.cplEntry d h = some e → e.valid = false →
    ∃ t, exec (.cgPost d h) s = .next t ∧ t.coordGroup d h = none ∧ (t.cplEntry d h).map (fun e => (e.valid, e.status, e.results)) =
        some (true, stOk, [g.tc, put 64 63 32 g.delivered ||| put 64 31 0 g.expected]) ∧ (t.com d).regs = (s.com d).regs ∧
      t.tsu = s.tsu) ∧
  (∀ (d : Dev) (h : Half) (s : State), s.coordGroup d h = none → exec (.cgPost d h) s = .next s)


/-! ## Commands and completions -/

/-- R341 to R346, R360: a command that is accepted issues its context and the next sequence number as its handle, opens an
entry that is not VALID yet and counts the sequence number on; one denied or without a free entry issues none. A
completion is posted once: a second posting changes nothing, and freeing the entry, which only a posted one takes, forgets it and
leaves every other entry. At a Jupin a command accepted also takes a tracker entry; with none free it is refused (R270, R341). -/
def Obligations.CompletionsPosted : Prop :=
  (∀ (h : Hdr) (op : BitVec 8) (s : State), h.ctx ≠ 0x20 → s.tsuC.cmds.entries = [] →
    ∃ t hd, s.accept .tsu h op = (t, some hd) ∧ hd.extractLsb' 24 8 = h.ctx ∧ hd.extractLsb' 0 24 = s.tsuC.cmds.seq ∧
      t.tsuC.cmds.seq = s.tsuC.cmds.seq + 1 ∧ t.cplEntry .tsu hd =
        some { handle := hd, opcode := op, valid := false, status := 0, endTick := 0, results := [], notify := h.notify } ∧
      t.tsu = s.tsu ∧ t.jupC = s.jupC ∧ t.jup = s.jup ∧ t.out = s.out) ∧
  (∀ (d : Dev) (h : Hdr) (op : BitVec 8) (light : Bool) (job : Option (BitVec 15)) (s : State), s.cmdDenied d h light = false →
    (tget none (s.com d).cmds.entries (entryIndex d (s.com d).cmds.seq)).isSome = false →
    (d = .jup → s.jup.tracker.length < trackerSize) →
    ∃ t hd, s.accept d h op light job = (t, some hd) ∧ hd.extractLsb' 24 8 = h.ctx ∧ hd.extractLsb' 0 24 = (s.com d).cmds.seq ∧
      (t.com d).cmds.seq = (s.com d).cmds.seq + 1 ∧ t.cplEntry d hd =
        some { handle := hd, opcode := op, valid := false, status := 0, endTick := 0, results := [], notify := h.notify } ∧
      (t.com d).regs = (s.com d).regs ∧ t.tsu = s.tsu ∧ t.out = s.out ∧ (d = .tsu → t.jup = s.jup)) ∧
  (∀ (h : Hdr) (op : BitVec 8) (light : Bool) (job : Option (BitVec 15)) (s : State), s.cmdDenied .jup h light = false →
    (tget none s.jupC.cmds.entries (entryIndex .jup s.jupC.cmds.seq)).isSome = false → trackerSize ≤ s.jup.tracker.length →
    s.accept .jup h op light job = (s.refuse .jup h rfTrackerFull, none)) ∧
  (∀ (d : Dev) (h : Hdr) (op : BitVec 8) (s : State), h.ctx ≠ 0x20 →
    (tget none (s.com d).cmds.entries (entryIndex d (s.com d).cmds.seq)).isSome = true →
    s.accept d h op = (s.refuse d h rfCplFull, none)) ∧
  (∀ (d : Dev) (h : Hdr) (op : BitVec 8) (light : Bool) (s : State), s.cmdDenied d h light = true →
    s.accept d h op light = ((s.refuse d h rfDenied).denied d, none)) ∧
  (∀ (d : Dev) (h : Half) (e : CplEntry) (st : BitVec 8) (rs : List Word) (s : State), s.cplEntry d h = some e → e.valid = false →
    (s.post d h st rs).cplEntry d h = some { e with valid := true, status := st, endTick := s.now d, results := rs } ∧
    (s.post d h st rs).tsu = s.tsu) ∧
  (∀ (d : Dev) (h : Half) (e : CplEntry) (st : BitVec 8) (rs : List Word) (s : State), s.cplEntry d h = some e → e.valid = true →
    s.post d h st rs = s) ∧
  (∀ (d : Dev) (h : Half) (st st' : BitVec 8) (rs rs' : List Word) (s : State),
    (s.post d h st rs).post d h st' rs' = s.post d h st rs) ∧
  (∀ (d : Dev) (n : BitVec 16) (k : Nat) (e : CplEntry) (s : State), d = .jup ∧ k = n.toNat ∨ d = .tsu ∧ k = n.toNat % 4096 →
    tget none (s.com d).cmds.entries k = some e → e.valid = true → Table.wf none (s.com d).cmds.entries = true →
    ∃ t, exec (.completionFree d n) s = .next t ∧ tget none (t.com d).cmds.entries k = none ∧
      (∀ j, j ≠ k → tget none (t.com d).cmds.entries j = tget none (s.com d).cmds.entries j) ∧ t.tsu = s.tsu ∧ t.jup = s.jup ∧
      t.out = s.out) ∧
  (∀ (d : Dev) (n : BitVec 16) (s : State), (∀ e ∈ (s.com d).cmds.entries, e.2.any (fun x => x.valid) = false) →
    exec (.completionFree d n) s = .next s)


/-! ## Faults -/

/-- R314, R323: while no severity entry is armed with an injection, the first fault of a block stays latched with its tick and context whatever comes after it; every later one sets
OVERFLOW and counts in EVENTS, to its limit, and each counts toward the grading of its own code. An armed severity entry is read with the next fault
raised: INJ_SRAM_PARITY is latched in the command block before it, with the table in GROUP, and the entry is read once. -/
def Obligations.FirstFaultLatched : Prop :=
  (∀ (d : Dev) (b : Nat) (e : Code × Ctx) (l : List (Code × Ctx)) (s : State),
    (d = .tsu → (s.tsu.badWords.any fun x => decide (x.1 = 5)) = false) → (s.fblock d b).valid = false → (s.fblock d b).overflow = false → (s.fblock d b).events = 0 → (s.fblock d b).grades = [] →
    ((e :: l).foldl (fun s x => s.raiseFault d b x.1 x.2) s).now d = s.now d ∧
    (((e :: l).foldl (fun s x => s.raiseFault d b x.1 x.2) s).fblock d b).valid = true ∧
    (((e :: l).foldl (fun s x => s.raiseFault d b x.1 x.2) s).fblock d b).firstCode = e.1 ∧
    (((e :: l).foldl (fun s x => s.raiseFault d b x.1 x.2) s).fblock d b).tick = s.now d ∧
    (((e :: l).foldl (fun s x => s.raiseFault d b x.1 x.2) s).fblock d b).ctx = e.2.word ∧
    (((e :: l).foldl (fun s x => s.raiseFault d b x.1 x.2) s).fblock d b).overflow = !l.isEmpty ∧
    (((e :: l).foldl (fun s x => s.raiseFault d b x.1 x.2) s).fblock d b).events.toNat = min (1 + l.length) 65535 ∧
    ∀ c : Code, (tget {} (((e :: l).foldl (fun s x => s.raiseFault d b x.1 x.2) s).fblock d b).grades c.toNat).count =
      (e :: l).countP fun x => decide (x.1 = c)) ∧
  (∀ (b ch w : Nat) (c : Code) (x : Ctx) (s : State), s.tsu.badWords = [(5, ch, w)] → (s.fblock .tsu (blkCmd .tsu)).valid = false →
    ((s.raiseFault .tsu b c x).fblock .tsu (blkCmd .tsu)).firstCode = cInjSram ∧
    ((s.raiseFault .tsu b c x).fblock .tsu (blkCmd .tsu)).tick = s.now .tsu ∧
    ((s.raiseFault .tsu b c x).fblock .tsu (blkCmd .tsu)).ctx = ({ group := 5 } : Ctx).word ∧
    ((s.raiseFault .tsu b c x).fblock .tsu b).valid = true ∧
    (s.raiseFault .tsu b c x).tsu.badWords = [] ∧ (s.raiseFault .tsu b c x).tsu.parStop = true)

/-- R312, R316, R320, R322 to R324, R326, R339, R456 to R458, R472: the commands of the fault family. Clearing a block clears its
latch, OVERFLOW, EVENTS, ESC and DEFERRED; clearing the severe latch before its expiry stops its grace timer; a window closes and
a grace timer escalates when due, and not before, and then ESC is the higher of the two; a report received joins the log, one of
a supply warning names the die's port, one of a severe latch is noted with the tick its escalation acts, and an escalated one acts at
the rack side that sets fences: a graded one by its step, another one as a fence at the COMMIT (log entry 82); the thermal faults follow their thresholds, leave the
reading, and end with the last reading that held them; a deferred expulsion waits for spares above the floor; a port returned to service is no longer EXPELLED, and has no
restore yet; an injection is armed with its table, or denied; tables 6 and 7 of TSU_FLT_INJ stop (R9). A fabric's stale-generation
input stops its channel's step while the main rail is up (R412). -/
def Obligations.FaultsCommanded : Prop :=
  (∀ (d : Dev) (b : Nat) (s : State), d = .tsu ∨ b ≠ blkPower .jup → (s.fblock d b).valid = true →
    Table.wf {} (s.com d).blocks = true →
    ∃ t, exec (.faultClear d b) s = .next t ∧ (t.fblock d b).valid = false ∧ (t.fblock d b).overflow = false ∧
      (t.fblock d b).events = 0 ∧ (t.fblock d b).esc = 0 ∧ (t.fblock d b).deferred = false ∧
      (t.fblock d b).sev = (s.fblock d b).sev ∧ (t.fblock d b).grace = (s.fblock d b).grace ∧
      (t.fblock d b).grades = (s.fblock d b).grades ∧ ∀ k, k ≠ b → t.fblock d k = s.fblock d k) ∧
  (∀ (d : Dev) (b : Nat) (s : State), (s.fblock d b).sev = false → exec (.severeClear d b) s = .next s) ∧
  (∀ (b : Nat) (s : State), (s.fblock .tsu b).sev = true → s.now .tsu < (s.fblock .tsu b).expiry →
    Table.wf {} s.tsuC.blocks = true →
    ∃ t, exec (.severeClear .tsu b) s = .next t ∧ (t.fblock .tsu b).sev = false ∧ (t.fblock .tsu b).sevOvf = false ∧
      (t.fblock .tsu b).grace = false ∧ (t.fblock .tsu b).esc = (s.fblock .tsu b).esc ∧
      (t.fblock .tsu b).valid = (s.fblock .tsu b).valid ∧ ∀ k, k ≠ b → t.fblock .tsu k = s.fblock .tsu k) ∧
  (∀ (d : Dev) (b : Nat) (c : BitVec 16) (s : State), s.windowDue d b c = true →
    exec (.gradingWindowClose d b c) s = .next (s.modBlock d b fun x => { x with grades := tset {} x.grades c.toNat {} })) ∧
  (∀ (d : Dev) (b : Nat) (c : BitVec 16) (s : State), s.windowDue d b c = false →
    exec (.gradingWindowClose d b c) s = .next s) ∧
  (∀ (d : Dev) (b : Nat) (s : State), s.graceDue d b = true → exec (.graceExpiry d b) s = .next (s.graceEnd d b)) ∧
  (∀ (b : Nat) (s : State), s.graceDue .tsu b = true →
    ∃ t, exec (.graceExpiry .tsu b) s = .next t ∧ (t.fblock .tsu b).grace = false ∧ (t.fblock .tsu b).sev = true ∧
      (t.fblock .tsu b).esc = (if (s.fblock .tsu b).esc < (s.fblock .tsu b).pendEsc then (s.fblock .tsu b).pendEsc
        else (s.fblock .tsu b).esc) ∧ t.tsuC.regs = s.tsuC.regs ∧ t.jup = s.jup) ∧
  (∀ (d : Dev) (b : Nat) (s : State), s.now d < (s.fblock d b).expiry → exec (.graceExpiry d b) s = .next s) ∧
  (∀ (t c : Nat) (table : BitVec 3) (ch : Fin 8) (w : BitVec 16) (src : Src) (s : State), table.toNat = t → ch.val = c → t < 6 →
    s.injDenied .tsu src = false →
    exec (.fltInjArm table ch w src) s = .next (s.modTsu fun x => { x with injArm := some (t, c, w.toNat) })) ∧
  (∀ (table : BitVec 3) (ch : Fin 8) (w : BitVec 16) (src : Src) (s : State), table.toNat < 6 → s.injDenied .tsu src = true →
    exec (.fltInjArm table ch w src) s = .next (s.denied .tsu)) ∧
  (∀ (table : BitVec 3) (ch : Fin 8) (w : BitVec 16) (src : Src) (s : State), 6 ≤ table.toNat →
    exec (.fltInjArm table ch w src) s = .fault (.unpredictable "R9")) ∧
  (∀ (g : BitVec 12) (src : Src) (s : State), s.injDenied .jup src = false →
    ∃ t, exec (.injDigestArm g src) s = .next t ∧ (t.grpStat g.toNat).inj = true ∧ t.jupC = s.jupC ∧ t.tsu = s.tsu) ∧
  (∀ (g : BitVec 12) (src : Src) (s : State), s.injDenied .jup src = true → exec (.injDigestArm g src) s = .next (s.denied .jup)) ∧
  (∀ (p : Nat) (ws : List Word) (s : State), exec (.faultReportRx p ws) s = .next (s.faultReport p ws)) ∧
  (∀ (p : Nat) (ws : List Word) (c : Code) (s : State), fld (nthW ws 0) 39 37 = 1 → c = (nthW ws 0).extractLsb' 48 16 →
    c ∉ [cStepOverrun, cRepeatBroken] → s.jup.sevSeen.any (reportOf ws) = false →
    ∃ t, exec (.faultReportRx p ws) s = .next t ∧ t.tsu = s.tsu ∧
      t.jup.sevSeen = s.jup.sevSeen ++
        [{ path := (nthW ws 0).extractLsb' 0 32, block := fld (nthW ws 0) 47 40, job := reportJob ws,
           due := nthW ws 1 + BitVec.ofNat 64 (2 ^ (s.dieProfile p c).graceLog2), esc := (s.dieProfile p c).esc.toNat, acted := false }]) ∧
  (∀ (p : Nat) (ws : List Word) (s : State), fld (nthW ws 0) 39 37 = 2 →
    (nthW ws 0).extractLsb' 48 16 ∉ [cStepOverrun, cRepeatBroken, cSupplyWarn] →
    exec (.faultReportRx p ws) s =
      .next (((((s.consume .jup p mtCompletion ws).logReport ws).reportEscalates p ws).noteSev p ws).reportOnward p ws)) ∧
  (∀ (p : Nat) (ws : List Word) (s : State), fld (nthW ws 0) 36 35 < 2 ∨ s.setsFences = false → s.reportEscalates p ws = s) ∧
  (∀ (p : Nat) (ws : List Word) (s : State), fld (nthW ws 0) 36 35 = 2 → s.setsFences = true → s.gradedReport ws = true →
    s.reportEscalates p ws = s.escalateDie p 2 (s.dieProfile p ((nthW ws 0).extractLsb' 48 16)).hard
      (match reportJob ws with | some j => [j] | none => s.jobsAt p)) ∧
  (∀ (p : Nat) (ws : List Word) (s : State), fld (nthW ws 0) 36 35 = 3 → s.setsFences = true →
    s.reportEscalates p ws = s.escalateDie p 3 (s.dieProfile p ((nthW ws 0).extractLsb' 48 16)).hard
      (match reportJob ws with | some j => [j] | none => s.jobsAt p)) ∧
  (∀ (p : Nat) (ws : List Word) (s : State), fld (nthW ws 0) 36 35 = 2 → s.setsFences = true → s.gradedReport ws = false →
    s.reportEscalates p ws = s.fenceAtCommit p ((nthW ws 0).extractLsb' 48 16)
      (match reportJob ws with | some j => [j] | none => s.jobsAt p)) ∧
  (∀ (p : Nat) (ws : List Word) (s : State), fld (nthW ws 0) 39 37 = 3 → fld (nthW ws 3) 31 16 = 0 →
    (nthW ws 0).extractLsb' 48 16 = cSupplyWarn →
    ∃ t, exec (.faultReportRx p ws) s = .next t ∧ p ∉ t.jup.warned ∧ t.jup.sevSeen = s.jup.sevSeen.filter (fun x => !reportOf ws x) ∧
      t.tsu = s.tsu) ∧
  (∀ (p : Nat) (ws : List Word) (s : State), fld (nthW ws 0) 39 37 = 0 → s.jup.log.length < 4096 →
    (nthW ws 0).extractLsb' 48 16 ∉ [cStepOverrun, cRepeatBroken, cBrownoutHold, cSupplyWarn] →
    ∃ t, exec (.faultReportRx p ws) s = .next t ∧ t.jup.log = s.jup.log ++ [ws] ∧ t.out = s.out ++ [.msix 0] ∧
      t.jupC.regs = s.jupC.regs ∧ t.tsu = s.tsu ∧ t.tsuC = s.tsuC) ∧
  (∀ (p : Nat) (ws : List Word) (s : State), fld (nthW ws 0) 39 37 = 0 → s.jup.log.length < 4096 →
    (nthW ws 0).extractLsb' 48 16 = cSupplyWarn →
    ∃ t, exec (.faultReportRx p ws) s = .next t ∧ t.jup.log = s.jup.log ++ [ws] ∧ p ∈ t.jup.warned ∧ t.jupC.regs = s.jupC.regs) ∧
  (∀ (ws : LogEntry) (s : State), s.jup.log.length < 4096 →
    (s.logReport ws).jup.log = s.jup.log ++ [ws] ∧ (s.logReport ws).out = s.out ++ [.msix 0]) ∧
  (∀ (ws : LogEntry) (s : State), 4096 ≤ s.jup.log.length →
    s.logReport ws = s.modJup fun j => { j with logLost := satInc j.logLost }) ∧
  (∀ (n : BitVec 13) (s : State), ∃ t, exec (.logFree n) s = .next t ∧ t.jup.log = s.jup.log.drop n.toNat ∧
    t.jup.logHead = s.jup.logHead + BitVec.ofNat 12 (min n.toNat s.jup.log.length) ∧ t.jupC = s.jupC ∧ t.tsu = s.tsu) ∧
  (∀ (s : State), ∃ t, exec .divLogClear s = .next t ∧ t.jup.stage.divLog = [] ∧ t.jup.stage.divOverflow = 0 ∧ t.jupC = s.jupC ∧
    t.tsu = s.tsu) ∧
  (∀ (p : BitVec 7) (s : State), p.toNat < 88 → s.healthState p.toNat = 3 →
    exec (.portReturnService p) s = .next ((s.setHealth p.toNat 0).modJup fun j =>
      { j with unrestored := p.toNat :: j.unrestored.filter fun q => !decide (q = p.toNat) })) ∧
  (∀ (p : BitVec 7) (s : State), p.toNat < 88 → s.healthState p.toNat = 3 → tok (regReset .jup) none s.jupC.regs = true →
    ∃ t, exec (.portReturnService p) s = .next t ∧ t.healthState p.toNat = 0 ∧ p.toNat ∈ t.jup.unrestored ∧ t.tsu = s.tsu ∧
      t.out = s.out) ∧
  (∀ (p : BitVec 7) (s : State), s.healthState p.toNat ≠ 3 → exec (.portReturnService p) s = .next s) ∧
  (∀ (p esc : Nat) (s : State), s.deferredDue = some (p, esc) → exec .deferredExpulsion s = .next (s.carryOut p esc)) ∧
  (∀ (p esc : Nat) (s : State), s.deferredDue = some (p, esc) →
    ∃ t, exec .deferredExpulsion s = .next t ∧ t.jup.deferred = s.jup.deferred.drop 1 ∧ t.tsu = s.tsu ∧ t.tsuC = s.tsuC) ∧
  (∀ (s : State), s.jup.deferred = [] → exec .deferredExpulsion s = .next s) ∧
  (∀ (c : Fin 8) (s : State), s.mainOff = false → exec (.fabricStaleGen c) s = .next (s.stepFault c cStaleGen {})) ∧
  (∀ (c : Fin 8) (s : State), s.mainOff = true → exec (.fabricStaleGen c) s = .next s) ∧
  (∀ (r : Reading) (v : Int) (s : State), thermAt r false v = true →
    exec (.thermalWarn r v) s = .next (((s.setReading r v).noteHot false r).raiseLevel .jup (blkPower .jup) cThermalWarn {})) ∧
  (∀ (r : Reading) (v : Int) (s : State), thermAt r false v = true → Table.wf 0 s.jup.readings = true →
    ((s.fblock .jup (blkPower .jup)).levels.any fun e => decide (e.1 = cThermalWarn ∧ e.2 = ({} : Ctx).word)) = false →
    ∃ t, exec (.thermalWarn r v) s = .next t ∧ tget 0 t.jup.readings (readingIx r) = BitVec.ofInt 16 v ∧
      (t.fblock .jup (blkPower .jup)).valid = true ∧ (false, r) ∈ t.jup.hot ∧
      (t.fblock .jup (blkPower .jup)).levels = (s.fblock .jup (blkPower .jup)).levels ++ [(cThermalWarn, ({} : Ctx).word)] ∧
      t.jupC.regs = s.jupC.regs ∧ t.tsu = s.tsu) ∧
  (∀ (r : Reading) (v : Int) (s : State), thermAt r false v = false → exec (.thermalWarn r v) s = .next s) ∧
  (∀ (r : Reading) (v : Int) (s : State), thermAt r true v = true →
    (((s.setReading r v).noteHot true r).raiseLevel .jup (blkPower .jup) cThermalTrip {}).jup.thermTrip = false →
    exec (.thermalTrip r v) s = .next ((((((s.setReading r v).noteHot true r).raiseLevel .jup (blkPower .jup) cThermalTrip {}).modJup fun j =>
      { j with thermTrip := true }).tripPorts).emit (.thermTrip true))) ∧
  (∀ (r : Reading) (v : Int) (s : State), thermAt r true v = false → exec (.thermalTrip r v) s = .next s) ∧
  (∀ (r : Reading) (v : Int) (s : State), thermAt r true v = true → s.jup.thermTrip = false →
    ∃ t, exec (.thermalTrip r v) s = .next t ∧ t.jup.thermTrip = true ∧ Out.thermTrip true ∈ t.out ∧
      (∀ n, n < 96 → (t.link .jup n).ctl.disable = true) ∧ t.tsu = s.tsu) ∧
  (∀ (r : Reading) (trip : Bool) (s u : State), u = s.modJup (fun j => { j with hot := j.hot.filter fun e => !decide (e = (trip, r)) }) →
    (u.jup.hot.any fun e => decide (e.1 = trip)) = false → exec (.thermalClear r trip) s = .next (u.endLevel .jup (blkPower .jup)
      (if trip then cThermalTrip else cThermalWarn) {})) ∧
  (∀ (r : Reading) (trip : Bool) (s u : State), u = s.modJup (fun j => { j with hot := j.hot.filter fun e => !decide (e = (trip, r)) }) →
    (u.jup.hot.any fun e => decide (e.1 = trip)) = true → exec (.thermalClear r trip) s = .next u) ∧
  (∀ v : Int, (thermAt .junction false v = true ↔ 95 ≤ v) ∧ (thermAt .junction true v = true ↔ 105 ≤ v) ∧
    (thermAt .stack false v = true ↔ 85 ≤ v) ∧ (thermAt .stack true v = true ↔ 95 ≤ v) ∧ (thermAt .inlet false v = true ↔ 42 ≤ v) ∧
    (thermAt .inlet true v = true ↔ 45 ≤ v) ∧ (thermAt .flow false v = true ↔ v < 1600) ∧ (thermAt .flow true v = true ↔ v < 1000))


/-! ## Power -/

/-- R409: a stretch that a budget gives keeps the job's energy in a stretched step within the budget, and a shorter one
would not; and a write of BUDGET keeps the limit in the record. N ranks, E nJ, I mW, B W, T ticks of 625 ps. -/
def Obligations.BudgetBounds : Prop :=
  (∀ (n e i b t S : Nat), b ≠ 0 → budgetStretch n e i b t = some S →
    1600 * n * e + n * i * S ≤ 1000 * b * (t + S) ∧ S ≤ 1048575 ∧ n * i < 1000 * b ∧
    ∀ R, R < S → 1000 * b * (t + R) < 1600 * n * e + n * i * R) ∧
  (∀ (n e i b t : Nat), b ≠ 0 → n * i < 1000 * b → budgetStretch n e i b t = none →
    ∀ S, S ≤ 1048575 → 1000 * b * (t + S) < 1600 * n * e + n * i * S) ∧
  (∀ (n e i t : Nat), budgetStretch n e i 0 t = some 0) ∧
  (∀ (j : BitVec 15) (w : Half) (s : State), exec (.budgetWrite j w) s = .next (s.writeBudget j w)) ∧
  (∀ (j : BitVec 15) (w : Half) (s : State), s.jobPlace j ≠ .top →
    s.writeBudget j w = s.setJobWord j 3 ((s.jobWord j 3 &&& 0xFFFFFFFF) ||| put 64 63 32 w.toNat))

/-- R336 to R338, R392, R393, R397 to R399, R401 to R403, R414: supply warnings, power states and resets of the die. A warning
starts the low rate and asks every running channel to hold; its end within 32,000 ticks reports ready; at 160,000 ticks the orderly
fence is made. A wake starts when it is due, asks for state 0 and sets its deadline; the power manager's state is taken as it is
reported, and DARK puts the main domain in reset and ends the session. The main domain leaves reset once its least time of 64
ticks is over. Power-on reset keeps the fuses and SESSION, which counts on, and clamps the outputs until the next tick (assumption
176). A die reset leaves the cause, its tick and Hall time; CH_RST acts on the next tick, and a channel reset leaves it UNBOUND
with every field at reset; LINK_RST needs DISABLE. While a domain is clamped, its outputs carry their ties and none of its events (R412, R436). -/
def Obligations.PowerAndResets : Prop :=
  (∀ (s : State), s.power.warn = false → s.power.state ≠ 4 → s.power.darkWake = false →
    exec .supplyWarn s = .next ((((s.raiseLevel .tsu (blkPower .tsu) cSupplyWarn {}).modPower fun p =>
      { p with warn := true, warnAt := s.now .tsu, fenced := false, warnCnt := satInc p.warnCnt }).enterLowRate).wantHoldAll 6)) ∧
  (∀ (s : State), s.power.warn = false → s.power.state ≠ 4 → s.power.darkWake = false →
    ∃ t, exec .supplyWarn s = .next t ∧ t.tsu.power.warn = true ∧ t.tsu.power.warnAt = s.now .tsu ∧ t.tsu.power.fenced = false ∧
      t.tsu.power.warnCnt = satInc s.tsu.power.warnCnt ∧ t.tsuC.time.lowRate = true ∧ t.tsuC.regs = s.tsuC.regs ∧ t.jup = s.jup) ∧
  (∀ (s : State), s.power.warn = true ∨ s.power.state = 4 ∨ s.power.darkWake = true → exec .supplyWarn s = .next s) ∧
  (∀ (b : Bool) (s : State), s.power.warn = false → exec (.supplyWarnClear b) s = .next s) ∧
  (∀ (b : Bool) (s : State), s.power.warn = true → (s.now .tsu).toNat ≤ s.power.warnAt.toNat + 32000 →
    exec (.supplyWarnClear b) s = .next (((s.modPower fun p =>
      { p with warn := false, lastDur := BitVec.ofNat 16 (min 0xFFFF (((s.now .tsu).toNat - s.power.warnAt.toNat) / 64)) }).leaveLowRate.endLevel
        .tsu (blkPower .tsu) cSupplyWarn {}).reportReady)) ∧
  (∀ (b : Bool) (s : State), s.power.warn = true → ∃ t, exec (.supplyWarnClear b) s = .next t ∧ t.tsu.power.warn = false ∧
      t.tsu.power.lastDur = BitVec.ofNat 16 (min 0xFFFF (((s.now .tsu).toNat - s.power.warnAt.toNat) / 64)) ∧ t.jup = s.jup) ∧
  (∀ (s : State), s.power.warn = true → s.power.fenced = false → s.power.warnAt.toNat + 160000 ≤ (s.now .tsu).toNat →
    ∃ t, exec .brownoutFence s = .next t ∧ t.tsu.power.fenced = true ∧ t.tsu.power.warn = true ∧
      (t.fblock .tsu (blkPower .tsu)).valid = true ∧ t.jup = s.jup) ∧
  (∀ (s : State), s.power.warn = true → s.power.fenced = false → s.power.warnAt.toNat + 160000 ≤ (s.now .tsu).toNat →
    exec .brownoutFence s = .next (s.orderlyFence cBrownoutFence)) ∧
  (∀ (s : State), (s.now .tsu).toNat < s.power.warnAt.toNat + 160000 → exec .brownoutFence s = .next s) ∧
  (∀ (s : State), s.wakeDue = true → exec .wakeStart s = .next s.startWake) ∧
  (∀ (s : State), s.wakeDue = true → ∃ t, exec .wakeStart s = .next t ∧ t.tsu.power.waking = true ∧ t.tsu.power.chosen = 0 ∧
    t.tsu.power.state = s.tsu.power.state ∧ t.tsu.power.darkWake = decide (s.tsu.power.state = 4) ∧
    t.tsu.power.wakeBy = s.now .tsu + BitVec.ofNat 64 (wakeTicks s.tsu.power.state.toNat) ∧ t.tsu.chans = s.tsu.chans ∧
    t.tsuC = s.tsuC ∧ t.jup = s.jup ∧ t.out = s.out ++ [.pwrReq 0]) ∧
  (∀ (s : State), s.power.state = 0 ∨ s.power.waking = true → exec .wakeStart s = .next s) ∧
  (∀ (k : Fin 5) (s : State), k.val ≠ 4 → s.power.state ≠ 4 → s.tsuC.sec.pending = false →
    ∃ t, exec (.pmStateChange k) s = .next t ∧ t.tsu.power.state.toNat = k.val ∧ t.tsuC = s.tsuC ∧ t.jup = s.jup ∧
      t.tsu.chans = s.tsu.chans) ∧
  (∀ (s : State), s.power.state ≠ 4 → ∃ t, exec (.pmStateChange 4) s = .next t ∧ t.tsu.power.state = 4 ∧ t.tsu.power.mainUp = false ∧
    t.tsuC.sec.session = .none ∧ t.tsuC.sev = [] ∧ Out.mainRst false ∈ t.out) ∧
  (∀ (k : Fin 5) (s : State), k.val ≠ 4 → s.power.state = 4 → s.power.held = [] →
    ∃ t, exec (.pmStateChange k) s = .next t ∧ t.tsu.power.state.toNat = k.val ∧ t.tsu.power.mainUp = s.tsu.power.mainUp ∧
      t.jup = s.jup) ∧
  (∀ (s : State), s.power.waking = true → s.power.state ≠ 0 → s.power.wakeBy ≤ s.now .tsu →
    (∀ c ∈ chanNums, (s.chan c).state ≠ .running) → exec .lateWake s = .next s) ∧
  (∀ (c : Nat) (s : State), s.power.waking = true → s.power.state ≠ 0 → s.power.wakeBy ≤ s.now .tsu →
    (chanNums.filter fun c => decide ((s.chan c).state = .running)) = [c] →
    exec .lateWake s = .next (s.modProg c fun p => { p with lateNext := true })) ∧
  (∀ (s : State), s.power.mainUp = true → exec .mainResetRelease s = .next s) ∧
  (∀ (s : State), s.power.mainHold ≠ 0 → exec .mainResetRelease s = .next s) ∧
  (∀ (s : State), s.power.mainUp = false → s.power.mainHold = 0 → s.power.darkWake = false → s.power.rstPend = none →
    exec .mainResetRelease s = .next ((s.modPower fun p => { p with mainUp := true }).emit (.mainRst true))) ∧
  (∀ (s : State), ∃ t, exec .powerOnReset s = .next t ∧ t.tsu = { power := { por := true } } ∧ t.tsuC.sec = { fuses := s.tsuC.sec.fuses } ∧ t.tsuC.regs = [] ∧
    t.tsuC.blocks = [] ∧ t.jupC = s.jupC ∧ t.jup = s.jup ∧
    ∀ u, u < 2 → (t.link .tsu u).ctl.session = (s.link .tsu u).ctl.session + 1) ∧
  (∀ (s : State), s.power.state = 4 → exec .mainRailFall s = .next s) ∧
  (∀ (s : State), s.power.state ≠ 4 → exec .mainRailFall s = .next (s.dieReset 1)) ∧
  (∀ (s : State), exec (.dieResetInput false) s = .next (s.dieReset 2)) ∧
  (∀ (s : State), (s.power.mainUp = true → exec (.dieResetInput true) s = .next (s.dieReset 2)) ∧
    (s.power.mainUp = false → exec (.dieResetInput true) s = .next s)) ∧
  (∀ (s : State), s.anyBound = true → exec .dieRst s = .next (s.modPower fun p => { p with rstErr := 2 })) ∧
  (∀ (s : State), s.anyBound = false → exec .dieRst s = .next (s.dieReset 4)) ∧
  (∀ (c : BitVec 4) (s : State), s.power.state = 4 → s.dieReset c = s.modPower fun p => { p with rstPend := some c }) ∧
  (∀ (c : BitVec 4) (s : State), s.power.state ≠ 4 → (s.dieReset c).tsu.power.cause = c ∧ (s.dieReset c).tsu.power.mainUp = false ∧
    (s.dieReset c).tsu.power.rstTick = s.now .tsu ∧ (s.dieReset c).tsu.power.mainHold = 64 ∧ (s.dieReset c).tsu.chans = [] ∧ (s.dieReset c).tsuC.blocks = [] ∧ (s.dieReset c).tsuC.time = s.tsuC.time) ∧
  (∀ (c : Fin 8) (s : State), ∃ t, exec (.chRst c) s = .next t ∧
    t.tsu.chanActs = s.tsu.chanActs ++ [(.reset, c.val, s.now .tsu + 1)] ∧ t.tsu.chans = s.tsu.chans ∧ t.tsuC = s.tsuC ∧
    t.jup = s.jup ∧ t.out = s.out) ∧
  (∀ (c : Fin 8) (s : State), (s.chan c).state ≠ .running → (s.chan c).state ≠ .stopped → Table.wf {} s.tsu.chans = true →
    (s.chanReset c).chan c = {} ∧ ∀ k, k ≠ c.val → (s.chanReset c).chan k = s.chan k) ∧
  (∀ (u : Fin 2) (s : State), (s.link .tsu u).ctl.disable = true →
    exec (.linkRst u) s = .next (s.modLink .tsu u fun l => l.restart .down (s.now .tsu))) ∧
  (∀ (u : Fin 2) (s : State), (s.link .tsu u).ctl.disable = false →
    exec (.linkRst u) s = .next (s.modPower fun p => { p with rstErr := 1 })) ∧
  (∀ (s : State), s.tsu.power.por = true → s.pins.clk = some Config.tieClk ∧ s.pins.mainRstN = Config.tieMainRstN ∧
    s.pins.pwrReq = Config.tiePwr ∧ s.pins.keep = Config.tieKeep ∧ s.pins.irq = Config.tieIrq ∧ s.pins.padOe = Config.tiePadOe ∧
    s.pins.pps = Config.tieData 1) ∧
  (∀ (s : State), s.tsu.power.por = false → s.pins.mainRstN = s.tsu.power.mainUp ∧ s.pins.pwrReq = s.tsu.power.chosen ∧
    s.pins.pps = s.pulseLevel .tsu 0) ∧
  (∀ (o : Out) (s : State), (o.mainSide = true → s.tsu.power.mainUp = false → (s.emit o).out = s.out) ∧
    (o.mainSide = false → (s.emit o).out = s.out ++ [o]))


/-! ## Security -/

/-- R374, R375, R377 to R382: challenges, sessions, stops and the life-cycle record. A challenge is a fresh value; OPEN waits for
the check of its token, which refuses it with a reason and TOKEN_BAD or opens the session asked for, and spends the challenge; the
session ends with CLOSE, or past NOT_AFTER. STOP and CONTINUE need a CONTROL session, count in DENIED without one, and act on the
next tick: a running channel stops with its lock mates, a STOPPED one goes on from now. The record is read once after each power-on
reset; a valid one sets the level and the fuses, without one the level is the fuse's, with IMG_LOCK above OPEN. -/
def Obligations.SessionsAndRecord : Prop :=
  (∀ (d : Dev) (s : State), ∃ t, exec (.dbgChal d) s = .next t ∧ (t.com d).sec.chalFresh = true ∧
    (t.com d).sec.challenge = Config.freeValue s.freeCtr ∧ t.freeCtr = s.freeCtr + 1 ∧ t.tsu = s.tsu ∧ t.jup = s.jup) ∧
  (∀ (d : Dev) (s : State), ∃ t, exec (.dbgOpen d) s = .next t ∧ (t.com d).sec.opening.isSome = true ∧ (t.com d).regs = (s.com d).regs ∧
    t.tsu = s.tsu ∧ t.jup = s.jup) ∧
  (∀ (d : Dev) (s : State), (s.com d).sec.opening = none → exec (.debugTokenChecked d) s = .next s) ∧
  (∀ (d : Dev) (s : State), (s.com d).sec.opening ≠ none → (s.com d).sec.lcRead = true → tokenReserved (s.com d).sec = false →
    s.openRefusal d ≠ 0 → exec (.debugTokenChecked d) s = .next ((((s.modSec d fun x => { x with opening := none }).modSec d fun x =>
      { x with refuse := BitVec.ofNat 4 (s.openRefusal d) }).raiseFault d (blkImage d) cTokenBad {}).modSec d fun x =>
        { x with chalFresh := false })) ∧
  (∀ (s : State), s.jupC.sec.opening ≠ none → s.jupC.sec.lcRead = true → s.jupC.sec.level = .opened → s.jupC.sec.imgLock = false →
    s.jupC.sec.req = 2 → ∃ t, exec (.debugTokenChecked .jup) s = .next t ∧ t.jupC.sec.session = .control ∧
      t.jupC.sec.opening = none ∧ t.jupC.sec.chalFresh = false ∧ t.jupC.sec.inject = false) ∧
  (∀ (s : State), s.tsuC.sec.opening ≠ none → s.tsuC.sec.lcRead = true → s.tsuC.sec.level = .opened → s.tsuC.sec.imgLock = false →
    s.tsuC.sec.req = 2 → s.power.state ≠ 3 → s.power.state ≠ 4 →
    ∃ t, exec (.debugTokenChecked .tsu) s = .next t ∧ t.tsuC.sec.session = .control ∧ t.tsuC.sec.opening = none ∧
      t.tsuC.sec.chalFresh = false ∧ t.tsuC.sec.inject = false ∧ t.tsu = s.tsu ∧ t.jup = s.jup) ∧
  (∀ (s : State), s.tsuC.sec.opening ≠ none → s.tsuC.sec.lcRead = true → s.tsuC.sec.level = .opened → s.tsuC.sec.imgLock = false →
    s.tsuC.sec.req = 2 → s.power.state = 3 →
    ∃ t, exec (.debugTokenChecked .tsu) s = .next t ∧ t.tsuC.sec.session = s.tsuC.sec.session ∧ t.tsuC.sec.pending = true) ∧
  (∀ (d : Dev) (s : State), ∃ t, exec (.dbgClose d) s = .next t ∧ (t.com d).sec.session = .none ∧ (t.com d).sec.inject = false ∧
    (t.com d).sec.fuses = (s.com d).sec.fuses ∧ (t.com d).regs = (s.com d).regs ∧ t.tsu = s.tsu ∧ t.jup = s.jup) ∧
  (∀ (d : Dev) (s : State), (s.com d).sec.notAfter < s.now d →
    exec (.debugSessionExpiry d) s = .next (s.modSec d Security.endSession)) ∧
  (∀ (d : Dev) (s : State), (s.com d).sec.notAfter < s.now d →
    ∃ t, exec (.debugSessionExpiry d) s = .next t ∧ (t.com d).sec.session = .none ∧ (t.com d).sec.inject = false ∧ t.tsu = s.tsu ∧
      t.jup = s.jup) ∧
  (∀ (d : Dev) (s : State), s.now d ≤ (s.com d).sec.notAfter → exec (.debugSessionExpiry d) s = .next s) ∧
  (∀ (c : Fin 8) (s : State), s.tsuC.sec.session ≠ .control →
    exec (.dbgStop c) s = .next (s.denied .tsu) ∧ exec (.dbgContinue c) s = .next (s.denied .tsu)) ∧
  (∀ (c : Fin 8) (s : State), s.tsuC.sec.session = .control →
    ∃ t u, exec (.dbgStop c) s = .next t ∧ exec (.dbgContinue c) s = .next u ∧
      t.tsu.chanActs = s.tsu.chanActs ++ [(.stop, c.val, s.now .tsu + 1)] ∧
      u.tsu.chanActs = s.tsu.chanActs ++ [(.go, c.val, s.now .tsu + 1)] ∧
      t.tsu.chans = s.tsu.chans ∧ u.tsu.chans = s.tsu.chans ∧ t.tsuC = s.tsuC ∧ u.tsuC = s.tsuC ∧ t.out = s.out ∧ u.out = s.out) ∧
  (∀ (c : Nat) (s : State), (s.chan c).state = .running →
    s.chanAct .stop c = (s.stopOne c 9).stopMates (s.lockMates c) cCommitFail {}) ∧
  (∀ (c : Nat) (s : State), ((s.chan c).state ≠ .running → s.chanAct .stop c = s) ∧
    ((s.chan c).state ≠ .stopped → s.chanAct .go c = s)) ∧
  (∀ (c : Nat) (s : State), (s.chan c).state = .stopped → (s.chanAct .go c).chan c = { s.chan c with
    state := .running, holdCause := 0, debug := true,
    prog := { (s.chan c).prog with refTick := s.now .tsu, readyTick := s.now .tsu, lateNext := false } } ∧
    ∀ k, k ≠ c → (s.chanAct .go c).chan k = s.chan k) ∧
  (∀ (d : Dev) (a b : List Word) (s : State), (s.com d).sec.lcRead = true → exec (.lifecycleRead d a b) s = .next s) ∧
  (∀ (d : Dev) (a b : List Word) (s : State), (s.com d).sec.lcRead = false → recordReserved d (s.com d).sec.fuses a = false →
    (d = .jup → recordReserved d (s.com d).sec.fuses b = false) →
    ∃ t, exec (.lifecycleRead d a b) s = .next t ∧ (t.com d).sec.lcRead = true ∧
      (recordValid d (s.com d).sec.fuses a = false → recordValid d (s.com d).sec.fuses b = false →
        (t.com d).sec.fuses = (s.com d).sec.fuses ∧ (t.com d).sec.level = (s.com d).sec.fuses.level ∧
        ((t.com d).sec.imgLock = true ↔ (s.com d).sec.fuses.level ≠ .opened)) ∧
      (d = .tsu → recordValid d (s.com d).sec.fuses a = true →
        (t.com d).sec.level = levelOf (recordLevel a) ∧ (t.com d).sec.fuses.level = levelOf (recordLevel a) ∧
        (t.com d).sec.imgLock = false ∧ (t.com d).sec.minImageVersion = (nthW a 2).extractLsb' 0 32)) ∧
  (∀ (x : Security), Security.endSession (Security.endSession x) = Security.endSession x)


/-! ## The board -/

/-- R440, R442, R443, R448, R454, R468, R473: the flash of the Jupin and its resets. A read of the flash fills the buffer; the copy
of the record in force is neither erased nor programmed; reserved STRAP_LO 3 stops (R9). What a copy holds that nothing has read or
written is free. At power-on the stacks that fail training are mapped out. A main reset keeps time, the Clock Room and the
security state but the image; when the main rail is good again every link retrains. PERST_N low resets the endpoint alone. The
word with which boot firmware names its version is taken once (R431). -/
def Obligations.BoardCommands : Prop :=
  (∀ (k : Bool) (s : State), exec (.flashRead k) s = .next (s.readFlash k)) ∧
  (∀ (k : Bool) (s : State), (tget [] s.jup.flash (flashKey k)).length = 33 → tok (regReset .jup) none s.jupC.regs = true →
    ∃ t, exec (.flashRead k) s = .next t ∧ t.jup.flErr = 0 ∧ t.tsu = s.tsu ∧ t.out = s.out ∧
      ∀ i, i < 33 → t.reg64 .jup (0x60200 + 8 * i) = nthW (tget [] s.jup.flash (flashKey k)) i) ∧
  (∀ (k : Bool) (s : State), s.jup.lcCopy = some k →
    exec (.flashErase k) s = .next (s.flashDone k 2 1) ∧ exec (.flashProgram k) s = .next (s.flashDone k 3 1)) ∧
  (∀ (k : Bool) (s : State), s.jup.lcCopy ≠ some k → ∃ t, exec (.flashErase k) s = .next t ∧
    tget [] t.jup.flash (flashKey k) = List.replicate 33 (BitVec.allOnes 64) ∧ t.jup.flErr = 0 ∧ t.jupC = s.jupC ∧
    tget [] t.jup.flash (flashKey (!k)) = tget [] s.jup.flash (flashKey (!k))) ∧
  (∀ (k : Bool) (s : State), s.jup.lcCopy ≠ some k → tget [] s.jup.flash (flashKey k) = List.replicate 33 (BitVec.allOnes 64) →
    ∃ t, exec (.flashProgram k) s = .next t ∧ tget [] t.jup.flash (flashKey k) = s.bufferWords ∧ t.jup.flErr = 0 ∧ t.jupC = s.jupC) ∧
  (∀ (v : Half) (s : State), s.fwSet = false → exec (.fwVersionWrite v) s = .next (s.setReg .tsu 0x44 (v ||| 0x80000000))) ∧
  (∀ (v : Half) (s : State), s.fwSet = false → tok (regReset .tsu) none s.tsuC.regs = true →
    ∃ t, exec (.fwVersionWrite v) s = .next t ∧ t.reg .tsu 0x44 = v ||| 0x80000000 ∧
      (∀ o, o ≠ 0x44 → t.reg .tsu o = s.reg .tsu o) ∧ t.tsu = s.tsu ∧ t.jup = s.jup ∧ t.out = s.out) ∧
  (∀ (v : Half) (s : State), s.fwSet = true → exec (.fwVersionWrite v) s = .next s) ∧
  (∀ (v : BitVec 8) (f : BitVec 24) (s : State), strapLo v = 3 → exec (.jpPowerOnReset (v, f)) s = .fault (.unpredictable "R9")) ∧
  (∀ (v : BitVec 8) (f : BitVec 24) (s : State), strapLo v ≠ 3 → ∃ t, exec (.jpPowerOnReset (v, f)) s = .next t ∧
    t.reg .jup 0x60080 = (~~~f).setWidth 32 ∧
    t.jupC.sec = { fuses := s.jupC.sec.fuses } ∧ t.jup.flash = s.jup.flash ∧ t.jup.straps = v ∧ t.jupC.groups = [] ∧ t.jupC.blocks = [] ∧
    fld (t.reg .jup (crBase .jup)) 6 5 = strapLo v ∧ t.tsuC = s.tsuC ∧ t.tsu = s.tsu) ∧
  (∀ (s : State), ∃ t, exec (.jpMainReset false) s = .next t ∧ t.jupC.time = s.jupC.time ∧ t.jupC.cr = s.jupC.cr ∧
    t.jupC.sec.fuses = s.jupC.sec.fuses ∧ t.jupC.sec.session = s.jupC.sec.session ∧ t.jupC.sec.sealedImg = false ∧ t.jup.mainLow = true ∧
    t.jup.journal = [] ∧ t.tsuC = s.tsuC ∧ t.tsu = s.tsu) ∧
  (∀ (s : State), s.jup.mainLow = false → exec (.jpMainReset true) s = .next s) ∧
  (∀ (s : State), s.jup.mainLow = true → exec (.jpMainReset true) s = .next s.mainRise) ∧
  (∀ (s : State), s.jup.mainLow = true → ∃ t, exec (.jpMainReset true) s = .next t ∧ t.jup.mainLow = false ∧
    t.jupC.time = s.jupC.time ∧ t.jupC.regs = s.jupC.regs ∧ t.tsuC = s.tsuC ∧ t.tsu = s.tsu ∧
    (t.jupC.links.map fun e => (e.1, e.2.ctl.session, e.2.ctl.lstate, e.2.time)) =
      s.jupC.links.map fun e => (e.1, e.2.ctl.session + 1, LState.train, e.2.time)) ∧
  (∀ (s : State), ∃ t, exec (.perst false) s = .next t ∧ t.jup.pcieReset = true ∧ t.jupC.cmds = s.jupC.cmds ∧ t.tsu = s.tsu ∧
    (∀ off, endpointReg off = false → tget 0 t.jupC.regs off = tget 0 s.jupC.regs off)) ∧
  (∀ (s : State), ∃ t, exec (.perst true) s = .next t ∧ t.jup.pcieReset = false ∧ t.jupC = s.jupC ∧ t.tsu = s.tsu)


/-! ## Registers -/

/-- R9, R61, R273, R369, R380, R412, R433, R442, R461, R463, R466: register accesses. A partial strobe, an unaligned offset and
PERST_N low write nothing; JTAG without a session writes nothing and counts in DENIED; a value in reserved bits stops; a sealed RWL
field is written by no host and by a commit group; CMD_LEAD stands for the plain RWL words. Of several sources on one CSR cycle the
later in the order of R463 stands: after a host's write that cycle, a group's write of the word changes nothing. A read of HTC
latches its high half; a window access outside the window reads 0 and writes nothing; an append record leaves once it is whole,
and while the main rail is off the window takes none. -/
def Obligations.RegistersAccessed : Prop :=
  (∀ (d : Dev) (src : Src) (off : Nat) (st : BitVec 4) (v : Half) (s : State), off % 4 ≠ 0 ∨ (d = .tsu ∧ st ≠ 0xF) ∨
    (d = .jup ∧ src = .host ∧ s.jup.pcieReset = true) → exec (.registerWrite d src off st v) s = .next s) ∧
  (∀ (d : Dev) (off : Nat) (v : Half) (s : State), off % 4 = 0 → 0x100 ≤ off → (s.com d).sec.session = .none →
    exec (.registerWrite d .jtag off 0xF v) s = .next (s.denied d)) ∧
  (∀ (src : Src) (v : Half) (s : State), src ≠ .jtag → s.tsuC.sec.sealedImg = false → s.csrLater .tsu src 0x6008 = false → tok (regReset .tsu) none s.tsuC.regs = true →
    ∃ t, exec (.registerWrite .tsu src 0x6008 0xF v) s = .next t ∧ t.reg .tsu 0x6008 = v ∧
      (∀ o, o ≠ 0x6008 → t.reg .tsu o = s.reg .tsu o) ∧ t.tsu = s.tsu ∧ t.jupC = s.jupC ∧ t.jup = s.jup ∧ t.out = s.out ∧
      t.tsuC.sec = s.tsuC.sec) ∧
  (∀ (src : Src) (v : Half) (s : State), src ≠ .jtag → s.csrLater .tsu src 0x6008 = true →
    exec (.registerWrite .tsu src 0x6008 0xF v) s = .next s) ∧
  (∀ (v : Half) (s : State), s.tsuC.sec.sealedImg = false → s.csrLater .tsu .host 0x6008 = false →
    ∃ t, exec (.registerWrite .tsu .host 0x6008 0xF v) s = .next t ∧ t.csrLater .tsu .cg 0x6008 = true ∧
      t.csrLater .tsu .image 0x6008 = true ∧ t.csrLater .tsu .host 0x6008 = false ∧ t.now .tsu = s.now .tsu) ∧
  (∀ (v : Half) (s : State), s.tsuC.sec.sealedImg = true → s.tsuC.sec.level ≠ .opened → v ≠ s.reg .tsu 0x6008 →
    s.csrLater .tsu .host 0x6008 = false →
    tok (regReset .tsu) none s.tsuC.regs = true →
    ∃ t, exec (.registerWrite .tsu .host 0x6008 0xF v) s = .next t ∧ t.reg .tsu 0x6008 = s.reg .tsu 0x6008 ∧
      t.tsuC.sec.denied = satInc s.tsuC.sec.denied) ∧
  (∀ (v : Half) (s : State), s.csrLater .tsu .cg 0x6008 = false → tok (regReset .tsu) none s.tsuC.regs = true →
    ∃ t, exec (.registerWrite .tsu .cg 0x6008 0xF v) s = .next t ∧ t.reg .tsu 0x6008 = v) ∧
  (∀ (v : Half) (s : State), v &&& 0x0000FFF8 ≠ 0 → exec (.registerWrite .tsu .host 0x6004 0xF v) s = .fault (.unpredictable "R9")) ∧
  (∀ (d : Dev) (s : State), ∃ t, exec (.htcRead d) s = .next t ∧ (t.com d).rdata = ((s.now d).extractLsb' 0 32).setWidth 64 ∧
    (t.com d).time.htcHi = (s.now d).extractLsb' 32 32 ∧ t.now d = s.now d ∧ t.tsu = s.tsu ∧ t.jup = s.jup ∧ t.out = s.out) ∧
  (∀ (d : Dev) (off : Nat) (s : State), splitLo d off = true → ∃ t, exec (.splitReadLatch d off) s = .next t ∧
    (t.com d).rdata = (s.readReg d .host off).setWidth 64 ∧ (t.com d).regs = (s.com d).regs ∧ t.tsu = s.tsu ∧ t.jup = s.jup ∧
    (Table.wf 0 (s.com d).win = true → t.win d .host (off + 4) = s.regNow d .host (off + 4))) ∧
  (∀ (d : Dev) (off : Nat) (s : State), splitLo d off = false →
    exec (.splitReadLatch d off) s = .next (s.modCom d fun c => { c with rdata := (s.readReg d .host off).setWidth 64 })) ∧
  (∀ (d : Dev) (src : Src) (w : Win) (i : Nat) (v : Half) (s : State), winCount d w ≤ i →
    exec (.indexedWindowAccess d src w i none) s = .next (s.modCom d fun c => { c with rdata := 0 }) ∧
    exec (.indexedWindowAccess d src w i (some v)) s = .next s) ∧
  (∀ (d : Dev) (src : Src) (w : Win) (i : Nat) (s : State), winHere d w = true → i < winCount d w → src ≠ .jtag →
    exec (.indexedWindowAccess d src w i none) s = .next (s.winRead d src w i)) ∧
  (∀ (d : Dev) (src : Src) (w : Win) (i : Nat) (s : State), winHere d w = true → i < winCount d w → src ≠ .jtag → d = .jup →
    ∃ t, exec (.indexedWindowAccess d src w i none) s = .next t ∧ t.jupC.rdata = (s.readReg d src (winData d w i)).setWidth 64 ∧
      t.tsuC = s.tsuC ∧ t.tsu = s.tsu ∧ t.jup = s.jup) ∧
  (∀ (d : Dev) (src : Src) (w : Win) (i : Nat) (v : Half) (s : State), winHere d w = true → i < winCount d w → src ≠ .jtag →
    winReserved w i v = false → s.winError d src w i v = none →
    exec (.indexedWindowAccess d src w i (some v)) s =
      .next (((s.winPut d src w i v).setWin d src (winData d w i) v).winStep d src w i true)) ∧
  (∀ (ws : List Word) (s : State), ws.length < 4 + fld (nthW ws 3) 31 16 → exec (.appendWindowWrite ws) s = .next s) ∧
  (∀ (ws : List Word) (s : State), s.mainOff = true → exec (.appendWindowWrite ws) s = .next s) ∧
  (∀ (ws : List Word) (c : Nat) (s : State), s.mainOff = false → 4 + fld (nthW ws 3) 31 16 = ws.length →
    s.chanOfRank ((nthW ws 0).extractLsb' 49 15) ((nthW ws 0).extractLsb' 32 17) = some c →
    exec (.appendWindowWrite ws) s = .next (s.send .tsu (s.upOf c) (appendMsg ((nthW ws 0).extractLsb' 49 15) ws)))


/-! ## The block as a whole -/

/-- A step runs the command at the front of the queue on the state with the queue's rest. -/
def Obligations.StepRunsFront : Prop :=
  ∀ (c : Instr) (rest : List Instr) (s : State), step { s with pending := c :: rest } = exec c { s with pending := rest }

/-- The state after reset has the values the spec gives: both counters 0, every channel UNBOUND, no image, no session, every
register word at its reset value, nothing waiting. Its tables are in canonical form. On an empty queue one tick passes,
which advances both counters and ends a power-on reset, and changes nothing of the security state (the tick is the model's choice,
assumption 2). -/
def Obligations.ResetAndIdle : Prop :=
  (∀ d : Dev, (State.reset.com d).time.htc = 0 ∧ (State.reset.com d).sec.session = .none ∧ (State.reset.com d).sec.sealedImg = false ∧
    (State.reset.com d).sec.imageDigest = 0 ∧ (State.reset.com d).blocks = [] ∧ (State.reset.com d).groups = [] ∧
    (State.reset.com d).inbox = [] ∧ (State.reset.com d).cmds.entries = [] ∧ (∀ off, State.reset.reg d off = regReset d off) ∧
    (State.reset.com d).sec.fuses.owner = 0 ∧
    (State.reset.com d).sec.fuses.seq = 0 ∧ (State.reset.com d).sec.fuses.level = .opened) ∧
  (∀ c : Nat, (State.reset.chan c).state = .unbound) ∧ State.reset.tablesOk = true ∧ State.reset.pending = [] ∧ State.reset.out = [] ∧ State.reset.jup.journal = [] ∧
  (∀ s : State, s.pending = [] → ∃ t, step s = .next t ∧ t.now .tsu = s.now .tsu + 1 ∧ t.now .jup = s.now .jup + 1 ∧
    t.tsu.power.por = false ∧
    t.pending = [] ∧ t.tsuC.sec = s.tsuC.sec ∧ t.jupC.sec = s.jupC.sec)

/-- R373, R375: no step of the block lowers a fuse of either device. Only LIFECYCLE_READ blows one: the level and the record
number never fall, and an owner key once blown stays. -/
def Obligations.FusesNeverFall : Prop :=
  ∀ s s' : State, step s = .next s' → ∀ d : Dev,
    (s.com d).sec.fuses.level.code ≤ (s'.com d).sec.fuses.level.code ∧ (s.com d).sec.fuses.seq ≤ (s'.com d).sec.fuses.seq ∧
    ((s.com d).sec.fuses.owner ≠ 0 → (s'.com d).sec.fuses.owner = (s.com d).sec.fuses.owner) ∧
    ((∀ a b, s.pending.head? ≠ some (.lifecycleRead d a b)) → (s'.com d).sec.fuses = (s.com d).sec.fuses)

/-- Every step keeps the sparse tables in canonical form, keys rising and no entry equal to what an unlisted key reads as: the
registers, the fault blocks, the completion entries and the window words of both devices, the loop counters of every channel and
of its boundary record, and the restore generations. So equal tables are equal data, and an entry that is written is read back.
A step takes at most the front command off the queue. -/
def Obligations.TablesCanonical : Prop :=
  ∀ s s' : State, step s = .next s' → (s.tablesOk = true → s'.tablesOk = true) ∧ s'.pending = s.pending.drop 1
end

