-- ==== Sys2Proof/Laws/State.lean ====
section
/-! SUPPORT. What each update of the state leaves and changes: one lemma for each field and update, so that no proof
unfolds a record update. -/
namespace Sys2Proof.Machine
open Sys2Proof

/-! ## Tables: a read after a write -/

@[simp] theorem tget_nil {α : Type} (d : α) (k : Nat) : tget d [] k = d := rfl

/-- A write is read back at its key, whatever stood there. -/
@[simp] theorem tget_tset_same {α : Type} [DecidableEq α] (d : α) (t : Table α) (k : Nat) (v : α)
    (h : tok (fun _ => d) none t = true) : tget d (tset d t k v) k = v := by
  suffices ∀ lo, tok (fun _ => d) lo t = true → tget d (tset d t k v) k = v from this none h
  clear h
  have miss : ∀ (t : Table α) (lo : Nat), k ≤ lo → tok (fun _ => d) (some lo) t = true → tget d t k = d := by
    intro t
    induction t with
    | nil => intros; rfl
    | cons a t ih =>
      obtain ⟨j, w⟩ := a
      intro lo hk hw
      simp only [tok, Bool.and_eq_true, decide_eq_true_eq] at hw
      have hj : j ≠ k := by omega
      simp only [tget, hj, if_false]
      exact ih j (by omega) hw.2
  induction t with
  | nil => intro lo _; by_cases hv : v = d <;> simp [tset, tget, hv]
  | cons a t ih =>
    obtain ⟨j, w⟩ := a
    intro lo hw
    have hw' : tok (fun _ => d) (some j) t = true := by
      cases lo <;> simp_all [tok]
    by_cases hlt : k < j
    · by_cases hv : v = d
      · have : j ≠ k := by omega
        simp only [tset, hlt, hv, if_true, tget, this, if_false]
        exact miss t j (by omega) hw'
      · simp [tset, hlt, hv, tget]
    · by_cases heq : j = k
      · by_cases hv : v = d
        · subst heq
          simp only [tset, Nat.lt_irrefl, if_false, if_true, hv]
          exact miss t j (Nat.le_refl j) hw'
        · simp [tset, heq, hv, tget]
      · simp only [tset, hlt, heq, if_false, tget]
        exact ih (some j) hw'

/-- A write leaves what every other key reads as. -/
theorem tget_tset_other {α : Type} [DecidableEq α] (d : α) (t : Table α) (k j : Nat) (v : α) (h : j ≠ k) :
    tget d (tset d t k v) j = tget d t j := by
  induction t with
  | nil => by_cases hv : v = d <;> simp [tset, tget, hv, Ne.symm h]
  | cons a t ih =>
    obtain ⟨i, w⟩ := a
    simp only [tset]
    split
    · split <;> simp [tget, Ne.symm h]
    · split
      · rename_i hik
        subst hik
        split <;> simp [tget, Ne.symm h]
      · simp only [tget, ih]

/-- The canonical form survives a write: no listed key repeats, none lists its unlisted value. The unlisted value may
differ from key to key. -/
theorem tok_tset {α : Type} [DecidableEq α] (d : Nat → α) (t : Table α) (k : Nat) (v : α) :
    ∀ lo, tok d lo t = true → (∀ l, lo = some l → l < k) → tok d lo (tset (d k) t k v) = true := by
  induction t with
  | nil =>
    intro lo _ hk
    by_cases hv : v = d k
    · simp [tset, hv, tok]
    · cases lo with
      | none => simp [tset, hv, tok]
      | some l => simp [tset, hv, tok, hk l rfl]
  | cons a t ih =>
    obtain ⟨j, w⟩ := a
    intro lo hw hk
    simp only [tok, Bool.and_eq_true, decide_eq_true_eq] at hw
    obtain ⟨⟨hlo, hwd⟩, ht⟩ := hw
    simp only [tset]
    split
    · rename_i hlt
      split
      · simp only [tok, Bool.and_eq_true, decide_eq_true_eq]
        exact ⟨⟨hlo, hwd⟩, ht⟩
      · rename_i hv
        simp only [tok, Bool.and_eq_true, decide_eq_true_eq]
        refine ⟨⟨?_, hv⟩, ⟨hlt, hwd⟩, ht⟩
        cases lo with
        | none => rfl
        | some l => exact decide_eq_true (hk l rfl)
    · split
      · rename_i heq
        subst heq
        split
        · have drop : ∀ (t : Table α), tok d (some j) t = true → tok d lo t = true := by
            intro t ht
            cases t with
            | nil => rfl
            | cons b t =>
              obtain ⟨i, x⟩ := b
              simp only [tok, Bool.and_eq_true, decide_eq_true_eq] at ht ⊢
              refine ⟨⟨?_, ht.1.2⟩, ht.2⟩
              cases lo with
              | none => rfl
              | some l => exact decide_eq_true (Nat.lt_trans (hk l rfl) ht.1.1)
          exact drop t ht
        · rename_i hv
          simp only [tok, Bool.and_eq_true, decide_eq_true_eq]
          exact ⟨⟨hlo, hv⟩, ht⟩
      · rename_i hlt hne
        simp only [tok, Bool.and_eq_true, decide_eq_true_eq]
        exact ⟨⟨hlo, hwd⟩, ih (some j) ht (by intro l hl; injection hl with hl; omega)⟩

/-- A filter keeps the canonical form. -/
theorem tok_filter {α : Type} [DecidableEq α] (d : Nat → α) (p : Nat × α → Bool) (t : Table α) :
    ∀ lo, tok d lo t = true → tok d lo (t.filter p) = true := by
  induction t with
  | nil => intro lo _; rfl
  | cons a t ih =>
    obtain ⟨j, w⟩ := a
    intro lo hw
    simp only [tok, Bool.and_eq_true, decide_eq_true_eq] at hw
    simp only [List.filter]
    split
    · simp only [tok, Bool.and_eq_true, decide_eq_true_eq]
      exact ⟨hw.1, ih _ hw.2⟩
    · refine ih lo ?_
      cases t with
      | nil => rfl
      | cons b t =>
        obtain ⟨i, x⟩ := b
        have ht := hw.2
        simp only [tok, Bool.and_eq_true, decide_eq_true_eq] at ht ⊢
        refine ⟨⟨?_, ht.1.2⟩, ht.2⟩
        cases lo with
        | none => rfl
        | some l =>
          have := hw.1.1
          simp only [decide_eq_true_eq] at this
          exact decide_eq_true (Nat.lt_trans this ht.1.1)

/-- Every write of a table keeps its canonical form. -/
theorem Table.wf_tset {α : Type} [DecidableEq α] (d : α) (t : Table α) (k : Nat) (v : α) (h : Table.wf d t = true) :
    Table.wf d (tset d t k v) = true := tok_tset (fun _ => d) t k v none h (by intro l hl; cases hl)

/-! ## The two devices -/

@[simp] theorem com_tsu (s : State) : s.com .tsu = s.tsuC := rfl
@[simp] theorem com_jup (s : State) : s.com .jup = s.jupC := rfl
@[simp] theorem com_setCom (s : State) (d : Dev) (c : Common) : (s.setCom d c).com d = c := by cases d <;> rfl
theorem com_setCom_other (s : State) (d e : Dev) (c : Common) (h : e ≠ d) : (s.setCom d c).com e = s.com e := by
  cases d <;> cases e <;> first | rfl | exact absurd rfl h

/-! ### modTime -/

@[simp] theorem com_modTime (s : State) (d : Dev) (f : TimeCore → TimeCore) :
    (s.modTime d f).com d = { s.com d with time := f (s.com d).time } := by cases d <;> rfl
theorem com_modTime_other (s : State) (d : Dev) (f : TimeCore → TimeCore) (e : Dev) (h : e ≠ d) : (s.modTime d f).com e = s.com e := by
  cases d <;> cases e <;> first | rfl | exact absurd rfl h
@[simp] theorem tsu_modTime (s : State) (d : Dev) (f : TimeCore → TimeCore) : (s.modTime d f).tsu = s.tsu := by cases d <;> rfl
@[simp] theorem jup_modTime (s : State) (d : Dev) (f : TimeCore → TimeCore) : (s.modTime d f).jup = s.jup := by cases d <;> rfl
@[simp] theorem out_modTime (s : State) (d : Dev) (f : TimeCore → TimeCore) : (s.modTime d f).out = s.out := by cases d <;> rfl
@[simp] theorem freeCtr_modTime (s : State) (d : Dev) (f : TimeCore → TimeCore) : (s.modTime d f).freeCtr = s.freeCtr := by cases d <;> rfl
@[simp] theorem pending_modTime (s : State) (d : Dev) (f : TimeCore → TimeCore) : (s.modTime d f).pending = s.pending := by cases d <;> rfl

/-! ### modCr -/

@[simp] theorem com_modCr (s : State) (d : Dev) (f : ClockRoom → ClockRoom) :
    (s.modCr d f).com d = { s.com d with cr := f (s.com d).cr } := by cases d <;> rfl
theorem com_modCr_other (s : State) (d : Dev) (f : ClockRoom → ClockRoom) (e : Dev) (h : e ≠ d) : (s.modCr d f).com e = s.com e := by
  cases d <;> cases e <;> first | rfl | exact absurd rfl h
@[simp] theorem tsu_modCr (s : State) (d : Dev) (f : ClockRoom → ClockRoom) : (s.modCr d f).tsu = s.tsu := by cases d <;> rfl
@[simp] theorem jup_modCr (s : State) (d : Dev) (f : ClockRoom → ClockRoom) : (s.modCr d f).jup = s.jup := by cases d <;> rfl
@[simp] theorem out_modCr (s : State) (d : Dev) (f : ClockRoom → ClockRoom) : (s.modCr d f).out = s.out := by cases d <;> rfl
@[simp] theorem freeCtr_modCr (s : State) (d : Dev) (f : ClockRoom → ClockRoom) : (s.modCr d f).freeCtr = s.freeCtr := by cases d <;> rfl
@[simp] theorem pending_modCr (s : State) (d : Dev) (f : ClockRoom → ClockRoom) : (s.modCr d f).pending = s.pending := by cases d <;> rfl

/-! ### modLink -/

@[simp] theorem com_modLink (s : State) (d : Dev) (n : Nat) (f : Link → Link) :
    (s.modLink d n f).com d = { s.com d with links := tmod {} (s.com d).links n f } := by cases d <;> rfl
theorem com_modLink_other (s : State) (d : Dev) (n : Nat) (f : Link → Link) (e : Dev) (h : e ≠ d) : (s.modLink d n f).com e = s.com e := by
  cases d <;> cases e <;> first | rfl | exact absurd rfl h
@[simp] theorem tsu_modLink (s : State) (d : Dev) (n : Nat) (f : Link → Link) : (s.modLink d n f).tsu = s.tsu := by cases d <;> rfl
@[simp] theorem jup_modLink (s : State) (d : Dev) (n : Nat) (f : Link → Link) : (s.modLink d n f).jup = s.jup := by cases d <;> rfl
@[simp] theorem out_modLink (s : State) (d : Dev) (n : Nat) (f : Link → Link) : (s.modLink d n f).out = s.out := by cases d <;> rfl
@[simp] theorem freeCtr_modLink (s : State) (d : Dev) (n : Nat) (f : Link → Link) : (s.modLink d n f).freeCtr = s.freeCtr := by cases d <;> rfl
@[simp] theorem pending_modLink (s : State) (d : Dev) (n : Nat) (f : Link → Link) : (s.modLink d n f).pending = s.pending := by cases d <;> rfl

/-! ### modTx -/

@[simp] theorem com_modTx (s : State) (d : Dev) (n : Nat) (f : LinkTx → LinkTx) :
    (s.modTx d n f).com d = { s.com d with links := tmod {} (s.com d).links n fun l => { l with tx := f l.tx } } := by cases d <;> rfl
theorem com_modTx_other (s : State) (d : Dev) (n : Nat) (f : LinkTx → LinkTx) (e : Dev) (h : e ≠ d) : (s.modTx d n f).com e = s.com e := by
  cases d <;> cases e <;> first | rfl | exact absurd rfl h
@[simp] theorem tsu_modTx (s : State) (d : Dev) (n : Nat) (f : LinkTx → LinkTx) : (s.modTx d n f).tsu = s.tsu := by cases d <;> rfl
@[simp] theorem jup_modTx (s : State) (d : Dev) (n : Nat) (f : LinkTx → LinkTx) : (s.modTx d n f).jup = s.jup := by cases d <;> rfl
@[simp] theorem out_modTx (s : State) (d : Dev) (n : Nat) (f : LinkTx → LinkTx) : (s.modTx d n f).out = s.out := by cases d <;> rfl
@[simp] theorem freeCtr_modTx (s : State) (d : Dev) (n : Nat) (f : LinkTx → LinkTx) : (s.modTx d n f).freeCtr = s.freeCtr := by cases d <;> rfl
@[simp] theorem pending_modTx (s : State) (d : Dev) (n : Nat) (f : LinkTx → LinkTx) : (s.modTx d n f).pending = s.pending := by cases d <;> rfl

/-! ### modRx -/

@[simp] theorem com_modRx (s : State) (d : Dev) (n : Nat) (f : LinkRx → LinkRx) :
    (s.modRx d n f).com d = { s.com d with links := tmod {} (s.com d).links n fun l => { l with rx := f l.rx } } := by cases d <;> rfl
theorem com_modRx_other (s : State) (d : Dev) (n : Nat) (f : LinkRx → LinkRx) (e : Dev) (h : e ≠ d) : (s.modRx d n f).com e = s.com e := by
  cases d <;> cases e <;> first | rfl | exact absurd rfl h
@[simp] theorem tsu_modRx (s : State) (d : Dev) (n : Nat) (f : LinkRx → LinkRx) : (s.modRx d n f).tsu = s.tsu := by cases d <;> rfl
@[simp] theorem jup_modRx (s : State) (d : Dev) (n : Nat) (f : LinkRx → LinkRx) : (s.modRx d n f).jup = s.jup := by cases d <;> rfl
@[simp] theorem out_modRx (s : State) (d : Dev) (n : Nat) (f : LinkRx → LinkRx) : (s.modRx d n f).out = s.out := by cases d <;> rfl
@[simp] theorem freeCtr_modRx (s : State) (d : Dev) (n : Nat) (f : LinkRx → LinkRx) : (s.modRx d n f).freeCtr = s.freeCtr := by cases d <;> rfl
@[simp] theorem pending_modRx (s : State) (d : Dev) (n : Nat) (f : LinkRx → LinkRx) : (s.modRx d n f).pending = s.pending := by cases d <;> rfl

/-! ### modCtl -/

@[simp] theorem com_modCtl (s : State) (d : Dev) (n : Nat) (f : LinkCtl → LinkCtl) :
    (s.modCtl d n f).com d = { s.com d with links := tmod {} (s.com d).links n fun l => { l with ctl := f l.ctl } } := by cases d <;> rfl
theorem com_modCtl_other (s : State) (d : Dev) (n : Nat) (f : LinkCtl → LinkCtl) (e : Dev) (h : e ≠ d) : (s.modCtl d n f).com e = s.com e := by
  cases d <;> cases e <;> first | rfl | exact absurd rfl h
@[simp] theorem tsu_modCtl (s : State) (d : Dev) (n : Nat) (f : LinkCtl → LinkCtl) : (s.modCtl d n f).tsu = s.tsu := by cases d <;> rfl
@[simp] theorem jup_modCtl (s : State) (d : Dev) (n : Nat) (f : LinkCtl → LinkCtl) : (s.modCtl d n f).jup = s.jup := by cases d <;> rfl
@[simp] theorem out_modCtl (s : State) (d : Dev) (n : Nat) (f : LinkCtl → LinkCtl) : (s.modCtl d n f).out = s.out := by cases d <;> rfl
@[simp] theorem freeCtr_modCtl (s : State) (d : Dev) (n : Nat) (f : LinkCtl → LinkCtl) : (s.modCtl d n f).freeCtr = s.freeCtr := by cases d <;> rfl
@[simp] theorem pending_modCtl (s : State) (d : Dev) (n : Nat) (f : LinkCtl → LinkCtl) : (s.modCtl d n f).pending = s.pending := by cases d <;> rfl

/-! ### modLt -/

@[simp] theorem com_modLt (s : State) (d : Dev) (n : Nat) (f : LinkTime → LinkTime) :
    (s.modLt d n f).com d = { s.com d with links := tmod {} (s.com d).links n fun l => { l with time := f l.time } } := by cases d <;> rfl
theorem com_modLt_other (s : State) (d : Dev) (n : Nat) (f : LinkTime → LinkTime) (e : Dev) (h : e ≠ d) : (s.modLt d n f).com e = s.com e := by
  cases d <;> cases e <;> first | rfl | exact absurd rfl h
@[simp] theorem tsu_modLt (s : State) (d : Dev) (n : Nat) (f : LinkTime → LinkTime) : (s.modLt d n f).tsu = s.tsu := by cases d <;> rfl
@[simp] theorem jup_modLt (s : State) (d : Dev) (n : Nat) (f : LinkTime → LinkTime) : (s.modLt d n f).jup = s.jup := by cases d <;> rfl
@[simp] theorem out_modLt (s : State) (d : Dev) (n : Nat) (f : LinkTime → LinkTime) : (s.modLt d n f).out = s.out := by cases d <;> rfl
@[simp] theorem freeCtr_modLt (s : State) (d : Dev) (n : Nat) (f : LinkTime → LinkTime) : (s.modLt d n f).freeCtr = s.freeCtr := by cases d <;> rfl
@[simp] theorem pending_modLt (s : State) (d : Dev) (n : Nat) (f : LinkTime → LinkTime) : (s.modLt d n f).pending = s.pending := by cases d <;> rfl

/-! ### modAsym -/

@[simp] theorem com_modAsym (s : State) (d : Dev) (n : Nat) (f : Asym → Asym) :
    (s.modAsym d n f).com d = { s.com d with links := tmod {} (s.com d).links n fun l => { l with asym := f l.asym } } := by cases d <;> rfl
theorem com_modAsym_other (s : State) (d : Dev) (n : Nat) (f : Asym → Asym) (e : Dev) (h : e ≠ d) : (s.modAsym d n f).com e = s.com e := by
  cases d <;> cases e <;> first | rfl | exact absurd rfl h
@[simp] theorem tsu_modAsym (s : State) (d : Dev) (n : Nat) (f : Asym → Asym) : (s.modAsym d n f).tsu = s.tsu := by cases d <;> rfl
@[simp] theorem jup_modAsym (s : State) (d : Dev) (n : Nat) (f : Asym → Asym) : (s.modAsym d n f).jup = s.jup := by cases d <;> rfl
@[simp] theorem out_modAsym (s : State) (d : Dev) (n : Nat) (f : Asym → Asym) : (s.modAsym d n f).out = s.out := by cases d <;> rfl
@[simp] theorem freeCtr_modAsym (s : State) (d : Dev) (n : Nat) (f : Asym → Asym) : (s.modAsym d n f).freeCtr = s.freeCtr := by cases d <;> rfl
@[simp] theorem pending_modAsym (s : State) (d : Dev) (n : Nat) (f : Asym → Asym) : (s.modAsym d n f).pending = s.pending := by cases d <;> rfl

/-! ### modConv -/

@[simp] theorem com_modConv (s : State) (d : Dev) (n : Nat) (f : Conv → Conv) :
    (s.modConv d n f).com d = { s.com d with convs := tmod {} (s.com d).convs n f } := by cases d <;> rfl
theorem com_modConv_other (s : State) (d : Dev) (n : Nat) (f : Conv → Conv) (e : Dev) (h : e ≠ d) : (s.modConv d n f).com e = s.com e := by
  cases d <;> cases e <;> first | rfl | exact absurd rfl h
@[simp] theorem tsu_modConv (s : State) (d : Dev) (n : Nat) (f : Conv → Conv) : (s.modConv d n f).tsu = s.tsu := by cases d <;> rfl
@[simp] theorem jup_modConv (s : State) (d : Dev) (n : Nat) (f : Conv → Conv) : (s.modConv d n f).jup = s.jup := by cases d <;> rfl
@[simp] theorem out_modConv (s : State) (d : Dev) (n : Nat) (f : Conv → Conv) : (s.modConv d n f).out = s.out := by cases d <;> rfl
@[simp] theorem freeCtr_modConv (s : State) (d : Dev) (n : Nat) (f : Conv → Conv) : (s.modConv d n f).freeCtr = s.freeCtr := by cases d <;> rfl
@[simp] theorem pending_modConv (s : State) (d : Dev) (n : Nat) (f : Conv → Conv) : (s.modConv d n f).pending = s.pending := by cases d <;> rfl

/-! ### modConvCtl -/

@[simp] theorem com_modConvCtl (s : State) (d : Dev) (n : Nat) (f : ConvCtl → ConvCtl) :
    (s.modConvCtl d n f).com d = { s.com d with convCtl := tmod {} (s.com d).convCtl n f } := by cases d <;> rfl
theorem com_modConvCtl_other (s : State) (d : Dev) (n : Nat) (f : ConvCtl → ConvCtl) (e : Dev) (h : e ≠ d) : (s.modConvCtl d n f).com e = s.com e := by
  cases d <;> cases e <;> first | rfl | exact absurd rfl h
@[simp] theorem tsu_modConvCtl (s : State) (d : Dev) (n : Nat) (f : ConvCtl → ConvCtl) : (s.modConvCtl d n f).tsu = s.tsu := by cases d <;> rfl
@[simp] theorem jup_modConvCtl (s : State) (d : Dev) (n : Nat) (f : ConvCtl → ConvCtl) : (s.modConvCtl d n f).jup = s.jup := by cases d <;> rfl
@[simp] theorem out_modConvCtl (s : State) (d : Dev) (n : Nat) (f : ConvCtl → ConvCtl) : (s.modConvCtl d n f).out = s.out := by cases d <;> rfl
@[simp] theorem freeCtr_modConvCtl (s : State) (d : Dev) (n : Nat) (f : ConvCtl → ConvCtl) : (s.modConvCtl d n f).freeCtr = s.freeCtr := by cases d <;> rfl
@[simp] theorem pending_modConvCtl (s : State) (d : Dev) (n : Nat) (f : ConvCtl → ConvCtl) : (s.modConvCtl d n f).pending = s.pending := by cases d <;> rfl

/-! ### modRef -/

@[simp] theorem com_modRef (s : State) (d : Dev) (n : Nat) (f : Ref → Ref) :
    (s.modRef d n f).com d = { s.com d with cr := { (s.com d).cr with refs := tmod {} (s.com d).cr.refs n f } } := by cases d <;> rfl
theorem com_modRef_other (s : State) (d : Dev) (n : Nat) (f : Ref → Ref) (e : Dev) (h : e ≠ d) : (s.modRef d n f).com e = s.com e := by
  cases d <;> cases e <;> first | rfl | exact absurd rfl h
@[simp] theorem tsu_modRef (s : State) (d : Dev) (n : Nat) (f : Ref → Ref) : (s.modRef d n f).tsu = s.tsu := by cases d <;> rfl
@[simp] theorem jup_modRef (s : State) (d : Dev) (n : Nat) (f : Ref → Ref) : (s.modRef d n f).jup = s.jup := by cases d <;> rfl
@[simp] theorem out_modRef (s : State) (d : Dev) (n : Nat) (f : Ref → Ref) : (s.modRef d n f).out = s.out := by cases d <;> rfl
@[simp] theorem freeCtr_modRef (s : State) (d : Dev) (n : Nat) (f : Ref → Ref) : (s.modRef d n f).freeCtr = s.freeCtr := by cases d <;> rfl
@[simp] theorem pending_modRef (s : State) (d : Dev) (n : Nat) (f : Ref → Ref) : (s.modRef d n f).pending = s.pending := by cases d <;> rfl

/-! ### modPulse -/

@[simp] theorem com_modPulse (s : State) (d : Dev) (n : Nat) (f : Pulse → Pulse) :
    (s.modPulse d n f).com d = { s.com d with cr := { (s.com d).cr with pulses := tmod {} (s.com d).cr.pulses n f } } := by cases d <;> rfl
theorem com_modPulse_other (s : State) (d : Dev) (n : Nat) (f : Pulse → Pulse) (e : Dev) (h : e ≠ d) : (s.modPulse d n f).com e = s.com e := by
  cases d <;> cases e <;> first | rfl | exact absurd rfl h
@[simp] theorem tsu_modPulse (s : State) (d : Dev) (n : Nat) (f : Pulse → Pulse) : (s.modPulse d n f).tsu = s.tsu := by cases d <;> rfl
@[simp] theorem jup_modPulse (s : State) (d : Dev) (n : Nat) (f : Pulse → Pulse) : (s.modPulse d n f).jup = s.jup := by cases d <;> rfl
@[simp] theorem out_modPulse (s : State) (d : Dev) (n : Nat) (f : Pulse → Pulse) : (s.modPulse d n f).out = s.out := by cases d <;> rfl
@[simp] theorem freeCtr_modPulse (s : State) (d : Dev) (n : Nat) (f : Pulse → Pulse) : (s.modPulse d n f).freeCtr = s.freeCtr := by cases d <;> rfl
@[simp] theorem pending_modPulse (s : State) (d : Dev) (n : Nat) (f : Pulse → Pulse) : (s.modPulse d n f).pending = s.pending := by cases d <;> rfl

/-! ### modSec -/

@[simp] theorem com_modSec (s : State) (d : Dev) (f : Security → Security) :
    (s.modSec d f).com d = { s.com d with sec := f (s.com d).sec } := by cases d <;> rfl
theorem com_modSec_other (s : State) (d : Dev) (f : Security → Security) (e : Dev) (h : e ≠ d) : (s.modSec d f).com e = s.com e := by
  cases d <;> cases e <;> first | rfl | exact absurd rfl h
@[simp] theorem tsu_modSec (s : State) (d : Dev) (f : Security → Security) : (s.modSec d f).tsu = s.tsu := by cases d <;> rfl
@[simp] theorem jup_modSec (s : State) (d : Dev) (f : Security → Security) : (s.modSec d f).jup = s.jup := by cases d <;> rfl
@[simp] theorem out_modSec (s : State) (d : Dev) (f : Security → Security) : (s.modSec d f).out = s.out := by cases d <;> rfl
@[simp] theorem freeCtr_modSec (s : State) (d : Dev) (f : Security → Security) : (s.modSec d f).freeCtr = s.freeCtr := by cases d <;> rfl
@[simp] theorem pending_modSec (s : State) (d : Dev) (f : Security → Security) : (s.modSec d f).pending = s.pending := by cases d <;> rfl

/-! ### modCmds -/

@[simp] theorem com_modCmds (s : State) (d : Dev) (f : Commands → Commands) :
    (s.modCmds d f).com d = { s.com d with cmds := f (s.com d).cmds } := by cases d <;> rfl
theorem com_modCmds_other (s : State) (d : Dev) (f : Commands → Commands) (e : Dev) (h : e ≠ d) : (s.modCmds d f).com e = s.com e := by
  cases d <;> cases e <;> first | rfl | exact absurd rfl h
@[simp] theorem tsu_modCmds (s : State) (d : Dev) (f : Commands → Commands) : (s.modCmds d f).tsu = s.tsu := by cases d <;> rfl
@[simp] theorem jup_modCmds (s : State) (d : Dev) (f : Commands → Commands) : (s.modCmds d f).jup = s.jup := by cases d <;> rfl
@[simp] theorem out_modCmds (s : State) (d : Dev) (f : Commands → Commands) : (s.modCmds d f).out = s.out := by cases d <;> rfl
@[simp] theorem freeCtr_modCmds (s : State) (d : Dev) (f : Commands → Commands) : (s.modCmds d f).freeCtr = s.freeCtr := by cases d <;> rfl
@[simp] theorem pending_modCmds (s : State) (d : Dev) (f : Commands → Commands) : (s.modCmds d f).pending = s.pending := by cases d <;> rfl

/-! ### modShut -/

@[simp] theorem com_modShut (s : State) (d : Dev) (f : Shut → Shut) :
    (s.modShut d f).com d = { s.com d with shut := f (s.com d).shut } := by cases d <;> rfl
theorem com_modShut_other (s : State) (d : Dev) (f : Shut → Shut) (e : Dev) (h : e ≠ d) : (s.modShut d f).com e = s.com e := by
  cases d <;> cases e <;> first | rfl | exact absurd rfl h
@[simp] theorem tsu_modShut (s : State) (d : Dev) (f : Shut → Shut) : (s.modShut d f).tsu = s.tsu := by cases d <;> rfl
@[simp] theorem jup_modShut (s : State) (d : Dev) (f : Shut → Shut) : (s.modShut d f).jup = s.jup := by cases d <;> rfl
@[simp] theorem out_modShut (s : State) (d : Dev) (f : Shut → Shut) : (s.modShut d f).out = s.out := by cases d <;> rfl
@[simp] theorem freeCtr_modShut (s : State) (d : Dev) (f : Shut → Shut) : (s.modShut d f).freeCtr = s.freeCtr := by cases d <;> rfl
@[simp] theorem pending_modShut (s : State) (d : Dev) (f : Shut → Shut) : (s.modShut d f).pending = s.pending := by cases d <;> rfl

/-! ### setReg -/

@[simp] theorem com_setReg (s : State) (d : Dev) (o : Nat) (v : Half) :
    (s.setReg d o v).com d = { s.com d with regs := tset (regReset d o) (s.com d).regs o v } := by cases d <;> rfl
theorem com_setReg_other (s : State) (d : Dev) (o : Nat) (v : Half) (e : Dev) (h : e ≠ d) : (s.setReg d o v).com e = s.com e := by
  cases d <;> cases e <;> first | rfl | exact absurd rfl h
@[simp] theorem tsu_setReg (s : State) (d : Dev) (o : Nat) (v : Half) : (s.setReg d o v).tsu = s.tsu := by cases d <;> rfl
@[simp] theorem jup_setReg (s : State) (d : Dev) (o : Nat) (v : Half) : (s.setReg d o v).jup = s.jup := by cases d <;> rfl
@[simp] theorem out_setReg (s : State) (d : Dev) (o : Nat) (v : Half) : (s.setReg d o v).out = s.out := by cases d <;> rfl
@[simp] theorem freeCtr_setReg (s : State) (d : Dev) (o : Nat) (v : Half) : (s.setReg d o v).freeCtr = s.freeCtr := by cases d <;> rfl
@[simp] theorem pending_setReg (s : State) (d : Dev) (o : Nat) (v : Half) : (s.setReg d o v).pending = s.pending := by cases d <;> rfl

/-! ### modBlock -/

@[simp] theorem com_modBlock (s : State) (d : Dev) (b : Nat) (f : FaultBlock → FaultBlock) :
    (s.modBlock d b f).com d = { s.com d with blocks := tmod {} (s.com d).blocks b f } := by cases d <;> rfl
theorem com_modBlock_other (s : State) (d : Dev) (b : Nat) (f : FaultBlock → FaultBlock) (e : Dev) (h : e ≠ d) : (s.modBlock d b f).com e = s.com e := by
  cases d <;> cases e <;> first | rfl | exact absurd rfl h
@[simp] theorem tsu_modBlock (s : State) (d : Dev) (b : Nat) (f : FaultBlock → FaultBlock) : (s.modBlock d b f).tsu = s.tsu := by cases d <;> rfl
@[simp] theorem jup_modBlock (s : State) (d : Dev) (b : Nat) (f : FaultBlock → FaultBlock) : (s.modBlock d b f).jup = s.jup := by cases d <;> rfl
@[simp] theorem out_modBlock (s : State) (d : Dev) (b : Nat) (f : FaultBlock → FaultBlock) : (s.modBlock d b f).out = s.out := by cases d <;> rfl
@[simp] theorem freeCtr_modBlock (s : State) (d : Dev) (b : Nat) (f : FaultBlock → FaultBlock) : (s.modBlock d b f).freeCtr = s.freeCtr := by cases d <;> rfl
@[simp] theorem pending_modBlock (s : State) (d : Dev) (b : Nat) (f : FaultBlock → FaultBlock) : (s.modBlock d b f).pending = s.pending := by cases d <;> rfl

/-! ### modPort -/

@[simp] theorem com_modPort (s : State) (d : Dev) (n : Nat) (f : CmdPort → CmdPort) :
    (s.modPort d n f).com d = { s.com d with cmds := { (s.com d).cmds with ports := tmod {} (s.com d).cmds.ports n f } } := by cases d <;> rfl
theorem com_modPort_other (s : State) (d : Dev) (n : Nat) (f : CmdPort → CmdPort) (e : Dev) (h : e ≠ d) : (s.modPort d n f).com e = s.com e := by
  cases d <;> cases e <;> first | rfl | exact absurd rfl h
@[simp] theorem tsu_modPort (s : State) (d : Dev) (n : Nat) (f : CmdPort → CmdPort) : (s.modPort d n f).tsu = s.tsu := by cases d <;> rfl
@[simp] theorem jup_modPort (s : State) (d : Dev) (n : Nat) (f : CmdPort → CmdPort) : (s.modPort d n f).jup = s.jup := by cases d <;> rfl
@[simp] theorem out_modPort (s : State) (d : Dev) (n : Nat) (f : CmdPort → CmdPort) : (s.modPort d n f).out = s.out := by cases d <;> rfl
@[simp] theorem freeCtr_modPort (s : State) (d : Dev) (n : Nat) (f : CmdPort → CmdPort) : (s.modPort d n f).freeCtr = s.freeCtr := by cases d <;> rfl
@[simp] theorem pending_modPort (s : State) (d : Dev) (n : Nat) (f : CmdPort → CmdPort) : (s.modPort d n f).pending = s.pending := by cases d <;> rfl

/-! ### modTsu -/

@[simp] theorem tsuC_modTsu (s : State) (f : Tsu → Tsu) : (s.modTsu f).tsuC = s.tsuC := rfl
@[simp] theorem jupC_modTsu (s : State) (f : Tsu → Tsu) : (s.modTsu f).jupC = s.jupC := rfl
@[simp] theorem tsu_modTsu (s : State) (f : Tsu → Tsu) : (s.modTsu f).tsu = f s.tsu := rfl
@[simp] theorem jup_modTsu (s : State) (f : Tsu → Tsu) : (s.modTsu f).jup = s.jup := rfl
@[simp] theorem out_modTsu (s : State) (f : Tsu → Tsu) : (s.modTsu f).out = s.out := rfl
@[simp] theorem freeCtr_modTsu (s : State) (f : Tsu → Tsu) : (s.modTsu f).freeCtr = s.freeCtr := rfl
@[simp] theorem pending_modTsu (s : State) (f : Tsu → Tsu) : (s.modTsu f).pending = s.pending := rfl
@[simp] theorem com_modTsu (s : State) (f : Tsu → Tsu) (d : Dev) : (s.modTsu f).com d = s.com d := by cases d <;> rfl

/-! ### modJup -/

@[simp] theorem tsuC_modJup (s : State) (f : Jup → Jup) : (s.modJup f).tsuC = s.tsuC := rfl
@[simp] theorem jupC_modJup (s : State) (f : Jup → Jup) : (s.modJup f).jupC = s.jupC := rfl
@[simp] theorem tsu_modJup (s : State) (f : Jup → Jup) : (s.modJup f).tsu = s.tsu := rfl
@[simp] theorem jup_modJup (s : State) (f : Jup → Jup) : (s.modJup f).jup = f s.jup := rfl
@[simp] theorem out_modJup (s : State) (f : Jup → Jup) : (s.modJup f).out = s.out := rfl
@[simp] theorem freeCtr_modJup (s : State) (f : Jup → Jup) : (s.modJup f).freeCtr = s.freeCtr := rfl
@[simp] theorem pending_modJup (s : State) (f : Jup → Jup) : (s.modJup f).pending = s.pending := rfl
@[simp] theorem com_modJup (s : State) (f : Jup → Jup) (d : Dev) : (s.modJup f).com d = s.com d := by cases d <;> rfl

/-! ### modChan -/

@[simp] theorem tsuC_modChan (s : State) (c : Nat) (f : Chan → Chan) : (s.modChan c f).tsuC = s.tsuC := rfl
@[simp] theorem jupC_modChan (s : State) (c : Nat) (f : Chan → Chan) : (s.modChan c f).jupC = s.jupC := rfl
@[simp] theorem tsu_modChan (s : State) (c : Nat) (f : Chan → Chan) : (s.modChan c f).tsu = { s.tsu with chans := tmod {} s.tsu.chans c f } := rfl
@[simp] theorem jup_modChan (s : State) (c : Nat) (f : Chan → Chan) : (s.modChan c f).jup = s.jup := rfl
@[simp] theorem out_modChan (s : State) (c : Nat) (f : Chan → Chan) : (s.modChan c f).out = s.out := rfl
@[simp] theorem freeCtr_modChan (s : State) (c : Nat) (f : Chan → Chan) : (s.modChan c f).freeCtr = s.freeCtr := rfl
@[simp] theorem pending_modChan (s : State) (c : Nat) (f : Chan → Chan) : (s.modChan c f).pending = s.pending := rfl
@[simp] theorem com_modChan (s : State) (c : Nat) (f : Chan → Chan) (d : Dev) : (s.modChan c f).com d = s.com d := by cases d <;> rfl

/-! ### emit -/

@[simp] theorem tsuC_emit (s : State) (o : Out) : (s.emit o).tsuC = s.tsuC := rfl
@[simp] theorem jupC_emit (s : State) (o : Out) : (s.emit o).jupC = s.jupC := rfl
@[simp] theorem tsu_emit (s : State) (o : Out) : (s.emit o).tsu = s.tsu := rfl
@[simp] theorem jup_emit (s : State) (o : Out) : (s.emit o).jup = s.jup := rfl
@[simp] theorem out_emit (s : State) (o : Out) :
    (s.emit o).out = if o.mainSide && s.clamped true then s.out else s.out ++ [o] := rfl
/-- An output of the always-on domain, or any while the main domain is not clamped, is driven. -/
theorem out_emit_driven (s : State) (o : Out) (h : o.mainSide = false ∨ s.clamped true = false) : (s.emit o).out = s.out ++ [o] := by
  rcases h with h | h <;> simp [h]
@[simp] theorem freeCtr_emit (s : State) (o : Out) : (s.emit o).freeCtr = s.freeCtr := rfl
@[simp] theorem pending_emit (s : State) (o : Out) : (s.emit o).pending = s.pending := rfl
@[simp] theorem com_emit (s : State) (o : Out) (d : Dev) : (s.emit o).com d = s.com d := by cases d <;> rfl

end Sys2Proof.Machine
end

