-- ==== Sys2Proof/Laws/Keeps.lean ====
section
/-! SUPPORT. What the named operations and the commands keep: the fuses of both devices, the queue, and the canonical form of
the tables. `keeps_<operation>`: the operation's result keeps what its argument keeps. `keepsN_…` and `keepsE_…` say so of a
result that an equation names. -/
namespace Sys2Proof.Machine
open Sys2Proof

/-- The fuses of both devices and the queue. -/
def State.kept (s : State) : Fuses × Fuses × List Instr := (s.tsuC.sec.fuses, s.jupC.sec.fuses, s.pending)

/-- `s` has the fuses and queue of `s0`, and its tables are in canonical form where those of `s0` are. -/
def State.Keeps (s0 s : State) : Prop := s.kept = s0.kept ∧ (s0.tablesOk = true → s.tablesOk = true)

/-- A result keeps them in its next state. -/
def ResKeeps (s0 : State) (r : Res) : Prop := ∀ t, r = .next t → s0.Keeps t

theorem keeps_refl (s : State) : s.Keeps s := ⟨rfl, id⟩
theorem keeps_trans {a b c : State} (h : a.Keeps b) (h' : b.Keeps c) : a.Keeps c :=
  ⟨h'.1.trans h.1, fun x => h'.2 (h.2 x)⟩

theorem resKeeps_next {s0 s : State} (h : s0.Keeps s) : ResKeeps s0 (.next s) := by
  intro t ht; injection ht with ht; exact ht ▸ h
theorem resKeeps_fault {s0 : State} (f : Fault) : ResKeeps s0 (.fault f) := by intro t ht; injection ht
theorem resKeeps_refused {s0 : State} (f : Refusal) : ResKeeps s0 (.refused f) := by intro t ht; injection ht

theorem selfTrue {b : Bool} (h : b = true) : b = true := h
theorem selfChans {t : Table Chan} (h : ∀ e ∈ t, e.2.tablesOk = true) : ∀ e ∈ t, e.2.tablesOk = true := h
theorem selfAnd {p q : Prop} (h : p ∧ q) : p ∧ q := h

/-- So does an answer that may be none. -/
def OptKeeps (s0 : State) (r : Option State) : Prop := ∀ t, r = some t → s0.Keeps t

theorem optKeeps_none {s0 : State} : OptKeeps s0 none := by intro t ht; cases ht
theorem optKeeps_some {s0 s : State} (h : s0.Keeps s) : OptKeeps s0 (some s) := by intro t ht; injection ht with ht; exact ht ▸ h

theorem optKeeps_ite {s0 : State} {c : Prop} [Decidable c] {a b : Option State} (ha : OptKeeps s0 a) (hb : OptKeeps s0 b) :
    OptKeeps s0 (if c then a else b) := by split <;> assumption

theorem tablesOk_iff (s : State) : s.tablesOk = true ↔
    ((s.tsuC.tablesOk .tsu = true ∧ s.jupC.tablesOk .jup = true) ∧ (∀ e ∈ s.tsu.chans, e.2.tablesOk = true)) ∧
    Table.wf {} s.jup.gens = true ∧ Table.wf false s.jup.genActive = true := by
  simp [State.tablesOk, and_assoc]

theorem tablesOk_com {s : State} (h : s.tablesOk = true) (d : Dev) : (s.com d).tablesOk d = true := by
  cases d
  · exact (((tablesOk_iff s).mp h).1.1).1
  · exact (((tablesOk_iff s).mp h).1.1).2

theorem keeps_modCom {s0 s : State} (d : Dev) (f : Common → Common) (hK : s0.Keeps s)
    (hf : (f (s.com d)).sec.fuses = (s.com d).sec.fuses)
    (hr : (s.com d).tablesOk d = true → (f (s.com d)).tablesOk d = true) : s0.Keeps (s.modCom d f) := by
  refine ⟨?_, fun h => ?_⟩
  · rw [← hK.1]; cases d <;> simp_all [State.kept, State.modCom, State.setCom, State.com]
  · have := (tablesOk_iff s).mp (hK.2 h)
    cases d
    · exact (tablesOk_iff _).mpr ⟨⟨⟨hr this.1.1.1, this.1.1.2⟩, this.1.2⟩, this.2⟩
    · exact (tablesOk_iff _).mpr ⟨⟨⟨this.1.1.1, hr this.1.1.2⟩, this.1.2⟩, this.2⟩
theorem keeps_modTsu {s0 s : State} (f : Tsu → Tsu) (hK : s0.Keeps s)
    (hr : (∀ e ∈ s.tsu.chans, e.2.tablesOk = true) → ∀ e ∈ (f s.tsu).chans, e.2.tablesOk = true) : s0.Keeps (s.modTsu f) := by
  refine ⟨hK.1, fun h => ?_⟩
  have := (tablesOk_iff s).mp (hK.2 h)
  exact (tablesOk_iff _).mpr ⟨⟨this.1.1, hr this.1.2⟩, this.2⟩
theorem keeps_modJup {s0 s : State} (f : Jup → Jup) (hK : s0.Keeps s)
    (hr : Table.wf {} s.jup.gens = true ∧ Table.wf false s.jup.genActive = true →
      Table.wf {} (f s.jup).gens = true ∧ Table.wf false (f s.jup).genActive = true) : s0.Keeps (s.modJup f) := by
  refine ⟨hK.1, fun h => ?_⟩
  have := (tablesOk_iff s).mp (hK.2 h)
  exact (tablesOk_iff _).mpr ⟨this.1, hr this.2⟩

theorem mem_tset {α : Type} [DecidableEq α] (d : α) (t : Table α) (k : Nat) (v : α) (e : Nat × α) (h : e ∈ tset d t k v) :
    e ∈ t ∨ e = (k, v) := by
  induction t with
  | nil => simp only [tset] at h; split at h <;> simp_all
  | cons a t ih =>
    obtain ⟨j, w⟩ := a
    simp only [tset] at h
    split at h
    · split at h <;> simp_all
      rcases h with h | h | h <;> simp [h]
    · split at h
      · split at h <;> simp_all
        rcases h with h | h <;> simp [h]
      · simp only [List.mem_cons] at h ⊢
        rcases h with h | h
        · exact .inl (.inl h)
        · exact (ih h).imp .inr id
theorem tget_mem {α : Type} (d : α) (t : Table α) (k : Nat) : tget d t k = d ∨ ∃ e ∈ t, e.2 = tget d t k := by
  induction t with
  | nil => exact .inl rfl
  | cons a t ih =>
    obtain ⟨j, w⟩ := a
    simp only [tget]
    split
    · exact .inr ⟨(j, w), by simp, rfl⟩
    · exact ih.imp id fun ⟨e, he, h⟩ => ⟨e, by simp [he], h⟩

theorem keeps_modChan {s0 s : State} (c : Nat) (f : Chan → Chan) (hK : s0.Keeps s)
    (hc : ∀ x : Chan, x.tablesOk = true → (f x).tablesOk = true) : s0.Keeps (s.modChan c f) := by
  refine keeps_modTsu _ hK fun h e he => ?_
  rcases mem_tset _ _ _ _ _ he with h1 | h1
  · exact h e h1
  · subst h1
    refine hc _ ?_
    rcases tget_mem ({} : Chan) s.tsu.chans c with h2 | ⟨e, he, h2⟩
    · rw [h2]; rfl
    · rw [← h2]; exact h e he
theorem chanOk {s : State} (h : s.tablesOk = true) (c : Nat) : (s.chan c).tablesOk = true := by
  rcases tget_mem ({} : Chan) s.tsu.chans c with h2 | ⟨e, he, h2⟩
  · unfold State.chan; rw [h2]; rfl
  · unfold State.chan; rw [← h2]; exact ((tablesOk_iff s).mp h).1.2 e he
theorem keeps_modProg {s0 s : State} (c : Nat) (f : Prog → Prog) (hK : s0.Keeps s)
    (hc : ∀ x : Prog, Table.wf 0 x.loops = true → Table.wf 0 (f x).loops = true) : s0.Keeps (s.modProg c f) := by
  refine keeps_modChan c _ hK fun x hx => ?_
  simp only [Chan.tablesOk, Bool.and_eq_true] at hx ⊢
  exact ⟨hc _ hx.1, hx.2⟩
theorem keeps_modSec {s0 s : State} (d : Dev) (f : Security → Security) (hK : s0.Keeps s)
    (hf : (f (s.com d).sec).fuses = (s.com d).sec.fuses) : s0.Keeps (s.modSec d f) :=
  keeps_modCom d _ hK hf id
theorem keeps_modCmds {s0 s : State} (d : Dev) (f : Commands → Commands) (hK : s0.Keeps s)
    (hc : Table.wf none (s.com d).cmds.entries = true → Table.wf none (f (s.com d).cmds).entries = true) : s0.Keeps (s.modCmds d f) := by
  refine keeps_modCom d _ hK rfl fun h => ?_
  simp only [Common.tablesOk, Bool.and_eq_true] at h ⊢
  exact ⟨⟨h.1.1, hc h.1.2⟩, h.2⟩
theorem keeps_setReg {s0 s : State} (d : Dev) (off : Nat) (v : Half) (hK : s0.Keeps s) : s0.Keeps (s.setReg d off v) := by
  refine keeps_modCom d _ hK rfl fun h => ?_
  simp only [Common.tablesOk, Bool.and_eq_true] at h ⊢
  exact ⟨⟨⟨tok_tset _ _ _ _ _ h.1.1.1 (fun l hl => by simp at hl), h.1.1.2⟩, h.1.2⟩, h.2⟩
theorem keeps_modBlock {s0 s : State} (d : Dev) (b : Nat) (f : FaultBlock → FaultBlock) (hK : s0.Keeps s) : s0.Keeps (s.modBlock d b f) := by
  refine keeps_modCom d _ hK rfl fun h => ?_
  simp only [Common.tablesOk, Bool.and_eq_true] at h ⊢
  exact ⟨⟨⟨h.1.1.1, Table.wf_tset _ _ _ _ h.1.1.2⟩, h.1.2⟩, h.2⟩
theorem keeps_setWin {s0 s : State} (d : Dev) (src : Src) (off : Nat) (v : Half) (hK : s0.Keeps s) : s0.Keeps (s.setWin d src off v) := by
  refine keeps_modCom d _ hK rfl fun h => ?_
  simp only [Common.tablesOk, Bool.and_eq_true] at h ⊢
  exact ⟨h.1, Table.wf_tset _ _ _ _ h.2⟩
theorem keeps_emit {s0 s : State} (o : Out) (hK : s0.Keeps s) : s0.Keeps (s.emit o) := hK
theorem keeps_fresh {s0 s : State} (hK : s0.Keeps s) : s0.Keeps s.fresh.2 := hK
theorem keepsE_fresh {s0 s : State} {y : BitVec 64} {t : State} (he : s.fresh = (y, t)) (hK : s0.Keeps s) : s0.Keeps t := by
  have : t = s.fresh.2 := by rw [he]
  rw [this]; exact hK
theorem keeps_foldl {s0 : State} {α : Type} (f : State → α → State) (hf : ∀ s a, s0.Keeps s → s0.Keeps (f s a)) (l : List α)
    {s : State} (hK : s0.Keeps s) : s0.Keeps (l.foldl f s) := by
  induction l generalizing s with
  | nil => exact hK
  | cons a l ih => exact ih (hf s a hK)
theorem keeps_due {s0 s : State} (g : Bool) (f : State → State) (hf : ∀ s, s0.Keeps s → s0.Keeps (f s)) (hK : s0.Keeps s) :
    ResKeeps s0 (s.due g f) := by
  unfold State.due; split
  · exact resKeeps_next (hf s hK)
  · exact resKeeps_next hK


theorem keeps_modTime {sK : State} (s : State) (d : Dev) (f : TimeCore → TimeCore) (hK : sK.Keeps s) : sK.Keeps (State.modTime s d f) := by
  unfold State.modTime
  try dsimp only
  repeat' first | (with_reducible first | assumption | apply keeps_modCom) | split | (apply Eq.refl) | exact selfTrue | exact selfChans | exact selfAnd | intro _

theorem keeps_modCr {sK : State} (s : State) (d : Dev) (f : ClockRoom → ClockRoom) (hK : sK.Keeps s) : sK.Keeps (State.modCr s d f) := by
  unfold State.modCr
  try dsimp only
  repeat' first | (with_reducible first | assumption | apply keeps_modCom) | split | (apply Eq.refl) | exact selfTrue | exact selfChans | exact selfAnd | intro _

theorem keeps_modLink {sK : State} (s : State) (d : Dev) (n : Nat) (f : Link → Link) (hK : sK.Keeps s) : sK.Keeps (State.modLink s d n f) := by
  unfold State.modLink
  try dsimp only
  repeat' first | (with_reducible first | assumption | apply keeps_modCom) | split | (apply Eq.refl) | exact selfTrue | exact selfChans | exact selfAnd | intro _

theorem keeps_modTx {sK : State} (s : State) (d : Dev) (n : Nat) (f : LinkTx → LinkTx) (hK : sK.Keeps s) : sK.Keeps (State.modTx s d n f) := by
  unfold State.modTx
  try dsimp only
  repeat' first | (with_reducible first | assumption | apply keeps_modLink) | split | (apply Eq.refl) | exact selfTrue | exact selfChans | exact selfAnd | intro _

theorem keeps_modRx {sK : State} (s : State) (d : Dev) (n : Nat) (f : LinkRx → LinkRx) (hK : sK.Keeps s) : sK.Keeps (State.modRx s d n f) := by
  unfold State.modRx
  try dsimp only
  repeat' first | (with_reducible first | assumption | apply keeps_modLink) | split | (apply Eq.refl) | exact selfTrue | exact selfChans | exact selfAnd | intro _

theorem keeps_modCtl {sK : State} (s : State) (d : Dev) (n : Nat) (f : LinkCtl → LinkCtl) (hK : sK.Keeps s) : sK.Keeps (State.modCtl s d n f) := by
  unfold State.modCtl
  try dsimp only
  repeat' first | (with_reducible first | assumption | apply keeps_modLink) | split | (apply Eq.refl) | exact selfTrue | exact selfChans | exact selfAnd | intro _

theorem keeps_modLt {sK : State} (s : State) (d : Dev) (n : Nat) (f : LinkTime → LinkTime) (hK : sK.Keeps s) : sK.Keeps (State.modLt s d n f) := by
  unfold State.modLt
  try dsimp only
  repeat' first | (with_reducible first | assumption | apply keeps_modLink) | split | (apply Eq.refl) | exact selfTrue | exact selfChans | exact selfAnd | intro _

theorem keeps_modAsym {sK : State} (s : State) (d : Dev) (n : Nat) (f : Asym → Asym) (hK : sK.Keeps s) : sK.Keeps (State.modAsym s d n f) := by
  unfold State.modAsym
  try dsimp only
  repeat' first | (with_reducible first | assumption | apply keeps_modLink) | split | (apply Eq.refl) | exact selfTrue | exact selfChans | exact selfAnd | intro _

theorem keeps_modConv {sK : State} (s : State) (d : Dev) (n : Nat) (f : Conv → Conv) (hK : sK.Keeps s) : sK.Keeps (State.modConv s d n f) := by
  unfold State.modConv
  try dsimp only
  repeat' first | (with_reducible first | assumption | apply keeps_modCom) | split | (apply Eq.refl) | exact selfTrue | exact selfChans | exact selfAnd | intro _

theorem keeps_modConvCtl {sK : State} (s : State) (d : Dev) (n : Nat) (f : ConvCtl → ConvCtl) (hK : sK.Keeps s) : sK.Keeps (State.modConvCtl s d n f) := by
  unfold State.modConvCtl
  try dsimp only
  repeat' first | (with_reducible first | assumption | apply keeps_modCom) | split | (apply Eq.refl) | exact selfTrue | exact selfChans | exact selfAnd | intro _

theorem keeps_modRef {sK : State} (s : State) (d : Dev) (r : Nat) (f : Ref → Ref) (hK : sK.Keeps s) : sK.Keeps (State.modRef s d r f) := by
  unfold State.modRef
  try dsimp only
  repeat' first | (with_reducible first | assumption | apply keeps_modCr) | split | (apply Eq.refl) | exact selfTrue | exact selfChans | exact selfAnd | intro _

theorem keeps_modPulse {sK : State} (s : State) (d : Dev) (k : Nat) (f : Pulse → Pulse) (hK : sK.Keeps s) : sK.Keeps (State.modPulse s d k f) := by
  unfold State.modPulse
  try dsimp only
  repeat' first | (with_reducible first | assumption | apply keeps_modCr) | split | (apply Eq.refl) | exact selfTrue | exact selfChans | exact selfAnd | intro _

theorem keeps_modShut {sK : State} (s : State) (d : Dev) (f : Shut → Shut) (hK : sK.Keeps s) : sK.Keeps (State.modShut s d f) := by
  unfold State.modShut
  try dsimp only
  repeat' first | (with_reducible first | assumption | apply keeps_modCom) | split | (apply Eq.refl) | exact selfTrue | exact selfChans | exact selfAnd | intro _

theorem keeps_setReg64 {sK : State} (s : State) (d : Dev) (off : Nat) (v : Word) (hK : sK.Keeps s) : sK.Keeps (State.setReg64 s d off v) := by
  unfold State.setReg64
  try dsimp only
  repeat' first | (with_reducible first | assumption | apply keeps_setReg) | split | (apply Eq.refl) | exact selfTrue | exact selfChans | exact selfAnd | intro _

theorem keeps_setHealth {sK : State} (s : State) (p st : Nat) (hK : sK.Keeps s) : sK.Keeps (State.setHealth s p st) := by
  unfold State.setHealth
  try dsimp only
  repeat' first | (with_reducible first | assumption | apply keeps_setReg) | split | (apply Eq.refl) | exact selfTrue | exact selfChans | exact selfAnd | intro _

theorem keeps_csrPut {sK : State} (s : State) (d : Dev) (src : Src) (off : Nat) (f : State → State) (h_f : ∀ x0, sK.Keeps x0 → sK.Keeps (f x0)) (hK : sK.Keeps s) : sK.Keeps (State.csrPut s d src off f) := by
  unfold State.csrPut
  try dsimp only
  repeat' first | (with_reducible first | assumption | apply keeps_modCom) | apply h_f | split | (apply Eq.refl) | exact selfTrue | exact selfChans | exact selfAnd | intro _

theorem keeps_send {sK : State} (s : State) (d : Dev) (n : Nat) (m : Msg) (hK : sK.Keeps s) : sK.Keeps (State.send s d n m) := by
  unfold State.send
  try dsimp only
  repeat' first | (with_reducible first | assumption | apply keeps_modTx) | split | (apply Eq.refl) | exact selfTrue | exact selfChans | exact selfAnd | intro _

theorem keeps_sendAll {sK : State} (s : State) (d : Dev) (ns : List Nat) (m : Msg) (hK : sK.Keeps s) : sK.Keeps (State.sendAll s d ns m) := by
  unfold State.sendAll
  try dsimp only
  repeat' first | (with_reducible first | assumption | apply keeps_send | apply keeps_foldl) | split | (apply Eq.refl) | exact selfTrue | exact selfChans | exact selfAnd | intro _

theorem keeps_consume {sK : State} (s : State) (d : Dev) (n : Nat) (mt : BitVec 8) (ws : List Word) (hK : sK.Keeps s) : sK.Keeps (State.consume s d n mt ws) := by
  unfold State.consume
  try dsimp only
  repeat' first | (with_reducible first | assumption | apply keeps_modCom) | split | (apply Eq.refl) | exact selfTrue | exact selfChans | exact selfAnd | intro _

theorem keeps_takeCommand {sK : State} (s : State) (op : BitVec 8) (hK : sK.Keeps s) : sK.Keeps (State.takeCommand s op) := by
  unfold State.takeCommand
  try dsimp only
  repeat' first | (with_reducible first | assumption | apply keeps_modCom) | split | (apply Eq.refl) | exact selfTrue | exact selfChans | exact selfAnd | intro _

theorem keeps_logReport {sK : State} (s : State) (ws : LogEntry) (hK : sK.Keeps s) : sK.Keeps (State.logReport s ws) := by
  unfold State.logReport
  try dsimp only
  repeat' first | (with_reducible first | assumption | apply keeps_emit | apply keeps_modJup) | split | (apply Eq.refl) | exact selfTrue | exact selfChans | exact selfAnd | intro _

theorem keeps_report {sK : State} (s : State) (d : Dev) (ws : List Word) (hK : sK.Keeps s) : sK.Keeps (State.report s d ws) := by
  unfold State.report
  try dsimp only
  repeat' first | (with_reducible first | assumption | apply keeps_logReport | apply keeps_sendAll) | split | (apply Eq.refl) | exact selfTrue | exact selfChans | exact selfAnd | intro _

theorem keeps_latchFault {sK : State} (s : State) (d : Dev) (blk : Nat) (code : Code) (ctx : Ctx) (hK : sK.Keeps s) : sK.Keeps (State.latchFault s d blk code ctx) := by
  unfold State.latchFault
  try dsimp only
  repeat' first | (with_reducible first | assumption | apply keeps_modBlock | apply keeps_report) | split | (apply Eq.refl) | exact selfTrue | exact selfChans | exact selfAnd | intro _

theorem keeps_readSeverity {sK : State} (s : State) (d : Dev) (hK : sK.Keeps s) : sK.Keeps (State.readSeverity s d) := by
  unfold State.readSeverity
  try dsimp only
  repeat' first | (with_reducible first | assumption | apply keeps_latchFault | apply keeps_modTsu) | split | (apply Eq.refl) | exact selfTrue | exact selfChans | exact selfAnd | intro _

theorem keeps_raiseFault {sK : State} (s : State) (d : Dev) (blk : Nat) (code : Code) (ctx : Ctx) (hK : sK.Keeps s) : sK.Keeps (State.raiseFault s d blk code ctx) := by
  unfold State.raiseFault
  try dsimp only
  repeat' first | (with_reducible first | assumption | apply keeps_latchFault | apply keeps_readSeverity) | split | (apply Eq.refl) | exact selfTrue | exact selfChans | exact selfAnd | intro _

theorem keeps_raiseLevel {sK : State} (s : State) (d : Dev) (blk : Nat) (code : Code) (ctx : Ctx) (hK : sK.Keeps s) : sK.Keeps (State.raiseLevel s d blk code ctx) := by
  unfold State.raiseLevel
  try dsimp only
  repeat' first | (with_reducible first | assumption | apply keeps_modBlock | apply keeps_raiseFault) | split | (apply Eq.refl) | exact selfTrue | exact selfChans | exact selfAnd | intro _

theorem keeps_endLevel {sK : State} (s : State) (d : Dev) (blk : Nat) (code : Code) (ctx : Ctx) (hK : sK.Keeps s) : sK.Keeps (State.endLevel s d blk code ctx) := by
  unfold State.endLevel
  try dsimp only
  repeat' first | (with_reducible first | assumption | apply keeps_modBlock) | split | (apply Eq.refl) | exact selfTrue | exact selfChans | exact selfAnd | intro _

theorem keeps_raiseChan {sK : State} (s : State) (c : Nat) (code : Code) (ctx : Ctx := {}) (hK : sK.Keeps s) : sK.Keeps (State.raiseChan s c code ctx) := by
  unfold State.raiseChan
  try dsimp only
  repeat' first | (with_reducible first | assumption | apply keeps_modChan | apply keeps_raiseFault) | split | (apply Eq.refl) | exact selfTrue | exact selfChans | exact selfAnd | intro _

theorem keeps_raiseLink {sK : State} (s : State) (d : Dev) (n : Nat) (code : Code) (ctx : Ctx := {}) (hK : sK.Keeps s) : sK.Keeps (State.raiseLink s d n code ctx) := by
  unfold State.raiseLink
  try dsimp only
  repeat' first | (with_reducible first | assumption | apply keeps_raiseFault) | split | (apply Eq.refl) | exact selfTrue | exact selfChans | exact selfAnd | intro _

theorem keeps_raiseLinkLevel {sK : State} (s : State) (d : Dev) (n : Nat) (code : Code) (hK : sK.Keeps s) : sK.Keeps (State.raiseLinkLevel s d n code) := by
  unfold State.raiseLinkLevel
  try dsimp only
  repeat' first | (with_reducible first | assumption | apply keeps_raiseLevel) | split | (apply Eq.refl) | exact selfTrue | exact selfChans | exact selfAnd | intro _

theorem keeps_endLinkLevel {sK : State} (s : State) (d : Dev) (n : Nat) (code : Code) (hK : sK.Keeps s) : sK.Keeps (State.endLinkLevel s d n code) := by
  unfold State.endLinkLevel
  try dsimp only
  repeat' first | (with_reducible first | assumption | apply keeps_endLevel) | split | (apply Eq.refl) | exact selfTrue | exact selfChans | exact selfAnd | intro _

theorem keeps_denied {sK : State} (s : State) (d : Dev) (hK : sK.Keeps s) : sK.Keeps (State.denied s d) := by
  unfold State.denied
  try dsimp only
  repeat' first | (with_reducible first | assumption | apply keeps_modSec | apply keeps_raiseFault) | split | (apply Eq.refl) | exact selfTrue | exact selfChans | exact selfAnd | intro _

theorem keeps_modPort {sK : State} (s : State) (d : Dev) (n : Nat) (f : CmdPort → CmdPort) (hK : sK.Keeps s) : sK.Keeps (State.modPort s d n f) := by
  unfold State.modPort
  try dsimp only
  repeat' first | (with_reducible first | assumption | apply keeps_modCmds) | split | (apply Eq.refl) | exact selfTrue | exact selfChans | exact selfAnd | intro _

theorem keeps_refuse {sK : State} (s : State) (d : Dev) (h : Hdr) (r : BitVec 4) (hK : sK.Keeps s) : sK.Keeps (State.refuse s d h r) := by
  unfold State.refuse
  try dsimp only
  repeat' first | (with_reducible first | assumption | apply keeps_modPort) | split | (apply Eq.refl) | exact selfTrue | exact selfChans | exact selfAnd | intro _

theorem keeps_accepted {sK : State} (s : State) (d : Dev) (h : Hdr) (hK : sK.Keeps s) : sK.Keeps (State.accepted s d h) := by
  unfold State.accepted
  try dsimp only
  repeat' first | (with_reducible first | assumption | apply keeps_modPort) | split | (apply Eq.refl) | exact selfTrue | exact selfChans | exact selfAnd | intro _

theorem keeps_track {sK : State} (s : State) (e : TrackEntry) (hK : sK.Keeps s) : sK.Keeps (State.track s e) := by
  unfold State.track
  try dsimp only
  repeat' first | (with_reducible first | assumption | apply keeps_modJup) | split | (apply Eq.refl) | exact selfTrue | exact selfChans | exact selfAnd | intro _

theorem keeps_closeFlow {sK : State} (s : State) (kind : TrackKind) (h : Half) (job : Option (BitVec 15)) (hK : sK.Keeps s) : sK.Keeps (State.closeFlow s kind h job) := by
  unfold State.closeFlow
  try dsimp only
  repeat' first | (with_reducible first | assumption | apply keeps_modJup) | split | (apply Eq.refl) | exact selfTrue | exact selfChans | exact selfAnd | intro _

theorem keeps_untrack {sK : State} (s : State) (h : Half) (hK : sK.Keeps s) : sK.Keeps (State.untrack s h) := by
  unfold State.untrack
  try dsimp only
  repeat' first | (with_reducible first | assumption | apply keeps_modJup) | split | (apply Eq.refl) | exact selfTrue | exact selfChans | exact selfAnd | intro _

theorem keeps_accept {sK : State} (s : State) (d : Dev) (h : Hdr) (op : BitVec 8) (light : Bool := false) (job : Option (BitVec 15) := none) (hK : sK.Keeps s) : sK.Keeps (State.accept s d h op light job).1 := by
  unfold State.accept
  try dsimp only
  repeat' first | (with_reducible first | assumption | apply keeps_denied | apply keeps_modCmds | apply keeps_modPort | apply keeps_refuse | apply keeps_seq | apply keeps_track | (apply keepsN_seq; case' he => assumption)) | (exact fun (h : _ = true) => Table.wf_tset _ _ _ _ h) | split | (apply Eq.refl) | exact selfTrue | exact selfChans | exact selfAnd | intro _

theorem keepsE_accept {sK : State} (s : State) (d : Dev) (h : Hdr) (op : BitVec 8) (light : Bool := false) (job : Option (BitVec 15) := none)  {t' : State} {y' : Option Half} (he : (State.accept s d h op light job) = (t', y')) (hK : sK.Keeps s) : sK.Keeps t' := by have := keeps_accept s d h op light job  hK; rw [he] at this; exact this

theorem keeps_postIrq {sK : State} (s : State) (d : Dev) (e : CplEntry) (hK : sK.Keeps s) : sK.Keeps (State.postIrq s d e) := by
  unfold State.postIrq
  try dsimp only
  repeat' first | (with_reducible first | assumption | apply keeps_emit) | split | (apply Eq.refl) | exact selfTrue | exact selfChans | exact selfAnd | intro _

theorem keeps_post {sK : State} (s : State) (d : Dev) (h : Half) (status : BitVec 8) (results : List Word) (hK : sK.Keeps s) : sK.Keeps (State.post s d h status results) := by
  unfold State.post
  try dsimp only
  repeat' first | (with_reducible first | assumption | apply keeps_modCmds | apply keeps_postIrq | apply keeps_untrack) | (exact fun (h : _ = true) => Table.wf_tset _ _ _ _ h) | split | (apply Eq.refl) | exact selfTrue | exact selfChans | exact selfAnd | intro _

theorem keeps_withHandle {sK : State} (s : State) (d : Dev) (h : Hdr) (op : BitVec 8) (f : Half → State → State) (light : Bool := false) (job : Option (BitVec 15) := none) (h_f : ∀ x0 x1, sK.Keeps x1 → sK.Keeps (f x0 x1)) (hK : sK.Keeps s) : sK.Keeps (State.withHandle s d h op f light job) := by
  unfold State.withHandle
  try dsimp only
  repeat' first | (with_reducible first | assumption | apply keeps_accept | (apply keepsE_accept; case' he => assumption)) | apply h_f | split | (apply Eq.refl) | exact selfTrue | exact selfChans | exact selfAnd | intro _

theorem keeps_refreshOffset {sK : State} (s : State) (d : Dev) (n : Nat) (hK : sK.Keeps s) : sK.Keeps (State.refreshOffset s d n) := by
  unfold State.refreshOffset
  try dsimp only
  repeat' first | (with_reducible first | assumption | apply keeps_modCtl | apply keeps_modLt) | split | (apply Eq.refl) | exact selfTrue | exact selfChans | exact selfAnd | intro _

theorem keeps_evalRef {sK : State} (s : State) (d : Dev) (r : Nat) (hK : sK.Keeps s) : sK.Keeps (State.evalRef s d r) := by
  unfold State.evalRef
  try dsimp only
  repeat' first | (with_reducible first | assumption | apply keeps_modRef) | split | (apply Eq.refl) | exact selfTrue | exact selfChans | exact selfAnd | intro _

theorem keeps_evalRefs {sK : State} (s : State) (d : Dev) (hK : sK.Keeps s) : sK.Keeps (State.evalRefs s d) := by
  unfold State.evalRefs
  try dsimp only
  repeat' first | (with_reducible first | assumption | apply keeps_evalRef | apply keeps_foldl) | split | (apply Eq.refl) | exact selfTrue | exact selfChans | exact selfAnd | intro _

theorem keeps_select {sK : State} (s : State) (d : Dev) (r : Nat) (hK : sK.Keeps s) : sK.Keeps (State.select s d r) := by
  unfold State.select
  try dsimp only
  repeat' first | (with_reducible first | assumption | apply keeps_modCr) | split | (apply Eq.refl) | exact selfTrue | exact selfChans | exact selfAnd | intro _

theorem keeps_unselect {sK : State} (s : State) (d : Dev) (hK : sK.Keeps s) : sK.Keeps (State.unselect s d) := by
  unfold State.unselect
  try dsimp only
  repeat' first | (with_reducible first | assumption | apply keeps_modCr) | split | (apply Eq.refl) | exact selfTrue | exact selfChans | exact selfAnd | intro _

theorem keeps_buildOut {sK : State} (s : State) (d : Dev) (step : Int) (hK : sK.Keeps s) : sK.Keeps (State.buildOut s d step) := by
  unfold State.buildOut
  try dsimp only
  repeat' first | (with_reducible first | assumption | apply keeps_modCr) | split | (apply Eq.refl) | exact selfTrue | exact selfChans | exact selfAnd | intro _

theorem keeps_anchorRef {sK : State} (s : State) (d : Dev) (r : Nat) (hK : sK.Keeps s) : sK.Keeps (State.anchorRef s d r) := by
  unfold State.anchorRef
  try dsimp only
  repeat' first | (with_reducible first | assumption | apply keeps_modRef) | split | (apply Eq.refl) | exact selfTrue | exact selfChans | exact selfAnd | intro _

theorem keeps_anchorExt {sK : State} (s : State) (d : Dev) (r : Nat) (hK : sK.Keeps s) : sK.Keeps (State.anchorExt s d r) := by
  unfold State.anchorExt
  try dsimp only
  repeat' first | (with_reducible first | assumption | apply keeps_anchorRef) | split | (apply Eq.refl) | exact selfTrue | exact selfChans | exact selfAnd | intro _

theorem keeps_switchRef {sK : State} (s0 : State) (d : Dev) (r : Nat) (hK : sK.Keeps s0) : sK.Keeps (State.switchRef s0 d r) := by
  unfold State.switchRef
  try dsimp only
  repeat' first | (with_reducible first | assumption | apply keeps_anchorExt | apply keeps_buildOut | apply keeps_select) | split | (apply Eq.refl) | exact selfTrue | exact selfChans | exact selfAnd | intro _

theorem keeps_followLink {sK : State} (s : State) (d : Dev) (hK : sK.Keeps s) : sK.Keeps (State.followLink s d) := by
  unfold State.followLink
  try dsimp only
  repeat' first | (with_reducible first | assumption | apply keeps_buildOut | apply keeps_modCr) | split | (apply Eq.refl) | exact selfTrue | exact selfChans | exact selfAnd | intro _

theorem keeps_enterHoldover {sK : State} (s : State) (d : Dev) (hK : sK.Keeps s) : sK.Keeps (State.enterHoldover s d) := by
  unfold State.enterHoldover
  try dsimp only
  repeat' first | (with_reducible first | assumption | apply keeps_modCr | apply keeps_modTime | apply keeps_unselect) | split | (apply Eq.refl) | exact selfTrue | exact selfChans | exact selfAnd | intro _

theorem keeps_leaveHoldover {sK : State} (s0 : State) (d : Dev) (r : Nat) (hK : sK.Keeps s0) : sK.Keeps (State.leaveHoldover s0 d r) := by
  unfold State.leaveHoldover
  try dsimp only
  repeat' first | (with_reducible first | assumption | apply keeps_anchorExt | apply keeps_modCr | apply keeps_modTime | apply keeps_select) | split | (apply Eq.refl) | exact selfTrue | exact selfChans | exact selfAnd | intro _

theorem keeps_crFree {sK : State} (s : State) (d : Dev) (hK : sK.Keeps s) : sK.Keeps (State.crFree s d) := by
  unfold State.crFree
  try dsimp only
  repeat' first | (with_reducible first | assumption | apply keeps_modCr | apply keeps_unselect) | split | (apply Eq.refl) | exact selfTrue | exact selfChans | exact selfAnd | intro _

theorem keeps_resyncNow {sK : State} (s : State) (d : Dev) (hK : sK.Keeps s) : sK.Keeps (State.resyncNow s d) := by
  unfold State.resyncNow
  try dsimp only
  repeat' first | (with_reducible first | assumption | apply keeps_crFree | apply keeps_endLevel | apply keeps_modCr | apply keeps_modTime) | split | (apply Eq.refl) | exact selfTrue | exact selfChans | exact selfAnd | intro _

theorem keeps_epochFollow {sK : State} (s : State) (d : Dev) (hK : sK.Keeps s) : sK.Keeps (State.epochFollow s d) := by
  unfold State.epochFollow
  try dsimp only
  repeat' first | (with_reducible first | assumption | apply keeps_modSec | apply keeps_modTime | apply keeps_resyncNow) | split | (apply Eq.refl) | exact selfTrue | exact selfChans | exact selfAnd | intro _

theorem keeps_startAcquire {sK : State} (s : State) (d : Dev) (r : Nat) (hK : sK.Keeps s) : sK.Keeps (State.startAcquire s d r) := by
  unfold State.startAcquire
  try dsimp only
  repeat' first | (with_reducible first | assumption | apply keeps_modCr | apply keeps_modTime | apply keeps_select) | split | (apply Eq.refl) | exact selfTrue | exact selfChans | exact selfAnd | intro _

theorem keeps_acquireOn {sK : State} (s : State) (d : Dev) (r : Nat) (hK : sK.Keeps s) : sK.Keeps (State.acquireOn s d r) := by
  unfold State.acquireOn
  try dsimp only
  repeat' first | (with_reducible first | assumption | apply keeps_modCr | apply keeps_modTime | apply keeps_select) | split | (apply Eq.refl) | exact selfTrue | exact selfChans | exact selfAnd | intro _

theorem keeps_acquireEnd {sK : State} (s : State) (d : Dev) (hK : sK.Keeps s) : sK.Keeps (State.acquireEnd s d) := by
  unfold State.acquireEnd
  try dsimp only
  repeat' first | (with_reducible first | assumption | apply keeps_crFree | apply keeps_modTime) | split | (apply Eq.refl) | exact selfTrue | exact selfChans | exact selfAnd | intro _

theorem keeps_rootTrack {sK : State} (s : State) (d : Dev) (r : Nat) (hK : sK.Keeps s) : sK.Keeps (State.rootTrack s d r) := by
  unfold State.rootTrack
  try dsimp only
  repeat' first | (with_reducible first | assumption | apply keeps_anchorRef | apply keeps_leaveHoldover | apply keeps_modCr | apply keeps_select | apply keeps_track) | split | (apply Eq.refl) | exact selfTrue | exact selfChans | exact selfAnd | intro _

theorem keeps_manualEnd {sK : State} (s : State) (d : Dev) (hK : sK.Keeps s) : sK.Keeps (State.manualEnd s d) := by
  unfold State.manualEnd
  try dsimp only
  repeat' first | (with_reducible first | assumption | apply keeps_modCr) | split | (apply Eq.refl) | exact selfTrue | exact selfChans | exact selfAnd | intro _

theorem keeps_selectFree {sK : State} (s : State) (d : Dev) (hK : sK.Keeps s) : sK.Keeps (State.selectFree s d) := by
  unfold State.selectFree
  try dsimp only
  repeat' first | (with_reducible first | assumption | apply keeps_rootTrack | apply keeps_startAcquire) | split | (apply Eq.refl) | exact selfTrue | exact selfChans | exact selfAnd | intro _

theorem keeps_selectAcquire {sK : State} (s : State) (d : Dev) (hK : sK.Keeps s) : sK.Keeps (State.selectAcquire s d) := by
  unfold State.selectAcquire
  try dsimp only
  repeat' first | (with_reducible first | assumption | apply keeps_acquireEnd | apply keeps_acquireOn) | split | (apply Eq.refl) | exact selfTrue | exact selfChans | exact selfAnd | intro _

theorem keeps_selectTrack {sK : State} (s : State) (d : Dev) (hK : sK.Keeps s) : sK.Keeps (State.selectTrack s d) := by
  unfold State.selectTrack
  try dsimp only
  repeat' first | (with_reducible first | assumption | apply keeps_enterHoldover | apply keeps_switchRef) | split | (apply Eq.refl) | exact selfTrue | exact selfChans | exact selfAnd | intro _

theorem keeps_lostResync {sK : State} (s : State) (d : Dev) (hK : sK.Keeps s) : sK.Keeps (State.lostResync s d) := by
  unfold State.lostResync
  try dsimp only
  repeat' first | (with_reducible first | assumption | apply keeps_resyncNow) | split | (apply Eq.refl) | exact selfTrue | exact selfChans | exact selfAnd | intro _

theorem keeps_selectHoldover {sK : State} (s : State) (d : Dev) (hK : sK.Keeps s) : sK.Keeps (State.selectHoldover s d) := by
  unfold State.selectHoldover
  try dsimp only
  repeat' first | (with_reducible first | assumption | apply keeps_leaveHoldover | apply keeps_lostResync) | split | (apply Eq.refl) | exact selfTrue | exact selfChans | exact selfAnd | intro _

theorem keeps_selectNamed {sK : State} (s : State) (d : Dev) (hK : sK.Keeps s) : sK.Keeps (State.selectNamed s d) := by
  unfold State.selectNamed
  try dsimp only
  repeat' first | (with_reducible first | assumption | apply keeps_enterHoldover | apply keeps_switchRef) | split | (apply Eq.refl) | exact selfTrue | exact selfChans | exact selfAnd | intro _

theorem keeps_crSelect {sK : State} (s0 : State) (d : Dev) (hK : sK.Keeps s0) : sK.Keeps (State.crSelect s0 d) := by
  unfold State.crSelect
  try dsimp only
  repeat' first | (with_reducible first | assumption | apply keeps_enterHoldover | apply keeps_epochFollow | apply keeps_evalRefs | apply keeps_followLink | apply keeps_lostResync | apply keeps_manualEnd | apply keeps_selectAcquire | apply keeps_selectFree | apply keeps_selectHoldover | apply keeps_selectNamed | apply keeps_selectTrack | apply keeps_track) | split | (apply Eq.refl) | exact selfTrue | exact selfChans | exact selfAnd | intro _

theorem keeps_enterLocked {sK : State} (s : State) (d : Dev) (hK : sK.Keeps s) : sK.Keeps (State.enterLocked s d) := by
  unfold State.enterLocked
  try dsimp only
  repeat' first | (with_reducible first | assumption | apply keeps_modCr | apply keeps_modTime | apply keeps_post) | split | (apply Eq.refl) | exact selfTrue | exact selfChans | exact selfAnd | intro _

theorem keeps_timingDone {sK : State} (s : State) (d : Dev) (n : Nat) (hK : sK.Keeps s) : sK.Keeps (State.timingDone s d n) := by
  unfold State.timingDone
  try dsimp only
  repeat' first | (with_reducible first | assumption | apply keeps_endLinkLevel | apply keeps_modCtl | apply keeps_modRx | apply keeps_raiseLink) | split | (apply Eq.refl) | exact selfTrue | exact selfChans | exact selfAnd | intro _

theorem keeps_modSync {sK : State} (s : State) (f : Sync → Sync) (hK : sK.Keeps s) : sK.Keeps (State.modSync s f) := by
  unfold State.modSync
  try dsimp only
  repeat' first | (with_reducible first | assumption | apply keeps_modTsu) | split | (apply Eq.refl) | exact selfTrue | exact selfChans | exact selfAnd | intro _

theorem keeps_setSlot {sK : State} (s : State) (key : Nat) (v : BitVec 8) (hK : sK.Keeps s) : sK.Keeps (State.setSlot s key v) := by
  unfold State.setSlot
  try dsimp only
  repeat' first | (with_reducible first | assumption | apply keeps_modSync) | split | (apply Eq.refl) | exact selfTrue | exact selfChans | exact selfAnd | intro _

theorem keeps_modConj {sK : State} (s : State) (r : Nat) (f : ConjRec → ConjRec) (hK : sK.Keeps s) : sK.Keeps (State.modConj s r f) := by
  unfold State.modConj
  try dsimp only
  repeat' first | (with_reducible first | assumption | apply keeps_modSync) | split | (apply Eq.refl) | exact selfTrue | exact selfChans | exact selfAnd | intro _

theorem keeps_sramSpan {sK : State} (s : State) (tbl ch lo hi : Nat) (hK : sK.Keeps s) : sK.Keeps (State.sramSpan s tbl ch lo hi) := by
  unfold State.sramSpan
  try dsimp only
  repeat' first | (with_reducible first | assumption | apply keeps_modTsu) | split | (apply Eq.refl) | exact selfTrue | exact selfChans | exact selfAnd | intro _

theorem keeps_sramWrite {sK : State} (s : State) (tbl ch word : Nat) (hK : sK.Keeps s) : sK.Keeps (State.sramWrite s tbl ch word) := by
  unfold State.sramWrite
  try dsimp only
  repeat' first | (with_reducible first | assumption | apply keeps_sramSpan) | split | (apply Eq.refl) | exact selfTrue | exact selfChans | exact selfAnd | intro _

theorem keeps_restoreObjects {sK : State} (s : State) (c : Nat) (hK : sK.Keeps s) : sK.Keeps (State.restoreObjects s c) := by
  unfold State.restoreObjects
  try dsimp only
  repeat' first | (with_reducible first | assumption | apply keeps_modConj | apply keeps_modSync | apply keeps_setSlot | apply keeps_sramWrite | apply keeps_foldl) | split | (apply Eq.refl) | exact selfTrue | exact selfChans | exact selfAnd | intro _

theorem keeps_sendVote {sK : State} (s : State) (c : Nat) (ws : List Word) (hK : sK.Keeps s) : sK.Keeps (State.sendVote s c ws) := by
  unfold State.sendVote
  try dsimp only
  repeat' first | (with_reducible first | assumption | apply keeps_modTsu | apply keeps_send) | split | (apply Eq.refl) | exact selfTrue | exact selfChans | exact selfAnd | intro _

theorem keeps_earlyGate {sK : State} (s : State) (c : Nat) (hK : sK.Keeps s) : sK.Keeps (State.earlyGate s c) := by
  unfold State.earlyGate
  try dsimp only
  repeat' first | (with_reducible first | assumption | apply keeps_sendVote) | split | (apply Eq.refl) | exact selfTrue | exact selfChans | exact selfAnd | intro _

theorem keeps_dropWait {sK : State} (s : State) (w : Waiter) (hK : sK.Keeps s) : sK.Keeps (State.dropWait s w) := by
  unfold State.dropWait
  try dsimp only
  repeat' first | (with_reducible first | assumption | apply keeps_modSync) | split | (apply Eq.refl) | exact selfTrue | exact selfChans | exact selfAnd | intro _

theorem keeps_answerCore {sK : State} (s : State) (core : BitVec 11) (kind : Nat) (tag : BitVec 16) (hK : sK.Keeps s) : sK.Keeps (State.answerCore s core kind tag) := by
  unfold State.answerCore
  try dsimp only
  repeat' first | (with_reducible first | assumption | apply keeps_modSync) | split | (apply Eq.refl) | exact selfTrue | exact selfChans | exact selfAnd | intro _

theorem keeps_coreRsp {sK : State} (s : State) (r : WaitRec) (kind : Nat) (hK : sK.Keeps s) : sK.Keeps (State.coreRsp s r kind) := by
  unfold State.coreRsp
  try dsimp only
  repeat' first | (with_reducible first | assumption | apply keeps_answerCore) | split | (apply Eq.refl) | exact selfTrue | exact selfChans | exact selfAnd | intro _

theorem keeps_cancelWaits {sK : State} (s : State) (c : Nat) (hK : sK.Keeps s) : sK.Keeps (State.cancelWaits s c) := by
  unfold State.cancelWaits
  try dsimp only
  repeat' first | (with_reducible first | assumption | apply keeps_coreRsp | apply keeps_modSync | apply keeps_foldl) | split | (apply Eq.refl) | exact selfTrue | exact selfChans | exact selfAnd | intro _

theorem chanOk_of {x y : Chan} (h : x.tablesOk = true) (hp : Table.wf 0 x.prog.loops = true → Table.wf 0 x.bnd.loops = true →
    Table.wf 0 y.prog.loops = true ∧ Table.wf 0 y.bnd.loops = true) : y.tablesOk = true := by
  simp only [Chan.tablesOk, Bool.and_eq_true] at h ⊢
  exact hp h.1 h.2

theorem keeps_writeBoundary {sK : State} (s : State) (c : Nat) (index : BitVec 16) (tick : Tick) (hK : sK.Keeps s) : sK.Keeps (State.writeBoundary s c index tick) := by
  unfold State.writeBoundary
  try dsimp only
  repeat' first | (with_reducible first | assumption | apply keeps_modChan | apply keeps_sramSpan) | (exact fun (h : Chan.tablesOk _ = true) => chanOk_of h fun hp hb => ⟨hp, hp⟩) | split | (apply Eq.refl) | exact selfTrue | exact selfChans | exact selfAnd | intro _

theorem keeps_noteParity {sK : State} (s : State) (tbl c lo : Nat) (hK : sK.Keeps s) : sK.Keeps (State.noteParity s tbl c lo) := by
  unfold State.noteParity
  try dsimp only
  repeat' first | (with_reducible first | assumption | apply keeps_modTsu | apply keeps_raiseChan) | split | (apply Eq.refl) | exact selfTrue | exact selfChans | exact selfAnd | intro _

theorem keeps_nfPresent {sK : State} (s : State) (clear : Bool) (ch : Option Nat) (path : Half) (hK : sK.Keeps s) : sK.Keeps (State.nfPresent s clear ch path) := by
  unfold State.nfPresent
  try dsimp only
  repeat' first | (with_reducible first | assumption | apply keeps_emit | apply keeps_modTsu) | split | (apply Eq.refl) | exact selfTrue | exact selfChans | exact selfAnd | intro _

theorem keeps_clearFilter {sK : State} (s : State) (f : Filter) (hK : sK.Keeps s) : sK.Keeps (State.clearFilter s f) := by
  unfold State.clearFilter
  try dsimp only
  repeat' first | (with_reducible first | assumption | apply keeps_modTsu | apply keeps_nfPresent) | split | (apply Eq.refl) | exact selfTrue | exact selfChans | exact selfAnd | intro _

theorem keeps_unbindFilters {sK : State} (s : State) (c : Nat) (hK : sK.Keeps s) : sK.Keeps (State.unbindFilters s c) := by
  unfold State.unbindFilters
  try dsimp only
  repeat' first | (with_reducible first | assumption | apply keeps_clearFilter | apply keeps_modTsu | apply keeps_foldl) | split | (apply Eq.refl) | exact selfTrue | exact selfChans | exact selfAnd | intro _

theorem keeps_writeSels {sK : State} (s : State) (c : Nat) (hK : sK.Keeps s) : sK.Keeps (State.writeSels s c) := by
  unfold State.writeSels
  try dsimp only
  repeat' first | (with_reducible first | assumption | apply keeps_sramSpan) | split | (apply Eq.refl) | exact selfTrue | exact selfChans | exact selfAnd | intro _

theorem keeps_enterHeld {sK : State} (s : State) (c cause : Nat) (hK : sK.Keeps s) : sK.Keeps (State.enterHeld s c cause) := by
  unfold State.enterHeld
  try dsimp only
  repeat' first | (with_reducible first | assumption | apply keeps_modChan | apply keeps_noteParity | apply keeps_restoreObjects | apply keeps_unbindFilters | apply keeps_writeSels) | (exact fun (h : Chan.tablesOk _ = true) => chanOk_of h fun hp hb => ⟨hb, hb⟩) | split | (apply Eq.refl) | exact selfTrue | exact selfChans | exact selfAnd | intro _

theorem keeps_stopStreams {sK : State} (s : State) (c : Nat) (hK : sK.Keeps s) : sK.Keeps (State.stopStreams s c) := by
  unfold State.stopStreams
  try dsimp only
  repeat' first | (with_reducible first | assumption | apply keeps_emit | apply keeps_modChan) | split | (apply Eq.refl) | exact selfTrue | exact selfChans | exact selfAnd | intro _

theorem keeps_addCause {sK : State} (s : State) (c cause : Nat) (hK : sK.Keeps s) : sK.Keeps (State.addCause s c cause) := by
  unfold State.addCause
  try dsimp only
  repeat' first | (with_reducible first | assumption | apply keeps_modChan) | split | (apply Eq.refl) | exact selfTrue | exact selfChans | exact selfAnd | intro _

theorem keeps_stopOne {sK : State} (s : State) (c cause : Nat) (hK : sK.Keeps s) : sK.Keeps (State.stopOne s c cause) := by
  unfold State.stopOne
  try dsimp only
  repeat' first | (with_reducible first | assumption | apply keeps_addCause | apply keeps_cancelWaits | apply keeps_earlyGate | apply keeps_emit | apply keeps_enterHeld | apply keeps_stopStreams) | split | (apply Eq.refl) | exact selfTrue | exact selfChans | exact selfAnd | intro _

theorem keeps_gateFence {sK : State} (s : State) (c : Nat) (code : Code) (ctx : Ctx) (hK : sK.Keeps s) : sK.Keeps (State.gateFence s c code ctx) := by
  unfold State.gateFence
  try dsimp only
  repeat' first | (with_reducible first | assumption | apply keeps_report) | split | (apply Eq.refl) | exact selfTrue | exact selfChans | exact selfAnd | intro _

theorem keeps_stopMates {sK : State} (s : State) (mates : List Nat) (code : Code) (ctx : Ctx) (hK : sK.Keeps s) : sK.Keeps (State.stopMates s mates code ctx) := by
  unfold State.stopMates
  try dsimp only
  repeat' first | (with_reducible first | assumption | apply keeps_gateFence | apply keeps_stopOne | apply keeps_foldl) | split | (apply Eq.refl) | exact selfTrue | exact selfChans | exact selfAnd | intro _

theorem keeps_stopStep {sK : State} (s : State) (c cause : Nat) (code : Code) (ctx : Ctx) (hK : sK.Keeps s) : sK.Keeps (State.stopStep s c cause code ctx) := by
  unfold State.stopStep
  try dsimp only
  repeat' first | (with_reducible first | assumption | apply keeps_addCause | apply keeps_gateFence | apply keeps_stopMates | apply keeps_stopOne) | split | (apply Eq.refl) | exact selfTrue | exact selfChans | exact selfAnd | intro _

theorem keeps_stepFault {sK : State} (s : State) (c : Nat) (code : Code) (ctx : Ctx) (hK : sK.Keeps s) : sK.Keeps (State.stepFault s c code ctx) := by
  unfold State.stepFault
  try dsimp only
  repeat' first | (with_reducible first | assumption | apply keeps_raiseChan | apply keeps_stopStep) | split | (apply Eq.refl) | exact selfTrue | exact selfChans | exact selfAnd | intro _

theorem keeps_judgedFault {sK : State} (s : State) (c : Nat) (code : Code) (ctx : Ctx) (hK : sK.Keeps s) : sK.Keeps (State.judgedFault s c code ctx) := by
  unfold State.judgedFault
  try dsimp only
  repeat' first | (with_reducible first | assumption | apply keeps_modProg | apply keeps_stepFault) | split | (apply Eq.refl) | exact selfTrue | exact selfChans | exact selfAnd | intro _

theorem keeps_enterStopped {sK : State} (s : State) (c cause : Nat) (code : Code) (ctx : Ctx) (hK : sK.Keeps s) : sK.Keeps (State.enterStopped s c cause code ctx) := by
  unfold State.enterStopped
  try dsimp only
  repeat' first | (with_reducible first | assumption | apply keeps_cancelWaits | apply keeps_earlyGate | apply keeps_gateFence | apply keeps_modChan | apply keeps_stopMates | apply keeps_stopStreams) | split | (apply Eq.refl) | exact selfTrue | exact selfChans | exact selfAnd | intro _

theorem keeps_wantHold {sK : State} (s : State) (c cause : Nat) (hK : sK.Keeps s) : sK.Keeps (State.wantHold s c cause) := by
  unfold State.wantHold
  try dsimp only
  repeat' first | (with_reducible first | assumption | apply keeps_modChan) | split | (apply Eq.refl) | exact selfTrue | exact selfChans | exact selfAnd | intro _

theorem keeps_wantHoldAll {sK : State} (s : State) (cause : Nat) (hK : sK.Keeps s) : sK.Keeps (State.wantHoldAll s cause) := by
  unfold State.wantHoldAll
  try dsimp only
  repeat' first | (with_reducible first | assumption | apply keeps_wantHold | apply keeps_foldl) | split | (apply Eq.refl) | exact selfTrue | exact selfChans | exact selfAnd | intro _

theorem keeps_stopBound {sK : State} (s : State) (ctx : Ctx) (hK : sK.Keeps s) : sK.Keeps (State.stopBound s ctx) := by
  unfold State.stopBound
  try dsimp only
  repeat' first | (with_reducible first | assumption | apply keeps_stopStep | apply keeps_foldl) | split | (apply Eq.refl) | exact selfTrue | exact selfChans | exact selfAnd | intro _

theorem keeps_sramFault {sK : State} (s : State) (tbl ch word : Nat) (hK : sK.Keeps s) : sK.Keeps (State.sramFault s tbl ch word) := by
  unfold State.sramFault
  try dsimp only
  repeat' first | (with_reducible first | assumption | apply keeps_modTsu | apply keeps_raiseFault | apply keeps_stepFault | apply keeps_stopBound) | split | (apply Eq.refl) | exact selfTrue | exact selfChans | exact selfAnd | intro _

theorem keeps_parityStop {sK : State} (s : State) (hK : sK.Keeps s) : sK.Keeps (State.parityStop s) := by
  unfold State.parityStop
  try dsimp only
  repeat' first | (with_reducible first | assumption | apply keeps_modTsu | apply keeps_stopBound) | split | (apply Eq.refl) | exact selfTrue | exact selfChans | exact selfAnd | intro _

theorem keeps_sramRead {sK : State} (s : State) (tbl ch word : Nat) (f : State → State) (h_f : ∀ x0, sK.Keeps x0 → sK.Keeps (f x0)) (hK : sK.Keeps s) : sK.Keeps (State.sramRead s tbl ch word f) := by
  unfold State.sramRead
  try dsimp only
  repeat' first | (with_reducible first | assumption | apply keeps_sramFault) | apply h_f | split | (apply Eq.refl) | exact selfTrue | exact selfChans | exact selfAnd | intro _

theorem keeps_snapCheck {sK : State} (s : State) (c : Nat) (hK : sK.Keeps s) : sK.Keeps (State.snapCheck s c) := by
  unfold State.snapCheck
  try dsimp only
  repeat' first | (with_reducible first | assumption | apply keeps_sramFault | apply keeps_foldl) | split | (apply Eq.refl) | exact selfTrue | exact selfChans | exact selfAnd | intro _

theorem keeps_repeatBroken {sK : State} (s : State) (c : Nat) (ctx : Ctx) (hK : sK.Keeps s) : sK.Keeps (State.repeatBroken s c ctx) := by
  unfold State.repeatBroken
  try dsimp only
  repeat' first | (with_reducible first | assumption | apply keeps_raiseChan) | split | (apply Eq.refl) | exact selfTrue | exact selfChans | exact selfAnd | intro _

theorem keeps_mainIn {sK : State} (s : State) (f : State → State) (h_f : ∀ x0, sK.Keeps x0 → sK.Keeps (f x0)) (hK : sK.Keeps s) : ResKeeps sK (State.mainIn s f) := by
  unfold State.mainIn
  try dsimp only
  repeat' first | (with_reducible first | assumption | apply keeps_due | apply resKeeps_next | (apply keepsN_due; case' he => assumption)) | apply h_f | split | (apply Eq.refl) | exact selfTrue | exact selfChans | exact selfAnd | intro _

theorem keepsN_mainIn {sK : State} (s : State) (f : State → State) (h_f : ∀ x0, sK.Keeps x0 → sK.Keeps (f x0)) {t' : State} (he : (State.mainIn s f) = .next t') (hK : sK.Keeps s) : sK.Keeps t' := keeps_mainIn s f h_f hK t' he

theorem keeps_stepIn {sK : State} (s : State) (d : Dev) (f : State → State) (h_f : ∀ x0, sK.Keeps x0 → sK.Keeps (f x0)) (hK : sK.Keeps s) : ResKeeps sK (State.stepIn s d f) := by
  unfold State.stepIn
  try dsimp only
  repeat' first | (with_reducible first | assumption | apply keeps_due | apply resKeeps_next | (apply keepsN_due; case' he => assumption)) | apply h_f | split | (apply Eq.refl) | exact selfTrue | exact selfChans | exact selfAnd | intro _

theorem keepsN_stepIn {sK : State} (s : State) (d : Dev) (f : State → State) (h_f : ∀ x0, sK.Keeps x0 → sK.Keeps (f x0)) {t' : State} (he : (State.stepIn s d f) = .next t') (hK : sK.Keeps s) : sK.Keeps t' := keeps_stepIn s d f h_f hK t' he

theorem keeps_sentCode {sK : State} (s : State) (d : Dev) (n : Nat) (hK : sK.Keeps s) : sK.Keeps (State.sentCode s d n) := by
  unfold State.sentCode
  try dsimp only
  repeat' first | (with_reducible first | assumption | apply keeps_modLt) | split | (apply Eq.refl) | exact selfTrue | exact selfChans | exact selfAnd | intro _

theorem keeps_execTimeCodeSend {sK : State} (d : Dev) (n : Nat) (s : State) (hK : sK.Keeps s) : ResKeeps sK (execTimeCodeSend d n s) := by
  unfold execTimeCodeSend
  try dsimp only
  repeat' first | (with_reducible first | assumption | apply keeps_due | apply keeps_modTx | apply keeps_sentCode | apply resKeeps_next | (apply keepsN_due; case' he => assumption)) | split | (apply Eq.refl) | exact selfTrue | exact selfChans | exact selfAnd | intro _

theorem keeps_restamp {sK : State} (s : State) (d : Dev) (n : Nat) (hK : sK.Keeps s) : sK.Keeps (State.restamp s d n) := by
  unfold State.restamp
  try dsimp only
  repeat' first | (with_reducible first | assumption | apply keeps_modLt | apply keeps_modTx) | split | (apply Eq.refl) | exact selfTrue | exact selfChans | exact selfAnd | intro _

theorem keeps_codeReplayed {sK : State} (s : State) (d : Dev) (n : Nat) (c : BitVec 128) (hK : sK.Keeps s) : sK.Keeps (State.codeReplayed s d n c) := by
  unfold State.codeReplayed
  try dsimp only
  repeat' first | (with_reducible first | assumption | apply keeps_modLt) | split | (apply Eq.refl) | exact selfTrue | exact selfChans | exact selfAnd | intro _

theorem keeps_endSkew {sK : State} (s : State) (d : Dev) (hK : sK.Keeps s) : sK.Keeps (State.endSkew s d) := by
  unfold State.endSkew
  try dsimp only
  repeat' first | (with_reducible first | assumption | apply keeps_endLinkLevel) | split | (apply Eq.refl) | exact selfTrue | exact selfChans | exact selfAnd | intro _

theorem keeps_skewCheck {sK : State} (s : State) (d : Dev) (n : Nat) (hK : sK.Keeps s) : sK.Keeps (State.skewCheck s d n) := by
  unfold State.skewCheck
  try dsimp only
  repeat' first | (with_reducible first | assumption | apply keeps_endSkew | apply keeps_modTime) | split | (apply Eq.refl) | exact selfTrue | exact selfChans | exact selfAnd | intro _

theorem keeps_reflectFinish {sK : State} (s : State) (d : Dev) (n : Nat) (hK : sK.Keeps s) : sK.Keeps (State.reflectFinish s d n) := by
  unfold State.reflectFinish
  try dsimp only
  repeat' first | (with_reducible first | assumption | apply keeps_emit | apply keeps_modAsym | apply keeps_post) | split | (apply Eq.refl) | exact selfTrue | exact selfChans | exact selfAnd | intro _

theorem keeps_offsetCheck {sK : State} (s : State) (d : Dev) (hK : sK.Keeps s) : sK.Keeps (State.offsetCheck s d) := by
  unfold State.offsetCheck
  try dsimp only
  repeat' first | (with_reducible first | assumption | apply keeps_modCr | apply keeps_track) | split | (apply Eq.refl) | exact selfTrue | exact selfChans | exact selfAnd | intro _

theorem keeps_afterValid {sK : State} (s : State) (d : Dev) (n : Nat) (hK : sK.Keeps s) : sK.Keeps (State.afterValid s d n) := by
  unfold State.afterValid
  try dsimp only
  repeat' first | (with_reducible first | assumption | apply keeps_modTime | apply keeps_offsetCheck | apply keeps_reflectFinish | apply keeps_refreshOffset | apply keeps_skewCheck) | split | (apply Eq.refl) | exact selfTrue | exact selfChans | exact selfAnd | intro _

theorem keeps_childCode {sK : State} (s : State) (d : Dev) (n : Nat) (code : BitVec 128) (replayed parityOk : Bool) (hK : sK.Keeps s) : sK.Keeps (State.childCode s d n code replayed parityOk) := by
  unfold State.childCode
  try dsimp only
  repeat' first | (with_reducible first | assumption | apply keeps_afterValid | apply keeps_crSelect | apply keeps_evalRefs | apply keeps_modLt | apply keeps_raiseLevel) | split | (apply Eq.refl) | exact selfTrue | exact selfChans | exact selfAnd | intro _

theorem keeps_parentCode {sK : State} (s : State) (d : Dev) (n : Nat) (code : BitVec 128) (replayed parityOk : Bool) (hK : sK.Keeps s) : sK.Keeps (State.parentCode s d n code replayed parityOk) := by
  unfold State.parentCode
  try dsimp only
  repeat' first | (with_reducible first | assumption | apply keeps_fresh | apply keeps_modLt | apply keeps_reflectFinish | apply keeps_refreshOffset | (apply keepsE_fresh; case' he => assumption)) | exact keeps_fresh hK | split | (apply Eq.refl) | exact selfTrue | exact selfChans | exact selfAnd | intro _

theorem keeps_execTimeCodeRx {sK : State} (d : Dev) (n : Nat) (code : BitVec 128) (replayed peOk poOk : Bool) (s : State) (hK : sK.Keeps s) : ResKeeps sK (execTimeCodeRx d n code replayed peOk poOk s) := by
  unfold execTimeCodeRx
  try dsimp only
  repeat' first | (with_reducible first | assumption | apply keeps_childCode | apply keeps_consume | apply keeps_modLt | apply keeps_parentCode | apply keeps_timingDone | apply resKeeps_next) | split | (apply Eq.refl) | exact selfTrue | exact selfChans | exact selfAnd | intro _

theorem keeps_execParentLost {sK : State} (d : Dev) (n : Nat) (s : State) (hK : sK.Keeps s) : ResKeeps sK (execParentLost d n s) := by
  unfold execParentLost
  try dsimp only
  repeat' first | (with_reducible first | assumption | apply keeps_crSelect | apply keeps_due | apply keeps_modLt | apply resKeeps_next | (apply keepsN_due; case' he => assumption)) | split | (apply Eq.refl) | exact selfTrue | exact selfChans | exact selfAnd | intro _

theorem keeps_execTimeParentSkew {sK : State} (d : Dev) (s : State) (hK : sK.Keeps s) : ResKeeps sK (execTimeParentSkew d s) := by
  unfold execTimeParentSkew
  try dsimp only
  repeat' first | (with_reducible first | assumption | apply keeps_due | apply keeps_raiseLinkLevel | apply resKeeps_next | (apply keepsN_due; case' he => assumption)) | split | (apply Eq.refl) | exact selfTrue | exact selfChans | exact selfAnd | intro _

theorem keeps_becomeMaster {sK : State} (s : State) (hK : sK.Keeps s) : sK.Keeps (State.becomeMaster s) := by
  unfold State.becomeMaster
  try dsimp only
  repeat' first | (with_reducible first | assumption | apply keeps_crSelect | apply keeps_modCr | apply keeps_modJup | apply keeps_modTime | apply keeps_raiseFault | apply keeps_unselect) | split | (apply Eq.refl) | exact selfTrue | exact selfChans | exact selfAnd | intro _

theorem keeps_followMaster {sK : State} (s : State) (hK : sK.Keeps s) : sK.Keeps (State.followMaster s) := by
  unfold State.followMaster
  try dsimp only
  repeat' first | (with_reducible first | assumption | apply keeps_crSelect | apply keeps_modJup) | split | (apply Eq.refl) | exact selfTrue | exact selfChans | exact selfAnd | intro _

theorem keeps_execTimeMasterChange {sK : State} (masterLost otherLost : Bool) (s : State) (hK : sK.Keeps s) : ResKeeps sK (execTimeMasterChange masterLost otherLost s) := by
  unfold execTimeMasterChange
  try dsimp only
  repeat' first | (with_reducible first | assumption | apply keeps_becomeMaster | apply keeps_due | apply keeps_followMaster | apply resKeeps_next | (apply keepsN_due; case' he => assumption)) | split | (apply Eq.refl) | exact selfTrue | exact selfChans | exact selfAnd | intro _

theorem keeps_execTimeLost {sK : State} (d : Dev) (s : State) (hK : sK.Keeps s) : ResKeeps sK (execTimeLost d s) := by
  unfold execTimeLost
  try dsimp only
  repeat' first | (with_reducible first | assumption | apply keeps_due | apply keeps_modTime | apply keeps_raiseLevel | apply keeps_wantHoldAll | apply resKeeps_next | (apply keepsN_due; case' he => assumption)) | split | (apply Eq.refl) | exact selfTrue | exact selfChans | exact selfAnd | intro _

theorem keeps_rebase {sK : State} (s : State) (d : Dev) (k : Tick) (hK : sK.Keeps s) : sK.Keeps (State.rebase s d k) := by
  unfold State.rebase
  try dsimp only
  repeat' first | (with_reducible first | assumption | apply keeps_modCom) | split | (apply Eq.refl) | exact selfTrue | exact selfChans | exact selfAnd | intro _

theorem keeps_coarseLoad {sK : State} (s : State) (d : Dev) (n : Nat) (hK : sK.Keeps s) : sK.Keeps (State.coarseLoad s d n) := by
  unfold State.coarseLoad
  try dsimp only
  repeat' first | (with_reducible first | assumption | apply keeps_modCr | apply keeps_modTime | apply keeps_rebase) | split | (apply Eq.refl) | exact selfTrue | exact selfChans | exact selfAnd | intro _

theorem keeps_execCoarseLoad {sK : State} (d : Dev) (s : State) (hK : sK.Keeps s) : ResKeeps sK (execCoarseLoad d s) := by
  unfold execCoarseLoad
  try dsimp only
  repeat' first | (with_reducible first | assumption | apply keeps_coarseLoad | apply keeps_due | apply resKeeps_next | (apply keepsN_due; case' he => assumption)) | split | (apply Eq.refl) | exact selfTrue | exact selfChans | exact selfAnd | intro _

theorem keeps_lockDwellPassed {sK : State} (s : State) (d : Dev) (hK : sK.Keeps s) : sK.Keeps (State.lockDwellPassed s d) := by
  unfold State.lockDwellPassed
  try dsimp only
  repeat' first | (with_reducible first | assumption | apply keeps_enterLocked | apply keeps_modCr | apply keeps_modTime) | split | (apply Eq.refl) | exact selfTrue | exact selfChans | exact selfAnd | intro _

theorem keeps_dwellAgain {sK : State} (s : State) (d : Dev) (hK : sK.Keeps s) : sK.Keeps (State.dwellAgain s d) := by
  unfold State.dwellAgain
  try dsimp only
  repeat' first | (with_reducible first | assumption | apply keeps_modCr) | split | (apply Eq.refl) | exact selfTrue | exact selfChans | exact selfAnd | intro _

theorem keeps_dwellEnd {sK : State} (s : State) (d : Dev) (hK : sK.Keeps s) : sK.Keeps (State.dwellEnd s d) := by
  unfold State.dwellEnd
  try dsimp only
  repeat' first | (with_reducible first | assumption | apply keeps_dwellAgain | apply keeps_lockDwellPassed | apply keeps_modCr) | split | (apply Eq.refl) | exact selfTrue | exact selfChans | exact selfAnd | intro _

theorem keeps_execDwellEnd {sK : State} (d : Dev) (s : State) (hK : sK.Keeps s) : ResKeeps sK (execDwellEnd d s) := by
  unfold execDwellEnd
  try dsimp only
  repeat' first | (with_reducible first | assumption | apply keeps_due | apply keeps_dwellEnd | apply resKeeps_next | (apply keepsN_due; case' he => assumption)) | split | (apply Eq.refl) | exact selfTrue | exact selfChans | exact selfAnd | intro _

theorem keeps_execCrAcqFail {sK : State} (d : Dev) (s : State) (hK : sK.Keeps s) : ResKeeps sK (execCrAcqFail d s) := by
  unfold execCrAcqFail
  try dsimp only
  repeat' first | (with_reducible first | assumption | apply keeps_due | apply keeps_modCr | apply keeps_modTime | apply keeps_raiseFault | apply resKeeps_next | (apply keepsN_due; case' he => assumption)) | split | (apply Eq.refl) | exact selfTrue | exact selfChans | exact selfAnd | intro _

theorem keeps_execTimeResync {sK : State} (d : Dev) (h : Hdr) (s : State) (hK : sK.Keeps s) : ResKeeps sK (execTimeResync d h s) := by
  unfold execTimeResync
  try dsimp only
  repeat' first | (with_reducible first | assumption | apply keeps_modTime | apply keeps_post | apply keeps_resyncNow | apply keeps_withHandle | apply resKeeps_next) | split | (apply Eq.refl) | exact selfTrue | exact selfChans | exact selfAnd | intro _

theorem keepsN_execTimeResync {sK : State} (d : Dev) (h : Hdr) (s : State)  {t' : State} (he : (execTimeResync d h s) = .next t') (hK : sK.Keeps s) : sK.Keeps t' := keeps_execTimeResync d h s  hK t' he

theorem keeps_mapArrive {sK : State} (s : State) (r : MapRec) (hK : sK.Keeps s) : sK.Keeps (State.mapArrive s r) := by
  unfold State.mapArrive
  try dsimp only
  repeat' first | (with_reducible first | assumption | apply keeps_modJup) | split | (apply Eq.refl) | exact selfTrue | exact selfChans | exact selfAnd | intro _

theorem keeps_execMappingPublish {sK : State} (s : State) (hK : sK.Keeps s) : ResKeeps sK (execMappingPublish s) := by
  unfold execMappingPublish
  try dsimp only
  repeat' first | (with_reducible first | assumption | apply keeps_due | apply keeps_emit | apply keeps_mapArrive | apply keeps_modJup | apply resKeeps_next | (apply keepsN_due; case' he => assumption)) | split | (apply Eq.refl) | exact selfTrue | exact selfChans | exact selfAnd | intro _

theorem keeps_execMappingRecordRx {sK : State} (r : MapRec) (s : State) (hK : sK.Keeps s) : ResKeeps sK (execMappingRecordRx r s) := by
  unfold execMappingRecordRx
  try dsimp only
  repeat' first | (with_reducible first | assumption | apply keeps_mapArrive | apply resKeeps_next) | split | (apply Eq.refl) | exact selfTrue | exact selfChans | exact selfAnd | intro _

theorem keeps_execMappingApply {sK : State} (s : State) (hK : sK.Keeps s) : ResKeeps sK (execMappingApply s) := by
  unfold execMappingApply
  try dsimp only
  repeat' first | (with_reducible first | assumption | apply keeps_due | apply keeps_modJup | apply resKeeps_next | (apply keepsN_due; case' he => assumption)) | split | (apply Eq.refl) | exact selfTrue | exact selfChans | exact selfAnd | intro _

theorem keeps_execMappingHoldover {sK : State} (s : State) (hK : sK.Keeps s) : ResKeeps sK (execMappingHoldover s) := by
  unfold execMappingHoldover
  try dsimp only
  repeat' first | (with_reducible first | assumption | apply keeps_due | apply keeps_modJup | apply resKeeps_next | (apply keepsN_due; case' he => assumption)) | split | (apply Eq.refl) | exact selfTrue | exact selfChans | exact selfAnd | intro _

theorem keeps_execSetTod {sK : State} (h : Hdr) (sec : BitVec 48) (utc : BitVec 16) (leap : BitVec 2) (s : State) (hK : sK.Keeps s) : ResKeeps sK (execSetTod h sec utc leap s) := by
  unfold execSetTod
  try dsimp only
  repeat' first | (with_reducible first | assumption | apply keeps_modJup | apply keeps_post | apply keeps_withHandle | apply resKeeps_next | apply resKeeps_fault) | split | (apply Eq.refl) | exact selfTrue | exact selfChans | exact selfAnd | intro _

theorem keepsN_execSetTod {sK : State} (h : Hdr) (sec : BitVec 48) (utc : BitVec 16) (leap : BitVec 2) (s : State)  {t' : State} (he : (execSetTod h sec utc leap s) = .next t') (hK : sK.Keeps s) : sK.Keeps t' := keeps_execSetTod h sec utc leap s  hK t' he

theorem keeps_ntpServe {sK : State} (s : State) (key : Option (BitVec 16 × BitVec 128)) (body : List Word) (hK : sK.Keeps s) : sK.Keeps (State.ntpServe s key body) := by
  unfold State.ntpServe
  try dsimp only
  repeat' first | (with_reducible first | assumption | apply keeps_emit | apply keeps_fresh | apply keeps_modJup | (apply keepsE_fresh; case' he => assumption)) | exact keeps_fresh hK | split | (apply Eq.refl) | exact selfTrue | exact selfChans | exact selfAnd | intro _

theorem keeps_execNtpRequest {sK : State} (mode : BitVec 3) (key : Option (BitVec 16 × BitVec 128)) (body : List Word) (s : State) (hK : sK.Keeps s) : ResKeeps sK (execNtpRequest mode key body s) := by
  unfold execNtpRequest
  try dsimp only
  repeat' first | (with_reducible first | assumption | apply keeps_modJup | apply keeps_ntpServe | apply resKeeps_next) | split | (apply Eq.refl) | exact selfTrue | exact selfChans | exact selfAnd | intro _

theorem keeps_execMeasureLink {sK : State} (h : Hdr) (port : BitVec 7) (reflect childSelected : Bool) (s : State) (hK : sK.Keeps s) : ResKeeps sK (execMeasureLink h port reflect childSelected s) := by
  unfold execMeasureLink
  try dsimp only
  repeat' first | (with_reducible first | assumption | apply keeps_modAsym | apply keeps_modCtl | apply keeps_post | apply keeps_withHandle | apply resKeeps_next) | split | (apply Eq.refl) | exact selfTrue | exact selfChans | exact selfAnd | intro _

theorem keepsN_execMeasureLink {sK : State} (h : Hdr) (port : BitVec 7) (reflect childSelected : Bool) (s : State)  {t' : State} (he : (execMeasureLink h port reflect childSelected s) = .next t') (hK : sK.Keeps s) : sK.Keeps t' := keeps_execMeasureLink h port reflect childSelected s  hK t' he

theorem keeps_execReflectComplete {sK : State} (port : BitVec 7) (pairs : Int × Int) (s : State) (hK : sK.Keeps s) : ResKeeps sK (execReflectComplete port pairs s) := by
  unfold execReflectComplete
  try dsimp only
  repeat' first | (with_reducible first | assumption | apply keeps_due | apply keeps_modAsym | apply keeps_modCtl | apply keeps_modLt | apply resKeeps_next | (apply keepsN_due; case' he => assumption)) | split | (apply Eq.refl) | exact selfTrue | exact selfChans | exact selfAnd | intro _

theorem keeps_execAsymSwapGo {sK : State} (d : Dev) (n : Nat) (s : State) (hK : sK.Keeps s) : ResKeeps sK (execAsymSwapGo d n s) := by
  unfold execAsymSwapGo
  try dsimp only
  repeat' first | (with_reducible first | assumption | apply keeps_due | apply keeps_modAsym | apply resKeeps_next | (apply keepsN_due; case' he => assumption)) | split | (apply Eq.refl) | exact selfTrue | exact selfChans | exact selfAnd | intro _

theorem keeps_swapAsym {sK : State} (s : State) (d : Dev) (n : Nat) (hK : sK.Keeps s) : sK.Keeps (State.swapAsym s d n) := by
  unfold State.swapAsym
  try dsimp only
  repeat' first | (with_reducible first | assumption | apply keeps_buildOut | apply keeps_endLevel | apply keeps_modAsym | apply keeps_refreshOffset) | split | (apply Eq.refl) | exact selfTrue | exact selfChans | exact selfAnd | intro _

theorem keeps_execAsymBankSwap {sK : State} (d : Dev) (n : Nat) (s : State) (hK : sK.Keeps s) : ResKeeps sK (execAsymBankSwap d n s) := by
  unfold execAsymBankSwap
  try dsimp only
  repeat' first | (with_reducible first | assumption | apply keeps_due | apply keeps_modAsym | apply keeps_raiseFault | apply keeps_swapAsym | apply keeps_foldl | apply resKeeps_next | (apply keepsN_due; case' he => assumption)) | split | (apply Eq.refl) | exact selfTrue | exact selfChans | exact selfAnd | intro _

theorem keeps_bindNow {sK : State} (s : State) (c : Nat) (hK : sK.Keeps s) : sK.Keeps (State.bindNow s c) := by
  unfold State.bindNow
  try dsimp only
  repeat' first | (with_reducible first | assumption | apply keeps_modChan) | split | (apply Eq.refl) | exact selfTrue | exact selfChans | exact selfAnd | intro _

theorem keeps_doBind {sK : State} (s : State) (c : Nat) (hK : sK.Keeps s) : sK.Keeps (State.doBind s c) := by
  unfold State.doBind
  try dsimp only
  repeat' first | (with_reducible first | assumption | apply keeps_bindNow | apply keeps_modChan) | split | (apply Eq.refl) | exact selfTrue | exact selfChans | exact selfAnd | intro _

theorem keeps_execBind {sK : State} (c : Fin 8) (s : State) (hK : sK.Keeps s) : ResKeeps sK (execBind c s) := by
  unfold execBind
  try dsimp only
  repeat' first | (with_reducible first | assumption | apply keeps_doBind | apply resKeeps_next | apply resKeeps_fault) | split | (apply Eq.refl) | exact selfTrue | exact selfChans | exact selfAnd | intro _

theorem keeps_doArm {sK : State} (s : State) (c : Nat) (hK : sK.Keeps s) : sK.Keeps (State.doArm s c) := by
  unfold State.doArm
  try dsimp only
  repeat' first | (with_reducible first | assumption | apply keeps_modChan | apply keeps_raiseChan) | split | (apply Eq.refl) | exact selfTrue | exact selfChans | exact selfAnd | intro _

theorem keeps_execArm {sK : State} (c : Fin 8) (s : State) (hK : sK.Keeps s) : ResKeeps sK (execArm c s) := by
  unfold execArm
  try dsimp only
  repeat' first | (with_reducible first | assumption | apply keeps_doArm | apply resKeeps_next) | split | (apply Eq.refl) | exact selfTrue | exact selfChans | exact selfAnd | intro _

theorem keeps_lateCommand {sK : State} (s : State) (c : Nat) (hK : sK.Keeps s) : sK.Keeps (State.lateCommand s c) := by
  unfold State.lateCommand
  try dsimp only
  repeat' first | (with_reducible first | assumption | apply keeps_raiseChan | apply keeps_stopStep) | split | (apply Eq.refl) | exact selfTrue | exact selfChans | exact selfAnd | intro _

theorem keeps_doResume {sK : State} (s : State) (c : Nat) (hK : sK.Keeps s) : sK.Keeps (State.doResume s c) := by
  unfold State.doResume
  try dsimp only
  repeat' first | (with_reducible first | assumption | apply keeps_lateCommand | apply keeps_modChan) | split | (apply Eq.refl) | exact selfTrue | exact selfChans | exact selfAnd | intro _

theorem keeps_execResume {sK : State} (c : Fin 8) (s : State) (hK : sK.Keeps s) : ResKeeps sK (execResume c s) := by
  unfold execResume
  try dsimp only
  repeat' first | (with_reducible first | assumption | apply keeps_doResume | apply resKeeps_next) | split | (apply Eq.refl) | exact selfTrue | exact selfChans | exact selfAnd | intro _

theorem keeps_doHold {sK : State} (s : State) (c : Nat) (hK : sK.Keeps s) : sK.Keeps (State.doHold s c) := by
  unfold State.doHold
  try dsimp only
  repeat' first | (with_reducible first | assumption | apply keeps_modChan | apply keeps_wantHold | apply keeps_foldl) | split | (apply Eq.refl) | exact selfTrue | exact selfChans | exact selfAnd | intro _

theorem keeps_execHold {sK : State} (c : Fin 8) (s : State) (hK : sK.Keeps s) : ResKeeps sK (execHold c s) := by
  unfold execHold
  try dsimp only
  repeat' first | (with_reducible first | assumption | apply keeps_doHold | apply resKeeps_next) | split | (apply Eq.refl) | exact selfTrue | exact selfChans | exact selfAnd | intro _

theorem keeps_doUnbind {sK : State} (s : State) (c : Nat) (hK : sK.Keeps s) : sK.Keeps (State.doUnbind s c) := by
  unfold State.doUnbind
  try dsimp only
  repeat' first | (with_reducible first | assumption | apply keeps_cancelWaits | apply keeps_emit | apply keeps_modChan | apply keeps_unbindFilters) | split | (apply Eq.refl) | exact selfTrue | exact selfChans | exact selfAnd | intro _

theorem keeps_execUnbind {sK : State} (c : Fin 8) (s : State) (hK : sK.Keeps s) : ResKeeps sK (execUnbind c s) := by
  unfold execUnbind
  try dsimp only
  repeat' first | (with_reducible first | assumption | apply keeps_doUnbind | apply resKeeps_next) | split | (apply Eq.refl) | exact selfTrue | exact selfChans | exact selfAnd | intro _

theorem keeps_start {sK : State} (s : State) (c : Nat) (hK : sK.Keeps s) : sK.Keeps (State.start s c) := by
  unfold State.start
  try dsimp only
  repeat' first | (with_reducible first | assumption | apply keeps_emit | apply keeps_modChan | apply keeps_snapCheck | apply keeps_writeBoundary) | (exact fun (h : Chan.tablesOk _ = true) => chanOk_of h fun hp hb => ⟨rfl, hb⟩) | split | (apply Eq.refl) | exact selfTrue | exact selfChans | exact selfAnd | intro _

theorem keeps_execStartTickReached {sK : State} (c : Fin 8) (s : State) (hK : sK.Keeps s) : ResKeeps sK (execStartTickReached c s) := by
  unfold execStartTickReached
  try dsimp only
  repeat' first | (with_reducible first | assumption | apply keeps_due | apply keeps_start | apply resKeeps_next | (apply keepsN_due; case' he => assumption)) | split | (apply Eq.refl) | exact selfTrue | exact selfChans | exact selfAnd | intro _

theorem keeps_resumeOne {sK : State} (s : State) (c : Nat) (t : Tick) (hK : sK.Keeps s) : sK.Keeps (State.resumeOne s c t) := by
  unfold State.resumeOne
  try dsimp only
  repeat' first | (with_reducible first | assumption | apply keeps_emit | apply keeps_modChan | apply keeps_restoreObjects | apply keeps_writeSels) | (exact fun (h : Chan.tablesOk _ = true) => chanOk_of h fun hp hb => ⟨hb, hb⟩) | split | (apply Eq.refl) | exact selfTrue | exact selfChans | exact selfAnd | intro _

theorem keeps_boundaryCheck {sK : State} (s : State) (c : Nat) (hK : sK.Keeps s) : sK.Keeps (State.boundaryCheck s c) := by
  unfold State.boundaryCheck
  try dsimp only
  repeat' first | (with_reducible first | assumption | apply keeps_sramFault) | split | (apply Eq.refl) | exact selfTrue | exact selfChans | exact selfAnd | intro _

theorem keeps_resumeNow {sK : State} (s : State) (c : Nat) (hK : sK.Keeps s) : sK.Keeps (State.resumeNow s c) := by
  unfold State.resumeNow
  try dsimp only
  repeat' first | (with_reducible first | assumption | apply keeps_boundaryCheck | apply keeps_modChan | apply keeps_resumeOne | apply keeps_foldl) | split | (apply Eq.refl) | exact selfTrue | exact selfChans | exact selfAnd | intro _

theorem keeps_execResumeTickReached {sK : State} (c : Fin 8) (s : State) (hK : sK.Keeps s) : ResKeeps sK (execResumeTickReached c s) := by
  unfold execResumeTickReached
  try dsimp only
  repeat' first | (with_reducible first | assumption | apply keeps_due | apply keeps_resumeNow | apply resKeeps_next | (apply keepsN_due; case' he => assumption)) | split | (apply Eq.refl) | exact selfTrue | exact selfChans | exact selfAnd | intro _

theorem keeps_execStepStart {sK : State} (c : Fin 8) (tick : Tick) (index : BitVec 16) (s : State) (hK : sK.Keeps s) : ResKeeps sK (execStepStart c tick index s) := by
  unfold execStepStart
  try dsimp only
  repeat' first | (with_reducible first | assumption | apply keeps_doArm | apply keeps_modChan | apply keeps_stepIn | apply keeps_takeCommand | (apply keepsN_stepIn; case' he => assumption)) | split | (apply Eq.refl) | exact selfTrue | exact selfChans | exact selfAnd | intro _

theorem keeps_stepHold {sK : State} (s : State) (c : Nat) (n : BitVec 64) (quota : Bool) (hK : sK.Keeps s) : sK.Keeps (State.stepHold s c n quota) := by
  unfold State.stepHold
  try dsimp only
  repeat' first | (with_reducible first | assumption | apply keeps_lateCommand | apply keeps_modChan | apply keeps_foldl) | split | (apply Eq.refl) | exact selfTrue | exact selfChans | exact selfAnd | intro _

theorem keeps_execStepHold {sK : State} (c : Fin 8) (n : BitVec 64) (quota : Bool) (s : State) (hK : sK.Keeps s) : ResKeeps sK (execStepHold c n quota s) := by
  unfold execStepHold
  try dsimp only
  repeat' first | (with_reducible first | assumption | apply keeps_stepHold | apply keeps_stepIn | apply keeps_takeCommand | (apply keepsN_stepIn; case' he => assumption)) | split | (apply Eq.refl) | exact selfTrue | exact selfChans | exact selfAnd | intro _

theorem keeps_stepStretch {sK : State} (s : State) (c : Nat) (n : BitVec 64) (v : BitVec 20) (hK : sK.Keeps s) : sK.Keeps (State.stepStretch s c n v) := by
  unfold State.stepStretch
  try dsimp only
  repeat' first | (with_reducible first | assumption | apply keeps_lateCommand | apply keeps_modChan | apply keeps_foldl) | split | (apply Eq.refl) | exact selfTrue | exact selfChans | exact selfAnd | intro _

theorem keeps_execStepStretch {sK : State} (c : Fin 8) (n : BitVec 64) (v : BitVec 20) (s : State) (hK : sK.Keeps s) : ResKeeps sK (execStepStretch c n v s) := by
  unfold execStepStretch
  try dsimp only
  repeat' first | (with_reducible first | assumption | apply keeps_stepIn | apply keeps_stepStretch | apply keeps_takeCommand | (apply keepsN_stepIn; case' he => assumption)) | split | (apply Eq.refl) | exact selfTrue | exact selfChans | exact selfAnd | intro _

theorem keeps_execStbyVerify {sK : State} (c : Fin 8) (check : BitVec 16) (s : State) (hK : sK.Keeps s) : ResKeeps sK (execStbyVerify c check s) := by
  unfold execStbyVerify
  try dsimp only
  repeat' first | (with_reducible first | assumption | apply keeps_modChan | apply resKeeps_next) | split | (apply Eq.refl) | exact selfTrue | exact selfChans | exact selfAnd | intro _

theorem keeps_execVerifyDone {sK : State} (c : Fin 8) (s : State) (hK : sK.Keeps s) : ResKeeps sK (execVerifyDone c s) := by
  unfold execVerifyDone
  try dsimp only
  repeat' first | (with_reducible first | assumption | apply keeps_due | apply keeps_modChan | apply resKeeps_next | (apply keepsN_due; case' he => assumption)) | split | (apply Eq.refl) | exact selfTrue | exact selfChans | exact selfAnd | intro _

theorem keeps_doSwap {sK : State} (s : State) (c : Nat) (staged : Bool) (hK : sK.Keeps s) : sK.Keeps (State.doSwap s c staged) := by
  unfold State.doSwap
  try dsimp only
  repeat' first | (with_reducible first | assumption | apply keeps_modChan) | split | (apply Eq.refl) | exact selfTrue | exact selfChans | exact selfAnd | intro _

theorem keeps_execBankSwapGo {sK : State} (c : Fin 8) (next : BitVec 16) (src : Src) (s : State) (hK : sK.Keeps s) : ResKeeps sK (execBankSwapGo c next src s) := by
  unfold execBankSwapGo
  try dsimp only
  repeat' first | (with_reducible first | assumption | apply keeps_denied | apply keeps_doSwap | apply keeps_modChan | apply resKeeps_next) | split | (apply Eq.refl) | exact selfTrue | exact selfChans | exact selfAnd | intro _

theorem keeps_writeSel {sK : State} (s : State) (c n : Nat) (hi : Bool) (v : Half) (hK : sK.Keeps s) : sK.Keeps (State.writeSel s c n hi v) := by
  unfold State.writeSel
  try dsimp only
  repeat' first | (with_reducible first | assumption | apply keeps_modChan | apply keeps_modProg | apply keeps_repeatBroken | apply keeps_sramWrite) | split | (apply Eq.refl) | exact selfTrue | exact selfChans | exact selfAnd | intro _

theorem keeps_execSelectorWrite {sK : State} (c : Fin 8) (n : Fin 16) (hi : Bool) (v : Half) (src : Src) (s : State) (hK : sK.Keeps s) : ResKeeps sK (execSelectorWrite c n hi v src s) := by
  unfold execSelectorWrite
  try dsimp only
  repeat' first | (with_reducible first | assumption | apply keeps_denied | apply keeps_writeSel | apply resKeeps_next) | split | (apply Eq.refl) | exact selfTrue | exact selfChans | exact selfAnd | intro _

theorem keeps_execStationBusyReport {sK : State} (c : Fin 8) (s : State) (hK : sK.Keeps s) : ResKeeps sK (execStationBusyReport c s) := by
  unfold execStationBusyReport
  try dsimp only
  repeat' first | (with_reducible first | assumption | apply keeps_judgedFault | apply keeps_mainIn | (apply keepsN_mainIn; case' he => assumption)) | split | (apply Eq.refl) | exact selfTrue | exact selfChans | exact selfAnd | intro _

theorem keeps_execOverrunReport {sK : State} (c : Fin 8) (core : BitVec 11) (station : Fin 8) (cycles : BitVec 31) (s : State) (hK : sK.Keeps s) : ResKeeps sK (execOverrunReport c core station cycles s) := by
  unfold execOverrunReport
  try dsimp only
  repeat' first | (with_reducible first | assumption | apply keeps_mainIn | apply keeps_raiseChan | (apply keepsN_mainIn; case' he => assumption)) | split | (apply Eq.refl) | exact selfTrue | exact selfChans | exact selfAnd | intro _

theorem keeps_execCaptureWrite {sK : State} (c : Fin 8) (stream : BitVec 13) (slot : BitVec 8) (word : BitVec 4) (last : Bool) (data : Word) (s : State) (hK : sK.Keeps s) : ResKeeps sK (execCaptureWrite c stream slot word last data s) := by
  unfold execCaptureWrite
  try dsimp only
  repeat' first | (with_reducible first | assumption | apply keeps_mainIn | apply keeps_modProg | apply keeps_modTsu | (apply keepsN_mainIn; case' he => assumption)) | split | (apply Eq.refl) | exact selfTrue | exact selfChans | exact selfAnd | intro _

theorem keeps_execCheckpointDelta {sK : State} (c : Fin 8) (delta : Word) (s : State) (hK : sK.Keeps s) : ResKeeps sK (execCheckpointDelta c delta s) := by
  unfold execCheckpointDelta
  try dsimp only
  repeat' first | (with_reducible first | assumption | apply keeps_emit | apply keeps_mainIn | apply keeps_modChan | apply keeps_send | (apply keepsN_mainIn; case' he => assumption)) | split | (apply Eq.refl) | exact selfTrue | exact selfChans | exact selfAnd | intro _

theorem keeps_execDigestUpdate {sK : State} (c : Fin 8) (stream : Fin 16) (crc : Word) (busy : Bool) (s : State) (hK : sK.Keeps s) : ResKeeps sK (execDigestUpdate c stream crc busy s) := by
  unfold execDigestUpdate
  try dsimp only
  repeat' first | (with_reducible first | assumption | apply keeps_mainIn | apply keeps_modChan | apply keeps_sramRead | (apply keepsN_mainIn; case' he => assumption)) | split | (apply Eq.refl) | exact selfTrue | exact selfChans | exact selfAnd | intro _

theorem keeps_badObject {sK : State} (s : State) (c : Nat) (core : BitVec 11) (slot : BitVec 6) (tag : BitVec 16) (hK : sK.Keeps s) : sK.Keeps (State.badObject s c core slot tag) := by
  unfold State.badObject
  try dsimp only
  repeat' first | (with_reducible first | assumption | apply keeps_stepFault) | split | (apply Eq.refl) | exact selfTrue | exact selfChans | exact selfAnd | intro _

theorem keeps_putSlot {sK : State} (s : State) (core : BitVec 11) (slot : BitVec 6) (v : BitVec 8) (hK : sK.Keeps s) : sK.Keeps (State.putSlot s core slot v) := by
  unfold State.putSlot
  try dsimp only
  repeat' first | (with_reducible first | assumption | apply keeps_setSlot | apply keeps_sramWrite) | split | (apply Eq.refl) | exact selfTrue | exact selfChans | exact selfAnd | intro _

theorem keeps_objOp {sK : State} (s : State) (core : BitVec 11) (slot : BitVec 6) (op : Nat) (n : BitVec 8) (taker : BitVec 11) (hK : sK.Keeps s) : sK.Keeps (State.objOp s core slot op n taker) := by
  unfold State.objOp
  try dsimp only
  repeat' first | (with_reducible first | assumption | apply keeps_putSlot | apply keeps_sramRead | apply keeps_stepFault) | split | (apply Eq.refl) | exact selfTrue | exact selfChans | exact selfAnd | intro _

theorem keeps_remoteSignal {sK : State} (s : State) (c : Nat) (eg : EgAns) (dst : BitVec 17) (core : BitVec 11) (slot : BitVec 6) (op : Nat) (n : BitVec 8) (tag : BitVec 16) (hK : sK.Keeps s) : sK.Keeps (State.remoteSignal s c eg dst core slot op n tag) := by
  unfold State.remoteSignal
  try dsimp only
  repeat' first | (with_reducible first | assumption | apply keeps_badObject | apply keeps_emit | apply keeps_send) | split | (apply Eq.refl) | exact selfTrue | exact selfChans | exact selfAnd | intro _

theorem keeps_roundComplete {sK : State} (s : State) (rec : Nat) (round : BitVec 16) (early : Bool) (hK : sK.Keeps s) : sK.Keeps (State.roundComplete s rec round early) := by
  unfold State.roundComplete
  try dsimp only
  repeat' first | (with_reducible first | assumption | apply keeps_emit | apply keeps_modConj | apply keeps_modSync) | split | (apply Eq.refl) | exact selfTrue | exact selfChans | exact selfAnd | intro _

theorem keeps_countEntry {sK : State} (s : State) (rec : Nat) (hK : sK.Keeps s) : sK.Keeps (State.countEntry s rec) := by
  unfold State.countEntry
  try dsimp only
  repeat' first | (with_reducible first | assumption | apply keeps_modConj | apply keeps_roundComplete | apply resKeeps_next) | split | (apply Eq.refl) | exact selfTrue | exact selfChans | exact selfAnd | intro _

theorem keeps_conjOverrun {sK : State} (s : State) (rec : Nat) (core : BitVec 11) (slot : BitVec 6) (tag : BitVec 16) (hK : sK.Keeps s) : sK.Keeps (State.conjOverrun s rec core slot tag) := by
  unfold State.conjOverrun
  try dsimp only
  repeat' first | (with_reducible first | assumption | apply keeps_stepFault) | split | (apply Eq.refl) | exact selfTrue | exact selfChans | exact selfAnd | intro _

theorem keeps_recRead {sK : State} (s : State) (rec : Nat) (f : State → State) (h_f : ∀ x0, sK.Keeps x0 → sK.Keeps (f x0)) (hK : sK.Keeps s) : sK.Keeps (State.recRead s rec f) := by
  unfold State.recRead
  try dsimp only
  repeat' first | (with_reducible first | assumption | apply keeps_sramRead) | apply h_f | split | (apply Eq.refl) | exact selfTrue | exact selfChans | exact selfAnd | intro _

theorem keeps_enterRec {sK : State} (s : State) (core : BitVec 11) (slot : BitVec 6) (tag : BitVec 16) (wait : BitVec 16 → Option WaitRec) (hK : sK.Keeps s) : sK.Keeps (State.enterRec s core slot tag wait) := by
  unfold State.enterRec
  try dsimp only
  repeat' first | (with_reducible first | assumption | apply keeps_conjOverrun | apply keeps_countEntry | apply keeps_modSync | apply keeps_sramWrite) | split | (apply Eq.refl) | exact selfTrue | exact selfChans | exact selfAnd | intro _

theorem keeps_enterConj {sK : State} (s : State) (core : BitVec 11) (slot : BitVec 6) (tag : BitVec 16) (wait : BitVec 16 → Option WaitRec) (hK : sK.Keeps s) : sK.Keeps (State.enterConj s core slot tag wait) := by
  unfold State.enterConj
  try dsimp only
  repeat' first | (with_reducible first | assumption | apply keeps_enterRec | apply keeps_recRead) | split | (apply Eq.refl) | exact selfTrue | exact selfChans | exact selfAnd | intro _

theorem keeps_releaseOne {sK : State} (s : State) (late : Bool) (rTick : Tick) (r : WaitRec) (hK : sK.Keeps s) : sK.Keeps (State.releaseOne s late rTick r) := by
  unfold State.releaseOne
  try dsimp only
  repeat' first | (with_reducible first | assumption | apply keeps_answerCore | apply keeps_dropWait | apply keeps_modProg) | split | (apply Eq.refl) | exact selfTrue | exact selfChans | exact selfAnd | intro _

theorem keeps_lateCore {sK : State} (s : State) (r : WaitRec) (hK : sK.Keeps s) : sK.Keeps (State.lateCore s r) := by
  unfold State.lateCore
  try dsimp only
  repeat' first | (with_reducible first | assumption | apply keeps_stepFault) | split | (apply Eq.refl) | exact selfTrue | exact selfChans | exact selfAnd | intro _

theorem keeps_advanceRec {sK : State} (s : State) (rec : Nat) (rTick : Tick) (hK : sK.Keeps s) : sK.Keeps (State.advanceRec s rec rTick) := by
  unfold State.advanceRec
  try dsimp only
  repeat' first | (with_reducible first | assumption | apply keeps_modConj | apply keeps_sramWrite | apply resKeeps_next) | split | (apply Eq.refl) | exact selfTrue | exact selfChans | exact selfAnd | intro _

theorem keeps_releaseRec {sK : State} (s : State) (rec : Nat) (rTick : Tick) (late : Bool) (hK : sK.Keeps s) : sK.Keeps (State.releaseRec s rec rTick late) := by
  unfold State.releaseRec
  try dsimp only
  repeat' first | (with_reducible first | assumption | apply keeps_advanceRec | apply keeps_lateCore | apply keeps_recRead | apply keeps_releaseOne | apply keeps_foldl) | split | (apply Eq.refl) | exact selfTrue | exact selfChans | exact selfAnd | intro _

theorem keeps_waitRead {sK : State} (s : State) (r : WaitRec) (f : State → State) (h_f : ∀ x0, sK.Keeps x0 → sK.Keeps (f x0)) (hK : sK.Keeps s) : sK.Keeps (State.waitRead s r f) := by
  unfold State.waitRead
  try dsimp only
  repeat' first | (with_reducible first | assumption | apply keeps_recRead | apply keeps_sramRead) | apply h_f | split | (apply Eq.refl) | exact selfTrue | exact selfChans | exact selfAnd | intro _

theorem keeps_expireWait {sK : State} (s : State) (r : WaitRec) (code : Code) (cause : Nat) (hK : sK.Keeps s) : sK.Keeps (State.expireWait s r code cause) := by
  unfold State.expireWait
  try dsimp only
  repeat' first | (with_reducible first | assumption | apply keeps_coreRsp | apply keeps_dropWait | apply keeps_enterStopped | apply keeps_modSync | apply keeps_raiseChan | apply keeps_waitRead) | split | (apply Eq.refl) | exact selfTrue | exact selfChans | exact selfAnd | intro _

theorem keeps_setRun {sK : State} (s : State) (c : Nat) (v : BitVec 8) (hK : sK.Keeps s) : sK.Keeps (State.setRun s c v) := by
  unfold State.setRun
  try dsimp only
  repeat' first | (with_reducible first | assumption | apply keeps_modChan | apply keeps_modSync) | split | (apply Eq.refl) | exact selfTrue | exact selfChans | exact selfAnd | intro _

theorem keeps_fetchFault {sK : State} (s : State) (c : Nat) (code : Code) (hK : sK.Keeps s) : sK.Keeps (State.fetchFault s c code) := by
  unfold State.fetchFault
  try dsimp only
  repeat' first | (with_reducible first | assumption | apply keeps_enterStopped | apply keeps_raiseChan | apply keeps_stopStep) | split | (apply Eq.refl) | exact selfTrue | exact selfChans | exact selfAnd | intro _

theorem keeps_advance {sK : State} (s : State) (c : Nat) (t : Tick) (hK : sK.Keeps s) : sK.Keeps (State.advance s c t) := by
  unfold State.advance
  try dsimp only
  repeat' first | (with_reducible first | assumption | apply keeps_modChan) | split | (apply Eq.refl) | exact selfTrue | exact selfChans | exact selfAnd | intro _

theorem keeps_act {sK : State} (s : State) (c : Nat) (t : Tick) (hK : sK.Keeps s) : sK.Keeps (State.act s c t) := by
  unfold State.act
  try dsimp only
  repeat' first | (with_reducible first | assumption | apply keeps_advance | apply keeps_modProg) | split | (apply Eq.refl) | exact selfTrue | exact selfChans | exact selfAnd | intro _

theorem keeps_late {sK : State} (s : State) (c : Nat) (t : Tick) (hK : sK.Keeps s) : sK.Keeps (State.late s c t) := by
  unfold State.late
  try dsimp only
  repeat' first | (with_reducible first | assumption | apply keeps_advance | apply keeps_stepFault) | split | (apply Eq.refl) | exact selfTrue | exact selfChans | exact selfAnd | intro _

theorem keeps_gateOrder {sK : State} (s : State) (c : Nat) (t : Tick) (hK : sK.Keeps s) : sK.Keeps (State.gateOrder s c t) := by
  unfold State.gateOrder
  try dsimp only
  repeat' first | (with_reducible first | assumption | apply keeps_advance | apply keeps_stepFault) | split | (apply Eq.refl) | exact selfTrue | exact selfChans | exact selfAnd | intro _

theorem keeps_seq {sK : State} (s : State) (c kind : Nat) (body : BitVec 128 → BitVec 16 → Tick → State → Res) (h_body : ∀ x0 x1 x2 x3, sK.Keeps x3 → ResKeeps sK (body x0 x1 x2 x3)) (hK : sK.Keeps s) : ResKeeps sK (State.seq s c kind body) := by
  unfold State.seq
  try dsimp only
  repeat' first | (with_reducible first | assumption | apply keeps_act | apply keeps_fetchFault | apply keeps_gateOrder | apply keeps_late | apply resKeeps_next) | apply h_body | split | (apply Eq.refl) | exact selfTrue | exact selfChans | exact selfAnd | intro _

theorem keepsN_seq {sK : State} (s : State) (c kind : Nat) (body : BitVec 128 → BitVec 16 → Tick → State → Res) (h_body : ∀ x0 x1 x2 x3, sK.Keeps x3 → ResKeeps sK (body x0 x1 x2 x3)) {t' : State} (he : (State.seq s c kind body) = .next t') (hK : sK.Keeps s) : sK.Keeps t' := keeps_seq s c kind body h_body hK t' he

theorem keeps_readSel {sK : State} (s : State) (c n : Nat) (idx : BitVec 16) (f : Word → State → State) (h_f : ∀ x0 x1, sK.Keeps x1 → sK.Keeps (f x0 x1)) (hK : sK.Keeps s) : sK.Keeps (State.readSel s c n idx f) := by
  unfold State.readSel
  try dsimp only
  repeat' first | (with_reducible first | assumption | apply keeps_sramRead | apply keeps_stepFault | apply keeps_stopStep) | apply h_f | split | (apply Eq.refl) | exact selfTrue | exact selfChans | exact selfAnd | intro _

theorem keeps_launch {sK : State} (s : State) (c : Nat) (d : BitVec 128) (e mask : Word) (hK : sK.Keeps s) : sK.Keeps (State.launch s c d e mask) := by
  unfold State.launch
  try dsimp only
  repeat' first | (with_reducible first | assumption | apply keeps_emit | apply keeps_modChan) | split | (apply Eq.refl) | exact selfTrue | exact selfChans | exact selfAnd | intro _

theorem keeps_launchBody {sK : State} (s : State) (c : Nat) (d : BitVec 128) (idx : BitVec 16) (hK : sK.Keeps s) : sK.Keeps (State.launchBody s c d idx) := by
  unfold State.launchBody
  try dsimp only
  repeat' first | (with_reducible first | assumption | apply keeps_launch | apply keeps_readSel | apply keeps_stepFault) | split | (apply Eq.refl) | exact selfTrue | exact selfChans | exact selfAnd | intro _

theorem keeps_execLaunch {sK : State} (c : Fin 8) (s : State) (hK : sK.Keeps s) : ResKeeps sK (execLaunch c s) := by
  unfold execLaunch
  try dsimp only
  repeat' first | (with_reducible first | assumption | apply keeps_launchBody | apply keeps_seq | apply resKeeps_next | (apply keepsN_seq; case' he => assumption)) | split | (apply Eq.refl) | exact selfTrue | exact selfChans | exact selfAnd | intro _

theorem keeps_waitBody {sK : State} (s : State) (c : Fin 8) (d : BitVec 128) (idx : BitVec 16) (t : Tick) (hK : sK.Keeps s) : sK.Keeps (State.waitBody s c d idx t) := by
  unfold State.waitBody
  try dsimp only
  repeat' first | (with_reducible first | assumption | apply keeps_badObject | apply keeps_enterConj | apply keeps_modSync) | split | (apply Eq.refl) | exact selfTrue | exact selfChans | exact selfAnd | intro _

theorem keeps_execWait {sK : State} (c : Fin 8) (s : State) (hK : sK.Keeps s) : ResKeeps sK (execWait c s) := by
  unfold execWait
  try dsimp only
  repeat' first | (with_reducible first | assumption | apply keeps_seq | apply keeps_waitBody | apply resKeeps_next | (apply keepsN_seq; case' he => assumption)) | split | (apply Eq.refl) | exact selfTrue | exact selfChans | exact selfAnd | intro _

theorem keeps_branchBody {sK : State} (s : State) (c : Nat) (d : BitVec 128) (idx : BitVec 16) (hK : sK.Keeps s) : sK.Keeps (State.branchBody s c d idx) := by
  unfold State.branchBody
  try dsimp only
  repeat' first | (with_reducible first | assumption | apply keeps_modChan | apply keeps_readSel) | split | (apply Eq.refl) | exact selfTrue | exact selfChans | exact selfAnd | intro _

theorem keeps_execBranch {sK : State} (c : Fin 8) (s : State) (hK : sK.Keeps s) : ResKeeps sK (execBranch c s) := by
  unfold execBranch
  try dsimp only
  repeat' first | (with_reducible first | assumption | apply keeps_branchBody | apply keeps_seq | apply resKeeps_next | (apply keepsN_seq; case' he => assumption)) | split | (apply Eq.refl) | exact selfTrue | exact selfChans | exact selfAnd | intro _

theorem wf_loopTo (d : BitVec 128) (t : Table Half) (idx : BitVec 16) (h : Table.wf 0 t = true) :
    Table.wf 0 (loopTo d t idx).2 = true := by
  unfold loopTo; dsimp only; split
  · exact Table.wf_tset _ _ _ _ h
  · exact h
  · exact Table.wf_tset _ _ _ _ h

theorem keeps_loopBody {sK : State} (s : State) (c : Nat) (d : BitVec 128) (idx : BitVec 16) (hK : sK.Keeps s) : sK.Keeps (State.loopBody s c d idx) := by
  unfold State.loopBody
  try dsimp only
  repeat' first | (with_reducible first | assumption | apply keeps_modChan) | (exact fun (h : Chan.tablesOk _ = true) => chanOk_of h fun hp hb => ⟨wf_loopTo _ _ _ hp, hb⟩) | split | (apply Eq.refl) | exact selfTrue | exact selfChans | exact selfAnd | intro _

theorem keeps_actLoop {sK : State} (s : State) (c : Nat) (t : Tick) (hK : sK.Keeps s) : sK.Keeps (State.actLoop s c t) := by
  unfold State.actLoop
  try dsimp only
  repeat' first | (with_reducible first | assumption | apply keeps_act | apply keeps_modProg) | split | (apply Eq.refl) | exact selfTrue | exact selfChans | exact selfAnd | intro _

theorem keeps_execLoop {sK : State} (c : Fin 8) (s : State) (hK : sK.Keeps s) : ResKeeps sK (execLoop c s) := by
  unfold execLoop
  try dsimp only
  repeat' first | (with_reducible first | assumption | apply keeps_actLoop | apply keeps_fetchFault | apply keeps_late | apply keeps_loopBody | apply resKeeps_next) | split | (apply Eq.refl) | exact selfTrue | exact selfChans | exact selfAnd | intro _

theorem keeps_badGroup {sK : State} (s : State) (c : Nat) (g : BitVec 12) (idx : BitVec 16) (hK : sK.Keeps s) : sK.Keeps (State.badGroup s c g idx) := by
  unfold State.badGroup
  try dsimp only
  repeat' first | (with_reducible first | assumption | apply keeps_modTsu | apply keeps_stepFault) | split | (apply Eq.refl) | exact selfTrue | exact selfChans | exact selfAnd | intro _

theorem keeps_gateVote {sK : State} (s : State) (c : Nat) (d : BitVec 128) (e : Word) (coreRun : Bool) (t : Tick) (hK : sK.Keeps s) : sK.Keeps (State.gateVote s c d e coreRun t) := by
  unfold State.gateVote
  try dsimp only
  repeat' first | (with_reducible first | assumption | apply keeps_modChan | apply resKeeps_next) | split | (apply Eq.refl) | exact selfTrue | exact selfChans | exact selfAnd | intro _

theorem keeps_fieldVote {sK : State} (s : State) (c : Nat) (d : BitVec 128) (e : Word) (idx : BitVec 16) (t : Tick) (hK : sK.Keeps s) : sK.Keeps (State.fieldVote s c d e idx t) := by
  unfold State.fieldVote
  try dsimp only
  repeat' first | (with_reducible first | assumption | apply keeps_modChan | apply resKeeps_next) | split | (apply Eq.refl) | exact selfTrue | exact selfChans | exact selfAnd | intro _

theorem keeps_judgeVote {sK : State} (s : State) (c : Nat) (u : Unsent) (j : VoteJudge) (hK : sK.Keeps s) : sK.Keeps (State.judgeVote s c u j) := by
  unfold State.judgeVote
  try dsimp only
  repeat' first | (with_reducible first | assumption | apply keeps_judgedFault | apply keeps_modProg) | split | (apply Eq.refl) | exact selfTrue | exact selfChans | exact selfAnd | intro _

theorem keeps_judgeVotes {sK : State} (s : State) (hK : sK.Keeps s) : sK.Keeps (State.judgeVotes s) := by
  unfold State.judgeVotes
  try dsimp only
  repeat' first | (with_reducible first | assumption | apply keeps_judgeVote | apply keeps_foldl) | split | (apply Eq.refl) | exact selfTrue | exact selfChans | exact selfAnd | intro _

theorem keeps_voteBody {sK : State} (s : State) (c : Nat) (d : BitVec 128) (coreRun : Bool) (idx : BitVec 16) (t : Tick) (hK : sK.Keeps s) : ResKeeps sK (State.voteBody s c d coreRun idx t) := by
  unfold State.voteBody
  try dsimp only
  repeat' first | (with_reducible first | assumption | apply keeps_badGroup | apply keeps_fieldVote | apply keeps_gateVote | apply keeps_sramFault | apply keeps_stepFault | apply resKeeps_next | apply resKeeps_fault) | split | (apply Eq.refl) | exact selfTrue | exact selfChans | exact selfAnd | intro _

theorem keepsN_voteBody {sK : State} (s : State) (c : Nat) (d : BitVec 128) (coreRun : Bool) (idx : BitVec 16) (t : Tick)  {t' : State} (he : (State.voteBody s c d coreRun idx t) = .next t') (hK : sK.Keeps s) : sK.Keeps t' := keeps_voteBody s c d coreRun idx t  hK t' he

theorem keeps_execVote {sK : State} (c : Fin 8) (coreRun : Bool) (s : State) (hK : sK.Keeps s) : ResKeeps sK (execVote c coreRun s) := by
  unfold execVote
  try dsimp only
  repeat' first | (with_reducible first | assumption | apply keeps_seq | apply keeps_voteBody | (apply keepsN_seq; case' he => assumption) | (apply keepsN_voteBody; case' he => assumption)) | split | (apply Eq.refl) | exact selfTrue | exact selfChans | exact selfAnd | intro _

theorem keeps_signalBody {sK : State} (s : State) (c : Nat) (eg : EgAns) (d : BitVec 128) (idx : BitVec 16) (hK : sK.Keeps s) : sK.Keeps (State.signalBody s c eg d idx) := by
  unfold State.signalBody
  try dsimp only
  repeat' first | (with_reducible first | assumption | apply keeps_badObject | apply keeps_objOp | apply keeps_remoteSignal) | split | (apply Eq.refl) | exact selfTrue | exact selfChans | exact selfAnd | intro _

theorem keeps_execSignal {sK : State} (c : Fin 8) (eg : EgAns) (s : State) (hK : sK.Keeps s) : ResKeeps sK (execSignal c eg s) := by
  unfold execSignal
  try dsimp only
  repeat' first | (with_reducible first | assumption | apply keeps_seq | apply keeps_signalBody | apply resKeeps_next | (apply keepsN_seq; case' he => assumption)) | split | (apply Eq.refl) | exact selfTrue | exact selfChans | exact selfAnd | intro _

theorem keeps_holdAtBoundary {sK : State} (s : State) (c : Nat) (causes : List Nat) (hK : sK.Keeps s) : sK.Keeps (State.holdAtBoundary s c causes) := by
  unfold State.holdAtBoundary
  try dsimp only
  repeat' first | (with_reducible first | assumption | apply keeps_cancelWaits | apply keeps_enterHeld | apply keeps_raiseChan) | split | (apply Eq.refl) | exact selfTrue | exact selfChans | exact selfAnd | intro _

theorem keeps_commitFailed {sK : State} (s : State) (c : Nat) (code : Code) (idx : BitVec 16) (hK : sK.Keeps s) : sK.Keeps (State.commitFailed s c code idx) := by
  unfold State.commitFailed
  try dsimp only
  repeat' first | (with_reducible first | assumption | apply keeps_emit | apply keeps_holdAtBoundary | apply keeps_modChan | apply keeps_raiseChan) | split | (apply Eq.refl) | exact selfTrue | exact selfChans | exact selfAnd | intro _

theorem keeps_commitTaken {sK : State} (s : State) (c : Nat) (t : Tick) (hK : sK.Keeps s) : sK.Keeps (State.commitTaken s c t) := by
  unfold State.commitTaken
  try dsimp only
  repeat' first | (with_reducible first | assumption | apply keeps_emit | apply keeps_modChan | apply keeps_writeBoundary) | split | (apply Eq.refl) | exact selfTrue | exact selfChans | exact selfAnd | intro _

theorem keeps_commitCore {sK : State} (s : State) (c : Nat) (isLocal : Bool) (idx : BitVec 16) (t : Tick) (hK : sK.Keeps s) : sK.Keeps (State.commitCore s c isLocal idx t) := by
  unfold State.commitCore
  try dsimp only
  repeat' first | (with_reducible first | assumption | apply keeps_commitFailed | apply keeps_commitTaken | apply keeps_emit | apply keeps_holdAtBoundary | apply keeps_noteParity | apply keeps_snapCheck) | split | (apply Eq.refl) | exact selfTrue | exact selfChans | exact selfAnd | intro _

theorem keeps_lockSkew {sK : State} (s : State) (c : Nat) (isLocal : Bool) (idx : BitVec 16) (t : Tick) (hK : sK.Keeps s) : sK.Keeps (State.lockSkew s c isLocal idx t) := by
  unfold State.lockSkew
  try dsimp only
  repeat' first | (with_reducible first | assumption | apply keeps_commitCore | apply keeps_gateFence | apply keeps_raiseChan | apply keeps_stopMates | apply keeps_stopOne) | split | (apply Eq.refl) | exact selfTrue | exact selfChans | exact selfAnd | intro _

theorem keeps_commitBody {sK : State} (s : State) (c : Nat) (d : BitVec 128) (idx : BitVec 16) (t : Tick) (hK : sK.Keeps s) : sK.Keeps (State.commitBody s c d idx t) := by
  unfold State.commitBody
  try dsimp only
  repeat' first | (with_reducible first | assumption | apply keeps_commitCore | apply keeps_lockSkew) | split | (apply Eq.refl) | exact selfTrue | exact selfChans | exact selfAnd | intro _

theorem keeps_execCommit {sK : State} (c : Fin 8) (s : State) (hK : sK.Keeps s) : ResKeeps sK (execCommit c s) := by
  unfold execCommit
  try dsimp only
  repeat' first | (with_reducible first | assumption | apply keeps_act | apply keeps_commitBody | apply keeps_fetchFault | apply keeps_late | apply resKeeps_next) | split | (apply Eq.refl) | exact selfTrue | exact selfChans | exact selfAnd | intro _

theorem keeps_execIdle {sK : State} (c : Fin 8) (s : State) (hK : sK.Keeps s) : ResKeeps sK (execIdle c s) := by
  unfold execIdle
  try dsimp only
  repeat' first | (with_reducible first | assumption | apply keeps_seq | apply resKeeps_next | (apply keepsN_seq; case' he => assumption)) | split | (apply Eq.refl) | exact selfTrue | exact selfChans | exact selfAnd | intro _

theorem keeps_haltBody {sK : State} (s : State) (c : Nat) (t : Tick) (hK : sK.Keeps s) : sK.Keeps (State.haltBody s c t) := by
  unfold State.haltBody
  try dsimp only
  repeat' first | (with_reducible first | assumption | apply keeps_cancelWaits | apply keeps_earlyGate | apply keeps_emit | apply keeps_modChan | apply keeps_stopStreams) | split | (apply Eq.refl) | exact selfTrue | exact selfChans | exact selfAnd | intro _

theorem keeps_execHalt {sK : State} (c : Fin 8) (s : State) (hK : sK.Keeps s) : ResKeeps sK (execHalt c s) := by
  unfold execHalt
  try dsimp only
  repeat' first | (with_reducible first | assumption | apply keeps_haltBody | apply keeps_seq | apply resKeeps_next | (apply keepsN_seq; case' he => assumption)) | split | (apply Eq.refl) | exact selfTrue | exact selfChans | exact selfAnd | intro _

theorem keeps_modStage {sK : State} (s : State) (f : Stage → Stage) (hK : sK.Keeps s) : sK.Keeps (State.modStage s f) := by
  unfold State.modStage
  try dsimp only
  repeat' first | (with_reducible first | assumption | apply keeps_modJup) | split | (apply Eq.refl) | exact selfTrue | exact selfChans | exact selfAnd | intro _

theorem keeps_modGrp {sK : State} (s : State) (g : Nat) (f : GrpStat → GrpStat) (hK : sK.Keeps s) : sK.Keeps (State.modGrp s g f) := by
  unfold State.modGrp
  try dsimp only
  repeat' first | (with_reducible first | assumption | apply keeps_modStage) | split | (apply Eq.refl) | exact selfTrue | exact selfChans | exact selfAnd | intro _

theorem keeps_setVote {sK : State} (s : State) (g : Nat) (c : Option VoteCtx) (hK : sK.Keeps s) : sK.Keeps (State.setVote s g c) := by
  unfold State.setVote
  try dsimp only
  repeat' first | (with_reducible first | assumption | apply keeps_modStage) | split | (apply Eq.refl) | exact selfTrue | exact selfChans | exact selfAnd | intro _

theorem keeps_modConjStage {sK : State} (s : State) (g : Nat) (f : ConjStage → ConjStage) (hK : sK.Keeps s) : sK.Keeps (State.modConjStage s g f) := by
  unfold State.modConjStage
  try dsimp only
  repeat' first | (with_reducible first | assumption | apply keeps_modStage) | split | (apply Eq.refl) | exact selfTrue | exact selfChans | exact selfAnd | intro _

theorem keeps_raiseStage {sK : State} (s : State) (code : Code) (ctx : Ctx) (hK : sK.Keeps s) : sK.Keeps (State.raiseStage s code ctx) := by
  unfold State.raiseStage
  try dsimp only
  repeat' first | (with_reducible first | assumption | apply keeps_raiseFault) | split | (apply Eq.refl) | exact selfTrue | exact selfChans | exact selfAnd | intro _

theorem keeps_raisePort {sK : State} (s : State) (p : Nat) (code : Code) (ctx : Ctx) (hK : sK.Keeps s) : sK.Keeps (State.raisePort s p code ctx) := by
  unfold State.raisePort
  try dsimp only
  repeat' first | (with_reducible first | assumption | apply keeps_raiseFault) | split | (apply Eq.refl) | exact selfTrue | exact selfChans | exact selfAnd | intro _

theorem keeps_setJobWord {sK : State} (s : State) (job : BitVec 15) (i : Nat) (w : Word) (hK : sK.Keeps s) : sK.Keeps (State.setJobWord s job i w) := by
  unfold State.setJobWord
  try dsimp only
  repeat' first | (with_reducible first | assumption | apply keeps_setReg64) | split | (apply Eq.refl) | exact selfTrue | exact selfChans | exact selfAnd | intro _

theorem keeps_sendRelease {sK : State} (s : State) (g : Nat) (job : BitVec 15) (rTick : Tick) (begin_ : Tick) (hK : sK.Keeps s) : sK.Keeps (State.sendRelease s g job rTick begin_) := by
  unfold State.sendRelease
  try dsimp only
  repeat' first | (with_reducible first | assumption | apply keeps_advance | apply keeps_modConjStage | apply keeps_sendAll) | split | (apply Eq.refl) | exact selfTrue | exact selfChans | exact selfAnd | intro _

theorem keeps_failOne {sK : State} (s : State) (g : Nat) (early : Bool) (begin_ : Tick) (lo : BitVec 16) (hK : sK.Keeps s) : sK.Keeps (State.failOne s g early begin_ lo) := by
  unfold State.failOne
  try dsimp only
  repeat' first | (with_reducible first | assumption | apply keeps_modConjStage | apply keeps_send | apply keeps_sendAll | apply resKeeps_next) | split | (apply Eq.refl) | exact selfTrue | exact selfChans | exact selfAnd | intro _

theorem keeps_failRound {sK : State} (s : State) (g : Nat) (begin_ : Tick) (lo : BitVec 16) (hK : sK.Keeps s) : sK.Keeps (State.failRound s g begin_ lo) := by
  unfold State.failRound
  try dsimp only
  repeat' first | (with_reducible first | assumption | apply keeps_failOne | apply resKeeps_next) | split | (apply Eq.refl) | exact selfTrue | exact selfChans | exact selfAnd | intro _

theorem keeps_movePartners {sK : State} (s : State) (hK : sK.Keeps s) : sK.Keeps (State.movePartners s) := by
  unfold State.movePartners
  try dsimp only
  repeat' first | (with_reducible first | assumption | apply keeps_modJup) | split | (apply Eq.refl) | exact selfTrue | exact selfChans | exact selfAnd | intro _

theorem keeps_checkLag {sK : State} (s : State) (hK : sK.Keeps s) : sK.Keeps (State.checkLag s) := by
  unfold State.checkLag
  try dsimp only
  repeat' first | (with_reducible first | assumption | apply keeps_endLevel | apply keeps_modJup | apply keeps_raiseLevel) | split | (apply Eq.refl) | exact selfTrue | exact selfChans | exact selfAnd | intro _

theorem keeps_openEntry {sK : State} (s : State) (kind : TrackKind) (h : Half) (job : Option (BitVec 15)) (dl : Tick) {t : State}
    (he : s.openEntry kind h job dl = some t) (hK : sK.Keeps s) : sK.Keeps t := by
  unfold State.openEntry at he
  split at he
  · cases he
  · injection he with he; subst he; exact keeps_track _ _ hK

theorem keeps_openFlow {sK : State} (s : State) (kind : TrackKind) (job : BitVec 15) {t : State}
    (he : s.openFlow kind job = some t) (hK : sK.Keeps s) : sK.Keeps t := by
  unfold State.openFlow at he
  split at he
  · injection he with he; subst he; exact hK
  · exact keeps_openEntry _ _ _ _ _ he hK

theorem keeps_openShadows {sK : State} (s : State) (job : BitVec 15) (step : BitVec 64) (hK : sK.Keeps s) : sK.Keeps (State.openShadows s job step) := by
  unfold State.openShadows
  dsimp only
  split
  · exact hK
  refine keeps_modJup _ ?_ id
  split
  · exact hK
  · cases he : s.openFlow .shadowFlow job with
    | none => exact hK
    | some t => exact keeps_openFlow _ _ _ he hK

theorem keeps_noteCommit {sK : State} (s : State) (job : BitVec 15) (stepLo : BitVec 16) (hK : sK.Keeps s) : sK.Keeps (State.noteCommit s job stepLo) := by
  unfold State.noteCommit
  try dsimp only
  repeat' first | (with_reducible first | assumption | apply keeps_checkLag | apply keeps_modStage | apply keeps_openShadows) | split | (apply Eq.refl) | exact selfTrue | exact selfChans | exact selfAnd | intro _

theorem keeps_noteRerun {sK : State} (s : State) (job : BitVec 15) (stepLo : BitVec 16) (hK : sK.Keeps s) : sK.Keeps (State.noteRerun s job stepLo) := by
  unfold State.noteRerun
  try dsimp only
  repeat' first | (with_reducible first | assumption | apply keeps_modStage) | split | (apply Eq.refl) | exact selfTrue | exact selfChans | exact selfAnd | intro _

theorem keeps_gateSettled {sK : State} (s : State) (job : BitVec 15) (passed : Bool) (begin_ : Tick) (lo : BitVec 16) (hK : sK.Keeps s) : sK.Keeps (State.gateSettled s job passed begin_ lo) := by
  unfold State.gateSettled
  try dsimp only
  repeat' first | (with_reducible first | assumption | apply keeps_failRound | apply keeps_modConjStage | apply keeps_foldl) | split | (apply Eq.refl) | exact selfTrue | exact selfChans | exact selfAnd | intro _

theorem keeps_modPend {sK : State} (s : State) (c f : Nat) (g : PendVote → PendVote) (hK : sK.Keeps s) : sK.Keeps (State.modPend s c f g) := by
  unfold State.modPend
  try dsimp only
  repeat' first | (with_reducible first | assumption | apply keeps_modProg) | split | (apply Eq.refl) | exact selfTrue | exact selfChans | exact selfAnd | intro _

theorem keeps_settleGate {sK : State} (s : State) (c : Nat) (passed : Bool) (hK : sK.Keeps s) : sK.Keeps (State.settleGate s c passed) := by
  unfold State.settleGate
  try dsimp only
  repeat' first | (with_reducible first | assumption | apply keeps_modPend | apply keeps_modProg) | split | (apply Eq.refl) | exact selfTrue | exact selfChans | exact selfAnd | intro _

theorem keeps_settleFailed {sK : State} (s : State) (c : Nat) (v : PendVote) (hK : sK.Keeps s) : sK.Keeps (State.settleFailed s c v) := by
  unfold State.settleFailed
  try dsimp only
  repeat' first | (with_reducible first | assumption | apply keeps_modChan | apply keeps_modPend | apply keeps_raiseChan) | split | (apply Eq.refl) | exact selfTrue | exact selfChans | exact selfAnd | intro _

theorem keeps_settleValid {sK : State} (s : State) (c : Nat) (v : PendVote) (status : BitVec 7) (ws : List Word) (hK : sK.Keeps s) : sK.Keeps (State.settleValid s c v status ws) := by
  unfold State.settleValid
  try dsimp only
  repeat' first | (with_reducible first | assumption | apply keeps_emit | apply keeps_modChan | apply keeps_modPend | apply keeps_sramWrite) | split | (apply Eq.refl) | exact selfTrue | exact selfChans | exact selfAnd | intro _

theorem keeps_settle {sK : State} (s : State) (c : Nat) (v : PendVote) (hK : sK.Keeps s) : sK.Keeps (State.settle s c v) := by
  unfold State.settle
  try dsimp only
  repeat' first | (with_reducible first | assumption | apply keeps_raiseChan | apply keeps_settleFailed | apply keeps_settleGate | apply keeps_settleValid | apply keeps_wantHold) | split | (apply Eq.refl) | exact selfTrue | exact selfChans | exact selfAnd | intro _

theorem keeps_execSelectorValid {sK : State} (c : Fin 8) (field : Fin 5) (s : State) (hK : sK.Keeps s) : ResKeeps sK (execSelectorValid c field s) := by
  unfold execSelectorValid
  try dsimp only
  repeat' first | (with_reducible first | assumption | apply keeps_settle | apply resKeeps_next) | split | (apply Eq.refl) | exact selfTrue | exact selfChans | exact selfAnd | intro _

theorem keeps_takeResult {sK : State} (s : State) (c : Nat) (v : PendVote) (ws : List Word) (hK : sK.Keeps s) : sK.Keeps (State.takeResult s c v ws) := by
  unfold State.takeResult
  try dsimp only
  repeat' first | (with_reducible first | assumption | apply keeps_modPend | apply keeps_modTsu | apply keeps_settle | apply keeps_settleGate) | split | (apply Eq.refl) | exact selfTrue | exact selfChans | exact selfAnd | intro _

theorem keeps_strayResult {sK : State} (s : State) (ws : List Word) (hK : sK.Keeps s) : sK.Keeps (State.strayResult s ws) := by
  unfold State.strayResult
  try dsimp only
  repeat' first | (with_reducible first | assumption | apply keeps_modTsu | apply keeps_raiseFault) | split | (apply Eq.refl) | exact selfTrue | exact selfChans | exact selfAnd | intro _

theorem keeps_voteResult {sK : State} (s : State) (ws : List Word) (hK : sK.Keeps s) : sK.Keeps (State.voteResult s ws) := by
  unfold State.voteResult
  try dsimp only
  repeat' first | (with_reducible first | assumption | apply keeps_modProg | apply keeps_strayResult | apply keeps_takeResult | apply keeps_foldl) | split | (apply Eq.refl) | exact selfTrue | exact selfChans | exact selfAnd | intro _

theorem keeps_execVoteResultRx {sK : State} (words : List Word) (s : State) (hK : sK.Keeps s) : ResKeeps sK (execVoteResultRx words s) := by
  unfold execVoteResultRx
  try dsimp only
  repeat' first | (with_reducible first | assumption | apply keeps_consume | apply keeps_stepIn | apply keeps_voteResult | (apply keepsN_stepIn; case' he => assumption)) | split | (apply Eq.refl) | exact selfTrue | exact selfChans | exact selfAnd | intro _

theorem keeps_gateOver {sK : State} (s : State) (v : VoteCtx) (failed top : Bool) (hK : sK.Keeps s) : sK.Keeps (State.gateOver s v failed top) := by
  unfold State.gateOver
  try dsimp only
  repeat' first | (with_reducible first | assumption | apply keeps_noteRerun | apply keeps_setJobWord) | split | (apply Eq.refl) | exact selfTrue | exact selfChans | exact selfAnd | intro _

theorem keeps_closeVote {sK : State} (s : State) (v : VoteCtx) (failed : Bool) (o : VoteOut) (missing : List (Bool × Nat)) (hK : sK.Keeps s) : sK.Keeps (State.closeVote s v failed o missing) := by
  unfold State.closeVote
  try dsimp only
  repeat' first | (with_reducible first | assumption | apply keeps_gateOver | apply keeps_gateSettled | apply keeps_modGrp | apply keeps_modStage | apply keeps_noteCommit | apply keeps_setVote) | split | (apply Eq.refl) | exact selfTrue | exact selfChans | exact selfAnd | intro _

theorem keeps_sendStage {sK : State} (s : State) (v : VoteCtx) (span : Nat) (failed : Bool) (o : VoteOut) (atOnce : Bool := false) (hK : sK.Keeps s) : sK.Keeps (State.sendStage s v span failed o atOnce) := by
  unfold State.sendStage
  try dsimp only
  repeat' first | (with_reducible first | assumption | apply keeps_emit | apply keeps_sendAll) | split | (apply Eq.refl) | exact selfTrue | exact selfChans | exact selfAnd | intro _

theorem keeps_divergence {sK : State} (s : State) (v : VoteCtx) (inj : Bool) (o : VoteOut) (ms : List (BitVec 17)) (hK : sK.Keeps s) : sK.Keeps (State.divergence s v inj o ms) := by
  unfold State.divergence
  try dsimp only
  repeat' first | (with_reducible first | assumption | apply keeps_modStage | apply keeps_raiseStage) | split | (apply Eq.refl) | exact selfTrue | exact selfChans | exact selfAnd | intro _

theorem keeps_topResult {sK : State} (s : State) (g : GroupRec) (v : VoteCtx) (hK : sK.Keeps s) : sK.Keeps (State.topResult s g v) := by
  unfold State.topResult
  try dsimp only
  repeat' first | (with_reducible first | assumption | apply keeps_closeVote | apply keeps_divergence | apply keeps_modGrp | apply keeps_modStage | apply keeps_raiseStage | apply keeps_sendStage) | split | (apply Eq.refl) | exact selfTrue | exact selfChans | exact selfAnd | intro _

theorem keeps_failVote {sK : State} (s : State) (g : GroupRec) (v : VoteCtx) (missing : List (Bool × Nat)) (atOnce : Bool := false) (hK : sK.Keeps s) : sK.Keeps (State.failVote s g v missing atOnce) := by
  unfold State.failVote
  try dsimp only
  repeat' first | (with_reducible first | assumption | apply keeps_closeVote | apply keeps_sendStage) | split | (apply Eq.refl) | exact selfTrue | exact selfChans | exact selfAnd | intro _

theorem keeps_finishVote {sK : State} (s : State) (g : GroupRec) (v : VoteCtx) (hK : sK.Keeps s) : sK.Keeps (State.finishVote s g v) := by
  unfold State.finishVote
  try dsimp only
  repeat' first | (with_reducible first | assumption | apply keeps_closeVote | apply keeps_failVote | apply keeps_sendStage | apply keeps_topResult) | split | (apply Eq.refl) | exact selfTrue | exact selfChans | exact selfAnd | intro _

theorem keeps_finishGate {sK : State} (s : State) (g : GroupRec) (v : VoteCtx) (hK : sK.Keeps s) : sK.Keeps (State.finishGate s g v) := by
  unfold State.finishGate
  try dsimp only
  repeat' first | (with_reducible first | assumption | apply keeps_closeVote | apply keeps_failVote | apply keeps_sendStage) | split | (apply Eq.refl) | exact selfTrue | exact selfChans | exact selfAnd | intro _

theorem keeps_retryGates {sK : State} (s : State) (job : BitVec 15) (hK : sK.Keeps s) : sK.Keeps (State.retryGates s job) := by
  unfold State.retryGates
  try dsimp only
  repeat' first | (with_reducible first | assumption | apply keeps_finishGate | apply keeps_foldl) | split | (apply Eq.refl) | exact selfTrue | exact selfChans | exact selfAnd | intro _

theorem keeps_afterFold {sK : State} (s : State) (g : GroupRec) (v : VoteCtx) (hK : sK.Keeps s) : sK.Keeps (State.afterFold s g v) := by
  unfold State.afterFold
  try dsimp only
  repeat' first | (with_reducible first | assumption | apply keeps_finishGate | apply keeps_finishVote | apply keeps_retryGates | apply keeps_setVote) | split | (apply Eq.refl) | exact selfTrue | exact selfChans | exact selfAnd | intro _

theorem keeps_strayInput {sK : State} (s : State) (port : Nat) (group : BitVec 12) (hK : sK.Keeps s) : sK.Keeps (State.strayInput s port group) := by
  unfold State.strayInput
  try dsimp only
  repeat' first | (with_reducible first | assumption | apply keeps_modGrp | apply keeps_raisePort) | split | (apply Eq.refl) | exact selfTrue | exact selfChans | exact selfAnd | intro _

theorem keeps_lateInput {sK : State} (s : State) (i : VoteInput) (hK : sK.Keeps s) : sK.Keeps (State.lateInput s i) := by
  unfold State.lateInput
  try dsimp only
  repeat' first | (with_reducible first | assumption | apply keeps_late | apply keeps_modGrp | apply keeps_modStage) | split | (apply Eq.refl) | exact selfTrue | exact selfChans | exact selfAnd | intro _

theorem keeps_foldInput {sK : State} (s : State) (port : Nat) (g : GroupRec) (i : VoteInput) (hK : sK.Keeps s) : sK.Keeps (State.foldInput s port g i) := by
  unfold State.foldInput
  try dsimp only
  repeat' first | (with_reducible first | assumption | apply keeps_afterFold | apply keeps_failVote | apply keeps_late | apply keeps_lateInput | apply keeps_modGrp | apply keeps_raiseStage | apply keeps_retryGates | apply keeps_strayInput | apply keeps_foldl) | split | (apply Eq.refl) | exact selfTrue | exact selfChans | exact selfAnd | intro _

theorem keeps_contribution {sK : State} (s : State) (port : Nat) (ws : List Word) (hK : sK.Keeps s) : sK.Keeps (State.contribution s port ws) := by
  unfold State.contribution
  try dsimp only
  repeat' first | (with_reducible first | assumption | apply keeps_foldInput | apply keeps_strayInput | apply keeps_foldl) | split | (apply Eq.refl) | exact selfTrue | exact selfChans | exact selfAnd | intro _

theorem keeps_execVoteContributionRx {sK : State} (port : Nat) (words : List Word) (s : State) (hK : sK.Keeps s) : ResKeeps sK (execVoteContributionRx port words s) := by
  unfold execVoteContributionRx
  try dsimp only
  repeat' first | (with_reducible first | assumption | apply keeps_consume | apply keeps_contribution | apply resKeeps_next) | split | (apply Eq.refl) | exact selfTrue | exact selfChans | exact selfAnd | intro _

theorem keeps_partialIn {sK : State} (s : State) (port : Nat) (p : VotePartial) (hK : sK.Keeps s) : sK.Keeps (State.partialIn s port p) := by
  unfold State.partialIn
  try dsimp only
  repeat' first | (with_reducible first | assumption | apply keeps_foldInput | apply keeps_strayInput | apply keeps_foldl) | split | (apply Eq.refl) | exact selfTrue | exact selfChans | exact selfAnd | intro _

theorem keeps_execVotePartialRx {sK : State} (port : Nat) (p : VotePartial) (s : State) (hK : sK.Keeps s) : ResKeeps sK (execVotePartialRx port p s) := by
  unfold execVotePartialRx
  try dsimp only
  repeat' first | (with_reducible first | assumption | apply keeps_partialIn | apply resKeeps_next) | split | (apply Eq.refl) | exact selfTrue | exact selfChans | exact selfAnd | intro _

theorem keeps_lackAt {sK : State} (s : State) (g : GroupRec) (v : VoteCtx) (m : List (Bool × Nat)) (hK : sK.Keeps s) : sK.Keeps (State.lackAt s g v m) := by
  unfold State.lackAt
  try dsimp only
  repeat' first | (with_reducible first | assumption | apply keeps_failVote | apply keeps_raiseStage) | split | (apply Eq.refl) | exact selfTrue | exact selfChans | exact selfAnd | intro _

theorem keeps_endVote {sK : State} (s : State) (g : GroupRec) (v : VoteCtx) (hK : sK.Keeps s) : sK.Keeps (State.endVote s g v) := by
  unfold State.endVote
  try dsimp only
  repeat' first | (with_reducible first | assumption | apply keeps_finishVote | apply keeps_lackAt) | split | (apply Eq.refl) | exact selfTrue | exact selfChans | exact selfAnd | intro _

theorem keeps_votesFirst {sK : State} (s : State) (v : VoteCtx) (hK : sK.Keeps s) : sK.Keeps (State.votesFirst s v) := by
  unfold State.votesFirst
  try dsimp only
  repeat' first | (with_reducible first | assumption | apply keeps_endVote | apply keeps_foldl) | split | (apply Eq.refl) | exact selfTrue | exact selfChans | exact selfAnd | intro _

theorem keeps_atDeadline {sK : State} (s : State) (g : GroupRec) (v : VoteCtx) (hK : sK.Keeps s) : sK.Keeps (State.atDeadline s g v) := by
  unfold State.atDeadline
  try dsimp only
  repeat' first | (with_reducible first | assumption | apply keeps_endVote | apply keeps_finishGate | apply keeps_lackAt | apply keeps_retryGates | apply keeps_votesFirst) | split | (apply Eq.refl) | exact selfTrue | exact selfChans | exact selfAnd | intro _

theorem keeps_execVoteDeadline {sK : State} (group : BitVec 12) (s : State) (hK : sK.Keeps s) : ResKeeps sK (execVoteDeadline group s) := by
  unfold execVoteDeadline
  try dsimp only
  repeat' first | (with_reducible first | assumption | apply keeps_atDeadline | apply resKeeps_next) | split | (apply Eq.refl) | exact selfTrue | exact selfChans | exact selfAnd | intro _

theorem keeps_modGroup {sK : State} (s : State) (d : Dev) (h : Half) (f : MemberGroup → MemberGroup) (hK : sK.Keeps s) : sK.Keeps (State.modGroup s d h f) := by
  unfold State.modGroup
  try dsimp only
  repeat' first | (with_reducible first | assumption | apply keeps_modCom) | split | (apply Eq.refl) | exact selfTrue | exact selfChans | exact selfAnd | intro _

theorem keeps_modCoord {sK : State} (s : State) (d : Dev) (h : Half) (f : CoordGroup → CoordGroup) (hK : sK.Keeps s) : sK.Keeps (State.modCoord s d h f) := by
  unfold State.modCoord
  try dsimp only
  repeat' first | (with_reducible first | assumption | apply keeps_modCom) | split | (apply Eq.refl) | exact selfTrue | exact selfChans | exact selfAnd | intro _

theorem keeps_dropGroup {sK : State} (s : State) (d : Dev) (h : Half) (hK : sK.Keeps s) : sK.Keeps (State.dropGroup s d h) := by
  unfold State.dropGroup
  try dsimp only
  repeat' first | (with_reducible first | assumption | apply keeps_modCom) | split | (apply Eq.refl) | exact selfTrue | exact selfChans | exact selfAnd | intro _

theorem keeps_dropCoord {sK : State} (s : State) (d : Dev) (h : Half) (hK : sK.Keeps s) : sK.Keeps (State.dropCoord s d h) := by
  unfold State.dropCoord
  try dsimp only
  repeat' first | (with_reducible first | assumption | apply keeps_modCom) | split | (apply Eq.refl) | exact selfTrue | exact selfChans | exact selfAnd | intro _

theorem keeps_discardGroup {sK : State} (s : State) (d : Dev) (h : Half) (hK : sK.Keeps s) : sK.Keeps (State.discardGroup s d h) := by
  unfold State.discardGroup
  try dsimp only
  repeat' first | (with_reducible first | assumption | apply keeps_dropGroup | apply keeps_emit) | split | (apply Eq.refl) | exact selfTrue | exact selfChans | exact selfAnd | intro _

theorem keeps_warnRefused {sK : State} (s : State) (reason : BitVec 8) (path : BitVec 32) (hK : sK.Keeps s) : sK.Keeps (State.warnRefused s reason path).2 := by
  unfold State.warnRefused
  try dsimp only
  repeat' first | (with_reducible first | assumption | apply keeps_fresh | (apply keepsE_fresh; case' he => assumption)) | exact keeps_fresh hK | split | (apply Eq.refl) | exact selfTrue | exact selfChans | exact selfAnd | intro _

theorem keepsE_warnRefused {sK : State} (s : State) (reason : BitVec 8) (path : BitVec 32)  {t' : State} {y' : Bool} (he : (State.warnRefused s reason path) = (y', t')) (hK : sK.Keeps s) : sK.Keeps t' := by have := keeps_warnRefused s reason path  hK; rw [he] at this; exact this

theorem keeps_abortCoord {sK : State} (s : State) (d : Dev) (h : Half) (reason : BitVec 8) (path : BitVec 32) (hK : sK.Keeps s) : sK.Keeps (State.abortCoord s d h reason path) := by
  unfold State.abortCoord
  try dsimp only
  repeat' first | (with_reducible first | assumption | apply keeps_discardGroup | apply keeps_dropCoord | apply keeps_modCoord | apply keeps_post | apply keeps_sendAll | apply keeps_warnRefused | (apply keepsE_warnRefused; case' he => assumption)) | split | (apply Eq.refl) | exact selfTrue | exact selfChans | exact selfAnd | intro _

theorem keeps_fenceOneGroup {sK : State} (s : State) (p : Nat) (g : MemberGroup) (hK : sK.Keeps s) : sK.Keeps (State.fenceOneGroup s p g) := by
  unfold State.fenceOneGroup
  try dsimp only
  repeat' first | (with_reducible first | assumption | apply keeps_abortCoord | apply keeps_modGroup | apply keeps_sendAll) | split | (apply Eq.refl) | exact selfTrue | exact selfChans | exact selfAnd | intro _

theorem keeps_fenceGroups {sK : State} (s : State) (p : Nat) (hK : sK.Keeps s) : sK.Keeps (State.fenceGroups s p) := by
  unfold State.fenceGroups
  try dsimp only
  repeat' first | (with_reducible first | assumption | apply keeps_fenceOneGroup | apply keeps_foldl) | split | (apply Eq.refl) | exact selfTrue | exact selfChans | exact selfAnd | intro _

theorem keeps_satisfy {sK : State} (s : State) (r : WaitRec) (hK : sK.Keeps s) : sK.Keeps (State.satisfy s r) := by
  unfold State.satisfy
  try dsimp only
  repeat' first | (with_reducible first | assumption | apply keeps_answerCore | apply keeps_dropWait | apply keeps_modProg | apply keeps_putSlot) | split | (apply Eq.refl) | exact selfTrue | exact selfChans | exact selfAnd | intro _

theorem keeps_execWaitSatisfied {sK : State} (w : Waiter) (s : State) (hK : sK.Keeps s) : ResKeeps sK (execWaitSatisfied w s) := by
  unfold execWaitSatisfied
  try dsimp only
  repeat' first | (with_reducible first | assumption | apply keeps_satisfy | apply keeps_sramRead | apply resKeeps_next) | split | (apply Eq.refl) | exact selfTrue | exact selfChans | exact selfAnd | intro _

theorem keeps_execSyncTimeout {sK : State} (w : Waiter) (s : State) (hK : sK.Keeps s) : ResKeeps sK (execSyncTimeout w s) := by
  unfold execSyncTimeout
  try dsimp only
  repeat' first | (with_reducible first | assumption | apply keeps_expireWait | apply resKeeps_next) | split | (apply Eq.refl) | exact selfTrue | exact selfChans | exact selfAnd | intro _

theorem keeps_execStepWatchdog {sK : State} (w : Waiter) (s : State) (hK : sK.Keeps s) : ResKeeps sK (execStepWatchdog w s) := by
  unfold execStepWatchdog
  try dsimp only
  repeat' first | (with_reducible first | assumption | apply keeps_expireWait | apply resKeeps_next) | split | (apply Eq.refl) | exact selfTrue | exact selfChans | exact selfAnd | intro _

theorem keeps_coreRefused {sK : State} (s : State) (r : CoreReq) (hK : sK.Keeps s) : sK.Keeps (State.coreRefused s r) := by
  unfold State.coreRefused
  try dsimp only
  repeat' first | (with_reducible first | assumption | apply keeps_answerCore | apply keeps_badObject | apply keeps_raiseFault) | split | (apply Eq.refl) | exact selfTrue | exact selfChans | exact selfAnd | intro _

theorem keeps_coreRemote {sK : State} (s : State) (r : CoreReq) (eg : EgAns) (op : Nat) (hK : sK.Keeps s) : sK.Keeps (State.coreRemote s r eg op) := by
  unfold State.coreRemote
  try dsimp only
  repeat' first | (with_reducible first | assumption | apply keeps_answerCore | apply keeps_coreRefused | apply keeps_remoteSignal) | split | (apply Eq.refl) | exact selfTrue | exact selfChans | exact selfAnd | intro _

theorem keeps_coreChange {sK : State} (s : State) (r : CoreReq) (eg : EgAns) (op : Nat) (hK : sK.Keeps s) : sK.Keeps (State.coreChange s r eg op) := by
  unfold State.coreChange
  try dsimp only
  repeat' first | (with_reducible first | assumption | apply keeps_coreRefused | apply keeps_coreRemote | apply keeps_objOp) | split | (apply Eq.refl) | exact selfTrue | exact selfChans | exact selfAnd | intro _

theorem keeps_execCoreSet {sK : State} (r : CoreReq) (eg : EgAns) (s : State) (hK : sK.Keeps s) : ResKeeps sK (execCoreSet r eg s) := by
  unfold execCoreSet
  try dsimp only
  repeat' first | (with_reducible first | assumption | apply keeps_coreChange | apply keeps_mainIn | (apply keepsN_mainIn; case' he => assumption)) | split | (apply Eq.refl) | exact selfTrue | exact selfChans | exact selfAnd | intro _

theorem keeps_execCoreClear {sK : State} (r : CoreReq) (eg : EgAns) (s : State) (hK : sK.Keeps s) : ResKeeps sK (execCoreClear r eg s) := by
  unfold execCoreClear
  try dsimp only
  repeat' first | (with_reducible first | assumption | apply keeps_coreChange | apply keeps_mainIn | (apply keepsN_mainIn; case' he => assumption)) | split | (apply Eq.refl) | exact selfTrue | exact selfChans | exact selfAnd | intro _

theorem keeps_execCoreGive {sK : State} (r : CoreReq) (eg : EgAns) (s : State) (hK : sK.Keeps s) : ResKeeps sK (execCoreGive r eg s) := by
  unfold execCoreGive
  try dsimp only
  repeat' first | (with_reducible first | assumption | apply keeps_coreChange | apply keeps_mainIn | (apply keepsN_mainIn; case' he => assumption)) | split | (apply Eq.refl) | exact selfTrue | exact selfChans | exact selfAnd | intro _

theorem keeps_execCoreTake {sK : State} (r : CoreReq) (s : State) (hK : sK.Keeps s) : ResKeeps sK (execCoreTake r s) := by
  unfold execCoreTake
  try dsimp only
  repeat' first | (with_reducible first | assumption | apply keeps_coreRefused | apply keeps_mainIn | apply keeps_objOp | (apply keepsN_mainIn; case' he => assumption)) | split | (apply Eq.refl) | exact selfTrue | exact selfChans | exact selfAnd | intro _

theorem keeps_coreWait {sK : State} (s : State) (r : CoreReq) (cond : Nat) (hK : sK.Keeps s) : sK.Keeps (State.coreWait s r cond) := by
  unfold State.coreWait
  try dsimp only
  repeat' first | (with_reducible first | assumption | apply keeps_coreRefused | apply keeps_modSync) | split | (apply Eq.refl) | exact selfTrue | exact selfChans | exact selfAnd | intro _

theorem keeps_execCoreWaitSet {sK : State} (r : CoreReq) (s : State) (hK : sK.Keeps s) : ResKeeps sK (execCoreWaitSet r s) := by
  unfold execCoreWaitSet
  try dsimp only
  repeat' first | (with_reducible first | assumption | apply keeps_coreWait | apply keeps_mainIn | (apply keepsN_mainIn; case' he => assumption)) | split | (apply Eq.refl) | exact selfTrue | exact selfChans | exact selfAnd | intro _

theorem keeps_execCoreWaitClear {sK : State} (r : CoreReq) (s : State) (hK : sK.Keeps s) : ResKeeps sK (execCoreWaitClear r s) := by
  unfold execCoreWaitClear
  try dsimp only
  repeat' first | (with_reducible first | assumption | apply keeps_coreWait | apply keeps_mainIn | (apply keepsN_mainIn; case' he => assumption)) | split | (apply Eq.refl) | exact selfTrue | exact selfChans | exact selfAnd | intro _

theorem keeps_execCoreWaitCount {sK : State} (r : CoreReq) (s : State) (hK : sK.Keeps s) : ResKeeps sK (execCoreWaitCount r s) := by
  unfold execCoreWaitCount
  try dsimp only
  repeat' first | (with_reducible first | assumption | apply keeps_coreWait | apply keeps_mainIn | (apply keepsN_mainIn; case' he => assumption)) | split | (apply Eq.refl) | exact selfTrue | exact selfChans | exact selfAnd | intro _

theorem keeps_execCoreWaitTake {sK : State} (r : CoreReq) (s : State) (hK : sK.Keeps s) : ResKeeps sK (execCoreWaitTake r s) := by
  unfold execCoreWaitTake
  try dsimp only
  repeat' first | (with_reducible first | assumption | apply keeps_coreWait | apply keeps_mainIn | (apply keepsN_mainIn; case' he => assumption)) | split | (apply Eq.refl) | exact selfTrue | exact selfChans | exact selfAnd | intro _

theorem keeps_execCoreEnter {sK : State} (r : CoreReq) (s : State) (hK : sK.Keeps s) : ResKeeps sK (execCoreEnter r s) := by
  unfold execCoreEnter
  try dsimp only
  repeat' first | (with_reducible first | assumption | apply keeps_coreRefused | apply keeps_enterConj | apply keeps_mainIn | (apply keepsN_mainIn; case' he => assumption)) | split | (apply Eq.refl) | exact selfTrue | exact selfChans | exact selfAnd | intro _

theorem keeps_execCoreArrive {sK : State} (r : CoreReq) (s : State) (hK : sK.Keeps s) : ResKeeps sK (execCoreArrive r s) := by
  unfold execCoreArrive
  try dsimp only
  repeat' first | (with_reducible first | assumption | apply keeps_coreRefused | apply keeps_enterConj | apply keeps_mainIn | (apply keepsN_mainIn; case' he => assumption)) | split | (apply Eq.refl) | exact selfTrue | exact selfChans | exact selfAnd | intro _

theorem keeps_signalIn {sK : State} (s : State) (ws : List Word) (hK : sK.Keeps s) : sK.Keeps (State.signalIn s ws) := by
  unfold State.signalIn
  try dsimp only
  repeat' first | (with_reducible first | assumption | apply keeps_badObject | apply keeps_emit | apply keeps_modSync | apply keeps_stepFault) | split | (apply Eq.refl) | exact selfTrue | exact selfChans | exact selfAnd | intro _

theorem keeps_execRemoteSignalRx {sK : State} (words : List Word) (s : State) (hK : sK.Keeps s) : ResKeeps sK (execRemoteSignalRx words s) := by
  unfold execRemoteSignalRx
  try dsimp only
  repeat' first | (with_reducible first | assumption | apply keeps_consume | apply keeps_signalIn | apply keeps_stepIn | (apply keepsN_stepIn; case' he => assumption)) | split | (apply Eq.refl) | exact selfTrue | exact selfChans | exact selfAnd | intro _

theorem keeps_execNiWatchReport {sK : State} (tag : BitVec 8) (s : State) (hK : sK.Keeps s) : ResKeeps sK (execNiWatchReport tag s) := by
  unfold execNiWatchReport
  try dsimp only
  repeat' first | (with_reducible first | assumption | apply keeps_mainIn | apply keeps_modSync | (apply keepsN_mainIn; case' he => assumption)) | split | (apply Eq.refl) | exact selfTrue | exact selfChans | exact selfAnd | intro _

theorem keeps_execSignalVisible {sK : State} (tag : BitVec 8) (s : State) (hK : sK.Keeps s) : ResKeeps sK (execSignalVisible tag s) := by
  unfold execSignalVisible
  try dsimp only
  repeat' first | (with_reducible first | assumption | apply keeps_modSync | apply keeps_objOp | apply resKeeps_next) | split | (apply Eq.refl) | exact selfTrue | exact selfChans | exact selfAnd | intro _

theorem keeps_dbgIgnored {sK : State} (s : State) (hK : sK.Keeps s) : sK.Keeps (State.dbgIgnored s) := by
  unfold State.dbgIgnored
  try dsimp only
  repeat' first | (with_reducible first | assumption | apply keeps_modSync) | split | (apply Eq.refl) | exact selfTrue | exact selfChans | exact selfAnd | intro _

theorem keeps_dbgObject {sK : State} (s : State) (core : BitVec 11) (slot : BitVec 6) (kind op : Nat) (v : BitVec 8) (hK : sK.Keeps s) : sK.Keeps (State.dbgObject s core slot kind op v) := by
  unfold State.dbgObject
  try dsimp only
  repeat' first | (with_reducible first | assumption | apply keeps_dbgIgnored | apply keeps_denied | apply keeps_modSync) | split | (apply Eq.refl) | exact selfTrue | exact selfChans | exact selfAnd | intro _

theorem keeps_dbgAct {sK : State} (s : State) (core : BitVec 11) (slot : BitVec 6) (op : Nat) (v : BitVec 8) (hK : sK.Keeps s) : sK.Keeps (State.dbgAct s core slot op v) := by
  unfold State.dbgAct
  try dsimp only
  repeat' first | (with_reducible first | assumption | apply keeps_modChan | apply keeps_modSync | apply keeps_putSlot | apply keeps_repeatBroken | apply keeps_foldl) | split | (apply Eq.refl) | exact selfTrue | exact selfChans | exact selfAnd | intro _

theorem keeps_dbgDue {sK : State} (s : State) (hK : sK.Keeps s) : sK.Keeps (State.dbgDue s) := by
  unfold State.dbgDue
  try dsimp only
  repeat' first | (with_reducible first | assumption | apply keeps_dbgAct | apply keeps_modSync | apply keeps_foldl) | split | (apply Eq.refl) | exact selfTrue | exact selfChans | exact selfAnd | intro _

theorem keeps_answerCores {sK : State} (s : State) (hK : sK.Keeps s) : sK.Keeps (State.answerCores s) := by
  unfold State.answerCores
  try dsimp only
  repeat' first | (with_reducible first | assumption | apply keeps_emit | apply keeps_modSync | apply keeps_foldl) | split | (apply Eq.refl) | exact selfTrue | exact selfChans | exact selfAnd | intro _

theorem keeps_execDbgSet {sK : State} (core : BitVec 11) (slot : BitVec 6) (s : State) (hK : sK.Keeps s) : ResKeeps sK (execDbgSet core slot s) := by
  unfold execDbgSet
  try dsimp only
  repeat' first | (with_reducible first | assumption | apply keeps_dbgObject | apply resKeeps_next) | split | (apply Eq.refl) | exact selfTrue | exact selfChans | exact selfAnd | intro _

theorem keeps_execDbgClear {sK : State} (core : BitVec 11) (slot : BitVec 6) (s : State) (hK : sK.Keeps s) : ResKeeps sK (execDbgClear core slot s) := by
  unfold execDbgClear
  try dsimp only
  repeat' first | (with_reducible first | assumption | apply keeps_dbgObject | apply resKeeps_next) | split | (apply Eq.refl) | exact selfTrue | exact selfChans | exact selfAnd | intro _

theorem keeps_execDbgPreset {sK : State} (core : BitVec 11) (slot : BitVec 6) (v : BitVec 8) (s : State) (hK : sK.Keeps s) : ResKeeps sK (execDbgPreset core slot v s) := by
  unfold execDbgPreset
  try dsimp only
  repeat' first | (with_reducible first | assumption | apply keeps_dbgObject | apply resKeeps_next) | split | (apply Eq.refl) | exact selfTrue | exact selfChans | exact selfAnd | intro _

theorem keeps_execDbgForceRelease {sK : State} (core : BitVec 11) (slot : BitVec 6) (s : State) (hK : sK.Keeps s) : ResKeeps sK (execDbgForceRelease core slot s) := by
  unfold execDbgForceRelease
  try dsimp only
  repeat' first | (with_reducible first | assumption | apply keeps_dbgObject | apply resKeeps_next) | split | (apply Eq.refl) | exact selfTrue | exact selfChans | exact selfAnd | intro _

theorem keeps_execForceReleaseApply {sK : State} (rec : BitVec 12) (s : State) (hK : sK.Keeps s) : ResKeeps sK (execForceReleaseApply rec s) := by
  unfold execForceReleaseApply
  try dsimp only
  repeat' first | (with_reducible first | assumption | apply keeps_due | apply keeps_modSync | apply keeps_releaseRec | apply resKeeps_next | (apply keepsN_due; case' he => assumption)) | split | (apply Eq.refl) | exact selfTrue | exact selfChans | exact selfAnd | intro _

theorem keeps_drainOver {sK : State} (s : State) (hK : sK.Keeps s) : sK.Keeps (State.drainOver s) := by
  unfold State.drainOver
  try dsimp only
  repeat' first | (with_reducible first | assumption | apply keeps_emit | apply keeps_modSync | apply keeps_send | apply keeps_foldl) | split | (apply Eq.refl) | exact selfTrue | exact selfChans | exact selfAnd | intro _

theorem keeps_execDrainDone {sK : State} (s : State) (hK : sK.Keeps s) : ResKeeps sK (execDrainDone s) := by
  unfold execDrainDone
  try dsimp only
  repeat' first | (with_reducible first | assumption | apply keeps_drainOver | apply keeps_mainIn | (apply keepsN_mainIn; case' he => assumption)) | split | (apply Eq.refl) | exact selfTrue | exact selfChans | exact selfAnd | intro _

theorem keeps_execLocalConjRelease {sK : State} (rec : BitVec 12) (s : State) (hK : sK.Keeps s) : ResKeeps sK (execLocalConjRelease rec s) := by
  unfold execLocalConjRelease
  try dsimp only
  repeat' first | (with_reducible first | assumption | apply keeps_due | apply keeps_releaseRec | apply resKeeps_next | (apply keepsN_due; case' he => assumption)) | split | (apply Eq.refl) | exact selfTrue | exact selfChans | exact selfAnd | intro _

theorem keeps_execConjReleaseApply {sK : State} (rec : BitVec 12) (s : State) (hK : sK.Keeps s) : ResKeeps sK (execConjReleaseApply rec s) := by
  unfold execConjReleaseApply
  try dsimp only
  repeat' first | (with_reducible first | assumption | apply keeps_due | apply keeps_releaseRec | apply resKeeps_next | (apply keepsN_due; case' he => assumption)) | split | (apply Eq.refl) | exact selfTrue | exact selfChans | exact selfAnd | intro _

theorem keeps_conjFailed {sK : State} (s : State) (rec : Nat) (group : BitVec 12) (hK : sK.Keeps s) : sK.Keeps (State.conjFailed s rec group) := by
  unfold State.conjFailed
  try dsimp only
  repeat' first | (with_reducible first | assumption | apply keeps_raiseChan | apply keeps_stopStep | apply keeps_foldl) | split | (apply Eq.refl) | exact selfTrue | exact selfChans | exact selfAnd | intro _

theorem keeps_releaseIn {sK : State} (s : State) (ws : List Word) (rec : Nat) (hK : sK.Keeps s) : sK.Keeps (State.releaseIn s ws rec) := by
  unfold State.releaseIn
  try dsimp only
  repeat' first | (with_reducible first | assumption | apply keeps_conjFailed | apply keeps_modConj | apply keeps_modSync | apply keeps_recRead | apply keeps_releaseRec) | split | (apply Eq.refl) | exact selfTrue | exact selfChans | exact selfAnd | intro _

theorem keeps_releaseMsg {sK : State} (s : State) (ws : List Word) (hK : sK.Keeps s) : sK.Keeps (State.releaseMsg s ws) := by
  unfold State.releaseMsg
  try dsimp only
  repeat' first | (with_reducible first | assumption | apply keeps_modSync | apply keeps_releaseIn | apply keeps_foldl) | split | (apply Eq.refl) | exact selfTrue | exact selfChans | exact selfAnd | intro _

theorem keeps_execConjReleaseRx {sK : State} (words : List Word) (s : State) (hK : sK.Keeps s) : ResKeeps sK (execConjReleaseRx words s) := by
  unfold execConjReleaseRx
  try dsimp only
  repeat' first | (with_reducible first | assumption | apply keeps_consume | apply keeps_releaseMsg | apply keeps_stepIn | (apply keepsN_stepIn; case' he => assumption)) | split | (apply Eq.refl) | exact selfTrue | exact selfChans | exact selfAnd | intro _

theorem keeps_strayArrival {sK : State} (s : State) (port g : Nat) (hK : sK.Keeps s) : sK.Keeps (State.strayArrival s port g) := by
  unfold State.strayArrival
  try dsimp only
  repeat' first | (with_reducible first | assumption | apply keeps_modConjStage | apply keeps_raisePort) | split | (apply Eq.refl) | exact selfTrue | exact selfChans | exact selfAnd | intro _

theorem keeps_roundFull {sK : State} (s : State) (g : Nat) (job : BitVec 15) (span : Nat) (begin_ : Tick) (hK : sK.Keeps s) : sK.Keeps (State.roundFull s g job span begin_) := by
  unfold State.roundFull
  try dsimp only
  repeat' first | (with_reducible first | assumption | apply keeps_send | apply keeps_sendRelease) | split | (apply Eq.refl) | exact selfTrue | exact selfChans | exact selfAnd | intro _

theorem keeps_arrivalOverrun {sK : State} (s : State) (port g : Nat) (begin_ : Tick) (lo : BitVec 16) (hK : sK.Keeps s) : sK.Keeps (State.arrivalOverrun s port g begin_ lo) := by
  unfold State.arrivalOverrun
  try dsimp only
  repeat' first | (with_reducible first | assumption | apply keeps_failRound | apply keeps_raisePort) | split | (apply Eq.refl) | exact selfTrue | exact selfChans | exact selfAnd | intro _

theorem keeps_earlyFull {sK : State} (s : State) (g : Nat) (job : BitVec 15) (span : Nat) (begin_ : Tick) (hK : sK.Keeps s) : sK.Keeps (State.earlyFull s g job span begin_) := by
  unfold State.earlyFull
  try dsimp only
  repeat' first | (with_reducible first | assumption | apply keeps_modConjStage | apply keeps_send | apply resKeeps_next) | split | (apply Eq.refl) | exact selfTrue | exact selfChans | exact selfAnd | intro _

theorem keeps_countArrival {sK : State} (s : State) (port g : Nat) (job : BitVec 15) (span : Nat) (begin_ : Tick) (early : Bool) (step : BitVec 16) (hK : sK.Keeps s) : sK.Keeps (State.countArrival s port g job span begin_ early step) := by
  unfold State.countArrival
  try dsimp only
  repeat' first | (with_reducible first | assumption | apply keeps_arrivalOverrun | apply keeps_earlyFull | apply keeps_modConjStage | apply keeps_roundFull | apply resKeeps_next) | split | (apply Eq.refl) | exact selfTrue | exact selfChans | exact selfAnd | intro _

theorem keeps_failedArrival {sK : State} (s : State) (g : Nat) (early : Bool) (run : BitVec 8) (begin_ : Tick) (lo : BitVec 16) (hK : sK.Keeps s) : sK.Keeps (State.failedArrival s g early run begin_ lo) := by
  unfold State.failedArrival
  try dsimp only
  repeat' first | (with_reducible first | assumption | apply keeps_failOne) | split | (apply Eq.refl) | exact selfTrue | exact selfChans | exact selfAnd | intro _

theorem keeps_arrival {sK : State} (s : State) (port : Nat) (ws : List Word) (hK : sK.Keeps s) : sK.Keeps (State.arrival s port ws) := by
  unfold State.arrival
  try dsimp only
  repeat' first | (with_reducible first | assumption | apply keeps_countArrival | apply keeps_failOne | apply keeps_failedArrival | apply keeps_strayArrival | apply resKeeps_next) | split | (apply Eq.refl) | exact selfTrue | exact selfChans | exact selfAnd | intro _

theorem keeps_execConjArrivalRx {sK : State} (port : Nat) (words : List Word) (s : State) (hK : sK.Keeps s) : ResKeeps sK (execConjArrivalRx port words s) := by
  unfold execConjArrivalRx
  try dsimp only
  repeat' first | (with_reducible first | assumption | apply keeps_arrival | apply keeps_consume | apply resKeeps_next) | split | (apply Eq.refl) | exact selfTrue | exact selfChans | exact selfAnd | intro _

theorem keeps_releaseMoves {sK : State} (s : State) (g : Nat) (job : BitVec 15) (span : Nat) (w0 : Word) (hK : sK.Keeps s) : sK.Keeps (State.releaseMoves s g job span w0) := by
  unfold State.releaseMoves
  try dsimp only
  repeat' first | (with_reducible first | assumption | apply keeps_advance | apply keeps_modConjStage | apply keeps_roundFull | apply resKeeps_next) | split | (apply Eq.refl) | exact selfTrue | exact selfChans | exact selfAnd | intro _

theorem keeps_releasePasses {sK : State} (s : State) (ws : List Word) (hK : sK.Keeps s) : sK.Keeps (State.releasePasses s ws) := by
  unfold State.releasePasses
  try dsimp only
  repeat' first | (with_reducible first | assumption | apply keeps_releaseMoves | apply keeps_sendAll) | split | (apply Eq.refl) | exact selfTrue | exact selfChans | exact selfAnd | intro _

theorem keeps_execTimeoutRecordClear {sK : State} (s : State) (hK : sK.Keeps s) : ResKeeps sK (execTimeoutRecordClear s) := by
  unfold execTimeoutRecordClear
  try dsimp only
  repeat' first | (with_reducible first | assumption | apply keeps_modSync | apply resKeeps_next) | split | (apply Eq.refl) | exact selfTrue | exact selfChans | exact selfAnd | intro _

theorem keeps_leave {sK : State} (s : State) (d : Dev) (m : Msg) (hK : sK.Keeps s) : sK.Keeps (State.leave s d m) := by
  unfold State.leave
  try dsimp only
  repeat' first | (with_reducible first | assumption | apply keeps_modRx) | split | (apply Eq.refl) | exact selfTrue | exact selfChans | exact selfAnd | intro _

theorem keeps_sendCopies {sK : State} (s : State) (ps : List Nat) (m : Msg) (hK : sK.Keeps s) : sK.Keeps (State.sendCopies s ps m) := by
  unfold State.sendCopies
  try dsimp only
  repeat' first | (with_reducible first | assumption | apply keeps_leave | apply keeps_send | apply keeps_sendAll) | split | (apply Eq.refl) | exact selfTrue | exact selfChans | exact selfAnd | intro _

theorem keeps_finishDelivery {sK : State} (s : State) (x : Delivery) (hK : sK.Keeps s) : sK.Keeps (State.finishDelivery s x) := by
  unfold State.finishDelivery
  try dsimp only
  repeat' first | (with_reducible first | assumption | apply keeps_modCom | apply keeps_post | apply keeps_send) | split | (apply Eq.refl) | exact selfTrue | exact selfChans | exact selfAnd | intro _

theorem keeps_portDelivered {sK : State} (s : State) (x : Delivery) (p n : Nat) (hK : sK.Keeps s) : sK.Keeps (State.portDelivered s x p n) := by
  unfold State.portDelivered
  try dsimp only
  repeat' first | (with_reducible first | assumption | apply keeps_finishDelivery | apply keeps_modCom) | split | (apply Eq.refl) | exact selfTrue | exact selfChans | exact selfAnd | intro _

theorem keeps_routeErr {sK : State} (s : State) (p : Nat) (hK : sK.Keeps s) : sK.Keeps (State.routeErr s p) := by
  unfold State.routeErr
  try dsimp only
  repeat' first | (with_reducible first | assumption | apply keeps_modLink) | split | (apply Eq.refl) | exact selfTrue | exact selfChans | exact selfAnd | intro _

theorem keeps_countDiscards {sK : State} (s : State) (ps : List Nat) (hK : sK.Keeps s) : sK.Keeps (State.countDiscards s ps) := by
  unfold State.countDiscards
  try dsimp only
  repeat' first | (with_reducible first | assumption | apply keeps_modLink | apply keeps_foldl) | split | (apply Eq.refl) | exact selfTrue | exact selfChans | exact selfAnd | intro _

theorem keeps_multicast {sK : State} (s : State) (from_ : Nat) (m : Msg) (results : Option (List Word)) (hK : sK.Keeps s) : sK.Keeps (State.multicast s from_ m results) := by
  unfold State.multicast
  try dsimp only
  repeat' first | (with_reducible first | assumption | apply keeps_countDiscards | apply keeps_finishDelivery | apply keeps_modCom | apply keeps_routeErr | apply keeps_sendCopies | apply keeps_foldl) | split | (apply Eq.refl) | exact selfTrue | exact selfChans | exact selfAnd | intro _

theorem keeps_discardAt {sK : State} (s : State) (d : Dev) (p : Nat) (m : Msg) (hK : sK.Keeps s) : sK.Keeps (State.discardAt s d p m) := by
  unfold State.discardAt
  try dsimp only
  repeat' first | (with_reducible first | assumption | apply keeps_leave | apply keeps_modLink | apply keeps_portDelivered) | split | (apply Eq.refl) | exact selfTrue | exact selfChans | exact selfAnd | intro _

theorem keeps_plateIn {sK : State} (s : State) (n : Nat) (ws : List Word) (hK : sK.Keeps s) : sK.Keeps (State.plateIn s n ws) := by
  unfold State.plateIn
  try dsimp only
  repeat' first | (with_reducible first | assumption | apply keeps_modShut) | split | (apply Eq.refl) | exact selfTrue | exact selfChans | exact selfAnd | intro _

theorem keeps_consumeBulk {sK : State} (s : State) (d : Dev) (n : Nat) (m : Msg) (hK : sK.Keeps s) : sK.Keeps (State.consumeBulk s d n m) := by
  unfold State.consumeBulk
  try dsimp only
  repeat' first | (with_reducible first | assumption | apply keeps_modLink | apply keeps_send) | split | (apply Eq.refl) | exact selfTrue | exact selfChans | exact selfAnd | intro _

theorem keeps_flowVia {sK : State} (s : State) (i o : Nat) (m : Msg) (hK : sK.Keeps s) : sK.Keeps (State.flowVia s i o m) := by
  unfold State.flowVia
  try dsimp only
  repeat' first | (with_reducible first | assumption | apply keeps_modLink) | split | (apply Eq.refl) | exact selfTrue | exact selfChans | exact selfAnd | intro _

theorem keeps_deliverMsg {sK : State} (s : State) (d : Dev) (n : Nat) (m : Msg) (hK : sK.Keeps s) : sK.Keeps (State.deliverMsg s d n m) := by
  unfold State.deliverMsg
  try dsimp only
  repeat' first | (with_reducible first | assumption | apply keeps_consumeBulk | apply keeps_leave | apply keeps_modCom | apply keeps_plateIn) | split | (apply Eq.refl) | exact selfTrue | exact selfChans | exact selfAnd | intro _

theorem keeps_toInbox {sK : State} (s : State) (d : Dev) (n : Nat) (m : Msg) (hK : sK.Keeps s) : sK.Keeps (State.toInbox s d n m) := by
  unfold State.toInbox
  try dsimp only
  repeat' first | (with_reducible first | assumption | apply keeps_deliverMsg | apply keeps_modTsu) | split | (apply Eq.refl) | exact selfTrue | exact selfChans | exact selfAnd | intro _

theorem keeps_deliverHeld {sK : State} (s : State) (hK : sK.Keeps s) : sK.Keeps (State.deliverHeld s) := by
  unfold State.deliverHeld
  try dsimp only
  repeat' first | (with_reducible first | assumption | apply keeps_deliverMsg | apply keeps_modTsu | apply keeps_foldl) | split | (apply Eq.refl) | exact selfTrue | exact selfChans | exact selfAnd | intro _

theorem keeps_forward {sK : State} (s : State) (i o : Nat) (m : Msg) (hK : sK.Keeps s) : sK.Keeps (State.forward s i o m) := by
  unfold State.forward
  try dsimp only
  repeat' first | (with_reducible first | assumption | apply keeps_countDiscards | apply keeps_finishDelivery | apply keeps_flowVia | apply keeps_leave | apply keeps_modCom | apply keeps_routeErr | apply keeps_send) | split | (apply Eq.refl) | exact selfTrue | exact selfChans | exact selfAnd | intro _

theorem keeps_resultPasses {sK : State} (s : State) (i : Nat) (m : Msg) (hK : sK.Keeps s) : sK.Keeps (State.resultPasses s i m) := by
  unfold State.resultPasses
  try dsimp only
  repeat' first | (with_reducible first | assumption | apply keeps_gateSettled | apply keeps_noteCommit | apply keeps_noteRerun | apply keeps_routeErr | apply keeps_sendCopies) | split | (apply Eq.refl) | exact selfTrue | exact selfChans | exact selfAnd | intro _

theorem keeps_jupRoute {sK : State} (s : State) (i : Nat) (m : Msg) (hK : sK.Keeps s) : sK.Keeps (State.jupRoute s i m) := by
  unfold State.jupRoute
  try dsimp only
  repeat' first | (with_reducible first | assumption | apply keeps_forward | apply keeps_leave | apply keeps_multicast | apply keeps_releasePasses | apply keeps_resultPasses | apply keeps_routeErr | apply keeps_send | apply keeps_toInbox) | split | (apply Eq.refl) | exact selfTrue | exact selfChans | exact selfAnd | intro _

theorem keeps_noteSide {sK : State} (s : State) (n : Nat) (m : Msg) (hK : sK.Keeps s) : sK.Keeps (State.noteSide s n m) := by
  unfold State.noteSide
  try dsimp only
  repeat' first | (with_reducible first | assumption | apply keeps_modChan | apply keeps_foldl) | split | (apply Eq.refl) | exact selfTrue | exact selfChans | exact selfAnd | intro _

theorem keeps_accepted1 {sK : State} (s : State) (d : Dev) (n : Nat) (m : Msg) (hK : sK.Keeps s) : sK.Keeps (State.accepted1 s d n m) := by
  unfold State.accepted1
  try dsimp only
  repeat' first | (with_reducible first | assumption | apply keeps_jupRoute | apply keeps_leave | apply keeps_modLink | apply keeps_noteSide | apply keeps_toInbox) | split | (apply Eq.refl) | exact selfTrue | exact selfChans | exact selfAnd | intro _

theorem keeps_releaseHeld {sK : State} (s : State) (n : Nat) (hK : sK.Keeps s) : sK.Keeps (State.releaseHeld s n) := by
  unfold State.releaseHeld
  try dsimp only
  repeat' first | (with_reducible first | assumption | apply keeps_jupRoute | apply keeps_modLink | apply keeps_foldl) | split | (apply Eq.refl) | exact selfTrue | exact selfChans | exact selfAnd | intro _

theorem keeps_peerFence {sK : State} (s : State) (p : Nat) (f : Fence) (hK : sK.Keeps s) : sK.Keeps (State.peerFence s p f) := by
  unfold State.peerFence
  try dsimp only
  repeat' first | (with_reducible first | assumption | apply keeps_multicast | apply keeps_send | apply keeps_foldl) | split | (apply Eq.refl) | exact selfTrue | exact selfChans | exact selfAnd | intro _

theorem keeps_placeFence {sK : State} (s : State) (p : Nat) (f : Fence) (hK : sK.Keeps s) : sK.Keeps (State.placeFence s p f) := by
  unfold State.placeFence
  try dsimp only
  repeat' first | (with_reducible first | assumption | apply keeps_countDiscards | apply keeps_modLink | apply keeps_peerFence | apply keeps_sendAll | apply keeps_setHealth) | split | (apply Eq.refl) | exact selfTrue | exact selfChans | exact selfAnd | intro _

theorem keeps_settleFence {sK : State} (s : State) (p : Nat) (f : Fence) (hK : sK.Keeps s) : sK.Keeps (State.settleFence s p f) := by
  unfold State.settleFence
  try dsimp only
  repeat' first | (with_reducible first | assumption | apply keeps_fenceGroups | apply keeps_placeFence | apply keeps_tick) | split | (apply Eq.refl) | exact selfTrue | exact selfChans | exact selfAnd | intro _

theorem keeps_afterCommit {sK : State} (s : State) (p : Nat) (f : Fence) (hK : sK.Keeps s) : sK.Keeps (State.afterCommit s p f).1 := by
  unfold State.afterCommit
  try dsimp only
  repeat' first | (with_reducible first | assumption | apply keeps_fresh | apply keeps_tick | (apply keepsE_fresh; case' he => assumption)) | exact keeps_fresh hK | split | (apply Eq.refl) | exact selfTrue | exact selfChans | exact selfAnd | intro _

theorem keepsE_afterCommit {sK : State} (s : State) (p : Nat) (f : Fence)  {t' : State} {y' : Fence} (he : (State.afterCommit s p f) = (t', y')) (hK : sK.Keeps s) : sK.Keeps t' := by have := keeps_afterCommit s p f  hK; rw [he] at this; exact this

theorem keeps_fencePort {sK : State} (s : State) (p : Nat) (f : Fence) (hK : sK.Keeps s) : sK.Keeps (State.fencePort s p f) := by
  unfold State.fencePort
  try dsimp only
  repeat' first | (with_reducible first | assumption | apply keeps_afterCommit | apply keeps_settleFence | (apply keepsE_afterCommit; case' he => assumption)) | split | (apply Eq.refl) | exact selfTrue | exact selfChans | exact selfAnd | intro _

theorem keeps_fenceJobsAt {sK : State} (s : State) (p : Nat) (tick : Tick) (hK : sK.Keeps s) : sK.Keeps (State.fenceJobsAt s p tick) := by
  unfold State.fenceJobsAt
  try dsimp only
  repeat' first | (with_reducible first | assumption | apply keeps_fencePort | apply keeps_foldl) | split | (apply Eq.refl) | exact selfTrue | exact selfChans | exact selfAnd | intro _

theorem keeps_linkToDown {sK : State} (s : State) (d : Dev) (n : Nat) (hK : sK.Keeps s) : sK.Keeps (State.linkToDown s d n) := by
  unfold State.linkToDown
  try dsimp only
  repeat' first | (with_reducible first | assumption | apply keeps_modCtl) | split | (apply Eq.refl) | exact selfTrue | exact selfChans | exact selfAnd | intro _

theorem keeps_linkFault {sK : State} (s : State) (d : Dev) (n : Nat) (code : Code) (ctx : Ctx := {}) (hK : sK.Keeps s) : sK.Keeps (State.linkFault s d n code ctx) := by
  unfold State.linkFault
  try dsimp only
  repeat' first | (with_reducible first | assumption | apply keeps_linkToDown | apply keeps_raiseLink) | split | (apply Eq.refl) | exact selfTrue | exact selfChans | exact selfAnd | intro _

theorem keeps_episode {sK : State} (s : State) (d : Dev) (n : Nat) (time : Bool) (hK : sK.Keeps s) : sK.Keeps (State.episode s d n time) := by
  unfold State.episode
  try dsimp only
  repeat' first | (with_reducible first | assumption | apply keeps_linkFault | apply keeps_modCtl | apply keeps_modTx) | split | (apply Eq.refl) | exact selfTrue | exact selfChans | exact selfAnd | intro _

theorem keeps_takeAck {sK : State} (s : State) (d : Dev) (n : Nat) (ack : BitVec 8) (hK : sK.Keeps s) : sK.Keeps (State.takeAck s d n ack) := by
  unfold State.takeAck
  try dsimp only
  repeat' first | (with_reducible first | assumption | apply keeps_modCtl | apply keeps_modTx | apply keeps_portDelivered | apply keeps_releaseHeld | apply keeps_foldl) | split | (apply Eq.refl) | exact selfTrue | exact selfChans | exact selfAnd | intro _

theorem keeps_takeTack {sK : State} (s : State) (d : Dev) (n : Nat) (ack : BitVec 8) (hK : sK.Keeps s) : sK.Keeps (State.takeTack s d n ack) := by
  unfold State.takeTack
  try dsimp only
  repeat' first | (with_reducible first | assumption | apply keeps_modCtl | apply keeps_modTx) | split | (apply Eq.refl) | exact selfTrue | exact selfChans | exact selfAnd | intro _

theorem keeps_putFrame {sK : State} (s : State) (d : Dev) (n : Nat) (f : Frame) (replay badPe : Bool) (hK : sK.Keeps s) : sK.Keeps (State.putFrame s d n f replay badPe) := by
  unfold State.putFrame
  try dsimp only
  repeat' first | (with_reducible first | assumption | apply keeps_emit | apply keeps_modRx | apply keeps_modTx | apply resKeeps_next) | split | (apply Eq.refl) | exact selfTrue | exact selfChans | exact selfAnd | intro _

theorem keeps_newTimeFrame {sK : State} (s0 : State) (d : Dev) (n : Nat) (hK : sK.Keeps s0) : sK.Keeps (State.newTimeFrame s0 d n) := by
  unfold State.newTimeFrame
  try dsimp only
  repeat' first | (with_reducible first | assumption | apply keeps_modTx | apply keeps_putFrame | apply keeps_restamp) | split | (apply Eq.refl) | exact selfTrue | exact selfChans | exact selfAnd | intro _

theorem keeps_timeSlot {sK : State} (s : State) (d : Dev) (n : Nat) (hK : sK.Keeps s) : sK.Keeps (State.timeSlot s d n) := by
  unfold State.timeSlot
  try dsimp only
  repeat' first | (with_reducible first | assumption | apply keeps_codeReplayed | apply keeps_modLt | apply keeps_modTx | apply keeps_newTimeFrame | apply keeps_putFrame) | split | (apply Eq.refl) | exact selfTrue | exact selfChans | exact selfAnd | intro _

theorem keeps_dropFenced {sK : State} (s : State) (d : Dev) (n : Nat) (hK : sK.Keeps s) : sK.Keeps (State.dropFenced s d n) := by
  unfold State.dropFenced
  try dsimp only
  repeat' first | (with_reducible first | assumption | apply keeps_discardAt | apply keeps_modTx | apply keeps_foldl) | split | (apply Eq.refl) | exact selfTrue | exact selfChans | exact selfAnd | intro _

theorem keeps_launchNew {sK : State} (s : State) (d : Dev) (n : Nat) (f : Frame) (hK : sK.Keeps s) : sK.Keeps (State.launchNew s d n f) := by
  unfold State.launchNew
  try dsimp only
  repeat' first | (with_reducible first | assumption | apply keeps_modCtl | apply keeps_modTx | apply keeps_putFrame | apply keeps_raiseLink) | split | (apply Eq.refl) | exact selfTrue | exact selfChans | exact selfAnd | intro _

theorem keeps_launchStep {sK : State} (s : State) (d : Dev) (n : Nat) (hK : sK.Keeps s) : sK.Keeps (State.launchStep s d n) := by
  unfold State.launchStep
  try dsimp only
  repeat' first | (with_reducible first | assumption | apply keeps_launchNew | apply keeps_leave | apply keeps_modCom | apply keeps_modTx | apply keeps_foldl) | split | (apply Eq.refl) | exact selfTrue | exact selfChans | exact selfAnd | intro _

theorem keeps_leaveOne {sK : State} (s : State) (d : Dev) (n : Nat) (hK : sK.Keeps s) : sK.Keeps (State.leaveOne s d n) := by
  unfold State.leaveOne
  try dsimp only
  repeat' first | (with_reducible first | assumption | apply keeps_leave | apply keeps_modTx) | split | (apply Eq.refl) | exact selfTrue | exact selfChans | exact selfAnd | intro _

theorem keeps_launchBulk {sK : State} (s : State) (d : Dev) (n : Nat) (hK : sK.Keeps s) : sK.Keeps (State.launchBulk s d n) := by
  unfold State.launchBulk
  try dsimp only
  repeat' first | (with_reducible first | assumption | apply keeps_launchNew | apply keeps_leave | apply keeps_leaveOne | apply keeps_modLink | apply keeps_modTx | apply keeps_foldl) | split | (apply Eq.refl) | exact selfTrue | exact selfChans | exact selfAnd | intro _

theorem keeps_serviceFrame {sK : State} (s0 : State) (d : Dev) (n : Nat) (hK : sK.Keeps s0) : sK.Keeps (State.serviceFrame s0 d n) := by
  unfold State.serviceFrame
  try dsimp only
  repeat' first | (with_reducible first | assumption | apply keeps_dropFenced | apply keeps_launchBulk | apply keeps_launchStep | apply keeps_modTx | apply keeps_putFrame) | split | (apply Eq.refl) | exact selfTrue | exact selfChans | exact selfAnd | intro _

theorem keeps_launchFrame {sK : State} (s : State) (d : Dev) (n : Nat) (hK : sK.Keeps s) : sK.Keeps (State.launchFrame s d n) := by
  unfold State.launchFrame
  try dsimp only
  repeat' first | (with_reducible first | assumption | apply keeps_modTx | apply keeps_putFrame | apply keeps_serviceFrame | apply keeps_timeSlot) | split | (apply Eq.refl) | exact selfTrue | exact selfChans | exact selfAnd | intro _

theorem keeps_execFrameLaunch {sK : State} (d : Dev) (n : Nat) (s : State) (hK : sK.Keeps s) : ResKeeps sK (execFrameLaunch d n s) := by
  unfold execFrameLaunch
  try dsimp only
  repeat' first | (with_reducible first | assumption | apply keeps_due | apply keeps_launchFrame | apply resKeeps_next | (apply keepsN_due; case' he => assumption)) | split | (apply Eq.refl) | exact selfTrue | exact selfChans | exact selfAnd | intro _

theorem keeps_badFrame {sK : State} (s : State) (d : Dev) (n : Nat) (h : Option Word) (hK : sK.Keeps s) : sK.Keeps (State.badFrame s d n h) := by
  unfold State.badFrame
  try dsimp only
  repeat' first | (with_reducible first | assumption | apply keeps_modCtl | apply keeps_modRx | apply keeps_raiseLink) | split | (apply Eq.refl) | exact selfTrue | exact selfChans | exact selfAnd | intro _

theorem keeps_takeHeader {sK : State} (s : State) (d : Dev) (n : Nat) (h : Word) (hK : sK.Keeps s) : sK.Keeps (State.takeHeader s d n h) := by
  unfold State.takeHeader
  try dsimp only
  repeat' first | (with_reducible first | assumption | apply keeps_episode | apply keeps_modTx | apply keeps_takeAck | apply keeps_takeTack) | split | (apply Eq.refl) | exact selfTrue | exact selfChans | exact selfAnd | intro _

theorem keeps_takeMsgs {sK : State} (s : State) (d : Dev) (n : Nat) (ms : List Msg) (hK : sK.Keeps s) : sK.Keeps (State.takeMsgs s d n ms) := by
  unfold State.takeMsgs
  try dsimp only
  repeat' first | (with_reducible first | assumption | apply keeps_accepted1 | apply keeps_foldl) | split | (apply Eq.refl) | exact selfTrue | exact selfChans | exact selfAnd | intro _

theorem keeps_timeFrame {sK : State} (s : State) (d : Dev) (n : Nat) (h : Word) (ws : List Word) (hK : sK.Keeps s) : sK.Keeps (State.timeFrame s d n h ws) := by
  unfold State.timeFrame
  try dsimp only
  repeat' first | (with_reducible first | assumption | apply keeps_linkFault | apply keeps_modRx | apply keeps_takeMsgs | apply resKeeps_next) | split | (apply Eq.refl) | exact selfTrue | exact selfChans | exact selfAnd | intro _

theorem keeps_passMore {sK : State} (s : State) (o n : Nat) (ws : List Word) (frames : Nat) (hK : sK.Keeps s) : sK.Keeps (State.passMore s o n ws frames) := by
  unfold State.passMore
  try dsimp only
  repeat' first | (with_reducible first | assumption | apply keeps_modTx) | split | (apply Eq.refl) | exact selfTrue | exact selfChans | exact selfAnd | intro _

theorem keeps_cutPass {sK : State} (s : State) (o n : Nat) (hK : sK.Keeps s) : sK.Keeps (State.cutPass s o n) := by
  unfold State.cutPass
  try dsimp only
  repeat' first | (with_reducible first | assumption | apply keeps_leave | apply keeps_modTx) | split | (apply Eq.refl) | exact selfTrue | exact selfChans | exact selfAnd | intro _

theorem keeps_stepFrame {sK : State} (s : State) (d : Dev) (n : Nat) (ms : List Msg) (part : List Word) (hK : sK.Keeps s) : sK.Keeps (State.stepFrame s d n ms part) := by
  unfold State.stepFrame
  try dsimp only
  repeat' first | (with_reducible first | assumption | apply keeps_accepted1 | apply keeps_modRx | apply keeps_takeMsgs | apply resKeeps_next) | split | (apply Eq.refl) | exact selfTrue | exact selfChans | exact selfAnd | intro _

theorem keeps_bulkFrame {sK : State} (s : State) (d : Dev) (n : Nat) (old : List Word) (ws : List Word) (ms : List Msg) (part : List Word) (hK : sK.Keeps s) : sK.Keeps (State.bulkFrame s d n old ws ms part) := by
  unfold State.bulkFrame
  try dsimp only
  repeat' first | (with_reducible first | assumption | apply keeps_flowVia | apply keeps_modRx | apply keeps_passMore | apply keeps_send | apply keeps_takeMsgs | apply resKeeps_next) | split | (apply Eq.refl) | exact selfTrue | exact selfChans | exact selfAnd | intro _

theorem keeps_dataFrame {sK : State} (s : State) (d : Dev) (n : Nat) (h : Word) (ws : List Word) (hK : sK.Keeps s) : sK.Keeps (State.dataFrame s d n h ws) := by
  unfold State.dataFrame
  try dsimp only
  repeat' first | (with_reducible first | assumption | apply keeps_bulkFrame | apply keeps_cutPass | apply keeps_linkFault | apply keeps_modRx | apply keeps_stepFrame | apply resKeeps_next) | split | (apply Eq.refl) | exact selfTrue | exact selfChans | exact selfAnd | intro _

theorem keeps_frameIn {sK : State} (s : State) (d : Dev) (n : Nat) (ws : List (BitVec 66)) (hK : sK.Keeps s) : sK.Keeps (State.frameIn s d n ws) := by
  unfold State.frameIn
  try dsimp only
  repeat' first | (with_reducible first | assumption | apply keeps_badFrame | apply keeps_dataFrame | apply keeps_takeHeader | apply keeps_timeFrame) | split | (apply Eq.refl) | exact selfTrue | exact selfChans | exact selfAnd | intro _

theorem keeps_execFrameRx {sK : State} (d : Dev) (n : Nat) (frame : List (BitVec 66)) (s : State) (hK : sK.Keeps s) : ResKeeps sK (execFrameRx d n frame s) := by
  unfold execFrameRx
  try dsimp only
  repeat' first | (with_reducible first | assumption | apply keeps_due | apply keeps_frameIn | apply resKeeps_next | (apply keepsN_due; case' he => assumption)) | split | (apply Eq.refl) | exact selfTrue | exact selfChans | exact selfAnd | intro _

theorem keeps_ackLost {sK : State} (s : State) (d : Dev) (n : Nat) (time : Bool) (hK : sK.Keeps s) : sK.Keeps (State.ackLost s d n time) := by
  unfold State.ackLost
  try dsimp only
  repeat' first | (with_reducible first | assumption | apply keeps_episode | apply keeps_modCtl | apply keeps_modTx) | split | (apply Eq.refl) | exact selfTrue | exact selfChans | exact selfAnd | intro _

theorem keeps_execAckTimeout {sK : State} (d : Dev) (n : Nat) (s : State) (hK : sK.Keeps s) : ResKeeps sK (execAckTimeout d n s) := by
  unfold execAckTimeout
  try dsimp only
  repeat' first | (with_reducible first | assumption | apply keeps_ackLost | apply keeps_due | apply resKeeps_next | (apply keepsN_due; case' he => assumption)) | split | (apply Eq.refl) | exact selfTrue | exact selfChans | exact selfAnd | intro _

theorem keeps_execWindowUpdateRx {sK : State} (d : Dev) (n : Nat) (flow : BitVec 10) (word : Word) (s : State) (hK : sK.Keeps s) : ResKeeps sK (execWindowUpdateRx d n flow word s) := by
  unfold execWindowUpdateRx
  try dsimp only
  repeat' first | (with_reducible first | assumption | apply keeps_consume | apply keeps_modLink | apply keeps_send | apply resKeeps_next) | split | (apply Eq.refl) | exact selfTrue | exact selfChans | exact selfAnd | intro _

theorem keeps_execFlowAbortRx {sK : State} (d : Dev) (n : Nat) (word : Word) (s : State) (hK : sK.Keeps s) : ResKeeps sK (execFlowAbortRx d n word s) := by
  unfold execFlowAbortRx
  try dsimp only
  repeat' first | (with_reducible first | assumption | apply keeps_consume | apply keeps_modLink | apply resKeeps_next) | split | (apply Eq.refl) | exact selfTrue | exact selfChans | exact selfAnd | intro _

theorem keeps_execDeliveryReportRx {sK : State} (port : Nat) (words : List Word) (s : State) (hK : sK.Keeps s) : ResKeeps sK (execDeliveryReportRx port words s) := by
  unfold execDeliveryReportRx
  try dsimp only
  repeat' first | (with_reducible first | assumption | apply keeps_consume | apply keeps_portDelivered | apply resKeeps_next) | split | (apply Eq.refl) | exact selfTrue | exact selfChans | exact selfAnd | intro _

theorem keeps_roleCheck {sK : State} (s : State) (d : Dev) (n : Nat) (role : Nat) (hK : sK.Keeps s) : sK.Keeps (State.roleCheck s d n role) := by
  unfold State.roleCheck
  try dsimp only
  repeat' first | (with_reducible first | assumption | apply keeps_endLinkLevel | apply keeps_raiseLinkLevel) | split | (apply Eq.refl) | exact selfTrue | exact selfChans | exact selfAnd | intro _

theorem keeps_keepAnnounced {sK : State} (s : State) (d : Dev) (n : Nat) (w0 w1 : Word) (hK : sK.Keeps s) : sK.Keeps (State.keepAnnounced s d n w0 w1) := by
  unfold State.keepAnnounced
  try dsimp only
  repeat' first | (with_reducible first | assumption | apply keeps_modCtl) | split | (apply Eq.refl) | exact selfTrue | exact selfChans | exact selfAnd | intro _

theorem keeps_epochCheck {sK : State} (s : State) (d : Dev) (n : Nat) (hK : sK.Keeps s) : sK.Keeps (State.epochCheck s d n) := by
  unfold State.epochCheck
  try dsimp only
  repeat' first | (with_reducible first | assumption | apply keeps_endLevel | apply keeps_modSec | apply keeps_modTime | apply keeps_raiseLevel | apply keeps_resyncNow) | split | (apply Eq.refl) | exact selfTrue | exact selfChans | exact selfAnd | intro _

theorem keeps_resumeStreams {sK : State} (s : State) (d : Dev) (n : Nat) (w1 : Word) (hK : sK.Keeps s) : sK.Keeps (State.resumeStreams s d n w1) := by
  unfold State.resumeStreams
  try dsimp only
  repeat' first | (with_reducible first | assumption | apply keeps_modTx) | split | (apply Eq.refl) | exact selfTrue | exact selfChans | exact selfAnd | intro _

theorem keeps_diesReset {sK : State} (s : State) (d : Dev) (n : Nat) (hK : sK.Keeps s) : sK.Keeps (State.diesReset s d n) := by
  unfold State.diesReset
  try dsimp only
  repeat' first | (with_reducible first | assumption | apply keeps_fenceJobsAt | apply keeps_modJup) | split | (apply Eq.refl) | exact selfTrue | exact selfChans | exact selfAnd | intro _

theorem keeps_sessionChanged {sK : State} (s : State) (d : Dev) (n : Nat) (w1 : Word) (hK : sK.Keeps s) : sK.Keeps (State.sessionChanged s d n w1) := by
  unfold State.sessionChanged
  try dsimp only
  repeat' first | (with_reducible first | assumption | apply keeps_diesReset | apply keeps_modCtl | apply keeps_modRx | apply keeps_modTx | apply keeps_raiseLink) | split | (apply Eq.refl) | exact selfTrue | exact selfChans | exact selfAnd | intro _

theorem keeps_alignDone {sK : State} (s : State) (d : Dev) (n : Nat) (w1 : Word) (hK : sK.Keeps s) : sK.Keeps (State.alignDone s d n w1) := by
  unfold State.alignDone
  try dsimp only
  repeat' first | (with_reducible first | assumption | apply keeps_modCtl | apply keeps_modLt | apply keeps_resumeStreams | apply keeps_sessionChanged) | split | (apply Eq.refl) | exact selfTrue | exact selfChans | exact selfAnd | intro _

theorem keeps_followAlign {sK : State} (s : State) (d : Dev) (n : Nat) (w1 : Word) (hK : sK.Keeps s) : sK.Keeps (State.followAlign s d n w1) := by
  unfold State.followAlign
  try dsimp only
  repeat' first | (with_reducible first | assumption | apply keeps_modCtl) | split | (apply Eq.refl) | exact selfTrue | exact selfChans | exact selfAnd | intro _

theorem keeps_execLinkControlRx {sK : State} (d : Dev) (n : Nat) (words : List Word) (s : State) (hK : sK.Keeps s) : ResKeeps sK (execLinkControlRx d n words s) := by
  unfold execLinkControlRx
  try dsimp only
  repeat' first | (with_reducible first | assumption | apply keeps_alignDone | apply keeps_consume | apply keeps_epochCheck | apply keeps_followAlign | apply keeps_keepAnnounced | apply keeps_roleCheck | apply resKeeps_next) | split | (apply Eq.refl) | exact selfTrue | exact selfChans | exact selfAnd | intro _

theorem keeps_toTrain {sK : State} (s : State) (d : Dev) (n : Nat) (hK : sK.Keeps s) : sK.Keeps (State.toTrain s d n) := by
  unfold State.toTrain
  try dsimp only
  repeat' first | (with_reducible first | assumption | apply keeps_modCtl) | split | (apply Eq.refl) | exact selfTrue | exact selfChans | exact selfAnd | intro _

theorem keeps_execLinkSignalDetect {sK : State} (d : Dev) (n : Nat) (s : State) (hK : sK.Keeps s) : ResKeeps sK (execLinkSignalDetect d n s) := by
  unfold execLinkSignalDetect
  try dsimp only
  repeat' first | (with_reducible first | assumption | apply keeps_due | apply keeps_toTrain | apply resKeeps_next | (apply keepsN_due; case' he => assumption)) | split | (apply Eq.refl) | exact selfTrue | exact selfChans | exact selfAnd | intro _

theorem keeps_execLinkStateTimeout {sK : State} (d : Dev) (n : Nat) (s : State) (hK : sK.Keeps s) : ResKeeps sK (execLinkStateTimeout d n s) := by
  unfold execLinkStateTimeout
  try dsimp only
  repeat' first | (with_reducible first | assumption | apply keeps_due | apply keeps_linkToDown | apply keeps_modCtl | apply keeps_raiseLink | apply resKeeps_next | (apply keepsN_due; case' he => assumption)) | split | (apply Eq.refl) | exact selfTrue | exact selfChans | exact selfAnd | intro _

theorem keeps_execLinkTrainRetry {sK : State} (d : Dev) (n : Nat) (s : State) (hK : sK.Keeps s) : ResKeeps sK (execLinkTrainRetry d n s) := by
  unfold execLinkTrainRetry
  try dsimp only
  repeat' first | (with_reducible first | assumption | apply keeps_due | apply keeps_toTrain | apply resKeeps_next | (apply keepsN_due; case' he => assumption)) | split | (apply Eq.refl) | exact selfTrue | exact selfChans | exact selfAnd | intro _

theorem keeps_execTrainLock {sK : State} (d : Dev) (n : Nat) (s : State) (hK : sK.Keeps s) : ResKeeps sK (execTrainLock d n s) := by
  unfold execTrainLock
  try dsimp only
  repeat' first | (with_reducible first | assumption | apply keeps_due | apply keeps_modCtl | apply resKeeps_next | (apply keepsN_due; case' he => assumption)) | split | (apply Eq.refl) | exact selfTrue | exact selfChans | exact selfAnd | intro _

theorem keeps_execFrameLock {sK : State} (d : Dev) (n : Nat) (s : State) (hK : sK.Keeps s) : ResKeeps sK (execFrameLock d n s) := by
  unfold execFrameLock
  try dsimp only
  repeat' first | (with_reducible first | assumption | apply keeps_due | apply keeps_modCtl | apply resKeeps_next | (apply keepsN_due; case' he => assumption)) | split | (apply Eq.refl) | exact selfTrue | exact selfChans | exact selfAnd | intro _

theorem keeps_execLaneLoss {sK : State} (d : Dev) (n : Nat) (s : State) (hK : sK.Keeps s) : ResKeeps sK (execLaneLoss d n s) := by
  unfold execLaneLoss
  try dsimp only
  repeat' first | (with_reducible first | assumption | apply keeps_linkToDown | apply resKeeps_next) | split | (apply Eq.refl) | exact selfTrue | exact selfChans | exact selfAnd | intro _

theorem keeps_execLinkDown {sK : State} (port : Nat) (s : State) (hK : sK.Keeps s) : ResKeeps sK (execLinkDown port s) := by
  unfold execLinkDown
  try dsimp only
  repeat' first | (with_reducible first | assumption | apply keeps_due | apply keeps_fenceJobsAt | apply keeps_modCtl | apply keeps_raiseLinkLevel | apply resKeeps_next | (apply keepsN_due; case' he => assumption)) | split | (apply Eq.refl) | exact selfTrue | exact selfChans | exact selfAnd | intro _

theorem keeps_execInjPar {sK : State} (d : Dev) (n : Nat) (src : Src) (s : State) (hK : sK.Keeps s) : ResKeeps sK (execInjPar d n src s) := by
  unfold execInjPar
  try dsimp only
  repeat' first | (with_reducible first | assumption | apply keeps_denied | apply keeps_modCtl | apply resKeeps_next) | split | (apply Eq.refl) | exact selfTrue | exact selfChans | exact selfAnd | intro _

theorem keeps_execRetrain {sK : State} (d : Dev) (n : Nat) (s : State) (hK : sK.Keeps s) : ResKeeps sK (execRetrain d n s) := by
  unfold execRetrain
  try dsimp only
  repeat' first | (with_reducible first | assumption | apply keeps_linkToDown | apply keeps_modCtl | apply resKeeps_next) | split | (apply Eq.refl) | exact selfTrue | exact selfChans | exact selfAnd | intro _

theorem keeps_execDisable {sK : State} (d : Dev) (n : Nat) (v : Bool) (s : State) (hK : sK.Keeps s) : ResKeeps sK (execDisable d n v s) := by
  unfold execDisable
  try dsimp only
  repeat' first | (with_reducible first | assumption | apply keeps_linkToDown | apply keeps_modCtl | apply resKeeps_next) | split | (apply Eq.refl) | exact selfTrue | exact selfChans | exact selfAnd | intro _

theorem keeps_dropHeld {sK : State} (s : State) (cs : List Nat) (hK : sK.Keeps s) : sK.Keeps (State.dropHeld s cs) := by
  unfold State.dropHeld
  try dsimp only
  repeat' first | (with_reducible first | assumption | apply keeps_modTsu) | split | (apply Eq.refl) | exact selfTrue | exact selfChans | exact selfAnd | intro _

theorem keeps_fenceDie {sK : State} (s : State) (f : Fence) (hK : sK.Keeps s) : sK.Keeps (State.fenceDie s f) := by
  unfold State.fenceDie
  try dsimp only
  repeat' first | (with_reducible first | assumption | apply keeps_dropHeld | apply keeps_modChan | apply keeps_tick | apply keeps_wantHold | apply keeps_foldl) | split | (apply Eq.refl) | exact selfTrue | exact selfChans | exact selfAnd | intro _

theorem keeps_execFenceRx {sK : State} (d : Dev) (n : Nat) (words : List Word) (s : State) (hK : sK.Keeps s) : ResKeeps sK (execFenceRx d n words s) := by
  unfold execFenceRx
  extract_lets f s1
  have h : sK.Keeps s1 := keeps_consume _ _ _ _ _ hK
  clear_value f s1
  apply resKeeps_next
  cases d with
  | tsu => exact keeps_fenceDie _ _ h
  | jup =>
    dsimp only
    rcases s1.pathPort f.path with _ | _ | p
    · exact h
    · exact h
    dsimp only
    split
    · split
      · exact keeps_countDiscards _ _ h
      · refine keeps_send _ _ _ _ (keeps_modLink _ _ _ _ ?_)
        split
        · exact keeps_setHealth _ _ _ (keeps_fenceGroups _ _ h)
        · exact keeps_fenceGroups _ _ h
    · exact h

theorem keeps_cutOutgoing {sK : State} (s : State) (p : Nat) (f : Fence) (hK : sK.Keeps s) : sK.Keeps (State.cutOutgoing s p f) := by
  unfold State.cutOutgoing
  try dsimp only
  repeat' first | (with_reducible first | assumption | apply keeps_discardAt | apply keeps_modTx) | split | (apply Eq.refl) | exact selfTrue | exact selfChans | exact selfAnd | intro _

theorem keeps_cutIncoming {sK : State} (s : State) (p : Nat) (f : Fence) (hK : sK.Keeps s) : sK.Keeps (State.cutIncoming s p f) := by
  unfold State.cutIncoming
  try dsimp only
  repeat' first | (with_reducible first | assumption | apply keeps_cutPass | apply keeps_jupRoute | apply keeps_modLink | apply keeps_modRx) | split | (apply Eq.refl) | exact selfTrue | exact selfChans | exact selfAnd | intro _

theorem keeps_fenceRounds {sK : State} (s : State) (p : Nat) (f : Fence) (hK : sK.Keeps s) : sK.Keeps (State.fenceRounds s p f) := by
  unfold State.fenceRounds
  try dsimp only
  repeat' first | (with_reducible first | assumption | apply keeps_failRound | apply keeps_foldl) | split | (apply Eq.refl) | exact selfTrue | exact selfChans | exact selfAnd | intro _

theorem keeps_beginFence {sK : State} (s : State) (p : Nat) (f : Fence) (hK : sK.Keeps s) : sK.Keeps (State.beginFence s p f) := by
  unfold State.beginFence
  try dsimp only
  repeat' first | (with_reducible first | assumption | apply keeps_cutIncoming | apply keeps_cutOutgoing | apply keeps_fenceRounds | apply keeps_modTx | apply keeps_portDelivered | apply keeps_foldl) | split | (apply Eq.refl) | exact selfTrue | exact selfChans | exact selfAnd | intro _

theorem keeps_addFilter {sK : State} (s : State) (path : Half) (ch : Option Nat) (hK : sK.Keeps s) : sK.Keeps (State.addFilter s path ch) := by
  unfold State.addFilter
  try dsimp only
  repeat' first | (with_reducible first | assumption | apply keeps_modTsu | apply keeps_nfPresent) | split | (apply Eq.refl) | exact selfTrue | exact selfChans | exact selfAnd | intro _

theorem keeps_execPeerFenceRx {sK : State} (words : List Word) (s : State) (hK : sK.Keeps s) : ResKeeps sK (execPeerFenceRx words s) := by
  unfold execPeerFenceRx
  try dsimp only
  repeat' first | (with_reducible first | assumption | apply keeps_addFilter | apply keeps_consume | apply keeps_stepIn | apply keeps_foldl | (apply keepsN_stepIn; case' he => assumption)) | split | (apply Eq.refl) | exact selfTrue | exact selfChans | exact selfAnd | intro _

theorem keeps_execNiFilterAck {sK : State} (full : Bool) (s : State) (hK : sK.Keeps s) : ResKeeps sK (execNiFilterAck full s) := by
  unfold execNiFilterAck
  try dsimp only
  repeat' first | (with_reducible first | assumption | apply keeps_mainIn | apply keeps_modTsu | (apply keepsN_mainIn; case' he => assumption)) | split | (apply Eq.refl) | exact selfTrue | exact selfChans | exact selfAnd | intro _

theorem keeps_modPower {sK : State} (s : State) (f : Power → Power) (hK : sK.Keeps s) : sK.Keeps (State.modPower s f) := by
  unfold State.modPower
  try dsimp only
  repeat' first | (with_reducible first | assumption | apply keeps_modTsu) | split | (apply Eq.refl) | exact selfTrue | exact selfChans | exact selfAnd | intro _

theorem keeps_powerChoice {sK : State} (s : State) (hK : sK.Keeps s) : sK.Keeps (State.powerChoice s) := by
  unfold State.powerChoice
  try dsimp only
  repeat' first | (with_reducible first | assumption | apply keeps_emit | apply keeps_modPower) | split | (apply Eq.refl) | exact selfTrue | exact selfChans | exact selfAnd | intro _

theorem keeps_enterLowRate {sK : State} (s : State) (hK : sK.Keeps s) : sK.Keeps (State.enterLowRate s) := by
  unfold State.enterLowRate
  try dsimp only
  repeat' first | (with_reducible first | assumption | apply keeps_modCr | apply keeps_modLt | apply keeps_modTime | apply keeps_switchRef | apply keeps_track) | split | (apply Eq.refl) | exact selfTrue | exact selfChans | exact selfAnd | intro _

theorem keeps_leaveLowRate {sK : State} (s : State) (hK : sK.Keeps s) : sK.Keeps (State.leaveLowRate s) := by
  unfold State.leaveLowRate
  try dsimp only
  repeat' first | (with_reducible first | assumption | apply keeps_crSelect | apply keeps_modCr | apply keeps_modTime | apply keeps_track | apply resKeeps_next) | split | (apply Eq.refl) | exact selfTrue | exact selfChans | exact selfAnd | intro _

theorem comOk_regs {d : Dev} {c c' : Common} (h : c.tablesOk d = true) (hr : tok (regReset d) none c.regs = true → tok (regReset d) none c'.regs = true)
    (hb : Table.wf {} c.blocks = true → Table.wf {} c'.blocks = true) (he : Table.wf none c.cmds.entries = true → Table.wf none c'.cmds.entries = true)
    (hw : Table.wf 0 c.win = true → Table.wf 0 c'.win = true) : c'.tablesOk d = true := by
  simp only [Common.tablesOk, Bool.and_eq_true] at h ⊢
  exact ⟨⟨⟨hr h.1.1.1, hb h.1.1.2⟩, he h.1.2⟩, hw h.2⟩

theorem keeps_loseTables {sK : State} (s : State) (hK : sK.Keeps s) : sK.Keeps (State.loseTables s) := by
  unfold State.loseTables
  exact keeps_modTsu _ (keeps_modCom _ _ hK rfl fun h => comOk_regs h (tok_filter _ _ _ _) id id id) id

theorem keeps_abandon {sK : State} (s : State) (hK : sK.Keeps s) : sK.Keeps (State.abandon s) := by
  unfold State.abandon
  try dsimp only
  repeat' first | (with_reducible first | assumption | apply keeps_post | apply keeps_foldl) | split | (apply Eq.refl) | exact selfTrue | exact selfChans | exact selfAnd | intro _

theorem keeps_stopAll {sK : State} (s : State) (hK : sK.Keeps s) : sK.Keeps (State.stopAll s) := by
  unfold State.stopAll
  try dsimp only
  repeat' first | (with_reducible first | assumption | apply keeps_cancelWaits | apply keeps_emit | apply keeps_stopStreams | apply keeps_foldl) | split | (apply Eq.refl) | exact selfTrue | exact selfChans | exact selfAnd | intro _

theorem keeps_dieReset {sK : State} (s : State) (cause : BitVec 4) (hK : sK.Keeps s) : sK.Keeps (State.dieReset s cause) := by
  unfold State.dieReset
  dsimp only
  split
  · exact keeps_modPower _ _ hK
  · refine keeps_emit _ (keeps_modLink _ _ _ _ (keeps_modLink _ _ _ _ ?_))
    have h1 := keeps_modCom .tsu (fun c =>
      { c with regs := c.regs.filter fun (k, _) => keptReg k, blocks := [], groups := [], load := none, loadQueue := [], inbox := [],
               shut := { c.shut with plates := [] } }) (keeps_loseTables _ (keeps_stopAll _ (keeps_abandon _ hK))) rfl
      (fun h => comOk_regs h (tok_filter _ _ _ _) (fun _ => rfl) id id)
    exact keeps_modTsu (fun t => { power := { t.power with cause := cause, rstTick := s.now .tsu, rstPend := none, mainUp := false } }) h1
      (fun _ e he => absurd he (List.not_mem_nil))

theorem keeps_nextTick {sK : State} (s : State) (a : ChanAct) (c : Nat) (hK : sK.Keeps s) : sK.Keeps (State.nextTick s a c) := by
  unfold State.nextTick
  try dsimp only
  repeat' first | (with_reducible first | assumption | apply keeps_modTsu | apply resKeeps_next) | split | (apply Eq.refl) | exact selfTrue | exact selfChans | exact selfAnd | intro _

theorem keeps_clearObjects {sK : State} (s : State) (c : Nat) (hK : sK.Keeps s) : sK.Keeps (State.clearObjects s c) := by
  unfold State.clearObjects
  try dsimp only
  repeat' first | (with_reducible first | assumption | apply keeps_modSync) | split | (apply Eq.refl) | exact selfTrue | exact selfChans | exact selfAnd | intro _

theorem chansOk_tset (t : Table Chan) (c : Nat) (h : ∀ e ∈ t, e.2.tablesOk = true) : ∀ e ∈ tset {} t c {}, e.2.tablesOk = true :=
  fun e he => (mem_tset _ _ _ _ _ he).elim (h e) fun h1 => by subst h1; rfl

theorem keeps_chanReset {sK : State} (s : State) (c : Nat) (hK : sK.Keeps s) : sK.Keeps (State.chanReset s c) := by
  unfold State.chanReset
  try dsimp only
  repeat' first | (with_reducible first | assumption | apply keeps_cancelWaits | apply keeps_clearObjects | apply keeps_emit | apply keeps_modBlock | apply keeps_modTsu | apply keeps_report | apply keeps_stopMates | apply keeps_stopOne | apply keeps_unbindFilters) | (exact chansOk_tset _ _) | split | (apply Eq.refl) | exact selfTrue | exact selfChans | exact selfAnd | intro _

theorem keeps_execStreamEnd {sK : State} (c : Fin 8) (s : State) (hK : sK.Keeps s) : ResKeeps sK (execStreamEnd c s) := by
  unfold execStreamEnd
  try dsimp only
  repeat' first | (with_reducible first | assumption | apply keeps_mainIn | apply keeps_modChan | apply keeps_powerChoice | (apply keepsN_mainIn; case' he => assumption)) | split | (apply Eq.refl) | exact selfTrue | exact selfChans | exact selfAnd | intro _

theorem keeps_startWake {sK : State} (s : State) (hK : sK.Keeps s) : sK.Keeps (State.startWake s) := by
  unfold State.startWake
  try dsimp only
  repeat' first | (with_reducible first | assumption | apply keeps_emit | apply keeps_modPower) | split | (apply Eq.refl) | exact selfTrue | exact selfChans | exact selfAnd | intro _

theorem keeps_execWakeStart {sK : State} (s : State) (hK : sK.Keeps s) : ResKeeps sK (execWakeStart s) := by
  unfold execWakeStart
  try dsimp only
  repeat' first | (with_reducible first | assumption | apply keeps_due | apply keeps_startWake | apply resKeeps_next | (apply keepsN_due; case' he => assumption)) | split | (apply Eq.refl) | exact selfTrue | exact selfChans | exact selfAnd | intro _

theorem keeps_enterDark {sK : State} (s : State) (hK : sK.Keeps s) : sK.Keeps (State.enterDark s) := by
  unfold State.enterDark
  try dsimp only
  repeat' first | (with_reducible first | assumption | apply keeps_emit | apply keeps_enterLowRate | apply keeps_linkToDown | apply keeps_loseTables | apply keeps_modPower | apply keeps_modSec) | split | (apply Eq.refl) | exact selfTrue | exact selfChans | exact selfAnd | intro _

theorem keeps_openPending {sK : State} (s : State) (hK : sK.Keeps s) : sK.Keeps (State.openPending s) := by
  unfold State.openPending
  try dsimp only
  repeat' first | (with_reducible first | assumption | apply keeps_modSec) | split | (apply Eq.refl) | exact selfTrue | exact selfChans | exact selfAnd | intro _

theorem keeps_powerNow {sK : State} (s : State) (k : Nat) (hK : sK.Keeps s) : sK.Keeps (State.powerNow s k) := by
  unfold State.powerNow
  try dsimp only
  repeat' first | (with_reducible first | assumption | apply keeps_deliverHeld | apply keeps_enterDark | apply keeps_leaveLowRate | apply keeps_modPower | apply keeps_openPending) | split | (apply Eq.refl) | exact selfTrue | exact selfChans | exact selfAnd | intro _

theorem keeps_execPmStateChange {sK : State} (state : Fin 5) (s : State) (hK : sK.Keeps s) : ResKeeps sK (execPmStateChange state s) := by
  unfold execPmStateChange
  try dsimp only
  repeat' first | (with_reducible first | assumption | apply keeps_powerNow | apply resKeeps_next) | split | (apply Eq.refl) | exact selfTrue | exact selfChans | exact selfAnd | intro _

theorem keeps_execLateWake {sK : State} (s : State) (hK : sK.Keeps s) : ResKeeps sK (execLateWake s) := by
  unfold execLateWake
  try dsimp only
  repeat' first | (with_reducible first | assumption | apply keeps_due | apply keeps_modProg | apply keeps_foldl | apply resKeeps_next | (apply keepsN_due; case' he => assumption)) | split | (apply Eq.refl) | exact selfTrue | exact selfChans | exact selfAnd | intro _

theorem keeps_mainRelease {sK : State} (s : State) (hK : sK.Keeps s) : sK.Keeps (State.mainRelease s) := by
  unfold State.mainRelease
  try dsimp only
  repeat' first | (with_reducible first | assumption | apply keeps_dieReset | apply keeps_emit | apply keeps_modPower | apply keeps_sendAll) | split | (apply Eq.refl) | exact selfTrue | exact selfChans | exact selfAnd | intro _

theorem keeps_execMainResetRelease {sK : State} (s : State) (hK : sK.Keeps s) : ResKeeps sK (execMainResetRelease s) := by
  unfold execMainResetRelease
  try dsimp only
  repeat' first | (with_reducible first | assumption | apply keeps_due | apply keeps_mainRelease | apply resKeeps_next | (apply keepsN_due; case' he => assumption)) | split | (apply Eq.refl) | exact selfTrue | exact selfChans | exact selfAnd | intro _

theorem keeps_powerOn {sK : State} (s : State) (hK : sK.Keeps s) : sK.Keeps (State.powerOn s) := by
  refine ⟨hK.1, fun h => ?_⟩
  have h1 := (tablesOk_iff s).mp (hK.2 h)
  exact (tablesOk_iff _).mpr ⟨⟨⟨rfl, h1.1.1.2⟩, fun e he => absurd he (List.not_mem_nil)⟩, h1.2⟩

theorem keeps_execPowerOnReset {sK : State} (s : State) (hK : sK.Keeps s) : ResKeeps sK (execPowerOnReset s) := by
  unfold execPowerOnReset
  try dsimp only
  repeat' first | (with_reducible first | assumption | apply keeps_powerOn | apply resKeeps_next) | split | (apply Eq.refl) | exact selfTrue | exact selfChans | exact selfAnd | intro _

theorem keeps_execMainRailFall {sK : State} (s : State) (hK : sK.Keeps s) : ResKeeps sK (execMainRailFall s) := by
  unfold execMainRailFall
  try dsimp only
  repeat' first | (with_reducible first | assumption | apply keeps_dieReset | apply keeps_due | apply resKeeps_next | (apply keepsN_due; case' he => assumption)) | split | (apply Eq.refl) | exact selfTrue | exact selfChans | exact selfAnd | intro _

theorem keeps_execDieResetInput {sK : State} (pllLoss : Bool) (s : State) (hK : sK.Keeps s) : ResKeeps sK (execDieResetInput pllLoss s) := by
  unfold execDieResetInput
  try dsimp only
  repeat' first | (with_reducible first | assumption | apply keeps_dieReset | apply keeps_due | apply resKeeps_next | (apply keepsN_due; case' he => assumption)) | split | (apply Eq.refl) | exact selfTrue | exact selfChans | exact selfAnd | intro _

theorem keeps_execDieRst {sK : State} (s : State) (hK : sK.Keeps s) : ResKeeps sK (execDieRst s) := by
  unfold execDieRst
  try dsimp only
  repeat' first | (with_reducible first | assumption | apply keeps_dieReset | apply keeps_modPower | apply resKeeps_next) | split | (apply Eq.refl) | exact selfTrue | exact selfChans | exact selfAnd | intro _

theorem keeps_execChRst {sK : State} (c : Fin 8) (s : State) (hK : sK.Keeps s) : ResKeeps sK (execChRst c s) := by
  unfold execChRst
  try dsimp only
  repeat' first | (with_reducible first | assumption | apply keeps_nextTick | apply resKeeps_next) | split | (apply Eq.refl) | exact selfTrue | exact selfChans | exact selfAnd | intro _

theorem keeps_execLinkRst {sK : State} (u : Fin 2) (s : State) (hK : sK.Keeps s) : ResKeeps sK (execLinkRst u s) := by
  unfold execLinkRst
  try dsimp only
  repeat' first | (with_reducible first | assumption | apply keeps_modLink | apply keeps_modPower | apply resKeeps_next) | split | (apply Eq.refl) | exact selfTrue | exact selfChans | exact selfAnd | intro _

theorem keeps_execSupplyWarn {sK : State} (s : State) (hK : sK.Keeps s) : ResKeeps sK (execSupplyWarn s) := by
  unfold execSupplyWarn
  try dsimp only
  repeat' first | (with_reducible first | assumption | apply keeps_due | apply keeps_enterLowRate | apply keeps_modPower | apply keeps_raiseLevel | apply keeps_wantHoldAll | apply resKeeps_next | (apply keepsN_due; case' he => assumption)) | split | (apply Eq.refl) | exact selfTrue | exact selfChans | exact selfAnd | intro _

theorem keeps_reportReady {sK : State} (s : State) (hK : sK.Keeps s) : sK.Keeps (State.reportReady s) := by
  unfold State.reportReady
  try dsimp only
  repeat' first | (with_reducible first | assumption | apply keeps_report) | split | (apply Eq.refl) | exact selfTrue | exact selfChans | exact selfAnd | intro _

theorem keeps_orderlyFence {sK : State} (s : State) (code : Code) (hK : sK.Keeps s) : sK.Keeps (State.orderlyFence s code) := by
  unfold State.orderlyFence
  try dsimp only
  repeat' first | (with_reducible first | assumption | apply keeps_modPower | apply keeps_raiseFault | apply keeps_report | apply keeps_stopStep | apply keeps_foldl) | split | (apply Eq.refl) | exact selfTrue | exact selfChans | exact selfAnd | intro _

theorem keeps_execSupplyWarnClear {sK : State} (sumsOk : Bool) (s : State) (hK : sK.Keeps s) : ResKeeps sK (execSupplyWarnClear sumsOk s) := by
  refine keeps_due _ _ (fun s hK => ?_) hK
  dsimp only
  have h2 : ∀ dur, sK.Keeps (((s.modPower fun p => { p with warn := false, lastDur := BitVec.ofNat 16 (min 0xFFFF (dur / 64)) }).leaveLowRate).endLevel
      .tsu (blkPower .tsu) cSupplyWarn {}) := fun dur => keeps_endLevel _ _ _ _ _ (keeps_leaveLowRate _ (keeps_modPower _ _ hK))
  split
  · exact keeps_reportReady _ (h2 _)
  split
  · exact h2 _
  split
  · exact keeps_reportReady _ (h2 _)
  · exact keeps_orderlyFence _ _ (keeps_raiseFault _ _ _ _ _ (h2 _))

theorem keeps_execBrownoutFence {sK : State} (s : State) (hK : sK.Keeps s) : ResKeeps sK (execBrownoutFence s) := by
  unfold execBrownoutFence
  try dsimp only
  repeat' first | (with_reducible first | assumption | apply keeps_due | apply keeps_orderlyFence | apply resKeeps_next | (apply keepsN_due; case' he => assumption)) | split | (apply Eq.refl) | exact selfTrue | exact selfChans | exact selfAnd | intro _

theorem keeps_execDbgChal {sK : State} (d : Dev) (s : State) (hK : sK.Keeps s) : ResKeeps sK (execDbgChal d s) := by
  unfold execDbgChal
  try dsimp only
  repeat' first | (with_reducible first | assumption | apply keeps_fresh | apply keeps_modSec | apply resKeeps_next | (apply keepsE_fresh; case' he => assumption)) | exact keeps_fresh hK | split | (apply Eq.refl) | exact selfTrue | exact selfChans | exact selfAnd | intro _

theorem keeps_execDbgOpen {sK : State} (d : Dev) (s : State) (hK : sK.Keeps s) : ResKeeps sK (execDbgOpen d s) := by
  unfold execDbgOpen
  try dsimp only
  repeat' first | (with_reducible first | assumption | apply keeps_modSec | apply resKeeps_next) | split | (apply Eq.refl) | exact selfTrue | exact selfChans | exact selfAnd | intro _

theorem keeps_openSession {sK : State} (s : State) (d : Dev) (hK : sK.Keeps s) : sK.Keeps (State.openSession s d) := by
  unfold State.openSession
  try dsimp only
  repeat' first | (with_reducible first | assumption | apply keeps_modSec | apply keeps_powerChoice) | split | (apply Eq.refl) | exact selfTrue | exact selfChans | exact selfAnd | intro _

theorem keeps_tokenChecked {sK : State} (s : State) (d : Dev) (hK : sK.Keeps s) : sK.Keeps (State.tokenChecked s d) := by
  unfold State.tokenChecked
  try dsimp only
  repeat' first | (with_reducible first | assumption | apply keeps_modSec | apply keeps_openSession | apply keeps_raiseFault) | split | (apply Eq.refl) | exact selfTrue | exact selfChans | exact selfAnd | intro _

theorem keeps_execDebugTokenChecked {sK : State} (d : Dev) (s : State) (hK : sK.Keeps s) : ResKeeps sK (execDebugTokenChecked d s) := by
  unfold execDebugTokenChecked
  try dsimp only
  repeat' first | (with_reducible first | assumption | apply keeps_tokenChecked | apply resKeeps_next | apply resKeeps_fault) | split | (apply Eq.refl) | exact selfTrue | exact selfChans | exact selfAnd | intro _

theorem keeps_execDbgClose {sK : State} (d : Dev) (s : State) (hK : sK.Keeps s) : ResKeeps sK (execDbgClose d s) := by
  unfold execDbgClose
  try dsimp only
  repeat' first | (with_reducible first | assumption | apply keeps_modSec | apply resKeeps_next) | split | (apply Eq.refl) | exact selfTrue | exact selfChans | exact selfAnd | intro _

theorem keeps_execDebugSessionExpiry {sK : State} (d : Dev) (s : State) (hK : sK.Keeps s) : ResKeeps sK (execDebugSessionExpiry d s) := by
  unfold execDebugSessionExpiry
  try dsimp only
  repeat' first | (with_reducible first | assumption | apply keeps_due | apply keeps_modSec | apply resKeeps_next | (apply keepsN_due; case' he => assumption)) | split | (apply Eq.refl) | exact selfTrue | exact selfChans | exact selfAnd | intro _

theorem keeps_dbgStopStep {sK : State} (s : State) (c : Nat) (hK : sK.Keeps s) : sK.Keeps (State.dbgStopStep s c) := by
  unfold State.dbgStopStep
  try dsimp only
  repeat' first | (with_reducible first | assumption | apply keeps_stopMates | apply keeps_stopOne) | split | (apply Eq.refl) | exact selfTrue | exact selfChans | exact selfAnd | intro _

theorem keeps_dbgGoOn {sK : State} (s : State) (c : Nat) (hK : sK.Keeps s) : sK.Keeps (State.dbgGoOn s c) := by
  unfold State.dbgGoOn
  try dsimp only
  repeat' first | (with_reducible first | assumption | apply keeps_emit | apply keeps_modChan | apply keeps_repeatBroken) | split | (apply Eq.refl) | exact selfTrue | exact selfChans | exact selfAnd | intro _

theorem keeps_dbgAsk {sK : State} (s : State) (go : Bool) (c : Nat) (hK : sK.Keeps s) : sK.Keeps (State.dbgAsk s go c) := by
  unfold State.dbgAsk
  try dsimp only
  repeat' first | (with_reducible first | assumption | apply keeps_denied | apply keeps_nextTick | apply resKeeps_next) | split | (apply Eq.refl) | exact selfTrue | exact selfChans | exact selfAnd | intro _

theorem keeps_chanAct {sK : State} (s : State) (a : ChanAct) (c : Nat) (hK : sK.Keeps s) : sK.Keeps (State.chanAct s a c) := by
  unfold State.chanAct
  try dsimp only
  repeat' first | (with_reducible first | assumption | apply keeps_chanReset | apply keeps_dbgGoOn | apply keeps_dbgStopStep) | split | (apply Eq.refl) | exact selfTrue | exact selfChans | exact selfAnd | intro _

theorem keeps_chanActsDue {sK : State} (s : State) (hK : sK.Keeps s) : sK.Keeps (State.chanActsDue s) := by
  unfold State.chanActsDue
  try dsimp only
  repeat' first | (with_reducible first | assumption | apply keeps_chanAct | apply keeps_modTsu | apply keeps_foldl) | split | (apply Eq.refl) | exact selfTrue | exact selfChans | exact selfAnd | intro _

theorem keeps_execDbgStop {sK : State} (c : Fin 8) (s : State) (hK : sK.Keeps s) : ResKeeps sK (execDbgStop c s) := by
  unfold execDbgStop
  try dsimp only
  repeat' first | (with_reducible first | assumption | apply keeps_dbgAsk | apply resKeeps_next) | split | (apply Eq.refl) | exact selfTrue | exact selfChans | exact selfAnd | intro _

theorem keeps_execDbgContinue {sK : State} (c : Fin 8) (s : State) (hK : sK.Keeps s) : ResKeeps sK (execDbgContinue c s) := by
  unfold execDbgContinue
  try dsimp only
  repeat' first | (with_reducible first | assumption | apply keeps_dbgAsk | apply resKeeps_next) | split | (apply Eq.refl) | exact selfTrue | exact selfChans | exact selfAnd | intro _

theorem applyRecord_tables (s : State) (d : Dev) (ws : List Word) :
    (s.applyRecord d ws).pending = s.pending ∧ (s.tablesOk = true → (s.applyRecord d ws).tablesOk = true) := by
  have hm : ∀ f : Security → Security, (s.modSec d f).pending = s.pending ∧ (s.tablesOk = true → (s.modSec d f).tablesOk = true) := by
    intro f; cases d <;> exact ⟨rfl, id⟩
  have hE : ∀ s' : State, (s'.pending = s.pending ∧ (s.tablesOk = true → s'.tablesOk = true)) →
      ∀ r : State, s'.Keeps r → r.pending = s.pending ∧ (s.tablesOk = true → r.tablesOk = true) := by
    intro s' h r hr
    exact ⟨(congrArg (fun x => x.2.2) hr.1).trans h.1, fun x => hr.2 (h.2 x)⟩
  unfold State.applyRecord
  extract_lets f lv f' s1
  split
  · exact hE _ (hm _) _ (keeps_endLevel _ _ _ _ _ (keeps_refl _))
  · exact hE _ (hm _) _ (keeps_emit _ (keeps_endLevel _ _ _ _ _ (keeps_refl _)))

theorem keeps_noRecord {sK : State} (s : State) (d : Dev) (hK : sK.Keeps s) : sK.Keeps (State.noRecord s d) := by
  unfold State.noRecord
  try dsimp only
  repeat' first | (with_reducible first | assumption | apply keeps_modSec | apply keeps_raiseLevel) | split | (apply Eq.refl) | exact selfTrue | exact selfChans | exact selfAnd | intro _

theorem keeps_dropEdge {sK : State} (s : State) (d : Dev) (n : Nat) (hK : sK.Keeps s) : sK.Keeps (State.dropEdge s d n) := by
  unfold State.dropEdge
  try dsimp only
  repeat' first | (with_reducible first | assumption | apply keeps_modConvCtl) | split | (apply Eq.refl) | exact selfTrue | exact selfChans | exact selfAnd | intro _

theorem keeps_takeEdge {sK : State} (s : State) (d : Dev) (n : Nat) (code : BitVec 8) (hK : sK.Keeps s) : sK.Keeps (State.takeEdge s d n code) := by
  unfold State.takeEdge
  try dsimp only
  repeat' first | (with_reducible first | assumption | apply keeps_modConv | apply keeps_modConvCtl) | split | (apply Eq.refl) | exact selfTrue | exact selfChans | exact selfAnd | intro _

theorem keeps_execVernierEdge {sK : State} (d : Dev) (n : Nat) (code : BitVec 8) (e : EdgeIn) (s : State) (hK : sK.Keeps s) : ResKeeps sK (execVernierEdge d n code e s) := by
  unfold execVernierEdge
  try dsimp only
  repeat' first | (with_reducible first | assumption | apply keeps_dropEdge | apply keeps_modConvCtl | apply keeps_takeEdge | apply resKeeps_next) | split | (apply Eq.refl) | exact selfTrue | exact selfChans | exact selfAnd | intro _

theorem keeps_feedPulses {sK : State} (s : State) (d : Dev) (src : Nat) (st : Stamp) (din : Int) (hK : sK.Keeps s) : sK.Keeps (State.feedPulses s d src st din) := by
  unfold State.feedPulses
  try dsimp only
  repeat' first | (with_reducible first | assumption | apply keeps_modPulse | apply keeps_foldl) | split | (apply Eq.refl) | exact selfTrue | exact selfChans | exact selfAnd | intro _

theorem keeps_refEdge {sK : State} (s : State) (r : Nat) (st : Stamp) (hK : sK.Keeps s) : sK.Keeps (State.refEdge s r st) := by
  unfold State.refEdge
  try dsimp only
  repeat' first | (with_reducible first | assumption | apply keeps_evalRef | apply keeps_feedPulses | apply keeps_modRef) | split | (apply Eq.refl) | exact selfTrue | exact selfChans | exact selfAnd | intro _

theorem keeps_labelEdge {sK : State} (s : State) (r : Nat) (st : Stamp) (hK : sK.Keeps s) : sK.Keeps (State.labelEdge s r st) := by
  unfold State.labelEdge
  try dsimp only
  repeat' first | (with_reducible first | assumption | apply keeps_modJup | apply keeps_post | apply keeps_tick) | split | (apply Eq.refl) | exact selfTrue | exact selfChans | exact selfAnd | intro _

theorem keeps_deliver {sK : State} (s : State) (d : Dev) (n : Nat) (st : Stamp) (hK : sK.Keeps s) : sK.Keeps (State.deliver s d n st) := by
  unfold State.deliver
  try dsimp only
  repeat' first | (with_reducible first | assumption | apply keeps_feedPulses | apply keeps_labelEdge | apply keeps_modLt | apply keeps_modPulse | apply keeps_refEdge) | split | (apply Eq.refl) | exact selfTrue | exact selfChans | exact selfAnd | intro _

theorem keeps_execTimestampDelivered {sK : State} (d : Dev) (n : Nat) (s : State) (hK : sK.Keeps s) : ResKeeps sK (execTimestampDelivered d n s) := by
  unfold execTimestampDelivered
  try dsimp only
  repeat' first | (with_reducible first | assumption | apply keeps_deliver | apply keeps_due | apply keeps_modConv | apply resKeeps_next | (apply keepsN_due; case' he => assumption)) | split | (apply Eq.refl) | exact selfTrue | exact selfChans | exact selfAnd | intro _

theorem keeps_execCalHit {sK : State} (d : Dev) (n : Nat) (code : BitVec 8) (s : State) (hK : sK.Keeps s) : ResKeeps sK (execCalHit d n code s) := by
  unfold execCalHit
  try dsimp only
  repeat' first | (with_reducible first | assumption | apply keeps_due | apply keeps_modConv | apply keeps_modConvCtl | apply resKeeps_next | (apply keepsN_due; case' he => assumption)) | split | (apply Eq.refl) | exact selfTrue | exact selfChans | exact selfAnd | intro _

theorem keeps_modCal {sK : State} (s : State) (d : Dev) (h : Option Half) (f : CalCmd → CalCmd) (hK : sK.Keeps s) : sK.Keeps (State.modCal s d h f) := by
  unfold State.modCal
  try dsimp only
  repeat' first | (with_reducible first | assumption | apply keeps_modCom) | split | (apply Eq.refl) | exact selfTrue | exact selfChans | exact selfAnd | intro _

theorem keeps_calPost {sK : State} (s : State) (d : Dev) (hK : sK.Keeps s) : sK.Keeps (State.calPost s d) := by
  unfold State.calPost
  try dsimp only
  repeat' first | (with_reducible first | assumption | apply keeps_endTick | apply keeps_modCom | apply keeps_post | apply keeps_foldl) | split | (apply Eq.refl) | exact selfTrue | exact selfChans | exact selfAnd | intro _

theorem keeps_failBuild {sK : State} (s : State) (d : Dev) (n : Nat) (hK : sK.Keeps s) : sK.Keeps (State.failBuild s d n) := by
  unfold State.failBuild
  try dsimp only
  repeat' first | (with_reducible first | assumption | apply keeps_modConv | apply keeps_raiseFault) | split | (apply Eq.refl) | exact selfTrue | exact selfChans | exact selfAnd | intro _

theorem keeps_storeTable {sK : State} (s : State) (d : Dev) (n : Nat) (new : Table (BitVec 16)) (valid : Bool) (hK : sK.Keeps s) : sK.Keeps (State.storeTable s d n new valid) := by
  unfold State.storeTable
  try dsimp only
  repeat' first | (with_reducible first | assumption | apply keeps_modConv | apply keeps_modConvCtl) | split | (apply Eq.refl) | exact selfTrue | exact selfChans | exact selfAnd | intro _

theorem keeps_buildOver {sK : State} (s : State) (d : Dev) (n : Nat) (h : Option Half) (f : CalCmd → CalCmd) (hK : sK.Keeps s) : sK.Keeps (State.buildOver s d n h f) := by
  unfold State.buildOver
  try dsimp only
  repeat' first | (with_reducible first | assumption | apply keeps_calPost | apply keeps_modCal) | split | (apply Eq.refl) | exact selfTrue | exact selfChans | exact selfAnd | intro _

theorem keeps_buildEnd {sK : State} (s : State) (d : Dev) (n : Nat) (hK : sK.Keeps s) : sK.Keeps (State.buildEnd s d n) := by
  unfold State.buildEnd
  try dsimp only
  repeat' first | (with_reducible first | assumption | apply keeps_buildOver | apply keeps_endTick | apply keeps_failBuild | apply keeps_modCal | apply keeps_modConv | apply keeps_modConvCtl | apply keeps_raiseFault | apply keeps_storeTable | apply resKeeps_next) | split | (apply Eq.refl) | exact selfTrue | exact selfChans | exact selfAnd | intro _

theorem keeps_execVernierBuildEnd {sK : State} (d : Dev) (n : Nat) (s : State) (hK : sK.Keeps s) : ResKeeps sK (execVernierBuildEnd d n s) := by
  unfold execVernierBuildEnd
  try dsimp only
  repeat' first | (with_reducible first | assumption | apply keeps_buildEnd | apply keeps_due | apply resKeeps_next | (apply keepsN_due; case' he => assumption)) | split | (apply Eq.refl) | exact selfTrue | exact selfChans | exact selfAnd | intro _

theorem keeps_endStale {sK : State} (s : State) (d : Dev) (n : Nat) (hK : sK.Keeps s) : sK.Keeps (State.endStale s d n) := by
  unfold State.endStale
  try dsimp only
  repeat' first | (with_reducible first | assumption | apply keeps_endLevel) | split | (apply Eq.refl) | exact selfTrue | exact selfChans | exact selfAnd | intro _

theorem keeps_tableSwap {sK : State} (s : State) (d : Dev) (n : Nat) (hK : sK.Keeps s) : sK.Keeps (State.tableSwap s d n) := by
  unfold State.tableSwap
  try dsimp only
  repeat' first | (with_reducible first | assumption | apply keeps_buildOut | apply keeps_calPost | apply keeps_endStale | apply keeps_modCal | apply keeps_modConv | apply keeps_modConvCtl) | split | (apply Eq.refl) | exact selfTrue | exact selfChans | exact selfAnd | intro _

theorem keeps_execVernierTableSwap {sK : State} (d : Dev) (n : Nat) (s : State) (hK : sK.Keeps s) : ResKeeps sK (execVernierTableSwap d n s) := by
  unfold execVernierTableSwap
  try dsimp only
  repeat' first | (with_reducible first | assumption | apply keeps_due | apply keeps_tableSwap | apply resKeeps_next | (apply keepsN_due; case' he => assumption)) | split | (apply Eq.refl) | exact selfTrue | exact selfChans | exact selfAnd | intro _

theorem keeps_execVernierCalStale {sK : State} (d : Dev) (n : Nat) (s : State) (hK : sK.Keeps s) : ResKeeps sK (execVernierCalStale d n s) := by
  unfold execVernierCalStale
  try dsimp only
  repeat' first | (with_reducible first | assumption | apply keeps_due | apply keeps_modConv | apply keeps_raiseLevel | apply resKeeps_next | (apply keepsN_due; case' he => assumption)) | split | (apply Eq.refl) | exact selfTrue | exact selfChans | exact selfAnd | intro _

theorem keeps_vrnSwap {sK : State} (s : State) (d : Dev) (n : Nat) (check : BitVec 16) (hK : sK.Keeps s) : sK.Keeps (State.vrnSwap s d n check) := by
  unfold State.vrnSwap
  try dsimp only
  repeat' first | (with_reducible first | assumption | apply keeps_modConv | apply keeps_modConvCtl | apply keeps_raiseFault | apply resKeeps_next) | split | (apply Eq.refl) | exact selfTrue | exact selfChans | exact selfAnd | intro _

theorem keeps_execVrnSwapGo {sK : State} (d : Dev) (n : Nat) (check : BitVec 16) (s : State) (hK : sK.Keeps s) : ResKeeps sK (execVrnSwapGo d n check s) := by
  unfold execVrnSwapGo
  try dsimp only
  repeat' first | (with_reducible first | assumption | apply keeps_vrnSwap | apply resKeeps_next) | split | (apply Eq.refl) | exact selfTrue | exact selfChans | exact selfAnd | intro _

theorem keeps_startBuild {sK : State} (s : State) (d : Dev) (n : Nat) (hd : Half) (hold : Bool) (hK : sK.Keeps s) : sK.Keeps (State.startBuild s d n hd hold) := by
  unfold State.startBuild
  try dsimp only
  repeat' first | (with_reducible first | assumption | apply keeps_modConv | apply keeps_modConvCtl) | split | (apply Eq.refl) | exact selfTrue | exact selfChans | exact selfAnd | intro _

theorem keeps_execCalVernier {sK : State} (d : Dev) (h : Hdr) (first last : Nat) (fg hold : Bool) (s : State) (hK : sK.Keeps s) : ResKeeps sK (execCalVernier d h first last fg hold s) := by
  unfold execCalVernier
  try dsimp only
  repeat' first | (with_reducible first | assumption | apply keeps_calPost | apply keeps_modCom | apply keeps_post | apply keeps_startBuild | apply keeps_withHandle | apply keeps_foldl | apply resKeeps_next) | split | (apply Eq.refl) | exact selfTrue | exact selfChans | exact selfAnd | intro _

theorem keepsN_execCalVernier {sK : State} (d : Dev) (h : Hdr) (first last : Nat) (fg hold : Bool) (s : State)  {t' : State} (he : (execCalVernier d h first last fg hold s) = .next t') (hK : sK.Keeps s) : sK.Keeps t' := keeps_execCalVernier d h first last fg hold s  hK t' he

theorem keeps_freshen {sK : State} (s : State) (d : Dev) (n : Nat) (hK : sK.Keeps s) : sK.Keeps (State.freshen s d n) := by
  unfold State.freshen
  try dsimp only
  repeat' first | (with_reducible first | assumption | apply keeps_endStale | apply keeps_modConv) | split | (apply Eq.refl) | exact selfTrue | exact selfChans | exact selfAnd | intro _

theorem keeps_freshenAll {sK : State} (s : State) (d : Dev) (hK : sK.Keeps s) : sK.Keeps (State.freshenAll s d) := by
  unfold State.freshenAll
  try dsimp only
  repeat' first | (with_reducible first | assumption | apply keeps_freshen | apply keeps_foldl) | split | (apply Eq.refl) | exact selfTrue | exact selfChans | exact selfAnd | intro _

theorem keeps_execTempUpdate {sK : State} (d : Dev) (t : BitVec 8) (s : State) (hK : sK.Keeps s) : ResKeeps sK (execTempUpdate d t s) := by
  unfold execTempUpdate
  try dsimp only
  repeat' first | (with_reducible first | assumption | apply keeps_freshenAll | apply keeps_modTime | apply resKeeps_next) | split | (apply Eq.refl) | exact selfTrue | exact selfChans | exact selfAnd | intro _

theorem keeps_execRefEdgeMissing {sK : State} (d : Dev) (ref : Fin 8) (s : State) (hK : sK.Keeps s) : ResKeeps sK (execRefEdgeMissing d ref s) := by
  unfold execRefEdgeMissing
  try dsimp only
  repeat' first | (with_reducible first | assumption | apply keeps_evalRef | apply keeps_modRef | apply resKeeps_next) | split | (apply Eq.refl) | exact selfTrue | exact selfChans | exact selfAnd | intro _

theorem keeps_execWtrExpiry {sK : State} (d : Dev) (ref : Fin 8) (s : State) (hK : sK.Keeps s) : ResKeeps sK (execWtrExpiry d ref s) := by
  unfold execWtrExpiry
  try dsimp only
  repeat' first | (with_reducible first | assumption | apply keeps_due | apply keeps_evalRef | apply keeps_modRef | apply resKeeps_next | (apply keepsN_due; case' he => assumption)) | split | (apply Eq.refl) | exact selfTrue | exact selfChans | exact selfAnd | intro _

theorem keeps_execClockQualitySend {sK : State} (port : Nat) (s : State) (hK : sK.Keeps s) : ResKeeps sK (execClockQualitySend port s) := by
  unfold execClockQualitySend
  try dsimp only
  repeat' first | (with_reducible first | assumption | apply keeps_due | apply keeps_modTx | apply resKeeps_next | (apply keepsN_due; case' he => assumption)) | split | (apply Eq.refl) | exact selfTrue | exact selfChans | exact selfAnd | intro _

theorem keeps_execClockQualityRx {sK : State} (d : Dev) (n : Nat) (word : BitVec 16) (s : State) (hK : sK.Keeps s) : ResKeeps sK (execClockQualityRx d n word s) := by
  unfold execClockQualityRx
  try dsimp only
  repeat' first | (with_reducible first | assumption | apply keeps_consume | apply keeps_evalRef | apply keeps_modCr | apply keeps_modRef | apply resKeeps_next) | split | (apply Eq.refl) | exact selfTrue | exact selfChans | exact selfAnd | intro _

theorem keeps_qlFail {sK : State} (s : State) (d : Dev) (r : Nat) (hK : sK.Keeps s) : sK.Keeps (State.qlFail s d r) := by
  unfold State.qlFail
  try dsimp only
  repeat' first | (with_reducible first | assumption | apply keeps_evalRef | apply keeps_modRef) | split | (apply Eq.refl) | exact selfTrue | exact selfChans | exact selfAnd | intro _

theorem keeps_execQlTimeout {sK : State} (d : Dev) (ref : Fin 8) (s : State) (hK : sK.Keeps s) : ResKeeps sK (execQlTimeout d ref s) := by
  unfold execQlTimeout
  try dsimp only
  repeat' first | (with_reducible first | assumption | apply keeps_due | apply keeps_qlFail | apply resKeeps_next | (apply keepsN_due; case' he => assumption)) | split | (apply Eq.refl) | exact selfTrue | exact selfChans | exact selfAnd | intro _

theorem keeps_execEsmcPduRx {sK : State} (input : Fin 4) (mac : BitVec 48) (valid : Bool) (ql : BitVec 4) (s : State) (hK : sK.Keeps s) : ResKeeps sK (execEsmcPduRx input mac valid ql s) := by
  unfold execEsmcPduRx
  try dsimp only
  repeat' first | (with_reducible first | assumption | apply keeps_due | apply keeps_evalRef | apply keeps_modCr | apply keeps_modRef | apply resKeeps_next | (apply keepsN_due; case' he => assumption)) | split | (apply Eq.refl) | exact selfTrue | exact selfChans | exact selfAnd | intro _

theorem keeps_execEsmcTimeout {sK : State} (input : Fin 4) (s : State) (hK : sK.Keeps s) : ResKeeps sK (execEsmcTimeout input s) := by
  unfold execEsmcTimeout
  try dsimp only
  repeat' first | (with_reducible first | assumption | apply keeps_due | apply keeps_qlFail | apply resKeeps_next | (apply keepsN_due; case' he => assumption)) | split | (apply Eq.refl) | exact selfTrue | exact selfChans | exact selfAnd | intro _

theorem keeps_execRefSelect {sK : State} (d : Dev) (s : State) (hK : sK.Keeps s) : ResKeeps sK (execRefSelect d s) := by
  unfold execRefSelect
  try dsimp only
  repeat' first | (with_reducible first | assumption | apply keeps_crSelect | apply keeps_due | apply resKeeps_next | (apply keepsN_due; case' he => assumption)) | split | (apply Eq.refl) | exact selfTrue | exact selfChans | exact selfAnd | intro _

theorem keeps_crCmd {sK : State} (s : State) (d : Dev) (op : CrOp) (ref : Fin 8) (hK : sK.Keeps s) : sK.Keeps (State.crCmd s d op ref) := by
  unfold State.crCmd
  try dsimp only
  repeat' first | (with_reducible first | assumption | apply keeps_modCr) | split | (apply Eq.refl) | exact selfTrue | exact selfChans | exact selfAnd | intro _

theorem keeps_execCrForce {sK : State} (d : Dev) (ref : Fin 8) (s : State) (hK : sK.Keeps s) : ResKeeps sK (execCrForce d ref s) := by
  unfold execCrForce
  try dsimp only
  repeat' first | (with_reducible first | assumption | apply keeps_crCmd | apply resKeeps_next) | split | (apply Eq.refl) | exact selfTrue | exact selfChans | exact selfAnd | intro _

theorem keeps_execCrManual {sK : State} (d : Dev) (ref : Fin 8) (s : State) (hK : sK.Keeps s) : ResKeeps sK (execCrManual d ref s) := by
  unfold execCrManual
  try dsimp only
  repeat' first | (with_reducible first | assumption | apply keeps_crCmd | apply resKeeps_next) | split | (apply Eq.refl) | exact selfTrue | exact selfChans | exact selfAnd | intro _

theorem keeps_execCrClear {sK : State} (d : Dev) (s : State) (hK : sK.Keeps s) : ResKeeps sK (execCrClear d s) := by
  unfold execCrClear
  try dsimp only
  repeat' first | (with_reducible first | assumption | apply keeps_crCmd | apply resKeeps_next) | split | (apply Eq.refl) | exact selfTrue | exact selfChans | exact selfAnd | intro _

theorem keeps_execCrLockout {sK : State} (d : Dev) (ref : Fin 8) (s : State) (hK : sK.Keeps s) : ResKeeps sK (execCrLockout d ref s) := by
  unfold execCrLockout
  try dsimp only
  repeat' first | (with_reducible first | assumption | apply keeps_crCmd | apply resKeeps_next) | split | (apply Eq.refl) | exact selfTrue | exact selfChans | exact selfAnd | intro _

theorem keeps_execCrUnlock {sK : State} (d : Dev) (ref : Fin 8) (s : State) (hK : sK.Keeps s) : ResKeeps sK (execCrUnlock d ref s) := by
  unfold execCrUnlock
  try dsimp only
  repeat' first | (with_reducible first | assumption | apply keeps_crCmd | apply resKeeps_next) | split | (apply Eq.refl) | exact selfTrue | exact selfChans | exact selfAnd | intro _

theorem keeps_execCrWtrClear {sK : State} (d : Dev) (ref : Fin 8) (s : State) (hK : sK.Keeps s) : ResKeeps sK (execCrWtrClear d ref s) := by
  unfold execCrWtrClear
  try dsimp only
  repeat' first | (with_reducible first | assumption | apply keeps_crCmd | apply resKeeps_next) | split | (apply Eq.refl) | exact selfTrue | exact selfChans | exact selfAnd | intro _

theorem keeps_goTo {sK : State} (s : State) (d : Dev) (r : Nat) (hK : sK.Keeps s) : sK.Keeps (State.goTo s d r) := by
  unfold State.goTo
  try dsimp only
  repeat' first | (with_reducible first | assumption | apply keeps_acquireOn | apply keeps_leaveHoldover | apply keeps_rootTrack | apply keeps_startAcquire | apply keeps_switchRef | apply keeps_track) | split | (apply Eq.refl) | exact selfTrue | exact selfChans | exact selfAnd | intro _

theorem keeps_crApply {sK : State} (s : State) (d : Dev) (op : CrOp) (r : Nat) (hK : sK.Keeps s) : sK.Keeps (State.crApply s d op r) := by
  unfold State.crApply
  try dsimp only
  repeat' first | (with_reducible first | assumption | apply keeps_crSelect | apply keeps_evalRef | apply keeps_goTo | apply keeps_modCr | apply keeps_modRef) | split | (apply Eq.refl) | exact selfTrue | exact selfChans | exact selfAnd | intro _

theorem keeps_execCrCmdApply {sK : State} (d : Dev) (s : State) (hK : sK.Keeps s) : ResKeeps sK (execCrCmdApply d s) := by
  unfold execCrCmdApply
  try dsimp only
  repeat' first | (with_reducible first | assumption | apply keeps_crApply | apply keeps_due | apply keeps_evalRefs | apply keeps_modCr | apply resKeeps_next | (apply keepsN_due; case' he => assumption)) | split | (apply Eq.refl) | exact selfTrue | exact selfChans | exact selfAnd | intro _

theorem keeps_cvStep {sK : State} (s : State) (d : Dev) (hK : sK.Keeps s) : sK.Keeps (State.cvStep s d) := by
  unfold State.cvStep
  try dsimp only
  repeat' first | (with_reducible first | assumption | apply keeps_fresh | apply keeps_modCr | (apply keepsE_fresh; case' he => assumption)) | exact keeps_fresh hK | split | (apply Eq.refl) | exact selfTrue | exact selfChans | exact selfAnd | intro _

theorem keeps_execCvUpdate {sK : State} (d : Dev) (s : State) (hK : sK.Keeps s) : ResKeeps sK (execCvUpdate d s) := by
  unfold execCvUpdate
  try dsimp only
  repeat' first | (with_reducible first | assumption | apply keeps_cvStep | apply keeps_due | apply resKeeps_next | (apply keepsN_due; case' he => assumption)) | split | (apply Eq.refl) | exact selfTrue | exact selfChans | exact selfAnd | intro _

theorem keeps_execCvBlockAverage {sK : State} (d : Dev) (s : State) (hK : sK.Keeps s) : ResKeeps sK (execCvBlockAverage d s) := by
  unfold execCvBlockAverage
  try dsimp only
  repeat' first | (with_reducible first | assumption | apply keeps_due | apply keeps_modCr | apply resKeeps_next | (apply keepsN_due; case' he => assumption)) | split | (apply Eq.refl) | exact selfTrue | exact selfChans | exact selfAnd | intro _

theorem keeps_execPstepWrite {sK : State} (d : Dev) (step : Half) (s : State) (hK : sK.Keeps s) : ResKeeps sK (execPstepWrite d step s) := by
  unfold execPstepWrite
  try dsimp only
  repeat' first | (with_reducible first | assumption | apply keeps_modCr | apply resKeeps_next) | split | (apply Eq.refl) | exact selfTrue | exact selfChans | exact selfAnd | intro _

theorem keeps_execBwForce {sK : State} (d : Dev) (en : Bool) (code : BitVec 3) (s : State) (hK : sK.Keeps s) : ResKeeps sK (execBwForce d en code s) := by
  unfold execBwForce
  try dsimp only
  repeat' first | (with_reducible first | assumption | apply keeps_setReg | apply resKeeps_next | apply resKeeps_fault) | split | (apply Eq.refl) | exact selfTrue | exact selfChans | exact selfAnd | intro _

theorem keeps_driveEdge {sK : State} (s : State) (d : Dev) (k : Fin 2) (e : Int) (hK : sK.Keeps s) : sK.Keeps (State.driveEdge s d k e) := by
  unfold State.driveEdge
  try dsimp only
  repeat' first | (with_reducible first | assumption | apply keeps_emit | apply keeps_modPulse) | split | (apply Eq.refl) | exact selfTrue | exact selfChans | exact selfAnd | intro _

theorem keeps_withholdEdge {sK : State} (s : State) (d : Dev) (k : Fin 2) (e : Int) (mute : Nat) (hK : sK.Keeps s) : sK.Keeps (State.withholdEdge s d k e mute) := by
  unfold State.withholdEdge
  try dsimp only
  repeat' first | (with_reducible first | assumption | apply keeps_modPulse) | split | (apply Eq.refl) | exact selfTrue | exact selfChans | exact selfAnd | intro _

theorem keeps_driveInactive {sK : State} (s : State) (d : Dev) (k : Fin 2) (e : Int) (hK : sK.Keeps s) : sK.Keeps (State.driveInactive s d k e) := by
  unfold State.driveInactive
  try dsimp only
  repeat' first | (with_reducible first | assumption | apply keeps_emit | apply keeps_modPulse) | split | (apply Eq.refl) | exact selfTrue | exact selfChans | exact selfAnd | intro _

theorem keeps_alignEdge {sK : State} (s : State) (d : Dev) (k : Fin 2) (target : Int) (hK : sK.Keeps s) : sK.Keeps (State.alignEdge s d k target) := by
  unfold State.alignEdge
  try dsimp only
  repeat' first | (with_reducible first | assumption | apply keeps_driveEdge | apply keeps_modPulse | apply keeps_withholdEdge) | split | (apply Eq.refl) | exact selfTrue | exact selfChans | exact selfAnd | intro _

theorem keeps_activeEdge {sK : State} (s : State) (d : Dev) (k : Fin 2) (hK : sK.Keeps s) : sK.Keeps (State.activeEdge s d k) := by
  unfold State.activeEdge
  try dsimp only
  repeat' first | (with_reducible first | assumption | apply keeps_alignEdge | apply keeps_driveEdge) | split | (apply Eq.refl) | exact selfTrue | exact selfChans | exact selfAnd | intro _

theorem keeps_execPulseEdgeOut {sK : State} (d : Dev) (k : Fin 2) (s : State) (hK : sK.Keeps s) : ResKeeps sK (execPulseEdgeOut d k s) := by
  unfold execPulseEdgeOut
  try dsimp only
  repeat' first | (with_reducible first | assumption | apply keeps_activeEdge | apply keeps_driveInactive | apply resKeeps_next | apply resKeeps_fault) | split | (apply Eq.refl) | exact selfTrue | exact selfChans | exact selfAnd | intro _

theorem keeps_execAlignEdgeMissing {sK : State} (d : Dev) (k : Fin 2) (s : State) (hK : sK.Keeps s) : ResKeeps sK (execAlignEdgeMissing d k s) := by
  unfold execAlignEdgeMissing
  try dsimp only
  repeat' first | (with_reducible first | assumption | apply keeps_due | apply keeps_modPulse | apply resKeeps_next | (apply keepsN_due; case' he => assumption)) | split | (apply Eq.refl) | exact selfTrue | exact selfChans | exact selfAnd | intro _

theorem keeps_modGen {sK : State} (s : State) (port : Nat) (gen : Bool) (f : Generation → Generation) (hK : sK.Keeps s) :
    sK.Keeps (State.modGen s port gen f) :=
  keeps_modJup _ hK fun h => ⟨Table.wf_tset _ _ _ _ h.1, h.2⟩

theorem keeps_takeGroup {sK : State} (s : State) (d : Dev) (ws : List Word) (hK : sK.Keeps s) : sK.Keeps (State.takeGroup s d ws) := by
  unfold State.takeGroup
  try dsimp only
  repeat' first | (with_reducible first | assumption | apply keeps_consume) | split | (apply Eq.refl) | exact selfTrue | exact selfChans | exact selfAnd | intro _

theorem keeps_openGroup {sK : State} (s : State) (d : Dev) (h : Half) (members : List Target) (serves : Option (BitVec 8 × BitVec 15 × List Word)) (hK : sK.Keeps s) : sK.Keeps (State.openGroup s d h members serves) := by
  unfold State.openGroup
  try dsimp only
  repeat' first | (with_reducible first | assumption | apply keeps_modCom) | split | (apply Eq.refl) | exact selfTrue | exact selfChans | exact selfAnd | intro _

theorem keeps_begin1 {sK : State} (s : State) (d : Dev) (hd : Half) (members : List Target) (hK : sK.Keeps s) : sK.Keeps (State.begin1 s d hd members) := by
  unfold State.begin1
  try dsimp only
  repeat' first | (with_reducible first | assumption | apply keeps_openGroup | apply keeps_post) | split | (apply Eq.refl) | exact selfTrue | exact selfChans | exact selfAnd | intro _

theorem keeps_execCgBegin {sK : State} (d : Dev) (h : Hdr) (members : List Target) (s : State) (hK : sK.Keeps s) : ResKeeps sK (execCgBegin d h members s) := by
  unfold execCgBegin
  try dsimp only
  repeat' first | (with_reducible first | assumption | apply keeps_begin1 | apply keeps_withHandle | apply resKeeps_next) | split | (apply Eq.refl) | exact selfTrue | exact selfChans | exact selfAnd | intro _

theorem keepsN_execCgBegin {sK : State} (d : Dev) (h : Hdr) (members : List Target) (s : State)  {t' : State} (he : (execCgBegin d h members s) = .next t') (hK : sK.Keeps s) : sK.Keeps t' := keeps_execCgBegin d h members s  hK t' he

theorem keeps_holdStage {sK : State} (s : State) (d : Dev) (h : Half) (ordinal : BitVec 16) (job : Option (BitVec 15)) (ws : List StagedWrite) (member : Bool) (ports : List Nat) (hK : sK.Keeps s) : sK.Keeps (State.holdStage s d h ordinal job ws member ports) := by
  unfold State.holdStage
  try dsimp only
  repeat' first | (with_reducible first | assumption | apply keeps_emit | apply keeps_modCom | apply keeps_modGroup | apply keeps_foldl) | split | (apply Eq.refl) | exact selfTrue | exact selfChans | exact selfAnd | intro _

theorem keeps_withWrites {sK : State} (s : State) (ws : List StagedWrite) (hK : sK.Keeps s) : sK.Keeps (State.withWrites s ws) := by
  unfold State.withWrites
  try dsimp only
  repeat' first | (with_reducible first | assumption | apply keeps_setReg | apply keeps_foldl) | split | (apply Eq.refl) | exact selfTrue | exact selfChans | exact selfAnd | intro _

theorem keeps_stageHere {sK : State} (s : State) (d : Dev) (words : List Word) (from_ : Nat) (hK : sK.Keeps s) : sK.Keeps (State.stageHere s d words from_) := by
  unfold State.stageHere
  try dsimp only
  repeat' first | (with_reducible first | assumption | apply keeps_holdStage | apply keeps_modGroup | apply keeps_sendAll) | split | (apply Eq.refl) | exact selfTrue | exact selfChans | exact selfAnd | intro _

theorem keeps_stagePart {sK : State} (s : State) (d : Dev) (h : Half) (t : Target) (ws : List StagedWrite) (hK : sK.Keeps s) : sK.Keeps (State.stagePart s d h t ws) := by
  unfold State.stagePart
  try dsimp only
  repeat' first | (with_reducible first | assumption | apply keeps_modCoord | apply keeps_sendAll | apply keeps_stageHere) | split | (apply Eq.refl) | exact selfTrue | exact selfChans | exact selfAnd | intro _

theorem keeps_stageOut {sK : State} (s : State) (d : Dev) (h : Half) (t : Target) (ws : List StagedWrite) (hK : sK.Keeps s) : sK.Keeps (State.stageOut s d h t ws) := by
  unfold State.stageOut
  try dsimp only
  repeat' first | (with_reducible first | assumption | apply keeps_stagePart | apply keeps_foldl) | split | (apply Eq.refl) | exact selfTrue | exact selfChans | exact selfAnd | intro _

theorem keeps_shortCmd {sK : State} (s : State) (d : Dev) (h : Hdr) (refusal : BitVec 4) (f : State → State) (h_f : ∀ x0, sK.Keeps x0 → sK.Keeps (f x0)) (hK : sK.Keeps s) : sK.Keeps (State.shortCmd s d h refusal f) := by
  unfold State.shortCmd
  try dsimp only
  repeat' first | (with_reducible first | assumption | apply keeps_accepted | apply keeps_denied | apply keeps_refuse) | apply h_f | split | (apply Eq.refl) | exact selfTrue | exact selfChans | exact selfAnd | intro _

theorem keeps_execCgStage {sK : State} (d : Dev) (h : Hdr) (handle : Half) (target : Target) (writes : List StagedWrite) (s : State) (hK : sK.Keeps s) : ResKeeps sK (execCgStage d h handle target writes s) := by
  unfold execCgStage
  try dsimp only
  repeat' first | (with_reducible first | assumption | apply keeps_shortCmd | apply keeps_stageOut | apply resKeeps_next) | split | (apply Eq.refl) | exact selfTrue | exact selfChans | exact selfAnd | intro _

theorem keepsN_execCgStage {sK : State} (d : Dev) (h : Hdr) (handle : Half) (target : Target) (writes : List StagedWrite) (s : State)  {t' : State} (he : (execCgStage d h handle target writes s) = .next t') (hK : sK.Keeps s) : sK.Keeps t' := keeps_execCgStage d h handle target writes s  hK t' he

theorem keeps_execCgStageMsg {sK : State} (d : Dev) (words : List Word) (s : State) (hK : sK.Keeps s) : ResKeeps sK (execCgStageMsg d words s) := by
  unfold execCgStageMsg
  try dsimp only
  repeat' first | (with_reducible first | assumption | apply keeps_stageHere | apply keeps_stepIn | apply keeps_takeGroup | (apply keepsN_stepIn; case' he => assumption)) | split | (apply Eq.refl) | exact selfTrue | exact selfChans | exact selfAnd | intro _

theorem keeps_sendAggregate {sK : State} (s : State) (h : Half) (hK : sK.Keeps s) : sK.Keeps (State.sendAggregate s h) := by
  unfold State.sendAggregate
  try dsimp only
  repeat' first | (with_reducible first | assumption | apply keeps_answered | apply keeps_denied | apply keeps_modGroup | apply keeps_sendAll) | split | (apply Eq.refl) | exact selfTrue | exact selfChans | exact selfAnd | intro _

theorem keeps_prepareHere {sK : State} (s : State) (d : Dev) (h : Half) (tc : Tick) (ready : BitVec 2) (hK : sK.Keeps s) : sK.Keeps (State.prepareHere s d h tc ready) := by
  unfold State.prepareHere
  try dsimp only
  repeat' first | (with_reducible first | assumption | apply keeps_modGroup | apply keeps_sendAggregate | apply keeps_sendAll) | split | (apply Eq.refl) | exact selfTrue | exact selfChans | exact selfAnd | intro _

theorem keeps_execCgPrepareMsg {sK : State} (d : Dev) (words : List Word) (routersReady : BitVec 2) (s : State) (hK : sK.Keeps s) : ResKeeps sK (execCgPrepareMsg d words routersReady s) := by
  unfold execCgPrepareMsg
  try dsimp only
  repeat' first | (with_reducible first | assumption | apply keeps_prepareHere | apply keeps_stepIn | apply keeps_takeGroup | (apply keepsN_stepIn; case' he => assumption)) | split | (apply Eq.refl) | exact selfTrue | exact selfChans | exact selfAnd | intro _

theorem keeps_heardFrom {sK : State} (s : State) (h : Half) (p n : Nat) (refusal : Option (BitVec 8 × BitVec 32)) (hK : sK.Keeps s) : sK.Keeps (State.heardFrom s h p n refusal) := by
  unfold State.heardFrom
  try dsimp only
  repeat' first | (with_reducible first | assumption | apply keeps_modGroup | apply keeps_sendAggregate) | split | (apply Eq.refl) | exact selfTrue | exact selfChans | exact selfAnd | intro _

theorem keeps_answerHere {sK : State} (s : State) (link : Nat) (words : List Word) (hK : sK.Keeps s) : sK.Keeps (State.answerHere s link words) := by
  unfold State.answerHere
  try dsimp only
  repeat' first | (with_reducible first | assumption | apply keeps_heardFrom | apply keeps_modCoord | apply keeps_send | apply keeps_sendAll) | split | (apply Eq.refl) | exact selfTrue | exact selfChans | exact selfAnd | intro _

theorem keeps_execCgAnswerMsg {sK : State} (d : Dev) (link : Nat) (words : List Word) (s : State) (hK : sK.Keeps s) : ResKeeps sK (execCgAnswerMsg d link words s) := by
  unfold execCgAnswerMsg
  try dsimp only
  repeat' first | (with_reducible first | assumption | apply keeps_answerHere | apply keeps_consume | apply resKeeps_next) | split | (apply Eq.refl) | exact selfTrue | exact selfChans | exact selfAnd | intro _

theorem keeps_stageRest {sK : State} (s : State) (d : Dev) (h : Half) (hK : sK.Keeps s) : sK.Keeps (State.stageRest s d h) := by
  unfold State.stageRest
  try dsimp only
  repeat' first | (with_reducible first | assumption | apply keeps_stageOut | apply keeps_foldl) | split | (apply Eq.refl) | exact selfTrue | exact selfChans | exact selfAnd | intro _

theorem keeps_releasePrepare {sK : State} (s : State) (d : Dev) (h : Half) (tick : Tick) (hK : sK.Keeps s) : sK.Keeps (State.releasePrepare s d h tick) := by
  unfold State.releasePrepare
  try dsimp only
  repeat' first | (with_reducible first | assumption | apply keeps_fresh | apply keeps_modCoord | apply keeps_prepareHere | apply keeps_sendAll | apply keeps_stageRest | (apply keepsE_fresh; case' he => assumption)) | exact keeps_fresh hK | split | (apply Eq.refl) | exact selfTrue | exact selfChans | exact selfAnd | intro _

theorem keeps_commitAsked {sK : State} (s : State) (d : Dev) (h : Half) (tick : Tick) (hK : sK.Keeps s) : sK.Keeps (State.commitAsked s d h tick) := by
  unfold State.commitAsked
  try dsimp only
  repeat' first | (with_reducible first | assumption | apply keeps_abortCoord | apply keeps_releasePrepare) | split | (apply Eq.refl) | exact selfTrue | exact selfChans | exact selfAnd | intro _

theorem keeps_execCgCommit {sK : State} (d : Dev) (h : Hdr) (handle : Half) (tick : Tick) (s : State) (hK : sK.Keeps s) : ResKeeps sK (execCgCommit d h handle tick s) := by
  unfold execCgCommit
  try dsimp only
  repeat' first | (with_reducible first | assumption | apply keeps_commitAsked | apply keeps_shortCmd | apply resKeeps_next) | split | (apply Eq.refl) | exact selfTrue | exact selfChans | exact selfAnd | intro _

theorem keepsN_execCgCommit {sK : State} (d : Dev) (h : Hdr) (handle : Half) (tick : Tick) (s : State)  {t' : State} (he : (execCgCommit d h handle tick s) = .next t') (hK : sK.Keeps s) : sK.Keeps t' := keeps_execCgCommit d h handle tick s  hK t' he

theorem keeps_execCgAbort {sK : State} (d : Dev) (h : Hdr) (handle : Half) (s : State) (hK : sK.Keeps s) : ResKeeps sK (execCgAbort d h handle s) := by
  unfold execCgAbort
  try dsimp only
  repeat' first | (with_reducible first | assumption | apply keeps_abortCoord | apply keeps_shortCmd | apply resKeeps_next) | split | (apply Eq.refl) | exact selfTrue | exact selfChans | exact selfAnd | intro _

theorem keepsN_execCgAbort {sK : State} (d : Dev) (h : Hdr) (handle : Half) (s : State)  {t' : State} (he : (execCgAbort d h handle s) = .next t') (hK : sK.Keeps s) : sK.Keeps t' := keeps_execCgAbort d h handle s  hK t' he

theorem keeps_fencesPast {sK : State} (s : State) (g : MemberGroup) (tc : Tick) (hK : sK.Keeps s) : sK.Keeps (State.fencesPast s g tc) := by
  unfold State.fencesPast
  try dsimp only
  repeat' first | (with_reducible first | assumption | apply keeps_modLink | apply keeps_sendAll | apply keeps_tick | apply keeps_foldl) | split | (apply Eq.refl) | exact selfTrue | exact selfChans | exact selfAnd | intro _

theorem keeps_passCommit {sK : State} (s : State) (h : Half) (from_ : Nat) (words : List Word) (hK : sK.Keeps s) : sK.Keeps (State.passCommit s h from_ words) := by
  unfold State.passCommit
  try dsimp only
  repeat' first | (with_reducible first | assumption | apply keeps_fencesPast | apply keeps_finishDelivery | apply keeps_modCom | apply keeps_modGroup | apply keeps_sendAll) | split | (apply Eq.refl) | exact selfTrue | exact selfChans | exact selfAnd | intro _

theorem keeps_commitOut {sK : State} (s : State) (d : Dev) (h : Half) (hK : sK.Keeps s) : sK.Keeps (State.commitOut s d h) := by
  unfold State.commitOut
  try dsimp only
  repeat' first | (with_reducible first | assumption | apply keeps_modCoord | apply keeps_modGroup | apply keeps_passCommit | apply keeps_sendAll) | split | (apply Eq.refl) | exact selfTrue | exact selfChans | exact selfAnd | intro _

theorem keeps_atPrepareDeadline {sK : State} (s : State) (d : Dev) (h : Half) (hK : sK.Keeps s) : sK.Keeps (State.atPrepareDeadline s d h) := by
  unfold State.atPrepareDeadline
  try dsimp only
  repeat' first | (with_reducible first | assumption | apply keeps_abortCoord | apply keeps_commitOut | apply keeps_modCoord) | split | (apply Eq.refl) | exact selfTrue | exact selfChans | exact selfAnd | intro _

theorem keeps_execCgPrepareDeadline {sK : State} (d : Dev) (handle : Half) (s : State) (hK : sK.Keeps s) : ResKeeps sK (execCgPrepareDeadline d handle s) := by
  unfold execCgPrepareDeadline
  try dsimp only
  repeat' first | (with_reducible first | assumption | apply keeps_atPrepareDeadline | apply keeps_releasePrepare | apply resKeeps_next) | split | (apply Eq.refl) | exact selfTrue | exact selfChans | exact selfAnd | intro _

theorem keeps_commitLate {sK : State} (s : State) (h : Half) (hK : sK.Keeps s) : sK.Keeps (State.commitLate s h) := by
  unfold State.commitLate
  try dsimp only
  repeat' first | (with_reducible first | assumption | apply keeps_discardGroup | apply keeps_raiseChan | apply keeps_wantHold | apply keeps_foldl) | split | (apply Eq.refl) | exact selfTrue | exact selfChans | exact selfAnd | intro _

theorem keeps_commitHere {sK : State} (s : State) (d : Dev) (words : List Word) (from_ : Nat) (hK : sK.Keeps s) : sK.Keeps (State.commitHere s d words from_) := by
  unfold State.commitHere
  try dsimp only
  repeat' first | (with_reducible first | assumption | apply keeps_commitLate | apply keeps_modGroup | apply keeps_passCommit) | split | (apply Eq.refl) | exact selfTrue | exact selfChans | exact selfAnd | intro _

theorem keeps_execCgCommitMsg {sK : State} (d : Dev) (words : List Word) (s : State) (hK : sK.Keeps s) : ResKeeps sK (execCgCommitMsg d words s) := by
  unfold execCgCommitMsg
  try dsimp only
  repeat' first | (with_reducible first | assumption | apply keeps_commitHere | apply keeps_stepIn | apply keeps_takeGroup | (apply keepsN_stepIn; case' he => assumption)) | split | (apply Eq.refl) | exact selfTrue | exact selfChans | exact selfAnd | intro _

theorem keeps_abortHere {sK : State} (s : State) (d : Dev) (words : List Word) (hK : sK.Keeps s) : sK.Keeps (State.abortHere s d words) := by
  unfold State.abortHere
  try dsimp only
  repeat' first | (with_reducible first | assumption | apply keeps_discardGroup | apply keeps_sendAll) | split | (apply Eq.refl) | exact selfTrue | exact selfChans | exact selfAnd | intro _

theorem keeps_execCgAbortMsg {sK : State} (d : Dev) (words : List Word) (s : State) (hK : sK.Keeps s) : ResKeeps sK (execCgAbortMsg d words s) := by
  unfold execCgAbortMsg
  try dsimp only
  repeat' first | (with_reducible first | assumption | apply keeps_abortHere | apply keeps_stepIn | apply keeps_takeGroup | (apply keepsN_stepIn; case' he => assumption)) | split | (apply Eq.refl) | exact selfTrue | exact selfChans | exact selfAnd | intro _

theorem keeps_selfHandle {sK : State} (s : State) (op : BitVec 8) (job : Option (BitVec 15)) (hK : sK.Keeps s) : sK.Keeps (State.selfHandle s op job).1 := by
  unfold State.selfHandle
  try dsimp only
  repeat' first | (with_reducible first | assumption | apply keeps_accept | apply keeps_modCmds | (apply keepsE_accept; case' he => assumption)) | split | (apply Eq.refl) | exact selfTrue | exact selfChans | exact selfAnd | intro _

theorem keepsE_selfHandle {sK : State} (s : State) (op : BitVec 8) (job : Option (BitVec 15))  {t' : State} {y' : Option Half} (he : (State.selfHandle s op job) = (t', y')) (hK : sK.Keeps s) : sK.Keeps t' := by have := keeps_selfHandle s op job  hK; rw [he] at this; exact this

theorem keeps_runGroup {sK : State} (s : State) (h : Half) (members : List Target) (serves : Option (BitVec 8 × BitVec 15 × List Word)) (stages : List (Target × List StagedWrite)) (hK : sK.Keeps s) : sK.Keeps (State.runGroup s h members serves stages) := by
  unfold State.runGroup
  try dsimp only
  repeat' first | (with_reducible first | assumption | apply keeps_openGroup | apply keeps_releasePrepare | apply keeps_stageOut | apply keeps_foldl) | split | (apply Eq.refl) | exact selfTrue | exact selfChans | exact selfAnd | intro _

theorem keeps_fenceRanks {sK : State} (s : State) (p : Nat) (esc : Nat) (jobs : List (BitVec 15)) (tick : Tick) (hK : sK.Keeps s) : sK.Keeps (State.fenceRanks s p esc jobs tick) := by
  unfold State.fenceRanks
  try dsimp only
  repeat' first | (with_reducible first | assumption | apply keeps_fencePort | apply keeps_foldl) | split | (apply Eq.refl) | exact selfTrue | exact selfChans | exact selfAnd | intro _

theorem keeps_watchPort {sK : State} (s : State) (p : Nat) (hK : sK.Keeps s) : sK.Keeps (State.watchPort s p) := by
  unfold State.watchPort
  try dsimp only
  repeat' first | (with_reducible first | assumption | apply keeps_runGroup | apply keeps_selfHandle | (apply keepsE_selfHandle; case' he => assumption)) | split | (apply Eq.refl) | exact selfTrue | exact selfChans | exact selfAnd | intro _

theorem keeps_deferExpel {sK : State} (s : State) (p esc : Nat) (hK : sK.Keeps s) : sK.Keeps (State.deferExpel s p esc) := by
  unfold State.deferExpel
  try dsimp only
  repeat' first | (with_reducible first | assumption | apply keeps_modBlock | apply keeps_modJup | apply keeps_raisePort | apply keeps_report | apply keeps_watchPort) | split | (apply Eq.refl) | exact selfTrue | exact selfChans | exact selfAnd | intro _

theorem keeps_escalateDie {sK : State} (s : State) (p esc : Nat) (hard : Bool) (jobs : List (BitVec 15)) (hK : sK.Keeps s) : sK.Keeps (State.escalateDie s p esc hard jobs) := by
  unfold State.escalateDie
  try dsimp only
  repeat' first | (with_reducible first | assumption | apply keeps_deferExpel | apply keeps_fenceRanks | apply keeps_modJup) | split | (apply Eq.refl) | exact selfTrue | exact selfChans | exact selfAnd | intro _

theorem keeps_carryOut {sK : State} (s : State) (p esc : Nat) (hK : sK.Keeps s) : sK.Keeps (State.carryOut s p esc) := by
  unfold State.carryOut
  try dsimp only
  repeat' first | (with_reducible first | assumption | apply keeps_fenceRanks | apply keeps_modJup | apply keeps_setReg) | split | (apply Eq.refl) | exact selfTrue | exact selfChans | exact selfAnd | intro _

theorem keeps_execDeferredExpulsion {sK : State} (s : State) (hK : sK.Keeps s) : ResKeeps sK (execDeferredExpulsion s) := by
  unfold execDeferredExpulsion
  try dsimp only
  repeat' first | (with_reducible first | assumption | apply keeps_carryOut | apply resKeeps_next) | split | (apply Eq.refl) | exact selfTrue | exact selfChans | exact selfAnd | intro _

theorem keeps_execGradingWindowClose {sK : State} (d : Dev) (b : Nat) (code : BitVec 16) (s : State) (hK : sK.Keeps s) : ResKeeps sK (execGradingWindowClose d b code s) := by
  unfold execGradingWindowClose
  try dsimp only
  repeat' first | (with_reducible first | assumption | apply keeps_due | apply keeps_modBlock | apply resKeeps_next | (apply keepsN_due; case' he => assumption)) | split | (apply Eq.refl) | exact selfTrue | exact selfChans | exact selfAnd | intro _

theorem keeps_holdFor {sK : State} (s : State) (b : Nat) (ctx : Word) (hK : sK.Keeps s) : sK.Keeps (State.holdFor s b ctx) := by
  unfold State.holdFor
  try dsimp only
  repeat' first | (with_reducible first | assumption | apply keeps_modChan | apply keeps_wantHold | apply keeps_foldl) | split | (apply Eq.refl) | exact selfTrue | exact selfChans | exact selfAnd | intro _

theorem keeps_holdDie {sK : State} (s : State) (p : Nat) (hK : sK.Keeps s) : sK.Keeps (State.holdDie s p) := by
  unfold State.holdDie
  try dsimp only
  repeat' first | (with_reducible first | assumption | apply keeps_runGroup | apply keeps_selfHandle | (apply keepsE_selfHandle; case' he => assumption)) | split | (apply Eq.refl) | exact selfTrue | exact selfChans | exact selfAnd | intro _

theorem keeps_portEscalate {sK : State} (s : State) (p esc : Nat) (hard : Bool) (hK : sK.Keeps s) : sK.Keeps (State.portEscalate s p esc hard) := by
  unfold State.portEscalate
  try dsimp only
  repeat' first | (with_reducible first | assumption | apply keeps_escalateDie | apply keeps_holdDie | apply keeps_linkToDown | apply keeps_modBlock | apply keeps_modCtl) | split | (apply Eq.refl) | exact selfTrue | exact selfChans | exact selfAnd | intro _

theorem keeps_graceEnd {sK : State} (s : State) (d : Dev) (b : Nat) (hK : sK.Keeps s) : sK.Keeps (State.graceEnd s d b) := by
  unfold State.graceEnd
  try dsimp only
  repeat' first | (with_reducible first | assumption | apply keeps_holdFor | apply keeps_modBlock | apply keeps_portEscalate | apply keeps_report) | split | (apply Eq.refl) | exact selfTrue | exact selfChans | exact selfAnd | intro _

theorem keeps_execGraceExpiry {sK : State} (d : Dev) (b : Nat) (s : State) (hK : sK.Keeps s) : ResKeeps sK (execGraceExpiry d b s) := by
  unfold execGraceExpiry
  try dsimp only
  repeat' first | (with_reducible first | assumption | apply keeps_due | apply keeps_graceEnd | apply resKeeps_next | (apply keepsN_due; case' he => assumption)) | split | (apply Eq.refl) | exact selfTrue | exact selfChans | exact selfAnd | intro _

theorem keeps_tripRelease {sK : State} (s : State) (hK : sK.Keeps s) : sK.Keeps (State.tripRelease s) := by
  unfold State.tripRelease
  try dsimp only
  repeat' first | (with_reducible first | assumption | apply keeps_emit | apply keeps_modCtl | apply keeps_modJup | apply keeps_foldl) | split | (apply Eq.refl) | exact selfTrue | exact selfChans | exact selfAnd | intro _

theorem keeps_clearFault {sK : State} (s : State) (d : Dev) (b : Nat) (hK : sK.Keeps s) : sK.Keeps (State.clearFault s d b) := by
  unfold State.clearFault
  try dsimp only
  repeat' first | (with_reducible first | assumption | apply keeps_modBlock | apply keeps_report | apply keeps_tripRelease) | split | (apply Eq.refl) | exact selfTrue | exact selfChans | exact selfAnd | intro _

theorem keeps_execFaultClear {sK : State} (d : Dev) (b : Nat) (s : State) (hK : sK.Keeps s) : ResKeeps sK (execFaultClear d b s) := by
  unfold execFaultClear
  try dsimp only
  repeat' first | (with_reducible first | assumption | apply keeps_clearFault | apply resKeeps_next) | split | (apply Eq.refl) | exact selfTrue | exact selfChans | exact selfAnd | intro _

theorem keeps_unbar {sK : State} (s : State) (b : Nat) (hK : sK.Keeps s) : sK.Keeps (State.unbar s b) := by
  unfold State.unbar
  try dsimp only
  repeat' first | (with_reducible first | assumption | apply keeps_modChan | apply keeps_foldl) | split | (apply Eq.refl) | exact selfTrue | exact selfChans | exact selfAnd | intro _

theorem keeps_clearSevere {sK : State} (s0 : State) (d : Dev) (b : Nat) (hK : sK.Keeps s0) : sK.Keeps (State.clearSevere s0 d b) := by
  unfold State.clearSevere
  try dsimp only
  repeat' first | (with_reducible first | assumption | apply keeps_graceEnd | apply keeps_modBlock | apply keeps_modCtl | apply keeps_report | apply keeps_unbar) | split | (apply Eq.refl) | exact selfTrue | exact selfChans | exact selfAnd | intro _

theorem keeps_execSevereClear {sK : State} (d : Dev) (b : Nat) (s : State) (hK : sK.Keeps s) : ResKeeps sK (execSevereClear d b s) := by
  unfold execSevereClear
  try dsimp only
  repeat' first | (with_reducible first | assumption | apply keeps_clearSevere | apply resKeeps_next) | split | (apply Eq.refl) | exact selfTrue | exact selfChans | exact selfAnd | intro _

theorem keeps_execFltInjArm {sK : State} (table : BitVec 3) (c : Fin 8) (word : BitVec 16) (src : Src) (s : State) (hK : sK.Keeps s) : ResKeeps sK (execFltInjArm table c word src s) := by
  unfold execFltInjArm
  try dsimp only
  repeat' first | (with_reducible first | assumption | apply keeps_denied | apply keeps_modTsu | apply resKeeps_next | apply resKeeps_fault) | split | (apply Eq.refl) | exact selfTrue | exact selfChans | exact selfAnd | intro _

theorem keeps_setRepeat {sK : State} (s : State) (job : BitVec 15) (i : Nat) (hK : sK.Keeps s) : sK.Keeps (State.setRepeat s job i) := by
  unfold State.setRepeat
  try dsimp only
  repeat' first | (with_reducible first | assumption | apply keeps_setJobWord) | split | (apply Eq.refl) | exact selfTrue | exact selfChans | exact selfAnd | intro _

theorem keeps_noteRepeat {sK : State} (s : State) (code : Code) (ctx : Word) (job : BitVec 15) (hK : sK.Keeps s) : sK.Keeps (State.noteRepeat s code ctx job) := by
  unfold State.noteRepeat
  try dsimp only
  repeat' first | (with_reducible first | assumption | apply keeps_setRepeat) | split | (apply Eq.refl) | exact selfTrue | exact selfChans | exact selfAnd | intro _

theorem keeps_noteWarn {sK : State} (s : State) (p : Nat) (code : Code) (event : Nat) (hK : sK.Keeps s) : sK.Keeps (State.noteWarn s p code event) := by
  unfold State.noteWarn
  try dsimp only
  repeat' first | (with_reducible first | assumption | apply keeps_modJup) | split | (apply Eq.refl) | exact selfTrue | exact selfChans | exact selfAnd | intro _

theorem keeps_noteBrown {sK : State} (s : State) (code : Code) (job : BitVec 15) (hK : sK.Keeps s) : sK.Keeps (State.noteBrown s code job) := by
  unfold State.noteBrown
  try dsimp only
  repeat' first | (with_reducible first | assumption | apply keeps_modStage) | split | (apply Eq.refl) | exact selfTrue | exact selfChans | exact selfAnd | intro _

theorem keeps_fenceAtCommit {sK : State} (s : State) (p : Nat) (code : Code) (jobs : List (BitVec 15)) (hK : sK.Keeps s) : sK.Keeps (State.fenceAtCommit s p code jobs) := by
  unfold State.fenceAtCommit
  try dsimp only
  repeat' first | (with_reducible first | assumption | apply keeps_fresh | apply keeps_settleFence | apply keeps_foldl | (apply keepsE_fresh; case' he => assumption)) | exact keeps_fresh hK | split | (apply Eq.refl) | exact selfTrue | exact selfChans | exact selfAnd | intro _

theorem keeps_noteSev {sK : State} (s : State) (p : Nat) (ws : List Word) (hK : sK.Keeps s) : sK.Keeps (State.noteSev s p ws) := by
  unfold State.noteSev
  try dsimp only
  repeat' first | (with_reducible first | assumption | apply keeps_due | apply keeps_modJup | apply resKeeps_next | (apply keepsN_due; case' he => assumption)) | split | (apply Eq.refl) | exact selfTrue | exact selfChans | exact selfAnd | intro _

theorem keeps_reportEscalates {sK : State} (s : State) (p : Nat) (ws : List Word) (hK : sK.Keeps s) : sK.Keeps (State.reportEscalates s p ws) := by
  unfold State.reportEscalates
  try dsimp only
  repeat' first | (with_reducible first | assumption | apply keeps_escalateDie | apply keeps_fenceAtCommit) | split | (apply Eq.refl) | exact selfTrue | exact selfChans | exact selfAnd | intro _

theorem keeps_reportOnward {sK : State} (s : State) (p : Nat) (ws : List Word) (hK : sK.Keeps s) : sK.Keeps (State.reportOnward s p ws) := by
  unfold State.reportOnward
  try dsimp only
  repeat' first | (with_reducible first | assumption | apply keeps_send) | split | (apply Eq.refl) | exact selfTrue | exact selfChans | exact selfAnd | intro _

theorem keeps_faultReport {sK : State} (s : State) (port : Nat) (words : List Word) (hK : sK.Keeps s) : sK.Keeps (State.faultReport s port words) := by
  unfold State.faultReport
  try dsimp only
  repeat' first | (with_reducible first | assumption | apply keeps_consume | apply keeps_logReport | apply keeps_noteBrown | apply keeps_noteRepeat | apply keeps_noteSev | apply keeps_noteWarn | apply keeps_reportEscalates | apply keeps_reportOnward | apply resKeeps_fault) | split | (apply Eq.refl) | exact selfTrue | exact selfChans | exact selfAnd | intro _

theorem keeps_execFaultReportRx {sK : State} (port : Nat) (words : List Word) (s : State) (hK : sK.Keeps s) : ResKeeps sK (execFaultReportRx port words s) := by
  unfold execFaultReportRx
  try dsimp only
  repeat' first | (with_reducible first | assumption | apply keeps_faultReport | apply resKeeps_next | apply resKeeps_fault) | split | (apply Eq.refl) | exact selfTrue | exact selfChans | exact selfAnd | intro _

theorem keeps_execFabricStaleGen {sK : State} (c : Fin 8) (s : State) (hK : sK.Keeps s) : ResKeeps sK (execFabricStaleGen c s) := by
  unfold execFabricStaleGen
  try dsimp only
  repeat' first | (with_reducible first | assumption | apply keeps_mainIn | apply keeps_stepFault | (apply keepsN_mainIn; case' he => assumption)) | split | (apply Eq.refl) | exact selfTrue | exact selfChans | exact selfAnd | intro _

theorem keeps_setReading {sK : State} (s : State) (r : Reading) (v : Int) (hK : sK.Keeps s) : sK.Keeps (State.setReading s r v) := by
  unfold State.setReading
  try dsimp only
  repeat' first | (with_reducible first | assumption | apply keeps_modJup) | split | (apply Eq.refl) | exact selfTrue | exact selfChans | exact selfAnd | intro _

theorem keeps_noteHot {sK : State} (s : State) (trip : Bool) (r : Reading) (hK : sK.Keeps s) : sK.Keeps (State.noteHot s trip r) := by
  unfold State.noteHot
  try dsimp only
  repeat' first | (with_reducible first | assumption | apply keeps_modJup) | split | (apply Eq.refl) | exact selfTrue | exact selfChans | exact selfAnd | intro _

theorem keeps_execThermalWarn {sK : State} (r : Reading) (value : Int) (s : State) (hK : sK.Keeps s) : ResKeeps sK (execThermalWarn r value s) := by
  unfold execThermalWarn
  try dsimp only
  repeat' first | (with_reducible first | assumption | apply keeps_due | apply keeps_noteHot | apply keeps_raiseLevel | apply keeps_setReading | apply resKeeps_next | (apply keepsN_due; case' he => assumption)) | split | (apply Eq.refl) | exact selfTrue | exact selfChans | exact selfAnd | intro _

theorem keeps_tripPorts {sK : State} (s : State) (hK : sK.Keeps s) : sK.Keeps (State.tripPorts s) := by
  unfold State.tripPorts
  try dsimp only
  repeat' first | (with_reducible first | assumption | apply keeps_linkToDown | apply keeps_modCtl | apply keeps_foldl) | split | (apply Eq.refl) | exact selfTrue | exact selfChans | exact selfAnd | intro _

theorem keeps_execThermalTrip {sK : State} (r : Reading) (value : Int) (s : State) (hK : sK.Keeps s) : ResKeeps sK (execThermalTrip r value s) := by
  refine keeps_due _ _ (fun s hK => ?_) hK
  dsimp only
  have h1 := keeps_raiseLevel _ .jup (blkPower .jup) cThermalTrip {} (keeps_noteHot _ true r (keeps_setReading _ r value hK))
  split
  · exact h1
  · exact keeps_emit _ (keeps_tripPorts _ (keeps_modJup _ h1 id))

theorem keeps_execThermalClear {sK : State} (r : Reading) (trip : Bool) (s : State) (hK : sK.Keeps s) : ResKeeps sK (execThermalClear r trip s) := by
  unfold execThermalClear
  try dsimp only
  repeat' first | (with_reducible first | assumption | apply keeps_endLevel | apply keeps_modJup | apply resKeeps_next) | split | (apply Eq.refl) | exact selfTrue | exact selfChans | exact selfAnd | intro _

theorem keeps_controlTouch {sK : State} (s : State) (hK : sK.Keeps s) : sK.Keeps (State.controlTouch s) := by
  unfold State.controlTouch
  try dsimp only
  repeat' first | (with_reducible first | assumption | apply keeps_modChan | apply keeps_repeatBroken | apply keeps_foldl) | split | (apply Eq.refl) | exact selfTrue | exact selfChans | exact selfAnd | intro _

theorem keeps_rwlGuard {sK : State} (s : State) (d : Dev) (src : Src) (changes : Bool) (f : State → State) (h_f : ∀ x0, sK.Keeps x0 → sK.Keeps (f x0)) (hK : sK.Keeps s) : sK.Keeps (State.rwlGuard s d src changes f) := by
  unfold State.rwlGuard
  try dsimp only
  repeat' first | (with_reducible first | assumption | apply keeps_controlTouch | apply keeps_denied) | apply h_f | split | (apply Eq.refl) | exact selfTrue | exact selfChans | exact selfAnd | intro _

theorem keeps_fwVersionWrite {sK : State} (s : State) (v : Half) (hK : sK.Keeps s) : sK.Keeps (State.fwVersionWrite s v) := by
  unfold State.fwVersionWrite
  try dsimp only
  repeat' first | (with_reducible first | assumption | apply keeps_setReg) | split | (apply Eq.refl) | exact selfTrue | exact selfChans | exact selfAnd | intro _

theorem keeps_execFwVersionWrite {sK : State} (v : Half) (s : State) (hK : sK.Keeps s) : ResKeeps sK (execFwVersionWrite v s) := by
  unfold execFwVersionWrite
  try dsimp only
  repeat' first | (with_reducible first | assumption | apply keeps_fwVersionWrite | apply resKeeps_next) | split | (apply Eq.refl) | exact selfTrue | exact selfChans | exact selfAnd | intro _

theorem keeps_portReturn {sK : State} (s : State) (p : Nat) (hK : sK.Keeps s) : sK.Keeps (State.portReturn s p) := by
  unfold State.portReturn
  try dsimp only
  repeat' first | (with_reducible first | assumption | apply keeps_modJup | apply keeps_setHealth) | split | (apply Eq.refl) | exact selfTrue | exact selfChans | exact selfAnd | intro _

theorem keeps_execPortReturnService {sK : State} (port : BitVec 7) (s : State) (hK : sK.Keeps s) : ResKeeps sK (execPortReturnService port s) := by
  unfold execPortReturnService
  try dsimp only
  repeat' first | (with_reducible first | assumption | apply keeps_portReturn | apply resKeeps_next) | split | (apply Eq.refl) | exact selfTrue | exact selfChans | exact selfAnd | intro _

theorem keeps_logFree {sK : State} (s : State) (n : Nat) (hK : sK.Keeps s) : sK.Keeps (State.logFree s n) := by
  unfold State.logFree
  try dsimp only
  repeat' first | (with_reducible first | assumption | apply keeps_modJup) | split | (apply Eq.refl) | exact selfTrue | exact selfChans | exact selfAnd | intro _

theorem keeps_execLogFree {sK : State} (n : BitVec 13) (s : State) (hK : sK.Keeps s) : ResKeeps sK (execLogFree n s) := by
  unfold execLogFree
  try dsimp only
  repeat' first | (with_reducible first | assumption | apply keeps_logFree | apply resKeeps_next) | split | (apply Eq.refl) | exact selfTrue | exact selfChans | exact selfAnd | intro _

theorem keeps_divClear {sK : State} (s : State) (hK : sK.Keeps s) : sK.Keeps (State.divClear s) := by
  unfold State.divClear
  try dsimp only
  repeat' first | (with_reducible first | assumption | apply keeps_modStage) | split | (apply Eq.refl) | exact selfTrue | exact selfChans | exact selfAnd | intro _

theorem keeps_execDivLogClear {sK : State} (s : State) (hK : sK.Keeps s) : ResKeeps sK (execDivLogClear s) := by
  unfold execDivLogClear
  try dsimp only
  repeat' first | (with_reducible first | assumption | apply keeps_divClear | apply resKeeps_next) | split | (apply Eq.refl) | exact selfTrue | exact selfChans | exact selfAnd | intro _

theorem keeps_execInjDigestArm {sK : State} (group : BitVec 12) (src : Src) (s : State) (hK : sK.Keeps s) : ResKeeps sK (execInjDigestArm group src s) := by
  unfold execInjDigestArm
  try dsimp only
  repeat' first | (with_reducible first | assumption | apply keeps_denied | apply keeps_modGrp | apply resKeeps_next) | split | (apply Eq.refl) | exact selfTrue | exact selfChans | exact selfAnd | intro _

theorem keeps_cplFree {sK : State} (s : State) (d : Dev) (i : Nat) (hK : sK.Keeps s) : sK.Keeps (State.cplFree s d i) := by
  unfold State.cplFree
  try dsimp only
  repeat' first | (with_reducible first | assumption | apply keeps_modCmds) | (exact fun (h : _ = true) => Table.wf_tset _ _ _ _ h) | split | (apply Eq.refl) | exact selfTrue | exact selfChans | exact selfAnd | intro _

theorem keeps_execCompletionFree {sK : State} (d : Dev) (entry : BitVec 16) (s : State) (hK : sK.Keeps s) : ResKeeps sK (execCompletionFree d entry s) := by
  unfold execCompletionFree
  try dsimp only
  repeat' first | (with_reducible first | assumption | apply keeps_cplFree | apply resKeeps_next) | split | (apply Eq.refl) | exact selfTrue | exact selfChans | exact selfAnd | intro _

theorem keeps_winStep {sK : State} (s : State) (d : Dev) (src : Src) (w : Win) (i : Nat) (write : Bool) (hK : sK.Keeps s) : sK.Keeps (State.winStep s d src w i write) := by
  unfold State.winStep
  try dsimp only
  repeat' first | (with_reducible first | assumption | apply keeps_setWin) | split | (apply Eq.refl) | exact selfTrue | exact selfChans | exact selfAnd | intro _

theorem keeps_bankWritten {sK : State} (s : State) (sel : Half) (hK : sK.Keeps s) : sK.Keeps (State.bankWritten s sel) := by
  unfold State.bankWritten
  try dsimp only
  repeat' first | (with_reducible first | assumption | apply keeps_modChan) | split | (apply Eq.refl) | exact selfTrue | exact selfChans | exact selfAnd | intro _

theorem keeps_storeEph {sK : State} (s : State) (sel : Half) (ws : List Half) (hK : sK.Keeps s) : sK.Keeps (State.storeEph s sel ws) := by
  unfold State.storeEph
  try dsimp only
  repeat' first | (with_reducible first | assumption | apply keeps_bankWritten | apply keeps_modTsu | apply keeps_setReg | apply keeps_foldl) | split | (apply Eq.refl) | exact selfTrue | exact selfChans | exact selfAnd | intro _

theorem keeps_storeWidth {sK : State} (s : State) (d : Dev) (sel : Half) (v : Half) (hK : sK.Keeps s) : sK.Keeps (State.storeWidth s d sel v) := by
  unfold State.storeWidth
  try dsimp only
  repeat' first | (with_reducible first | assumption | apply keeps_modConv | apply keeps_modConvCtl) | split | (apply Eq.refl) | exact selfTrue | exact selfChans | exact selfAnd | intro _

theorem keeps_winStore {sK : State} (s : State) (d : Dev) (src : Src) (w : Win) (i : Nat) (v : Half) (hK : sK.Keeps s) : sK.Keeps (State.winStore s d src w i v) := by
  unfold State.winStore
  try dsimp only
  repeat' first | (with_reducible first | assumption | apply keeps_bankWritten | apply keeps_clearFault | apply keeps_clearSevere | apply keeps_cplFree | apply keeps_modAsym | apply keeps_modCom | apply keeps_modSec | apply keeps_rwlGuard | apply keeps_setReg | apply keeps_sramWrite | apply keeps_storeEph | apply keeps_storeWidth | apply resKeeps_fault) | split | (apply Eq.refl) | exact selfTrue | exact selfChans | exact selfAnd | intro _

theorem keeps_winPut {sK : State} (s : State) (d : Dev) (src : Src) (w : Win) (i : Nat) (v : Half) (hK : sK.Keeps s) : sK.Keeps (State.winPut s d src w i v) := by
  unfold State.winPut
  try dsimp only
  repeat' first | (with_reducible first | assumption | apply keeps_csrPut | apply keeps_winStore) | split | (apply Eq.refl) | exact selfTrue | exact selfChans | exact selfAnd | intro _

theorem keeps_winWrite {sK : State} (s : State) (d : Dev) (src : Src) (w : Win) (i : Nat) (v : Half) (hK : sK.Keeps s) : ResKeeps sK (State.winWrite s d src w i v) := by
  unfold State.winWrite
  try dsimp only
  repeat' first | (with_reducible first | assumption | apply keeps_setWin | apply keeps_winPut | apply keeps_winStep | apply resKeeps_next | apply resKeeps_fault) | split | (apply Eq.refl) | exact selfTrue | exact selfChans | exact selfAnd | intro _

theorem keepsN_winWrite {sK : State} (s : State) (d : Dev) (src : Src) (w : Win) (i : Nat) (v : Half)  {t' : State} (he : (State.winWrite s d src w i v) = .next t') (hK : sK.Keeps s) : sK.Keeps t' := keeps_winWrite s d src w i v  hK t' he

theorem keeps_winReadCheck {sK : State} (s : State) (d : Dev) (src : Src) (w : Win) (hK : sK.Keeps s) : sK.Keeps (State.winReadCheck s d src w) := by
  unfold State.winReadCheck
  try dsimp only
  repeat' first | (with_reducible first | assumption | apply keeps_sramFault) | split | (apply Eq.refl) | exact selfTrue | exact selfChans | exact selfAnd | intro _

theorem keeps_winRead {sK : State} (s : State) (d : Dev) (src : Src) (w : Win) (i : Nat) (hK : sK.Keeps s) : sK.Keeps (State.winRead s d src w i) := by
  unfold State.winRead
  try dsimp only
  repeat' first | (with_reducible first | assumption | apply keeps_modCom | apply keeps_winReadCheck | apply keeps_winStep) | split | (apply Eq.refl) | exact selfTrue | exact selfChans | exact selfAnd | intro _

theorem keeps_jtagRefused {sK : State} (s : State) (d : Dev) (hK : sK.Keeps s) : sK.Keeps (State.jtagRefused s d) := by
  unfold State.jtagRefused
  try dsimp only
  repeat' first | (with_reducible first | assumption | apply keeps_denied | apply keeps_modCom) | split | (apply Eq.refl) | exact selfTrue | exact selfChans | exact selfAnd | intro _

theorem keeps_execIndexedWindowAccess {sK : State} (d : Dev) (src : Src) (w : Win) (data : Nat) (write : Option Half) (s : State) (hK : sK.Keeps s) : ResKeeps sK (execIndexedWindowAccess d src w data write s) := by
  unfold execIndexedWindowAccess
  try dsimp only
  repeat' first | (with_reducible first | assumption | apply keeps_jtagRefused | apply keeps_modCom | apply keeps_winRead | apply keeps_winWrite | apply resKeeps_next | (apply keepsN_winWrite; case' he => assumption)) | split | (apply Eq.refl) | exact selfTrue | exact selfChans | exact selfAnd | intro _

theorem keeps_execHtcRead {sK : State} (d : Dev) (s : State) (hK : sK.Keeps s) : ResKeeps sK (execHtcRead d s) := by
  unfold execHtcRead
  try dsimp only
  repeat' first | (with_reducible first | assumption | apply keeps_modCom | apply keeps_modTime | apply resKeeps_next) | split | (apply Eq.refl) | exact selfTrue | exact selfChans | exact selfAnd | intro _

theorem keeps_execSplitReadLatch {sK : State} (d : Dev) (off : Nat) (s : State) (hK : sK.Keeps s) : ResKeeps sK (execSplitReadLatch d off s) := by
  unfold execSplitReadLatch
  try dsimp only
  repeat' first | (with_reducible first | assumption | apply keeps_modCom | apply keeps_setWin | apply resKeeps_next) | split | (apply Eq.refl) | exact selfTrue | exact selfChans | exact selfAnd | intro _

theorem keeps_regChanged {sK : State} (s : State) (d : Dev) (off : Nat) (old : Half) (hK : sK.Keeps s) : sK.Keeps (State.regChanged s d off old) := by
  unfold State.regChanged
  try dsimp only
  repeat' first | (with_reducible first | assumption | apply keeps_freshenAll | apply keeps_leave | apply keeps_modPulse) | split | (apply Eq.refl) | exact selfTrue | exact selfChans | exact selfAnd | intro _

theorem keeps_plainWrite {sK : State} (s : State) (d : Dev) (src : Src) (off : Nat) (v : Half) (r : RegRow) (hK : sK.Keeps s) : sK.Keeps (State.plainWrite s d src off v r) := by
  unfold State.plainWrite
  try dsimp only
  repeat' first | (with_reducible first | assumption | apply keeps_regChanged | apply keeps_rwlGuard | apply keeps_setReg) | split | (apply Eq.refl) | exact selfTrue | exact selfChans | exact selfAnd | intro _

theorem keeps_crCmdWrite {sK : State} (s : State) (d : Dev) (v : Half) (hK : sK.Keeps s) : sK.Keeps (State.crCmdWrite s d v) := by
  unfold State.crCmdWrite
  try dsimp only
  repeat' first | (with_reducible first | assumption | apply keeps_crCmd | apply keeps_modCr) | split | (apply Eq.refl) | exact selfTrue | exact selfChans | exact selfAnd | intro _

theorem keeps_chCtrlWrite {sK : State} (s : State) (c : Nat) (v : Half) (hK : sK.Keeps s) : sK.Keeps (State.chCtrlWrite s c v) := by
  unfold State.chCtrlWrite
  try dsimp only
  repeat' first | (with_reducible first | assumption | apply keeps_doArm | apply keeps_doBind | apply keeps_doHold | apply keeps_doResume | apply keeps_doUnbind) | split | (apply Eq.refl) | exact selfTrue | exact selfChans | exact selfAnd | intro _

theorem keeps_chanWrite {sK : State} (s : State) (src : Src) (c o : Nat) (v : Half) (hK : sK.Keeps s) : sK.Keeps (State.chanWrite s src c o v) := by
  unfold State.chanWrite
  try dsimp only
  repeat' first | (with_reducible first | assumption | apply keeps_chCtrlWrite | apply keeps_doSwap | apply keeps_modChan) | split | (apply Eq.refl) | exact selfTrue | exact selfChans | exact selfAnd | intro _

theorem keeps_runWrite {sK : State} (s : State) (src : Src) (base : Nat) (v : Half) (hK : sK.Keeps s) : sK.Keeps (State.runWrite s src base v) := by
  unfold State.runWrite
  try dsimp only
  repeat' first | (with_reducible first | assumption | apply keeps_setRun | apply keeps_foldl) | split | (apply Eq.refl) | exact selfTrue | exact selfChans | exact selfAnd | intro _

theorem keeps_syncDbgWrite {sK : State} (s : State) (src : Src) (v : Half) (hK : sK.Keeps s) : sK.Keeps (State.syncDbgWrite s src v) := by
  unfold State.syncDbgWrite
  try dsimp only
  repeat' first | (with_reducible first | assumption | apply keeps_dbgObject) | split | (apply Eq.refl) | exact selfTrue | exact selfChans | exact selfAnd | intro _

theorem keeps_dbgCtrlWrite {sK : State} (s : State) (d : Dev) (v : Half) (hK : sK.Keeps s) : sK.Keeps (State.dbgCtrlWrite s d v) := by
  have hs : ∀ (s : State) (f : Security → Security), sK.Keeps s → (∀ x, (f x).fuses = x.fuses) → sK.Keeps (s.modSec d f) :=
    fun s f h hf => keeps_modSec d f h (hf _)
  unfold State.dbgCtrlWrite
  extract_lets ch s1 s2 s3 s4
  have h1 : sK.Keeps s1 := hs _ _ hK fun _ => rfl
  have h2 : sK.Keeps s2 := by
    dsimp -zeta only [s2]; split
    · exact hs _ _ (keeps_fresh h1) fun _ => rfl
    · exact h1
  have h3 : sK.Keeps s3 := by
    dsimp -zeta only [s3]; split
    · exact hs _ _ h2 fun _ => rfl
    · exact h2
  have h4 : sK.Keeps s4 := by
    dsimp -zeta only [s4]; split
    · exact hs _ _ h3 fun _ => rfl
    · exact h3
  clear_value s1 s2 s3 s4
  split
  · exact h4
  · rename_i s5 _
    have h5 : sK.Keeps s5 := by
      dsimp -zeta only [s5]
      split
      · exact keeps_dbgAsk _ _ _ h4
      · exact h4
    clear_value s5
    split
    · exact keeps_dbgAsk _ _ _ h5
    · exact h5

theorem keeps_lnkCtrlWrite {sK : State} (s : State) (d : Dev) (src : Src) (n : Nat) (v : Half) (hK : sK.Keeps s) : sK.Keeps (State.lnkCtrlWrite s d src n v) := by
  unfold State.lnkCtrlWrite
  try dsimp only
  repeat' first | (with_reducible first | assumption | apply keeps_denied | apply keeps_linkToDown | apply keeps_modCtl) | split | (apply Eq.refl) | exact selfTrue | exact selfChans | exact selfAnd | intro _

theorem keeps_linkWrite {sK : State} (s : State) (d : Dev) (n o : Nat) (v : Half) (hK : sK.Keeps s) : sK.Keeps (State.linkWrite s d n o v) := by
  unfold State.linkWrite
  try dsimp only
  repeat' first | (with_reducible first | assumption | apply keeps_modCtl) | split | (apply Eq.refl) | exact selfTrue | exact selfChans | exact selfAnd | intro _

theorem keeps_convWrite {sK : State} (s : State) (d : Dev) (n o : Nat) (v : Half) (hK : sK.Keeps s) : sK.Keeps (State.convWrite s d n o v) := by
  unfold State.convWrite
  try dsimp only
  repeat' first | (with_reducible first | assumption | apply keeps_modConvCtl | apply keeps_vrnSwap) | split | (apply Eq.refl) | exact selfTrue | exact selfChans | exact selfAnd | intro _

theorem keeps_crWrite {sK : State} (s : State) (d : Dev) (o : Nat) (v : Half) (hK : sK.Keeps s) : sK.Keeps (State.crWrite s d o v) := by
  unfold State.crWrite
  try dsimp only
  repeat' first | (with_reducible first | assumption | apply keeps_crCmdWrite | apply keeps_modCr) | split | (apply Eq.refl) | exact selfTrue | exact selfChans | exact selfAnd | intro _

theorem keeps_rstWrite {sK : State} (s : State) (v : Half) (hK : sK.Keeps s) : sK.Keeps (State.rstWrite s v) := by
  unfold State.rstWrite
  try dsimp only
  repeat' first | (with_reducible first | assumption | apply keeps_dieReset | apply keeps_modLink | apply keeps_modPower | apply keeps_nextTick | apply keeps_foldl | apply resKeeps_next) | split | (apply Eq.refl) | exact selfTrue | exact selfChans | exact selfAnd | intro _

theorem keeps_asymWrite {sK : State} (s : State) (d : Dev) (n : Nat) (swap : Bool) (v : Half) (hK : sK.Keeps s) : sK.Keeps (State.asymWrite s d n swap v) := by
  unfold State.asymWrite
  try dsimp only
  repeat' first | (with_reducible first | assumption | apply keeps_modAsym) | split | (apply Eq.refl) | exact selfTrue | exact selfChans | exact selfAnd | intro _

theorem keeps_shutCntWrite {sK : State} (s : State) (d : Dev) (v : Half) (hK : sK.Keeps s) : sK.Keeps (State.shutCntWrite s d v) := by
  unfold State.shutCntWrite
  try dsimp only
  repeat' first | (with_reducible first | assumption | apply keeps_modShut) | split | (apply Eq.refl) | exact selfTrue | exact selfChans | exact selfAnd | intro _

theorem keeps_selectWrite {sK : State} (s : State) (d : Dev) (src : Src) (off : Nat) (v : Half) (hK : sK.Keeps s) : sK.Keeps (State.selectWrite s d src off v) := by
  unfold State.selectWrite
  try dsimp only
  repeat' first | (with_reducible first | assumption | apply keeps_denied | apply keeps_setWin) | split | (apply Eq.refl) | exact selfTrue | exact selfChans | exact selfAnd | intro _

theorem keeps_grpWrite {sK : State} (s : State) (src : Src) (o : Nat) (v : Half) (hK : sK.Keeps s) : sK.Keeps (State.grpWrite s src o v) := by
  unfold State.grpWrite
  try dsimp only
  repeat' first | (with_reducible first | assumption | apply keeps_denied | apply keeps_late | apply keeps_modConjStage | apply keeps_modGrp) | split | (apply Eq.refl) | exact selfTrue | exact selfChans | exact selfAnd | intro _

theorem keeps_actWrite {sK : State} (s : State) (d : Dev) (src : Src) (off : Nat) (v : Half) {r : Res} (he : s.actWrite d src off v = some r)
    (hK : sK.Keeps s) : ResKeeps sK r := by
  unfold State.actWrite at he
  split at he
  · injection he with he; subst he; exact keeps_execBwForce _ _ _ _ hK
  split at he
  · injection he with he; subst he; exact keeps_execPstepWrite _ _ _ hK
  split at he
  · injection he with he; subst he
    split
    · exact keeps_execFltInjArm _ _ _ _ _ hK
    split
    · exact resKeeps_fault _
    · exact resKeeps_next (keeps_setReg _ _ _ hK)
  · cases he

theorem keeps_tsuSpecial {sK : State} (s : State) (src : Src) (o : Nat) (v : Half) (hK : sK.Keeps s) : OptKeeps sK (s.tsuSpecial src o v) := by
  unfold State.tsuSpecial
  (try dsimp only)
  repeat' first | (with_reducible first | assumption | apply optKeeps_ite | apply optKeeps_some | apply optKeeps_none | apply keeps_asymWrite | apply keeps_chanWrite | apply keeps_convWrite | apply keeps_crWrite | apply keeps_dbgCtrlWrite | apply keeps_denied | apply keeps_fwVersionWrite | apply keeps_linkWrite | apply keeps_modCmds | apply keeps_modLt | apply keeps_modPower | apply keeps_modPulse | apply keeps_modSec | apply keeps_modSync | apply keeps_modTsu | apply keeps_rstWrite | apply keeps_runWrite | apply keeps_shutCntWrite | apply keeps_syncDbgWrite | apply keeps_writeSel | apply keeps_foldl) | split | (apply Eq.refl) | exact selfTrue | exact selfChans | exact selfAnd | intro _

theorem keeps_jupSpecial {sK : State} (s : State) (src : Src) (o : Nat) (v : Half) (hK : sK.Keeps s) : OptKeeps sK (s.jupSpecial src o v) := by
  unfold State.jupSpecial
  (try dsimp only)
  repeat' first | (with_reducible first | assumption | apply optKeeps_ite | apply optKeeps_some | apply optKeeps_none | apply keeps_asymWrite | apply keeps_convWrite | apply keeps_crWrite | apply keeps_dbgCtrlWrite | apply keeps_divClear | apply keeps_grpWrite | apply keeps_linkWrite | apply keeps_logFree | apply keeps_modCmds | apply keeps_modJup | apply keeps_modLt | apply keeps_modPulse | apply keeps_modSec | apply keeps_modStage | apply keeps_portReturn | apply keeps_shutCntWrite) | split | (apply Eq.refl) | exact selfTrue | exact selfChans | exact selfAnd | intro _

theorem keeps_regWrite {sK : State} (s : State) (d : Dev) (src : Src) (off : Nat) (v : Half) (hK : sK.Keeps s) :
    ResKeeps sK (State.regWrite s d src off v) := by
  unfold State.regWrite
  split
  · split
    · exact resKeeps_next (keeps_denied _ _ hK)
    · exact resKeeps_next hK
  split
  · exact resKeeps_next (keeps_denied _ _ hK)
  split
  · exact resKeeps_fault _
  split
  · exact resKeeps_fault _
  split
  · exact keeps_actWrite _ _ _ _ _ ‹_› hK
  split
  · exact resKeeps_next (keeps_selectWrite _ _ _ _ _ hK)
  split
  · exact keeps_winWrite _ _ _ _ _ _ hK
  split
  · rename_i s1 hm
    have h1 : sK.Keeps s1 := by
      cases d
      · exact keeps_tsuSpecial _ _ _ _ hK _ hm
      · exact keeps_jupSpecial _ _ _ _ hK _ hm
    split
    · exact resKeeps_next (keeps_csrPut _ _ _ _ _ (fun _ _ => h1) hK)
    · exact resKeeps_next h1
  · refine resKeeps_next (keeps_csrPut _ _ _ _ _ (fun s hs => ?_) hK)
    dsimp only
    split
    · exact keeps_lnkCtrlWrite _ _ _ _ _ (keeps_plainWrite _ _ _ _ _ _ hs)
    · exact keeps_plainWrite _ _ _ _ _ _ hs

theorem keepsN_regWrite {sK : State} (s : State) (d : Dev) (src : Src) (off : Nat) (v : Half) {t' : State}
    (he : State.regWrite s d src off v = .next t') (hK : sK.Keeps s) : sK.Keeps t' := keeps_regWrite s d src off v hK t' he

theorem keeps_switchRoutes {sK : State} (s : State) (ws : List StagedWrite) (tc : Tick) (hK : sK.Keeps s) : sK.Keeps (State.switchRoutes s ws tc) := by
  unfold State.switchRoutes
  try dsimp only
  repeat' first | (with_reducible first | assumption | apply keeps_modTsu | apply keeps_foldl) | split | (apply Eq.refl) | exact selfTrue | exact selfChans | exact selfAnd | intro _

theorem keeps_rebound {sK : State} (s : State) (binds : List (Half × BitVec 15)) (hK : sK.Keeps s) : sK.Keeps (State.rebound s binds) := by
  unfold State.rebound
  try dsimp only
  repeat' first | (with_reducible first | assumption | apply keeps_clearFilter | apply keeps_foldl) | split | (apply Eq.refl) | exact selfTrue | exact selfChans | exact selfAnd | intro _

theorem keeps_applyWrites {sK : State} (s : State) (d : Dev) (l : List StagedWrite) (hK : sK.Keeps s) : ResKeeps sK (s.applyWrites d l) := by
  induction l generalizing s with
  | nil => exact resKeeps_next hK
  | cons w l ih =>
    unfold State.applyWrites
    split
    · exact ih _ (keepsN_regWrite _ _ _ _ _ ‹_› hK)
    · exact keeps_regWrite _ _ _ _ _ hK

theorem keepsN_applyWrites {sK : State} (s : State) (d : Dev) (l : List StagedWrite) {t' : State} (he : s.applyWrites d l = .next t')
    (hK : sK.Keeps s) : sK.Keeps t' := keeps_applyWrites s d l hK t' he

theorem keeps_applyDie {sK : State} (s : State) (g : MemberGroup) (tc : Tick) (hK : sK.Keeps s) : ResKeeps sK (State.applyDie s g tc) := by
  unfold State.applyDie
  try dsimp only
  repeat' first | (with_reducible first | assumption | apply keeps_applyWrites | apply keeps_dropGroup | apply keeps_emit | apply keeps_rebound | apply keeps_switchRoutes | apply resKeeps_next | (apply keepsN_applyWrites; case' he => assumption)) | split | (apply Eq.refl) | exact selfTrue | exact selfChans | exact selfAnd | intro _

theorem keepsN_applyDie {sK : State} (s : State) (g : MemberGroup) (tc : Tick)  {t' : State} (he : (State.applyDie s g tc) = .next t') (hK : sK.Keeps s) : sK.Keeps t' := keeps_applyDie s g tc  hK t' he

theorem keeps_keepMembers {sK : State} (s : State) (g : MemberGroup) (tc : Tick) (hK : sK.Keeps s) : sK.Keeps (State.keepMembers s g tc) := by
  unfold State.keepMembers
  try dsimp only
  repeat' first | (with_reducible first | assumption | apply keeps_modStage | apply keeps_foldl) | split | (apply Eq.refl) | exact selfTrue | exact selfChans | exact selfAnd | intro _

theorem keeps_keepMap {sK : State} (s : State) (g : MemberGroup) (tc : Tick) (hK : sK.Keeps s) : sK.Keeps (State.keepMap s g tc) := by
  unfold State.keepMap
  try dsimp only
  repeat' first | (with_reducible first | assumption | apply keeps_modStage) | split | (apply Eq.refl) | exact selfTrue | exact selfChans | exact selfAnd | intro _

theorem keeps_holdPorts {sK : State} (s : State) (h : Half) (hK : sK.Keeps s) : sK.Keeps (State.holdPorts s h) := by
  unfold State.holdPorts
  try dsimp only
  repeat' first | (with_reducible first | assumption | apply keeps_modLink | apply keeps_foldl) | split | (apply Eq.refl) | exact selfTrue | exact selfChans | exact selfAnd | intro _

theorem keeps_endMember {sK : State} (s : State) (h : Half) (hK : sK.Keeps s) : sK.Keeps (State.endMember s h) := by
  unfold State.endMember
  try dsimp only
  repeat' first | (with_reducible first | assumption | apply keeps_dropGroup | apply keeps_modGroup) | split | (apply Eq.refl) | exact selfTrue | exact selfChans | exact selfAnd | intro _

theorem keeps_missCommit {sK : State} (s : State) (g : MemberGroup) (hK : sK.Keeps s) : sK.Keeps (State.missCommit s g) := by
  unfold State.missCommit
  try dsimp only
  repeat' first | (with_reducible first | assumption | apply keeps_dropGroup | apply keeps_modStage | apply keeps_raiseFault | apply keeps_sendAll) | split | (apply Eq.refl) | exact selfTrue | exact selfChans | exact selfAnd | intro _

theorem keeps_forgetJob {sK : State} (s : State) (j : BitVec 15) (hK : sK.Keeps s) : sK.Keeps (State.forgetJob s j) := by
  unfold State.forgetJob
  try dsimp only
  repeat' first | (with_reducible first | assumption | apply keeps_closeFlow | apply keeps_modJup | apply keeps_modStage) | split | (apply Eq.refl) | exact selfTrue | exact selfChans | exact selfAnd | intro _

theorem keeps_forgetJobs {sK : State} (s0 s : State) (g : MemberGroup) (hK : sK.Keeps s) : sK.Keeps (State.forgetJobs s0 s g) := by
  unfold State.forgetJobs
  exact keeps_foldl _ (fun _ _ h => keeps_forgetJob _ _ h) _ hK

theorem keeps_applyJup {sK : State} (s : State) (g : MemberGroup) (tc : Tick) (hK : sK.Keeps s) : ResKeeps sK (State.applyJup s g tc) := by
  unfold State.applyJup
  try dsimp only
  repeat' first | (with_reducible first | assumption | apply keeps_applyWrites | apply keeps_dropGroup | apply keeps_endMember | apply keeps_forgetJobs | apply keeps_holdPorts | apply keeps_keepMap | apply keeps_keepMembers | apply keeps_missCommit | apply keeps_movePartners | apply resKeeps_next | (apply keepsN_applyWrites; case' he => assumption)) | split | (apply Eq.refl) | exact selfTrue | exact selfChans | exact selfAnd | intro _

theorem keepsN_applyJup {sK : State} (s : State) (g : MemberGroup) (tc : Tick)  {t' : State} (he : (State.applyJup s g tc) = .next t') (hK : sK.Keeps s) : sK.Keeps t' := keeps_applyJup s g tc  hK t' he

theorem keeps_execCgApply {sK : State} (d : Dev) (handle : Half) (s : State) (hK : sK.Keeps s) : ResKeeps sK (execCgApply d handle s) := by
  unfold execCgApply
  try dsimp only
  repeat' first | (with_reducible first | assumption | apply keeps_applyDie | apply keeps_applyJup | apply resKeeps_next | (apply keepsN_applyDie; case' he => assumption) | (apply keepsN_applyJup; case' he => assumption)) | split | (apply Eq.refl) | exact selfTrue | exact selfChans | exact selfAnd | intro _

theorem keeps_fenceUnacked {sK : State} (s : State) (p : Nat) (g : MemberGroup) (tc : Tick) (hK : sK.Keeps s) : sK.Keeps (State.fenceUnacked s p g tc) := by
  unfold State.fenceUnacked
  try dsimp only
  repeat' first | (with_reducible first | assumption | apply keeps_modLink | apply keeps_placeFence | apply keeps_foldl) | split | (apply Eq.refl) | exact selfTrue | exact selfChans | exact selfAnd | intro _

theorem keeps_endDelivery {sK : State} (s : State) (h : Half) (p : Nat) (hK : sK.Keeps s) : sK.Keeps (State.endDelivery s h p) := by
  unfold State.endDelivery
  try dsimp only
  repeat' first | (with_reducible first | assumption | apply keeps_portDelivered) | split | (apply Eq.refl) | exact selfTrue | exact selfChans | exact selfAnd | intro _

theorem keeps_checkPort {sK : State} (s : State) (p : Nat) (g : MemberGroup) (tc : Tick) (hK : sK.Keeps s) : sK.Keeps (State.checkPort s p g tc) := by
  unfold State.checkPort
  try dsimp only
  repeat' first | (with_reducible first | assumption | apply keeps_dropGroup | apply keeps_endDelivery | apply keeps_fenceUnacked | apply keeps_releaseHeld) | split | (apply Eq.refl) | exact selfTrue | exact selfChans | exact selfAnd | intro _

theorem keeps_execCgDeliveryCheck {sK : State} (port : Nat) (handle : Half) (s : State) (hK : sK.Keeps s) : ResKeeps sK (execCgDeliveryCheck port handle s) := by
  unfold execCgDeliveryCheck
  try dsimp only
  repeat' first | (with_reducible first | assumption | apply keeps_checkPort | apply keeps_due | apply resKeeps_next | (apply keepsN_due; case' he => assumption)) | split | (apply Eq.refl) | exact selfTrue | exact selfChans | exact selfAnd | intro _

theorem keeps_execResultLateDelivery {sK : State} (port : Nat) (job : BitVec 15) (u2 : BitVec 17) (gate : Bool) (commitTick : Tick) (s : State) (hK : sK.Keeps s) : ResKeeps sK (execResultLateDelivery port job u2 gate commitTick s) := by
  unfold execResultLateDelivery
  try dsimp only
  repeat' first | (with_reducible first | assumption | apply keeps_due | apply keeps_settleFence | apply resKeeps_next | (apply keepsN_due; case' he => assumption)) | split | (apply Eq.refl) | exact selfTrue | exact selfChans | exact selfAnd | intro _

theorem keeps_notePeer {sK : State} (s : State) (side down : Bool) (hK : sK.Keeps s) : sK.Keeps (State.notePeer s side down) := by
  unfold State.notePeer
  try dsimp only
  repeat' first | (with_reducible first | assumption | apply keeps_modJup) | split | (apply Eq.refl) | exact selfTrue | exact selfChans | exact selfAnd | intro _

theorem keeps_execJpMemberLost {sK : State} (side : Bool) (peerDownReported : Bool) (s : State) (hK : sK.Keeps s) : ResKeeps sK (execJpMemberLost side peerDownReported s) := by
  unfold execJpMemberLost
  try dsimp only
  repeat' first | (with_reducible first | assumption | apply keeps_due | apply keeps_modJup | apply keeps_notePeer | apply keeps_raiseFault | apply resKeeps_next | (apply keepsN_due; case' he => assumption)) | split | (apply Eq.refl) | exact selfTrue | exact selfChans | exact selfAnd | intro _

theorem keeps_addLost {sK : State} (s : State) (job : BitVec 15) (seqId : BitVec 40) (reason : Nat) (hK : sK.Keeps s) : sK.Keeps (State.addLost s job seqId reason) := by
  unfold State.addLost
  try dsimp only
  repeat' first | (with_reducible first | assumption | apply keeps_modJup | apply keeps_setJobWord) | split | (apply Eq.refl) | exact selfTrue | exact selfChans | exact selfAnd | intro _

theorem keeps_journalUe {sK : State} (s : State) (b : Nat) (hK : sK.Keeps s) : sK.Keeps (State.journalUe s b) := by
  unfold State.journalUe
  try dsimp only
  repeat' first | (with_reducible first | assumption | apply keeps_addLost | apply keeps_modJup | apply keeps_raiseFault | apply keeps_foldl) | split | (apply Eq.refl) | exact selfTrue | exact selfChans | exact selfAnd | intro _

theorem keeps_execMemoryUe {sK : State} (where_ : UeAt) (s : State) (hK : sK.Keeps s) : ResKeeps sK (execMemoryUe where_ s) := by
  unfold execMemoryUe
  try dsimp only
  repeat' first | (with_reducible first | assumption | apply keeps_journalUe | apply keeps_modGen | apply keeps_raiseFault | apply resKeeps_next) | split | (apply Eq.refl) | exact selfTrue | exact selfChans | exact selfAnd | intro _

theorem keeps_setUsage {sK : State} (s : State) (job : BitVec 15) (n : Nat) (hK : sK.Keeps s) : sK.Keeps (State.setUsage s job n) := by
  unfold State.setUsage
  try dsimp only
  repeat' first | (with_reducible first | assumption | apply keeps_modJup | apply keeps_setJobWord) | split | (apply Eq.refl) | exact selfTrue | exact selfChans | exact selfAnd | intro _

theorem keeps_storeRecord {sK : State} (s : State) (r : JrnRec) (durable : Bool) (hK : sK.Keeps s) : sK.Keeps (State.storeRecord s r durable) := by
  unfold State.storeRecord
  try dsimp only
  repeat' first | (with_reducible first | assumption | apply keeps_modJup | apply keeps_setUsage | apply keeps_tick) | split | (apply Eq.refl) | exact selfTrue | exact selfChans | exact selfAnd | intro _

theorem keeps_forwardRecord {sK : State} (s : State) (r : JrnRec) (hK : sK.Keeps s) : sK.Keeps (State.forwardRecord s r) := by
  unfold State.forwardRecord
  try dsimp only
  repeat' first | (with_reducible first | assumption | apply keeps_sendAll) | split | (apply Eq.refl) | exact selfTrue | exact selfChans | exact selfAnd | intro _

theorem keeps_badInput {sK : State} (s : State) (r : JrnRec) (hK : sK.Keeps s) : sK.Keeps (State.badInput s r) := by
  unfold State.badInput
  try dsimp only
  repeat' first | (with_reducible first | assumption | apply keeps_modStage) | split | (apply Eq.refl) | exact selfTrue | exact selfChans | exact selfAnd | intro _

theorem keeps_quotaHold {sK : State} (s : State) (r : JrnRec) (hK : sK.Keeps s) : sK.Keeps (State.quotaHold s r) := by
  unfold State.quotaHold
  try dsimp only
  repeat' first | (with_reducible first | assumption | apply keeps_multicast | apply keeps_send | apply keeps_foldl) | split | (apply Eq.refl) | exact selfTrue | exact selfChans | exact selfAnd | intro _

theorem keeps_overQuota {sK : State} (s : State) (r : JrnRec) (hK : sK.Keeps s) : sK.Keeps (State.overQuota s r) := by
  unfold State.overQuota
  try dsimp only
  repeat' first | (with_reducible first | assumption | apply keeps_addLost | apply keeps_badInput | apply keeps_modJup | apply keeps_quotaHold | apply keeps_raiseFault) | split | (apply Eq.refl) | exact selfTrue | exact selfChans | exact selfAnd | intro _

theorem keeps_ignoreTwin {sK : State} (s : State) (hK : sK.Keeps s) : sK.Keeps (State.ignoreTwin s) := by
  unfold State.ignoreTwin
  try dsimp only
  repeat' first | (with_reducible first | assumption | apply keeps_modJup) | split | (apply Eq.refl) | exact selfTrue | exact selfChans | exact selfAnd | intro _

theorem keeps_appendOwn {sK : State} (s : State) (port : Nat) (r : JrnRec) (hK : sK.Keeps s) : sK.Keeps (State.appendOwn s port r) := by
  unfold State.appendOwn
  try dsimp only
  repeat' first | (with_reducible first | assumption | apply keeps_addLost | apply keeps_badInput | apply keeps_forwardRecord | apply keeps_ignoreTwin | apply keeps_overQuota | apply keeps_raisePort | apply keeps_storeRecord) | split | (apply Eq.refl) | exact selfTrue | exact selfChans | exact selfAnd | intro _

theorem keeps_dropRecords {sK : State} (s : State) (job : BitVec 15) (p : JrnRec → Bool) (hK : sK.Keeps s) : sK.Keeps (State.dropRecords s job p) := by
  unfold State.dropRecords
  try dsimp only
  repeat' first | (with_reducible first | assumption | apply keeps_modJup | apply keeps_setUsage | apply keeps_foldl) | split | (apply Eq.refl) | exact selfTrue | exact selfChans | exact selfAnd | intro _

theorem keeps_keepTwo {sK : State} (s : State) (r : JrnRec) (hK : sK.Keeps s) : sK.Keeps (State.keepTwo s r) := by
  unfold State.keepTwo
  try dsimp only
  repeat' first | (with_reducible first | assumption | apply keeps_dropRecords) | split | (apply Eq.refl) | exact selfTrue | exact selfChans | exact selfAnd | intro _

theorem keeps_appendCopy {sK : State} (s : State) (port : Nat) (r : JrnRec) (hK : sK.Keeps s) : sK.Keeps (State.appendCopy s port r) := by
  unfold State.appendCopy
  try dsimp only
  repeat' first | (with_reducible first | assumption | apply keeps_ignoreTwin | apply keeps_keepTwo | apply keeps_raisePort | apply keeps_storeRecord) | split | (apply Eq.refl) | exact selfTrue | exact selfChans | exact selfAnd | intro _

theorem keeps_appendIn {sK : State} (s : State) (port : Nat) (r : JrnRec) (hK : sK.Keeps s) : sK.Keeps (State.appendIn s port r) := by
  unfold State.appendIn
  split
  · split
    · exact keeps_badInput _ _ hK
    · exact hK
  · have h := keeps_openFlow _ _ _ ‹_› hK
    split
    · exact keeps_appendCopy _ _ _ h
    · exact keeps_appendOwn _ _ _ h

theorem keeps_execJournalAppend {sK : State} (port : Nat) (words : List Word) (s : State) (hK : sK.Keeps s) : ResKeeps sK (execJournalAppend port words s) := by
  unfold execJournalAppend
  try dsimp only
  repeat' first | (with_reducible first | assumption | apply keeps_appendIn | apply keeps_consume | apply resKeeps_next | apply resKeeps_fault) | split | (apply Eq.refl) | exact selfTrue | exact selfChans | exact selfAnd | intro _

theorem keeps_makeDurable {sK : State} (s : State) (n : Nat) (r : JrnRec) (hK : sK.Keeps s) : sK.Keeps (State.makeDurable s n r) := by
  unfold State.makeDurable
  try dsimp only
  repeat' first | (with_reducible first | assumption | apply keeps_keepTwo | apply keeps_modJup | apply keeps_retryGates) | split | (apply Eq.refl) | exact selfTrue | exact selfChans | exact selfAnd | intro _

theorem keeps_execJournalDurable {sK : State} (record : Nat) (s : State) (hK : sK.Keeps s) : ResKeeps sK (execJournalDurable record s) := by
  unfold execJournalDurable
  try dsimp only
  repeat' first | (with_reducible first | assumption | apply keeps_due | apply keeps_makeDurable | apply resKeeps_next | (apply keepsN_due; case' he => assumption)) | split | (apply Eq.refl) | exact selfTrue | exact selfChans | exact selfAnd | intro _

theorem keeps_execJournalAgeOut {sK : State} (job : BitVec 15) (seqId : BitVec 40) (s : State) (hK : sK.Keeps s) : ResKeeps sK (execJournalAgeOut job seqId s) := by
  unfold execJournalAgeOut
  try dsimp only
  repeat' first | (with_reducible first | assumption | apply keeps_dropRecords | apply keeps_due | apply resKeeps_next | (apply keepsN_due; case' he => assumption)) | split | (apply Eq.refl) | exact selfTrue | exact selfChans | exact selfAnd | intro _

theorem keeps_ackShadow {sK : State} (s : State) (job : BitVec 15) (rank : BitVec 17) (step : BitVec 64) (hK : sK.Keeps s) : sK.Keeps (State.ackShadow s job rank step) := by
  unfold State.ackShadow
  try dsimp only
  repeat' first | (with_reducible first | assumption | apply keeps_modJup) | split | (apply Eq.refl) | exact selfTrue | exact selfChans | exact selfAnd | intro _

theorem keeps_sendShadow {sK : State} (s : State) (job : BitVec 15) (rank : BitVec 17) (hK : sK.Keeps s) : sK.Keeps (State.sendShadow s job rank) := by
  unfold State.sendShadow
  try dsimp only
  repeat' first | (with_reducible first | assumption | apply keeps_emit | apply keeps_foldl) | split | (apply Eq.refl) | exact selfTrue | exact selfChans | exact selfAnd | intro _

theorem keeps_execShadowAck {sK : State} (job : BitVec 15) (rank : BitVec 17) (step : BitVec 64) (s : State) (hK : sK.Keeps s) : ResKeeps sK (execShadowAck job rank step s) := by
  unfold execShadowAck
  split
  · exact resKeeps_next (keeps_checkLag _ (keeps_sendShadow _ _ _ (keeps_ackShadow _ _ _ _ (keeps_openFlow _ _ _ ‹_› hK))))
  · exact resKeeps_next hK

theorem keeps_standbyTouched {sK : State} (s : State) (inBank : Nat → Bool → Bool) (hK : sK.Keeps s) : sK.Keeps (State.standbyTouched s inBank) := by
  unfold State.standbyTouched
  try dsimp only
  repeat' first | (with_reducible first | assumption | apply keeps_modChan | apply keeps_foldl) | split | (apply Eq.refl) | exact selfTrue | exact selfChans | exact selfAnd | intro _

theorem keeps_loadWrite {sK : State} (s : State) (d : Dev) (off : Nat) (v : Half) (hK : sK.Keeps s) : ResKeeps sK (State.loadWrite s d off v) := by
  unfold State.loadWrite
  try dsimp only
  repeat' first | (with_reducible first | assumption | apply keeps_emit | apply keeps_modCom | apply keeps_modTsu | apply keeps_regWrite | apply keeps_setReg | apply keeps_sramWrite | apply keeps_standbyTouched | apply resKeeps_next | (apply keepsN_regWrite; case' he => assumption)) | split | (apply Eq.refl) | exact selfTrue | exact selfChans | exact selfAnd | intro _

theorem keepsN_loadWrite {sK : State} (s : State) (d : Dev) (off : Nat) (v : Half)  {t' : State} (he : (State.loadWrite s d off v) = .next t') (hK : sK.Keeps s) : sK.Keeps t' := keeps_loadWrite s d off v  hK t' he

theorem keeps_postLoad {sK : State} (s : State) (d : Dev) (h : Option Half) (status : BitVec 8) (results : List Word) (hK : sK.Keeps s) : sK.Keeps (State.postLoad s d h status results) := by
  unfold State.postLoad
  try dsimp only
  repeat' first | (with_reducible first | assumption | apply keeps_closeFlow | apply keeps_post) | split | (apply Eq.refl) | exact selfTrue | exact selfChans | exact selfAnd | intro _

theorem keeps_startFrom {sK : State} (s : State) (d : Dev) (l : List (Option Half × LoadTo × Nat)) (hK : sK.Keeps s) :
    sK.Keeps (s.startFrom d l) := by
  induction l generalizing s with
  | nil => exact keeps_modCom _ _ hK rfl id
  | cons x l ih =>
    obtain ⟨h, dest, stage⟩ := x
    unfold State.startFrom
    extract_lets busy
    split
    · exact ih _ (keeps_postLoad _ _ _ _ _ hK)
    · exact keeps_modCom _ _ hK rfl id

theorem keeps_nextLoad {sK : State} (s : State) (d : Dev) (hK : sK.Keeps s) : sK.Keeps (State.nextLoad s d) := by
  unfold State.nextLoad
  try dsimp only
  repeat' first | (with_reducible first | assumption | apply keeps_startFrom | apply resKeeps_next) | split | (apply Eq.refl) | exact selfTrue | exact selfChans | exact selfAnd | intro _

theorem keeps_askLoad {sK : State} (s : State) (d : Dev) (h : Option Half) (dest : LoadTo) (stage : Nat) (hK : sK.Keeps s) : sK.Keeps (State.askLoad s d h dest stage) := by
  unfold State.askLoad
  try dsimp only
  repeat' first | (with_reducible first | assumption | apply keeps_modCom | apply keeps_startFrom) | split | (apply Eq.refl) | exact selfTrue | exact selfChans | exact selfAnd | intro _

theorem keeps_unload {sK : State} (s : State) (d : Dev) (l : Load) (hK : sK.Keeps s) : sK.Keeps (State.unload s d l) := by
  unfold State.unload
  extract_lets offs s1 s2
  have h1 : sK.Keeps s1 := keeps_modCom _ _ hK rfl fun h => comOk_regs h (tok_filter _ _ _ _) id id id
  have h2 : sK.Keeps s2 := keeps_modSec _ _ h1 rfl
  clear_value s1 s2
  split
  · exact keeps_foldl _ (fun _ _ h => keeps_setReg _ _ _ h) _ (keeps_modCom _ _ h2 rfl id)
  · split
    · exact keeps_modCom _ _ h2 rfl id
    · exact h2

theorem keeps_failLoad {sK : State} (s : State) (d : Dev) (l : Load) (status : BitVec 8) (code : Option Code) (count : Nat) (hK : sK.Keeps s) : sK.Keeps (State.failLoad s d l status code count) := by
  unfold State.failLoad
  try dsimp only
  repeat' first | (with_reducible first | assumption | apply keeps_nextLoad | apply keeps_postLoad | apply keeps_raiseFault | apply keeps_unload | apply resKeeps_next) | split | (apply Eq.refl) | exact selfTrue | exact selfChans | exact selfAnd | intro _

theorem keeps_refuseLoad {sK : State} (s : State) (d : Dev) (l : Load) (status : BitVec 8) (code : Option Code) (hK : sK.Keeps s) : sK.Keeps (State.refuseLoad s d l status code) := by
  unfold State.refuseLoad
  try dsimp only
  repeat' first | (with_reducible first | assumption | apply keeps_nextLoad | apply keeps_postLoad | apply keeps_raiseFault | apply resKeeps_next) | split | (apply Eq.refl) | exact selfTrue | exact selfChans | exact selfAnd | intro _

theorem keeps_openImage {sK : State} (s : State) (d : Dev) (hd : Half) (dest : LoadTo) (stage : Nat) (hK : sK.Keeps s) : sK.Keeps (State.openImage s d hd dest stage) := by
  unfold State.openImage
  split
  · exact keeps_askLoad _ _ _ _ _ hK
  split
  · exact keeps_askLoad _ _ _ _ _ (keeps_openEntry _ _ _ _ _ ‹_› hK)
  · exact keeps_post _ _ _ _ _ hK

theorem keeps_execLoadImage {sK : State} (d : Dev) (h : Hdr) (stage : Nat) (dest : LoadDest) (s : State) (hK : sK.Keeps s) : ResKeeps sK (execLoadImage d h stage dest s) := by
  unfold execLoadImage
  try dsimp only
  repeat' first | (with_reducible first | assumption | apply keeps_openImage | apply keeps_post | apply keeps_withHandle | apply resKeeps_next) | split | (apply Eq.refl) | exact selfTrue | exact selfChans | exact selfAnd | intro _

theorem keepsN_execLoadImage {sK : State} (d : Dev) (h : Hdr) (stage : Nat) (dest : LoadDest) (s : State)  {t' : State} (he : (execLoadImage d h stage dest s) = .next t') (hK : sK.Keeps s) : sK.Keeps t' := keeps_execLoadImage d h stage dest s  hK t' he

theorem keeps_loadWrites {sK : State} (s : State) (d : Dev) (l : List (BitVec 32 × Half)) (hK : sK.Keeps s) : ResKeeps sK (s.loadWrites d l) := by
  induction l generalizing s with
  | nil => exact resKeeps_next hK
  | cons w l ih =>
    unfold State.loadWrites
    split
    · exact ih _ (keepsN_loadWrite _ _ _ _ ‹_› hK)
    · exact keeps_loadWrite _ _ _ _ hK

theorem keepsN_loadWrites {sK : State} (s : State) (d : Dev) (l : List (BitVec 32 × Half)) {t' : State} (he : s.loadWrites d l = .next t')
    (hK : sK.Keeps s) : sK.Keeps t' := keeps_loadWrites s d l hK t' he

theorem keeps_judgeStructure {sK : State} (s : State) (d : Dev) (l : Load) (hK : sK.Keeps s) : ResKeeps sK (State.judgeStructure s d l) := by
  unfold State.judgeStructure
  try dsimp only
  repeat' first | (with_reducible first | assumption | apply keeps_failLoad | apply keeps_loadWrites | apply keeps_modCom | apply resKeeps_next | apply resKeeps_fault | (apply keepsN_loadWrites; case' he => assumption)) | split | (apply Eq.refl) | exact selfTrue | exact selfChans | exact selfAnd | intro _

theorem keeps_judgeEpoch {sK : State} (s : State) (d : Dev) (l : Load) (e : Section) (hK : sK.Keeps s) :
    sK.Keeps (match s.judgeEpoch d l e with | .inl t => t | .inr t => t) := by
  have h : ∀ r : State ⊕ State, r = s.judgeEpoch d l e → sK.Keeps (match r with | .inl t => t | .inr t => t) := by
    intro r hr
    unfold State.judgeEpoch at hr
    split at hr
    · split at hr
      · split at hr
        · subst hr; exact keeps_refuseLoad _ _ _ _ _ (keeps_fresh hK)
        · subst hr; exact keeps_fresh hK
      · subst hr; exact hK
    · subst hr; exact hK
  exact h _ rfl

theorem keeps_passSections {sK : State} (s : State) (d : Dev) (n : Nat) (l : Load) (hK : sK.Keeps s) : ResKeeps sK (s.passSections d n l) := by
  induction n generalizing s l with
  | zero => exact keeps_judgeStructure _ _ _ hK
  | succ n ih =>
    unfold State.passSections
    split
    · exact keeps_judgeStructure _ _ _ hK
    split
    · exact resKeeps_next (keeps_modCom _ _ hK rfl id)
    split
    · have h := keeps_judgeEpoch s d ‹_› ‹_› hK
      split <;> rename_i he <;> rw [he] at h
      · exact resKeeps_next h
      · exact ih _ _ h
    · exact resKeeps_next (keeps_failLoad _ _ _ _ _ _ hK)
    · exact resKeeps_next (keeps_failLoad _ _ _ _ _ _ hK)

theorem keeps_bodyFrame {sK : State} (s : State) (d : Dev) (l : Load) (data : List Word) (hK : sK.Keeps s) : ResKeeps sK (State.bodyFrame s d l data) := by
  unfold State.bodyFrame
  try dsimp only
  repeat' first | (with_reducible first | assumption | apply keeps_failLoad | apply keeps_loadWrites | apply keeps_passSections | apply resKeeps_next | apply resKeeps_fault | (apply keepsN_loadWrites; case' he => assumption)) | split | (apply Eq.refl) | exact selfTrue | exact selfChans | exact selfAnd | intro _

theorem keepsN_bodyFrame {sK : State} (s : State) (d : Dev) (l : Load) (data : List Word)  {t' : State} (he : (State.bodyFrame s d l data) = .next t') (hK : sK.Keeps s) : sK.Keeps t' := keeps_bodyFrame s d l data  hK t' he

theorem keeps_judgeHeader {sK : State} (s : State) (d : Dev) (l : Load) {t : State} (he : s.judgeHeader d l = .inl t) (hK : sK.Keeps s) : sK.Keeps t := by
  have hd : ∀ {y : State} , sK.Keeps y → (Sum.inl y : State ⊕ Load) = .inl t → sK.Keeps t := fun h e => by injection e with e; exact e ▸ h
  unfold State.judgeHeader at he
  extract_lets x ws at he
  split at he
  · exact hd (keeps_refuseLoad _ _ _ _ _ hK) he
  split at he
  · exact hd (keeps_failLoad _ _ _ _ _ _ hK) he
  split at he
  · exact hd (keeps_refuseLoad _ _ _ _ _ hK) he
  split at he
  · exact hd (keeps_failLoad _ _ _ _ _ _ hK) he
  split at he
  · exact hd (keeps_failLoad _ _ _ _ _ _ hK) he
  · injection he

theorem keeps_headerFrame {sK : State} (s : State) (d : Dev) (l : Load) (data : List Word) (hK : sK.Keeps s) :
    ResKeeps sK (State.headerFrame s d l data) := by
  unfold State.headerFrame
  dsimp only
  split
  · exact resKeeps_next (keeps_failLoad _ _ _ _ _ _ hK)
  split
  · exact resKeeps_next (keeps_modCom _ _ hK rfl id)
  split
  · exact resKeeps_next (keeps_judgeHeader _ _ _ ‹_› hK)
  split
  · exact resKeeps_fault _
  · exact keeps_passSections _ _ _ _ hK

theorem keepsN_headerFrame {sK : State} (s : State) (d : Dev) (l : Load) (data : List Word) {t' : State}
    (he : State.headerFrame s d l data = .next t') (hK : sK.Keeps s) : sK.Keeps t' := keeps_headerFrame s d l data hK t' he

theorem keeps_takeFrame {sK : State} (s : State) (d : Dev) (frame : List Word) (hK : sK.Keeps s) : ResKeeps sK (State.takeFrame s d frame) := by
  unfold State.takeFrame
  try dsimp only
  repeat' first | (with_reducible first | assumption | apply keeps_bodyFrame | apply keeps_failLoad | apply keeps_headerFrame | apply resKeeps_next | apply resKeeps_fault | (apply keepsN_bodyFrame; case' he => assumption) | (apply keepsN_headerFrame; case' he => assumption)) | split | (apply Eq.refl) | exact selfTrue | exact selfChans | exact selfAnd | intro _

theorem keepsN_takeFrame {sK : State} (s : State) (d : Dev) (frame : List Word)  {t' : State} (he : (State.takeFrame s d frame) = .next t') (hK : sK.Keeps s) : sK.Keeps t' := keeps_takeFrame s d frame  hK t' he

theorem keeps_execImageSectionRx {sK : State} (d : Dev) (frame : List Word) (s : State) (hK : sK.Keeps s) : ResKeeps sK (execImageSectionRx d frame s) := by
  unfold execImageSectionRx
  try dsimp only
  repeat' first | (with_reducible first | assumption | apply keeps_consume | apply keeps_takeFrame | apply resKeeps_next | (apply keepsN_takeFrame; case' he => assumption)) | split | (apply Eq.refl) | exact selfTrue | exact selfChans | exact selfAnd | intro _

theorem keeps_sealRoot {sK : State} (s : State) (digest : BitVec 384) (hK : sK.Keeps s) : sK.Keeps (State.sealRoot s digest) := by
  unfold State.sealRoot
  try dsimp only
  repeat' first | (with_reducible first | assumption | apply keeps_crFree | apply keeps_modCr | apply keeps_modJup | apply keeps_modSec | apply keeps_modTime | apply keeps_rebase) | split | (apply Eq.refl) | exact selfTrue | exact selfChans | exact selfAnd | intro _

theorem keeps_idlePorts {sK : State} (s : State) (hK : sK.Keeps s) : sK.Keeps (State.idlePorts s) := by
  unfold State.idlePorts
  try dsimp only
  repeat' first | (with_reducible first | assumption | apply keeps_linkToDown | apply keeps_foldl) | split | (apply Eq.refl) | exact selfTrue | exact selfChans | exact selfAnd | intro _

theorem keeps_sealed1 {sK : State} (s : State) (d : Dev) (l : Load) (hK : sK.Keeps s) : sK.Keeps (State.sealed1 s d l) := by
  unfold State.sealed1
  try dsimp only
  repeat' first | (with_reducible first | assumption | apply keeps_emit | apply keeps_idlePorts | apply keeps_modPower | apply keeps_modSec | apply keeps_modTime | apply keeps_sealRoot) | split | (apply Eq.refl) | exact selfTrue | exact selfChans | exact selfAnd | intro _

theorem keeps_newGeneration {sK : State} (s : State) (p : Nat) (l : Load) (hK : sK.Keeps s) : sK.Keeps (State.newGeneration s p l) :=
  keeps_modJup _ (keeps_modGen _ _ _ _ hK) fun h => ⟨h.1, Table.wf_tset _ _ _ _ h.2⟩

theorem keeps_keepJob {sK : State} (s : State) (l : Load) (hK : sK.Keeps s) : sK.Keeps (State.keepJob s l) := by
  unfold State.keepJob
  try dsimp only
  repeat' first | (with_reducible first | assumption | apply keeps_modJup) | split | (apply Eq.refl) | exact selfTrue | exact selfChans | exact selfAnd | intro _

theorem keeps_sealLoad {sK : State} (s : State) (d : Dev) (l : Load) (hK : sK.Keeps s) : ResKeeps sK (State.sealLoad s d l) := by
  unfold State.sealLoad
  try dsimp only
  repeat' first | (with_reducible first | assumption | apply keeps_keepJob | apply keeps_loadWrites | apply keeps_newGeneration | apply keeps_nextLoad | apply keeps_postLoad | apply keeps_sealed1 | apply resKeeps_next | apply resKeeps_fault | (apply keepsN_loadWrites; case' he => assumption)) | split | (apply Eq.refl) | exact selfTrue | exact selfChans | exact selfAnd | intro _

theorem keepsN_sealLoad {sK : State} (s : State) (d : Dev) (l : Load)  {t' : State} (he : (State.sealLoad s d l) = .next t') (hK : sK.Keeps s) : sK.Keeps t' := keeps_sealLoad s d l  hK t' he

theorem keeps_execImageSeal {sK : State} (d : Dev) (s : State) (hK : sK.Keeps s) : ResKeeps sK (execImageSeal d s) := by
  unfold execImageSeal
  try dsimp only
  repeat' first | (with_reducible first | assumption | apply keeps_sealLoad | apply resKeeps_next | (apply keepsN_sealLoad; case' he => assumption)) | split | (apply Eq.refl) | exact selfTrue | exact selfChans | exact selfAnd | intro _

theorem keeps_forwardCmd {sK : State} (s : State) (h : Half) (port : Nat) (words : List Word) (hK : sK.Keeps s) : sK.Keeps (State.forwardCmd s h port words) := by
  unfold State.forwardCmd
  try dsimp only
  repeat' first | (with_reducible first | assumption | apply keeps_modJup | apply keeps_send) | split | (apply Eq.refl) | exact selfTrue | exact selfChans | exact selfAnd | intro _

theorem keeps_dropBringIn {sK : State} (s : State) (b : BringIn) (hK : sK.Keeps s) : sK.Keeps (State.dropBringIn s b) := by
  unfold State.dropBringIn
  try dsimp only
  repeat' first | (with_reducible first | assumption | apply keeps_modJup) | split | (apply Eq.refl) | exact selfTrue | exact selfChans | exact selfAnd | intro _

theorem keeps_setBringIn {sK : State} (s : State) (b b' : BringIn) (hK : sK.Keeps s) : sK.Keeps (State.setBringIn s b b') := by
  unfold State.setBringIn
  try dsimp only
  repeat' first | (with_reducible first | assumption | apply keeps_modJup) | split | (apply Eq.refl) | exact selfTrue | exact selfChans | exact selfAnd | intro _

theorem keeps_bringAgain {sK : State} (s : State) (j : BitVec 15) (lacking : Bool) (hK : sK.Keeps s) : sK.Keeps (State.bringAgain s j lacking) := by
  unfold State.bringAgain
  try dsimp only
  repeat' first | (with_reducible first | assumption | apply keeps_modStage | apply keeps_noteRerun) | split | (apply Eq.refl) | exact selfTrue | exact selfChans | exact selfAnd | intro _

theorem keeps_bringFails {sK : State} (s : State) (b : BringIn) (status : BitVec 8) (hK : sK.Keeps s) : sK.Keeps (State.bringFails s b status) := by
  unfold State.bringFails
  try dsimp only
  repeat' first | (with_reducible first | assumption | apply keeps_bringAgain | apply keeps_dropBringIn | apply keeps_post) | split | (apply Eq.refl) | exact selfTrue | exact selfChans | exact selfAnd | intro _

theorem keeps_spareLost {sK : State} (s : State) (p : Nat) (status : BitVec 8) (hK : sK.Keeps s) : sK.Keeps (State.spareLost s p status) := by
  unfold State.spareLost
  try dsimp only
  repeat' first | (with_reducible first | assumption | apply keeps_bringFails | apply keeps_setBringIn | apply keeps_foldl) | split | (apply Eq.refl) | exact selfTrue | exact selfChans | exact selfAnd | intro _

theorem keeps_restoreEnds {sK : State} (s : State) (p : Nat) (r : RestoreOp) (status : BitVec 8) (hK : sK.Keeps s) : sK.Keeps (State.restoreEnds s p r status) := by
  unfold State.restoreEnds
  try dsimp only
  repeat' first | (with_reducible first | assumption | apply keeps_post | apply keeps_spareLost) | split | (apply Eq.refl) | exact selfTrue | exact selfChans | exact selfAnd | intro _

theorem keeps_failRestore {sK : State} (s : State) (p : Nat) (r : RestoreOp) (status : BitVec 8) (hK : sK.Keeps s) : sK.Keeps (State.failRestore s p r status) := by
  unfold State.failRestore
  try dsimp only
  repeat' first | (with_reducible first | assumption | apply keeps_closeFlow | apply keeps_modJup | apply keeps_restoreEnds) | split | (apply Eq.refl) | exact selfTrue | exact selfChans | exact selfAnd | intro _

theorem keeps_openRestore {sK : State} (s : State) (p : Nat) (r : RestoreOp) (hK : sK.Keeps s) : sK.Keeps (State.openRestore s p r) := by
  unfold State.openRestore
  split
  · exact keeps_restoreEnds _ _ _ _ hK
  have h := keeps_modJup (fun j => { j with restores := tset none j.restores p (some r) }) (keeps_openEntry _ _ _ _ _ ‹_› hK) id
  dsimp only
  split
  · exact h
  · exact keeps_emit _ (keeps_modLink _ _ _ _ h)

theorem keeps_restoreHere {sK : State} (s0 : State) (h : Half) (p : Nat) (r : RestoreOp) (hK : sK.Keeps s0) : sK.Keeps (State.restoreHere s0 h p r) := by
  unfold State.restoreHere
  try dsimp only
  repeat' first | (with_reducible first | assumption | apply keeps_fresh | apply keeps_openRestore | apply keeps_post | (apply keepsE_fresh; case' he => assumption)) | exact keeps_fresh hK | split | (apply Eq.refl) | exact selfTrue | exact selfChans | exact selfAnd | intro _

theorem keeps_restoreCmd {sK : State} (s : State) (hd : Half) (override : Bool) (path : BitVec 32) (sections : BitVec 3) (gen : Bool) (hK : sK.Keeps s) : sK.Keeps (State.restoreCmd s hd override path sections gen) := by
  unfold State.restoreCmd
  try dsimp only
  repeat' first | (with_reducible first | assumption | apply keeps_forwardCmd | apply keeps_post | apply keeps_restoreHere) | split | (apply Eq.refl) | exact selfTrue | exact selfChans | exact selfAnd | intro _

theorem keeps_execRestore {sK : State} (h : Hdr) (path : BitVec 32) (sections : BitVec 3) (gen : Bool) (s : State) (hK : sK.Keeps s) : ResKeeps sK (execRestore h path sections gen s) := by
  unfold execRestore
  try dsimp only
  repeat' first | (with_reducible first | assumption | apply keeps_restoreCmd | apply keeps_withHandle | apply resKeeps_next) | split | (apply Eq.refl) | exact selfTrue | exact selfChans | exact selfAnd | intro _

theorem keepsN_execRestore {sK : State} (h : Hdr) (path : BitVec 32) (sections : BitVec 3) (gen : Bool) (s : State)  {t' : State} (he : (execRestore h path sections gen s) = .next t') (hK : sK.Keeps s) : sK.Keeps t' := keeps_execRestore h path sections gen s  hK t' he

theorem keeps_streamSection {sK : State} (s : State) (p : Nat) (typ : BitVec 8) (ws : List Word) (hK : sK.Keeps s) : sK.Keeps (State.streamSection s p typ ws) := by
  unfold State.streamSection
  try dsimp only
  repeat' first | (with_reducible first | assumption | apply keeps_modLink | apply keeps_send | apply keeps_foldl) | split | (apply Eq.refl) | exact selfTrue | exact selfChans | exact selfAnd | intro _

theorem keeps_startStreams {sK : State} (s : State) (p : Nat) (r : RestoreOp) (hK : sK.Keeps s) : sK.Keeps (State.startStreams s p r) := by
  unfold State.startStreams
  try dsimp only
  repeat' first | (with_reducible first | assumption | apply keeps_modJup | apply keeps_streamSection | apply keeps_foldl) | split | (apply Eq.refl) | exact selfTrue | exact selfChans | exact selfAnd | intro _

theorem keeps_judgeIdentity {sK : State} (s : State) (p : Nat) (r : RestoreOp) (id : Identity) (hK : sK.Keeps s) : sK.Keeps (State.judgeIdentity s p r id) := by
  unfold State.judgeIdentity
  try dsimp only
  repeat' first | (with_reducible first | assumption | apply keeps_failRestore | apply keeps_setRepeat | apply keeps_startStreams | apply keeps_foldl) | split | (apply Eq.refl) | exact selfTrue | exact selfChans | exact selfAnd | intro _

theorem keeps_keepIdentity {sK : State} (s : State) (p : Nat) (id : Identity) (hK : sK.Keeps s) : sK.Keeps (State.keepIdentity s p id) := by
  unfold State.keepIdentity
  try dsimp only
  repeat' first | (with_reducible first | assumption | apply keeps_modJup | apply keeps_setReg) | split | (apply Eq.refl) | exact selfTrue | exact selfChans | exact selfAnd | intro _

theorem keeps_execRestoreIdentityCheck {sK : State} (port : BitVec 7) (id : Identity) (s : State) (hK : sK.Keeps s) : ResKeeps sK (execRestoreIdentityCheck port id s) := by
  unfold execRestoreIdentityCheck
  try dsimp only
  repeat' first | (with_reducible first | assumption | apply keeps_due | apply keeps_failRestore | apply keeps_judgeIdentity | apply keeps_keepIdentity | apply resKeeps_next | (apply keepsN_due; case' he => assumption)) | split | (apply Eq.refl) | exact selfTrue | exact selfChans | exact selfAnd | intro _

theorem keeps_endJournal {sK : State} (s : State) (hK : sK.Keeps s) : sK.Keeps (State.endJournal s) := by
  unfold State.endJournal
  try dsimp only
  repeat' first | (with_reducible first | assumption | apply keeps_modTsu) | split | (apply Eq.refl) | exact selfTrue | exact selfChans | exact selfAnd | intro _

theorem keeps_joinStream {sK : State} (s : State) (typ : BitVec 8) (off : Nat) (ws : List Word) (hK : sK.Keeps s) : sK.Keeps (State.joinStream s typ off ws) := by
  unfold State.joinStream
  try dsimp only
  repeat' first | (with_reducible first | assumption | apply keeps_modTsu) | split | (apply Eq.refl) | exact selfTrue | exact selfChans | exact selfAnd | intro _

theorem keeps_openJournal {sK : State} (s : State) (off : Nat) (data : List Word) (hK : sK.Keeps s) : sK.Keeps (State.openJournal s off data) := by
  unfold State.openJournal
  try dsimp only
  repeat' first | (with_reducible first | assumption | apply keeps_joinStream | apply keeps_modTsu) | split | (apply Eq.refl) | exact selfTrue | exact selfChans | exact selfAnd | intro _

theorem keeps_closeStream {sK : State} (s : State) (last : Bool) (hK : sK.Keeps s) : sK.Keeps (State.closeStream s last) := by
  unfold State.closeStream
  try dsimp only
  repeat' first | (with_reducible first | assumption | apply keeps_modTsu) | split | (apply Eq.refl) | exact selfTrue | exact selfChans | exact selfAnd | intro _

theorem keeps_feedFrames {sK : State} (s : State) (n : Nat) (hK : sK.Keeps s) : ResKeeps sK (s.feedFrames n) := by
  induction n generalizing s with
  | zero => exact resKeeps_next hK
  | succ n ih =>
    unfold State.feedFrames
    split
    · exact resKeeps_next hK
    dsimp only
    split
    · exact resKeeps_next hK
    split
    · exact ih _ (keepsN_takeFrame _ _ _ ‹_› (keeps_modTsu _ hK id))
    · exact keeps_takeFrame _ _ _ (keeps_modTsu _ hK id)

theorem keepsN_feedFrames {sK : State} (s : State) (n : Nat) {t' : State} (he : s.feedFrames n = .next t') (hK : sK.Keeps s) : sK.Keeps t' :=
  keeps_feedFrames s n hK t' he

theorem keeps_feedRecords {sK : State} (s : State) (n : Nat) (hK : sK.Keeps s) : sK.Keeps (s.feedRecords n) := by
  induction n generalizing s with
  | zero => exact hK
  | succ n ih =>
    unfold State.feedRecords
    split
    · exact hK
    dsimp only
    split
    · exact hK
    split
    · exact keeps_endJournal _ hK
    split
    · exact keeps_raiseChan _ _ _ _ (keeps_endJournal _ hK)
    split
    · exact keeps_endJournal _ hK
    · exact ih _ (keeps_emit _ (keeps_modTsu _ hK id))

theorem keeps_streamIn {sK : State} (s : State) (ws : List Word) (hK : sK.Keeps s) : ResKeeps sK (State.streamIn s ws) := by
  unfold State.streamIn
  try dsimp only
  repeat' first | (with_reducible first | assumption | apply keeps_askLoad | apply keeps_closeStream | apply keeps_emit | apply keeps_feedFrames | apply keeps_feedRecords | apply keeps_joinStream | apply keeps_openJournal | apply keeps_raiseFault | apply resKeeps_next | (apply keepsN_feedFrames; case' he => assumption)) | split | (apply Eq.refl) | exact selfTrue | exact selfChans | exact selfAnd | intro _

theorem keepsN_streamIn {sK : State} (s : State) (ws : List Word)  {t' : State} (he : (State.streamIn s ws) = .next t') (hK : sK.Keeps s) : sK.Keeps t' := keeps_streamIn s ws  hK t' he

theorem keeps_execRestoreStreamRx {sK : State} (words : List Word) (s : State) (hK : sK.Keeps s) : ResKeeps sK (execRestoreStreamRx words s) := by
  unfold execRestoreStreamRx
  try dsimp only
  repeat' first | (with_reducible first | assumption | apply keeps_consume | apply keeps_streamIn | apply resKeeps_next | (apply keepsN_streamIn; case' he => assumption)) | split | (apply Eq.refl) | exact selfTrue | exact selfChans | exact selfAnd | intro _

theorem keeps_wakeReported {sK : State} (s : State) (p : Nat) (hK : sK.Keeps s) : sK.Keeps (State.wakeReported s p) := by
  unfold State.wakeReported
  try dsimp only
  repeat' first | (with_reducible first | assumption | apply keeps_openRestore) | split | (apply Eq.refl) | exact selfTrue | exact selfChans | exact selfAnd | intro _

theorem keeps_execWakeReportRx {sK : State} (port : Nat) (words : List Word) (s : State) (hK : sK.Keeps s) : ResKeeps sK (execWakeReportRx port words s) := by
  unfold execWakeReportRx
  try dsimp only
  repeat' first | (with_reducible first | assumption | apply keeps_consume | apply keeps_wakeReported | apply resKeeps_next) | split | (apply Eq.refl) | exact selfTrue | exact selfChans | exact selfAnd | intro _

theorem keeps_atTop {sK : State} (s : State) (hd : Half) (j : BitVec 15) (words : List Word) (f : State → State) (h_f : ∀ x0, sK.Keeps x0 → sK.Keeps (f x0)) (hK : sK.Keeps s) : sK.Keeps (State.atTop s hd j words f) := by
  unfold State.atTop
  try dsimp only
  repeat' first | (with_reducible first | assumption | apply keeps_forwardCmd | apply keeps_post) | apply h_f | split | (apply Eq.refl) | exact selfTrue | exact selfChans | exact selfAnd | intro _

theorem keeps_noteRun {sK : State} (s : State) (j : BitVec 15) (run : BitVec 8) (t : Tick) (hK : sK.Keeps s) : sK.Keeps (State.noteRun s j run t) := by
  unfold State.noteRun
  try dsimp only
  repeat' first | (with_reducible first | assumption | apply keeps_modJup) | split | (apply Eq.refl) | exact selfTrue | exact selfChans | exact selfAnd | intro _

theorem keeps_runJobGroup {sK : State} (s : State) (h : Half) (members : List Target) (serves : BitVec 8 × BitVec 15 × List Word) (stages : List (Target × List StagedWrite)) (at_ : Tick) (hK : sK.Keeps s) : sK.Keeps (State.runJobGroup s h members serves stages at_) := by
  unfold State.runJobGroup
  try dsimp only
  repeat' first | (with_reducible first | assumption | apply keeps_modCoord | apply keeps_openGroup | apply keeps_post | apply keeps_runGroup | apply keeps_stageOut | apply keeps_foldl) | split | (apply Eq.refl) | exact selfTrue | exact selfChans | exact selfAnd | intro _

theorem keeps_resetPaths {sK : State} (s : State) (j : BitVec 15) (moves : List (BitVec 32)) (hK : sK.Keeps s) :
    sK.Keeps (State.resetPaths s j moves).2 := by
  unfold State.resetPaths
  split
  · exact hK
  suffices ∀ (l : List Nat) (a : List Half × State), sK.Keeps a.2 →
      sK.Keeps (l.foldl (fun a _ => (if a.2.fresh.1.getLsbD 63 then a.1 ++ [a.2.freePath a.2.fresh.1] else a.1, a.2.fresh.2)) a).2 from this _ _ hK
  intro l
  induction l with
  | nil => exact fun _ h => h
  | cons b l ih => exact fun a h => ih _ (keeps_fresh h)

theorem keepsE_resetPaths {sK : State} (s : State) (j : BitVec 15) (moves : List (BitVec 32)) {t' : State} {y' : List Half}
    (he : State.resetPaths s j moves = (y', t')) (hK : sK.Keeps s) : sK.Keeps t' := by
  have := keeps_resetPaths s j moves hK; rw [he] at this; exact this

theorem keeps_resetGroups {sK : State} (s : State) (hd : Half) (j : BitVec 15) (members targets : List Target) (ps : List Half) (hK : sK.Keeps s) : sK.Keeps (State.resetGroups s hd j members targets ps) := by
  unfold State.resetGroups
  try dsimp only
  repeat' first | (with_reducible first | assumption | apply keeps_runJobGroup | apply keeps_selfHandle | apply keeps_foldl | (apply keepsE_selfHandle; case' he => assumption)) | split | (apply Eq.refl) | exact selfTrue | exact selfChans | exact selfAnd | intro _

theorem keeps_runResetGroup {sK : State} (s : State) (hd : Half) (j : BitVec 15) (members : List Target) (serves : BitVec 8 × BitVec 15 × List Word) (stages other : List (Target × List StagedWrite)) (ps : List Half) (run : BitVec 8) (at_ : Tick) (hK : sK.Keeps s) : sK.Keeps (State.runResetGroup s hd j members serves stages other ps run at_) := by
  unfold State.runResetGroup
  try dsimp only
  repeat' first | (with_reducible first | assumption | apply keeps_noteRun | apply keeps_resetGroups | apply keeps_runJobGroup) | split | (apply Eq.refl) | exact selfTrue | exact selfChans | exact selfAnd | intro _

theorem keeps_startGroup {sK : State} (s : State) (hd : Half) (j : BitVec 15) (margin : BitVec 32) (override : Bool) (x : StartCheck) (hK : sK.Keeps s) : sK.Keeps (State.startGroup s hd j margin override x) := by
  unfold State.startGroup
  try dsimp only
  repeat' first | (with_reducible first | assumption | apply keeps_resetPaths | apply keeps_runResetGroup | (apply keepsE_resetPaths; case' he => assumption)) | split | (apply Eq.refl) | exact selfTrue | exact selfChans | exact selfAnd | intro _

theorem keeps_startHere {sK : State} (s0 : State) (hd : Half) (j : BitVec 15) (stage : Nat) (margin : BitVec 32) (override : Bool) (hK : sK.Keeps s0) : sK.Keeps (State.startHere s0 hd j stage margin override) := by
  unfold State.startHere
  try dsimp only
  repeat' first | (with_reducible first | assumption | apply keeps_fresh | apply keeps_post | apply keeps_startGroup | (apply keepsE_fresh; case' he => assumption)) | exact keeps_fresh hK | split | (apply Eq.refl) | exact selfTrue | exact selfChans | exact selfAnd | intro _

theorem keeps_execStartJob {sK : State} (h : Hdr) (job : BitVec 15) (stage : Nat) (margin : BitVec 32) (s : State) (hK : sK.Keeps s) : ResKeeps sK (execStartJob h job stage margin s) := by
  unfold execStartJob
  try dsimp only
  repeat' first | (with_reducible first | assumption | apply keeps_atTop | apply keeps_startHere | apply keeps_withHandle | apply resKeeps_next) | split | (apply Eq.refl) | exact selfTrue | exact selfChans | exact selfAnd | intro _

theorem keepsN_execStartJob {sK : State} (h : Hdr) (job : BitVec 15) (stage : Nat) (margin : BitVec 32) (s : State)  {t' : State} (he : (execStartJob h job stage margin s) = .next t') (hK : sK.Keeps s) : sK.Keeps t' := keeps_execStartJob h job stage margin s  hK t' he

theorem keeps_atActive {sK : State} (s : State) (hd : Half) (j : BitVec 15) (words : List Word) (f : State → State) (h_f : ∀ x0, sK.Keeps x0 → sK.Keeps (f x0)) (hK : sK.Keeps s) : sK.Keeps (State.atActive s hd j words f) := by
  unfold State.atActive
  try dsimp only
  repeat' first | (with_reducible first | assumption | apply keeps_atTop | apply keeps_forwardCmd) | apply h_f | split | (apply Eq.refl) | exact selfTrue | exact selfChans | exact selfAnd | intro _

theorem keeps_jobCommand {sK : State} (s : State) (hd : Half) (j : BitVec 15) (op : BitVec 8) (args results : List Word) (hK : sK.Keeps s) : sK.Keeps (State.jobCommand s hd j op args results) := by
  unfold State.jobCommand
  try dsimp only
  repeat' first | (with_reducible first | assumption | apply keeps_multicast | apply keeps_post) | split | (apply Eq.refl) | exact selfTrue | exact selfChans | exact selfAnd | intro _

theorem keeps_execHoldJob {sK : State} (h : Hdr) (job : BitVec 15) (step : BitVec 64) (s : State) (hK : sK.Keeps s) : ResKeeps sK (execHoldJob h job step s) := by
  unfold execHoldJob
  try dsimp only
  repeat' first | (with_reducible first | assumption | apply keeps_atActive | apply keeps_jobCommand | apply keeps_withHandle | apply resKeeps_next) | split | (apply Eq.refl) | exact selfTrue | exact selfChans | exact selfAnd | intro _

theorem keepsN_execHoldJob {sK : State} (h : Hdr) (job : BitVec 15) (step : BitVec 64) (s : State)  {t' : State} (he : (execHoldJob h job step s) = .next t') (hK : sK.Keeps s) : sK.Keeps t' := keeps_execHoldJob h job step s  hK t' he

theorem keeps_stretchTo {sK : State} (s : State) (hd : Half) (j : BitVec 15) (step : BitVec 64) (v : BitVec 20) (hK : sK.Keeps s) : sK.Keeps (State.stretchTo s hd j step v) := by
  unfold State.stretchTo
  try dsimp only
  repeat' first | (with_reducible first | assumption | apply keeps_jobCommand | apply keeps_setJobWord) | split | (apply Eq.refl) | exact selfTrue | exact selfChans | exact selfAnd | intro _

theorem keeps_execStretchJob {sK : State} (h : Hdr) (job : BitVec 15) (step : BitVec 64) (stretch : BitVec 20) (s : State) (hK : sK.Keeps s) : ResKeeps sK (execStretchJob h job step stretch s) := by
  unfold execStretchJob
  try dsimp only
  repeat' first | (with_reducible first | assumption | apply keeps_atActive | apply keeps_stretchTo | apply keeps_withHandle | apply resKeeps_next) | split | (apply Eq.refl) | exact selfTrue | exact selfChans | exact selfAnd | intro _

theorem keepsN_execStretchJob {sK : State} (h : Hdr) (job : BitVec 15) (step : BitVec 64) (stretch : BitVec 20) (s : State)  {t' : State} (he : (execStretchJob h job step stretch s) = .next t') (hK : sK.Keeps s) : sK.Keeps t' := keeps_execStretchJob h job step stretch s  hK t' he

theorem keeps_tearGroup {sK : State} (s : State) (hd : Half) (j : BitVec 15) (phase : Nat) (at_ : Tick) (hK : sK.Keeps s) : sK.Keeps (State.tearGroup s hd j phase at_) := by
  unfold State.tearGroup
  try dsimp only
  repeat' first | (with_reducible first | assumption | apply keeps_runJobGroup) | split | (apply Eq.refl) | exact selfTrue | exact selfChans | exact selfAnd | intro _

theorem keeps_execTeardownJob {sK : State} (h : Hdr) (job : BitVec 15) (s : State) (hK : sK.Keeps s) : ResKeeps sK (execTeardownJob h job s) := by
  unfold execTeardownJob
  try dsimp only
  repeat' first | (with_reducible first | assumption | apply keeps_atTop | apply keeps_tearGroup | apply keeps_withHandle | apply resKeeps_next) | split | (apply Eq.refl) | exact selfTrue | exact selfChans | exact selfAnd | intro _

theorem keepsN_execTeardownJob {sK : State} (h : Hdr) (job : BitVec 15) (s : State)  {t' : State} (he : (execTeardownJob h job s) = .next t') (hK : sK.Keeps s) : sK.Keeps t' := keeps_execTeardownJob h job s  hK t' he

theorem keeps_resumeHere {sK : State} (s : State) (hd : Half) (j : BitVec 15) (tick : Tick) (hK : sK.Keeps s) : sK.Keeps (State.resumeHere s hd j tick) := by
  unfold State.resumeHere
  try dsimp only
  repeat' first | (with_reducible first | assumption | apply keeps_post | apply keeps_resetPaths | apply keeps_runResetGroup | (apply keepsE_resetPaths; case' he => assumption)) | split | (apply Eq.refl) | exact selfTrue | exact selfChans | exact selfAnd | intro _

theorem keeps_budgetBars {sK : State} (s : State) (hd : Half) (j : BitVec 15) (f : State → State) (h_f : ∀ x0, sK.Keeps x0 → sK.Keeps (f x0)) (hK : sK.Keeps s) : sK.Keeps (State.budgetBars s hd j f) := by
  unfold State.budgetBars
  try dsimp only
  repeat' first | (with_reducible first | assumption | apply keeps_post) | apply h_f | split | (apply Eq.refl) | exact selfTrue | exact selfChans | exact selfAnd | intro _

theorem keeps_execResumeJob {sK : State} (h : Hdr) (job : BitVec 15) (tick : Tick) (s : State) (hK : sK.Keeps s) : ResKeeps sK (execResumeJob h job tick s) := by
  unfold execResumeJob
  try dsimp only
  repeat' first | (with_reducible first | assumption | apply keeps_atTop | apply keeps_budgetBars | apply keeps_resumeHere | apply keeps_withHandle | apply resKeeps_next) | split | (apply Eq.refl) | exact selfTrue | exact selfChans | exact selfAnd | intro _

theorem keepsN_execResumeJob {sK : State} (h : Hdr) (job : BitVec 15) (tick : Tick) (s : State)  {t' : State} (he : (execResumeJob h job tick s) = .next t') (hK : sK.Keeps s) : sK.Keeps t' := keeps_execResumeJob h job tick s  hK t' he

theorem keeps_remapGroup {sK : State} (s : State) (hd : Half) (j : BitVec 15) (ms : List Move) (serves : BitVec 8) (hK : sK.Keeps s) : sK.Keeps (State.remapGroup s hd j ms serves) := by
  unfold State.remapGroup
  try dsimp only
  repeat' first | (with_reducible first | assumption | apply keeps_resetPaths | apply keeps_runResetGroup | (apply keepsE_resetPaths; case' he => assumption)) | split | (apply Eq.refl) | exact selfTrue | exact selfChans | exact selfAnd | intro _

theorem keeps_execRemapRank {sK : State} (h : Hdr) (job : BitVec 15) (rank : BitVec 17) (path : BitVec 32) (channel : Fin 8) (s : State) (hK : sK.Keeps s) : ResKeeps sK (execRemapRank h job rank path channel s) := by
  unfold execRemapRank
  try dsimp only
  repeat' first | (with_reducible first | assumption | apply keeps_atTop | apply keeps_budgetBars | apply keeps_post | apply keeps_remapGroup | apply keeps_withHandle | apply resKeeps_next) | split | (apply Eq.refl) | exact selfTrue | exact selfChans | exact selfAnd | intro _

theorem keepsN_execRemapRank {sK : State} (h : Hdr) (job : BitVec 15) (rank : BitVec 17) (path : BitVec 32) (channel : Fin 8) (s : State)  {t' : State} (he : (execRemapRank h job rank path channel s) = .next t') (hK : sK.Keeps s) : sK.Keeps t' := keeps_execRemapRank h job rank path channel s  hK t' he

theorem keeps_quotaHere {sK : State} (s : State) (hd : Half) (j : BitVec 15) (bytes : BitVec 64) (hK : sK.Keeps s) : sK.Keeps (State.quotaHere s hd j bytes) := by
  unfold State.quotaHere
  try dsimp only
  repeat' first | (with_reducible first | assumption | apply keeps_post | apply keeps_send | apply keeps_setJobWord | apply keeps_setUsage) | split | (apply Eq.refl) | exact selfTrue | exact selfChans | exact selfAnd | intro _

theorem keeps_forwardAll {sK : State} (s : State) (h : Half) (ports : List Nat) (words : List Word) (hK : sK.Keeps s) : sK.Keeps (State.forwardAll s h ports words) := by
  unfold State.forwardAll
  try dsimp only
  repeat' first | (with_reducible first | assumption | apply keeps_modJup | apply keeps_sendAll) | split | (apply Eq.refl) | exact selfTrue | exact selfChans | exact selfAnd | intro _

theorem keeps_execSetQuota {sK : State} (h : Hdr) (job : BitVec 15) (bytes : BitVec 64) (s : State) (hK : sK.Keeps s) : ResKeeps sK (execSetQuota h job bytes s) := by
  unfold execSetQuota
  try dsimp only
  repeat' first | (with_reducible first | assumption | apply keeps_atTop | apply keeps_forwardAll | apply keeps_quotaHere | apply keeps_withHandle | apply resKeeps_next) | split | (apply Eq.refl) | exact selfTrue | exact selfChans | exact selfAnd | intro _

theorem keepsN_execSetQuota {sK : State} (h : Hdr) (job : BitVec 15) (bytes : BitVec 64) (s : State)  {t' : State} (he : (execSetQuota h job bytes s) = .next t') (hK : sK.Keeps s) : sK.Keeps t' := keeps_execSetQuota h job bytes s  hK t' he

theorem keeps_fenceAsked {sK : State} (s : State) (hd : Half) (p : Nat) (f : Fence) (hK : sK.Keeps s) : sK.Keeps (State.fenceAsked s hd p f) := by
  unfold State.fenceAsked
  try dsimp only
  repeat' first | (with_reducible first | assumption | apply keeps_afterCommit | apply keeps_post | apply keeps_settleFence | apply keeps_tick | (apply keepsE_afterCommit; case' he => assumption)) | split | (apply Eq.refl) | exact selfTrue | exact selfChans | exact selfAnd | intro _

theorem keeps_fenceCmd {sK : State} (s : State) (hd : Half) (p : Nat) (job : Option (BitVec 15)) (tick : Tick) (hK : sK.Keeps s) : sK.Keeps (State.fenceCmd s hd p job tick) := by
  unfold State.fenceCmd
  try dsimp only
  repeat' first | (with_reducible first | assumption | apply keeps_fenceAsked | apply keeps_modLink | apply keeps_post) | split | (apply Eq.refl) | exact selfTrue | exact selfChans | exact selfAnd | intro _

theorem keeps_fenceAt {sK : State} (s : State) (hd : Half) (path : BitVec 32) (job : Option (BitVec 15)) (tick : Tick) (hK : sK.Keeps s) : sK.Keeps (State.fenceAt s hd path job tick) := by
  unfold State.fenceAt
  try dsimp only
  repeat' first | (with_reducible first | assumption | apply keeps_fenceCmd | apply keeps_forwardCmd | apply keeps_post) | split | (apply Eq.refl) | exact selfTrue | exact selfChans | exact selfAnd | intro _

theorem keeps_execFence {sK : State} (h : Hdr) (path : BitVec 32) (job : Option (BitVec 15)) (tick : Tick) (s : State) (hK : sK.Keeps s) : ResKeeps sK (execFence h path job tick s) := by
  unfold execFence
  try dsimp only
  repeat' first | (with_reducible first | assumption | apply keeps_fenceAt | apply keeps_withHandle | apply resKeeps_next) | split | (apply Eq.refl) | exact selfTrue | exact selfChans | exact selfAnd | intro _

theorem keepsN_execFence {sK : State} (h : Hdr) (path : BitVec 32) (job : Option (BitVec 15)) (tick : Tick) (s : State)  {t' : State} (he : (execFence h path job tick s) = .next t') (hK : sK.Keeps s) : sK.Keeps t' := keeps_execFence h path job tick s  hK t' he

theorem keeps_loseRange {sK : State} (s : State) (b : BringIn) (hK : sK.Keeps s) : sK.Keeps (State.loseRange s b) := by
  unfold State.loseRange
  try dsimp only
  repeat' first | (with_reducible first | assumption | apply keeps_addLost | apply keeps_raiseFault | apply keeps_setBringIn | apply keeps_foldl) | split | (apply Eq.refl) | exact selfTrue | exact selfChans | exact selfAnd | intro _

theorem keeps_bringRestore {sK : State} (s : State) (b : BringIn) (path : BitVec 32) (sections : BitVec 3) (override : Bool) (hK : sK.Keeps s) : sK.Keeps (State.bringRestore s b path sections override) := by
  unfold State.bringRestore
  try dsimp only
  repeat' first | (with_reducible first | assumption | apply keeps_forwardCmd | apply keeps_openRestore) | split | (apply Eq.refl) | exact selfTrue | exact selfChans | exact selfAnd | intro _

theorem keeps_pickSecond {sK : State} (s0 : State) (b : BringIn) (override : Bool) (hK : sK.Keeps s0) : sK.Keeps (State.pickSecond s0 b override) := by
  unfold State.pickSecond
  try dsimp only
  repeat' first | (with_reducible first | assumption | apply keeps_bringRestore | apply keeps_fresh | apply keeps_setBringIn | (apply keepsE_fresh; case' he => assumption)) | exact keeps_fresh hK | split | (apply Eq.refl) | exact selfTrue | exact selfChans | exact selfAnd | intro _

theorem keeps_bringIn {sK : State} (s0 : State) (hd : Half) (j : BitVec 15) (rank : BitVec 17) (given : BitVec 32) (dual override : Bool) (hK : sK.Keeps s0) : sK.Keeps (State.bringIn s0 hd j rank given dual override) := by
  unfold State.bringIn
  try dsimp only
  repeat' first | (with_reducible first | assumption | apply keeps_bringRestore | apply keeps_fresh | apply keeps_modJup | apply keeps_pickSecond | apply keeps_post | apply keeps_raiseFault | (apply keepsE_fresh; case' he => assumption)) | exact keeps_fresh hK | split | (apply Eq.refl) | exact selfTrue | exact selfChans | exact selfAnd | intro _

theorem keeps_rerunBringIns {sK : State} (s : State) (j : BitVec 15) (ranks : List (BitVec 17)) (hK : sK.Keeps s) : sK.Keeps (State.rerunBringIns s j ranks) := by
  unfold State.rerunBringIns
  try dsimp only
  repeat' first | (with_reducible first | assumption | apply keeps_bringIn | apply keeps_selfHandle | apply keeps_foldl | (apply keepsE_selfHandle; case' he => assumption)) | split | (apply Eq.refl) | exact selfTrue | exact selfChans | exact selfAnd | intro _

theorem keeps_awaitSpares {sK : State} (s : State) (j : BitVec 15) (hK : sK.Keeps s) : sK.Keeps (State.awaitSpares s j) := by
  unfold State.awaitSpares
  try dsimp only
  repeat' first | (with_reducible first | assumption | apply keeps_modJup | apply keeps_noteRerun) | split | (apply Eq.refl) | exact selfTrue | exact selfChans | exact selfAnd | intro _

theorem keeps_tryRemap {sK : State} (s : State) (j : BitVec 15) (hK : sK.Keeps s) : sK.Keeps (State.tryRemap s j) := by
  unfold State.tryRemap
  try dsimp only
  repeat' first | (with_reducible first | assumption | apply keeps_awaitSpares | apply keeps_bringIn | apply keeps_dropBringIn | apply keeps_remapGroup | apply keeps_rerunBringIns) | split | (apply Eq.refl) | exact selfTrue | exact selfChans | exact selfAnd | intro _

theorem keeps_bringRestored {sK : State} (s : State) (b : BringIn) (hK : sK.Keeps s) : sK.Keeps (State.bringRestored s b) := by
  unfold State.bringRestored
  try dsimp only
  repeat' first | (with_reducible first | assumption | apply keeps_loseRange | apply keeps_setBringIn | apply keeps_tryRemap) | split | (apply Eq.refl) | exact selfTrue | exact selfChans | exact selfAnd | intro _

theorem keeps_noteOverride {sK : State} (s : State) (b : BringIn) (hK : sK.Keeps s) : sK.Keeps (State.noteOverride s b) := by
  unfold State.noteOverride
  try dsimp only
  repeat' first | (with_reducible first | assumption | apply keeps_fresh | apply keeps_setRepeat | (apply keepsE_fresh; case' he => assumption)) | exact keeps_fresh hK | split | (apply Eq.refl) | exact selfTrue | exact selfChans | exact selfAnd | intro _

theorem keeps_bringReady {sK : State} (s : State) (b : BringIn) (hK : sK.Keeps s) : sK.Keeps (State.bringReady s b) := by
  unfold State.bringReady
  try dsimp only
  repeat' first | (with_reducible first | assumption | apply keeps_setBringIn | apply keeps_tryRemap) | split | (apply Eq.refl) | exact selfTrue | exact selfChans | exact selfAnd | intro _

theorem keeps_toRecompute {sK : State} (s0 : State) (b : BringIn) (hK : sK.Keeps s0) : sK.Keeps (State.toRecompute s0 b) := by
  unfold State.toRecompute
  try dsimp only
  repeat' first | (with_reducible first | assumption | apply keeps_bringRestore | apply keeps_fresh | apply keeps_setBringIn | (apply keepsE_fresh; case' he => assumption)) | exact keeps_fresh hK | split | (apply Eq.refl) | exact selfTrue | exact selfChans | exact selfAnd | intro _

theorem keeps_execBringIn {sK : State} (h : Hdr) (job : BitVec 15) (rank : BitVec 17) (spare : BitVec 32) (dual : Bool) (s : State) (hK : sK.Keeps s) : ResKeeps sK (execBringIn h job rank spare dual s) := by
  unfold execBringIn
  try dsimp only
  repeat' first | (with_reducible first | assumption | apply keeps_atTop | apply keeps_bringIn | apply keeps_post | apply keeps_withHandle | apply resKeeps_next) | split | (apply Eq.refl) | exact selfTrue | exact selfChans | exact selfAnd | intro _

theorem keepsN_execBringIn {sK : State} (h : Hdr) (job : BitVec 15) (rank : BitVec 17) (spare : BitVec 32) (dual : Bool) (s : State)  {t' : State} (he : (execBringIn h job rank spare dual s) = .next t') (hK : sK.Keeps s) : sK.Keeps t' := keeps_execBringIn h job rank spare dual s  hK t' he

theorem keeps_restored {sK : State} (s : State) (p : Nat) (r : RestoreOp) (checkTick : Tick) (hK : sK.Keeps s) : sK.Keeps (State.restored s p r checkTick) := by
  unfold State.restored
  try dsimp only
  repeat' first | (with_reducible first | assumption | apply keeps_bringRestored | apply keeps_closeFlow | apply keeps_modJup | apply keeps_post | apply keeps_setHealth) | split | (apply Eq.refl) | exact selfTrue | exact selfChans | exact selfAnd | intro _

theorem keeps_execRestoreComplete {sK : State} (port : BitVec 7) (checkTick : Option Tick) (s : State) (hK : sK.Keeps s) : ResKeeps sK (execRestoreComplete port checkTick s) := by
  unfold execRestoreComplete
  try dsimp only
  repeat' first | (with_reducible first | assumption | apply keeps_due | apply keeps_failRestore | apply keeps_restored | apply resKeeps_next | (apply keepsN_due; case' he => assumption)) | split | (apply Eq.refl) | exact selfTrue | exact selfChans | exact selfAnd | intro _

theorem keeps_copyCompared {sK : State} (s : State) (b : BringIn) (same : Bool) (hK : sK.Keeps s) : sK.Keeps (State.copyCompared s b same) := by
  unfold State.copyCompared
  try dsimp only
  repeat' first | (with_reducible first | assumption | apply keeps_bringReady | apply keeps_fresh | apply keeps_setBringIn | apply keeps_toRecompute | (apply keepsE_fresh; case' he => assumption)) | exact keeps_fresh hK | split | (apply Eq.refl) | exact selfTrue | exact selfChans | exact selfAnd | intro _

theorem keeps_partnerLost {sK : State} (s : State) (p : Nat) (f : Fence) (hK : sK.Keeps s) : sK.Keeps (State.partnerLost s p f) := by
  unfold State.partnerLost
  try dsimp only
  repeat' first | (with_reducible first | assumption | apply keeps_fresh | apply keeps_setBringIn | apply keeps_toRecompute | apply keeps_foldl | (apply keepsE_fresh; case' he => assumption)) | exact keeps_fresh hK | split | (apply Eq.refl) | exact selfTrue | exact selfChans | exact selfAnd | intro _

theorem keeps_execFenceTick {sK : State} (port : Nat) (s : State) (hK : sK.Keeps s) : ResKeeps sK (execFenceTick port s) := by
  unfold execFenceTick
  try dsimp only
  repeat' first | (with_reducible first | assumption | apply keeps_beginFence | apply keeps_due | apply keeps_modLink | apply keeps_partnerLost | apply keeps_tick | apply keeps_foldl | apply resKeeps_next | (apply keepsN_due; case' he => assumption)) | split | (apply Eq.refl) | exact selfTrue | exact selfChans | exact selfAnd | intro _

theorem keeps_execCopyDigestCompare {sK : State} (job : BitVec 15) (rank : BitVec 17) (partner spare : Word) (s : State) (hK : sK.Keeps s) : ResKeeps sK (execCopyDigestCompare job rank partner spare s) := by
  unfold execCopyDigestCompare
  try dsimp only
  repeat' first | (with_reducible first | assumption | apply keeps_copyCompared | apply resKeeps_next) | split | (apply Eq.refl) | exact selfTrue | exact selfChans | exact selfAnd | intro _

theorem keeps_keepSpare {sK : State} (s : State) (b : BringIn) (path : BitVec 32) (unverified : Bool) (hK : sK.Keeps s) : sK.Keeps (State.keepSpare s b path unverified) := by
  unfold State.keepSpare
  try dsimp only
  repeat' first | (with_reducible first | assumption | apply keeps_bringReady | apply keeps_dieReset | apply keeps_emit | apply keeps_modJup | apply keeps_setBringIn) | split | (apply Eq.refl) | exact selfTrue | exact selfChans | exact selfAnd | intro _

theorem keeps_spareMatched {sK : State} (s : State) (b : BringIn) (path : BitVec 32) (unverified : Bool) (hK : sK.Keeps s) : sK.Keeps (State.spareMatched s b path unverified) := by
  unfold State.spareMatched
  try dsimp only
  repeat' first | (with_reducible first | assumption | apply keeps_keepSpare | apply keeps_setBringIn) | split | (apply Eq.refl) | exact selfTrue | exact selfChans | exact selfAnd | intro _

theorem keeps_settleMatches {sK : State} (s : State) (hK : sK.Keeps s) : sK.Keeps (State.settleMatches s) := by
  unfold State.settleMatches
  try dsimp only
  repeat' first | (with_reducible first | assumption | apply keeps_keepSpare | apply keeps_foldl) | split | (apply Eq.refl) | exact selfTrue | exact selfChans | exact selfAnd | intro _

theorem keeps_recomputed {sK : State} (s : State) (b : BringIn) (path : BitVec 32) (digest : Word) (hK : sK.Keeps s) : sK.Keeps (State.recomputed s b path digest) := by
  unfold State.recomputed
  try dsimp only
  repeat' first | (with_reducible first | assumption | apply keeps_bringReady | apply keeps_spareMatched) | split | (apply Eq.refl) | exact selfTrue | exact selfChans | exact selfAnd | intro _

theorem keeps_execRecomputeMatch {sK : State} (job : BitVec 15) (rank : BitVec 17) (spare : BitVec 32) (digest : Word) (s : State) (hK : sK.Keeps s) : ResKeeps sK (execRecomputeMatch job rank spare digest s) := by
  unfold execRecomputeMatch
  try dsimp only
  repeat' first | (with_reducible first | assumption | apply keeps_recomputed | apply resKeeps_next) | split | (apply Eq.refl) | exact selfTrue | exact selfChans | exact selfAnd | intro _

theorem keeps_execRecomputeLimit {sK : State} (job : BitVec 15) (rank : BitVec 17) (s : State) (hK : sK.Keeps s) : ResKeeps sK (execRecomputeLimit job rank s) := by
  unfold execRecomputeLimit
  try dsimp only
  repeat' first | (with_reducible first | assumption | apply keeps_loseRange | apply keeps_raiseFault | apply keeps_tryRemap | apply resKeeps_next) | split | (apply Eq.refl) | exact selfTrue | exact selfChans | exact selfAnd | intro _

theorem keeps_replayRank {sK : State} (s : State) (p : Nat) (j : BitVec 15) (rank : BitVec 17) (n : BitVec 64) (hK : sK.Keeps s) : sK.Keeps (State.replayRank s p j rank n) := by
  unfold State.replayRank
  try dsimp only
  repeat' first | (with_reducible first | assumption | apply keeps_streamSection) | split | (apply Eq.refl) | exact selfTrue | exact selfChans | exact selfAnd | intro _

theorem keeps_replayJob {sK : State} (s : State) (j : BitVec 15) (n : BitVec 64) (hK : sK.Keeps s) : sK.Keeps (State.replayJob s j n) := by
  unfold State.replayJob
  try dsimp only
  repeat' first | (with_reducible first | assumption | apply keeps_replayRank | apply keeps_foldl) | split | (apply Eq.refl) | exact selfTrue | exact selfChans | exact selfAnd | intro _

theorem keeps_clearRerun {sK : State} (s : State) (j : BitVec 15) (hK : sK.Keeps s) : sK.Keeps (State.clearRerun s j) := by
  unfold State.clearRerun
  try dsimp only
  repeat' first | (with_reducible first | assumption | apply keeps_modStage) | split | (apply Eq.refl) | exact selfTrue | exact selfChans | exact selfAnd | intro _

theorem keeps_rerunResume {sK : State} (s : State) (j : BitVec 15) (counted : Bool) (hK : sK.Keeps s) : sK.Keeps (State.rerunResume s j counted) := by
  unfold State.rerunResume
  try dsimp only
  repeat' first | (with_reducible first | assumption | apply keeps_clearRerun | apply keeps_raiseFault | apply keeps_resumeHere | apply keeps_selfHandle | apply keeps_setJobWord | (apply keepsE_selfHandle; case' he => assumption)) | split | (apply Eq.refl) | exact selfTrue | exact selfChans | exact selfAnd | intro _

theorem keeps_rerunHere {sK : State} (s : State) (j : BitVec 15) (n : BitVec 64) (hK : sK.Keeps s) : sK.Keeps (State.rerunHere s j n) := by
  unfold State.rerunHere
  try dsimp only
  repeat' first | (with_reducible first | assumption | apply keeps_awaitSpares | apply keeps_clearRerun | apply keeps_replayJob | apply keeps_rerunBringIns | apply keeps_rerunResume) | split | (apply Eq.refl) | exact selfTrue | exact selfChans | exact selfAnd | intro _

theorem keeps_execJobRerun {sK : State} (job : BitVec 15) (s : State) (hK : sK.Keeps s) : ResKeeps sK (execJobRerun job s) := by
  unfold execJobRerun
  try dsimp only
  repeat' first | (with_reducible first | assumption | apply keeps_due | apply keeps_rerunHere | apply resKeeps_next | (apply keepsN_due; case' he => assumption)) | split | (apply Eq.refl) | exact selfTrue | exact selfChans | exact selfAnd | intro _

theorem keeps_endGroup {sK : State} (s : State) (d : Dev) (h : Half) (hK : sK.Keeps s) : sK.Keeps (State.endGroup s d h) := by
  unfold State.endGroup
  try dsimp only
  repeat' first | (with_reducible first | assumption | apply keeps_dropCoord | apply keeps_dropGroup) | split | (apply Eq.refl) | exact selfTrue | exact selfChans | exact selfAnd | intro _

theorem keeps_startPosted {sK : State} (s : State) (h : Half) (j : BitVec 15) (args : List Word) (tc : Tick) (hK : sK.Keeps s) : sK.Keeps (State.startPosted s h j args tc) := by
  unfold State.startPosted
  try dsimp only
  repeat' first | (with_reducible first | assumption | apply keeps_jobCommand | apply keeps_setJobWord | apply keeps_setRepeat) | split | (apply Eq.refl) | exact selfTrue | exact selfChans | exact selfAnd | intro _

theorem keeps_tearFence {sK : State} (s : State) (j : BitVec 15) (path : BitVec 32) (hK : sK.Keeps s) : sK.Keeps (State.tearFence s j path).1 := by
  unfold State.tearFence
  try dsimp only
  repeat' first | (with_reducible first | assumption | apply keeps_afterCommit | apply keeps_fresh | apply keeps_send | apply keeps_settleFence | apply keeps_tick | (apply keepsE_afterCommit; case' he => assumption) | (apply keepsE_fresh; case' he => assumption)) | exact keeps_fresh hK | split | (apply Eq.refl) | exact selfTrue | exact selfChans | exact selfAnd | intro _

theorem keeps_tearFences {sK : State} (s : State) (j : BitVec 15) (paths : List (BitVec 32)) (hK : sK.Keeps s) : sK.Keeps (State.tearFences s j paths).1 := by
  unfold State.tearFences
  suffices ∀ (l : List (BitVec 32)) (a : State × Tick), sK.Keeps a.1 →
      sK.Keeps (l.foldl (fun a p => let b := a.1.tearFence j p; (b.1, if a.2 < b.2 then b.2 else a.2)) a).1 from this _ _ hK
  intro l
  induction l with
  | nil => exact fun _ h => h
  | cons b l ih => exact fun a h => ih _ (keeps_tearFence _ _ _ h)

theorem keeps_tearAborted {sK : State} (s : State) (g : CoordGroup) (j : BitVec 15) (phase : Nat) (status : BitVec 8) (w4 : Word) (hK : sK.Keeps s) : sK.Keeps (State.tearAborted s g j phase status w4) := by
  unfold State.tearAborted
  try dsimp only
  repeat' first | (with_reducible first | assumption | apply keeps_endGroup | apply keeps_modCoord | apply keeps_post | apply keeps_tearFences | apply keeps_tearGroup | (apply keepsE_tearFences; case' he => assumption)) | split | (apply Eq.refl) | exact selfTrue | exact selfChans | exact selfAnd | intro _

theorem keeps_tearPosted {sK : State} (s : State) (h : Half) (j : BitVec 15) (phase : Nat) (tc : Tick) (repeat_ : Word) (hK : sK.Keeps s) : sK.Keeps (State.tearPosted s h j phase tc repeat_) := by
  unfold State.tearPosted
  try dsimp only
  repeat' first | (with_reducible first | assumption | apply keeps_post | apply keeps_tearGroup) | split | (apply Eq.refl) | exact selfTrue | exact selfChans | exact selfAnd | intro _

theorem keeps_bringPosted {sK : State} (s : State) (j : BitVec 15) (status : BitVec 8) (tc : Tick) (hK : sK.Keeps s) : sK.Keeps (State.bringPosted s j status tc) := by
  unfold State.bringPosted
  try dsimp only
  repeat' first | (with_reducible first | assumption | apply keeps_bringAgain | apply keeps_clearRerun | apply keeps_dropBringIn | apply keeps_post | apply keeps_foldl) | split | (apply Eq.refl) | exact selfTrue | exact selfChans | exact selfAnd | intro _

theorem keeps_servePosted {sK : State} (s : State) (h : Half) (op : BitVec 8) (j : BitVec 15) (args : List Word) (tc : Tick) (repeat_ : Word) (hK : sK.Keeps s) : sK.Keeps (State.servePosted s h op j args tc repeat_) := by
  unfold State.servePosted
  try dsimp only
  repeat' first | (with_reducible first | assumption | apply keeps_bringPosted | apply keeps_clearRerun | apply keeps_modJup | apply keeps_post | apply keeps_startPosted | apply keeps_tearPosted) | split | (apply Eq.refl) | exact selfTrue | exact selfChans | exact selfAnd | intro _

theorem keeps_serveAgain {sK : State} (s : State) (h : Half) (op : BitVec 8) (j : BitVec 15) (args : List Word) (hK : sK.Keeps s) : sK.Keeps (State.serveAgain s h op j args) := by
  unfold State.serveAgain
  try dsimp only
  repeat' first | (with_reducible first | assumption | apply keeps_remapGroup | apply keeps_resumeHere | apply keeps_startGroup | apply keeps_tryRemap) | split | (apply Eq.refl) | exact selfTrue | exact selfChans | exact selfAnd | intro _

theorem keeps_serveAborted {sK : State} (s : State) (g : CoordGroup) (op : BitVec 8) (j : BitVec 15) (args : List Word) (status : BitVec 8) (w4 : Word) (hK : sK.Keeps s) : sK.Keeps (State.serveAborted s g op j args status w4) := by
  unfold State.serveAborted
  try dsimp only
  repeat' first | (with_reducible first | assumption | apply keeps_abortCoord | apply keeps_bringAgain | apply keeps_bringPosted | apply keeps_endGroup | apply keeps_post | apply keeps_serveAgain | apply keeps_tearAborted) | split | (apply Eq.refl) | exact selfTrue | exact selfChans | exact selfAnd | intro _

theorem keeps_noteResets {sK : State} (s : State) (g : CoordGroup) (hK : sK.Keeps s) : sK.Keeps (State.noteResets s g) := by
  unfold State.noteResets
  try dsimp only
  repeat' first | (with_reducible first | assumption | apply keeps_modJup) | split | (apply Eq.refl) | exact selfTrue | exact selfChans | exact selfAnd | intro _

theorem keeps_postCommitted {sK : State} (s : State) (d : Dev) (g : CoordGroup) (hK : sK.Keeps s) : sK.Keeps (State.postCommitted s d g) := by
  unfold State.postCommitted
  try dsimp only
  repeat' first | (with_reducible first | assumption | apply keeps_bringPosted | apply keeps_endGroup | apply keeps_noteResets | apply keeps_post | apply keeps_servePosted) | split | (apply Eq.refl) | exact selfTrue | exact selfChans | exact selfAnd | intro _

theorem keeps_execCgPost {sK : State} (d : Dev) (handle : Half) (s : State) (hK : sK.Keeps s) : ResKeeps sK (execCgPost d handle s) := by
  unfold execCgPost
  try dsimp only
  repeat' first | (with_reducible first | assumption | apply keeps_due | apply keeps_postCommitted | apply keeps_serveAborted | apply resKeeps_next | (apply keepsN_due; case' he => assumption)) | split | (apply Eq.refl) | exact selfTrue | exact selfChans | exact selfAnd | intro _

theorem keeps_selfCommand {sK : State} (s : State) (j : BitVec 15) (op : BitVec 8) (f : Half → State → State) (h_f : ∀ x0 x1, sK.Keeps x1 → sK.Keeps (f x0 x1)) (hK : sK.Keeps s) : sK.Keeps (State.selfCommand s j op f) := by
  unfold State.selfCommand
  try dsimp only
  repeat' first | (with_reducible first | assumption | apply keeps_selfHandle | (apply keepsE_selfHandle; case' he => assumption)) | apply h_f | split | (apply Eq.refl) | exact selfTrue | exact selfChans | exact selfAnd | intro _

theorem keeps_applyBudget {sK : State} (s : State) (j : BitVec 15) (v : Nat) (hold : Bool) (hK : sK.Keeps s) : sK.Keeps (State.applyBudget s j v hold) := by
  unfold State.applyBudget
  try dsimp only
  repeat' first | (with_reducible first | assumption | apply keeps_jobCommand | apply keeps_modJup | apply keeps_raiseFault | apply keeps_resumeHere | apply keeps_selfCommand | apply keeps_stretchTo | apply keeps_tryRemap) | split | (apply Eq.refl) | exact selfTrue | exact selfChans | exact selfAnd | intro _

theorem keeps_writeBudget {sK : State} (s : State) (j : BitVec 15) (watts : Half) (hK : sK.Keeps s) : sK.Keeps (State.writeBudget s j watts) := by
  unfold State.writeBudget
  try dsimp only
  repeat' first | (with_reducible first | assumption | apply keeps_applyBudget | apply keeps_setJobWord) | split | (apply Eq.refl) | exact selfTrue | exact selfChans | exact selfAnd | intro _

theorem keeps_execBudgetWrite {sK : State} (job : BitVec 15) (watts : Half) (s : State) (hK : sK.Keeps s) : ResKeeps sK (execBudgetWrite job watts s) := by
  unfold execBudgetWrite
  try dsimp only
  repeat' first | (with_reducible first | assumption | apply keeps_writeBudget | apply resKeeps_next) | split | (apply Eq.refl) | exact selfTrue | exact selfChans | exact selfAnd | intro _

theorem keepsN_execBudgetWrite {sK : State} (job : BitVec 15) (watts : Half) (s : State)  {t' : State} (he : (execBudgetWrite job watts s) = .next t') (hK : sK.Keeps s) : sK.Keeps t' := keeps_execBudgetWrite job watts s  hK t' he

theorem keeps_opTimeout {sK : State} (s : State) (i : Nat) (e : TrackEntry) (hK : sK.Keeps s) : sK.Keeps (State.opTimeout s i e) := by
  unfold State.opTimeout
  try dsimp only
  repeat' first | (with_reducible first | assumption | apply keeps_failRestore | apply keeps_modJup | apply keeps_post | apply keeps_raiseFault) | split | (apply Eq.refl) | exact selfTrue | exact selfChans | exact selfAnd | intro _

theorem keeps_stageTimeout {sK : State} (s : State) (g : Nat) (e : TrackEntry) (hK : sK.Keeps s) : sK.Keeps (State.stageTimeout s g e) := by
  unfold State.stageTimeout
  try dsimp only
  repeat' first | (with_reducible first | assumption | apply keeps_failOne | apply keeps_failVote | apply keeps_raiseFault | apply keeps_retryGates) | split | (apply Eq.refl) | exact selfTrue | exact selfChans | exact selfAnd | intro _

theorem keeps_execJpOpTimeout {sK : State} (entry : BitVec 16) (s : State) (hK : sK.Keeps s) : ResKeeps sK (execJpOpTimeout entry s) := by
  unfold execJpOpTimeout
  try dsimp only
  repeat' first | (with_reducible first | assumption | apply keeps_due | apply keeps_opTimeout | apply keeps_stageTimeout | apply resKeeps_next | (apply keepsN_due; case' he => assumption)) | split | (apply Eq.refl) | exact selfTrue | exact selfChans | exact selfAnd | intro _

theorem keeps_forwardEnds {sK : State} (s : State) (f : Forward) (op : BitVec 8) (hK : sK.Keeps s) : sK.Keeps (State.forwardEnds s f op) := by
  unfold State.forwardEnds
  try dsimp only
  repeat' first | (with_reducible first | assumption | apply keeps_bringFails | apply keeps_bringRestored | apply keeps_modJup | apply keeps_noteOverride | apply keeps_post | apply keeps_send) | split | (apply Eq.refl) | exact selfTrue | exact selfChans | exact selfAnd | intro _

theorem keeps_answered {sK : State} (s : State) (h : Half) (port : Nat) (op st : BitVec 8) (results : List Word) (hK : sK.Keeps s) : sK.Keeps (State.answered s h port op st results) := by
  unfold State.answered
  try dsimp only
  repeat' first | (with_reducible first | assumption | apply keeps_forwardEnds | apply keeps_modJup) | split | (apply Eq.refl) | exact selfTrue | exact selfChans | exact selfAnd | intro _

theorem keeps_completionIn {sK : State} (s : State) (port : Nat) (ws : List Word) (hK : sK.Keeps s) : sK.Keeps (State.completionIn s port ws) := by
  unfold State.completionIn
  try dsimp only
  repeat' first | (with_reducible first | assumption | apply keeps_answered) | split | (apply Eq.refl) | exact selfTrue | exact selfChans | exact selfAnd | intro _

theorem keeps_execCompletionMsgRx {sK : State} (port : Nat) (words : List Word) (s : State) (hK : sK.Keeps s) : ResKeeps sK (execCompletionMsgRx port words s) := by
  unfold execCompletionMsgRx
  try dsimp only
  repeat' first | (with_reducible first | assumption | apply keeps_completionIn | apply keeps_consume | apply resKeeps_next) | split | (apply Eq.refl) | exact selfTrue | exact selfChans | exact selfAnd | intro _

theorem keeps_shutterAnswer {sK : State} (s : State) (d : Dev) (id : BitVec 16) (h : Half) (link : Nat) (latched : Bool) (hK : sK.Keeps s) : sK.Keeps (State.shutterAnswer s d id h link latched) := by
  unfold State.shutterAnswer
  try dsimp only
  repeat' first | (with_reducible first | assumption | apply keeps_answered | apply keeps_send) | split | (apply Eq.refl) | exact selfTrue | exact selfChans | exact selfAnd | intro _

theorem keeps_shutterOn {sK : State} (s : State) (h : Half) (from_ : Nat) (words : List Word) (hK : sK.Keeps s) : sK.Keeps (State.shutterOn s h from_ words) := by
  unfold State.shutterOn
  try dsimp only
  repeat' first | (with_reducible first | assumption | apply keeps_modJup | apply keeps_sendAll) | split | (apply Eq.refl) | exact selfTrue | exact selfChans | exact selfAnd | intro _

theorem keeps_shutterWait {sK : State} (s : State) (d : Dev) (id : BitVec 16) (set : BitVec 4) (tick : Tick) (h : Half) (link : Nat) (hK : sK.Keeps s) : sK.Keeps (State.shutterWait s d id set tick h link) := by
  unfold State.shutterWait
  try dsimp only
  repeat' first | (with_reducible first | assumption | apply keeps_modShut | apply keeps_shutterAnswer) | split | (apply Eq.refl) | exact selfTrue | exact selfChans | exact selfAnd | intro _

theorem keeps_noteShutter {sK : State} (s : State) (d : Dev) (id : BitVec 16) (hK : sK.Keeps s) : sK.Keeps (State.noteShutter s d id) := by
  unfold State.noteShutter
  try dsimp only
  repeat' first | (with_reducible first | assumption | apply keeps_modShut) | split | (apply Eq.refl) | exact selfTrue | exact selfChans | exact selfAnd | intro _

theorem keeps_shutterMaster {sK : State} (s : State) (hd : Half) (tick : Tick) (set : BitVec 4) (hK : sK.Keeps s) : sK.Keeps (State.shutterMaster s hd tick set) := by
  unfold State.shutterMaster
  try dsimp only
  repeat' first | (with_reducible first | assumption | apply keeps_modShut | apply keeps_noteShutter | apply keeps_shutterOn | apply keeps_shutterWait | apply resKeeps_next) | split | (apply Eq.refl) | exact selfTrue | exact selfChans | exact selfAnd | intro _

theorem keeps_execShutter {sK : State} (h : Hdr) (tick : Tick) (set : BitVec 4) (s : State) (hK : sK.Keeps s) : ResKeeps sK (execShutter h tick set s) := by
  unfold execShutter
  try dsimp only
  repeat' first | (with_reducible first | assumption | apply keeps_forwardCmd | apply keeps_post | apply keeps_shutterMaster | apply keeps_withHandle | apply resKeeps_next) | split | (apply Eq.refl) | exact selfTrue | exact selfChans | exact selfAnd | intro _

theorem keepsN_execShutter {sK : State} (h : Hdr) (tick : Tick) (set : BitVec 4) (s : State)  {t' : State} (he : (execShutter h tick set s) = .next t') (hK : sK.Keeps s) : sK.Keeps t' := keeps_execShutter h tick set s  hK t' he

theorem keeps_shutterAgain {sK : State} (s : State) (d : Dev) (link : Nat) (id : BitVec 16) (h : Half) (hK : sK.Keeps s) : sK.Keeps (State.shutterAgain s d link id h) := by
  unfold State.shutterAgain
  try dsimp only
  repeat' first | (with_reducible first | assumption | apply keeps_send) | split | (apply Eq.refl) | exact selfTrue | exact selfChans | exact selfAnd | intro _

theorem keeps_stampShutter {sK : State} (s : State) (d : Dev) (hK : sK.Keeps s) : sK.Keeps (State.stampShutter s d) := by
  unfold State.stampShutter
  try dsimp only
  repeat' first | (with_reducible first | assumption | apply keeps_fresh | apply keeps_modShut | (apply keepsE_fresh; case' he => assumption)) | exact keeps_fresh hK | split | (apply Eq.refl) | exact selfTrue | exact selfChans | exact selfAnd | intro _

theorem keeps_shutterIn {sK : State} (s : State) (d : Dev) (link : Nat) (ws : List Word) (hK : sK.Keeps s) : sK.Keeps (State.shutterIn s d link ws) := by
  unfold State.shutterIn
  try dsimp only
  repeat' first | (with_reducible first | assumption | apply keeps_noteShutter | apply keeps_shutterAgain | apply keeps_shutterOn | apply keeps_shutterWait | apply keeps_stampShutter) | split | (apply Eq.refl) | exact selfTrue | exact selfChans | exact selfAnd | intro _

theorem keeps_execShutterRx {sK : State} (d : Dev) (link : Nat) (words : List Word) (s : State) (hK : sK.Keeps s) : ResKeeps sK (execShutterRx d link words s) := by
  unfold execShutterRx
  try dsimp only
  repeat' first | (with_reducible first | assumption | apply keeps_consume | apply keeps_shutterIn | apply resKeeps_next) | split | (apply Eq.refl) | exact selfTrue | exact selfChans | exact selfAnd | intro _

theorem keeps_freeWords {sK : State} (n : Nat) (s : State) (hK : sK.Keeps s) : sK.Keeps (s.freeWords n).2 := by
  induction n generalizing s with
  | zero => exact hK
  | succ n ih => exact ih _ (keeps_fresh hK)

theorem keeps_plateBlock {sK : State} (s : State) (d : Dev) (b : Nat) (hK : sK.Keeps s) : sK.Keeps (State.plateBlock s d b).2 := by
  unfold State.plateBlock
  try dsimp only
  repeat' first | (with_reducible first | assumption | apply keeps_freeWords) | split | (apply Eq.refl) | exact selfTrue | exact selfChans | exact selfAnd | intro _

theorem keeps_plateBlocks {sK : State} (d : Dev) (l : List Nat) (s : State) (hK : sK.Keeps s) : sK.Keeps (State.plateBlocks d l s).2 := by
  induction l generalizing s with
  | nil => exact hK
  | cons b l ih => exact ih _ (keeps_plateBlock _ _ _ hK)

theorem keeps_makePlate {sK : State} (s : State) (d : Dev) (id : BitVec 16) (set : BitVec 4) (tick : Tick) (hK : sK.Keeps s) : sK.Keeps (State.makePlate s d id set tick).2 := by
  unfold State.makePlate
  try dsimp only
  repeat' first | (with_reducible first | assumption | apply keeps_plateBlocks) | split | (apply Eq.refl) | exact selfTrue | exact selfChans | exact selfAnd | intro _

theorem keepsE_makePlate {sK : State} (s : State) (d : Dev) (id : BitVec 16) (set : BitVec 4) (tick : Tick)  {t' : State} {y' : Plate} (he : (State.makePlate s d id set tick) = (y', t')) (hK : sK.Keeps s) : sK.Keeps t' := by have := keeps_makePlate s d id set tick  hK; rw [he] at this; exact this

theorem keeps_latchOne {sK : State} (s : State) (d : Dev) (e : BitVec 16 × BitVec 4 × Tick × Half × Nat) (hK : sK.Keeps s) : sK.Keeps (State.latchOne s d e) := by
  unfold State.latchOne
  try dsimp only
  repeat' first | (with_reducible first | assumption | apply keeps_emit | apply keeps_makePlate | apply keeps_modShut | apply keeps_shutterAnswer | (apply keepsE_makePlate; case' he => assumption)) | split | (apply Eq.refl) | exact selfTrue | exact selfChans | exact selfAnd | intro _

theorem keeps_execShutterLatch {sK : State} (d : Dev) (s : State) (hK : sK.Keeps s) : ResKeeps sK (execShutterLatch d s) := by
  unfold execShutterLatch
  try dsimp only
  repeat' first | (with_reducible first | assumption | apply keeps_latchOne | apply keeps_foldl | apply resKeeps_next) | split | (apply Eq.refl) | exact selfTrue | exact selfChans | exact selfAnd | intro _

theorem keeps_execReadPlate {sK : State} (d : Dev) (h : Hdr) (archived : Option (BitVec 32)) (set : BitVec 4) (block : BitVec 8) (addr : BitVec 48) (s : State) (hK : sK.Keeps s) : ResKeeps sK (execReadPlate d h archived set block addr s) := by
  unfold execReadPlate
  try dsimp only
  repeat' first | (with_reducible first | assumption | apply keeps_emit | apply keeps_post | apply keeps_withHandle | apply resKeeps_next) | split | (apply Eq.refl) | exact selfTrue | exact selfChans | exact selfAnd | intro _

theorem keepsN_execReadPlate {sK : State} (d : Dev) (h : Hdr) (archived : Option (BitVec 32)) (set : BitVec 4) (block : BitVec 8) (addr : BitVec 48) (s : State)  {t' : State} (he : (execReadPlate d h archived set block addr s) = .next t') (hK : sK.Keeps s) : sK.Keeps t' := keeps_execReadPlate d h archived set block addr s  hK t' he

theorem keeps_flashCopy {sK : State} (s : State) (copy : Bool) (hK : sK.Keeps s) : sK.Keeps (State.flashCopy s copy).2 := by
  unfold State.flashCopy
  try dsimp only
  repeat' first | (with_reducible first | assumption | apply keeps_freeWords) | split | (apply Eq.refl) | exact selfTrue | exact selfChans | exact selfAnd | intro _

theorem keepsE_flashCopy {sK : State} (s : State) (copy : Bool)  {t' : State} {y' : List Word} (he : (State.flashCopy s copy) = (y', t')) (hK : sK.Keeps s) : sK.Keeps t' := by have := keeps_flashCopy s copy  hK; rw [he] at this; exact this

theorem keeps_setFlash {sK : State} (s : State) (copy : Bool) (ws : List Word) (hK : sK.Keeps s) : sK.Keeps (State.setFlash s copy ws) := by
  unfold State.setFlash
  try dsimp only
  repeat' first | (with_reducible first | assumption | apply keeps_modJup) | split | (apply Eq.refl) | exact selfTrue | exact selfChans | exact selfAnd | intro _

theorem keeps_flashDone {sK : State} (s : State) (copy : Bool) (op : Nat) (err : BitVec 2) (hK : sK.Keeps s) : sK.Keeps (State.flashDone s copy op err) := by
  unfold State.flashDone
  try dsimp only
  repeat' first | (with_reducible first | assumption | apply keeps_modJup) | split | (apply Eq.refl) | exact selfTrue | exact selfChans | exact selfAnd | intro _

theorem keeps_readFlash {sK : State} (s : State) (copy : Bool) (hK : sK.Keeps s) : sK.Keeps (State.readFlash s copy) := by
  unfold State.readFlash
  try dsimp only
  repeat' first | (with_reducible first | assumption | apply keeps_flashCopy | apply keeps_flashDone | apply keeps_setFlash | apply keeps_setReg64 | apply keeps_foldl | (apply keepsE_flashCopy; case' he => assumption)) | split | (apply Eq.refl) | exact selfTrue | exact selfChans | exact selfAnd | intro _

theorem keeps_execFlashRead {sK : State} (copy : Bool) (s : State) (hK : sK.Keeps s) : ResKeeps sK (execFlashRead copy s) := by
  unfold execFlashRead
  try dsimp only
  repeat' first | (with_reducible first | assumption | apply keeps_readFlash | apply resKeeps_next) | split | (apply Eq.refl) | exact selfTrue | exact selfChans | exact selfAnd | intro _

theorem keepsN_execFlashRead {sK : State} (copy : Bool) (s : State)  {t' : State} (he : (execFlashRead copy s) = .next t') (hK : sK.Keeps s) : sK.Keeps t' := keeps_execFlashRead copy s  hK t' he

theorem keeps_eraseFlash {sK : State} (s : State) (copy : Bool) (hK : sK.Keeps s) : sK.Keeps (State.eraseFlash s copy) := by
  unfold State.eraseFlash
  try dsimp only
  repeat' first | (with_reducible first | assumption | apply keeps_flashDone | apply keeps_setFlash) | split | (apply Eq.refl) | exact selfTrue | exact selfChans | exact selfAnd | intro _

theorem keeps_execFlashErase {sK : State} (copy : Bool) (s : State) (hK : sK.Keeps s) : ResKeeps sK (execFlashErase copy s) := by
  unfold execFlashErase
  try dsimp only
  repeat' first | (with_reducible first | assumption | apply keeps_eraseFlash | apply resKeeps_next) | split | (apply Eq.refl) | exact selfTrue | exact selfChans | exact selfAnd | intro _

theorem keepsN_execFlashErase {sK : State} (copy : Bool) (s : State)  {t' : State} (he : (execFlashErase copy s) = .next t') (hK : sK.Keeps s) : sK.Keeps t' := keeps_execFlashErase copy s  hK t' he

theorem keeps_programFlash {sK : State} (s : State) (copy : Bool) (hK : sK.Keeps s) : sK.Keeps (State.programFlash s copy) := by
  unfold State.programFlash
  try dsimp only
  repeat' first | (with_reducible first | assumption | apply keeps_flashCopy | apply keeps_flashDone | apply keeps_setFlash | (apply keepsE_flashCopy; case' he => assumption)) | split | (apply Eq.refl) | exact selfTrue | exact selfChans | exact selfAnd | intro _

theorem keeps_execFlashProgram {sK : State} (copy : Bool) (s : State) (hK : sK.Keeps s) : ResKeeps sK (execFlashProgram copy s) := by
  unfold execFlashProgram
  try dsimp only
  repeat' first | (with_reducible first | assumption | apply keeps_programFlash | apply resKeeps_next) | split | (apply Eq.refl) | exact selfTrue | exact selfChans | exact selfAnd | intro _

theorem keepsN_execFlashProgram {sK : State} (copy : Bool) (s : State)  {t' : State} (he : (execFlashProgram copy s) = .next t') (hK : sK.Keeps s) : sK.Keeps t' := keeps_execFlashProgram copy s  hK t' he

theorem strapRegs_ok (v : BitVec 8) (f : BitVec 24) : tok (regReset .jup) none (strapRegs v f) = true :=
  tok_tset _ _ _ _ _ (tok_tset _ _ _ _ _ rfl (fun l hl => by cases hl)) (fun l hl => by cases hl)

theorem keeps_jupPowerOn {sK : State} (s : State) (v : BitVec 8) (f : BitVec 24) (hK : sK.Keeps s) : sK.Keeps (State.jupPowerOn s v f) := by
  refine ⟨hK.1, fun h => ?_⟩
  have h1 := (tablesOk_iff s).mp (hK.2 h)
  refine (tablesOk_iff _).mpr ⟨⟨⟨h1.1.1.1, ?_⟩, h1.1.2⟩, rfl, rfl⟩
  show Common.tablesOk .jup _ = true
  simp only [State.jupPowerOn, Common.tablesOk, Bool.and_eq_true]
  exact ⟨⟨⟨strapRegs_ok v f, rfl⟩, rfl⟩, rfl⟩

theorem keeps_execJpPowerOnReset {sK : State} (board : BitVec 8 × BitVec 24) (s : State) (hK : sK.Keeps s) : ResKeeps sK (execJpPowerOnReset board s) := by
  unfold execJpPowerOnReset
  try dsimp only
  repeat' first | (with_reducible first | assumption | apply keeps_jupPowerOn | apply resKeeps_next | apply resKeeps_fault) | split | (apply Eq.refl) | exact selfTrue | exact selfChans | exact selfAnd | intro _

theorem keeps_mainFall {sK : State} (s : State) (hK : sK.Keeps s) : sK.Keeps (State.mainFall s) := by
  refine ⟨hK.1, fun h => ?_⟩
  have h1 := (tablesOk_iff s).mp (hK.2 h)
  refine (tablesOk_iff _).mpr ⟨⟨⟨h1.1.1.1, ?_⟩, h1.1.2⟩, rfl, rfl⟩
  exact comOk_regs h1.1.1.2 (tok_filter _ _ _ _) (fun _ => rfl) (fun _ => rfl) (fun _ => rfl)

theorem keeps_mainRise {sK : State} (s : State) (hK : sK.Keeps s) : sK.Keeps (State.mainRise s) := by
  unfold State.mainRise
  try dsimp only
  repeat' first | (with_reducible first | assumption | apply keeps_modCom | apply keeps_modJup) | split | (apply Eq.refl) | exact selfTrue | exact selfChans | exact selfAnd | intro _

theorem keeps_execJpMainReset {sK : State} (rise : Bool) (s : State) (hK : sK.Keeps s) : ResKeeps sK (execJpMainReset rise s) := by
  unfold execJpMainReset
  try dsimp only
  repeat' first | (with_reducible first | assumption | apply keeps_due | apply keeps_mainFall | apply keeps_mainRise | apply resKeeps_next | (apply keepsN_due; case' he => assumption)) | split | (apply Eq.refl) | exact selfTrue | exact selfChans | exact selfAnd | intro _

theorem keeps_execPerst {sK : State} (level : Bool) (s : State) (hK : sK.Keeps s) : ResKeeps sK (execPerst level s) := by
  unfold execPerst
  refine resKeeps_next ?_
  split
  · exact keeps_modJup _ hK id
  · exact keeps_modJup _ (keeps_modCom _ _ hK rfl fun h => comOk_regs h (tok_filter _ _ _ _) id id id) id

theorem keeps_runCmd {sK : State} (s : State) (d : Dev) (h : Hdr) (op : BitVec 8) (t : Target) (a : List Word) (hK : sK.Keeps s) : ResKeeps sK (State.runCmd s d h op t a) := by
  unfold State.runCmd
  try dsimp only
  repeat' first | (with_reducible first | assumption | apply keeps_execBringIn | apply keeps_execCalVernier | apply keeps_execCgAbort | apply keeps_execCgBegin | apply keeps_execCgCommit | apply keeps_execCgStage | apply keeps_execFence | apply keeps_execHoldJob | apply keeps_execLoadImage | apply keeps_execMeasureLink | apply keeps_execReadPlate | apply keeps_execRemapRank | apply keeps_execRestore | apply keeps_execResumeJob | apply keeps_execSetQuota | apply keeps_execSetTod | apply keeps_execShutter | apply keeps_execStartJob | apply keeps_execStretchJob | apply keeps_execTeardownJob | apply keeps_execTimeResync | apply keeps_fresh | apply resKeeps_next | (apply keepsN_execBringIn; case' he => assumption) | (apply keepsN_execCalVernier; case' he => assumption) | (apply keepsN_execCgAbort; case' he => assumption) | (apply keepsN_execCgBegin; case' he => assumption) | (apply keepsN_execCgCommit; case' he => assumption) | (apply keepsN_execCgStage; case' he => assumption) | (apply keepsN_execFence; case' he => assumption) | (apply keepsN_execHoldJob; case' he => assumption) | (apply keepsN_execLoadImage; case' he => assumption) | (apply keepsN_execMeasureLink; case' he => assumption) | (apply keepsN_execReadPlate; case' he => assumption) | (apply keepsN_execRemapRank; case' he => assumption) | (apply keepsN_execRestore; case' he => assumption) | (apply keepsN_execResumeJob; case' he => assumption) | (apply keepsN_execSetQuota; case' he => assumption) | (apply keepsN_execSetTod; case' he => assumption) | (apply keepsN_execShutter; case' he => assumption) | (apply keepsN_execStartJob; case' he => assumption) | (apply keepsN_execStretchJob; case' he => assumption) | (apply keepsN_execTeardownJob; case' he => assumption) | (apply keepsN_execTimeResync; case' he => assumption) | (apply keepsE_fresh; case' he => assumption)) | exact keeps_fresh hK | split | (apply Eq.refl) | exact selfTrue | exact selfChans | exact selfAnd | intro _

theorem keepsN_runCmd {sK : State} (s : State) (d : Dev) (h : Hdr) (op : BitVec 8) (t : Target) (a : List Word)  {t' : State} (he : (State.runCmd s d h op t a) = .next t') (hK : sK.Keeps s) : sK.Keeps t' := keeps_runCmd s d h op t a  hK t' he

theorem keeps_submitWords {sK : State} (s : State) (d : Dev) (ctx : BitVec 8) (ws : List Word) (hK : sK.Keeps s) : ResKeeps sK (State.submitWords s d ctx ws) := by
  unfold State.submitWords
  try dsimp only
  repeat' first | (with_reducible first | assumption | apply keeps_refuse | apply keeps_runCmd | apply resKeeps_next | apply resKeeps_fault | (apply keepsN_runCmd; case' he => assumption)) | split | (apply Eq.refl) | exact selfTrue | exact selfChans | exact selfAnd | intro _

theorem keepsN_submitWords {sK : State} (s : State) (d : Dev) (ctx : BitVec 8) (ws : List Word)  {t' : State} (he : (State.submitWords s d ctx ws) = .next t') (hK : sK.Keeps s) : sK.Keeps t' := keeps_submitWords s d ctx ws  hK t' he

theorem keeps_jtagPort {sK : State} (s : State) (d : Dev) (n : Nat) (hK : sK.Keeps s) : sK.Keeps (State.jtagPort s d n) := by
  unfold State.jtagPort
  try dsimp only
  repeat' first | (with_reducible first | assumption | apply keeps_modPort | apply keeps_refuse) | split | (apply Eq.refl) | exact selfTrue | exact selfChans | exact selfAnd | intro _

theorem keeps_goWrite {sK : State} (s : State) (d : Dev) (src : Src) (n : Nat) (hK : sK.Keeps s) : ResKeeps sK (State.goWrite s d src n) := by
  unfold State.goWrite
  try dsimp only
  repeat' first | (with_reducible first | assumption | apply keeps_jtagPort | apply keeps_submitWords | apply resKeeps_next | (apply keepsN_submitWords; case' he => assumption)) | split | (apply Eq.refl) | exact selfTrue | exact selfChans | exact selfAnd | intro _

theorem keepsN_goWrite {sK : State} (s : State) (d : Dev) (src : Src) (n : Nat)  {t' : State} (he : (State.goWrite s d src n) = .next t') (hK : sK.Keeps s) : sK.Keeps t' := keeps_goWrite s d src n  hK t' he

theorem keeps_flashCtrl {sK : State} (s : State) (v : Half) (hK : sK.Keeps s) : ResKeeps sK (State.flashCtrl s v) := by
  unfold State.flashCtrl
  try dsimp only
  repeat' first | (with_reducible first | assumption | apply keeps_execFlashErase | apply keeps_execFlashProgram | apply keeps_execFlashRead | apply keeps_modJup | apply resKeeps_next | apply resKeeps_fault | (apply keepsN_execFlashErase; case' he => assumption) | (apply keepsN_execFlashProgram; case' he => assumption) | (apply keepsN_execFlashRead; case' he => assumption)) | split | (apply Eq.refl) | exact selfTrue | exact selfChans | exact selfAnd | intro _

theorem keepsN_flashCtrl {sK : State} (s : State) (v : Half)  {t' : State} (he : (State.flashCtrl s v) = .next t') (hK : sK.Keeps s) : sK.Keeps t' := keeps_flashCtrl s v  hK t' he

theorem keeps_budgetAt {sK : State} (s : State) (j : Nat) (v : Half) (hK : sK.Keeps s) : ResKeeps sK (State.budgetAt s j v) := by
  unfold State.budgetAt
  try dsimp only
  repeat' first | (with_reducible first | assumption | apply keeps_execBudgetWrite | apply keeps_setReg | apply resKeeps_next | (apply keepsN_execBudgetWrite; case' he => assumption)) | split | (apply Eq.refl) | exact selfTrue | exact selfChans | exact selfAnd | intro _

theorem keepsN_budgetAt {sK : State} (s : State) (j : Nat) (v : Half)  {t' : State} (he : (State.budgetAt s j v) = .next t') (hK : sK.Keeps s) : sK.Keeps t' := keeps_budgetAt s j v  hK t' he

theorem keeps_portWrite {sK : State} (s : State) (d : Dev) (src : Src) (off : Nat) (v : Half) (hK : sK.Keeps s) : ResKeeps sK (State.portWrite s d src off v) := by
  unfold State.portWrite
  try dsimp only
  repeat' first | (with_reducible first | assumption | apply keeps_budgetAt | apply keeps_denied | apply keeps_flashCtrl | apply keeps_goWrite | apply keeps_regWrite | apply resKeeps_next | apply resKeeps_fault | (apply keepsN_budgetAt; case' he => assumption) | (apply keepsN_flashCtrl; case' he => assumption) | (apply keepsN_goWrite; case' he => assumption) | (apply keepsN_regWrite; case' he => assumption)) | split | (apply Eq.refl) | exact selfTrue | exact selfChans | exact selfAnd | intro _

theorem keepsN_portWrite {sK : State} (s : State) (d : Dev) (src : Src) (off : Nat) (v : Half)  {t' : State} (he : (State.portWrite s d src off v) = .next t') (hK : sK.Keeps s) : sK.Keeps t' := keeps_portWrite s d src off v  hK t' he

theorem keeps_execRegisterWrite {sK : State} (d : Dev) (src : Src) (off : Nat) (strobe : BitVec 4) (v : Half) (s : State) (hK : sK.Keeps s) : ResKeeps sK (execRegisterWrite d src off strobe v s) := by
  unfold execRegisterWrite
  try dsimp only
  repeat' first | (with_reducible first | assumption | apply keeps_portWrite | apply resKeeps_next | (apply keepsN_portWrite; case' he => assumption)) | split | (apply Eq.refl) | exact selfTrue | exact selfChans | exact selfAnd | intro _

theorem keeps_frameAppend {sK : State} (s : State) (ws : List Word) (hK : sK.Keeps s) : sK.Keeps (State.frameAppend s ws) := by
  unfold State.frameAppend
  try dsimp only
  repeat' first | (with_reducible first | assumption | apply keeps_send) | split | (apply Eq.refl) | exact selfTrue | exact selfChans | exact selfAnd | intro _

theorem keeps_execAppendWindowWrite {sK : State} (words : List Word) (s : State) (hK : sK.Keeps s) : ResKeeps sK (execAppendWindowWrite words s) := by
  unfold execAppendWindowWrite
  try dsimp only
  repeat' first | (with_reducible first | assumption | apply keeps_frameAppend | apply keeps_mainIn | (apply keepsN_mainIn; case' he => assumption)) | split | (apply Eq.refl) | exact selfTrue | exact selfChans | exact selfAnd | intro _

theorem keeps_countTick {sK : State} (s : State) (hK : sK.Keeps s) : sK.Keeps (State.countTick s) := by
  unfold State.countTick
  try dsimp only
  repeat' first | (with_reducible first | assumption | apply keeps_modTime) | split | (apply Eq.refl) | exact selfTrue | exact selfChans | exact selfAnd | intro _

theorem keeps_countReset {sK : State} (s : State) (hK : sK.Keeps s) : sK.Keeps (State.countReset s) := by
  unfold State.countReset
  try dsimp only
  repeat' first | (with_reducible first | assumption | apply keeps_modPower) | split | (apply Eq.refl) | exact selfTrue | exact selfChans | exact selfAnd | intro _

theorem keeps_endTick {sK : State} (s : State) (hK : sK.Keeps s) : sK.Keeps (State.endTick s) := by
  unfold State.endTick
  try dsimp only
  repeat' first | (with_reducible first | assumption | apply keeps_answerCores | apply keeps_dbgDue | apply keeps_judgeVotes | apply keeps_parityStop | apply keeps_settleMatches) | split | (apply Eq.refl) | exact selfTrue | exact selfChans | exact selfAnd | intro _

theorem keeps_countRing {sK : State} (s : State) (d : Dev) (hK : sK.Keeps s) : sK.Keeps (State.countRing s d) := by
  unfold State.countRing
  try dsimp only
  repeat' first | (with_reducible first | assumption | apply keeps_fresh | apply keeps_modCom | (apply keepsE_fresh; case' he => assumption)) | exact keeps_fresh hK | split | (apply Eq.refl) | exact selfTrue | exact selfChans | exact selfAnd | intro _

theorem keeps_dropFenceTick {sK : State} (s : State) (hK : sK.Keeps s) : sK.Keeps (State.dropFenceTick s) := by
  unfold State.dropFenceTick
  try dsimp only
  repeat' first | (with_reducible first | assumption | apply keeps_dropHeld) | split | (apply Eq.refl) | exact selfTrue | exact selfChans | exact selfAnd | intro _

theorem keeps_sendDueVotes {sK : State} (s : State) (hK : sK.Keeps s) : sK.Keeps (State.sendDueVotes s) := by
  unfold State.sendDueVotes
  try dsimp only
  repeat' first | (with_reducible first | assumption | apply keeps_due | apply keeps_modProg | apply keeps_sendVote | apply keeps_foldl | apply resKeeps_next | (apply keepsN_due; case' he => assumption)) | split | (apply Eq.refl) | exact selfTrue | exact selfChans | exact selfAnd | intro _

theorem keeps_relatchBlock {sK : State} (s : State) (d : Dev) (b : Nat) (hK : sK.Keeps s) : sK.Keeps (State.relatchBlock s d b) := by
  unfold State.relatchBlock
  try dsimp only
  repeat' first | (with_reducible first | assumption | apply keeps_modBlock | apply keeps_report) | split | (apply Eq.refl) | exact selfTrue | exact selfChans | exact selfAnd | intro _

theorem keeps_relatchAll {sK : State} (s : State) (d : Dev) (hK : sK.Keeps s) : sK.Keeps (State.relatchAll s d) := by
  unfold State.relatchAll
  try dsimp only
  repeat' first | (with_reducible first | assumption | apply keeps_relatchBlock | apply keeps_foldl) | split | (apply Eq.refl) | exact selfTrue | exact selfChans | exact selfAnd | intro _

theorem keeps_resyncTimeout {sK : State} (s : State) (d : Dev) (hK : sK.Keeps s) : sK.Keeps (State.resyncTimeout s d) := by
  unfold State.resyncTimeout
  try dsimp only
  repeat' first | (with_reducible first | assumption | apply keeps_modTime | apply keeps_post) | split | (apply Eq.refl) | exact selfTrue | exact selfChans | exact selfAnd | intro _

theorem keeps_checkFloor {sK : State} (s : State) (hK : sK.Keeps s) : sK.Keeps (State.checkFloor s) := by
  unfold State.checkFloor
  try dsimp only
  repeat' first | (with_reducible first | assumption | apply keeps_endLevel | apply keeps_modJup | apply keeps_raiseFault | apply keeps_raiseLevel | apply keeps_foldl) | split | (apply Eq.refl) | exact selfTrue | exact selfChans | exact selfAnd | intro _

theorem keeps_tick {sK : State} (s : State) (hK : sK.Keeps s) : sK.Keeps (State.tick s) := by
  unfold State.tick
  try dsimp only
  repeat' first | (with_reducible first | assumption | apply keeps_chanActsDue | apply keeps_checkFloor | apply keeps_countReset | apply keeps_countRing | apply keeps_countTick | apply keeps_dropFenceTick | apply keeps_endTick | apply keeps_powerChoice | apply keeps_relatchAll | apply keeps_resyncTimeout | apply keeps_sendDueVotes) | split | (apply Eq.refl) | exact selfTrue | exact selfChans | exact selfAnd | intro _

/-- LIFECYCLE_READ is the one command that may change a fuse: of it, only the tables and the queue are said here. -/
theorem lifecycleRead_tables (s t : State) (d : Dev) (c0 c1 : List Word) (he : execLifecycleRead d c0 c1 s = .next t) :
    t.pending = s.pending ∧ (s.tablesOk = true → t.tablesOk = true) := by
  have hC : ∀ s' r : State, (s'.pending = s.pending ∧ (s.tablesOk = true → s'.tablesOk = true)) → s'.Keeps r →
      r.pending = s.pending ∧ (s.tablesOk = true → r.tablesOk = true) :=
    fun s' r h hr => ⟨(congrArg (fun x => x.2.2) hr.1).trans h.1, fun x => hr.2 (h.2 x)⟩
  have hN : s.Keeps (s.noRecord d) := by
    unfold State.noRecord
    exact keeps_raiseLevel _ _ _ _ _ (keeps_modSec _ _ (keeps_refl _) rfl)
  unfold execLifecycleRead at he
  extract_lets x at he
  split at he
  · injection he with he; subst he; exact ⟨rfl, id⟩
  split at he
  · cases he
  injection he with he
  subst he
  unfold State.lifecycle
  extract_lets f v1 pick s1
  have h1 : s1.pending = s.pending ∧ (s.tablesOk = true → s1.tablesOk = true) := by
    dsimp -zeta only [s1]
    refine hC _ _ ?_ (keeps_modSec _ _ (keeps_refl _) rfl)
    clear_value pick
    rcases pick with _ | b
    · exact hC s _ ⟨rfl, id⟩ hN
    · cases b <;> exact applyRecord_tables _ _ _
  clear_value s1
  split
  · exact h1
  · exact hC _ _ h1 (keeps_modJup _ (keeps_refl _) id)

end Sys2Proof.Machine
end

