-- ==== Sys2Proof/Laws/Ops.lean ====
section
/-! SUPPORT. What the shared operations do, said once each: events that may come too early, tables and registers read back, fault
blocks, words built from fields, and the acceptance and completion of a command. -/
namespace Sys2Proof.Machine
open Sys2Proof

/-! ## Events -/

theorem due_true (s : State) (f : State → State) : s.due true f = .next (f s) := rfl
theorem due_false (s : State) (f : State → State) : s.due false f = .next s := rfl

/-- An event always answers a next state. -/
theorem due_next (s : State) (g : Bool) (f : State → State) : s.due g f = .next (if g then f s else s) := by cases g <;> rfl

/-! ## Tables read back -/

/-- What is written is read back where it differs from what an unlisted key reads as, whatever the form of the table. -/
theorem tget_tset_ne {α : Type} [DecidableEq α] (d : α) (t : Table α) (k : Nat) (v : α) (h : v ≠ d) : tget d (tset d t k v) k = v := by
  induction t with
  | nil => simp [tset, h, tget]
  | cons a t ih =>
    obtain ⟨j, w⟩ := a
    simp only [tset]
    split
    · simp [h, tget]
    split
    · simp [h, tget]
    · rename_i hj
      simp [tget, hj, ih]

/-- A key below every listed key reads as unlisted. -/
theorem tget_below {α : Type} [DecidableEq α] (d : Nat → α) (t : Table α) :
    ∀ lo k, tok d (some lo) t = true → k ≤ lo → tget (d k) t k = d k := by
  induction t with
  | nil => intro lo k _ _; rfl
  | cons a t ih =>
    obtain ⟨j, w⟩ := a
    intro lo k h hk
    simp only [tok, Bool.and_eq_true, decide_eq_true_eq] at h
    have hj : ¬ j = k := by omega
    simp only [tget, if_neg hj]
    exact ih j k h.2 (by omega)

/-- In canonical form what is written is read back, whatever it is. -/
theorem tget_tset_tok {α : Type} [DecidableEq α] (d : Nat → α) (t : Table α) (k : Nat) (v : α) :
    ∀ lo, tok d lo t = true → tget (d k) (tset (d k) t k v) k = v := by
  induction t with
  | nil =>
    intro lo _
    by_cases h : v = d k
    · simp [tset, tget, h]
    · simp [tset, tget, h]
  | cons a t ih =>
    obtain ⟨j, w⟩ := a
    intro lo h
    simp only [tok, Bool.and_eq_true, decide_eq_true_eq] at h
    simp only [tset]
    split
    · rename_i hlt
      have hj : ¬ j = k := by omega
      split
      · rename_i hv
        simp only [tget, if_neg hj]
        rw [hv]
        exact tget_below d t j k h.2 (by omega)
      · simp [tget]
    split
    · rename_i hj
      split
      · rename_i hv
        rw [hv]
        exact tget_below d t j k h.2 (by omega)
      · simp [tget]
    · rename_i hj
      simp only [tget, if_neg hj]
      exact ih _ h.2

/-- A write leaves every other key alone, whatever unlisted keys read as there. -/
theorem tget_tset_away {α : Type} [DecidableEq α] (d e : α) (t : Table α) (k j : Nat) (v : α) (h : j ≠ k) :
    tget e (tset d t k v) j = tget e t j := by
  induction t with
  | nil => by_cases hv : v = d <;> simp [tset, tget, hv, Ne.symm h]
  | cons a t ih =>
    obtain ⟨i, w⟩ := a
    simp only [tset]
    split
    · split <;> simp [tget, Ne.symm h]
    split
    · rename_i hi
      subst hi
      split <;> simp [tget, Ne.symm h]
    · simp only [tget, ih]

/-! ## Registers, blocks and channels -/

theorem reg_setReg (s : State) (d : Dev) (off : Nat) (v : Half) (h : tok (regReset d) none (s.com d).regs = true) :
    (s.setReg d off v).reg d off = v := by
  cases d <;> exact tget_tset_tok _ _ _ _ none h

theorem reg_setReg_other (s : State) (d : Dev) (o off : Nat) (v : Half) (h : o ≠ off) : (s.setReg d off v).reg d o = s.reg d o := by
  cases d <;> exact tget_tset_away _ _ _ _ _ _ h

theorem fblock_modBlock (s : State) (d : Dev) (b : Nat) (f : FaultBlock → FaultBlock) (h : Table.wf {} (s.com d).blocks = true) :
    (s.modBlock d b f).fblock d b = f (s.fblock d b) := by
  cases d <;> exact tget_tset_same _ _ _ _ h

theorem fblock_modBlock_other (s : State) (d : Dev) (a b : Nat) (f : FaultBlock → FaultBlock) (h : a ≠ b) :
    (s.modBlock d b f).fblock d a = s.fblock d a := by
  cases d <;> exact tget_tset_other _ _ _ _ _ h

/-- A channel that is not as after reset reads as it was written. -/
theorem chan_modChan (s : State) (c : Nat) (f : Chan → Chan) (h : f (s.chan c) ≠ {}) : (s.modChan c f).chan c = f (s.chan c) :=
  tget_tset_ne _ _ _ _ h

theorem chan_modChan_other (s : State) (c e : Nat) (f : Chan → Chan) (h : e ≠ c) : (s.modChan c f).chan e = s.chan e :=
  tget_tset_other _ _ _ _ _ h

theorem chan_ne_reset (x : Chan) (h : x.state ≠ .unbound) : x ≠ {} := by rintro rfl; exact h rfl

/-! ## Words built from fields -/

/-- A field placed at bits `[hi:lo]` holds the number's low bits there and zeros elsewhere. -/
theorem getLsbD_put (w hi lo v i : Nat) :
    (put w hi lo v).getLsbD i = (decide (i < w) && decide (lo ≤ i) && decide (i - lo < hi + 1 - lo) && v.testBit (i - lo)) := by
  unfold put
  rw [BitVec.getLsbD_shiftLeft, BitVec.getLsbD_ofNat, Nat.testBit_mod_two_pow]
  by_cases h1 : i < w <;> by_cases h2 : lo ≤ i
  · have h3 : i - lo < w := by omega
    have h4 : ¬ i < lo := by omega
    simp [h1, h2, h3, h4]
  · have h4 : i < lo := by omega
    simp [h1, h2, h4]
  · simp [h1]
  · simp [h1]

theorem getLsbD_bit1 (w n i : Nat) (b : Bool) : (bit1 w n b).getLsbD i = (decide (i < w) && decide (i = n) && b) := by
  unfold bit1
  cases b
  · simp
  · simp only [if_true]
    rw [BitVec.getLsbD_shiftLeft]
    by_cases h1 : i < w <;> by_cases h2 : i = n
    · subst h2; simp [h1]; omega
    · simp only [h1, h2, decide_true, decide_false, Bool.true_and, Bool.false_and]
      by_cases h3 : i < n
      · simp [h3]
      · simp only [h3, decide_false, Bool.not_false, Bool.true_and]
        have : i - n ≠ 0 := by omega
        simp [BitVec.getLsbD_one, this]
    · simp [h1]
    · simp [h1]

/-! ## Acceptance and completion (R341, R344, R345) -/

/-- A command is refused, with no handle, or its handle is issued and a completion entry is open under it. -/
theorem accept_cases (s : State) (d : Dev) (h : Hdr) (op : BitVec 8) (light : Bool) (job : Option (BitVec 15)) :
    (s.accept d h op light job = ((s.refuse d h rfDenied).denied d, none) ∧ s.cmdDenied d h light = true) ∨
    (∃ r, s.accept d h op light job = (s.refuse d h r, none)) ∨
    (∃ t, s.accept d h op light job = (t, some (put 32 31 24 h.ctx.toNat ||| put 32 23 0 (s.com d).cmds.seq.toNat)) ∧
      (t.com d).cmds.seq = (s.com d).cmds.seq + 1) := by
  unfold State.accept
  dsimp only
  split
  · exact .inl ⟨rfl, ‹_›⟩
  split
  · exact .inr (.inl ⟨_, rfl⟩)
  split
  · exact .inr (.inl ⟨_, rfl⟩)
  · refine .inr (.inr ⟨_, rfl, ?_⟩)
    cases d <;> rfl

/-- A refused command runs nothing. -/
theorem withHandle_refused (s t : State) (d : Dev) (h : Hdr) (op : BitVec 8) (f : Half → State → State) (light : Bool)
    (job : Option (BitVec 15)) (ha : s.accept d h op light job = (t, none)) : s.withHandle d h op f light job = t := by
  unfold State.withHandle; rw [ha]

theorem withHandle_accepted (s t : State) (hd : Half) (d : Dev) (h : Hdr) (op : BitVec 8) (f : Half → State → State) (light : Bool)
    (job : Option (BitVec 15)) (ha : s.accept d h op light job = (t, some hd)) : s.withHandle d h op f light job = f hd t := by
  unfold State.withHandle; rw [ha]

/-- Nothing is posted for a handle with no open entry. -/
theorem post_none (s : State) (d : Dev) (h : Half) (status : BitVec 8) (results : List Word) (he : s.cplEntry d h = none) :
    s.post d h status results = s := by
  unfold State.post; rw [he]

/-- A completion is posted once. -/
theorem post_valid (s : State) (d : Dev) (h : Half) (status : BitVec 8) (results : List Word) (e : CplEntry) (he : s.cplEntry d h = some e)
    (hv : e.valid = true) : s.post d h status results = s := by
  unfold State.post; rw [he]; simp [hv]

end Sys2Proof.Machine
end

