-- ==== Sys2Proof/WellFormed.lean ====
section
/-! DEFINITION. Which commands name what the block has: link ends, converters, ports, records and words of the right
number (R14, R65, R66, R89). -/
namespace Sys2Proof

/-- Link ends of a device: two uplinks of a TSU, ports 0 to 95 of a Jupin (R14). -/
def linkCount : Dev → Nat
  | .tsu => 2
  | .jup => 96

/-- A command names a link, port or converter that its device has, and a message has the words of its type. -/
def Instr.wf : Instr → Bool
  | .timeCodeSend d n => decide (n < linkCount d)
  | .frameRx d n f => decide (n < linkCount d) && decide (f.length = 8)
  | .linkControlRx d n ws => decide (n < linkCount d) && decide (ws.length = 4)
  | .vernierEdge d c _ _ => decide (c < (match d with | .tsu => 5 | .jup => 198))
  | .voteContributionRx p ws => decide (p < 88) && decide (2 ≤ ws.length ∧ ws.length ≤ 18)
  | .remoteSignalRx ws => decide (ws.length = 3)
  | .cgStage _ _ _ _ ws => decide (ws.length ≤ 30)
  | _ => true

end Sys2Proof
end

