-- ==== Sys2Proof/Tests/Slice0.lean ====
section
/-! SUPPORT. Tests: what well-formedness and the table's words refuse and accept, single steps on small states, and for every
obligation a state and operands that meet the hypotheses of its clauses (`witness_<obligation>`). Expected values are computed by
hand from the rules cited. -/
namespace Sys2Proof.Tests
open Sys2Proof Sys2Proof.Machine
-- One after the other: each test waits for the kernel, and waiting threads hold memory.
set_option Elab.async false

/-! ## Small states -/

/-- Reset with both counters at `t`. -/
def tick (t : Tick) : State := (State.reset.modTime .tsu fun c => { c with htc := t }).modTime .jup fun c => { c with htc := t }
/-- A Jupin with a sealed image of the given ROLE and SIDE. -/
def roled (r side : Nat) (s : State) : State :=
  (s.setReg .jup 0 (put 32 7 6 r ||| put 32 5 4 side)).modSec .jup fun x => { x with sealedImg := true }
/-- The time master at the root. -/
def root : State := (roled 3 0 State.reset).modJup fun j => { j with timeMaster := true }
/-- A command header of context 1, and of JTAG. -/
def hdr : Hdr := { ctx := 1, override := false, notify := false }
def jtag : Hdr := { ctx := 0x20, override := false, notify := false }
/-- Channel 0 in a state of its own. -/
def chan0 (f : Chan → Chan) (s : State := State.reset) : State := s.modChan 0 f
def state0 (x : ChState) : State := chan0 fun c => { c with state := x }
/-- A rising edge over the whole swing, wide. -/
def edge : EdgeIn := { rising := true, lo := -5000, hi := 5000, wide := true }
/-- A command of the Jupin that gets its handle. -/
def accJ (op : BitVec 8) (s : State) : State := (s.accept .jup hdr op).1

/-! ## Well-formedness -/

theorem test_wf_link_range : (Instr.timeCodeSend .tsu 2).wf = false ∧ (Instr.timeCodeSend .tsu 1).wf = true ∧
    (Instr.timeCodeSend .jup 96).wf = false ∧ (Instr.timeCodeSend .jup 95).wf = true := by decide
theorem test_wf_frame : (Instr.frameRx .tsu 2 (List.replicate 8 0)).wf = false ∧ (Instr.frameRx .tsu 0 [0]).wf = false ∧
    (Instr.frameRx .tsu 0 (List.replicate 8 0)).wf = true := by decide
theorem test_wf_link_control : (Instr.linkControlRx .jup 96 [0, 0, 0, 0]).wf = false ∧ (Instr.linkControlRx .jup 0 [0, 0, 0]).wf = false ∧
    (Instr.linkControlRx .jup 0 [0, 0, 0, 0]).wf = true := by decide
theorem test_wf_converter : (Instr.vernierEdge .tsu 5 0 edge).wf = false ∧ (Instr.vernierEdge .tsu 4 0 edge).wf = true ∧
    (Instr.vernierEdge .jup 198 0 edge).wf = false ∧ (Instr.vernierEdge .jup 197 0 edge).wf = true := by decide
theorem test_wf_contribution : (Instr.voteContributionRx 88 [0, 0]).wf = false ∧ (Instr.voteContributionRx 0 [0]).wf = false ∧
    (Instr.voteContributionRx 0 (List.replicate 19 0)).wf = false ∧
      (Instr.voteContributionRx 87 (List.replicate 18 0)).wf = true := by decide
theorem test_wf_signal : (Instr.remoteSignalRx [0, 0]).wf = false ∧ (Instr.remoteSignalRx [0, 0, 0]).wf = true := by decide
theorem test_wf_stage : (Instr.cgStage .tsu hdr 0 .self (List.replicate 31 { offset := 0, value := 0 })).wf = false ∧
    (Instr.cgStage .tsu hdr 0 .self (List.replicate 30 { offset := 0, value := 0 })).wf = true := by decide
/-- The opcode table gives no row any bits, so no word spells a command. -/
theorem test_no_word_decodes : decodeTableWord 0 0 = none ∧ (State.reset.withFetchWord 32 0xFFFFFFFF).pending = [] := ⟨rfl, rfl⟩

/-! ## Hall time -/

/-- Jupin port 3 is a parent end in SERVICE on an exchange tick; TSU uplink 0 is a child end. -/
def wParent : State := (tick 8192).modCtl .jup 3 fun c => { c with lstate := .service }
def wChild : State := (tick 4096).modCtl .tsu 0 fun c => { c with lstate := .service }

theorem witness_TimeCodeSent :
    ((wParent.link .jup 3).ctl.lstate = .service ∧ wParent.isChild .jup 3 = false ∧ wParent.isParent .jup 3 = true ∧
      (wParent.now .jup).toNat % 8192 = 0) ∧
    ((wChild.link .tsu 0).ctl.lstate = .service ∧ wChild.isChild .tsu 0 = true ∧ (wChild.com .tsu).time.lowRate = false ∧
      (wChild.now .tsu).toNat % 8192 = 4096) ∧
    ((tick 1).now .tsu).toNat % 4096 ≠ 0 := by decide

/-- An exchange with its first three stamps: M sends at 0, C receives at 10 and sends at 20. -/
def wExchange : LinkTime :=
  { t1 := some { tick := 0, frac := 0 }, t2 := some { tick := 10, frac := 0 }, t3 := some { tick := 20, frac := 0 }, lastSeq := some 0 }

theorem witness_TimeCodeTaken :
    State.reset.isChild .tsu 0 = true ∧ State.reset.isChild .jup 3 = false ∧
    (wExchange.xs.length ≤ 1024 ∧ wExchange.ds.length ≤ 1024 ∧ wExchange.t1.isSome = true) ∧
    (wExchange.t1 = some { tick := 0, frac := 0 } ∧ wExchange.t2 = some { tick := 10, frac := 0 } ∧
      wExchange.t3 = some { tick := 20, frac := 0 } ∧ wExchange.bad = false ∧ wExchange.lastSeq = some 0 ∧
      codeSeq (timeCode { tick := 30, frac := 0 } 0 0 2 1) = 0 + 1) := by decide

def wLost : State := State.reset.modLt .tsu 0 fun t => { t with consecInvalid := 64 }
def wSkew : State := State.reset.modTime .tsu fun t => { t with skewCount := 1024 }
def wHoldover (d : Dev) : State :=
  ((tick 100).modTime d fun t => { t with state := .degraded, holdSince := some 0, holdLimit := 100 }).modCr d fun c => { c with state := .holdover }
def wAcqFail : State :=
  ((tick 128000000).modTime .tsu fun t => { t with acqStart := some 0 }).modCr .tsu fun c => { c with state := .acquire }

theorem witness_ParentsJudged :
    (wLost.isChild .tsu 0 = true ∧ 64 ≤ (wLost.link .tsu 0).time.consecInvalid ∧ (wLost.link .tsu 0).time.lost = false) ∧
    (State.reset.link .tsu 0).time.consecInvalid < 64 ∧
    1024 ≤ (wSkew.com .tsu).time.skewCount ∧ (State.reset.com .tsu).time.skewCount < 1024 ∧
    (wHoldover .jup).lostDue .jup = true ∧ (wHoldover .tsu).lostDue .tsu = true ∧
    ((wAcqFail.com .tsu).cr.state = .acquire ∧ (wAcqFail.com .tsu).time.acqStart = some 0 ∧
      (0 : Tick).toNat + 128000000 ≤ (wAcqFail.now .tsu).toNat) := by decide

/-- TSU uplink 0 selected in ACQUIRE, sixteen valid exchanges, and the end of a dwell at bandwidth code `bw`. -/
def wCoarse : State :=
  (((tick 131072).modTime .tsu fun t => { t with acqStart := some 0 }).modCr .tsu fun c => { c with state := .acquire, selected := some 0 }).modLt
    .tsu 0 fun t => { t with xs := List.replicate 16 65536 }
def wDwell (bw : BitVec 3) (off : Int) : State :=
  (((tick 67108864).modTime .tsu fun t => { t with state := .acquiring }).modCr .tsu fun c =>
    { c with state := .acquire, bwCur := bw, selected := some 0, dwellOk := true }).modLt .tsu 0 fun t => { t with offset := off }

theorem witness_AcquisitionRuns :
    (wCoarse.coarseDue .tsu = true ∧ wCoarse.selLink .tsu = some 0) ∧
    ((wDwell 0 1000000).dwellDue .tsu = true ∧ ((wDwell 0 1000000).com .tsu).cr.state = .acquire ∧
      2 * (wDwell 0 1000000).lockThr .tsu < (wDwell 0 1000000).selOffset .tsu) ∧
    ((wDwell 2 0).dwellDue .tsu = true ∧ ((wDwell 2 0).com .tsu).cr.bwCur.toNat < 3 ∧
      (wDwell 2 0).selOffset .tsu ≤ 2 * (wDwell 2 0).lockThr .tsu) ∧
    ((wDwell 3 0).dwellDue .tsu = true ∧ 3 ≤ ((wDwell 3 0).com .tsu).cr.bwCur.toNat ∧ ((wDwell 3 0).com .tsu).cr.dwellOk = true) ∧
    State.reset.dwellDue .tsu = false ∧
    (((state0 .ready).accept .tsu hdr opTimeResync).2.isSome = true ∧ ((state0 .ready).accept .tsu hdr opTimeResync).1.anyBound = true) ∧
    ((State.reset.accept .tsu hdr opTimeResync).2.isSome = true ∧ (State.reset.accept .tsu hdr opTimeResync).1.anyBound = false) ∧
    ((roled 3 0 State.reset).hasRole = true ∧ (roled 3 0 State.reset).role = 3 ∧ (roled 3 0 State.reset).jup.timeMaster = false ∧
      (roled 3 0 State.reset).side ≠ 2) ∧
    ((roled 3 2 State.reset).hasRole = true ∧ (roled 3 2 State.reset).role = 3 ∧ (roled 3 2 State.reset).jup.timeMaster = false ∧
      (roled 3 2 State.reset).side = 2) := by decide

/-- An NTP service without authentication, 2,000 answers into its second. -/
def wNtp (n : Nat) : State := State.reset.modJup fun j => { j with ntpSecond := 0, ntpInSecond := n }
def wMapRec : MapRec := { htcRef := 0, taiSec := 0, taiNs := 0, rate := 0, utcOffset := 37, leap := 0, quality := 0, seq := 1 }

theorem witness_UtcServed :
    (root.rootMaster .jup = true ∧ root.jup.pubTick = none) ∧
    ((root.accept .jup hdr opSetTod).2.isSome = true ∧ (root.accept .jup hdr opSetTod).1.rootMaster .jup = true) ∧
    ((State.reset.accept .jup hdr opSetTod).2.isSome = true ∧ (State.reset.accept .jup hdr opSetTod).1.rootMaster .jup = false) ∧
    ((wNtp 1999).ntpAuth none [] = true ∧ (wNtp 1999).jup.ntpSecond = ((wNtp 1999).now .jup).toNat / 1600000000 ∧
      (wNtp 1999).jup.ntpInSecond < 2000) ∧
    ((wNtp 2000).ntpAuth none [] = true ∧ 2000 ≤ (wNtp 2000).jup.ntpInSecond) ∧
    State.reset.ntpAuth (some (1, 0)) [] = false := by decide

def wMapping : State := (tick 6400000000).modJup fun j => { j with mapNext := some wMapRec, mapCur := some wMapRec, mapHold := true }

theorem witness_MappingApplied :
    (wMapping.jup.mapNext = some wMapRec ∧ (wMapping.now .jup).toNat % 1600000000 = 0) ∧ ((tick 1).now .jup).toNat % 1600000000 ≠ 0 ∧
    State.reset.jup.mapNext = none ∧ wMapping.jup.mapTick.toNat + 6400000000 ≤ (wMapping.now .jup).toNat ∧
    ((tick 6399999999).now .jup).toNat < (tick 6399999999).jup.mapTick.toNat + 6400000000 ∧
    (wMapping.jup.mapCur = some wMapRec ∧ wMapRec.quality = 0 ∧ wMapping.jup.mapHold = true) ∧
    ((wMapping.modJup fun j => { j with mapHold := false }).jup.mapCur = some wMapRec ∧
      (wMapping.modJup fun j => { j with mapHold := false }).jup.mapHold = false) := by decide

/-- An asymmetry swap asked for at an exchange boundary: the zeroed bank holds no VALID entry; the other holds one that was measured. -/
def wSwapBad : State := (tick 8192).modAsym .jup 3 fun a => { a with go := true, measured := true }
def wSwapOk : State := (tick 8192).modAsym .jup 3 fun a => { a with go := true, measured := true, bank1 := 1 }

theorem witness_AsymmetryMeasured :
    (State.reset.accept .jup hdr opMeasureLink (light := true)).2.isSome = true ∧
    ((State.reset.accept .jup hdr opMeasureLink (light := false)).2.isSome = true ∧
      (State.reset.accept .jup hdr opMeasureLink (light := false)).1.portActive 3 = false) ∧
    ((State.reset.modAsym .jup 3 fun a => { a with reflect := some 7 }).link .jup (3 : BitVec 7).toNat).asym.reflect = some 7 ∧
    (State.reset.link .jup (asymKey .jup 3)).asym.go = false ∧
    ((wSwapOk.link .jup (asymKey .jup 3)).asym.go = true ∧ (wSwapOk.now .jup).toNat % 8192 = 0 ∧ wSwapOk.asymCheckOk .jup 3 = true) ∧
    ((wSwapBad.link .jup (asymKey .jup 3)).asym.go = true ∧ (wSwapBad.now .jup).toNat % 8192 = 0 ∧ wSwapBad.asymCheckOk .jup 3 = false) ∧
    ((tick 1).now .jup).toNat % 8192 ≠ 0 := by decide

/-! ## Vernier and Clock Room -/

def wLateEdge : State := (tick 31).modConv .tsu 0 fun c => { c with lastEdge := some 0 }
def wAfterHit : State := (tick 31).modConvCtl .tsu 0 fun c => { c with lastHit := some 0 }
def wBusyConv : State := (tick 20).modConv .tsu 0 fun c => { c with busy := some (0, 5) }

theorem witness_EdgeTimestamped :
    (State.reset.conditioned .tsu 0 = false ∧ State.reset.afterHit .tsu 0 = false ∧ State.reset.convReady .tsu 0 = true) ∧
    (wLateEdge.afterHit .tsu 0 = false ∧ wLateEdge.convReady .tsu 0 = false ∧ (wLateEdge.conv .tsu 0).lastEdge = some 0 ∧
      (wLateEdge.now .tsu).toNat < (0 : Tick).toNat + 32) ∧
    wAfterHit.afterHit .tsu 0 = true ∧ (State.reset.setReg .tsu 0x4C0 1).evtSrc ≠ 0 ∧
    ((wBusyConv.conv .tsu 0).busy = some (0, 5) ∧ (0 : Tick).toNat + 20 ≤ (wBusyConv.now .tsu).toNat) ∧
    (State.reset.conv .tsu 0).busy = none := by decide

def wRing (hits : Nat) : State := (State.reset.setReg .tsu 0x400 2).modConv .tsu 0 fun c => { c with running := true, hits := hits }
def wSwapPend : State := (tick 8192).modConvCtl .tsu 0 fun c => { c with swapPend := true }
/-- A table built at tick 0 in service, read long after CAL_MAX_AGE. -/
def wStale : State :=
  (((tick 0xFFFFFFFFFFFF0000).modConv .tsu 0 fun c => { c with valid0 := true }).modConvCtl .tsu 0 fun c =>
    { c with builtAt := some 0, lastService := some 0 }).modCtl .tsu 0 fun c => { c with lstate := .service }

theorem witness_TablesBuilt :
    ((wRing 7).ringEn .tsu = true ∧ (wRing 7).building .tsu 0 = true ∧ (wRing 7).reflecting .tsu 0 = false ∧
      (wRing 7).hitWindow .tsu 0 = true ∧ (wRing 7).convReady .tsu 0 = true ∧ ((wRing 7).conv .tsu 0).hits < 1048576) ∧
    ((wRing 1048576).conv .tsu 0).hits = 1048576 ∧
    ((wSwapPend.convCtl .tsu 0).swapPend = true ∧ (wSwapPend.now .tsu).toNat % 8192 = 0) ∧ ((tick 1).now .tsu).toNat % 8192 ≠ 0 ∧
    (wStale.staleDue .tsu 0 = true ∧ Conv.valid (wStale.conv .tsu 0) = true ∧ wStale.hasService .tsu 0 = true ∧
      (wStale.conv .tsu 0).stale = false ∧ (wStale.convCtl .tsu 0).builtAt = some 0 ∧
      (0 : Tick).toNat + wStale.calMaxAge .tsu * 65536 < (wStale.now .tsu).toNat) := by decide

/-- A written table of two widths that sum to one tick, with its ones'-complement sum. -/
def wWritten : State := State.reset.modConv .tsu 0 fun c => { c with tbl1 := (List.range 256).map fun k => (k, 0x100) }
def wOwned : State := State.reset.modConvCtl .tsu 0 fun c => { c with owner := some 9 }
def wGo : State := State.reset.modConvCtl .tsu 0 fun c => { c with go := true }

theorem witness_TablesCommanded :
    ((State.reset.convCtl .tsu 0).go = false ∧ State.reset.writtenOk .tsu 0 0 = false) ∧
    ((wWritten.convCtl .tsu 0).go = false ∧ ∃ k, wWritten.writtenOk .tsu 0 k = true) ∧ (wGo.convCtl .tsu 0).go = true ∧
    ((wOwned.accept .tsu hdr opCalVernier).2.isSome = true ∧
      ∃ n ∈ convRange .tsu 0 1, ((wOwned.accept .tsu hdr opCalVernier).1.convCtl .tsu n).owner.isSome = true) ∧
    ((State.reset.accept .tsu hdr opCalVernier).2.isSome = true ∧
      ∀ n ∈ convRange .tsu 0 1, ((State.reset.accept .tsu hdr opCalVernier).1.convCtl .tsu n).owner = none) := by
  refine ⟨by decide +kernel, ⟨by decide, 1, by decide +kernel⟩, by decide, by decide, by decide⟩

/-- All hits of a build in one bin. -/
theorem witness_BuiltWidthsSum : [1048576].foldl (· + ·) 0 = 1048576 := by decide

def wWtr : State :=
  (((tick 1152000000000).modRef .tsu 0 fun x => { x with wtrStart := some 0 }).modCtl .tsu 0 fun c => { c with lstate := .service }).modLink .tsu 0
    fun l => { l with asym := { l.asym with bank0 := 1 }, time := { l.time with farState := 2, xs := List.replicate 1024 0 } }
def wQl : State := (tick 8000000000).modRef .tsu 0 fun x => { x with qlTick := some 0 }
def wEsmc : State := ((tick 8000000000).setReg .jup 0x60624 0x80000000).modRef .jup 0 fun x => { x with qlTick := some 0 }

theorem witness_ReferencesJudged :
    ((wWtr.ref .tsu (0 : Fin 8).val).wtrStart = some 0 ∧ (0 : Tick).toNat + wWtr.wtrTime .tsu * 1600000000 ≤ (wWtr.now .tsu).toNat ∧
      wWtr.signalGood .tsu (0 : Fin 8).val true = true) ∧
    (qualityPort 0 = true ∧ ((tick 262144).now .jup).toNat % 262144 = 0) ∧
    (State.reset.linkRef .tsu 0 = some 0 ∧ qlKnown ((0x2000 : BitVec 16).extractLsb' 12 4) = true ∧
      qlKnown ((0x3000 : BitVec 16).extractLsb' 12 4) = false) ∧
    ((wQl.ref .tsu (0 : Fin 8).val).qlTick = some 0 ∧ (wQl.refLink .tsu (0 : Fin 8).val).isSome = true ∧
      (0 : Tick).toNat + 1310720 ≤ (wQl.now .tsu).toNat) ∧
    (wEsmc.esmcBound (0 : Fin 4).val 0 = true ∧ qlKnown 2 = true ∧ wEsmc.esmcBound (0 : Fin 4).val 1 = false) ∧
    ((wEsmc.ref .jup (0 : Fin 4).val).qlTick = some 0 ∧ (0 : Tick).toNat + 8000000000 ≤ (wEsmc.now .jup).toNat) := by decide +kernel

def wPend (op : CrOp) : State := (tick 8192).modCr .tsu fun c => { c with pend := some (op, 0) }

theorem witness_ClockCommands :
    (State.reset.com .tsu).cr.pend = none ∧
    (((wPend .clear).com .tsu).cr.pend = some (.clear, 0) ∧ ((wPend .clear).now .tsu).toNat % 8192 = 0 ∧
      (((wPend .clear).evalRefs .tsu).modCr .tsu fun c => { c with pend := none }).crRefusal .tsu .clear (0 : Fin 8).val = 0) ∧
    (((wPend .manual).com .tsu).cr.pend = some (.manual, 0) ∧ ((wPend .manual).now .tsu).toNat % 8192 = 0 ∧
      (((wPend .manual).evalRefs .tsu).modCr .tsu fun c => { c with pend := none }).crRefusal .tsu .manual (0 : Fin 8).val ≠ 0) ∧
    ((tick 1).now .tsu).toNat % 8192 ≠ 0 ∧ State.reset.candidate .tsu 2 = false := by decide

def wBlockEnd : State := (tick 4194304).modCr .tsu fun c => { c with blockSum := 10, blockCount := 3 }

theorem witness_LoopSteered :
    ((tick 32).now .tsu).toNat % 32 = 0 ∧ ((tick 33).now .tsu).toNat % 32 ≠ 0 ∧
    ((wBlockEnd.now .tsu).toNat % 4194304 = 0 ∧ 0 < (wBlockEnd.com .tsu).cr.blockCount) ∧
    (((3 : BitVec 3).toNat < 4 ∧ (7 : BitVec 3).toNat = 7) ∧ (State.reset.com .tsu).cr.state ≠ .holdover) := by decide

theorem witness_PhaseStepWritten :
    (((State.reset.com .tsu).cr.pstepRemain + (32768 : Half).toInt).natAbs ≤ 32768 ∧ State.reset.rootMaster .tsu = false ∧
      State.reset.devBound .tsu = false) ∧
    (((root.com .jup).cr.pstepRemain + (0xFFFF8000 : Half).toInt).natAbs ≤ 32768 ∧ root.rootMaster .jup = true) ∧
    32768 < ((State.reset.com .tsu).cr.pstepRemain + (32769 : Half).toInt).natAbs ∧
    ((((state0 .ready).com .tsu).cr.pstepRemain + (1 : Half).toInt).natAbs ≤ 32768 ∧ (state0 .ready).rootMaster .tsu = false ∧
      (state0 .ready).devBound .tsu = true) := by decide

/-- A FREE output of period 64 ticks, and an ALIGN output whose input is predicted at tick 64. -/
def wFree : State := ((tick 64).setReg .tsu 0x880 1).setReg .tsu 0x884 64
def wAlign : State := ((tick 64).setReg .jup 0x28100 2).modPulse .jup 0 fun p => { p with pred := some (64 * 65536) }

theorem witness_PulsesPlaced :
    (fld (wFree.pulseCfg .tsu (0 : Fin 2).val) 1 0 = 1 ∧ 64 ≤ wFree.pulsePeriod .tsu (0 : Fin 2).val ∧
      wFree.freeEdge .tsu (0 : Fin 2).val = some (64 * 65536)) ∧
    fld (State.reset.pulseCfg .tsu (0 : Fin 2).val) 1 0 = 0 ∧
    (fld (wAlign.pulseCfg .jup (0 : Fin 2).val) 1 0 = 2 ∧ wAlign.alignTarget .jup (0 : Fin 2).val = some (64 * 65536) ∧
      (Pulse.place (wAlign.pulse .jup (0 : Fin 2).val) (64 * 65536)).1 / 65536 = (wAlign.now .jup).toNat) := by decide

/-! ## Step channels -/

/-- Channel 0 bound to a bank of 256 descriptors, RUNNING at tick 0, whose next descriptor has the given words. -/
def seqRun (hi lo : Word) (f : Chan → Chan := id) : State :=
  ((((State.reset.setReg .tsu 0x1004 0x100).setReg64 .tsu 0x01000000 lo).setReg64 .tsu 0x01000008 hi).modChan 0 fun c =>
    f { c with state := .running })
/-- A descriptor of a kind, DELTA in ticks. -/
def descHi (kind delta : Nat) : Word := put 64 63 60 kind ||| put 64 55 32 delta
/-- The descriptor of kind `k` acts on tick 0. -/
def actsNow (s : State) (k : Nat) (d : BitVec 128) : Prop :=
  s.nextDesc (0 : Fin 8) k = .desc d ∧ actionTick (s.chan (0 : Fin 8)).prog d = s.now .tsu ∧ (s.chan (0 : Fin 8)).prog.breaks (s.now .tsu) = false

def wBind : State := (State.reset.modTime .tsu fun t => { t with state := .locked }).setReg .tsu 0x1004 0x100
def wArmed : State := chan0 (fun c => { c with state := .ready, startTick := 5 }) (tick 4)

theorem witness_ChannelControls :
    wBind.bindErr (0 : Fin 8) = 0 ∧ State.reset.bindErr (0 : Fin 8) ≠ 0 ∧
    ((wArmed.chan (0 : Fin 8)).state = .ready ∧ wArmed.now .tsu < (wArmed.chan (0 : Fin 8)).startTick) ∧
    (((state0 .ready).chan (0 : Fin 8)).state = .ready ∧ ((state0 .ready).chan (0 : Fin 8)).startTick ≤ (state0 .ready).now .tsu) ∧
    (State.reset.chan (0 : Fin 8)).state ≠ .ready ∧
    ((state0 .held).resumeBarred (0 : Fin 8) = false ∧ (state0 .held).now .tsu ≤ ((state0 .held).chan (0 : Fin 8)).startTick) ∧
    (((state0 .running).chan (0 : Fin 8)).state = .running ∧ (state0 .running).lockMates (0 : Fin 8) = []) ∧
    ((state0 .held).chan (0 : Fin 8)).state = .held := by decide

def wStart : State := chan0 (fun c => { c with state := .ready, arm := true, startTick := 5 }) (tick 5)
def wResume : State := chan0 (fun c => { c with state := .held, resume := true, startTick := 5 }) (tick 5)

theorem witness_ChannelsStart :
    ((wStart.chan (0 : Fin 8)).arm = true ∧ (wStart.chan (0 : Fin 8)).state = .ready ∧
      (wStart.chan (0 : Fin 8)).startTick = wStart.now .tsu) ∧
    (State.reset.modChan 0 fun c => { c with startTick := 1 }).now .tsu ≠ 1 ∧
    ((wResume.chan (0 : Fin 8)).resume = true ∧ (wResume.chan (0 : Fin 8)).startTick = wResume.now .tsu) ∧
    resumable (State.reset.chan (0 : Fin 8)) = false ∧
    (((state0 .running).chan (0 : Fin 8)).state ≠ .unbound ∧ stepAhead ((state0 .running).chan (0 : Fin 8)) 0 = true ∧
      (state0 .running).lockMates (0 : Fin 8) = []) ∧
    (((chan0 fun c => { c with state := .running, step := 1 }).chan (0 : Fin 8)).state ≠ .unbound ∧
      stepAhead ((chan0 fun c => { c with state := .running, step := 1 }).chan (0 : Fin 8)) 0 = false) ∧
    (State.reset.chan (0 : Fin 8)).state = .unbound := by decide

/-- The gate VOTE of group 0, which is the channel's gate group, with its format entry 0 of operator GATE. -/
def wGate : State := (seqRun (descHi 5 0 ||| bit1 64 58 true) 0).setReg64 .tsu 0x03000000 0x8000000000000000
/-- A LAUNCH one tick ahead, and one whose tick has passed. -/
def wAhead : State := seqRun (descHi 1 1) 0
def wPast : State := (seqRun (descHi 1 0) 0).modTime .tsu fun c => { c with htc := 1 }

theorem witness_DescriptorsAct :
    (actsNow (seqRun (descHi 1 0) 0) 1 (descHi 1 0 ++ (0 : Word)) ∧ actsNow (seqRun (descHi 2 0) 0) 2 (descHi 2 0 ++ (0 : Word)) ∧
      actsNow (seqRun (descHi 3 0) 0x100) 3 (descHi 3 0 ++ (0x100 : Word)) ∧ actsNow (seqRun (descHi 6 0) 0) 6 (descHi 6 0 ++ (0 : Word)) ∧
      actsNow (seqRun (descHi 8 0) 0) 8 (descHi 8 0 ++ (0 : Word)) ∧ actsNow (seqRun (descHi 0 0) 0) 0 (descHi 0 0 ++ (0 : Word))) ∧
    (actsNow wGate 5 ((descHi 5 0 ||| bit1 64 58 true) ++ (0 : Word)) ∧ (wGate.chan (0 : Fin 8)).prog.gateVoted = false ∧
      (wGate.act (0 : Fin 8) (wGate.now .tsu)).formatEntry (0 : Fin 8) (dGroup ((descHi 5 0 ||| bit1 64 58 true) ++ (0 : Word))) =
        some (0, 0x8000000000000000) ∧
      (wGate.act (0 : Fin 8) (wGate.now .tsu)).sramBad 3 (0 : Fin 8) 0 = false ∧
      (wGate.act (0 : Fin 8) (wGate.now .tsu)).groupOk (0 : Fin 8) ((descHi 5 0 ||| bit1 64 58 true) ++ (0 : Word)) 0x8000000000000000 = true ∧
      ((descHi 5 0 ||| bit1 64 58 true) ++ (0 : Word)).getLsbD 122 = true) ∧
    (wAhead.nextDesc (0 : Fin 8) 1 = .desc (descHi 1 1 ++ (0 : Word)) ∧
      wAhead.now .tsu < actionTick (wAhead.chan (0 : Fin 8)).prog (descHi 1 1 ++ (0 : Word))) ∧
    (wPast.nextDesc (0 : Fin 8) 1 = .desc (descHi 1 0 ++ (0 : Word)) ∧
      actionTick (wPast.chan (0 : Fin 8)).prog (descHi 1 0 ++ (0 : Word)) < wPast.now .tsu) := by
  unfold actsNow; decide +kernel

/-- A LOOP by COUNT on counter 2; by FOREVER; by CLEAR; and one beyond the bank. -/
def wLoopHi (mode : Nat) : Word := descHi 4 0 ||| put 64 59 58 mode ||| put 64 31 29 2
def wLoop : State := seqRun (wLoopHi 0) 0x0000000300000000
def wOutside : State := state0 .running

theorem witness_LoopModes :
    (wLoop.nextDesc (0 : Fin 8) 4 = .desc (wLoopHi 0 ++ (0x0000000300000000 : Word)) ∧
      (wLoop.chan (0 : Fin 8)).prog.breaks (actionTick (wLoop.chan (0 : Fin 8)).prog (wLoopHi 0 ++ (0x0000000300000000 : Word))) = false) ∧
    (Table.wf (0 : Half) [(2, 1)] = true ∧ fld (wLoopHi 0 ++ (0 : Word)) 123 122 = 0 ∧ fld (wLoopHi 1 ++ (0 : Word)) 123 122 = 1 ∧
      fld (wLoopHi 2 ++ (0 : Word)) 123 122 = 2 ∧ (3 : Nat) ≠ fld (wLoopHi 0 ++ (0 : Word)) 95 93) ∧
    wOutside.nextDesc (0 : Fin 8) 4 = .bad cEphRange := by decide

def wCommit : State := seqRun (descHi 7 0) 0 fun c => { c with prog := { c.prog with gate := 2 } }
def wStopped : State := seqRun (descHi 7 0) 0 fun c => { c with prog := { c.prog with gate := 2, stopped := true } }

theorem witness_CommitRule :
    actsNow wCommit 7 (descHi 7 0 ++ (0 : Word)) ∧
    (wCommit.commitFail 0 false = none ∧ holdCauses (wCommit.chan 0) (wCommit.chan 0).step = [] ∧ (wCommit.chan 0).unbindPend = false ∧
      (wCommit.chan 0).step ≠ 0xFFFFFFFFFFFFFFFF) ∧ wStopped.commitFail 0 false = some cCommitFail := by
  unfold actsNow; decide

theorem witness_StopRestoresBoundary : (wCommit.chan 0).state = .running ∧ (wCommit.chan 0).unbindPend = false := by decide

/-- A wait of channel 0 on slot 3 of core 2, condition `cond`, opened at tick 0 with a TIMEOUT; the slot is a FLAG of channel 0. -/
def wWait (cond : Nat) (timeout : Half) (v : BitVec 8) (t : Tick) : State :=
  ((tick t).setReg .tsu (slotCfgOff 99) 0x40000000).modSync fun y =>
    { y with slots := [(99, { v := v, old := v, at_ := 0 })],
             waits := [{ who := .chan 0, ch := 0, core := 2, slot := 3, cond := cond, count := 0, timeout := timeout, tag := 0, tick := 0, round := 0 }] }
def wWaitRec (cond : Nat) (timeout : Half) : WaitRec :=
  { who := .chan 0, ch := 0, core := 2, slot := 3, cond := cond, count := 0, timeout := timeout, tag := 0, tick := 0, round := 0 }

theorem witness_WaitsEnd :
    State.reset.waitOf (.chan 0) = none ∧
    ((wWait 0 0 1 9).waitOf (.chan 0) = some (wWaitRec 0 0) ∧ (wWait 0 0 1 9).condHolds (wWaitRec 0 0) = true ∧ (wWaitRec 0 0).cond ≠ 3 ∧
      (wWait 0 0 1 9).sramBad 0 (cfgOwner ((wWait 0 0 1 9).slotCfg (wWaitRec 0 0).core (wWaitRec 0 0).slot))
        (slotKey (wWaitRec 0 0).core (wWaitRec 0 0).slot) = false) ∧
    ((wWait 0 0 0 9).waitOf (.chan 0) = some (wWaitRec 0 0) ∧ (wWait 0 0 0 9).condHolds (wWaitRec 0 0) = false) ∧
    ((wWait 0 9 0 9).waitOf (.chan 0) = some (wWaitRec 0 9) ∧ (wWaitRec 0 9).timeout ≠ 0 ∧
      (wWait 0 9 0 9).condHolds (wWaitRec 0 9) = false ∧
      (wWait 0 9 0 9).now .tsu = (wWaitRec 0 9).tick + (wWaitRec 0 9).timeout.setWidth 64) ∧
    ((wWait 0 9 0 8).waitOf (.chan 0) = some (wWaitRec 0 9) ∧
      (wWait 0 9 0 8).now .tsu ≠ (wWaitRec 0 9).tick + (wWaitRec 0 9).timeout.setWidth 64) ∧
    ((wWait 0 0 0 16777216).waitOf (.chan 0) = some (wWaitRec 0 0) ∧ (wWaitRec 0 0).timeout = 0 ∧
      (wWait 0 0 0 16777216).condHolds (wWaitRec 0 0) = false ∧
      (wWait 0 0 0 16777216).now .tsu = (wWaitRec 0 0).tick + BitVec.ofNat 64 ((wWait 0 0 0 16777216).wdTicks (wWaitRec 0 0).ch)) ∧
    (wWaitRec 0 0).who = .chan (0 : Fin 8) := by decide +kernel

def wVerify (k : BitVec 16) : State := chan0 fun c => { c with verify := true, check := k }

theorem witness_StandbyBank :
    (((wVerify 0).chan (0 : Fin 8)).verify = true ∧ (wVerify 0).standbySum (0 : Fin 8) = ((wVerify 0).chan (0 : Fin 8)).check) ∧
    (((wVerify 1).chan (0 : Fin 8)).verify = true ∧ (wVerify 1).standbySum (0 : Fin 8) ≠ ((wVerify 1).chan (0 : Fin 8)).check) ∧
    (State.reset.chan (0 : Fin 8)).verify = false ∧
    ((state0 .ready).srcDenied .tsu .host = false ∧ ((state0 .ready).chan (0 : Fin 8)).state = .ready) ∧
    ((state0 .running).chan (0 : Fin 8)).state = .running ∧ State.reset.srcDenied .tsu .jtag = true := by decide

theorem witness_StationReports :
    (((state0 .running).chan (0 : Fin 8)).state = .running ∧ ((state0 .running).chan (0 : Fin 8)).prog.unsent.any Unsent.gate = false) ∧
    (State.reset.chan (0 : Fin 8)).state ≠ .running ∧ (7 : Word) ≠ 0 ∧ (State.reset.chan (0 : Fin 8)).ckptDue = none := by decide

/-! ## Votes -/

def wPendVote (field : Nat) : PendVote :=
  { field := field, group := 4, entry := 0, sel := 1, nosel := false, validTick := 9, result := none, done := false }
/-- Channel 0, RUNNING in step 0 of job 0, has a VOTE of group 4 open. -/
def wVoting (t : Tick) : State := chan0 (fun c => { c with state := .running, prog := { c.prog with pend := [wPendVote 2] } }) (tick t)
/-- The first word of a result of group 4, job 0, step 0. -/
def wResult : List Word := [put 64 31 20 4, 0]

theorem witness_ResultsAtTsu :
    (State.reset.consume .tsu 0 mtResult wResult).resultHits wResult = [] ∧
    ((wVoting 0).consume .tsu 0 mtResult wResult).resultHits wResult = [(0, wPendVote 2)] ∧
    (((wVoting 9).chan (0 : Fin 8)).prog.votePend (2 : Fin 5) = some (wPendVote 2) ∧ (wPendVote 2).validTick = (wVoting 9).now .tsu) ∧
    (((wVoting 8).chan (0 : Fin 8)).prog.votePend (2 : Fin 5) = some (wPendVote 2) ∧ (wPendVote 2).validTick ≠ (wVoting 8).now .tsu) ∧
    ((wPendVote 2).field ≠ 4 ∧ (wPendVote 2).result = none) ∧
    ({ wPendVote 2 with result := some (false, 0, []) } : PendVote).result = some (false, 0, []) ∧
    ({ wPendVote 4 with result := some (true, 0, []) } : PendVote).field = 4 := by decide

/-- A rack Jupin with group 4 of job 0 over ranks 0 to 3, which all lie on the die at port 5. -/
def wStage : State :=
  (((roled 1 0 (tick 248)).setReg64 .jup (grpBase 4) 1).setReg64 .jup (grpBase 4 + 16) (put 64 33 17 3 ||| bit1 64 63 true)).setReg64 .jup mapBase
    (MapRun.word { job := 0, first := 0, last := 3, port := 5, channel := 0, side := 0, state := 0 })
def wGroup : GroupRec :=
  { job := 0, op := 0, fmt := 0, lanes := 0, words := 1, span := 0, k := 0, dir := false, outFmt := 0, bins := 0, l2 := false,
    codewords := 0, divFail := false, nanFault := false, thresh := 0, cwSet := 0 }
/-- The gate contribution of rank 2. -/
def wContrib : List Word := [put 64 48 32 2 ||| put 64 31 20 4 ||| bit1 64 17 true ||| bit1 64 16 true, 0]
/-- The same group at a row Jupin, where port 5 leads to the ranks. -/
def wRow : State := roled 2 0 wStage
def wPartial : VotePartial :=
  { job := 0, group := 4, gate := true, failed := false, stepLo := 0, voteTick := 0, beginTick := 0, acc := .gate true }
def wVoteCtx : VoteCtx :=
  { job := 0, group := 4, gate := true, stepLo := 0, voteTick := some 0, beginTick := 0, got := [2], acc := .gate true }
def wDeadline : State := wStage.setVote 4 (some wVoteCtx)

theorem witness_InputsAtStage :
    (State.reset.consume .jup 5 mtVote wContrib).groupRec ((nthW wContrib 0).extractLsb' 20 12) = none ∧
    (wStage.role = 1 ∧ (wStage.consume .jup 5 mtVote wContrib).groupRec ((nthW wContrib 0).extractLsb' 20 12) = some wGroup ∧
      wGroup.job = (contribInput wGroup (wStage.now .jup) wContrib).job ∧
      (wStage.consume .jup 5 mtVote wContrib).contribOk 5 (contribInput wGroup (wStage.now .jup) wContrib) = true) ∧
    State.reset.groupRec wPartial.group = none ∧
    (wRow.groupRec wPartial.group = some wGroup ∧ wGroup.job = wPartial.job ∧
      (wRow.expectedOf wPartial.job (grpBase wPartial.group.toNat) (partialInput (wRow.now .jup) 5 wPartial).beginTick).contains 5 = true) ∧
    (wDeadline.voteCtx (4 : BitVec 12).toNat = some wVoteCtx ∧ wVoteCtx.voteTick = some 0 ∧
      wDeadline.now .jup = 0 + BitVec.ofNat 64 (stageDeadline wDeadline.role) ∧ wDeadline.groupRec 4 = some wGroup ∧
      wDeadline.missingInputs wVoteCtx ≠ []) ∧
    ((wDeadline.modTime .jup fun c => { c with htc := 249 }).voteCtx (4 : BitVec 12).toNat = some wVoteCtx ∧
      (wDeadline.modTime .jup fun c => { c with htc := 249 }).now .jup ≠ 0 + BitVec.ofNat 64 (stageDeadline wDeadline.role)) := by
  decide

theorem witness_VotesOrderFree : wGroup.op ∈ [0, 1, 2, 3, 9, 10, 11, 12] ∧ [(1 : Nat), 2].Perm [2, 1] := by decide

/-! ## Objects, signals, Conjunctions -/

/-- Core 0 runs a stream of channel 0; its slot 3 has the given configuration word and value. -/
def wCore (cfg : Half) (v : BitVec 8) : State :=
  ((State.reset.setReg .tsu (slotCfgOff 3) cfg).modSync fun y => { y with slots := tset {} [] 3 { v := v, old := v, at_ := 0 } }).modChan 0 fun c =>
    { c with state := .running, prog := { c.prog with streams := [{ program := 0, first := 0, count := 1, strideLog2 := 0, stations := 1, tick := 0 }] } }
def wReq (n : BitVec 8) : CoreReq := { core := 0, slot := 3, count := n, remote := false, rank := 0, timeout := 0, tag := 7 }
def flagCfg : Half := 0x40000000
def tallyCfg : Half := 0x80000000
def conjCfg1 : Half := 0xC0000001

/-- The die has a core 0 (R464). -/
theorem cores_pos : 0 < Config.fuseCores.toNat := by
  simp only [Config.fuseCores, BitVec.toNat_ofNat]; omega
theorem wCore_places : Stream.places { program := 0, first := 0, count := 1, strideLog2 := 0, stations := 1, tick := 0 } = [(0, 0)] := by
  have h : decide (0 + 0 * 2 ^ 0 < Config.fuseCores.toNat) = true := by simpa using cores_pos
  simp only [Stream.places, List.range_succ, List.range_zero, List.nil_append, List.filter_cons, h]; decide
/-- Core 0 acts for channel 0 where its stream runs. -/
theorem acting0 (s : State) (h : (s.chan 0).prog.streams = [{ program := 0, first := 0, count := 1, strideLog2 := 0, stations := 1, tick := 0 }])
    (h' : ((List.range 7).all fun c => (s.chan (c + 1)).prog.streams.isEmpty) = true) : s.actingChan 0 = some 0 := by
  have h0 : s.lastStream 0 0 = some (0, 0) := by
    unfold State.lastStream
    rw [h, List.find?_cons]
    simp only [Stream.names, wCore_places]; decide
  have hn (c : Nat) (hc : c < 7) : s.lastStream 0 (c + 1) = none := by
    have := List.all_eq_true.mp h' c (List.mem_range.mpr hc)
    unfold State.lastStream
    rw [List.isEmpty_iff.mp this]; rfl
  unfold State.actingChan chanNums
  simp only [List.foldl_cons, List.foldl_nil, h0, hn 0 (by decide), hn 1 (by decide), hn 2 (by decide), hn 3 (by decide), hn 4 (by decide),
    hn 5 (by decide), hn 6 (by decide)]
  rfl
/-- What core 0 is allowed, with its channel known. -/
theorem allowed0 (s : State) (r : CoreReq) (op : Nat) (hr : r.core = 0)
    (h : (s.chan 0).prog.streams = [{ program := 0, first := 0, count := 1, strideLog2 := 0, stations := 1, tick := 0 }])
    (h' : ((List.range 7).all fun c => (s.chan (c + 1)).prog.streams.isEmpty) = true) :
    s.coreAllowed r op = (s.opAllowed 0 r.core r.slot op && !((decide (4 ≤ op ∧ op ≤ 8)) && (s.waitOf (.core r.core)).isSome) && !(r.remote && decide (2 < op))) := by
  unfold State.coreAllowed; rw [hr, acting0 s h h']

theorem witness_CoreOperations :
    ((wReq 1).remote = false ∧ (wCore flagCfg 0).coreAllowed (wReq 1) 0 = true ∧ (wCore flagCfg 0).coreAllowed (wReq 1) 1 = true ∧
      (wCore tallyCfg 0).coreAllowed (wReq 1) 2 = true ∧ (wCore tallyCfg 0).coreAllowed (wReq 1) 3 = true ∧
      (wCore tallyCfg 0).coreAllowed (wReq 1) 0 = false ∧ (wCore flagCfg 0).coreAllowed (wReq 1) 3 = false) ∧
    (wCore tallyCfg 250).sramBad 0 (cfgOwner ((wCore tallyCfg 250).slotCfg 0 3)) (slotKey 0 3) = false ∧
    (((wCore tallyCfg 250).slotVal (slotKey 0 3)).toNat + (5 : BitVec 8).toNat ≤ 255 ∧
      255 < ((wCore tallyCfg 250).slotVal (slotKey 0 3)).toNat + (6 : BitVec 8).toNat ∧
      (250 : BitVec 8) ≤ (wCore tallyCfg 250).slotVal (slotKey 0 3) ∧ (wCore tallyCfg 250).slotVal (slotKey 0 3) < (251 : BitVec 8)) := by
  repeat rw [allowed0 _ _ _ rfl rfl rfl]
  decide +kernel

/-- Conjunction record 1 counts two entries of this die. -/
def wConj (cur next : BitVec 8) : State :=
  ((wCore conjCfg1 0).setReg .tsu (conjCfgOff 1) 2).modConj 1 fun x => { x with cur := cur, next := next }
def wWaiting : State := (wCore flagCfg 0).modSync fun y => { y with waits := [CoreReq.wait (wReq 0) 0 0 0 0] }

theorem witness_CoreWaits :
    ((wCore flagCfg 0).coreAllowed (wReq 0) 4 = true ∧ (wCore flagCfg 0).coreAllowed (wReq 0) 5 = true ∧
      (wCore tallyCfg 0).coreAllowed (wReq 1) 6 = true ∧ (wCore tallyCfg 0).coreAllowed (wReq 1) 7 = true) ∧
    ((wConj 1 0).coreAllowed (wReq 0) 8 = true ∧ (wConj 1 0).coreAllowed (wReq 0) 9 = true ∧
      (wConj 1 0).entryRound (cfgRec ((wConj 1 0).slotCfg (wReq 0).core (wReq 0).slot)) = some 0) ∧
    ((wConj 2 2).coreAllowed (wReq 0) 9 = true ∧
      (wConj 2 2).entryRound (cfgRec ((wConj 2 2).slotCfg (wReq 0).core (wReq 0).slot)) = none) ∧
    (wWaiting.waitOf (.core (wReq 0).core)).isSome = true := by
  repeat rw [allowed0 _ _ _ rfl rfl rfl]
  decide +kernel

/-- A GIVE of 1 on core 0, slot 3, for job 0, rank 0, RUN `run`, from path 9. -/
def wSignal (run : Nat) : List Word := [put 64 14 7 run, put 64 52 47 3 ||| put 64 46 45 2 ||| put 64 44 37 1 ||| put 64 31 0 9, 0]
def wHeld (t : Tick) : State :=
  (tick t).modSync fun y => { y with held := [{ tag := 5, words := wSignal 0, ch := 0, arrival := 0, reached := some 10 }] }

theorem witness_RemoteSignals :
    State.reset.servingChan ((nthW (wSignal 0) 0).extractLsb' 49 15) ((nthW (wSignal 0) 0).extractLsb' 32 17) = none ∧
    ((wCore tallyCfg 0).servingChan ((nthW (wSignal 1) 0).extractLsb' 49 15) ((nthW (wSignal 1) 0).extractLsb' 32 17) = some 0 ∧
      (nthW (wSignal 1) 0).extractLsb' 7 8 ≠ ((wCore tallyCfg 0).chan 0).run) ∧
    ((wCore tallyCfg 0).servingChan ((nthW (wSignal 0) 0).extractLsb' 49 15) ((nthW (wSignal 0) 0).extractLsb' 32 17) = some 0 ∧
      (nthW (wSignal 0) 0).extractLsb' 7 8 = ((wCore tallyCfg 0).chan 0).run ∧
      (wCore tallyCfg 0).opAllowed 0 (sigCore (wSignal 0)) (sigSlot (wSignal 0)) (sigOpCode (wSignal 0)) = true ∧
      (wCore tallyCfg 0).tsu.sync.held.length < 256) ∧
    ((wHeld 32).visibleDue 5 = some { tag := 5, words := wSignal 0, ch := 0, arrival := 0, reached := some 10 } ∧
      (wHeld 31).visibleDue 5 = none) := by decide

def wControl (cfg : Half) : State := (wCore cfg 0).modSec .tsu fun x => { x with session := .control }
def wForced : State := (tick 64).modSync fun y => { y with forced := [(1, 64)] }

theorem witness_DebugWrites :
    State.reset.tsuC.sec.session ≠ .control ∧
    ((wControl flagCfg).tsuC.sec.session = .control ∧ cfgKind ((wControl flagCfg).slotCfg 0 3) = 1 ∧
      cfgKind ((wControl tallyCfg).slotCfg 0 3) = 2 ∧ cfgKind ((wControl conjCfg1).slotCfg 0 3) = 3) ∧
    (((1 : BitVec 12).toNat, wForced.now .tsu) ∈ wForced.tsu.sync.forced ∧
      ((2 : BitVec 12).toNat, wForced.now .tsu) ∉ wForced.tsu.sync.forced) := by decide

/-- Record 1 released at tick 7, local to the die or over a group. -/
def wRelease (cfg : Half) : State :=
  ((tick 7).setReg .tsu (conjCfgOff 1) cfg).modConj 1 fun x => { x with cur := 1, release := some 7 }
def wDrain : State := State.reset.modSync fun y => { y with drain := [(1, 0)], drainNext := [(2, 0)] }
/-- Record 1 of group 4 over a rack, owned by channel 0 of job 0. -/
def wGroupConj : State := ((state0 .running).setReg .tsu (conjCfgOff 1) (put 32 31 20 4 ||| put 32 19 18 1 ||| 2))

theorem witness_ConjunctionRounds :
    State.reset.tsu.sync.drain = [] ∧ wDrain.tsu.sync.drain ≠ [] ∧
    (((wRelease 2).conjRec (1 : BitVec 12).toNat).release = some ((wRelease 2).now .tsu) ∧
      conjSpan ((wRelease 2).conjCfg (1 : BitVec 12).toNat) = 0) ∧
    (((wRelease 0x40002).conjRec (1 : BitVec 12).toNat).release = some ((wRelease 0x40002).now .tsu) ∧
      conjSpan ((wRelease 0x40002).conjCfg (1 : BitVec 12).toNat) ≠ 0) ∧
    (State.reset.conjRec (1 : BitVec 12).toNat).release ≠ some (State.reset.now .tsu) ∧
    (State.reset.consume .jup 0 mtConjArrive wResult).conjGroupRec (fld (nthW wResult 0) 31 20) = none ∧
    (State.reset.consume .tsu 0 mtConjRelease wResult).groupRecs ((nthW wResult 0).extractLsb' 49 15) ((nthW wResult 0).extractLsb' 20 12) = [] ∧
    (wGroupConj.consume .tsu 0 mtConjRelease wResult).groupRecs ((nthW wResult 0).extractLsb' 49 15) ((nthW wResult 0).extractLsb' 20 12) = [1] := by
  decide

/-! ## Transit Line -/

/-- Link 0 of a device in a state of its own, both counters at `t`. -/
def lctl (d : Dev) (f : LinkCtl → LinkCtl) (t : Tick := 0) : State := (tick t).modLink d 0 fun l => { l with ctl := f l.ctl }
def lst (d : Dev) (x : LState) (t : Tick := 0) : State := lctl d (fun c => { c with lstate := x }) t

theorem witness_ParityGuards : (0 : Nat) < 66 ∧ (65 : Nat) < 66 ∧
    ((lctl .tsu fun c => { c with frameLock := true }).link .tsu 0).ctl.frameLock = true ∧
    [lineWord 1, lineWord 2 ^^^ 1].all wordOk = false ∧ (State.reset.link .tsu 0).ctl.frameLock = false := by decide +kernel

theorem witness_FramesLaunched :
    (((tick 7).modLink .tsu 0 fun l => { l with tx := { l.tx with lastLaunch := some 7 } }).link .tsu 0).tx.lastLaunch = some 7 ∧
    ((lst .tsu .down).link .tsu 0).ctl.lstate = .down ∧ ((lst .jup .train).link .jup 0).ctl.lstate = .train ∧
    (((lst .tsu .service 5).link .tsu 0).tx.lastLaunch ≠ some ((lst .tsu .service 5).now .tsu) ∧
      ((lst .tsu .service 5).link .tsu 0).ctl.lstate = .service ∧ ((lst .tsu .service 5).now .tsu).toNat % 128 ≠ 0) ∧
    (replayFrame (((lst .tsu .service 5).dropFenced .tsu 0).link .tsu 0).tx = none ∧
      stepReady (((lst .tsu .service 5).dropFenced .tsu 0).link .tsu 0) = false ∧
      ((lst .tsu .service 5).dropFenced .tsu 0).bulkReady .tsu 0 = false) ∧
    timedOut (State.reset.link .tsu 0) (State.reset.now .tsu) true = false := by decide

def wDelivery : Delivery :=
  { handle := 0x01000005, kind := 0, results := none, fromPort := 88, left := [(3, none)], delivered := 0, expected := 1 }

theorem witness_FlowsAndDeliveries :
    State.reset.jupC.deliveries = [] ∧
    ((State.reset.modCom .jup fun c => { c with deliveries := [wDelivery] }).jupC.deliveries = [wDelivery] ∧
      wDelivery.handle = (nthW [put 64 63 32 0x01000005, put 64 63 32 1] 0).extractLsb' 32 32 ∧
      wDelivery.left.any (fun e => decide (e.1 = 3)) = true) := by decide

def wLong : State := lctl .jup (fun c => { c with downSince := some 0, lstate := .down }) 0x100000000
theorem witness_LinkStates :
    (((lst .tsu .down).link .tsu 0).ctl.lstate = .down ∧ ((lst .tsu .down).link .tsu 0).ctl.disable = false ∧
      ((lst .tsu .down).link .tsu 0).ctl.trainFails < 3) ∧
    ((lctl .jup fun c => { c with disable := true }).link .jup 0).ctl.disable = true ∧
    ((lst .tsu .train).link .tsu 0).ctl.lstate = .train ∧ ((lst .tsu .align).link .tsu 0).ctl.lstate ≠ .train ∧
    ((lst .jup .align).link .jup 0).ctl.lstate = .align ∧
    ((lst .tsu .train 3200001).overran .tsu 0 = true ∧ ((lst .tsu .train 3200001).link .tsu 0).ctl.trainFails = 0 ∧
      (lst .tsu .train 3200000).overran .tsu 0 = false ∧ (lst .tsu .align 160001).overran .tsu 0 = true) ∧
    ((lctl .tsu (fun c => { c with lstate := .align, trainFails := 2 }) 160001).overran .tsu 0 = true ∧
      3 ≤ ((((lctl .tsu (fun c => { c with lstate := .align, trainFails := 2 }) 160001).linkToDown .tsu 0).modCtl .tsu 0 fun c =>
        { c with trainFails := c.trainFails + 1 }).link .tsu 0).ctl.trainFails) ∧
    ((lst .tsu .service).link .tsu 0).ctl.lstate = .service ∧
    ((lctl .tsu (fun c => { c with trainFails := 3 }) 1600000000).link .tsu 0).ctl.trainFails = 3 ∧
    ((0 : Tick).toNat + 1600000000 ≤ ((lctl .tsu (fun c => { c with trainFails := 3 }) 1600000000).now .tsu).toNat) ∧
    ((wLong.link .jup 0).ctl.downSince = some 0 ∧ (wLong.link .jup 0).ctl.lstate ≠ .service ∧
      (0 : Tick).toNat + 2 ^ wLong.downLog2 0 ≤ (wLong.now .jup).toNat ∧ (wLong.link .jup 0).ctl.downRaised = false) := by decide +kernel

def secured (f : Security → Security) : State := State.reset.modSec .tsu f
theorem witness_LinkControlTaken :
    ((lst .tsu .down).link .tsu 0).ctl.lstate ≠ .align ∧
    (((lctl .tsu fun c => { c with lstate := .align, frameLock := true }).link .tsu 0).ctl.lstate = .align ∧
      ((lctl .tsu fun c => { c with lstate := .align, frameLock := true }).link .tsu 0).ctl.frameLock = true) ∧
    State.reset.injDenied .tsu .host = false ∧ State.reset.injDenied .tsu .jtag = true ∧
    ((secured fun x => { x with level := .sealed_ }).tsuC.sec.level = .sealed_ ∧
      (secured fun x => { x with level := .sealed_ }).tsuC.sec.session ≠ .observe) := by decide

def wFence (t : Tick) : Fence := { job := 7, domain := false, path := 5, tick := t }
def wFenced : State := (tick 9).modLink .jup 3 fun l => { l with fences := [wFence 9] }
def wAsked (clear : Bool) : State := { State.reset with tsu := { nfAsked := [(clear, some 2, 5)] } }
theorem witness_FencesAct :
    (fenceOf (fenceWords (wFence 9))).domain = false ∧
    ((roled 1 0 State.reset).consume .jup 88 mtFence (fenceWords (wFence 9))).pathPort (fenceOf (fenceWords (wFence 9))).path = some (some 5) ∧
    (∀ f ∈ (State.reset.link .jup 3).fences, f.tick ≠ State.reset.now .jup) ∧
    ((wFenced.link .jup 3).fences = [wFence 9] ∧ (wFence 9).tick = wFenced.now .jup) ∧
    (fenceOf (fenceWords { wFence 9 with domain := true })).domain = true ∧
    State.reset.tsu.nfAsked = [] ∧ (wAsked true).tsu.nfAsked = [(true, some 2, 5)] ∧ (wAsked false).tsu.nfAsked = [(false, some 2, 5)] := by decide

theorem witness_WordsRoundTrip :
    (localMsg mtFence [1, 2]).words.length < 4096 ∧ (-2147483648 : Int) ≤ -1 ∧ (-1 : Int) < 2147483648 ∧ (7 : Nat) < 8 := by decide

/-! ## The journal and its ages -/

/-- Some handle is issued for a command of a device. -/
def got (d : Dev) (op : BitVec 8) (s : State) : Bool := (s.accept d hdr op).2.isSome
/-- A Jupin of the given role whose record 0 is that of job 7, ranks 0 to 3, all on port 5. -/
def wJob (r : Nat) (s : State := State.reset) : State :=
  ((roled r 0 s).setReg64 .jup (jobBase 0) (put 64 63 49 7 ||| put 64 48 32 3 ||| 1)).setReg64 .jup mapBase
    (MapRun.word { job := 7, first := 0, last := 3, port := 5, channel := 0, side := 0, state := 0 })
/-- An append of an INPUT of job 7 with one data word, and its record. -/
def wAppend (kind : Nat) (crc : Half) : List Word :=
  [put 64 63 49 7 ||| put 64 31 28 kind, 1, put 64 63 24 5, put 64 63 32 crc.toNat ||| put 64 31 16 1, 0x1234]
def wCrc : Half := crc32c [0x1234]
def wRec (durable : Bool) : JrnRec := { recordOf (wAppend 1 wCrc) 0 0 with durable := durable }
def wStored (durable : Bool) : State := State.reset.modJup fun j => { j with journal := [(0, wRec durable)] }
def wQuota (n : Nat) : State := (wJob 1).setJobWord 7 4 (BitVec.ofNat 64 n)
def wPassed : State := (wJob 1).modStage fun x => { x with committed := tset none x.committed 7 (some 1) }

theorem witness_JournalRecords :
    fld (nthW (wAppend 0 0) 0) 31 28 = 0 ∧ 3 < fld (nthW (wAppend 4 0) 0) 31 28 ∧ 3 < fld (nthW (wAppend 15 0) 0) 31 28 ∧
    (1 ≤ fld (nthW (wAppend 1 0) 0) 31 28 ∧ fld (nthW (wAppend 3 0) 0) 31 28 ≤ 3) ∧
    crc32c ((recordOf (wAppend 1 0) State.reset.jup.journalBlock (State.reset.now .jup)).data.drop 4) ≠ (nthW (wAppend 1 0) 3).extractLsb' 32 32 ∧
    ((wStored true).jup.journal = [(0, wRec true)] ∧ (wRec true).kind = 1 ∧ (wRec true).durable = true ∧
      fld (nthW (wAppend 1 wCrc) 0) 31 28 = 1 ∧
      (recordOf (wAppend 1 wCrc) (wStored true).jup.journalBlock ((wStored true).now .jup)).crcOk = true ∧
      sameChunk (wRec true) (recordOf (wAppend 1 wCrc) (wStored true).jup.journalBlock ((wStored true).now .jup)) = true ∧
      (wRec true).crc = (nthW (wAppend 1 wCrc) 3).extractLsb' 32 32) ∧
    ((wRec false).crcOk = true ∧ (wQuota 64).jup.journal.any (fun e => sameChunk e.2 (wRec false) && e.2.durable) = false ∧
      (wQuota 64).stepPassed (wRec false) = false ∧ (wQuota 64).usage (wRec false).job + (wRec false).bytes ≤ ((wQuota 64).jobWord (wRec false).job 4).toNat) ∧
    (wPassed.jup.journal.any (fun e => sameChunk e.2 (wRec false) && e.2.durable) = false ∧ wPassed.stepPassed (wRec false) = true) ∧
    ((wQuota 63).stepPassed (wRec false) = false ∧
      ((wQuota 63).jobWord (wRec false).job 4).toNat < (wQuota 63).usage (wRec false).job + (wRec false).bytes) := by
  decide +kernel

def wEnded : State := (tick 0x400000000).modJup fun j => { j with journal := [(0, { wRec true with kind := 2, endTick := some 0 })] }
def wShadow : Shadow := { job := 7, rank := 2, step := 9 }
def wTrack (t : Tick) : State :=
  (tick t).modJup fun j => { j with tracker := tset none j.tracker 3 (some { handle := 1, kind := .command, job := none, deadline := 5, delivered := 0, expected := 1 }) }
def wStandby : State :=
  (roled 1 2 (tick 0x100000000)).modLink .jup 94 fun l => { l with ctl := { l.ctl with downSince := some 0 } }
def wBothDown : State := wStandby.modLink .jup 90 fun l => { l with ctl := { l.ctl with downSince := some 0 } }

theorem witness_RecordsAge :
    ((wStored false).jup.journal = [(0, wRec false)] ∧ (wRec false).durable = false) ∧
    ((wStored true).jup.journal = [(0, wRec true)] ∧ (wRec true).durable = true) ∧ State.reset.jup.journal = [] ∧
    wEnded.ageDue 7 5 = true ∧ (wStored true).ageDue 7 5 = false ∧ (∀ e ∈ (wStored true).jup.journal, e.2.endTick = none) ∧
    ((State.reset.modJup fun j => { j with shadows := [wShadow] }).jup.shadows = [wShadow] ∧ wShadow.job = 7 ∧ wShadow.rank = 2) ∧
    (tget none (wTrack 6).jup.tracker (3 : BitVec 16).toNat).isSome = true ∧ (5 : Tick) < (wTrack 6).now .jup ∧
      ¬ (5 : Tick) < (wTrack 5).now .jup ∧
    (wBothDown.side = 2 ∧ (standbyLinks false).all wBothDown.longDown = true ∧ wBothDown.jup.takeover.contains false = false) ∧
    State.reset.side ≠ 2 ∧ (wBothDown.modJup fun j => { j with takeover := [true] }).jup.takeover.contains true = true := by decide +kernel

/-! ## Images and restores -/

/-- The words of an image header before its keys: KIND, SIGNER, EVAL_ONLY and the section types. -/
def wHeader (kind signer : Nat) (eval : Bool) (types : List Nat) : List Word :=
  [put 64 63 32 0x51474F4E ||| put 64 31 24 3 ||| put 64 23 20 kind ||| put 64 15 14 signer ||| bit1 64 8 eval ||| put 64 7 0 types.length, 0, 0] ++
    types.flatMap fun t => [put 64 63 56 t, 0, 0, 0, 0, 0, 0]
def wLoad (header : List Word) (dest : LoadTo) (ready : Bool := false) : Load :=
  { handle := none, dest := dest, stage := 0, tablesOnly := false, header := header, headerDone := false, sections := [], pos := 0, frame := 0,
    body := [], checked := 0, staged := [], applied := [], kept := [], ready := ready }
def wLoading (l : Load) : State := ((State.reset.modCom .jup fun c => { c with load := some l }).modCom .tsu fun c => { c with load := some l }).modSec .jup fun x => { x with lcRead := true }
def wGen (signer : Nat) (eval : Bool) : Load := wLoad (wHeader 3 signer eval [0x30, 0x31, 0x32]) (.generation 5)
def wSelf : Load := wLoad (wHeader 1 0 false [0x10, 0x11, 0x12]) .self
def owned : State := State.reset.modSec .jup fun x => { x with level := .owner }
/-- The first frame of a header section, of three words. -/
def wFrame : List Word := [put 64 35 27 2, put 64 7 0 1, 0, 0]

theorem witness_LoadsJudged :
    got .tsu opLoadImage State.reset = true ∧ (got .jup opLoadImage State.reset = true ∧ (87 : BitVec 7).toNat < 88) ∧
    (wLoading (wLoad [] .self)).jupC.load ≠ none ∧ (State.reset.tsuC.load = none ∧ (state0 .ready).anyBound = true) ∧
    State.reset.jupC.sec.lcRead = false ∧
    ((wLoading (wLoad [] .self)).jupC.sec.lcRead = true ∧ (wLoading (wLoad [] .self)).jupC.load = some (wLoad [] .self) ∧
      fld (nthW [put 64 63 56 1] 0) 63 56 ≠ (wLoad [] .self).pos) ∧
    ((State.reset.modSec .jup fun x => { x with lcRead := true }).jupC.sec.lcRead = true ∧ State.reset.jupC.load = none) ∧
    ((wLoad [] .self).ready = false ∧ (wLoad [] .self).pos = 0 ∧ fld (nthW wFrame 0) 63 56 = 0 ∧
      fld (nthW wFrame 0) 55 36 = (wLoad [] .self).frame ∧
      (wFrame.drop 1).length = fld (nthW wFrame 0) 35 27 + 1 ∧
      ((wLoad [] .self).header ++ wFrame.drop 1).length < headerLen ((wLoad [] .self).header ++ wFrame.drop 1) ∧
      1 ≤ imgSections ((wLoad [] .self).header ++ wFrame.drop 1) ∧ imgSections ((wLoad [] .self).header ++ wFrame.drop 1) ≤ 64) ∧
    ((wLoad [] (.generation 5) true).ready = true ∧ (wLoad [] (.generation 5) true).dest = .generation 5 ∧
      Table.wf {} State.reset.jup.gens = true ∧ Table.wf false State.reset.jup.genActive = true) ∧
    ((wLoad [] .self true).ready = true ∧ (wLoad [] .self true).staged = []) ∧
    (State.reset.modSec .tsu fun x => { x with imgLock := true }).tsuC.sec.imgLock = true ∧
    (State.reset.jupC.sec.imgLock = false ∧ headerOk .jup (wLoad [] .self) [] = false) ∧
    (headerOk .jup wSelf wSelf.header = true ∧ imgKind wSelf.header = 1 ∧ (wJob 1).mapRuns ≠ [] ∧ (wJob 1).jupC.sec.imgLock = false) ∧
    (owned.jupC.sec.imgLock = false ∧ headerOk .jup (wGen 0 true) (wGen 0 true).header = true ∧ imgKind (wGen 0 true).header ≠ 1 ∧
      imgEval (wGen 0 true).header = true ∧ owned.jupC.sec.level ≠ .opened) ∧
    (headerOk .jup (wGen 0 false) (wGen 0 false).header = true ∧ imgKind (wGen 0 false).header ≠ 1 ∧ imgEval (wGen 0 false).header = false ∧
      versionOk State.reset.jupC.sec (wGen 0 false).header = true ∧ signatureOk State.reset.jupC.sec (wGen 0 false).header = true) ∧
    (versionOk owned.jupC.sec (wGen 0 false).header = true ∧ signatureOk owned.jupC.sec (wGen 0 false).header = false) ∧
    imgSigner (wGen 0 false).header = 0 ∧ (imgSigner (wGen 2 false).header = 2 ∧ State.reset.jupC.sec.fuses.owner = 0) ∧
    (imgSigner (wGen 1 false).header = 1 ∧ owned.jupC.sec.allowVendor = false) := by decide +kernel

def wRestore (streaming : Bool) : RestoreOp :=
  { handle := some 0x01000000, source := 5, job := none, sections := 7, gen := false, override := false, streaming := streaming, sent := 640, opened := 0 }
def wRestoring (streaming : Bool) (x : LState) : State :=
  (State.reset.modJup fun j => { j with restores := tset none [] 5 (some (wRestore streaming)) }).modLink .jup 5 fun l => { l with ctl := { l.ctl with lstate := x } }
def wGenOf (bad : Bool) : State := State.reset.modJup fun j => { j with gens := tset {} [] (genKey 5 false) { header := [1], sections := [], bad := bad } }
def wOwnedPort : State := (wJob 1).setReg .jup (portOwnOff 5 0) 0x80000007
def wId : Identity := { stepping := 0, grade := 0, mapClass := 0, tsuVer := 0, fwVersion := 0, fwSet := true }

theorem witness_RestoresRun :
    got .jup opRestore State.reset = true ∧ State.reset.pathPort 5 = none ∧
    (tget none (wGenOf true).jup.restores 5 = none ∧ (wGenOf true).dieOwned 5 = false ∧
      ((wGenOf true).gen 5 (wRestore false).gen).bad = true) ∧
    (tget none (wGenOf false).jup.restores 5 = none ∧ (wGenOf false).dieOwned 5 = false ∧
      ((wGenOf false).gen 5 (wRestore false).gen).bad = false ∧
      ((wGenOf false).gen 5 (wRestore false).gen).header ≠ []) ∧
    (wOwnedPort.dieOwned 5 = true ∧ wOwnedPort.domainFenced 5 = false ∧ imageOnly (wRestore false).sections = false) ∧
    tget none State.reset.jup.restores (5 : BitVec 7).toNat = none ∧
    (tget none (wRestoring false .service).jup.restores (5 : BitVec 7).toNat = some (wRestore false) ∧ (wRestore false).streaming = false ∧
      ((wRestoring false .service).link .jup (5 : BitVec 7).toNat).ctl.lstate = .service ∧ wId.fwSet = true) ∧
    (tget none (wRestoring false .timing).jup.restores (5 : BitVec 7).toNat = some (wRestore false) ∧
      ((wRestoring false .timing).link .jup (5 : BitVec 7).toNat).ctl.lstate ≠ .service) ∧
    (nthW [put 64 63 56 0x32, 1] 0).extractLsb' 56 8 = 0x32 ∧
    ((nthW [put 64 63 56 0x31, 1] 0).extractLsb' 56 8 = 0x31 ∧ State.reset.tsuC.sec.lcRead = false) ∧
      (roled 3 0 State.reset).role ≠ 1 := by decide +kernel

/-! ## Jobs, recovery, Shutters -/

/-- A command of job 7 that gets its handle at the Jupin, and the state it leaves. -/
def gotJ (op : BitVec 8) (s : State) : Bool := (s.accept .jup hdr op (job := some 7)).2.isSome
def accJob (op : BitVec 8) (s : State) : State := (s.accept .jup hdr op (job := some 7)).1
def wMargin : State := wJob 1 (tick 100)

theorem witness_JobCommands :
    (∀ op ∈ [opStartJob, opTeardownJob, opHoldJob, opResumeJob, opStretchJob, opSetQuota, opRemapRank, opBringIn],
      gotJ op (wJob 1) = true ∧ (accJob op (wJob 1)).jobPlace 7 = .top) ∧
    (accJob opSetQuota (wJob 1)).role = 1 ∧
    ((accJob opRemapRank (wJob 1)).below 5 = true ∧ (0 : BitVec 17) ≤ (accJob opRemapRank (wJob 1)).lastRank 7 ∧
      (3 : BitVec 17) ≤ (accJob opBringIn (wJob 1)).lastRank 7) ∧
    (accJob opRemapRank (wJob 1)).below 0xFFFFFFFF = false ∧ (wJob 2).jobPlace 7 = .port 5 ∧ (wJob 3).jobPlace 8 = .unknown ∧
    ((State.reset.modSec .jup fun x => { x with session := .none }).accept .jup jtag opStartJob (job := some 7)).2 = none ∧
    State.reset.jup.jobImages = [] ∧
    ((1 : Tick) ≠ 0 ∧
      (1 : Tick) < wMargin.tcFrom (wMargin.runFree 7 (nextRun (wMargin.jobRun 7))) + BitVec.ofNat 64 (wMargin.jobMargin 7)) ∧
    (got .jup opFence wOwnedPort = true ∧ (accJ opFence wOwnedPort).pathPort 5 = some (some 5) ∧ (accJ opFence wOwnedPort).role = 1 ∧
      (5 : Nat) < 88 ∧
      (accJ opFence wOwnedPort).ownsPort 5 7 = true ∧ (accJ opFence wOwnedPort).ownsPort 5 6 = false ∧
      (accJ opFence wOwnedPort).now .jup + 1 ≤ 1 ∧ (0 : Tick) < (accJ opFence wOwnedPort).now .jup + 1) ∧
    (got .jup opFence State.reset = true ∧ (accJ opFence State.reset).pathPort 5 = none) ∧ (254 : BitVec 8) ≠ 255 := by decide +kernel

def wBring (mode : Nat) : BringIn :=
  { handle := 1, job := 7, rank := 2, spare := 5, second := none, mode := mode, phase := 1, started := 0 }
def wBringing (mode : Nat) (t : Tick := 0) : State := (tick t).modJup fun j => { j with bringIns := [wBring mode] }
def wCheckpoint : State := (wBringing 1).modJup fun j => { j with journal := [(0, { wRec true with rank := 2, kind := 3 })] }
def wRerun : State := (wJob 1).modStage fun x => { x with rerun := [(7, 4)] }
def wGrace : State := wRerun.modBlock .jup 5 fun b => { b with grace := true }
def wForward : Forward := { handle := 0x01000002, fromPort := ownPort, left := [3], status := stOk, results := [] }

theorem witness_RecoveryRuns :
    (tget none (wRestoring true .service).jup.restores (5 : BitVec 7).toNat = some (wRestore true) ∧ (wRestore true).streaming = true) ∧
    (tget none (wRestoring false .service).jup.restores (5 : BitVec 7).toNat = some (wRestore false) ∧ (wRestore false).streaming = false) ∧
    ((wRestore true).handle = some 0x01000000 ∧ (wRestoring true .service).healthState 5 ≠ 3) ∧
    ((wBringing 0).jup.bringIns = [wBring 0] ∧ (wBring 0).job = 7 ∧ (wBring 0).rank = 2 ∧ (wBring 0).mode = 0 ∧ (wBring 0).phase = 1 ∧
      (wBringing 0).copyCurrent 7 2 = true ∧ (1 : Word) ≠ 2) ∧
    State.reset.jup.bringIns = [] ∧
    (wCheckpoint.jup.bringIns = [wBring 1] ∧ (wBring 1).mode = 1 ∧ (wBring 1).spare = 5 ∧ (wCheckpoint.checkpointOf 7 2).map (fun c => nthW c.data 4) = some 0x1234 ∧
      (wBringing 1).checkpointOf 7 2 = none ∧ (0x1235 : Word) ≠ 0x1234) ∧
    ((wBringing 1 0x100000000).jup.bringIns = [wBring 1] ∧ (wBring 1).started.toNat + 2 ^ 32 ≤ ((wBringing 1 0x100000000).now .jup).toNat) ∧
    ((wBringing 1 0xFFFFFFFF).jup.bringIns = [wBring 1] ∧ ((wBringing 1 0xFFFFFFFF).now .jup).toNat < (wBring 1).started.toNat + 2 ^ 32) ∧
    (wRerun.jup.stage.rerun = [(7, 4)] ∧ wRerun.rerunReady 7 = true) ∧ (wGrace.jup.stage.rerun = [(7, 4)] ∧ wGrace.rerunReady 7 = false) ∧
    State.reset.jup.stage.rerun = [] ∧ State.reset.jup.forwards = [] ∧
    ((State.reset.modJup fun j => { j with forwards := [wForward] }).jup.forwards = [wForward] ∧
      wForward.handle = (nthW [put 64 63 32 0x01000002, 0] 0).extractLsb' 32 32 ∧ wForward.left = [3]) := by decide +kernel

def wShut (f : Shut → Shut) (t : Tick := 0) : State := (tick t).modShut .tsu f
def wPlate (reading : Bool) : Plate := { id := 1, set := 2, tick := 0, level := 0, masked := false, present := 0, absent := 0, words := [1, 2], reading := reading }

theorem witness_ShuttersTaken :
    (got .jup opShutter State.reset = true ∧ (accJ opShutter State.reset).role ≠ 3) ∧
    (got .jup opShutter root = true ∧ (accJ opShutter root).role = 3 ∧ (accJ opShutter root).jup.timeMaster = true ∧
      (16383 : Tick) < (accJ opShutter root).now .jup + 16384 ∧ (accJ opShutter root).now .jup + 16384 ≤ 16384) ∧
    ((wShut fun x => { x with seen := [9] }).tsuC.shut.seen.contains ((nthW [put 64 63 48 9, 5] 0).extractLsb' 48 16) = true) ∧
    (State.reset.tsuC.shut.seen = [] ∧ State.reset.now .tsu < nthW [put 64 63 48 9, 5] 1) ∧
    (∀ e ∈ (State.reset.com .jup).shut.waiting, e.2.2.1 ≠ State.reset.now .jup) ∧
    ((wShut fun x => { x with waiting := [(9, 2, 0, 0, 1)] }).tsuC.shut.waiting = [(9, 2, 0, 0, 1)] ∧ (0 : Tick) = (wShut id).now .tsu) ∧
    (((State.reset.accept .tsu hdr opReadPlate true).2.isSome = true) ∧
      (State.reset.accept .tsu hdr opReadPlate true).1.plateFor .tsu none 2 = none) ∧
    (((wShut fun x => { x with plates := [wPlate false] }).accept .tsu hdr opReadPlate true).2.isSome = true ∧
      ((wShut fun x => { x with plates := [wPlate false] }).accept .tsu hdr opReadPlate true).1.plateFor .tsu none 2 = some (wPlate false)) ∧
    ((wPlate false).reading = false ∧ (wPlate true).reading = true) := by decide +kernel

/-! ## Commit groups, commands, faults -/

def wCoord (x : CoordState) (ms : List Target := [.self]) : CoordGroup :=
  { handle := 1, members := ms, state := x, stages := [], prepareTick := 0, tc := 0, delivered := 0, expected := 1, partialPath := none, serves := none }
def wCoordAt (d : Dev) (x : CoordState) (t : Tick := 0) : State := (tick t).modCom d fun c => { c with coord := [wCoord x] }
def wMember : MemberGroup := { handle := 1, tc := some 0, prepared := true, member := true, ordinals := [0], heard := [88] }
def wMemberAt (d : Dev) (f : MemberGroup → MemberGroup) (t : Tick := 0) : State := (tick t).modCom d fun c => { c with groups := [f wMember] }
/-- A commit-group message of group 1. -/
def wCg (tc : Word) : List Word := [1, tc]

theorem witness_GroupsCommit :
    (got .tsu opCgBegin State.reset = true ∧ (∀ t ∈ [Target.self], (State.reset.accept .tsu hdr opCgBegin).1.memberHere .tsu t = true) ∧
      ((State.reset.accept .tsu hdr opCgBegin).1.com .tsu).groups.length < groupMax .tsu ∧
      ((State.reset.accept .tsu hdr opCgBegin).1.com .tsu).coord.length < groupMax .tsu) ∧
    (Target.port 3 ∈ [Target.port 3] ∧ (accJ opCgBegin State.reset).memberHere .jup (.port 3) = false) ∧
    (State.reset.cmdDenied .tsu hdr false = false ∧ (wCoordAt .tsu .opened).stageRefusal .tsu 1 .self [⟨0x10, 5⟩] = 0 ∧
      (wCoordAt .tsu .opened).cmdDenied .tsu hdr false = false) ∧
    State.reset.coordGroup .tsu 1 = none ∧ (wCoordAt .tsu .opened).commitRefusal .tsu 1 = 0 ∧ (wCoordAt .tsu .prepared).abortRefusal .tsu 1 = 0 ∧
    ((1 : Tick) ≠ 0 ∧
      (1 : Tick) < State.reset.now .tsu + BitVec.ofNat 64 ((State.reset.groupLead .tsu).1 + (State.reset.groupLead .tsu).2)) ∧
    ((wMemberAt .tsu id).group .tsu (msgGroup (wCg 0)) = some wMember ∧
      wMember.ordinals.contains ((nthW (wCg 0) 0).extractLsb' 40 16) = true) ∧
    ((wMemberAt .tsu id).group .tsu 1 = some wMember ∧ wMember.prepared = true) ∧
    (((wMemberAt .tsu id).takeGroup .tsu (wCg 0)).group .tsu (msgGroup (wCg 0)) = some wMember ∧ wMember.committed = false ∧
      wMember.applied = false ∧
      (wMemberAt .tsu id).now .tsu ≤ nthW (wCg 0) 1 ∧ nthW (wCg 0) 1 < (wMemberAt .tsu id 1).now .tsu ∧
      ((wMemberAt .tsu id 1).takeGroup .tsu (wCg 0)).group .tsu (msgGroup (wCg 0)) = some wMember) ∧
    (State.reset.takeGroup .jup (wCg 0)).group .jup (msgGroup (wCg 0)) = none ∧ (∀ w ∈ wMember.writes, dieSide w = false) ∧
    (((wMemberAt .tsu fun g => { g with committed := true }).takeGroup .tsu (wCg 0)).group .tsu (msgGroup (wCg 0)) = some { wMember with committed := true }) ∧
    (wCoordAt .tsu .prepared).deadlineNow .tsu 1 = true ∧
    (((wCoordAt .tsu .prepared).modCom .tsu fun c => { c with groups := [wMember] }).coordGroup .tsu 1 = some (wCoord .prepared) ∧
      ((wCoordAt .tsu .prepared).modCom .tsu fun c => { c with groups := [wMember] }).group .tsu 1 = some wMember ∧
      ((wCoordAt .tsu .prepared).modCom .tsu fun c => { c with groups := [wMember] }).groupFailure .tsu (wCoord .prepared) wMember = none) ∧
    ((wMemberAt .tsu id 1).group .tsu 1 = some wMember ∧ wMember.tc ≠ some ((wMemberAt .tsu id 1).now .tsu)) ∧
    ((wMemberAt .tsu fun g => { g with committed := true }).tsuC.groups = [{ wMember with committed := true }] ∧ wMember.handle = 1 ∧
      wMember.tc = some ((wMemberAt .tsu id).now .tsu) ∧ wMember.writes = []) ∧
    ((wMemberAt .jup id).jupC.groups = [wMember] ∧ wMember.tc = some ((wMemberAt .jup id).now .jup) ∧ wMember.member = true ∧
      wMember.refused = none) ∧
    ((roled 1 0 (wMemberAt .jup (fun g => { g with applied := true, ports := [5] }) 64)).group .jup 1 = some { wMember with applied := true, ports := [5] } ∧
      (roled 1 0 (wMemberAt .jup (fun g => { g with applied := true, ports := [5] }) 64)).role = 1 ∧
      (roled 1 0 (wMemberAt .jup (fun g => { g with applied := true, ports := [5] }) 64)).now .jup = 0 + 64) ∧
    ((wMemberAt .jup id).group .jup 1 = some wMember ∧ (wMemberAt .jup id).now .jup ≠ 0 + 64) ∧
    ((wCoordAt .tsu .committed 64).coordGroup .tsu 1 = some (wCoord .committed) ∧ (wCoord .committed).outcome = none ∧
      (wCoordAt .tsu .committed 64).postReady .tsu (wCoord .committed) = true) := by decide +kernel

def wEntry (valid : Bool) : CplEntry := { handle := 0x01000000, opcode := opShutter, valid := valid, status := 0, endTick := 0, results := [], notify := false }
def wEntries (valid : Bool) : State := State.reset.modCmds .tsu fun c => { c with entries := tset none [] 0 (some (wEntry valid)) }

theorem witness_CompletionsPosted :
    (hdr.ctx ≠ 0x20 ∧ State.reset.tsuC.cmds.entries = []) ∧
    (tget none ((wEntries false).com .tsu).cmds.entries (entryIndex .tsu ((wEntries false).com .tsu).cmds.seq)).isSome = true ∧
    State.reset.cmdDenied .tsu jtag false = true ∧
    ((wEntries false).cplEntry .tsu 0x01000000 = some (wEntry false) ∧ (wEntry false).valid = false) ∧
    ((wEntries true).cplEntry .tsu 0x01000000 = some (wEntry true) ∧ (wEntry true).valid = true) ∧
    (tget none ((wEntries true).com .tsu).cmds.entries ((4096 : BitVec 16).toNat % 4096) = some (wEntry true) ∧
      Table.wf none ((wEntries true).com .tsu).cmds.entries = true) ∧
    (∀ e ∈ ((wEntries false).com .tsu).cmds.entries, e.2.any (fun x => x.valid) = false) := by decide +kernel

def wBlock (f : FaultBlock → FaultBlock) (t : Tick := 0) : State := (tick t).modBlock .tsu 2 f
def wDeferred : State :=
  ([3, 4, 5].foldl (fun s p => (s.setReg .jup (portHealthOff p) 0x20000000).modLink .jup p fun l =>
    { l with ctl := { l.ctl with lstate := .service }, time := { l.time with farState := 2 } }) State.reset).modJup fun j => { j with deferred := [(9, 2)] }

theorem witness_FirstFaultLatched :
    (State.reset.fblock .tsu 2).valid = false ∧ (State.reset.fblock .tsu 2).overflow = false ∧ (State.reset.fblock .tsu 2).events = 0 ∧
    (State.reset.fblock .tsu 2).grades = [] := by decide

theorem witness_FaultsCommanded :
    (((wBlock fun b => { b with valid := true }).fblock .tsu 2).valid = true ∧
      Table.wf {} ((wBlock fun b => { b with valid := true }).com .tsu).blocks = true) ∧
    (State.reset.fblock .tsu 2).sev = false ∧
    (((wBlock fun b => { b with sev := true, grace := true, expiry := 9 }).fblock .tsu 2).sev = true ∧
      (wBlock fun b => { b with sev := true, grace := true, expiry := 9 }).now .tsu < ((wBlock fun b => { b with sev := true, grace := true, expiry := 9 }).fblock .tsu 2).expiry ∧
      Table.wf {} (wBlock fun b => { b with sev := true, grace := true, expiry := 9 }).tsuC.blocks = true) ∧
    ((wBlock (fun b => { b with grades := tset {} [] 5 { count := 1, opened := 0 } }) (BitVec.ofNat 64 (2 ^ 63))).windowDue .tsu 2 5 = true ∧
      State.reset.windowDue .tsu 2 5 = false) ∧
    ((wBlock (fun b => { b with sev := true, grace := true, expiry := 9 }) 9).graceDue .tsu 2 = true ∧
      (wBlock (fun b => { b with sev := true, grace := true, expiry := 9 }) 8).now .tsu <
        ((wBlock (fun b => { b with sev := true, grace := true, expiry := 9 }) 8).fblock .tsu 2).expiry) ∧
    ((5 : BitVec 3).toNat < 6 ∧ State.reset.injDenied .tsu .host = false ∧ 6 ≤ (6 : BitVec 3).toNat ∧ 6 ≤ (7 : BitVec 3).toNat) ∧
    (State.reset.injDenied .jup .host = false ∧ State.reset.injDenied .jup .jtag = true) ∧
    (fld (nthW [put 64 39 37 1] 0) 39 37 = 1 ∧ fld (nthW [put 64 39 37 2] 0) 39 37 = 2) ∧
    State.reset.jup.log.length < 4096 ∧ 4096 ≤ (State.reset.modJup fun j => { j with log := List.replicate 4096 [] }).jup.log.length ∧
    ((State.reset.setHealth 87 3).healthState (87 : BitVec 7).toNat = 3 ∧ (87 : BitVec 7).toNat < 88 ∧
      State.reset.healthState (87 : BitVec 7).toNat ≠ 3) ∧
    (wDeferred.deferredDue = some (9, 2) ∧ State.reset.jup.deferred = []) ∧
    (thermAt .junction false 95 = true ∧ thermAt .junction false 94 = false ∧ thermAt .flow false 1599 = true ∧
      thermAt .flow false 1600 = false) ∧
    (thermAt .stack true 95 = true ∧ thermAt .stack true 94 = false ∧
      (((State.reset.setReading .stack 95).noteHot true .stack).raiseLevel .jup (blkPower .jup) cThermalTrip {}).jup.thermTrip = false) := by decide +kernel

/-! ## Power, security, the board, registers -/

theorem witness_BudgetBounds :
    ((100 : Nat) ≠ 0 ∧ budgetStretch 4 1000000 1000 100 1000 = some 65625) ∧
    (4 * 24999 < 1000 * 100 ∧ budgetStretch 4 1000000 24999 100 1000 = none) ∧ State.reset.jobPlace 7 ≠ .top := by decide +kernel

def wPower (f : Power → Power) (t : Tick := 0) (s : State := tick t) : State := s.modPower f

theorem witness_PowerAndResets :
    (State.reset.power.warn = false ∧ State.reset.power.state ≠ 4 ∧ State.reset.power.darkWake = false) ∧
    ((wPower fun p => { p with warn := true }).power.warn = true ∧ (wPower fun p => { p with state := 4 }).power.state = 4 ∧
      (wPower fun p => { p with darkWake := true }).power.darkWake = true) ∧
    (((wPower (fun p => { p with warn := true }) 32000).now .tsu).toNat ≤ (wPower (fun p => { p with warn := true }) 32000).power.warnAt.toNat + 32000) ∧
    ((wPower (fun p => { p with warn := true }) 160000).power.fenced = false ∧
      (wPower (fun p => { p with warn := true }) 160000).power.warnAt.toNat + 160000 ≤ ((wPower (fun p => { p with warn := true }) 160000).now .tsu).toNat ∧
      ((wPower (fun p => { p with warn := true }) 159999).now .tsu).toNat < (wPower (fun p => { p with warn := true }) 159999).power.warnAt.toNat + 160000) ∧
    ((wPower fun p => { p with state := 4, held := [(0, localMsg mtGroup [1])] }).wakeDue = true) ∧
    (State.reset.power.state = 0 ∧ (wPower fun p => { p with waking := true }).power.waking = true) ∧
    ((3 : Fin 5).val ≠ 4 ∧ State.reset.tsuC.sec.pending = false) ∧
    ((wPower fun p => { p with waking := true, state := 2, wakeBy := 0 }).power.waking = true ∧
      (wPower fun p => { p with waking := true, state := 2, wakeBy := 0 }).power.state ≠ 0 ∧
      (wPower fun p => { p with waking := true, state := 2, wakeBy := 0 }).power.wakeBy ≤ (wPower fun p => { p with waking := true, state := 2, wakeBy := 0 }).now .tsu ∧
      (∀ c ∈ chanNums, ((wPower fun p => { p with waking := true, state := 2, wakeBy := 0 }).chan c).state ≠ .running)) ∧
    (chanNums.filter fun c => decide (((wPower (fun p => { p with waking := true, state := 2, wakeBy := 0 }) 0 (state0 .running)).chan c).state = .running)) = [0] ∧
    (wPower fun p => { p with mainUp := true }).power.mainUp = true ∧ (State.reset.power.mainUp = false ∧
      State.reset.power.rstPend = none) ∧ (1 : Nat) < 2 ∧
    (state0 .ready).anyBound = true ∧ State.reset.anyBound = false ∧
    (State.reset.link .tsu 1).ctl.disable = false ∧
      ((lctl .tsu fun c => { c with disable := true }).link .tsu 0).ctl.disable = true := by decide +kernel

def wOpen (f : Security → Security := id) : State := State.reset.modSec .jup fun x => f { x with opening := some 0, lcRead := true, req := 2 }

theorem witness_SessionsAndRecord :
    (State.reset.com .tsu).sec.opening = none ∧
    (((wOpen fun x => { x with req := 3 }).com .jup).sec.opening ≠ none ∧
      ((wOpen fun x => { x with req := 3 }).com .jup).sec.lcRead = true ∧
      tokenReserved ((wOpen fun x => { x with req := 3 }).com .jup).sec = false ∧ (wOpen fun x => { x with req := 3 }).openRefusal .jup ≠ 0) ∧
    (wOpen.jupC.sec.opening ≠ none ∧ wOpen.jupC.sec.lcRead = true ∧ wOpen.jupC.sec.level = .opened ∧ wOpen.jupC.sec.imgLock = false ∧
      wOpen.jupC.sec.req = 2) ∧
    (((secured fun x => { x with notAfter := 0 }).modTime .tsu fun c => { c with htc := 1 }).tsuC.sec.notAfter <
      ((secured fun x => { x with notAfter := 0 }).modTime .tsu fun c => { c with htc := 1 }).now .tsu) ∧
    (State.reset.now .tsu ≤ (secured fun x => { x with notAfter := 0 }).tsuC.sec.notAfter) ∧ State.reset.tsuC.sec.session ≠ .control ∧
    (∀ x ∈ [ChState.running, ChState.stopped], ((state0 x).modSec .tsu fun y => { y with session := .control }).tsuC.sec.session = .control ∧
      (((state0 x).modSec .tsu fun y => { y with session := .control }).chan (0 : Fin 8)).state = x) ∧
    (State.reset.modSec .tsu fun x => { x with lcRead := true }).tsuC.sec.lcRead = true ∧
      State.reset.tsuC.sec.lcRead = false := by decide +kernel
/-- A blank record is not reserved, and is valid under no uninterpreted verification at a SEQ below the fuses'. -/
theorem witness_SessionsAndRecord_record (d : Dev) : recordReserved d {} [] = false := by
  unfold recordReserved
  rw [show fld (nthW [] 0) 28 0 = 0 from by decide]
  simp

theorem witness_BoardCommands :
    ((State.reset.modJup fun j => { j with lcCopy := some true }).jup.lcCopy = some true) ∧ State.reset.jup.lcCopy ≠ some true ∧
    tget [] (State.reset.modJup fun j => { j with flash := tset [] [] (flashKey true) (List.replicate 33 (BitVec.allOnes 64)) }).jup.flash (flashKey true) =
      List.replicate 33 (BitVec.allOnes 64) ∧
    State.reset.fwSet = false ∧ (State.reset.setReg .tsu 0x44 0x80000000).fwSet = true ∧ strapLo 0x18 = 3 ∧ strapLo 0x10 ≠ 3 ∧
    State.reset.jup.mainLow = false ∧ (State.reset.modJup fun j => { j with mainLow := true }).jup.mainLow = true := by decide +kernel

theorem witness_RegistersAccessed :
    (2 % 4 ≠ 0 ∧ (7 : BitVec 4) ≠ 0xF ∧ (State.reset.modJup fun j => { j with pcieReset := true }).jup.pcieReset = true) ∧
    (0x100 % 4 = 0 ∧ 0x100 ≤ 0x100 ∧ (State.reset.com .jup).sec.session = .none) ∧
    (Src.host ≠ .jtag ∧ State.reset.tsuC.sec.sealedImg = false ∧ tok (regReset .tsu) none State.reset.tsuC.regs = true) ∧
    ((secured fun x => { x with sealedImg := true, level := .owner }).tsuC.sec.sealedImg = true ∧
      (secured fun x => { x with sealedImg := true, level := .owner }).tsuC.sec.level ≠ .opened ∧
      (1 : Half) ≠ (secured fun x => { x with sealedImg := true, level := .owner }).reg .tsu 0x6008) ∧
    (8 : Half) &&& 0x0000FFF8 ≠ 0 ∧ (0x8000 : Half) &&& 0x0000FFF8 ≠ 0 ∧ splitLo .tsu 0x4010 = true ∧ splitLo .jup 0x30010 = true ∧
    splitLo .tsu 0x4014 = false ∧ winCount .tsu .asym ≤ 4 ∧ (winHere .tsu .asym = true ∧ 3 < winCount .tsu .asym ∧ winReserved .asym 3 5 = false ∧
      State.reset.winError .tsu .host .asym 3 5 = none) ∧
    ([0, 0, 0] : List Word).length < 4 + fld (nthW [0, 0, 0] 3) 31 16 ∧
    (4 + fld (nthW (wAppend 1 0) 3) 31 16 = (wAppend 1 0).length ∧
      (chan0 fun c => { c with state := .running, job := 7 }).chanOfRank ((nthW (wAppend 1 0) 0).extractLsb' 49 15) ((nthW (wAppend 1 0) 0).extractLsb' 32 17) = some 0) := by
  decide +kernel

/-! ## The block -/

/-- Reset with a command that changes it in front: CHAL of the Jupin. -/
def wQueue : State := { State.reset with pending := [.dbgChal .jup, .dbgClose .tsu] }
theorem witness_StepRunsFront : wQueue.pending = .dbgChal .jup :: [.dbgClose .tsu] := rfl
theorem witness_ResetAndIdle : State.reset.pending = [] := rfl
theorem witness_FusesNeverFall : ∃ t, step wQueue = .next t := ⟨_, rfl⟩
theorem witness_TablesCanonical : (∃ t, step wQueue = .next t) ∧ wQueue.tablesOk = true := ⟨⟨_, rfl⟩, by decide +kernel⟩

/-! ## Further witnesses: the hypotheses of the clauses above that no theorem so far meets -/

theorem witness_TimeCodeSent_more :
    (∃ (d : Dev) (n : Nat) (s : State), (s.link d n).ctl.lstate.timed = true ∧ s.isChild d n = false ∧ s.isParent d n = true ∧
      (s.now d).toNat % (if (s.link d n).time.lowFar then 65536 else 8192) = 0) ∧
    (∃ (d : Dev) (n : Nat) (s : State), (s.link d n).ctl.lstate.timed = true ∧ s.isChild d n = true ∧
      (s.com d).time.fullFrom ≤ s.now d ∧ s.timeOn d n = true ∧
      (s.now d).toNat % (if (s.com d).time.lowRate then 65536 else 8192) = 4096 ∧ (s.link d n).time.t1.isSome = true ∧
      (s.link d n).time.t3 = none) ∧
    (∃ (d : Dev) (n : Nat) (s : State), (s.link d n).ctl.lstate.timed = true ∧ s.isChild d n = true ∧
      (s.com d).time.fullFrom ≤ s.now d ∧ s.timeOn d n = true ∧
      (s.now d).toNat % (if (s.com d).time.lowRate then 65536 else 8192) = 4096 ∧ (s.link d n).time.t1 = none) ∧
    (∃ (d : Dev) (n : Nat) (s : State), s.isChild d n = true) :=
  ⟨⟨.jup, 3, wParent, by decide +kernel⟩,
    ⟨.tsu, 0, (wChild.modLt .tsu 0 fun t => { t with t1 := some { tick := 0, frac := 0 } }), by decide +kernel⟩,
    ⟨.tsu, 0, wChild, by decide +kernel⟩,
    ⟨.tsu, 0, wChild, by decide +kernel⟩⟩

theorem witness_TimeCodeTaken_more :
    (∃ (d : Dev) (n : Nat) (s : State), s.isChild d n = true ∧ s.timeOn d n = true) ∧
    (∃ (d : Dev) (n : Nat) (s : State), s.isChild d n = false ∧ s.isParent d n = true) ∧
    (∃ (d : Dev) (n : Nat) (s : State), s.isChild d n = true ∧ s.timeOn d n = true ∧ (s.com d).time.lowRate = false) ∧
    (∃ (d : Dev) (n : Nat) (s : State), s.isChild d n = false ∧ s.isParent d n = true ∧ (s.link d n).time.t1.isSome = true) ∧
    (∃ (t : LinkTime), t.xs.length ≤ 1024 ∧ t.ds.length ≤ 1024) ∧
    (∃ (t : LinkTime) (code : BitVec 128) (ok : Bool), t.t1.isSome = true ∧
      (t.t2 = none ∨ t.t3 = none ∨ t.bad = true ∨ ok = false ∨ codeEcho code = 0)) ∧
    (∃ (t : LinkTime) (code : BitVec 128) (a b c : Stamp), t.t1 = some a ∧ t.t2 = some b ∧ t.t3 = some c ∧ t.bad = false ∧
      codeEcho code ≠ 0) :=
  ⟨⟨.tsu, 0, wChild, by decide +kernel⟩,
    ⟨.jup, 3, wParent, by decide +kernel⟩,
    ⟨.tsu, 0, wChild, by decide +kernel⟩,
    ⟨.jup, 3, (wParent.modLt .jup 3 fun t => { t with t1 := some { tick := 0, frac := 0 } }), by decide +kernel⟩,
    ⟨wExchange, by decide +kernel⟩,
    ⟨({ wExchange with t2 := none } : LinkTime), 0, true, by decide +kernel⟩,
    ⟨wExchange, (timeCode { tick := 30, frac := 0 } 5 0 2 1), { tick := 0, frac := 0 }, { tick := 10, frac := 0 }, { tick := 20, frac := 0 }, by decide +kernel⟩⟩

theorem witness_ParentsJudged_more :
    (∃ (d : Dev) (n : Nat) (s : State), s.isChild d n = true ∧ 64 ≤ (s.link d n).time.consecInvalid ∧ (s.link d n).time.lost = false) ∧
    (∃ (s : State), (1024 ≤ (s.com .jup).time.skewCount ∨ 1024 ≤ (s.com .jup).time.skewCountB)) ∧
    (∃ (s : State), (1024 ≤ (s.com .tsu).time.skewCount ∨ 1024 ≤ (s.com .tsu).time.skewCountB)) ∧
    (∃ (d : Dev) (s : State), (s.com d).time.skewCount < 1024 ∧ (s.com d).time.skewCountB < 1024) ∧
    (∃ (d : Dev) (b : Nat) (c : Code) (x : Ctx) (s : State), (c, x.word) ∈ (s.fblock d b).levels) ∧
    (∃ (d : Dev) (b : Nat) (c : Code) (x : Ctx) (s : State), (c, x.word) ∉ (s.fblock d b).levels) ∧
    (∃ (d : Dev) (h : Tick) (s : State), (s.com d).time.state = .degraded ∧ s.rootMaster d = false ∧ (s.com d).cr.state = .holdover ∧
      (s.com d).time.holdSince = some h ∧ h.toNat + (s.com d).time.holdLimit ≤ (s.now d).toNat) ∧
    (∃ (d : Dev) (s : State), s.lostDue d = true) ∧
    (∃ (d : Dev) (s : State), s.lostDue d = false) ∧
    (∃ (d : Dev) (e : Tick) (s : State), (s.com d).cr.state = .acquire ∧ (s.com d).time.acqStart = some e ∧
      e.toNat + 128000000 ≤ (s.now d).toNat) ∧
    (∃ (d : Dev) (s : State), (s.com d).cr.state ≠ .acquire) :=
  ⟨⟨.tsu, 0, wLost, by decide +kernel⟩,
    ⟨(State.reset.modTime .jup fun t => { t with skewCountB := 1024 }), by decide +kernel⟩,
    ⟨wSkew, by decide +kernel⟩,
    ⟨.tsu, State.reset, by decide +kernel⟩,
    ⟨.tsu, 2, 5, {}, (State.reset.modBlock .tsu 2 fun b => { b with levels := [(5, ({} : Ctx).word)] }), by decide +kernel⟩,
    ⟨.tsu, 2, 5, {}, State.reset, by decide +kernel⟩,
    ⟨.tsu, 0, (wHoldover .tsu), by decide +kernel⟩,
    ⟨.tsu, (wHoldover .tsu), by decide +kernel⟩,
    ⟨.tsu, State.reset, by decide +kernel⟩,
    ⟨.tsu, 0, wAcqFail, by decide +kernel⟩,
    ⟨.jup, wAcqFail, by decide +kernel⟩⟩

theorem witness_AcquisitionRuns_more :
    (∃ (d : Dev) (n : Nat) (e : Tick) (s : State), (s.com d).cr.state = .acquire ∧ (s.com d).time.state = .unset ∧
      (s.com d).time.acqStart = some e ∧ s.selLink d = some n ∧ e.toNat + 131072 ≤ (s.now d).toNat ∧ 16 ≤ (s.link d n).time.xs.length) ∧
    (∃ (d : Dev) (s : State), (s.com d).time.state ≠ .unset) ∧
    (∃ (d : Dev) (s : State), (s.com d).cr.dwellStart.toNat + 8388608 ≤ (s.now d).toNat ∧ (s.com d).cr.state = .acquire ∧
      (s.com d).time.state = .acquiring ∧ (s.com d).cr.bwCur.toNat < 3 ∧ 2 * s.lockThr d < s.selOffset d) ∧
    (∃ (d : Dev) (s : State), (s.com d).cr.dwellStart.toNat + 8388608 ≤ (s.now d).toNat ∧ (s.com d).cr.state = .acquire ∧
      (s.com d).time.state = .acquiring ∧ (s.com d).cr.bwCur.toNat < 3 ∧ s.selOffset d ≤ 2 * s.lockThr d) ∧
    (∃ (d : Dev) (s : State), (s.com d).cr.dwellStart.toNat + 8388608 ≤ (s.now d).toNat ∧ (s.com d).cr.state = .acquire ∧
      (s.com d).time.state = .acquiring ∧ 3 ≤ (s.com d).cr.bwCur.toNat ∧ (s.com d).cr.dwellOk = true ∧ (s.com d).time.lowRate = false) ∧
    (∃ (d : Dev) (s : State), (s.com d).cr.dwellStart.toNat + 8388608 ≤ (s.now d).toNat ∧ (s.com d).cr.state = .track ∧
      (s.com d).time.state = .degraded ∧ (s.com d).cr.pstepRemain = 0 ∧ (s.com d).cr.dwellOk = true ∧ (s.com d).time.lowRate = false) ∧
    (∃ (h : Hdr) (s : State) (hd : Half) (s' : State), s.accept .tsu h opTimeResync = (s', some hd) ∧ s'.anyBound = false) ∧
    (∃ (h : Hdr) (s : State) (hd : Half) (s' : State), s.accept .jup h opTimeResync = (s', some hd) ∧ s'.rootMaster .jup = false) ∧
    (∃ (h : Hdr) (s : State) (hd : Half) (s' : State), s.accept .jup h opTimeResync = (s', some hd) ∧ s'.rootMaster .jup = true) ∧
    (∃ (s : State) (ol : Bool), s.hasRole = true ∧ s.role = 3 ∧ s.jup.timeMaster = false ∧ (s.side ≠ 2 ∨ ol = true)) ∧
    (∃ (s : State), s.hasRole = true ∧ s.role = 3 ∧ s.jup.timeMaster = false ∧ s.side = 2) :=
  ⟨⟨.tsu, 0, 0, wCoarse, by decide +kernel⟩,
    ⟨.tsu, (wDwell 0 0), by decide +kernel⟩,
    ⟨.tsu, (wDwell 0 1000000), by decide +kernel⟩,
    ⟨.tsu, (wDwell 2 0), by decide +kernel⟩,
    ⟨.tsu, (wDwell 3 0), by decide +kernel⟩,
    ⟨.tsu, ((wDwell 3 0).modTime .tsu fun t => { t with state := .degraded }).modCr .tsu fun c => { c with state := .track }, by decide +kernel⟩,
    ⟨hdr, State.reset, 0x01000000, (State.accept (State.reset) .tsu hdr opTimeResync).1, by decide +kernel⟩,
    ⟨hdr, State.reset, 0x01000000, (State.accept (State.reset) .jup hdr opTimeResync).1, by and_intros <;> first | rfl | decide +kernel⟩,
    ⟨hdr, root, 0x01000000, (State.accept (root) .jup hdr opTimeResync).1, by and_intros <;> first | rfl | decide +kernel⟩,
    ⟨(roled 3 0 State.reset), false, by decide +kernel⟩,
    ⟨(roled 3 2 State.reset), by decide +kernel⟩⟩

/-- A build of the given counts, all hits made. -/
def wFull (l : List (Nat × Nat)) : State := (wRing 1048576).modConv .tsu 0 fun c => { c with hist := l }
def wEven : List (Nat × Nat) := (List.range 256).map fun k => (k, 4096)

theorem witness_UtcServed_more :
    (∃ (s : State), s.rootMaster .jup = true ∧ (s.jup.pubTick = none ∨ (∃ p, s.jup.pubTick = some p ∧
      p.toNat + 1600000000 ≤ (s.now .jup).toNat))) ∧
    (∃ (s : State), s.rootMaster .jup = false) ∧
    (∃ (s : State) (key : Option (BitVec 16 × BitVec 128)) (body : List Word), s.ntpAuth key body = true ∧
      (s.jup.ntpSecond ≠ (s.now .jup).toNat / 1600000000 ∨ s.jup.ntpInSecond < 2000)) ∧
    (∃ (s : State), (s.now .jup).toNat % 1600000000 ≠ 0) ∧
    (∃ (s : State), s.jup.mapNext = none) ∧
    (∃ (s : State), s.jup.mapTick.toNat + 6400000000 ≤ (s.now .jup).toNat) ∧
    (∃ (s : State), (s.now .jup).toNat < s.jup.mapTick.toNat + 6400000000) ∧
    (∃ (s : State) (r : MapRec), s.jup.mapCur = some r ∧ r.quality = 0 ∧ s.jup.mapHold = true) ∧
    (∃ (s : State) (r : MapRec), s.jup.mapCur = some r ∧ s.jup.mapHold = false) :=
  ⟨⟨root, by exact ⟨by decide +kernel, Or.inl rfl⟩⟩,
    ⟨State.reset, by decide +kernel⟩,
    ⟨(wNtp 1999), none, [], by decide +kernel⟩,
    ⟨(tick 1), by decide +kernel⟩,
    ⟨State.reset, by decide +kernel⟩,
    ⟨wMapping, by decide +kernel⟩,
    ⟨(tick 6399999999), by decide +kernel⟩,
    ⟨wMapping, wMapRec, by decide +kernel⟩,
    ⟨(wMapping.modJup fun j => { j with mapHold := false }), wMapRec, by decide +kernel⟩⟩

theorem witness_AsymmetryMeasured_more :
    (∃ (h : Hdr) (port : BitVec 7) (sel : Bool) (s s' : State) (hd : Half), s.accept .jup h opMeasureLink (light := false) = (s', some hd) ∧
      (sel = true ∨ s'.portActive port.toNat = true)) ∧
    (∃ (h : Hdr) (port : BitVec 7) (s s' : State) (hd : Half), s.accept .jup h opMeasureLink (light := false) = (s', some hd) ∧
      s'.portActive port.toNat = false) ∧
    (∃ (port : BitVec 7) (s : State) (hd : Half), (s.link .jup port.toNat).asym.reflect = some hd ∧
      (s.link .jup port.toNat).asym.medium = none) ∧
    (∃ (port : BitVec 7) (s : State), (s.link .jup port.toNat).asym.reflect = none) ∧
    (∃ (n : Nat) (hd : Half) (med : Int) (s : State), (s.link .jup n).asym.reflect = some hd ∧ (s.link .jup n).asym.medium = some med) ∧
    (∃ (d : Dev) (n : Nat) (s : State), (s.link d (asymKey d n)).asym.go = true) ∧
    (∃ (n : Nat) (s : State), (s.link .jup n).asym.go = true ∧ (s.now .jup).toNat % 8192 = 0 ∧ s.asymCheckOk .jup n = true) ∧
    (∃ (n : Nat) (s : State), (s.link .tsu 0).asym.go = true ∧ (s.now .tsu).toNat % 8192 = 0 ∧ s.asymCheckOk .tsu n = true) :=
  ⟨⟨hdr, 3, true, State.reset, (State.accept (State.reset) .jup hdr opMeasureLink (light := false)).1, 0x01000000, by and_intros <;> first | rfl | decide +kernel⟩,
    ⟨hdr, 3, State.reset, (State.accept (State.reset) .jup hdr opMeasureLink (light := false)).1, 0x01000000, by and_intros <;> first | rfl | decide +kernel⟩,
    ⟨3, (State.reset.modAsym .jup 3 fun a => { a with reflect := some 7 }), 7, by decide +kernel⟩,
    ⟨3, State.reset, by decide +kernel⟩,
    ⟨3, 7, 5, (State.reset.modAsym .jup 3 fun a => { a with reflect := some 7, medium := some 5 }), by decide +kernel⟩,
    ⟨.jup, 3, wSwapOk, by decide +kernel⟩,
    ⟨3, wSwapOk, by decide +kernel⟩,
    ⟨1, (((tick 8192).modAsym .tsu 0 fun a => { a with go := true, measured := true, bank1 := 1 }).modAsym .tsu 1 fun a => { a with bank1 := 1 }), by decide +kernel⟩⟩

theorem witness_EdgeTimestamped_more :
    (∃ (d : Dev) (n : Nat) (e : EdgeIn) (s : State), ((d = .tsu → n = 4 → s.evtSrc ≠ 0)) ∧
      ((s.conditioned d n = true → s.detects d n e = true ∧ e.wide = true)) ∧ s.gated d n = false ∧ s.afterHit d n = false ∧
      s.convReady d n = true) ∧
    (∃ (d : Dev) (n : Nat) (e : EdgeIn) (s : State), s.conditioned d n = true ∧ s.detects d n e = false) ∧
    (∃ (d : Dev) (n : Nat) (e : EdgeIn) (s : State), ((d = .tsu → n = 4 → s.evtSrc ≠ 0)) ∧ s.conditioned d n = true ∧
      s.detects d n e = true ∧ e.wide = false ∧ s.gated d n = false) ∧
    (∃ (d : Dev) (n : Nat) (e : EdgeIn) (s : State), ((d = .tsu → n = 4 → s.evtSrc ≠ 0)) ∧
      ((s.conditioned d n = true → s.detects d n e = true ∧ e.wide = true)) ∧ s.gated d n = false ∧ s.afterHit d n = false ∧
      s.convReady d n = false) ∧
    (∃ (d : Dev) (n : Nat) (e : EdgeIn) (s : State), ((d = .tsu → n = 4 → s.evtSrc ≠ 0)) ∧
      ((s.conditioned d n = true → s.detects d n e = true ∧ e.wide = true)) ∧ s.gated d n = false ∧ s.afterHit d n = true) ∧
    (∃ (s : State), s.evtSrc = 0) ∧
    (∃ (s : State) (d : Dev) (n : Nat) (t : Tick), (s.conv d n).lastEdge = some t) ∧
    (∃ (d : Dev) (n : Nat) (t : Tick) (code : BitVec 8) (s : State), (s.conv d n).busy = some (t, code) ∧ t.toNat + 20 ≤ (s.now d).toNat) ∧
    (∃ (d : Dev) (n : Nat) (t : Tick) (code : BitVec 8) (s : State), (s.conv d n).busy = some (t, code) ∧ t.toNat + 20 ≤ (s.now d).toNat) :=
  ⟨⟨.tsu, 0, edge, State.reset, by decide +kernel⟩,
    ⟨.jup, 192, { edge with rising := false }, State.reset, by decide +kernel⟩,
    ⟨.jup, 192, { edge with wide := false }, State.reset, by decide +kernel⟩,
    ⟨.tsu, 0, edge, wLateEdge, by decide +kernel⟩,
    ⟨.tsu, 0, edge, wAfterHit, by decide +kernel⟩,
    ⟨State.reset, by decide +kernel⟩,
    ⟨wLateEdge, .tsu, 0, 0, by decide +kernel⟩,
    ⟨.tsu, 0, 0, 5, wBusyConv, by decide +kernel⟩,
    ⟨.tsu, 0, 0, 5, wBusyConv, by decide +kernel⟩⟩

theorem witness_TablesBuilt_more :
    (∃ (d : Dev) (n : Nat) (s : State), s.ringEn d = true ∧ s.building d n = true ∧ s.reflecting d n = false ∧ s.hitWindow d n = true ∧
      s.convReady d n = true ∧ (s.conv d n).hits < 1048576) ∧
    (∃ (d : Dev) (n : Nat) (s : State), (s.ringEn d = false ∨ s.building d n = false ∨ s.reflecting d n = true)) ∧
    (∃ (d : Dev) (n : Nat) (s : State), (s.conv d n).hits = 1048576 ∧ (s.convCtl d n).hold = false ∧ (s.conv d n).cand = none ∧
      Conv.valid (s.conv d n) = false ∧
      widthsValid (buildWidths ((List.range 256).map fun k => tget 0 (s.conv d n).hist k) 0 0) = true) ∧
    (∃ (d : Dev) (n : Nat) (s : State), (s.conv d n).hits = 1048576 ∧
      widthsValid (buildWidths ((List.range 256).map fun k => tget 0 (s.conv d n).hist k) 0 0) = false) ∧
    (∃ (d : Dev) (n : Nat) (s : State), (s.convCtl d n).swapPend = true ∧ (s.now d).toNat % 8192 = 0 ∧ (s.convCtl d n).swapAt ≤ s.now d) ∧
    (∃ (d : Dev) (n : Nat) (s : State), ((s.now d).toNat % 8192 ≠ 0 ∨ s.now d < (s.convCtl d n).swapAt ∨ (s.convCtl d n).swapPend = false)) ∧
    (∃ (d : Dev) (n : Nat) (s : State), s.staleDue d n = true) ∧
    (∃ (d : Dev) (n : Nat) (s : State), Conv.valid (s.conv d n) = true ∧ s.hasService d n = true ∧ (s.conv d n).stale = false ∧
      s.tempLimit d < ((s.com d).time.temp.toInt - (s.convCtl d n).builtTemp.toInt).natAbs) ∧
    (∃ (d : Dev) (n : Nat) (s : State), s.staleDue d n = false) :=
  ⟨⟨.tsu, 0, (wRing 1048575), by decide +kernel⟩,
    ⟨.tsu, 0, (State.reset.setReg .tsu 0x400 0), by decide +kernel⟩,
    ⟨.tsu, 0, (wFull wEven), by decide +kernel⟩,
    ⟨.tsu, 0, (wFull []), by decide +kernel⟩,
    ⟨.tsu, 0, wSwapPend, by decide +kernel⟩,
    ⟨.tsu, 0, (tick 1), by decide +kernel⟩,
    ⟨.tsu, 0, wStale, by decide +kernel⟩,
    ⟨.tsu, 0, ((wStale.modConvCtl .tsu 0 fun c => { c with builtTemp := 0 }).modTime .tsu fun t => { t with temp := 127 }), by decide +kernel⟩,
    ⟨.tsu, 0, State.reset, by decide +kernel⟩⟩

theorem witness_TablesCommanded_more :
    (∃ (d : Dev) (n : Nat) (k : BitVec 16) (s : State), (s.convCtl d n).go = false ∧ s.writtenOk d n k = false) ∧
    (∃ (d : Dev) (n : Nat) (k : BitVec 16) (s : State), (s.convCtl d n).go = false ∧ s.writtenOk d n k = true) ∧
    (∃ (d : Dev) (h : Hdr) (a b : Nat) (s s' : State) (hd : Half), s.accept d h opCalVernier = (s', some hd) ∧
      ((∃ n ∈ convRange d a b, (s'.convCtl d n).owner.isSome = true))) ∧
    (∃ (d : Dev) (h : Hdr) (a b : Nat) (s s' : State) (hd : Half), s.accept d h opCalVernier = (s', some hd) ∧
      ((∀ n ∈ convRange d a b, (s'.convCtl d n).owner = none)) ∧ ((∃ n ∈ convRange d a b, s'.hasService d n = true))) ∧
    (∃ (d : Dev) (h : Hdr) (a b : Nat) (fg : Bool) (s s' : State) (hd : Half), s.accept d h opCalVernier = (s', some hd) ∧
      ((∀ n ∈ convRange d a b, (s'.convCtl d n).owner = none)) ∧ ((fg = true → ∀ n ∈ convRange d a b, s'.hasService d n = false))) :=
  ⟨⟨.tsu, 0, 0, State.reset, by decide +kernel⟩,
    ⟨.tsu, 0, 1, wWritten, by decide +kernel⟩,
    ⟨.tsu, hdr, 0, 1, wOwned, (State.accept (wOwned) .tsu hdr opCalVernier).1, 0x01000000, by decide +kernel⟩,
    ⟨.tsu, hdr, 0, 1, wStale, (State.accept (wStale) .tsu hdr opCalVernier).1, 0x01000000, by decide +kernel⟩,
    ⟨.tsu, hdr, 0, 1, true, State.reset, (State.accept (State.reset) .tsu hdr opCalVernier).1, 0x01000000, by decide +kernel⟩⟩

/-- TSU reference 0 is a candidate; in WTR mode, its wait over. -/
def wCand (s : State := State.reset) : State := s.setReg .tsu (refBase .tsu 0) 0x10
def wWtrOn : State := (wCand wWtr).setReg .tsu (crBase .tsu) 1
def wWtrDone : State := wWtrOn.modRef .tsu 0 fun x => { x with wtrDone := true }
def wPulse (n : Half) (s : State := tick 64) : State := (s.setReg .tsu 0x880 n).setReg .tsu 0x884 64

theorem witness_ReferencesJudged_more :
    (∃ (d : Dev) (r : Nat) (s : State), (s.priority d r = 0 ∨ s.candidate d r = false)) ∧
    (∃ (d : Dev) (r : Nat) (s : State), s.priority d r ≠ 0 ∧ s.candidate d r = true ∧
      ((∀ n, s.refLink d r = some n → (s.link d n).ctl.lstate.timed = true)) ∧ s.signalGood d r true = false) ∧
    (∃ (d : Dev) (r : Nat) (s : State), s.priority d r ≠ 0 ∧ s.candidate d r = true ∧ s.signalGood d r true = true ∧
      s.furtherOk d r = true) ∧
    (∃ (d : Dev) (r : Fin 8) (t : Tick) (s : State), (s.ref d r.val).wtrStart = some t ∧
      t.toNat + s.wtrTime d * 1600000000 ≤ (s.now d).toNat ∧ s.signalGood d r.val true = true ∧ s.priority d r.val ≠ 0 ∧
      s.candidate d r.val = true ∧ s.wtrMode d = true) ∧
    (∃ (d : Dev) (r : Fin 8) (s : State), (s.ref d r.val).wtrStart = none) ∧
    (∃ (p : Nat) (s : State), qualityPort p = true ∧ (s.now .jup).toNat % 262144 = 0) ∧
    (∃ (s : State), (s.now .jup).toNat % 262144 ≠ 0) ∧
    (∃ (p : Nat) (s : State), s.carriesSel p = true) ∧
    (∃ (d : Dev) (n r : Nat) (w : BitVec 16) (s : State), s.linkRef d n = some r ∧ qlKnown (w.extractLsb' 12 4) = true) ∧
    (∃ (d : Dev) (n r : Nat) (w : BitVec 16) (s : State), s.linkRef d n = some r ∧ qlKnown (w.extractLsb' 12 4) = false) ∧
    (∃ (d : Dev) (r : Fin 8) (t : Tick) (s : State), (s.ref d r.val).qlTick = some t ∧ (s.now d).toNat < t.toNat + 1310720) ∧
    (∃ (k : Fin 4) (mac : BitVec 48) (ql : BitVec 4) (s : State), s.esmcBound k.val mac = true ∧ qlKnown ql = true) ∧
    (∃ (k : Fin 4) (mac : BitVec 48) (ql : BitVec 4) (s : State), s.esmcBound k.val mac = true ∧ qlKnown ql = false) ∧
    (∃ (k : Fin 4) (mac : BitVec 48) (v : Bool) (s : State), (s.esmcBound k.val mac = false ∨ v = false)) ∧
    (∃ (k : Fin 4) (t : Tick) (s : State), (s.ref .jup k.val).qlTick = some t ∧ (s.now .jup).toNat < t.toNat + 8000000000) :=
  ⟨⟨.tsu, 2, State.reset, by decide +kernel⟩,
    ⟨.tsu, 0, (wCand ((State.reset).modCtl .tsu 0 fun c => { c with lstate := .service })), by refine ⟨by decide +kernel, by decide +kernel, ?_, by decide +kernel⟩; intro n h; cases h; decide +kernel⟩,
    ⟨.tsu, 0, wWtrDone, by decide +kernel⟩,
    ⟨.tsu, 0, 0, wWtrOn, by decide +kernel⟩,
    ⟨.tsu, 0, State.reset, by decide +kernel⟩,
    ⟨95, (tick 262144), by decide +kernel⟩,
    ⟨(tick 1), by decide +kernel⟩,
    ⟨88, (State.reset.modCr .jup fun c => { c with selected := some 4 }), by decide +kernel⟩,
    ⟨.tsu, 0, 0, 0x2000, State.reset, by decide +kernel⟩,
    ⟨.tsu, 0, 0, 0x3000, State.reset, by decide +kernel⟩,
    ⟨.tsu, 0, 0, ((tick 1310719).modRef .tsu 0 fun x => { x with qlTick := some 0 }), by decide +kernel⟩,
    ⟨0, 0, 2, wEsmc, by decide +kernel⟩,
    ⟨0, 0, 3, wEsmc, by decide +kernel⟩,
    ⟨0, 1, true, wEsmc, by decide +kernel⟩,
    ⟨0, 0, ((tick 7999999999).modRef .jup 0 fun x => { x with qlTick := some 0 }), by decide +kernel⟩⟩

theorem witness_ClockCommands_more :
    (∃ (d : Dev) (p : CrOp × Fin 8) (s : State), (s.com d).cr.pend = some p) ∧
    (∃ (d : Dev) (op : CrOp) (r : Fin 8) (s : State), (s.com d).cr.pend = some (op, r) ∧ (s.now d).toNat % 8192 = 0 ∧
      ((s.evalRefs d).modCr d fun c => { c with pend := none }).crRefusal d op r.val = 0) ∧
    (∃ (d : Dev) (s : State), (s.com d).cr.pend = none) ∧
    (∃ (d : Dev) (s : State), (s.now d).toNat % 8192 = 0 ∧ (s.com d).cr.state = .track ∧ (s.com d).cr.selMode = 0 ∧
      ((s.evalRefs d).followLink d).bestQualified d = none) ∧
    (∃ (s : State) (d : Dev) (r : Nat), s.candidate d r = true ∧ (s.ref d r).state ≠ .qualified) :=
  ⟨⟨.tsu, (.clear, 0), (wPend .clear), by decide +kernel⟩,
    ⟨.tsu, .clear, 0, (wPend .clear), by decide +kernel⟩,
    ⟨.tsu, State.reset, by decide +kernel⟩,
    ⟨.tsu, ((tick 8192).modCr .tsu fun c => { c with state := .track }), by decide +kernel⟩,
    ⟨wCand, .tsu, 0, by decide +kernel⟩⟩

theorem witness_LoopSteered_more :
    (∃ (d : Dev) (s : State), (s.now d).toNat % 32 = 0) ∧
    (∃ (d : Dev) (s : State), s.rootMaster d = false ∧ s.loopRuns d = true) ∧
    (∃ (d : Dev) (s : State), s.rootMaster d = true) ∧
    (∃ (d : Dev) (s : State), (s.now d).toNat % 4194304 ≠ 0) ∧
    (∃ (code : BitVec 3), 4 ≤ code.toNat ∧ code.toNat ≤ 6) ∧
    (∃ (d : Dev) (code : BitVec 3) (s : State), ((code.toNat < 4 ∨ code.toNat = 7)) ∧ (s.com d).cr.state = .holdover) :=
  ⟨⟨.tsu, (tick 32), by decide +kernel⟩,
    ⟨.tsu, (State.reset.modCr .tsu fun c => { c with state := .track }), by decide +kernel⟩,
    ⟨.jup, root, by decide +kernel⟩,
    ⟨.tsu, (tick 1), by decide +kernel⟩,
    ⟨4, by decide +kernel⟩,
    ⟨.tsu, 7, (wHoldover .tsu), by decide +kernel⟩⟩

theorem witness_PulsesPlaced_more :
    (∃ (d : Dev) (k : Fin 2) (e : Int) (s : State), fld (s.pulseCfg d k.val) 1 0 = 1 ∧ 64 ≤ s.pulsePeriod d k.val ∧
      s.freeEdge d k.val = some e ∧ s.offDue d k.val = none) ∧
    (∃ (d : Dev) (k : Fin 2) (s : State), fld (s.pulseCfg d k.val) 1 0 = 1 ∧ 64 ≤ s.pulsePeriod d k.val ∧ s.freeEdge d k.val = none ∧
      s.offDue d k.val = none) ∧
    (∃ (d : Dev) (k : Fin 2) (e : Int) (s : State), fld (s.pulseCfg d k.val) 1 0 = 1 ∧ 64 ≤ s.pulsePeriod d k.val ∧
      s.freeEdge d k.val = none ∧ (s.pulse d k.val).offAt = some e ∧ e / 65536 = (s.now d).toNat) ∧
    (∃ (d : Dev) (k : Fin 2) (s : State), fld (s.pulseCfg d k.val) 1 0 = 0 ∧ (s.pulse d k.val).offAt = none) ∧
    (∃ (d : Dev) (k : Fin 2) (s : State), fld (s.pulseCfg d k.val) 1 0 = 0 ∧ (s.pulse d k.val).offAt.isSome = true) ∧
    (∃ (k : Fin 2) (t : Int) (s : State), fld (s.pulseCfg .jup k.val) 1 0 = 2 ∧ s.alignTarget .jup k.val = some t ∧
      s.offDue .jup k.val = none ∧ (Pulse.place (s.pulse .jup k.val) t).1 / 65536 = (s.now .jup).toNat) ∧
    (∃ (d : Dev) (k : Fin 2) (t : Int) (s : State), (s.pulse d k.val).alignLost = false ∧ (s.pulse d k.val).mute = 0 ∧
      Pulse.jumps (s.pulse d k.val) t = false) ∧
    (∃ (p : Pulse) (l t : Int), p.lastOut = some l ∧ (t - (l + meanNear p.ivals)).natAbs ≤ 32768) ∧
    (∃ (d : Dev) (k : Fin 2) (s : State), fld (s.pulseCfg d k.val) 1 0 = 3) ∧
    (∃ (d : Dev) (k : Fin 2) (s : State), fld (s.pulseCfg d k.val) 1 0 = 1 ∧ s.pulsePeriod d k.val < 64) ∧
    (∃ (d : Dev) (k : Fin 2) (s : State), fld (s.pulseCfg d k.val) 1 0 = 2) ∧
    (∃ (d : Dev) (k : Fin 2) (s : State), fld (s.pulseCfg d k.val) 1 0 ≠ 2) :=
  ⟨⟨.tsu, 0, (64 * 65536), wFree, by decide +kernel⟩,
    ⟨.tsu, 0, (wPulse 1 (tick 65)), by decide +kernel⟩,
    ⟨.tsu, 0, (65 * 65536), ((wPulse 1 (tick 65)).modPulse .tsu 0 fun p => { p with offAt := some (65 * 65536) }), by decide +kernel⟩,
    ⟨.tsu, 0, State.reset, by decide +kernel⟩,
    ⟨.tsu, 0, (State.reset.modPulse .tsu 0 fun p => { p with offAt := some 0 }), by decide +kernel⟩,
    ⟨0, (64 * 65536), wAlign, by decide +kernel⟩,
    ⟨.jup, 0, (64 * 65536), wAlign, by decide +kernel⟩,
    ⟨{ lastOut := some 0, ivals := [4194304] }, 0, (4194304 + 32768), by decide +kernel⟩,
    ⟨.tsu, 0, (wPulse 3), by decide +kernel⟩,
    ⟨.tsu, 0, ((State.reset.setReg .tsu 0x880 1).setReg .tsu 0x884 63), by decide +kernel⟩,
    ⟨.jup, 0, wAlign, by decide +kernel⟩,
    ⟨.tsu, 0, State.reset, by decide +kernel⟩⟩

/-- The main domain is up. -/
def up (s : State) : State := s.modPower fun p => { p with mainUp := true }
def wDark : State := State.reset.modPower fun p => { p with state := 4 }
/-- Channels 0 and 1 with banks that overlap, 1 of them bound. -/
def wClash : State := ((wBind.setReg .tsu 0x1084 0x100).modChan 1 fun c => { c with state := .ready })
def wBarred : State := (chan0 fun c => { c with state := .held, barredBy := [blkChan 0] }).modBlock .tsu (blkChan 0) fun b => { b with sev := true }
def wVote : State := (seqRun (descHi 5 0) 0).setReg64 .tsu 0x03000000 (0x8000000000000000 ||| put 64 50 47 1)
/-- A stream of program 1 launched at tick 0, past every latency of R417. -/
def wStreaming : State := chan0 (fun c => { c with state := .running, prog := { c.prog with streams := [{ program := 1, first := 0, count := 1, strideLog2 := 0, stations := 1, tick := 0 }] } }) (tick 48)
theorem latencies : Config.judgeLat + Config.startLat ≤ 48 := by
  have := Nat.mod_lt Config.tieLaunch (show 0 < 8 by decide)
  have := Nat.mod_lt Config.tieRet (show 0 < 8 by decide)
  unfold Config.startLat Config.judgeLat Config.launchLat Config.retLat
  have h := Nat.mod_lt Config.tieStart (show 0 < 32 - (1 + Config.tieLaunch % 8 + (1 + Config.tieRet % 8)) by omega)
  omega
theorem wStreaming_writing : (wStreaming.chan (0 : Fin 8)).prog.writing (wStreaming.now .tsu) 1 = true := by
  have e : (wStreaming.now .tsu).toNat = 48 := by decide +kernel
  have h : decide ((0 : Tick).toNat + Config.judgeLat + Config.startLat ≤ 48) = true := by
    have := latencies
    simpa [Nat.add_assoc] using this
  unfold Prog.writing
  rw [e]
  show ([{ program := 1, first := 0, count := 1, strideLog2 := 0, stations := 1, tick := 0 }] : List Stream).any _ = true
  rw [List.any_cons, h]
  decide +kernel

theorem witness_ChannelControls_more :
    (∃ (c : Fin 8) (s : State), s.bankClash c = false ∧ s.tsuC.time.state = .locked ∧ s.tsuC.time.epochSplit = false ∧
      (s.chan c).state = .unbound ∧ s.bankSize c ≠ 0) ∧
    (∃ (c : Fin 8) (s : State), s.bankClash c = false ∧ s.bindErr c ≠ 0) ∧
    (∃ (c : Fin 8) (s : State), s.bankClash c = true) ∧
    (∃ (c : Fin 8) (s : State), s.resumeBarred c = true) ∧
    (∃ (c : Fin 8) (s : State), s.resumeBarred c = false ∧ (s.chan c).startTick < s.now .tsu) ∧
    (∃ (c : Fin 8) (s : State), (s.chan c).state = .running ∧ s.lockMates c = []) ∧
    (∃ (c : Fin 8) (s : State), (s.chan c).state = .stopped) ∧
    (∃ (c : Fin 8) (s : State), Table.wf {} s.tsu.chans = true ∧
      ((s.chan c).state = .ready ∨ (s.chan c).state = .held ∨ (s.chan c).state = .halted)) :=
  ⟨⟨0, wBind, by decide +kernel⟩,
    ⟨0, State.reset, by decide +kernel⟩,
    ⟨0, wClash, by decide +kernel⟩,
    ⟨0, wBarred, by decide +kernel⟩,
    ⟨0, (chan0 (fun c => { c with state := .held }) (tick 1)), by decide +kernel⟩,
    ⟨0, (state0 .running), by decide +kernel⟩,
    ⟨0, (state0 .stopped), by decide +kernel⟩,
    ⟨0, (state0 .ready), by decide +kernel⟩⟩

theorem witness_ChannelsStart_more :
    (∃ (c : Fin 8) (s : State), (s.chan c).arm = true ∧ (s.chan c).state = .ready ∧ (s.chan c).startTick = s.now .tsu ∧
      s.clamped true = false) ∧
    (∃ (c : Fin 8) (s : State), (s.chan c).resume = true ∧ (s.chan c).startTick = s.now .tsu ∧ s.lockGrp c = 0 ∧
      ((s.chan c).state = .held ∨ (s.chan c).state = .stopped)) ∧
    (∃ (c : Fin 8) (tick : Tick) (s : State), s.tsu.power.state ≠ 4 ∧ (s.chan c).state = .ready ∧ s.now .tsu < tick) ∧
    (∃ (c : Fin 8) (n : BitVec 64) (s : State), s.tsu.power.state ≠ 4 ∧ (s.chan c).state ≠ .unbound ∧ stepAhead (s.chan c) n = true) ∧
    (∃ (c : Fin 8) (n : BitVec 64) (s : State), s.tsu.power.state ≠ 4 ∧ (s.chan c).state ≠ .unbound ∧ stepAhead (s.chan c) n = true) ∧
    (∃ (c : Fin 8) (n : BitVec 64) (s : State), s.tsu.power.state ≠ 4 ∧ (s.chan c).state ≠ .unbound ∧ stepAhead (s.chan c) n = false) ∧
    (∃ (c : Fin 8) (s : State), s.tsu.power.state ≠ 4 ∧ (s.chan c).state = .unbound) ∧
    (∃ (s : State), s.tsu.power.state = 4) :=
  ⟨⟨0, (up wStart), by decide +kernel⟩,
    ⟨0, wResume, by decide +kernel⟩,
    ⟨0, 1, (state0 .ready), by decide +kernel⟩,
    ⟨0, 0, (state0 .running), by decide +kernel⟩,
    ⟨0, 0, (state0 .running), by decide +kernel⟩,
    ⟨0, 0, (chan0 fun c => { c with state := .running, step := 1 }), by decide +kernel⟩,
    ⟨0, State.reset, by decide +kernel⟩,
    ⟨wDark, by decide +kernel⟩⟩

theorem witness_DescriptorsAct_more :
    (∃ (c : Fin 8) (d : BitVec 128) (s : State), s.nextDesc c 1 = .desc d ∧ actionTick (s.chan c).prog d = s.now .tsu ∧
      (s.chan c).prog.breaks (s.now .tsu) = false ∧ (s.chan c).prog.gateVoted = false ∧
      badEntry (s.reg64 .tsu (smtOff c (s.chan c).bank (fld d 95 84))) = false ∧ d.getLsbD 123 = false ∧ s.clamped true = false) ∧
    (∃ (c : Fin 8) (d : BitVec 128) (s : State), s.nextDesc c 2 = .desc d ∧ actionTick (s.chan c).prog d = s.now .tsu ∧
      (s.chan c).prog.breaks (s.now .tsu) = false ∧ s.opAllowed c (dCore d) (dSlot d) (4 + fld d 122 120) = true ∧ fld d 122 120 ≠ 4) ∧
    (∃ (c : Fin 8) (d : BitVec 128) (s : State), s.nextDesc c 3 = .desc d ∧ actionTick (s.chan c).prog d = s.now .tsu ∧
      (s.chan c).prog.breaks (s.now .tsu) = false ∧ s.sramBad 2 c (fld d 95 92) = false ∧ s.selState c (fld d 95 92) = .valid) ∧
    (∃ (c : Fin 8) (d : BitVec 128) (e : Nat × Word) (s : State), s.nextDesc c 5 = .desc d ∧ actionTick (s.chan c).prog d = s.now .tsu ∧
      (s.chan c).prog.breaks (s.now .tsu) = false ∧ (s.chan c).prog.gateVoted = false ∧ s.formatEntry c (dGroup d) = some e ∧
      s.sramBad 3 c e.1 = false ∧ s.groupOk c d e.2 = true ∧ d.getLsbD 122 = true) ∧
    (∃ (c : Fin 8) (d : BitVec 128) (e : Nat × Word) (s : State), s.nextDesc c 5 = .desc d ∧ actionTick (s.chan c).prog d = s.now .tsu ∧
      (s.chan c).prog.breaks (s.now .tsu) = false ∧ (s.chan c).prog.gateVoted = false ∧ s.formatEntry c (dGroup d) = some e ∧
      s.sramBad 3 c e.1 = false ∧ s.groupOk c d e.2 = true ∧ d.getLsbD 122 = false ∧
      (s.chan c).prog.fields.contains (fld d 83 82) = false ∧ fmtOp e.2 ≠ 0xD ∧ d.getLsbD 123 = false) ∧
    (∃ (c : Fin 8) (d : BitVec 128) (s : State), s.nextDesc c 6 = .desc d ∧ actionTick (s.chan c).prog d = s.now .tsu ∧
      (s.chan c).prog.breaks (s.now .tsu) = false ∧ d.getLsbD 121 = false ∧ s.opAllowed c (dCore d) (dSlot d) (fld d 123 122) = true) ∧
    (∃ (c : Fin 8) (eg : EgAns) (d : BitVec 128) (s : State), s.nextDesc c 6 = .desc d ∧ actionTick (s.chan c).prog d = s.now .tsu ∧
      (s.chan c).prog.breaks (s.now .tsu) = false ∧ d.getLsbD 121 = true ∧ eg.path ≠ noPath ∧ s.clamped true = false) ∧
    (∃ (c : Fin 8) (d : BitVec 128) (s : State), s.nextDesc c 8 = .desc d ∧ actionTick (s.chan c).prog d = s.now .tsu ∧
      (s.chan c).prog.breaks (s.now .tsu) = false) ∧
    (∃ (c : Fin 8) (d : BitVec 128) (s : State), s.nextDesc c 0 = .desc d ∧ actionTick (s.chan c).prog d = s.now .tsu ∧
      (s.chan c).prog.breaks (s.now .tsu) = false ∧ s.clamped true = false) ∧
    (∃ (c : Fin 8) (d : BitVec 128) (s : State), s.now .tsu < actionTick (s.chan c).prog d) ∧
    (∃ (c : Fin 8) (d : BitVec 128) (s : State), actionTick (s.chan c).prog d < s.now .tsu) ∧
    (∃ (c : Fin 8) (d : BitVec 128) (s : State), s.nextDesc c 1 = .desc d ∧ actionTick (s.chan c).prog d = s.now .tsu ∧
      (s.chan c).prog.gateVoted = true) :=
  ⟨⟨0, (descHi 1 0 ++ (0 : Word)), (up (seqRun (descHi 1 0) 0)), by decide +kernel⟩,
    ⟨0, (descHi 2 0 ++ (0 : Word)), ((seqRun (descHi 2 0) 0).setReg .tsu (slotCfgOff 0) flagCfg), by decide +kernel⟩,
    ⟨0, (descHi 3 0 ++ (0 : Word)), (up (seqRun (descHi 3 0) 0)), by decide +kernel⟩,
    ⟨0, ((descHi 5 0 ||| bit1 64 58 true) ++ (0 : Word)), (0, 0x8000000000000000), wGate, by decide +kernel⟩,
    ⟨0, (descHi 5 0 ++ (0 : Word)), (0, 0x8000000000000000 ||| put 64 50 47 1), wVote, by decide +kernel⟩,
    ⟨0, (descHi 6 0 ++ (0 : Word)), ((seqRun (descHi 6 0) 0).setReg .tsu (slotCfgOff 0) flagCfg), by decide +kernel⟩,
    ⟨0, ⟨0, 0⟩, ((descHi 6 0 ||| bit1 64 57 true) ++ (0 : Word)), (up (seqRun (descHi 6 0 ||| bit1 64 57 true) 0)), by decide +kernel⟩,
    ⟨0, (descHi 8 0 ++ (0 : Word)), (up (seqRun (descHi 8 0) 0)), by decide +kernel⟩,
    ⟨0, (descHi 0 0 ++ (0 : Word)), (up (seqRun (descHi 0 0) 0)), by decide +kernel⟩,
    ⟨0, (descHi 1 1 ++ (0 : Word)), wAhead, by decide +kernel⟩,
    ⟨0, (descHi 1 0 ++ (0 : Word)), wPast, by decide +kernel⟩,
    ⟨0, (descHi 1 0 ++ (0 : Word)), (seqRun (descHi 1 0) 0 fun c => { c with prog := { c.prog with gateVoted := true } }), by decide +kernel⟩⟩

theorem witness_CommitRule_more :
    (∃ (c : Fin 8) (d : BitVec 128) (s : State), s.nextDesc c 7 = .desc d ∧ actionTick (s.chan c).prog d = s.now .tsu ∧
      (s.chan c).prog.breaks (s.now .tsu) = false ∧ s.lockMates c = [] ∧ s.commitFail c (d.getLsbD 123) = none ∧
      holdCauses (s.chan c) (s.chan c).step = [] ∧ (s.chan c).unbindPend = false ∧ (s.chan c).swapGo = false ∧ s.clamped true = false) ∧
    (∃ (c : Nat) (s : State), s.commitFail c true = none) ∧
    (∃ (c : Nat) (s : State), (s.chan c).step ≠ 0xFFFFFFFFFFFFFFFF ∧ s.clamped true = false) ∧
    (∃ (c : Nat) (il : Bool) (s : State), s.commitFail c il = none ∧ holdCauses (s.chan c) (s.chan c).step ≠ []) :=
  ⟨⟨0, (descHi 7 0 ++ (0 : Word)), (up wCommit), by decide +kernel⟩,
    ⟨0, wCommit, by decide +kernel⟩,
    ⟨0, (up wCommit), by decide +kernel⟩,
    ⟨0, false, (wCommit.modChan 0 fun c => { c with holdWant := [4] }), by decide +kernel⟩⟩

theorem witness_StopRestoresBoundary_more :
    (∃ (c : Nat) (s : State), (s.chan c).state = .running ∧ (s.chan c).unbindPend = false) :=
  ⟨0, wCommit, by decide +kernel⟩

theorem witness_WaitsEnd_more :
    (∃ (w : Waiter) (r : WaitRec) (s : State), s.waitOf w = some r ∧ s.condHolds r = true ∧ r.cond ≠ 3 ∧
      s.sramBad 0 (cfgOwner (s.slotCfg r.core r.slot)) (slotKey r.core r.slot) = false) ∧
    (∃ (w : Waiter) (r : WaitRec) (s : State), s.waitOf w = some r ∧ s.condHolds r = true ∧ r.cond = 3 ∧ s.firstTaker r = true ∧
      s.sramBad 0 (cfgOwner (s.slotCfg r.core r.slot)) (slotKey r.core r.slot) = false) ∧
    (∃ (w : Waiter) (r : WaitRec) (s : State), s.waitOf w = some r ∧ r.timeout ≠ 0) ∧
    (∃ (w : Waiter) (r : WaitRec) (s : State), s.waitOf w = some r ∧ r.who = w ∧ (s.chan r.ch).state = .running ∧
      s.lockMates r.ch = [] ∧ s.tsu.sync.timeout.getLsbD 127 = false) :=
  ⟨⟨(.chan 0), (wWaitRec 0 0), (wWait 0 0 1 9), by decide +kernel⟩,
    ⟨(.chan 0), (wWaitRec 3 0), (wWait 3 0 1 9), by decide +kernel⟩,
    ⟨(.chan 0), (wWaitRec 0 9), (wWait 0 9 0 9), by decide +kernel⟩,
    ⟨(.chan 0), (wWaitRec 0 0), ((wWait 0 0 0 9).modChan 0 fun c => { c with state := .running }), by decide +kernel⟩⟩

theorem witness_StandbyBank_more :
    (∃ (c : Fin 8) (src : Src) (s : State), s.srcDenied .tsu src = false ∧
      ((s.chan c).state = .ready ∨ (s.chan c).state = .held ∨ (s.chan c).state = .halted)) ∧
    (∃ (c : Fin 8) (s : State), ((s.chan c).state = .running ∨ (s.chan c).state = .stopped)) ∧
    (∃ (s : State), s.srcDenied .tsu .jtag = true) ∧
    (∃ (c : Fin 8) (src : Src) (s : State), s.srcDenied .tsu src = false ∧ ((s.chan c).state = .ready ∨ (s.chan c).state = .held)) ∧
    (∃ (c : Fin 8) (src : Src) (s : State), s.srcDenied .tsu src = false ∧ (s.chan c).state ≠ .ready ∧ (s.chan c).state ≠ .held) :=
  ⟨⟨0, .host, (state0 .ready), by decide +kernel⟩,
    ⟨0, (state0 .running), by decide +kernel⟩,
    ⟨State.reset, by decide +kernel⟩,
    ⟨0, .host, (state0 .held), by decide +kernel⟩,
    ⟨0, .host, (state0 .running), by decide +kernel⟩⟩

theorem witness_StationReports_more :
    (∃ (c : Fin 8) (s : State), s.mainOff = false ∧ (s.chan c).state = .running ∧ (s.chan c).prog.unsent.any Unsent.gate = false) ∧
    (∃ (c : Fin 8) (s : State), s.mainOff = false ∧ (s.chan c).state = .running ∧ s.lockMates c = [] ∧ (s.chan c).unbindPend = false ∧
      (s.chan c).prog.unsent.any Unsent.gate = false ∧ (s.chan c).prog.gateVoted = false) ∧
    (∃ (s : State), s.mainOff = false) ∧
    (∃ (s : State), s.mainOff = false) ∧
    (∃ (s : State), s.mainOff = false) ∧
    (∃ (c : Fin 8) (st : BitVec 13) (s : State), s.mainOff = false ∧ (s.chan c).state ≠ .unbound ∧
      (s.chan c).prog.writing (s.now .tsu) st = true) ∧
    (∃ (c : Fin 8) (s : State), s.mainOff = false ∧ (s.chan c).state ≠ .unbound) ∧
    (∃ (c : Fin 8) (s : State), s.mainOff = false ∧ (s.chan c).state ≠ .unbound) ∧
    (∃ (s : State), s.mainOff = false) ∧
    (∃ (c : Fin 8) (s : State), s.mainOff = false ∧ (s.chan c).state ≠ .unbound) :=
  ⟨⟨0, (state0 .running), by decide +kernel⟩,
    ⟨0, (state0 .running), by decide +kernel⟩,
    ⟨State.reset, by decide +kernel⟩,
    ⟨State.reset, by decide +kernel⟩,
    ⟨State.reset, by decide +kernel⟩,
    ⟨0, 1, wStreaming, by exact ⟨by decide +kernel, by decide +kernel, wStreaming_writing⟩⟩,
    ⟨0, (state0 .running), by decide +kernel⟩,
    ⟨0, (state0 .running), by decide +kernel⟩,
    ⟨State.reset, by decide +kernel⟩,
    ⟨0, (state0 .running), by decide +kernel⟩⟩

def pv (f : PendVote → PendVote) (field : Nat := 2) : PendVote := f (wPendVote field)
def wVotingOf (v : PendVote) (t : Tick) : State := chan0 (fun c => { c with state := .running, prog := { c.prog with pend := [v] } }) (tick t)
/-- A failed gate result of the group the image names for channel 0's gate. -/
def wGateFail : List Word := [bit1 64 16 true, 0]
/-- A full vote context at the rack Jupin, with the port's run of rank 2 kept. -/
def wOpenCtx : State := wStage.setVote 4 (some wVoteCtx)
def wContrib3 : List Word := [put 64 48 32 3 ||| put 64 31 20 4 ||| bit1 64 17 true ||| bit1 64 16 true, 0]
def wRows : State := (roled 2 0 wStage).setReg64 .jup (mapBase + 8) (MapRun.word { job := 0, first := 2, last := 3, port := 6, channel := 0, side := 0, state := 0 })
def wRows2 : State := wRows.setReg64 .jup mapBase (MapRun.word { job := 0, first := 0, last := 1, port := 5, channel := 0, side := 0, state := 0 })
def wContrib1 : List Word := [put 64 48 32 2 ||| put 64 31 20 4 ||| bit1 64 17 true ||| bit1 64 16 true ||| 1, 0]
def wRemote : CoreReq := { wReq 1 with remote := true }

def wStage0 : State := wStage.modTime .jup fun c => { c with htc := 100 }
def wPartial1 : VotePartial := { wPartial with stepLo := 1 }
def wSigSet : List Word := [0, put 64 52 47 3, 0]
def wRunRes : List Word := [put 64 31 20 4 ||| put 64 17 10 1, 0]
/-- Conjunction group 4 of job 0 over ranks 0 to 3, on ports 5 and 6. -/
def wConjStage : State :=
  (((roled 2 0 (tick 100)).setReg64 .jup (conjGrpBase 4) (1 ||| put 64 48 47 1)).setReg64 .jup (conjGrpBase 4 + 16) (put 64 33 17 3 ||| bit1 64 63 true))
    |>.setReg64 .jup mapBase (MapRun.word { job := 0, first := 0, last := 1, port := 5, channel := 0, side := 0, state := 0 })
    |>.setReg64 .jup (mapBase + 8) (MapRun.word { job := 0, first := 2, last := 3, port := 6, channel := 0, side := 0, state := 0 })
/-- A stage's arrival. -/
def wArrive : List Word := [put 64 31 20 4 ||| bit1 64 9 true, 0]

theorem witness_ResultsAtTsu_more :
    (∃ (ws : List Word) (s : State), s.tsu.power.state ≠ 4 ∧ s.resultHits ws = [] ∧ s.earlyFails ws = []) ∧
    (∃ (s : State), s.tsu.power.state = 4) ∧
    (∃ (ws : List Word) (c : Nat) (v : PendVote) (vt : Tick) (s : State), s.tsu.power.state ≠ 4 ∧ s.resultHits ws = [(c, v)] ∧
      v.done = false ∧
      vt = (if (nthW ws 1).extractLsb' 32 32 = 0 then v.validTick else nearTick (s.now .tsu) ((nthW ws 1).extractLsb' 32 32)) ∧
      s.now .tsu ≤ vt ∧ ((nthW ws 1).extractLsb' 32 32 ≠ 0 ∨ v.field ≠ 4)) ∧
    (∃ (ws : List Word) (c : Nat) (v : PendVote) (s : State), s.tsu.power.state ≠ 4 ∧ s.resultHits ws = [(c, v)] ∧ v.done = true) ∧
    (∃ (ws : List Word) (c : Nat) (s : State), s.tsu.power.state ≠ 4 ∧ s.resultHits ws = [] ∧ s.earlyFails ws = [c]) ∧
    (∃ (c : Fin 8) (f : Fin 5) (v : PendVote) (st : BitVec 7) (ws : List Word) (s : State), (s.chan c).state ≠ .unbound ∧
      (s.chan c).prog.votePend f = some v ∧ v.validTick = s.now .tsu ∧ v.field ≠ 4 ∧ v.nosel = false ∧
      v.result = some (false, st, ws)) ∧
    (∃ (c : Fin 8) (f : Fin 5) (v : PendVote) (s : State), (s.chan c).state = .running ∧ (s.chan c).prog.votePend f = some v ∧
      v.validTick = s.now .tsu ∧ v.field ≠ 4 ∧ v.nosel = false ∧ v.result = none) ∧
    (∃ (c : Fin 8) (f : Fin 5) (v : PendVote) (b : Bool) (st : BitVec 7) (ws : List Word) (s : State), (s.chan c).state ≠ .unbound ∧
      (s.chan c).prog.votePend f = some v ∧ v.validTick = s.now .tsu ∧ v.field = 4 ∧ v.result = some (b, st, ws)) ∧
    (∃ (c : Fin 8) (f : Fin 5) (v : PendVote) (s : State), (s.chan c).state ≠ .unbound ∧ (s.chan c).prog.votePend f = some v ∧
      v.validTick = s.now .tsu ∧ v.field = 4 ∧ v.result = none) ∧
    (∃ (c : Fin 8) (f : Fin 5) (s : State), (s.chan c).prog.votePend f = none) :=
  ⟨⟨wResult, State.reset, by decide +kernel⟩,
    ⟨wDark, by decide +kernel⟩,
    ⟨wResult, 0, (wPendVote 2), 9, (wVoting 0), by decide +kernel⟩,
    ⟨wResult, 0, (pv fun v => { v with done := true }), (wVotingOf (pv fun v => { v with done := true }) 0), by decide +kernel⟩,
    ⟨wGateFail, 0, (state0 .running), by decide +kernel⟩,
    ⟨0, 2, (pv fun v => { v with result := some (false, 0, []) }), 0, [], (wVotingOf (pv fun v => { v with result := some (false, 0, []) }) 9), by decide +kernel⟩,
    ⟨0, 2, (wPendVote 2), (wVoting 9), by decide +kernel⟩,
    ⟨0, 4, (pv (fun v => { v with result := some (true, 0, []) }) 4), true, 0, [], (wVotingOf (pv (fun v => { v with result := some (true, 0, []) }) 4) 9), by decide +kernel⟩,
    ⟨0, 4, (wPendVote 4), (wVotingOf (wPendVote 4) 9), by decide +kernel⟩,
    ⟨0, 2, State.reset, by decide +kernel⟩⟩

theorem witness_InputsAtStage_more :
    (∃ (ws : List Word) (s : State), s.groupRec ((nthW ws 0).extractLsb' 20 12) = none) ∧
    (∃ (p : Nat) (ws : List Word) (g : GroupRec) (i : VoteInput) (s : State), s.groupRec ((nthW ws 0).extractLsb' 20 12) = some g ∧
      i = contribInput g (s.now .jup) ws ∧ (g.job ≠ i.job ∨ s.role ≠ 1 ∨ s.contribOk p i = false)) ∧
    (∃ (p : Nat) (ws : List Word) (g : GroupRec) (i : VoteInput) (s : State), s.groupRec ((nthW ws 0).extractLsb' 20 12) = some g ∧
      i = contribInput g (s.now .jup) ws ∧ g.job = i.job ∧ s.role = 1 ∧ s.contribOk p i = true ∧ s.inputLate i = false ∧
      s.voteCtx i.group.toNat = none ∧ (s.grpStat i.group.toNat).stepLo ≠ i.stepLo ∧ s.contextFull none i.ctx = false ∧
      i.early = false ∧ ((∃ k ∈ s.expectedOf i.job (grpBase i.group.toNat) i.beginTick, k ≠ i.key))) ∧
    (∃ (p : Nat) (ws : List Word) (g : GroupRec) (i : VoteInput) (v : VoteCtx) (s : State), s.groupRec ((nthW ws 0).extractLsb' 20 12) = some g ∧
      i = contribInput g (s.now .jup) ws ∧ g.job = i.job ∧ s.role = 1 ∧ s.contribOk p i = true ∧ s.inputLate i = false ∧
      s.voteCtx i.group.toNat = some v ∧ v.group = i.group ∧ v.got.contains i.key = false ∧ tickSkew v i = false ∧ i.early = false ∧
      ((∃ k ∈ s.expectedOf v.job (grpBase v.group.toNat) v.beginTick, k ≠ i.key ∧ k ∉ v.got))) ∧
    (∃ (port : Nat) (p : VotePartial) (g : GroupRec) (i : VoteInput) (s : State), s.groupRec p.group = some g ∧ g.job = p.job ∧
      i = partialInput (s.now .jup) port p ∧ (s.expectedOf p.job (grpBase p.group.toNat) i.beginTick).contains port = true ∧
      s.inputLate i = false ∧ s.voteCtx p.group.toNat = none ∧ (s.grpStat p.group.toNat).stepLo ≠ p.stepLo ∧
      s.contextFull none i.ctx = false ∧ p.failed = false ∧
      ((∃ k ∈ s.expectedOf p.job (grpBase p.group.toNat) i.beginTick, k ≠ port))) ∧
    (∃ (g : BitVec 12) (r : GroupRec) (v : VoteCtx) (k : Tick) (s : State), s.voteCtx g.toNat = some v ∧ v.voteTick = some k ∧
      s.now .jup = k + BitVec.ofNat 64 (stageDeadline s.role) ∧ s.groupRec g = some r ∧ v.gate = false ∧ s.missingInputs v ≠ []) ∧
    (∃ (g : BitVec 12) (r : GroupRec) (v : VoteCtx) (k : Tick) (s : State), s.voteCtx g.toNat = some v ∧ v.voteTick = some k ∧
      s.now .jup = k + BitVec.ofNat 64 (stageDeadline s.role) ∧ s.groupRec g = some r ∧ v.gate = true ∧ v.group = g ∧
      s.missingInputs v ≠ [] ∧ ((∀ e ∈ s.jup.stage.votes, ∀ u, e.2 = some u → u.gate = true))) ∧
    (∃ (p : Nat) (s : State), s.role = 1 ∧ p < 88) :=
  ⟨⟨wContrib, State.reset, by decide +kernel⟩,
    ⟨6, wContrib, wGroup, (contribInput wGroup (wStage.now .jup) wContrib), wStage, by decide +kernel⟩,
    ⟨5, wContrib1, wGroup, (contribInput wGroup (wStage0.now .jup) wContrib1), wStage0, by decide +kernel⟩,
    ⟨5, wContrib3, wGroup, (contribInput wGroup (wOpenCtx.now .jup) wContrib3), wVoteCtx, wOpenCtx, by decide +kernel⟩,
    ⟨5, wPartial1, wGroup, (partialInput (wRows2.now .jup) 5 wPartial1), wRows2, by decide +kernel⟩,
    ⟨4, wGroup, { wVoteCtx with gate := false }, 0, (wStage.setVote 4 (some { wVoteCtx with gate := false })), by decide +kernel⟩,
    ⟨4, wGroup, wVoteCtx, 0, wDeadline, by decide +kernel⟩,
    ⟨3, wStage, by decide +kernel⟩⟩

theorem witness_CoreOperations_more :
    (∃ (r : CoreReq) (s : State), s.mainOff = false ∧ r.remote = false ∧ s.coreAllowed r 0 = true ∧
      s.sramBad 0 (cfgOwner (s.slotCfg r.core r.slot)) (slotKey r.core r.slot) = false ∧ Table.wf {} s.tsu.sync.slots = true) ∧
    (∃ (r : CoreReq) (s : State), s.mainOff = false ∧ r.remote = false ∧ s.coreAllowed r 1 = true ∧
      s.sramBad 0 (cfgOwner (s.slotCfg r.core r.slot)) (slotKey r.core r.slot) = false ∧ Table.wf {} s.tsu.sync.slots = true) ∧
    (∃ (r : CoreReq) (s : State), s.mainOff = false ∧ r.remote = false ∧ s.coreAllowed r 2 = true ∧
      s.sramBad 0 (cfgOwner (s.slotCfg r.core r.slot)) (slotKey r.core r.slot) = false ∧ Table.wf {} s.tsu.sync.slots = true ∧
      (s.slotVal (slotKey r.core r.slot)).toNat + r.count.toNat ≤ 255) ∧
    (∃ (r : CoreReq) (s : State), s.mainOff = false ∧ r.remote = false ∧ s.coreAllowed r 2 = true ∧
      s.sramBad 0 (cfgOwner (s.slotCfg r.core r.slot)) (slotKey r.core r.slot) = false ∧
      255 < (s.slotVal (slotKey r.core r.slot)).toNat + r.count.toNat) ∧
    (∃ (r : CoreReq) (s : State), s.mainOff = false ∧ s.coreAllowed r 3 = true ∧
      s.sramBad 0 (cfgOwner (s.slotCfg r.core r.slot)) (slotKey r.core r.slot) = false ∧ Table.wf {} s.tsu.sync.slots = true ∧
      r.count ≤ s.slotVal (slotKey r.core r.slot)) ∧
    (∃ (r : CoreReq) (s : State), s.mainOff = false ∧ s.coreAllowed r 3 = true ∧
      s.sramBad 0 (cfgOwner (s.slotCfg r.core r.slot)) (slotKey r.core r.slot) = false ∧ s.slotVal (slotKey r.core r.slot) < r.count) ∧
    (∃ (r : CoreReq) (eg : EgAns) (c : Nat) (s : State), s.mainOff = false ∧ r.remote = true ∧ s.actingChan r.core = some c ∧
      eg.path ≠ noPath ∧ s.clamped true = false) ∧
    (∃ (s : State), s.mainOff = false) :=
  ⟨⟨(wReq 1), (wCore flagCfg 0), by repeat rw [allowed0 _ _ _ rfl rfl rfl]; decide +kernel⟩,
    ⟨(wReq 1), (wCore flagCfg 0), by repeat rw [allowed0 _ _ _ rfl rfl rfl]; decide +kernel⟩,
    ⟨(wReq 1), (wCore tallyCfg 250), by repeat rw [allowed0 _ _ _ rfl rfl rfl]; decide +kernel⟩,
    ⟨(wReq 6), (wCore tallyCfg 250), by repeat rw [allowed0 _ _ _ rfl rfl rfl]; decide +kernel⟩,
    ⟨(wReq 1), (wCore tallyCfg 250), by repeat rw [allowed0 _ _ _ rfl rfl rfl]; decide +kernel⟩,
    ⟨(wReq 251), (wCore tallyCfg 250), by repeat rw [allowed0 _ _ _ rfl rfl rfl]; decide +kernel⟩,
    ⟨wRemote, ⟨0, 0⟩, 0, ((wCore flagCfg 0).modPower fun p => { p with mainUp := true }), by refine ⟨by decide +kernel, by decide +kernel, acting0 _ rfl rfl, by decide +kernel, by decide +kernel⟩⟩,
    ⟨State.reset, by decide +kernel⟩⟩

theorem witness_CoreWaits_more :
    (∃ (r : CoreReq) (s : State), s.mainOff = false ∧ s.coreAllowed r 4 = true) ∧
    (∃ (r : CoreReq) (s : State), s.mainOff = false ∧ s.coreAllowed r 5 = true) ∧
    (∃ (r : CoreReq) (s : State), s.mainOff = false ∧ s.coreAllowed r 6 = true) ∧
    (∃ (r : CoreReq) (s : State), s.mainOff = false ∧ s.coreAllowed r 7 = true) ∧
    (∃ (r : CoreReq) (round : BitVec 16) (s : State), s.mainOff = false ∧ s.coreAllowed r 8 = true ∧
      s.entryRound (cfgRec (s.slotCfg r.core r.slot)) = some round) ∧
    (∃ (r : CoreReq) (s : State), s.mainOff = false ∧ s.coreAllowed r 8 = true ∧
      (s.conjRec (cfgRec (s.slotCfg r.core r.slot))).cur.toNat + 1 < conjCount (s.conjCfg (cfgRec (s.slotCfg r.core r.slot)))) ∧
    (∃ (r : CoreReq) (s : State), s.mainOff = false ∧ s.coreAllowed r 9 = true ∧
      (s.conjRec (cfgRec (s.slotCfg r.core r.slot))).cur.toNat + 1 < conjCount (s.conjCfg (cfgRec (s.slotCfg r.core r.slot)))) ∧
    (∃ (r : CoreReq) (s : State), s.mainOff = false ∧ s.coreAllowed r 9 = true ∧ s.entryRound (cfgRec (s.slotCfg r.core r.slot)) = none) ∧
    (∃ (r : CoreReq) (s : State), s.mainOff = false ∧ s.coreAllowed r 8 = true ∧ s.entryRound (cfgRec (s.slotCfg r.core r.slot)) = none) ∧
    (∃ (s : State), s.mainOff = false) :=
  ⟨⟨(wReq 1), (wCore flagCfg 0), by repeat rw [allowed0 _ _ _ rfl rfl rfl]; decide +kernel⟩,
    ⟨(wReq 1), (wCore flagCfg 0), by repeat rw [allowed0 _ _ _ rfl rfl rfl]; decide +kernel⟩,
    ⟨(wReq 1), (wCore tallyCfg 250), by repeat rw [allowed0 _ _ _ rfl rfl rfl]; decide +kernel⟩,
    ⟨(wReq 1), (wCore tallyCfg 250), by repeat rw [allowed0 _ _ _ rfl rfl rfl]; decide +kernel⟩,
    ⟨(wReq 1), 0, (wConj 1 0), by repeat rw [allowed0 _ _ _ rfl rfl rfl]; decide +kernel⟩,
    ⟨(wReq 1), (wConj 0 0), by repeat rw [allowed0 _ _ _ rfl rfl rfl]; decide +kernel⟩,
    ⟨(wReq 1), (wConj 0 0), by repeat rw [allowed0 _ _ _ rfl rfl rfl]; decide +kernel⟩,
    ⟨(wReq 1), (wConj 2 2), by repeat rw [allowed0 _ _ _ rfl rfl rfl]; decide +kernel⟩,
    ⟨(wReq 1), (wConj 2 2), by repeat rw [allowed0 _ _ _ rfl rfl rfl]; decide +kernel⟩,
    ⟨State.reset, by decide +kernel⟩⟩

theorem witness_RemoteSignals_more :
    (∃ (ws : List Word) (s : State), s.tsu.power.state ≠ 4 ∧
      (s.servingChan ((nthW ws 0).extractLsb' 49 15) ((nthW ws 0).extractLsb' 32 17)) = none) ∧
    (∃ (ws : List Word) (c : Nat) (s : State), s.tsu.power.state ≠ 4 ∧
      (s.servingChan ((nthW ws 0).extractLsb' 49 15) ((nthW ws 0).extractLsb' 32 17)) = some c ∧
      (nthW ws 0).extractLsb' 7 8 ≠ (s.chan c).run) ∧
    (∃ (ws : List Word) (c : Nat) (s : State), s.tsu.power.state ≠ 4 ∧
      (s.servingChan ((nthW ws 0).extractLsb' 49 15) ((nthW ws 0).extractLsb' 32 17)) = some c ∧
      (nthW ws 0).extractLsb' 7 8 = (s.chan c).run ∧ s.opAllowed c (sigCore ws) (sigSlot ws) (sigOpCode ws) = true ∧
      s.tsu.sync.held.length < 256 ∧ s.clamped true = false) ∧
    (∃ (s : State), s.tsu.power.state = 4) ∧
    (∃ (s : State), s.mainOff = false) ∧
    (∃ (tag : BitVec 8) (h : HeldSig) (s : State), s.visibleDue tag = some h ∧ sigOp h.words = 2 ∧
      s.sramBad 0 (cfgOwner (s.slotCfg (sigCore h.words) (sigSlot h.words))) (slotKey (sigCore h.words) (sigSlot h.words)) = false ∧
      (s.slotVal (slotKey (sigCore h.words) (sigSlot h.words))).toNat + (fld (nthW h.words 1) 44 37) ≤ 255 ∧
      Table.wf {} s.tsu.sync.slots = true) ∧
    (∃ (tag : BitVec 8) (h : HeldSig) (s : State), s.visibleDue tag = some h ∧ (sigOp h.words = 0 ∨ sigOp h.words = 1) ∧
      s.sramBad 0 (cfgOwner (s.slotCfg (sigCore h.words) (sigSlot h.words))) (slotKey (sigCore h.words) (sigSlot h.words)) = false ∧
      Table.wf {} s.tsu.sync.slots = true) :=
  ⟨⟨(wSignal 0), State.reset, by decide +kernel⟩,
    ⟨(wSignal 1), 0, (wCore tallyCfg 0), by decide +kernel⟩,
    ⟨(wSignal 0), 0, ((wCore tallyCfg 0).modPower fun p => { p with mainUp := true }), by decide +kernel⟩,
    ⟨wDark, by decide +kernel⟩,
    ⟨State.reset, by decide +kernel⟩,
    ⟨5, { tag := 5, words := wSignal 0, ch := 0, arrival := 0, reached := some 10 }, (wHeld 32), by decide +kernel⟩,
    ⟨5, { tag := 5, words := wSigSet, ch := 0, arrival := 0, reached := some 10 }, ((tick 32).modSync fun y => { y with held := [{ tag := 5, words := wSigSet, ch := 0, arrival := 0, reached := some 10 }] }), by decide +kernel⟩⟩

theorem witness_DebugWrites_more :
    (∃ (s : State), s.tsuC.sec.session ≠ .control) ∧
    (∃ (core : BitVec 11) (slot : BitVec 6) (s : State), s.tsuC.sec.session = .control ∧ cfgKind (s.slotCfg core slot) = 1) ∧
    (∃ (core : BitVec 11) (slot : BitVec 6) (s : State), s.tsuC.sec.session = .control ∧ cfgKind (s.slotCfg core slot) = 2) ∧
    (∃ (core : BitVec 11) (slot : BitVec 6) (s : State), s.tsuC.sec.session = .control ∧ cfgKind (s.slotCfg core slot) = 3) ∧
    (∃ (s : State), s.tsuC.sec.session = .control) ∧
    (∃ (s : State), Table.wf {} s.tsu.sync.slots = true) ∧
    (∃ (rec : BitVec 12) (s : State), (rec.toNat, s.now .tsu) ∈ s.tsu.sync.forced) :=
  ⟨⟨State.reset, by decide +kernel⟩,
    ⟨0, 3, (wControl flagCfg), by decide +kernel⟩,
    ⟨0, 3, (wControl tallyCfg), by decide +kernel⟩,
    ⟨0, 3, (wControl conjCfg1), by decide +kernel⟩,
    ⟨(wControl flagCfg), by decide +kernel⟩,
    ⟨State.reset, by decide +kernel⟩,
    ⟨1, wForced, by decide +kernel⟩⟩

theorem witness_ConjunctionRounds_more :
    (∃ (s : State), s.mainOff = false ∧ s.tsu.sync.drain ≠ []) ∧
    (∃ (rec : BitVec 12) (b : Bool) (i : Instr) (s : State), (s.conjRec rec.toNat).release = some (s.now .tsu) ∧
      i = (if b then .localConjRelease rec else .conjReleaseApply rec) ∧ (conjSpan (s.conjCfg rec.toNat) = 0 ↔ b = true) ∧
      Table.wf {} s.tsu.sync.recs = true) ∧
    (∃ (ws : List Word) (s : State), s.conjGroupRec (fld (nthW ws 0) 31 20) = none) ∧
    (∃ (p : Nat) (ws : List Word) (j : BitVec 15) (span : Nat) (b : Tick) (s : State), s.conjGroupRec (fld (nthW ws 0) 31 20) = some (j, span) ∧
      j = (nthW ws 0).extractLsb' 49 15 ∧ b = nearTick (s.now .jup) ((nthW ws 1).extractLsb' 32 32) ∧
      s.arrivalOk p (fld (nthW ws 0) 31 20) j ws b = true ∧ (nthW ws 0).getLsbD 18 = false ∧
      (nthW ws 0).getLsbD 19 = (s.conjStage (fld (nthW ws 0) 31 20)).round.getLsbD 0 ∧
      ((s.conjStage (fld (nthW ws 0) 31 20)).beginTick = none ∨ (s.conjStage (fld (nthW ws 0) 31 20)).beginTick = some b) ∧
      (s.conjStage (fld (nthW ws 0) 31 20)).cur.contains p = false ∧
      ((∃ k ∈ s.memberPorts j (conjGrpBase (fld (nthW ws 0) 31 20)) b, k ≠ p ∧ k ∉ (s.conjStage (fld (nthW ws 0) 31 20)).cur))) ∧
    (∃ (ws : List Word) (s : State), s.tsu.power.state ≠ 4 ∧
      s.groupRecs ((nthW ws 0).extractLsb' 49 15) ((nthW ws 0).extractLsb' 20 12) = []) ∧
    (∃ (ws : List Word) (r : Nat) (s : State), s.tsu.power.state ≠ 4 ∧
      s.groupRecs ((nthW ws 0).extractLsb' 49 15) ((nthW ws 0).extractLsb' 20 12) = [r]) ∧
    (∃ (ws : List Word) (r : Nat) (s : State), s.tsu.power.state ≠ 4 ∧
      s.groupRecs ((nthW ws 0).extractLsb' 49 15) ((nthW ws 0).extractLsb' 20 12) = [r] ∧
      (nthW ws 0).extractLsb' 10 8 ≠ (s.chan (conjOwner (s.conjCfg r))).run) ∧
    (∃ (ws : List Word) (r : Nat) (s : State), s.tsu.power.state ≠ 4 ∧
      s.groupRecs ((nthW ws 0).extractLsb' 49 15) ((nthW ws 0).extractLsb' 20 12) = [r] ∧
      (nthW ws 0).extractLsb' 10 8 = (s.chan (conjOwner (s.conjCfg r))).run ∧ (nthW ws 0).getLsbD 19 = (s.conjRec r).round.getLsbD 0 ∧
      (nthW ws 0).getLsbD 18 = false ∧ s.now .tsu ≤ nearTick (s.now .tsu) ((nthW ws 1).extractLsb' 32 32)) ∧
    (∃ (s : State), s.tsu.power.state = 4) :=
  ⟨⟨wDrain, by decide +kernel⟩,
    ⟨1, true, (.localConjRelease 1), (wRelease 2), by decide +kernel⟩,
    ⟨wResult, State.reset, by decide +kernel⟩,
    ⟨5, wArrive, 0, 1, 0, wConjStage, by decide +kernel⟩,
    ⟨wResult, State.reset, by decide +kernel⟩,
    ⟨wResult, 1, wGroupConj, by decide +kernel⟩,
    ⟨wRunRes, 1, wGroupConj, by decide +kernel⟩,
    ⟨wResult, 1, wGroupConj, by decide +kernel⟩,
    ⟨wDark, by decide +kernel⟩⟩

def lnk (d : Dev) (n : Nat) (f : LinkCtl → LinkCtl) (s : State := State.reset) : State := s.modLink d n fun l => { l with ctl := f l.ctl }
/-- A quality message of one word fills a TIME frame. -/
def wTimeMsg : Msg := localMsg mtFence [1, 2]
def wTimeFrame : List (BitVec 66) := (frameHdr .time 0 0 false 0 :: msgWords wTimeMsg ++ List.replicate 4 0).map lineWord
def wIdleFrame : List (BitVec 66) := (frameHdr .idle 0 0 false 0 :: List.replicate 7 0).map lineWord
def wServed : State := lnk .tsu 0 (fun c => { c with frameLock := true, lstate := .service }) ((tick 5).modRx .tsu 0 fun r => { r with nextTseq := 0 })
def wQueued : State := (lst .tsu .service 5).modTx .tsu 0 fun t => { t with qStep := [wTimeMsg], stepCr := 1 }
def wRetained : State := (lst .tsu .service 112).modTx .tsu 0 fun t => { t with retained := [{ hdr := frameHdr .step 0 0 false 0, words := List.replicate 7 0 }] }
def wPart : State := (tick 0).modRx .tsu 0 fun r => { r with partBulk := [put 64 41 32 5] }
def wVia : State := State.reset.modLink .tsu 0 fun l => { l with flows := [{ num := 5, window := 0, sent := 0, credit := 0, consumed := 0, reported := 0, via := some 3 }] }
def wTwo : Delivery := { wDelivery with left := [(3, none), (4, none)] }
def wReport : List Word := [put 64 63 32 0x01000005, put 64 63 32 1]

def wHeldSig : HeldSig := { tag := 5, words := wSignal 0, ch := 0, arrival := 0, reached := some 10 }
/-- Channel 0 serves job 7, of which a signal is held. -/
def wHeldOf : State := (chan0 (fun c => { c with state := .ready, job := 7 }) (tick 9)).modSync fun y => { y with held := [wHeldSig] }

theorem witness_ParityGuards_more :
    (∃ (i : Nat), i < 33) ∧
    (∃ (a b : BitVec 2), (gray a).toNat + 1 = (gray b).toNat) ∧
    (∃ (d : Dev) (n : Nat) (f : List (BitVec 66)) (s : State), (s.link d n).ctl.frameLock = true ∧ f.all wordOk = false) ∧
    (∃ (d : Dev) (n : Nat) (f : List (BitVec 66)) (s : State), (s.link d n).ctl.frameLock = true ∧ f.all wordOk = true ∧ f.length = 8 ∧
      hdrVc ((f.headD 0).extractLsb' 0 64) = 0) ∧
    (∃ (n : Nat) (f : List (BitVec 66)) (h : Word) (m : Msg) (s : State), (s.link .tsu n).ctl.frameLock = true ∧ f.all wordOk = true ∧
      f.length = 8 ∧ h = (f.headD 0).extractLsb' 0 64 ∧ h.getLsbD 60 = false ∧ h.getLsbD 3 = false ∧
      (s.link .tsu n).ctl.lstate = .service ∧ hdrVc h = 1 ∧ hdrFseq h = (s.link .tsu n).rx.nextTseq ∧
      hdrVseq h = (s.link .tsu n).rx.vseqTime ∧ parseWords .time (f.tail.map fun w => w.extractLsb' 0 64) [] [] = some ([m], []) ∧
      (s.link .tsu n).fences = [] ∧ s.tsu.power.state ≠ 4) :=
  ⟨⟨0, by decide +kernel⟩,
    ⟨0, 1, by decide +kernel⟩,
    ⟨.tsu, 0, [lineWord 1, lineWord 2 ^^^ 1], (lctl .tsu fun c => { c with frameLock := true }), by decide +kernel⟩,
    ⟨.tsu, 0, wIdleFrame, wServed, by decide +kernel⟩,
    ⟨0, wTimeFrame, ((wTimeFrame.headD 0).extractLsb' 0 64), wTimeMsg, wServed, by decide +kernel⟩⟩

theorem witness_FramesLaunched_more :
    (∃ (d : Dev) (n : Nat) (s : State), s.idlePort d n = true) ∧
    (∃ (d : Dev) (n : Nat) (s : State), s.idlePort d n = false ∧ (s.link d n).tx.lastLaunch ≠ some (s.now d) ∧
      ((s.link d n).ctl.lstate = .align ∨ (s.link d n).ctl.lstate = .timing ∨ (s.link d n).ctl.lstate = .service) ∧
      (s.link d n).ctl.injPar = false ∧ (s.link d n).fences = []) ∧
    (∃ (d : Dev) (n : Nat) (s : State), s.idlePort d n = false ∧ (s.link d n).tx.lastLaunch ≠ some (s.now d) ∧
      (s.link d n).ctl.lstate = .service ∧ (s.now d).toNat % 128 ≠ 0) ∧
    (∃ (d : Dev) (n : Nat) (s : State), (s.link d n).fences = [] ∧ replayFrame (s.link d n).tx = none ∧ stepReady (s.link d n) = false ∧
      s.bulkReady d n = false) ∧
    (∃ (d : Dev) (n : Nat) (s : State), s.idlePort d n = false ∧ (s.link d n).tx.lastLaunch ≠ some (s.now d) ∧
      (s.link d n).ctl.lstate = .service ∧ (s.now d).toNat % 128 ≠ 0 ∧ (s.link d n).fences = [] ∧ replayFrame (s.link d n).tx = none ∧
      stepReady (s.link d n) = true ∧ s.openPort d n = true ∧ s.bulkReady d n = false ∧ (s.link d n).ctl.injPar = false) ∧
    (∃ (f : Frame), f.words.length = 7) ∧
    (∃ (d : Dev) (n : Nat) (f : Frame) (s : State), (s.link d n).ctl.lstate = .service ∧ (s.link d n).tx.retained.head? = some f ∧
      (s.link d n).tx.retainedT = [] ∧ (s.link d n).tx.ackTick.toNat + ackTimeout (s.link d n) ≤ (s.now d).toNat ∧
      (s.link d n).ctl.sameReplay = 0 ∧ (s.link d n).ctl.episodes = [] ∧ s.replayMax d n ≠ 0) ∧
    (∃ (d : Dev) (n : Nat) (s : State), ((s.link d n).ctl.lstate = .align ∨ (s.link d n).ctl.lstate = .timing)) ∧
    (∃ (d : Dev) (n : Nat) (s : State), ((s.link d n).ctl.lstate = .down ∨ (s.link d n).ctl.lstate = .train)) :=
  ⟨⟨.jup, 88, ((roled 3 0 State.reset).modJup fun j => { j with mainLow := true }), by decide +kernel⟩,
    ⟨.tsu, 0, ((lst .tsu .service 5)), by decide +kernel⟩,
    ⟨.tsu, 0, ((lst .tsu .service 5)), by decide +kernel⟩,
    ⟨.tsu, 0, ((lst .tsu .service 5)), by decide +kernel⟩,
    ⟨.tsu, 0, wQueued, by decide +kernel⟩,
    ⟨idleFrame, by decide +kernel⟩,
    ⟨.tsu, 0, { hdr := frameHdr .step 0 0 false 0, words := List.replicate 7 0 }, wRetained, by decide +kernel⟩,
    ⟨.tsu, 0, (lst .tsu .align), by decide +kernel⟩,
    ⟨.tsu, 0, State.reset, by decide +kernel⟩⟩

theorem witness_FlowsAndDeliveries_more :
    (∃ (d : Dev) (n : Nat) (flow : BitVec 10) (s : State), (s.flow d n flow).via = none) ∧
    (∃ (d : Dev) (n i : Nat) (flow : BitVec 10) (s : State), (s.flow d n flow).via = some i) ∧
    (∃ (d : Dev) (n : Nat) (w : Word) (s : State), Table.wf {} (s.com d).links = true ∧
      (s.link d n).rx.partBulk.head?.map (fun h => h.extractLsb' 32 10) = some (w.extractLsb' 0 10)) ∧
    (∃ (d : Dev) (n : Nat) (w : Word) (s : State), Table.wf {} (s.com d).links = true ∧
      (s.link d n).rx.partBulk.head?.map (fun h => h.extractLsb' 32 10) ≠ some (w.extractLsb' 0 10)) ∧
    (∃ (p : Nat) (ws : List Word) (x : Delivery) (s : State), s.jupC.deliveries = [x] ∧ x.handle = (nthW ws 0).extractLsb' 32 32 ∧
      x.left.any (fun e => decide (e.1 = p)) = true ∧ ((∃ e ∈ x.left, e.1 ≠ p))) :=
  ⟨⟨.tsu, 0, 5, State.reset, by decide +kernel⟩,
    ⟨.tsu, 0, 3, 5, wVia, by decide +kernel⟩,
    ⟨.tsu, 0, 5, wPart, by decide +kernel⟩,
    ⟨.tsu, 0, 6, wPart, by decide +kernel⟩,
    ⟨3, wReport, wTwo, (State.reset.modCom .jup fun c => { c with deliveries := [wTwo] }), by decide +kernel⟩⟩

theorem witness_LinkStates_more :
    (∃ (d : Dev) (n : Nat) (s : State), (s.link d n).ctl.lstate = .down ∧ (s.link d n).ctl.disable = false ∧ s.idlePort d n = false ∧
      (s.link d n).ctl.trainFails < 3) ∧
    (∃ (d : Dev) (n : Nat) (s : State), ((s.link d n).ctl.disable = true ∨ s.idlePort d n = true)) ∧
    (∃ (d : Dev) (n : Nat) (s : State), (s.link d n).ctl.lstate = .train) ∧
    (∃ (d : Dev) (n : Nat) (s : State), (s.link d n).ctl.lstate = .align) ∧
    (∃ (d : Dev) (n : Nat) (s : State), s.overran d n = true ∧ (s.link d n).ctl.trainFails = 0) ∧
    (∃ (d : Dev) (n : Nat) (s : State), s.overran d n = true ∧ 2 ≤ (s.link d n).ctl.trainFails) ∧
    (∃ (d : Dev) (n : Nat) (s : State), (s.link d n).ctl.lstate = .down ∧ (s.link d n).ctl.disable = false ∧ s.idlePort d n = false ∧
      3 ≤ (s.link d n).ctl.trainFails ∧ (s.link d n).ctl.since.toNat + 1600000000 ≤ (s.now d).toNat) ∧
    (∃ (d : Dev) (s : State), Table.wf {} (s.com d).links = true) ∧
    (∃ (p : Nat) (k : Tick) (s : State), p < 88 ∧ (s.link .jup p).ctl.downSince = some k ∧ (s.link .jup p).ctl.lstate ≠ .service ∧
      k.toNat + 2 ^ s.downLog2 p ≤ (s.now .jup).toNat ∧ (s.link .jup p).ctl.downRaised = false) ∧
    (∃ (p : Nat) (k : Tick) (s : State), (s.link .jup p).ctl.downSince = some k ∧ (s.link .jup p).ctl.lstate ≠ .service ∧
      k.toNat + 2 ^ s.downLog2 p ≤ (s.now .jup).toNat ∧ (s.link .jup p).ctl.downRaised = false) :=
  ⟨⟨.tsu, 0, (lst .tsu .down), by decide +kernel⟩,
    ⟨.jup, 0, (lctl .jup fun c => { c with disable := true }), by decide +kernel⟩,
    ⟨.tsu, 0, (lst .tsu .train), by decide +kernel⟩,
    ⟨.tsu, 0, (lst .tsu .align), by decide +kernel⟩,
    ⟨.tsu, 0, (lst .tsu .train 3200001), by decide +kernel⟩,
    ⟨.tsu, 0, (lctl .tsu (fun c => { c with lstate := .align, trainFails := 2 }) 160001), by decide +kernel⟩,
    ⟨.tsu, 0, (lctl .tsu (fun c => { c with lstate := .down, trainFails := 3 }) 1600000000), by decide +kernel⟩,
    ⟨.tsu, State.reset, by decide +kernel⟩,
    ⟨0, 0, wLong, by decide +kernel⟩,
    ⟨0, 0, wLong, by decide +kernel⟩⟩

theorem witness_LinkControlTaken_more :
    (∃ (d : Dev) (n : Nat) (s : State), (s.link d n).ctl.lstate = .align ∧ (s.link d n).ctl.frameLock = true) ∧
    (∃ (d : Dev) (n : Nat) (s : State), (s.link d n).ctl.lstate ≠ .align ∧ (d = .tsu ∨ 88 ≤ n ∨ (s.link d n).ctl.lstate ≠ .service)) ∧
    (∃ (n : Nat) (ws : List Word) (s : State), n < 88 ∧ (s.link .jup n).ctl.lstate = .service ∧ (s.link .jup n).ctl.frameLock = false ∧
      (s.link .jup n).ctl.farSession ≠ (nthW ws 1).extractLsb' 48 16) ∧
    (∃ (d : Dev) (n : Nat) (w1 : Word) (s : State), (s.link d n).ctl.lstate = .align ∧ (s.link d n).ctl.frameLock = true ∧
      ((s.link d n).ctl.served = false ∨ (s.link d n).ctl.farSession ≠ w1.extractLsb' 48 16)) ∧
    (∃ (d : Dev) (src : Src) (s : State), s.injDenied d src = false) :=
  ⟨⟨.tsu, 0, (lctl .tsu fun c => { c with lstate := .align, frameLock := true }), by decide +kernel⟩,
    ⟨.tsu, 0, (lst .tsu .service), by decide +kernel⟩,
    ⟨0, [0, put 64 63 48 7, 0, 0], (lst .jup .service), by decide +kernel⟩,
    ⟨.tsu, 0, 0, (lctl .tsu fun c => { c with lstate := .align, frameLock := true }), by decide +kernel⟩,
    ⟨.tsu, .host, State.reset, by decide +kernel⟩⟩

theorem witness_FencesAct_more :
    (∃ (ws : List Word) (h : HeldSig) (s : State), (fenceOf ws).tick ≤ s.now .tsu ∧ h ∈ s.tsu.sync.held ∧ h.ch < 8 ∧
      (s.chan h.ch).state ≠ .unbound ∧ (s.chan h.ch).job = (fenceOf ws).job) ∧
    (∃ (p : Nat) (ws : List Word) (s : State), s.pathPort (fenceOf ws).path = some (some p) ∧ s.role = 1 ∧ p < 88) ∧
    (∃ (p : Nat) (ws : List Word) (s : State), (fenceOf ws).domain = false ∧ s.jupC.groups = [] ∧
      s.pathPort (fenceOf ws).path = some (some p) ∧ s.role = 1 ∧ p < 88) ∧
    (∃ (p : Nat) (f : Fence) (s : State), (s.link .jup p).fences = [f] ∧ f.tick = s.now .jup) ∧
    (∃ (p : Nat) (f : Fence) (s : State), (s.link .jup p).fences = [f] ∧ f.tick = s.now .jup ∧ f.domain = true) ∧
    (∃ (f : Fence) (m : Msg) (js : List (BitVec 15)) (k : Tick), f.tick ≤ k ∧ isTime m.mtype = false ∧ (f.domain = true ∨ f.job ∈ js)) ∧
    (∃ (ws : List Word) (s : State), s.tsu.power.state ≠ 4 ∧ (fenceOf ws).domain = true) ∧
    (∃ (ws : List Word) (s : State), s.tsu.power.state ≠ 4 ∧ (fenceOf ws).domain = false) ∧
    (∃ (s : State), s.tsu.power.state = 4) ∧
    (∃ (a : Bool × Option Nat × Half) (r : List (Bool × Option Nat × Half)) (s : State), s.mainOff = false ∧ s.tsu.nfAsked = a :: r) ∧
    (∃ (ch : Option Nat) (path : Half) (r : List (Bool × Option Nat × Half)) (s : State), s.mainOff = false ∧
      s.tsu.nfAsked = (false, ch, path) :: r) ∧
    (∃ (ch : Option Nat) (path : Half) (r : List (Bool × Option Nat × Half)) (s : State), s.mainOff = false ∧
      s.tsu.nfAsked = (true, ch, path) :: r) ∧
    (∃ (s : State), s.role ≠ 1) :=
  ⟨⟨(fenceWords (wFence 9)), wHeldSig, wHeldOf, by decide +kernel⟩,
    ⟨5, (fenceWords (wFence 9)), (roled 1 0 State.reset), by decide +kernel⟩,
    ⟨5, (fenceWords (wFence 9)), (roled 1 0 State.reset), by decide +kernel⟩,
    ⟨3, (wFence 9), wFenced, by decide +kernel⟩,
    ⟨3, { wFence 9 with domain := true }, ((tick 9).modLink .jup 3 fun l => { l with fences := [{ wFence 9 with domain := true }] }), by decide +kernel⟩,
    ⟨(wFence 9), (localMsg mtResult []), [7], 9, by decide +kernel⟩,
    ⟨(fenceWords { wFence 9 with domain := true }), State.reset, by decide +kernel⟩,
    ⟨(fenceWords (wFence 9)), State.reset, by decide +kernel⟩,
    ⟨wDark, by decide +kernel⟩,
    ⟨(true, some 2, 5), [], (wAsked true), by decide +kernel⟩,
    ⟨(some 2), 5, [], (wAsked false), by decide +kernel⟩,
    ⟨(some 2), 5, [], (wAsked true), by decide +kernel⟩,
    ⟨State.reset, by decide⟩⟩

theorem witness_WordsRoundTrip_more :
    (∃ (m : Msg), m.words.length < 4096 ∧ m.src = none ∧ m.frames = 0 ∧ m.want = 0) :=
  ⟨(localMsg mtFence [1, 2]), by decide +kernel⟩

theorem witness_JournalRecords_more :
    (∃ (p : Nat) (ws : List Word) (r : JrnRec) (s : State), r = recordOf ws s.jup.journalBlock (s.now .jup) ∧
      1 ≤ fld (nthW ws 0) 31 28 ∧ fld (nthW ws 0) 31 28 ≤ 3 ∧ p < 88 ∧ r.crcOk = true ∧
      s.jup.journal.any (fun e => sameChunk e.2 r && e.2.durable) = false ∧ s.stepPassed r = false ∧
      s.usage r.job + r.bytes ≤ (s.jobWord r.job 4).toNat) :=
  ⟨5, (wAppend 1 wCrc), (recordOf (wAppend 1 wCrc) (wQuota 64).jup.journalBlock ((wQuota 64).now .jup)), (wQuota 64), by decide +kernel⟩

def wJrn (r : JrnRec) : State := State.reset.modJup fun j => { j with journal := [(0, r)] }
def wTrk : State := (tick 6).modJup fun j => { j with tracker := tset none j.tracker 3 (some { handle := 0, kind := .command, job := none, deadline := 5, delivered := 0, expected := 1 }) }
/-- A generation of port 5 that is whole, and one whose AON uplink is uplink B. -/
def wRackGen : State := wJob 1 (wGenOf false)
def wRst : State := roled 1 0 (wGenOf false)
def wHeld7 : State := (wJob 1).modJup fun j => { j with budgetHeld := [7] }
def wTree7 (s : State) : State := (s.setReg64 .jup (treeBase 0) (put 64 63 49 7 ||| 1)).setReg64 .jup (treeBase 0 + 8) 32
/-- Port 9 holds a spare. -/
def wSpare : State := (((wJob 1).setReg .jup (portHealthOff 9) 0x20000000).modLink .jup 9 fun l => { l with ctl := { l.ctl with lstate := .service }, time := { l.time with farState := 2 } })
def wSpare' : State := (wSpare.accept .jup hdr opBringIn (job := some 7)).1
theorem wSpare_far (r : BitVec 17) : sameSled 9 (wSpare'.rankPort 7 r) = false := by
  unfold State.rankPort State.rankRun
  rw [show wSpare'.jobRuns 7 = [{ job := 7, first := 0, last := 3, port := 5, channel := 0, side := 0, state := 0 }] from by decide +kernel]
  simp only [List.find?_cons, List.find?_nil]
  split <;> decide
theorem wSpare_free : wSpare'.freeSpares 7 2 = [9] := by
  have h : ∀ p ∈ List.range 88, (decide (wSpare'.portState p = 1) && !wSpare'.nearMate 7 2 p && (tget none wSpare'.jup.restores p).isNone &&
      wSpare'.jup.bringIns.all fun b => decide (b.spare ≠ wSpare'.childPath p ∧ b.second ≠ some (wSpare'.childPath p))) = decide (p = 9) := by
    intro p hp
    by_cases h9 : p = 9
    · subst h9
      have hn : wSpare'.nearMate 7 2 9 = false := by
        unfold State.nearMate
        rw [Bool.or_eq_false_iff]
        constructor
        · cases wSpare'.partnerOf 7 2 <;> first | rfl | exact wSpare_far _
        · cases wSpare'.twinOf 7 2 <;> first | rfl | exact wSpare_far _
      rw [hn]; decide +kernel
    · have : ∀ p ∈ List.range 88, p ≠ 9 → decide (wSpare'.portState p = 1) = false := by decide +kernel
      rw [this p hp h9]; simp [h9]
  unfold State.freeSpares
  rw [List.filter_congr h]; decide
theorem wSpare_picked : wSpare'.pickRack 7 2 0 hdr.override = .spare (wSpare.childPath 9) := by
  unfold State.pickRack
  rw [wSpare_free]; decide +kernel
/-- Two bring-ins of job 7, of ranks 2 and 3. -/
def wBring3 : BringIn := { wBring 0 with rank := 3, spare := 6 }
def wTwoBring (mode : Nat) (t : Tick := 0) : State := (tick t).modJup fun j => { j with bringIns := [wBring mode, wBring3] }
def wTwoCheck : State := (wTwoBring 1).modJup fun j => { j with journal := [(0, { wRec true with rank := 2, kind := 3 })] }
def wLateBring : BringIn := { wBring 1 with started := 1 }
def wRerunDown : State := (wJob 2).modStage fun x => { x with rerun := [(7, 4)] }
def wRerunFull : State := (((wJob 1).setReg64 .jup (jobBase 0) (put 64 63 49 7 ||| put 64 48 32 3 ||| put 64 15 8 255 ||| 1))).modStage fun x => { x with rerun := [(7, 4)] }
def wFwd (s : State := State.reset) : State := s.modJup fun j => { j with forwards := [wForward] }
def wFwdEntry : State := wFwd (State.reset.modCmds .jup fun c => { c with entries := tset none [] 2 (some { handle := 0x01000002, opcode := opShutter, valid := false, status := 0, endTick := 0, results := [], notify := false }) })
def wFwdTwo : Forward := { wForward with left := [3, 4] }
def wRestEntry : State := (wRestoring true .service).modCmds .jup fun c => { c with entries := tset none [] 0 (some { handle := 0x01000000, opcode := opRestore, valid := false, status := 0, endTick := 0, results := [], notify := false }) }
theorem limit_reached (s : State) (j : BitVec 15) (h : (s.now .jup).toNat = 2 ^ 64 - 1) : (0 : Tick).toNat + s.recomputeLimit j ≤ (s.now .jup).toNat := by
  rw [h, show (0 : Tick).toNat = 0 from rfl, Nat.zero_add]; unfold State.recomputeLimit
  cases Config.recomputeLimit (s.jobDigest j) j with
  | none => decide
  | some v => have := v.isLt; simp only [Option.map_some, Option.getD_some]; omega
theorem rerun_reached (s : State) (j : BitVec 15) (h : fld (s.jobWord j 0) 15 8 = 255) : s.rerunMax j ≤ fld (s.jobWord j 0) 15 8 := by
  rw [h]; unfold State.rerunMax
  cases Config.rerunMax (s.jobDigest j) j with
  | none => decide
  | some v => have := v.isLt; simp only [Option.map_some, Option.getD_some]; omega

theorem witness_RecordsAge_more :
    (∃ (n : Nat) (r : JrnRec) (s : State), s.jup.journal = [(n, r)] ∧ r.durable = false ∧ r.kind ≠ 3) ∧
    (∃ (j : BitVec 15) (q : BitVec 40) (s : State), s.ageDue j q = true) ∧
    (∃ (j : BitVec 15) (r : BitVec 17) (x : Shadow) (s : State), s.jup.shadows = [x] ∧ x.job = j ∧ x.rank = r) ∧
    (∃ (i : BitVec 16) (e : TrackEntry) (s : State), tget none s.jup.tracker i.toNat = some e ∧ e.deadline < s.now .jup ∧ e.handle = 0 ∧
      Table.wf none s.jup.tracker = true) ∧
    (∃ (b : Bool) (s : State), s.side = 2 ∧ (standbyLinks b).all s.longDown = true ∧ s.jup.takeover.contains b = false) :=
  ⟨⟨0, (wRec false), (wJrn (wRec false)), by decide +kernel⟩,
    ⟨7, 5, wEnded, by decide +kernel⟩,
    ⟨7, 2, wShadow, (State.reset.modJup fun j => { j with shadows := [wShadow] }), by decide +kernel⟩,
    ⟨3, { handle := 0, kind := .command, job := none, deadline := 5, delivered := 0, expected := 1 }, wTrk, by decide +kernel⟩,
    ⟨false, wBothDown, by decide +kernel⟩⟩

theorem witness_LoadsJudged_more :
    (∃ (d : Dev) (h : Hdr) (s s' : State) (hd : Half), s.accept d h opLoadImage = (s', some hd) ∧ (s'.com d).load = none ∧
      ((d = .tsu → s'.anyBound = false))) ∧
    (∃ (d : Dev) (f : List Word) (l : Load) (s : State), (s.com d).sec.lcRead = true ∧ (s.com d).load = some l ∧ l.ready = false ∧
      l.pos = 0 ∧ fld (nthW f 0) 63 56 = 0 ∧ fld (nthW f 0) 55 36 = l.frame ∧ (f.drop 1).length = fld (nthW f 0) 35 27 + 1 ∧
      (l.header ++ f.drop 1).length < headerLen (l.header ++ f.drop 1) ∧ 1 ≤ imgSections (l.header ++ f.drop 1) ∧
      imgSections (l.header ++ f.drop 1) ≤ 64) ∧
    (∃ (d : Dev) (s : State), ((s.com d).load = none ∨ (s.now d).toNat % 8 ≠ 0)) ∧
    (∃ (p : BitVec 7) (l : Load) (s : State), s.jupC.load = some l ∧ l.ready = true ∧ (s.now .jup).toNat % 8 = 0 ∧
      l.dest = .generation p ∧ Table.wf {} s.jup.gens = true ∧ Table.wf false s.jup.genActive = true) ∧
    (∃ (l : Load) (s : State), s.tsuC.load = some l ∧ l.ready = true ∧ (s.now .tsu).toNat % 8 = 0 ∧ l.dest = .self ∧ l.staged = []) :=
  ⟨⟨.jup, hdr, (State.reset), ((State.reset).accept .jup hdr opLoadImage).1, 0x01000000, by and_intros <;> first | rfl | decide +kernel⟩,
    ⟨.jup, wFrame, (wLoad [] .self), (wLoading (wLoad [] .self)), by decide +kernel⟩,
    ⟨.tsu, State.reset, by decide +kernel⟩,
    ⟨5, (wLoad [] (.generation 5) true), (wLoading (wLoad [] (.generation 5) true)), by decide +kernel⟩,
    ⟨(wLoad [] .self true), (wLoading (wLoad [] .self true)), by decide +kernel⟩⟩

theorem witness_RestoresRun_more :
    (∃ (h : Hdr) (p : BitVec 32) (n : Nat) (g : Bool) (s s' : State) (hd : Half), s.accept .jup h opRestore = (s', some hd) ∧
      s'.pathPort p = some (some n) ∧ s'.role = 1 ∧ n < 88 ∧ ((s'.gen n g).aonUplink = s'.ownSide ∨ s'.side = 2) ∧
      tget none s'.jup.restores n = none ∧ s'.dieOwned n = false ∧ (s'.gen n g).bad = false ∧ (s'.gen n g).header ≠ []) ∧
    (∃ (p : BitVec 7) (id : Identity) (r : RestoreOp) (s : State), tget none s.jup.restores p.toNat = some r ∧ r.streaming = false ∧
      (s.link .jup p.toNat).ctl.lstate = .service ∧ id.fwSet = true ∧
      (r.override = true ∨ (mapMismatch (nthW (s.gen r.source r.gen).header 1) id = false ∧
      ∀ j ∈ (s.keepIdentity p.toNat id).restoreJobs p.toNat r, versionMismatch ((s.keepIdentity p.toNat id).jobWord j 9) id = false))) ∧
    (∃ (ws : List Word) (s : State), (nthW ws 0).extractLsb' 56 8 = 0x32 ∧ s.clamped true = false) ∧
    (∃ (p : Nat) (g : Bool) (s : State), g = tget false s.jup.genActive p ∧ s.role = 1 ∧ (s.gen p g).header ≠ [] ∧
      (s.gen p g).bad = false ∧ tget none s.jup.restores p = none ∧ (s.gen p g).aonUplink = s.ownSide) :=
  ⟨⟨hdr, 5, 5, false, (wRst), ((wRst).accept .jup hdr opRestore).1, 0x01000000, by and_intros <;> first | rfl | decide +kernel⟩,
    ⟨5, wId, (wRestore false), (wRestoring false .service), by decide +kernel⟩,
    ⟨[put 64 63 56 0x32], ((State.reset).modPower fun p => { p with mainUp := true }), by decide +kernel⟩,
    ⟨5, false, wRst, by decide +kernel⟩⟩

theorem witness_JobCommands_more :
    (∃ (h : Hdr) (j : BitVec 15) (s s' : State) (hd : Half), s.accept .jup h opResumeJob (job := some j) = (s', some hd) ∧
      s'.jobPlace j = .top ∧ s'.jup.budgetHeld.contains j = false) ∧
    (∃ (h : Hdr) (j : BitVec 15) (s s' : State) (hd : Half), s.accept .jup h opResumeJob (job := some j) = (s', some hd) ∧
      s'.jobPlace j = .top ∧ s'.jup.budgetHeld.contains j = true) ∧
    (∃ (h : Hdr) (j : BitVec 15) (r : BitVec 17) (p : BitVec 32) (s s' : State) (hd : Half), s.accept .jup h opRemapRank (job := some j) = (s', some hd) ∧
      s'.jobPlace j = .top ∧ s'.below p = true ∧ r ≤ s'.lastRank j ∧ s'.jup.budgetHeld.contains j = false) ∧
    (∃ (j : BitVec 15) (t : Tick) (s : State), t ≠ 0 ∧ t < s.leastResume j) ∧
    (∃ (h : Hdr) (path : BitVec 32) (j : BitVec 15) (p : Nat) (s s' : State) (hd : Half), s.accept .jup h opFence = (s', some hd) ∧
      s'.pathPort path = some (some p) ∧ s'.role = 1 ∧ p < 88 ∧ s'.ownsPort p j = true) ∧
    (∃ (h : Hdr) (path : BitVec 32) (j : BitVec 15) (t u : Tick) (p : Nat) (s s' : State) (hd : Half), s.accept .jup h opFence = (s', some hd) ∧
      s'.pathPort path = some (some p) ∧ s'.role = 1 ∧ p < 88 ∧ s'.ownsPort p j = true ∧ s'.gatePassed j = false ∧ s'.jupC.groups = [] ∧
      u = (if t < s'.now .jup + 1 then s'.now .jup + 1 else t)) ∧
    (∃ (h : Hdr) (j : BitVec 15) (op : BitVec 8) (s s' : State) (hd : Half), s.accept .jup h op (job := some j) = (s', some hd) ∧
      s'.jobPlace j = .top ∧ s'.role = 1 ∧ s'.jupC.groups.length < 256 ∧ s'.jupC.coord.length < 256 ∧ s'.jup.runs = [] ∧
      s'.jup.peerResets = [] ∧ s'.jup.budgetHeld = [] ∧ ((∀ g ∈ s'.jupC.coord, g.handle ≠ hd))) ∧
    (∃ (h : Hdr) (j : BitVec 15) (k p : Nat) (r : List Nat) (s s' : State) (hd : Half), s.accept .jup h opHoldJob (job := some j) = (s', some hd) ∧
      s'.jobPlace j = .top ∧ s'.jobTrees j = k :: r ∧ k < 4096 ∧ p ∈ s'.treePorts k) ∧
    (∃ (h : Hdr) (j : BitVec 15) (v : BitVec 20) (k p : Nat) (r : List Nat) (s s' u : State) (hd : Half), s.accept .jup h opStretchJob (job := some j) = (s', some hd) ∧
      s'.jobPlace j = .top ∧ u = s'.setJobWord j 3 ((s'.jobWord j 3 &&& 0xFFFFFFFF00000000) ||| v.setWidth 64) ∧ u.jobTrees j = k :: r ∧
      k < 4096 ∧ p ∈ u.treePorts k) ∧
    (∃ (h : Hdr) (j : BitVec 15) (s s' : State) (hd : Half), s.accept .jup h opHoldJob (job := some j) = (s', some hd) ∧
      s'.jobPlace j = .top ∧ s'.jobTrees j = []) ∧
    (∃ (h : Hdr) (j : BitVec 15) (s s' : State) (hd : Half), s.accept .jup h opSetQuota (job := some j) = (s', some hd) ∧
      s'.jobPlace j = .top ∧ s'.role = 1) ∧
    (∃ (h : Hdr) (j : BitVec 15) (r : BitVec 17) (p q : BitVec 32) (s s' : State) (hd : Half), s.accept .jup h opBringIn (job := some j) = (s', some hd) ∧
      s'.jobPlace j = .top ∧ s'.role = 1 ∧ r ≤ s'.lastRank j ∧ s'.pickRack j r p h.override = .spare q) :=
  ⟨⟨hdr, 7, (wJob 1), ((wJob 1).accept .jup hdr opResumeJob (job := some 7)).1, 0x01000000, by and_intros <;> first | rfl | decide +kernel⟩,
    ⟨hdr, 7, (wHeld7), ((wHeld7).accept .jup hdr opResumeJob (job := some 7)).1, 0x01000000, by and_intros <;> first | rfl | decide +kernel⟩,
    ⟨hdr, 7, 0, 5, (wJob 1), ((wJob 1).accept .jup hdr opRemapRank (job := some 7)).1, 0x01000000, by and_intros <;> first | rfl | decide +kernel⟩,
    ⟨7, 1, wMargin, by decide +kernel⟩,
    ⟨hdr, 5, 7, 5, (wOwnedPort), ((wOwnedPort).accept .jup hdr opFence).1, 0x01000000, by and_intros <;> first | rfl | decide +kernel⟩,
    ⟨hdr, 5, 7, 0, 1, 5, (wOwnedPort), ((wOwnedPort).accept .jup hdr opFence).1, 0x01000000, by and_intros <;> first | rfl | decide +kernel⟩,
    ⟨hdr, 7, opStartJob, (wJob 1), ((wJob 1).accept .jup hdr opStartJob (job := some 7)).1, 0x01000000, by and_intros <;> first | rfl | decide +kernel⟩,
    ⟨hdr, 7, 0, 5, [], (wTree7 (wJob 1)), ((wTree7 (wJob 1)).accept .jup hdr opHoldJob (job := some 7)).1, 0x01000000, by and_intros <;> first | rfl | decide +kernel⟩,
    ⟨hdr, 7, 0, 0, 5, [], (wTree7 (wJob 1)), ((wTree7 (wJob 1)).accept .jup hdr opStretchJob (job := some 7)).1, (((wTree7 (wJob 1)).accept .jup hdr opStretchJob (job := some 7)).1.setJobWord 7 3 ((((wTree7 (wJob 1)).accept .jup hdr opStretchJob (job := some 7)).1.jobWord 7 3 &&& 0xFFFFFFFF00000000) ||| (0 : BitVec 20).setWidth 64)), 0x01000000, by and_intros <;> first | rfl | decide +kernel⟩,
    ⟨hdr, 7, (wJob 1), ((wJob 1).accept .jup hdr opHoldJob (job := some 7)).1, 0x01000000, by and_intros <;> first | rfl | decide +kernel⟩,
    ⟨hdr, 7, (wJob 1), ((wJob 1).accept .jup hdr opSetQuota (job := some 7)).1, 0x01000000, by and_intros <;> first | rfl | decide +kernel⟩,
    ⟨hdr, 7, 2, 0, (wSpare.childPath 9), (wSpare), wSpare', 0x01000000, by exact ⟨rfl, by decide +kernel, by decide +kernel, by decide +kernel, wSpare_picked⟩⟩⟩

theorem witness_RecoveryRuns_more :
    (∃ (p : BitVec 7) (r : RestoreOp) (s : State), tget none s.jup.restores p.toNat = some r ∧ r.streaming = true) ∧
    (∃ (p : BitVec 7) (r : RestoreOp) (h : Half) (e : CplEntry) (s : State), tget none s.jup.restores p.toNat = some r ∧
      r.streaming = true ∧ r.handle = some h ∧ s.cplEntry .jup h = some e ∧ e.valid = false) ∧
    (∃ (p : BitVec 7) (r : RestoreOp) (s : State), tget none s.jup.restores p.toNat = some r ∧ r.streaming = false) ∧
    (∃ (p : BitVec 7) (s : State), tget none s.jup.restores p.toNat = none) ∧
    (∃ (j : BitVec 15) (r : BitVec 17) (b x : BringIn) (s : State), s.jup.bringIns = [b, x] ∧ b.job = j ∧ b.rank = r ∧ b.mode = 0 ∧
      b.phase = 1 ∧ s.copyCurrent j r = true ∧ x.job = j ∧ x.phase ≠ 2) ∧
    (∃ (j : BitVec 15) (r : BitVec 17) (p : BitVec 32) (d : Word) (b x : BringIn) (s : State), s.jup.bringIns = [b, x] ∧ b.job = j ∧
      b.rank = r ∧ b.mode = 1 ∧ b.phase = 1 ∧ b.spare = p ∧ b.second = none ∧ (s.checkpointOf j r).map (fun c => nthW c.data 4) = some d ∧ x.job = j ∧ x.phase ≠ 2) ∧
    (∃ (j : BitVec 15) (r : BitVec 17) (b x : BringIn) (s : State), s.jup.bringIns = [b, x] ∧ b.job = j ∧ b.rank = r ∧ b.mode = 1 ∧
      b.phase = 1 ∧ b.started.toNat + s.recomputeLimit j ≤ (s.now .jup).toNat ∧ x.job = j ∧ x.phase ≠ 2) ∧
    (∃ (j : BitVec 15) (r : BitVec 17) (b : BringIn) (s : State), s.jup.bringIns = [b] ∧ b.job = j ∧ b.rank = r ∧ b.mode = 1 ∧
      b.phase = 1 ∧ b.started.toNat + s.recomputeLimit j ≤ (s.now .jup).toNat) ∧
    (∃ (j : BitVec 15) (b : BringIn) (s : State), s.jup.bringIns = [b] ∧ (s.now .jup).toNat < b.started.toNat + s.recomputeLimit j) ∧
    (∃ (j : BitVec 15) (lo : BitVec 16) (s : State), s.jup.stage.rerun = [(j, lo)] ∧ s.rerunReady j = true ∧ s.jobPlace j ≠ .top) ∧
    (∃ (j : BitVec 15) (lo : BitVec 16) (s : State), s.jup.stage.rerun = [(j, lo)] ∧ s.rerunReady j = true ∧ s.jobPlace j = .top ∧
      s.fencedRanks j = [] ∧ s.jup.stage.brown.contains j = false ∧ s.rerunMax j ≤ fld (s.jobWord j 0) 15 8) ∧
    (∃ (p : Nat) (ws : List Word) (f : Forward) (e : CplEntry) (s : State), s.jup.forwards = [f] ∧
      f.handle = (nthW ws 0).extractLsb' 32 32 ∧ f.left = [p] ∧ f.fromPort = ownPort ∧ s.jup.bringIns = [] ∧
      s.cplEntry .jup f.handle = some e ∧ e.valid = false) ∧
    (∃ (p q : Nat) (ws : List Word) (f : Forward) (s : State), s.jup.forwards = [f] ∧ f.handle = (nthW ws 0).extractLsb' 32 32 ∧
      p ∈ f.left ∧ q ∈ f.left ∧ p ≠ q) :=
  ⟨⟨5, (wRestore true), (wRestoring true .service), by decide +kernel⟩,
    ⟨5, (wRestore true), 0x01000000, { handle := 0x01000000, opcode := opRestore, valid := false, status := 0, endTick := 0, results := [], notify := false }, wRestEntry, by decide +kernel⟩,
    ⟨5, (wRestore false), (wRestoring false .service), by decide +kernel⟩,
    ⟨5, State.reset, by decide +kernel⟩,
    ⟨7, 2, (wBring 0), wBring3, (wTwoBring 0), by decide +kernel⟩,
    ⟨7, 2, 5, 0x1234, (wBring 1), wBring3, wTwoCheck, by decide +kernel⟩,
    ⟨7, 2, (wBring 1), wBring3, (wTwoBring 1 0xFFFFFFFFFFFFFFFF), by exact ⟨by decide +kernel, rfl, rfl, rfl, rfl, limit_reached _ _ (by decide +kernel), rfl, by decide⟩⟩,
    ⟨7, 2, (wBring 1), (wBringing 1 0xFFFFFFFFFFFFFFFF), by exact ⟨by decide +kernel, rfl, rfl, rfl, rfl, limit_reached _ _ (by decide +kernel)⟩⟩,
    ⟨7, wLateBring, (State.reset.modJup fun j => { j with bringIns := [wLateBring] }), by exact ⟨rfl, Nat.lt_of_lt_of_le (by decide +kernel : _ < 1) (Nat.le_add_right 1 _)⟩⟩,
    ⟨7, 4, wRerunDown, by decide +kernel⟩,
    ⟨7, 4, wRerunFull, by exact ⟨by decide +kernel, by decide +kernel, by decide +kernel, by decide +kernel, by decide +kernel, rerun_reached _ _ (by decide +kernel)⟩⟩,
    ⟨3, [put 64 63 32 0x01000002, 0], wForward, { handle := 0x01000002, opcode := opShutter, valid := false, status := 0, endTick := 0, results := [], notify := false }, wFwdEntry, by decide +kernel⟩,
    ⟨3, 4, [put 64 63 32 0x01000002, 0], wFwdTwo, (State.reset.modJup fun j => { j with forwards := [wFwdTwo] }), by decide +kernel⟩⟩

def wTrackFull : State := State.reset.modJup fun j => { j with tracker := List.replicate trackerSize (0, none) }
def wRowC : State := roled 3 0 State.reset
def wGrp (f : MemberGroup → MemberGroup) (t : Tick := 0) : State := wMemberAt .tsu f t
def wGrpJ (f : MemberGroup → MemberGroup) (t : Tick := 0) : State := wMemberAt .jup f t
def wNew (g : MemberGroup) : MemberGroup := { g with prepared := false, tc := none }
/-- A PREPARE at tick 4,096 and what it carries. -/
def wBoth (d : Dev) (x : CoordState) (f : MemberGroup → MemberGroup) (t : Tick := 0) : State := (wCoordAt d x t).modCom d fun c => { c with groups := [f wMember] }
def wCsr : MemberGroup := { wMember with committed := true, writes := [{ offset := 0x6008, value := 3 }] }
def wChk : State := roled 1 0 (wGrpJ (fun g => { g with applied := true, ports := [5] }) 64)
def cEntry : CplEntry := { handle := 1, opcode := opCgBegin, valid := false, status := 0, endTick := 0, results := [], notify := false }
def wPostable : State := (wCoordAt .tsu .committed 64).modCmds .tsu fun c => { c with entries := tset none [] 1 (some cEntry) }
def wStageMsg : List Word := [put 64 31 0 1, 0]
def wPrep (t : Tick) : List Word := [put 64 31 0 1, t]
/-- An answer PREPARED of one member. -/
def wAnswer : List Word := [put 64 31 0 1 ||| put 64 63 56 3, 0]

theorem witness_ShuttersTaken_more :
    (∃ (h : Hdr) (s s' : State) (hd : Half), s.accept .jup h opShutter = (s', some hd) ∧ s'.role = 3 ∧ s'.jup.timeMaster = false) ∧
    (∃ (h : Hdr) (t : Tick) (s s' : State) (hd : Half), s.accept .jup h opShutter = (s', some hd) ∧ s'.role = 3 ∧
      s'.jup.timeMaster = true ∧ s'.now .jup + 16384 ≤ t ∧ s'.now .jup < t) ∧
    (∃ (d : Dev) (ws : List Word) (s : State), (s.com d).shut.seen.contains ((nthW ws 0).extractLsb' 48 16) = false ∧ s.now d < nthW ws 1) ∧
    (∃ (ws : List Word) (s : State), s.tsuC.shut.seen.contains ((nthW ws 0).extractLsb' 48 16) = false ∧ nthW ws 1 ≤ s.now .tsu) ∧
    (∃ (d : Dev) (e : BitVec 16 × BitVec 4 × Tick × Half × Nat) (s : State), (s.com d).shut.waiting = [e] ∧ e.2.2.1 = s.now d ∧
      s.inReset d = false ∧ (d = .jup ∨ (s.com d).shut.plates.length < 2)) ∧
    (∃ (e : BitVec 16 × BitVec 4 × Tick × Half × Nat) (s : State), s.tsuC.shut.waiting = [e] ∧ e.2.2.1 = s.now .tsu ∧
      s.inReset .tsu = true) ∧
    (∃ (d : Dev) (h : Hdr) (a : Option (BitVec 32)) (set : BitVec 4) (p : Plate) (s s' : State) (hd : Half), s.accept d h opReadPlate true = (s', some hd) ∧
      s'.plateFor d a set = some p) ∧
    (∃ (d : Dev) (h : Hdr) (a : Option (BitVec 32)) (set : BitVec 4) (p : Plate) (s s' : State) (hd : Half), s.accept d h opReadPlate true = (s', some hd) ∧
      s'.plateFor d a set = some p) ∧
    (∃ (b : BitVec 8), b ≠ 0xFF) :=
  ⟨⟨hdr, (wRowC), ((wRowC).accept .jup hdr opShutter).1, 0x01000000, by and_intros <;> first | rfl | decide +kernel⟩,
    ⟨hdr, 16384, (root), ((root).accept .jup hdr opShutter).1, 0x01000000, by and_intros <;> first | rfl | decide +kernel⟩,
    ⟨.tsu, [put 64 63 48 9, 5], State.reset, by decide +kernel⟩,
    ⟨[put 64 63 48 9, 0], State.reset, by decide +kernel⟩,
    ⟨.tsu, (9, 2, 0, 0, 1), ((wShut fun x => { x with waiting := [(9, 2, 0, 0, 1)] }).modPower fun p => { p with mainUp := true }), by decide +kernel⟩,
    ⟨(9, 2, 0, 0, 1), (wShut fun x => { x with waiting := [(9, 2, 0, 0, 1)] }), by decide +kernel⟩,
    ⟨.tsu, hdr, none, 2, (wPlate false), (wShut fun x => { x with plates := [wPlate false] }), ((wShut fun x => { x with plates := [wPlate false] }).accept .tsu hdr opReadPlate true).1, 0x01000000, by decide +kernel⟩,
    ⟨.tsu, hdr, none, 2, (wPlate false), (wShut fun x => { x with plates := [wPlate false] }), ((wShut fun x => { x with plates := [wPlate false] }).accept .tsu hdr opReadPlate true).1, 0x01000000, by decide +kernel⟩,
    ⟨0, by decide +kernel⟩⟩

theorem witness_GroupsCommit_more :
    (∃ (d : Dev) (h : Hdr) (ms : List Target) (s s' : State) (hd : Half), s.accept d h opCgBegin = (s', some hd) ∧
      ((∀ t ∈ ms, s'.memberHere d t = true)) ∧ (s'.com d).groups.length < groupMax d ∧ (s'.com d).coord.length < groupMax d) ∧
    (∃ (d : Dev) (h : Hdr) (g : Half) (ws : List StagedWrite) (c : CoordGroup) (s : State), s.cmdDenied d h false = false ∧
      s.stageRefusal d g .self ws = 0 ∧ s.coordGroup d g = some c ∧ s.group d g = none ∧ ws.length ≤ 30) ∧
    (∃ (d : Dev) (h : Hdr) (g : Half) (t : Tick) (c : CoordGroup) (s : State), s.cmdDenied d h false = false ∧
      s.coordGroup d g = some c ∧ c.state = .opened ∧ c.outcome = none ∧
      (t = 0 ∨ s.now d + BitVec.ofNat 64 ((s.groupLead d).1 + (s.groupLead d).2) ≤ t)) ∧
    (∃ (d : Dev) (h : Hdr) (g : Half) (c : CoordGroup) (s : State), s.cmdDenied d h false = false ∧ s.coordGroup d g = some c ∧
      c.state ≠ .committed ∧ c.outcome = none ∧ c.serves = none) ∧
    (∃ (d : Dev) (s : State), (d = .jup ∨ s.tsu.power.state ≠ 4)) ∧
    (∃ (s : State), s.tsu.power.state = 4) ∧
    (∃ (ws : List Word) (s : State), s.tsu.power.state ≠ 4 ∧ s.group .tsu (msgGroup ws) = none ∧
      (s.takeGroup .tsu ws).stageNames .tsu (stageTarget (nthW ws 1)) = true) ∧
    (∃ (ws : List Word) (s : State), s.group .jup (msgGroup ws) = none) ∧
    (∃ (d : Dev) (s : State), (d = .jup ∨ s.tsu.power.state ≠ 4)) ∧
    (∃ (ws : List Word) (r : BitVec 2) (g : MemberGroup) (s : State), s.tsu.power.state ≠ 4 ∧ s.group .tsu (msgGroup ws) = some g ∧
      g.prepared = false ∧ g.member = true ∧ g.refused = none ∧ s.coordGroup .tsu (msgGroup ws) = none ∧
      (s.takeGroup .tsu ws).memberRefusal .tsu g r = none) ∧
    (∃ (ws : List Word) (r : BitVec 2) (g : MemberGroup) (x : BitVec 8) (s : State), s.tsu.power.state ≠ 4 ∧
      s.group .tsu (msgGroup ws) = some g ∧ g.prepared = false ∧ g.member = true ∧ g.refused = none ∧
      s.coordGroup .tsu (msgGroup ws) = none ∧ (s.takeGroup .tsu ws).memberRefusal .tsu g r = some x) ∧
    (∃ (ws : List Word) (g : MemberGroup) (s : State), s.group .jup (msgGroup ws) = some g ∧ g.prepared = false) ∧
    (∃ (g : MemberGroup), g.beyond = true) ∧
    (∃ (n : Nat) (ws : List Word) (g : MemberGroup) (s : State), n < 88 ∧ s.role = 1 ∧ msgKind ws = 3 ∧ msgReason ws ≠ stPartial ∧
      s.group .jup (msgGroup ws) = some g ∧ g.heard.contains n = false) ∧
    (∃ (ws : List Word) (g : MemberGroup) (s : State), s.tsu.power.state ≠ 4 ∧ (s.takeGroup .tsu ws).group .tsu (msgGroup ws) = some g ∧
      g.committed = false ∧ g.applied = false ∧ s.now .tsu ≤ nthW ws 1) ∧
    (∃ (ws : List Word) (g : MemberGroup) (s : State), s.tsu.power.state ≠ 4 ∧ (s.takeGroup .tsu ws).group .tsu (msgGroup ws) = some g ∧
      g.committed = false ∧ g.applied = false ∧ nthW ws 1 < s.now .tsu) ∧
    (∃ (ws : List Word) (g : MemberGroup) (s : State), s.group .jup (msgGroup ws) = some g ∧ g.committed = false ∧ g.applied = false ∧
      g.ports ≠ []) ∧
    (∃ (ws : List Word) (g : MemberGroup) (s : State), s.tsu.power.state ≠ 4 ∧ s.group .tsu (msgGroup ws) = some g ∧
      g.committed = false ∧ g.applied = false ∧ nthW ws 1 < s.now .tsu) ∧
    (∃ (ws : List Word) (g : MemberGroup) (s : State), s.tsu.power.state ≠ 4 ∧ (s.takeGroup .tsu ws).group .tsu (msgGroup ws) = some g ∧
      g.committed = false ∧ ((∀ w ∈ g.writes, dieSide w = false))) ∧
    (∃ (ws : List Word) (g : MemberGroup) (s : State), s.tsu.power.state ≠ 4 ∧ (s.takeGroup .tsu ws).group .tsu (msgGroup ws) = some g ∧
      g.committed = true) ∧
    (∃ (ws : List Word) (g : MemberGroup) (s : State), s.group .jup (msgGroup ws) = some g ∧ g.committed = false) ∧
    (∃ (d : Dev) (h : Half) (c : CoordGroup) (m : MemberGroup) (s : State), s.coordGroup d h = some c ∧ s.group d h = some m ∧
      s.deadlineNow d h = true ∧ s.groupFailure d c m = none ∧ (d = .tsu ∨ m.ports ≠ [])) ∧
    (∃ (d : Dev) (h : Half) (c : CoordGroup) (m : MemberGroup) (r : BitVec 8) (p : BitVec 32) (s : State), s.coordGroup d h = some c ∧
      s.group d h = some m ∧ s.deadlineNow d h = true ∧ s.groupFailure d c m = some (r, p) ∧ c.serves = none) ∧
    (∃ (h v : Half) (g : MemberGroup) (s : State), s.tsuC.groups = [g] ∧ g.handle = h ∧ g.tc = some (s.now .tsu) ∧ g.applied = false ∧
      g.prepared = true ∧ g.committed = true ∧ g.writes = [{ offset := 0x6008, value := v }] ∧ g.binds = [] ∧
      tok (regReset .tsu) none s.tsuC.regs = true ∧ s.csrLater .tsu .cg 0x6008 = false) ∧
    (∃ (p : Nat) (h : Half) (g : MemberGroup) (t : Tick) (s : State), s.group .jup h = some g ∧ g.tc = some t ∧ g.applied = true ∧
      s.role = 1 ∧ p ∈ g.ports ∧ s.now .jup = t + 64 ∧ s.unackedPorts h = [] ∧ (s.link .jup p).held = [] ∧ s.coordGroup .jup h = none) ∧
    (∃ (d : Dev) (h : Half) (g : CoordGroup) (e : CplEntry) (s : State), s.coordGroup d h = some g ∧ g.outcome = none ∧
      g.serves = none ∧ g.partialPath = none ∧ s.postReady d g = true ∧ s.cplEntry d h = some e ∧ e.valid = false) :=
  ⟨⟨.tsu, hdr, [.self], (State.reset), ((State.reset).accept .tsu hdr opCgBegin).1, 0x01000000, by decide +kernel⟩,
    ⟨.tsu, hdr, 1, [⟨0x10, 5⟩], (wCoord .opened), (wCoordAt .tsu .opened), by decide +kernel⟩,
    ⟨.tsu, hdr, 1, 0, (wCoord .opened), (wCoordAt .tsu .opened), by decide +kernel⟩,
    ⟨.tsu, hdr, 1, (wCoord .opened), (wCoordAt .tsu .opened), by decide +kernel⟩,
    ⟨.jup, State.reset, by decide +kernel⟩,
    ⟨wDark, by decide +kernel⟩,
    ⟨wStageMsg, State.reset, by decide +kernel⟩,
    ⟨wStageMsg, State.reset, by decide +kernel⟩,
    ⟨.jup, State.reset, by decide +kernel⟩,
    ⟨wStageMsg, 0, (wNew wMember), (wGrp wNew), by decide +kernel⟩,
    ⟨wStageMsg, 0, { wNew wMember with beyond := true }, stGroupLimit, (wGrp fun g => { wNew g with beyond := true }), by decide +kernel⟩,
    ⟨wStageMsg, (wNew wMember), (wGrpJ wNew), by decide +kernel⟩,
    ⟨{ wMember with beyond := true }, by decide +kernel⟩,
    ⟨5, wAnswer, wMember, (roled 1 0 (wGrpJ id)), by decide +kernel⟩,
    ⟨(wCg 0), wMember, (wGrp id), by decide +kernel⟩,
    ⟨(wCg 0), wMember, (wGrp id 1), by decide +kernel⟩,
    ⟨(wCg 0), { wMember with ports := [5] }, (wGrpJ fun g => { g with ports := [5] }), by decide +kernel⟩,
    ⟨(wCg 0), wMember, (wGrp id 1), by decide +kernel⟩,
    ⟨(wCg 0), wMember, (wGrp id), by decide +kernel⟩,
    ⟨(wCg 0), { wMember with committed := true }, (wGrp fun g => { g with committed := true }), by decide +kernel⟩,
    ⟨(wCg 0), wMember, (wGrpJ id), by decide +kernel⟩,
    ⟨.tsu, 1, (wCoord .prepared), wMember, (wBoth .tsu .prepared id), by decide +kernel⟩,
    ⟨.tsu, 1, (wCoord .prepared), { wMember with refused := some (stAborted, 0) }, stAborted, 0, (wBoth .tsu .prepared fun g => { g with refused := some (stAborted, 0) }), by decide +kernel⟩,
    ⟨1, 3, wCsr, (wGrp fun g => { g with committed := true, writes := [{ offset := 0x6008, value := 3 }] }), by decide +kernel⟩,
    ⟨5, 1, { wMember with applied := true, ports := [5] }, 0, wChk, by decide +kernel⟩,
    ⟨.tsu, 1, (wCoord .committed), cEntry, wPostable, by decide +kernel⟩⟩

theorem witness_CompletionsPosted_more :
    (∃ (d : Dev) (h : Hdr) (light : Bool) (s : State), s.cmdDenied d h light = false ∧
      (tget none (s.com d).cmds.entries (entryIndex d (s.com d).cmds.seq)).isSome = false ∧
      ((d = .jup → s.jup.tracker.length < trackerSize))) ∧
    (∃ (h : Hdr) (light : Bool) (s : State), s.cmdDenied .jup h light = false ∧
      (tget none s.jupC.cmds.entries (entryIndex .jup s.jupC.cmds.seq)).isSome = false ∧ trackerSize ≤ s.jup.tracker.length) :=
  ⟨⟨.tsu, hdr, false, State.reset, by and_intros <;> first | rfl | decide +kernel⟩,
    ⟨hdr, false, wTrackFull, by exact ⟨by decide +kernel, by decide +kernel, by show trackerSize ≤ (List.replicate trackerSize ((0 : Nat), (none : Option TrackEntry))).length; simp only [List.length_replicate, Nat.le_refl]⟩⟩⟩

def wOpenT (f : Security → Security := id) : State := State.reset.modSec .tsu fun x => f { x with opening := some 0, lcRead := true, req := 2 }
def ctl (s : State) : State := s.modSec .tsu fun x => { x with session := .control }
def wFlash : State := State.reset.modJup fun j => { j with flash := tset [] [] (flashKey true) (List.replicate 33 (BitVec.allOnes 64)) }
def wLaterCsr : State := { State.reset with tsuC := { State.reset.tsuC with csrAt := 0, csrWr := [(0x6008, 9)] } }
theorem witness_PowerAndResets_chanReset : (((state0 .ready).chan (0 : Fin 8)).state ≠ .running ∧ ((state0 .ready).chan (0 : Fin 8)).state ≠ .stopped ∧
    Table.wf {} (state0 .ready).tsu.chans = true) ∧ ((state0 .stopped).chan 0).state = .stopped := by decide

theorem witness_FaultsCommanded_more :
    (∃ (b : Nat) (s : State), s.graceDue .tsu b = true) ∧
    (∃ (table : BitVec 3) (src : Src) (s : State), table.toNat < 6 ∧ s.injDenied .tsu src = true) ∧
    (∃ (ws : List Word) (s : State), fld (nthW ws 0) 39 37 = 0 ∧ s.jup.log.length < 4096 ∧
      (nthW ws 0).extractLsb' 48 16 ∉ [cStepOverrun, cRepeatBroken, cBrownoutHold, cSupplyWarn]) ∧
    (∃ (ws : List Word) (s : State), fld (nthW ws 0) 39 37 = 0 ∧ s.jup.log.length < 4096 ∧ (nthW ws 0).extractLsb' 48 16 = cSupplyWarn) ∧
    (∃ (p : BitVec 7) (s : State), p.toNat < 88 ∧ s.healthState p.toNat = 3) ∧
    (∃ (p : BitVec 7) (s : State), p.toNat < 88 ∧ s.healthState p.toNat = 3 ∧ tok (regReset .jup) none s.jupC.regs = true) ∧
    (∃ (p esc : Nat) (s : State), s.deferredDue = some (p, esc)) ∧
    (∃ (s : State), s.mainOff = false) ∧
    (∃ (s : State), s.mainOff = true) ∧
    (∃ (r : Reading) (v : Int) (s : State), thermAt r false v = true ∧ Table.wf 0 s.jup.readings = true ∧
      (((s.fblock .jup (blkPower .jup)).levels.any fun e => decide (e.1 = cThermalWarn ∧ e.2 = ({} : Ctx).word)) = false)) ∧
    (∃ (r : Reading) (v : Int) (s : State), thermAt r true v = true ∧ s.jup.thermTrip = false) :=
  ⟨⟨2, (wBlock (fun b => { b with sev := true, grace := true, expiry := 9 }) 9), by decide +kernel⟩,
    ⟨0, .jtag, State.reset, by decide +kernel⟩,
    ⟨[0, 0, 0, 0], State.reset, by decide +kernel⟩,
    ⟨[put 64 63 48 cSupplyWarn.toNat, 0], State.reset, by decide +kernel⟩,
    ⟨87, (State.reset.setHealth 87 3), by decide +kernel⟩,
    ⟨87, (State.reset.setHealth 87 3), by decide +kernel⟩,
    ⟨9, 2, wDeferred, by decide +kernel⟩,
    ⟨State.reset, by decide +kernel⟩,
    ⟨(wPower fun p => { p with state := 4 }), by decide +kernel⟩,
    ⟨.stack, 95, State.reset, by decide +kernel⟩,
    ⟨.stack, 95, State.reset, by decide +kernel⟩⟩

theorem witness_PowerAndResets_more :
    (∃ (s : State), s.power.warn = false ∧ s.power.state ≠ 4 ∧ s.power.darkWake = false) ∧
    (∃ (s : State), s.power.warn = true) ∧
    (∃ (s : State), s.power.warn = true ∧ s.power.fenced = false ∧ s.power.warnAt.toNat + 160000 ≤ (s.now .tsu).toNat) ∧
    (∃ (s : State), s.wakeDue = true) ∧
    (∃ (k : Fin 5) (s : State), k.val ≠ 4 ∧ s.power.state = 4 ∧ s.power.held = []) ∧
    (∃ (s : State), s.power.mainHold ≠ 0) ∧
    (∃ (s : State), s.power.mainUp = false ∧ s.power.mainHold = 0 ∧ s.power.darkWake = false ∧ s.power.rstPend = none) ∧
    (∃ (s : State), s.power.state ≠ 4) ∧
    (∃ (s : State), s.tsu.power.por = true) ∧
    (∃ (s : State), s.tsu.power.por = false) :=
  ⟨⟨State.reset, by decide +kernel⟩,
    ⟨(wPower fun p => { p with warn := true }), by decide +kernel⟩,
    ⟨(wPower (fun p => { p with warn := true }) 160000), by decide +kernel⟩,
    ⟨(wPower fun p => { p with state := 4, held := [(0, localMsg mtGroup [1])] }), by decide +kernel⟩,
    ⟨3, (wPower fun p => { p with state := 4 }), by decide +kernel⟩,
    ⟨(wPower fun p => { p with mainHold := 1 }), by decide +kernel⟩,
    ⟨(wPower fun p => { p with mainHold := 0 }), by decide +kernel⟩,
    ⟨State.reset, by decide +kernel⟩,
    ⟨(wPower fun p => { p with por := true }), by decide +kernel⟩,
    ⟨(wPower fun p => { p with por := false }), by decide +kernel⟩⟩

theorem witness_SessionsAndRecord_more :
    (∃ (s : State), s.tsuC.sec.opening ≠ none ∧ s.tsuC.sec.lcRead = true ∧ s.tsuC.sec.level = .opened ∧ s.tsuC.sec.imgLock = false ∧
      s.tsuC.sec.req = 2 ∧ s.power.state ≠ 3 ∧ s.power.state ≠ 4) ∧
    (∃ (s : State), s.tsuC.sec.opening ≠ none ∧ s.tsuC.sec.lcRead = true ∧ s.tsuC.sec.level = .opened ∧ s.tsuC.sec.imgLock = false ∧
      s.tsuC.sec.req = 2 ∧ s.power.state = 3) ∧
    (∃ (d : Dev) (s : State), (s.com d).sec.notAfter < s.now d) ∧
    (∃ (s : State), s.tsuC.sec.session = .control) ∧
    (∃ (c : Nat) (s : State), (s.chan c).state = .running) :=
  ⟨⟨wOpenT, by decide +kernel⟩,
    ⟨(wOpenT.modPower fun p => { p with state := 3 }), by decide +kernel⟩,
    ⟨.tsu, ((secured fun x => { x with notAfter := 0 }).modTime .tsu fun c => { c with htc := 1 }), by decide +kernel⟩,
    ⟨(ctl State.reset), by decide +kernel⟩,
    ⟨0, (state0 .running), by decide +kernel⟩⟩

theorem witness_BoardCommands_more :
    (∃ (k : Bool) (s : State), (tget [] s.jup.flash (flashKey k)).length = 33 ∧ tok (regReset .jup) none s.jupC.regs = true) ∧
    (∃ (s : State), s.fwSet = false ∧ tok (regReset .tsu) none s.tsuC.regs = true) ∧
    (∃ (v : BitVec 8), strapLo v = 3) ∧
    (∃ (v : BitVec 8), strapLo v ≠ 3) ∧
    (∃ (s : State), s.jup.mainLow = true) :=
  ⟨⟨true, wFlash, by decide +kernel⟩,
    ⟨State.reset, by decide +kernel⟩,
    ⟨0x18, by decide +kernel⟩,
    ⟨0x10, by decide +kernel⟩,
    ⟨(State.reset.modJup fun j => { j with mainLow := true }), by decide +kernel⟩⟩

theorem witness_RegistersAccessed_more :
    (∃ (src : Src) (s : State), src ≠ .jtag ∧ s.tsuC.sec.sealedImg = false ∧ s.csrLater .tsu src 0x6008 = false ∧
      tok (regReset .tsu) none s.tsuC.regs = true) ∧
    (∃ (src : Src) (s : State), src ≠ .jtag ∧ s.csrLater .tsu src 0x6008 = true) ∧
    (∃ (s : State), s.tsuC.sec.sealedImg = false ∧ s.csrLater .tsu .host 0x6008 = false) ∧
    (∃ (v : Half) (s : State), s.tsuC.sec.sealedImg = true ∧ s.tsuC.sec.level ≠ .opened ∧ v ≠ s.reg .tsu 0x6008 ∧
      s.csrLater .tsu .host 0x6008 = false ∧ tok (regReset .tsu) none s.tsuC.regs = true) ∧
    (∃ (s : State), s.csrLater .tsu .cg 0x6008 = false ∧ tok (regReset .tsu) none s.tsuC.regs = true) ∧
    (∃ (d : Dev) (src : Src) (w : Win) (i : Nat), winHere d w = true ∧ i < winCount d w ∧ src ≠ .jtag ∧ d = .jup) ∧
    (∃ (d : Dev) (src : Src) (w : Win) (i : Nat) (v : Half) (s : State), winHere d w = true ∧ i < winCount d w ∧ src ≠ .jtag ∧
      winReserved w i v = false ∧ s.winError d src w i v = none) ∧
    (∃ (s : State), s.mainOff = true) ∧
    (∃ (ws : List Word) (c : Nat) (s : State), s.mainOff = false ∧ 4 + fld (nthW ws 3) 31 16 = ws.length ∧
      s.chanOfRank ((nthW ws 0).extractLsb' 49 15) ((nthW ws 0).extractLsb' 32 17) = some c) :=
  ⟨⟨.host, State.reset, by decide +kernel⟩,
    ⟨.host, wLaterCsr, by decide +kernel⟩,
    ⟨State.reset, by decide +kernel⟩,
    ⟨1, (secured fun x => { x with sealedImg := true, level := .owner }), by decide +kernel⟩,
    ⟨State.reset, by decide +kernel⟩,
    ⟨.jup, .host, .asym, 0, by decide +kernel⟩,
    ⟨.tsu, .host, .asym, 3, 5, State.reset, by decide +kernel⟩,
    ⟨(wPower fun p => { p with state := 4 }), by decide +kernel⟩,
    ⟨(wAppend 1 0), 0, (chan0 fun c => { c with state := .running, job := 7 }), by decide +kernel⟩⟩

theorem witness_ResetAndIdle_more :
    (∃ (s : State), s.pending = []) :=
  ⟨State.reset, by decide +kernel⟩

/-! ## Further witnesses: clauses about flows, spares, severe latches and reads under parity -/

/-- Port 5's channel 0 serves job 7, which has a journal and a shadow flow open. -/
def wFlow (k : TrackKind) (s : State := State.reset) : State :=
  s.modJup fun j => { j with tracker := tset none [] 0 (some { handle := 0, kind := k, job := some 7, deadline := 0, delivered := 0, expected := 0 }) }
def wFlowEntry (k : TrackKind) : TrackEntry :=
  { handle := 0, kind := k, job := some 7, deadline := State.reset.now .jup + Config.opDeadline k.code, delivered := 0, expected := 0 }
theorem trackFull : trackerSize ≤ wTrackFull.jup.tracker.length := by
  show trackerSize ≤ (List.replicate trackerSize ((0 : Nat), (none : Option TrackEntry))).length
  exact Nat.le_of_eq List.length_replicate.symm
theorem noFlowOpen (k : TrackKind) : wTrackFull.flowOpen k 7 = false := by
  unfold State.flowOpen
  rw [show wTrackFull.jup.tracker = List.replicate trackerSize (0, none) from rfl]
  exact List.any_eq_false.mpr fun e he => by rw [List.eq_of_mem_replicate he]; simp
theorem noFlow (k : TrackKind) : wTrackFull.openFlow k 7 = none := by
  unfold State.openFlow State.openEntry
  rw [noFlowOpen, if_neg (by decide), if_pos trackFull]
def wBadRec : JrnRec := recordOf (wAppend 1 0) 0 0
def wOldDeadline : State := wDeadline.modTime .jup fun c => { c with htc := 10000 }
def wStageEntry : TrackEntry := (wOldDeadline.stageEntry 4).getD { handle := 1, kind := .command, job := none, deadline := 0, delivered := 0, expected := 0 }
def wPeerLost : State := wBothDown.modJup fun j => { j with peerDown := tset none [] (sideKey false) (some 0) }
def wReadGen : State := (wLoading (wLoad [] (.generation 5) true)).modJup fun j =>
  { j with restores := tset none [] 9 (some { wRestore true with source := 5, gen := true }) }
/-- Job 7 with side B its active side. -/
def wJobB : State := (wJob 1).setReg64 .jup mapBase (MapRun.word { job := 7, first := 0, last := 3, port := 5, channel := 0, side := 1, state := 0 })
def wTreeMsg (op : BitVec 8) (args : List Word) (s : State) : Msg :=
  { mtype := mtCommand, route := 3, flow := 0, addr := BitVec.ofNat 32 0, words := cmdWords op (s.wholeSpan 7) 0x01000000 args }
def wStretched : State := ((wTree7 (wJob 1)).accept .jup hdr opStretchJob (job := some 7)).1.setJobWord 7 3
  ((((wTree7 (wJob 1)).accept .jup hdr opStretchJob (job := some 7)).1.jobWord 7 3 &&& 0xFFFFFFFF00000000) ||| (0 : BitVec 20).setWidth 64)
def wPairBring : BringIn := { wBring 1 with second := some 6 }
def wPairCheck : State := (State.reset.modJup fun j => { j with bringIns := [wPairBring], journal := [(0, { wRec true with rank := 2, kind := 3 })] })
def wLastSteps : BringIn := { wBring 1 with phase := 3 }
def wLimit : State := (wCoordAt .tsu .opened).modCoord .tsu 1 fun g => { g with stages := [(.self, 200)] }
def wSev (esc : Nat) : SevSeen := { path := 5, block := 3, job := none, due := 0, esc := esc, acted := false }
def wRackA (x : List SevSeen) : State := (roled 1 0 State.reset).modJup fun j => { j with sevSeen := x }
/-- A report of port 5's die: block 3, an event and a step. -/
def wRep (event esc : Nat) (code : Code := cNoMatch) : List Word :=
  [put 64 63 48 code.toNat ||| put 64 47 40 3 ||| put 64 39 37 event ||| put 64 36 35 esc ||| 5, 0, put 64 63 60 15, 0]
def wHot : State := State.reset.modJup fun j => { j with hot := [(false, .stack), (false, .inlet)] }

theorem witness_ParentsJudged_rev :
    (∃ (d : Dev) (s : State), (1024 ≤ (s.com d).time.skewCount ∨ 1024 ≤ (s.com d).time.skewCountB)) :=
  ⟨.tsu, wSkew, by first | decide +kernel | (and_intros <;> first | rfl | decide +kernel)⟩

theorem witness_AcquisitionRuns_rev :
    (∃ (d : Dev) (s : State), (s.com d).cr.dwellStart.toNat + 8388608 ≤ (s.now d).toNat ∧ (s.com d).cr.state = .track ∧ (s.com d).time.state = .degraded ∧ s.returnSlewing d = false ∧ (s.com d).cr.dwellOk = true ∧ (s.com d).time.lowRate = false) :=
  ⟨.tsu, ((wDwell 3 0).modTime .tsu fun t => { t with state := .degraded }).modCr .tsu fun c => { c with state := .track }, by first | decide +kernel | (and_intros <;> first | rfl | decide +kernel)⟩

theorem witness_UtcServed_rev :
    (∃ (s : State), s.jup.mapNext.isSome = true ∧ (s.now .jup).toNat % 1600000000 = 0) ∧
    (∃ (s : State), s.jup.mapTick.toNat + 6400000000 ≤ (s.now .jup).toNat) ∧
    (∃ (s : State) (r : MapRec), s.jup.mapCur = some r ∧ s.jup.mapHold = true) :=
  ⟨⟨wMapping, by first | decide +kernel | (and_intros <;> first | rfl | decide +kernel)⟩,
    ⟨((tick 6400000000)), by first | decide +kernel | (and_intros <;> first | rfl | decide +kernel)⟩,
    ⟨wMapping, wMapRec, by first | decide +kernel | (and_intros <;> first | rfl | decide +kernel)⟩⟩

theorem witness_ClockCommands_rev :
    (∃ (d : Dev) (s : State), (s.now d).toNat % 8192 = 0 ∧ (s.com d).cr.state = .track ∧ (s.com d).cr.selMode = 0 ∧ (s.com d).time.state ≠ .lost ∧ ((s.evalRefs d).followLink d).bestQualified d = none) :=
  ⟨.tsu, ((tick 8192).modCr .tsu fun c => { c with state := .track }), by first | decide +kernel | (and_intros <;> first | rfl | decide +kernel)⟩

theorem witness_PulsesPlaced_rev :
    (∃ (p : Pulse) (l t : Int), p.lastOut = some l ∧ p.ret = true ∧ p.missRun = 0 ∧ (t - (l + meanNear p.ivals)).natAbs ≤ 32768) ∧
    (∃ (p : Pulse), (p.ret = false ∨ p.missRun ≠ 0)) :=
  ⟨⟨{ lastOut := some 0, ret := true }, 0, 0, by first | decide +kernel | (and_intros <;> first | rfl | decide +kernel)⟩,
    ⟨{}, by first | decide +kernel | (and_intros <;> first | rfl | decide +kernel)⟩⟩

theorem witness_ChannelControls_rev :
    (∃ (c : Fin 8) (s : State), s.bindErr c ≠ 0) ∧
    (∃ (c : Fin 8) (s : State), s.bindErr c = 0 ∧ s.bankClash c = true) :=
  ⟨⟨0, State.reset, by first | decide +kernel | (and_intros <;> first | rfl | decide +kernel)⟩,
    ⟨0, wClash, by first | decide +kernel | (and_intros <;> first | rfl | decide +kernel)⟩⟩

theorem witness_ChannelsStart_rev :
    (∃ (c : Fin 8) (s : State), (s.chan c).arm = true ∧ (s.chan c).state = .ready ∧ (s.chan c).startTick = s.now .tsu ∧ s.clamped true = false ∧ s.badFrom 0 c 0 = [] ∧ s.badFrom 1 c 0 = []) ∧
    (∃ (c : Fin 8) (s : State), (s.chan c).resume = true ∧ (s.chan c).startTick = s.now .tsu ∧ s.lockGrp c = 0 ∧ ((s.chan c).state = .held ∨ (s.chan c).state = .stopped) ∧ s.badFrom 2 c boundaryWord = []) :=
  ⟨⟨0, (up wStart), by first | decide +kernel | (and_intros <;> first | rfl | decide +kernel)⟩,
    ⟨0, wResume, by first | decide +kernel | (and_intros <;> first | rfl | decide +kernel)⟩⟩

theorem witness_CommitRule_rev :
    (∃ (c : Fin 8) (d : BitVec 128) (s : State), s.nextDesc c 7 = .desc d ∧ actionTick (s.chan c).prog d = s.now .tsu ∧ (s.chan c).prog.breaks (s.now .tsu) = false ∧ s.lockMates c = [] ∧ s.commitFail c (d.getLsbD 123) = none ∧ holdCauses (s.chan c) (s.chan c).step = [] ∧ (s.chan c).unbindPend = false ∧ (s.chan c).swapGo = false ∧ s.clamped true = false ∧ s.badFrom 0 c 0 = [] ∧ s.badFrom 1 c 0 = []) :=
  ⟨0, (descHi 7 0 ++ (0 : Word)), (up wCommit), by first | decide +kernel | (and_intros <;> first | rfl | decide +kernel)⟩

theorem witness_WaitsEnd_rev :
    (∃ (w : Waiter) (r : WaitRec) (s : State), s.waitOf w = some r ∧ r.who = w ∧ (s.chan r.ch).state = .running ∧ s.lockMates r.ch = [] ∧ s.tsu.sync.timeout.getLsbD 127 = false ∧ (if cfgKind (s.slotCfg r.core r.slot) = 3 then s.sramBad 1 (conjOwner (s.conjCfg (cfgRec (s.slotCfg r.core r.slot)))) (cfgRec (s.slotCfg r.core r.slot)) else s.sramBad 0 (cfgOwner (s.slotCfg r.core r.slot)) (slotKey r.core r.slot)) = false) :=
  ⟨(.chan 0), (wWaitRec 0 0), ((wWait 0 0 0 9).modChan 0 fun c => { c with state := .running }), by first | decide +kernel | (and_intros <;> first | rfl | decide +kernel)⟩

theorem witness_StationReports_rev :
    (∃ (c : Fin 8) (i : Fin 16) (s : State), s.mainOff = false ∧ (s.chan c).state ≠ .unbound ∧ s.sramBad 4 c i = false) :=
  ⟨0, 0, (state0 .running), by first | decide +kernel | (and_intros <;> first | rfl | decide +kernel)⟩

theorem witness_InputsAtStage_rev :
    (∃ (p : Nat) (ws : List Word) (g : GroupRec) (i : VoteInput) (s : State), s.groupRec ((nthW ws 0).extractLsb' 20 12) = some g ∧ i = contribInput g (s.now .jup) ws ∧ g.job = i.job ∧ s.role = 1 ∧ s.contribOk p i = true ∧ s.inputLate i = false ∧ s.voteCtx i.group.toNat = none ∧ (s.grpStat i.group.toNat).stepLo ≠ i.stepLo ∧ s.contextFull none i.ctx = false ∧ i.early = false ∧ ((∃ k ∈ s.expectedOf i.job (grpBase i.group.toNat) i.beginTick, k ≠ i.key))) ∧
    (∃ (p : Nat) (ws : List Word) (g : GroupRec) (i : VoteInput) (v : VoteCtx) (s : State), s.groupRec ((nthW ws 0).extractLsb' 20 12) = some g ∧ i = contribInput g (s.now .jup) ws ∧ g.job = i.job ∧ s.role = 1 ∧ s.contribOk p i = true ∧ s.inputLate i = false ∧ s.voteCtx i.group.toNat = some v ∧ v.group = i.group ∧ v.got.contains i.key = false ∧ tickSkew v i = false ∧ i.early = false ∧ s.contextFull (some v) { v with got := i.key :: v.got, acc := mergeAcc g v.acc i.acc, voteTick := match v.voteTick with | some k => some k | none => i.voteTick } = false ∧ ((∃ k ∈ s.expectedOf v.job (grpBase v.group.toNat) v.beginTick, k ≠ i.key ∧ k ∉ v.got))) ∧
    (∃ (port : Nat) (p : VotePartial) (g : GroupRec) (i : VoteInput) (s : State), s.groupRec p.group = some g ∧ g.job = p.job ∧ i = partialInput (s.now .jup) port p ∧ (s.expectedOf p.job (grpBase p.group.toNat) i.beginTick).contains port = true ∧ s.inputLate i = false ∧ s.voteCtx p.group.toNat = none ∧ (s.grpStat p.group.toNat).stepLo ≠ p.stepLo ∧ s.contextFull none i.ctx = false ∧ p.failed = false ∧ ((∃ k ∈ s.expectedOf p.job (grpBase p.group.toNat) i.beginTick, k ≠ port))) ∧
    (∃ (p : Nat) (j : BitVec 15) (s : State), s.role = 1 ∧ p < 88 ∧ s.ownsPort p j = true) ∧
    (∃ (p : Nat) (j : BitVec 15) (s : State), s.role = 1 ∧ p < 88 ∧ s.ownsPort p j = false) :=
  ⟨⟨5, wContrib1, wGroup, (contribInput wGroup (wStage0.now .jup) wContrib1), wStage0, by first | decide +kernel | (and_intros <;> first | rfl | decide +kernel)⟩,
    ⟨5, wContrib3, wGroup, (contribInput wGroup (wOpenCtx.now .jup) wContrib3), wVoteCtx, wOpenCtx, by first | decide +kernel | (and_intros <;> first | rfl | decide +kernel)⟩,
    ⟨5, wPartial1, wGroup, (partialInput (wRows2.now .jup) 5 wPartial1), wRows2, by first | decide +kernel | (and_intros <;> first | rfl | decide +kernel)⟩,
    ⟨5, 7, wOwnedPort, by first | decide +kernel | (and_intros <;> first | rfl | decide +kernel)⟩,
    ⟨5, 6, wOwnedPort, by first | decide +kernel | (and_intros <;> first | rfl | decide +kernel)⟩⟩

theorem witness_CoreWaits_rev :
    (∃ (r : CoreReq) (round : BitVec 16) (s : State), s.mainOff = false ∧ s.coreAllowed r 8 = true ∧ s.entryRound (cfgRec (s.slotCfg r.core r.slot)) = some round ∧ s.sramBad 1 (conjOwner (s.conjCfg (cfgRec (s.slotCfg r.core r.slot)))) (cfgRec (s.slotCfg r.core r.slot)) = false) ∧
    (∃ (r : CoreReq) (s : State), s.mainOff = false ∧ s.coreAllowed r 8 = true ∧ (s.conjRec (cfgRec (s.slotCfg r.core r.slot))).cur.toNat + 1 < conjCount (s.conjCfg (cfgRec (s.slotCfg r.core r.slot))) ∧ s.sramBad 1 (conjOwner (s.conjCfg (cfgRec (s.slotCfg r.core r.slot)))) (cfgRec (s.slotCfg r.core r.slot)) = false) ∧
    (∃ (r : CoreReq) (s : State), s.mainOff = false ∧ s.coreAllowed r 9 = true ∧ (s.conjRec (cfgRec (s.slotCfg r.core r.slot))).cur.toNat + 1 < conjCount (s.conjCfg (cfgRec (s.slotCfg r.core r.slot))) ∧ s.sramBad 1 (conjOwner (s.conjCfg (cfgRec (s.slotCfg r.core r.slot)))) (cfgRec (s.slotCfg r.core r.slot)) = false) ∧
    (∃ (r : CoreReq) (s : State), s.mainOff = false ∧ s.coreAllowed r 9 = true ∧ s.entryRound (cfgRec (s.slotCfg r.core r.slot)) = none ∧ s.sramBad 1 (conjOwner (s.conjCfg (cfgRec (s.slotCfg r.core r.slot)))) (cfgRec (s.slotCfg r.core r.slot)) = false) ∧
    (∃ (r : CoreReq) (s : State), s.mainOff = false ∧ s.coreAllowed r 8 = true ∧ s.entryRound (cfgRec (s.slotCfg r.core r.slot)) = none ∧ s.sramBad 1 (conjOwner (s.conjCfg (cfgRec (s.slotCfg r.core r.slot)))) (cfgRec (s.slotCfg r.core r.slot)) = false) :=
  ⟨⟨(wReq 1), 0, (wConj 1 0), by (repeat rw [allowed0 _ _ _ rfl rfl rfl]); decide +kernel⟩,
    ⟨(wReq 1), (wConj 0 0), by (repeat rw [allowed0 _ _ _ rfl rfl rfl]); decide +kernel⟩,
    ⟨(wReq 1), (wConj 0 0), by (repeat rw [allowed0 _ _ _ rfl rfl rfl]); decide +kernel⟩,
    ⟨(wReq 1), (wConj 2 2), by (repeat rw [allowed0 _ _ _ rfl rfl rfl]); decide +kernel⟩,
    ⟨(wReq 1), (wConj 2 2), by (repeat rw [allowed0 _ _ _ rfl rfl rfl]); decide +kernel⟩⟩

theorem witness_DebugWrites_rev :
    (∃ (rec : BitVec 12) (s : State), (rec.toNat, s.now .tsu) ∈ s.tsu.sync.forced ∧ s.sramBad 1 (conjOwner (s.conjCfg rec.toNat)) rec.toNat = false) :=
  ⟨1, wForced, by first | decide +kernel | (and_intros <;> first | rfl | decide +kernel)⟩

theorem witness_ConjunctionRounds_rev :
    (∃ (s : State), s.tsu.sync.drainOn = false) ∧
    (∃ (s : State), s.mainOff = false ∧ s.tsu.sync.drainOn = true) ∧
    (∃ (rec : BitVec 12) (b : Bool) (i : Instr) (s : State), (s.conjRec rec.toNat).release = some (s.now .tsu) ∧ i = (if b then .localConjRelease rec else .conjReleaseApply rec) ∧ (conjSpan (s.conjCfg rec.toNat) = 0 ↔ b = true) ∧ Table.wf {} s.tsu.sync.recs = true ∧ s.sramBad 1 (conjOwner (s.conjCfg rec.toNat)) rec.toNat = false) ∧
    (∃ (ws : List Word) (r : Nat) (s : State), s.tsu.power.state ≠ 4 ∧ s.groupRecs ((nthW ws 0).extractLsb' 49 15) ((nthW ws 0).extractLsb' 20 12) = [r] ∧ (nthW ws 0).extractLsb' 10 8 ≠ (s.chan (conjOwner (s.conjCfg r))).run ∧ s.sramBad 1 (conjOwner (s.conjCfg r)) r = false) ∧
    (∃ (ws : List Word) (r : Nat) (s : State), s.tsu.power.state ≠ 4 ∧ s.groupRecs ((nthW ws 0).extractLsb' 49 15) ((nthW ws 0).extractLsb' 20 12) = [r] ∧ (nthW ws 0).extractLsb' 10 8 = (s.chan (conjOwner (s.conjCfg r))).run ∧ (nthW ws 0).getLsbD 19 = (s.conjRec r).round.getLsbD 0 ∧ (nthW ws 0).getLsbD 18 = false ∧ s.now .tsu ≤ nearTick (s.now .tsu) ((nthW ws 1).extractLsb' 32 32) ∧ s.sramBad 1 (conjOwner (s.conjCfg r)) r = false) :=
  ⟨⟨State.reset, by first | decide +kernel | (and_intros <;> first | rfl | decide +kernel)⟩,
    ⟨(wDrain.modSync fun y => { y with drainOn := true }), by first | decide +kernel | (and_intros <;> first | rfl | decide +kernel)⟩,
    ⟨1, true, (.localConjRelease 1), (wRelease 2), by first | decide +kernel | (and_intros <;> first | rfl | decide +kernel)⟩,
    ⟨wRunRes, 1, wGroupConj, by first | decide +kernel | (and_intros <;> first | rfl | decide +kernel)⟩,
    ⟨wResult, 1, wGroupConj, by first | decide +kernel | (and_intros <;> first | rfl | decide +kernel)⟩⟩

theorem witness_LinkStates_rev :
    (∃ (d : Dev) (n : Nat) (s : State), (s.link d n).ctl.lstate = .down ∧ (s.link d n).ctl.disable = false ∧ s.idlePort d n = false ∧ s.endUp d n = true ∧ (s.link d n).ctl.trainFails < 3) ∧
    (∃ (d : Dev) (n : Nat) (s : State), ((s.link d n).ctl.disable = true ∨ s.idlePort d n = true ∨ s.endUp d n = false)) ∧
    (∃ (d : Dev) (n : Nat) (s : State), (s.link d n).ctl.lstate = .down ∧ (s.link d n).ctl.disable = false ∧ s.idlePort d n = false ∧ s.endUp d n = true ∧ 3 ≤ (s.link d n).ctl.trainFails ∧ (s.link d n).ctl.since.toNat + 1600000000 ≤ (s.now d).toNat) :=
  ⟨⟨.tsu, 0, (lst .tsu .down), by first | decide +kernel | (and_intros <;> first | rfl | decide +kernel)⟩,
    ⟨.jup, 0, (lctl .jup fun c => { c with disable := true }), by first | decide +kernel | (and_intros <;> first | rfl | decide +kernel)⟩,
    ⟨.tsu, 0, (lctl .tsu (fun c => { c with lstate := .down, trainFails := 3 }) 1600000000), by first | decide +kernel | (and_intros <;> first | rfl | decide +kernel)⟩⟩

theorem witness_FencesAct_rev :
    (∃ (p : Nat) (ws : List Word) (s : State), s.pathPort (fenceOf ws).path = some (some p) ∧ s.role = 1 ∧ p < 88 ∧ ((fenceOf ws).domain = true ∨ s.ownsPort p (fenceOf ws).job = true)) ∧
    (∃ (p : Nat) (ws : List Word) (s : State), s.pathPort (fenceOf ws).path = some (some p) ∧ s.role = 1 ∧ p < 88 ∧ (fenceOf ws).domain = false ∧ s.ownsPort p (fenceOf ws).job = false) ∧
    (∃ (p : Nat) (ws : List Word) (s : State), (fenceOf ws).domain = false ∧ s.jupC.groups = [] ∧ s.pathPort (fenceOf ws).path = some (some p) ∧ s.role = 1 ∧ p < 88 ∧ s.ownsPort p (fenceOf ws).job = true) ∧
    (∃ (p : Nat) (s : State), ((∀ f ∈ (s.link .jup p).fences, s.now .jup < f.tick ∨ f.begun = true))) ∧
    (∃ (p : Nat) (f : Fence) (s : State), (s.link .jup p).fences = [f] ∧ f.tick ≤ s.now .jup ∧ f.begun = false) ∧
    (∃ (p : Nat) (f : Fence) (s : State), (s.link .jup p).fences = [f] ∧ f.tick ≤ s.now .jup ∧ f.begun = false ∧ f.domain = true) ∧
    (∃ (p : Nat) (f : Fence) (s : State), (s.link .jup p).fences = [f] ∧ f.tick ≤ s.now .jup ∧ f.begun = false ∧ f.domain = false) :=
  ⟨⟨5, (fenceWords (wFence 9)), wOwnedPort, by first | decide +kernel | (and_intros <;> first | rfl | decide +kernel)⟩,
    ⟨5, (fenceWords (wFence 9)), (roled 1 0 State.reset), by first | decide +kernel | (and_intros <;> first | rfl | decide +kernel)⟩,
    ⟨5, (fenceWords (wFence 9)), wOwnedPort, by first | decide +kernel | (and_intros <;> first | rfl | decide +kernel)⟩,
    ⟨3, ((tick 8).modLink .jup 3 fun l => { l with fences := [wFence 9] }), by first | decide +kernel | (and_intros <;> first | rfl | decide +kernel)⟩,
    ⟨3, (wFence 9), wFenced, by first | decide +kernel | (and_intros <;> first | rfl | decide +kernel)⟩,
    ⟨3, { wFence 9 with domain := true }, ((tick 9).modLink .jup 3 fun l => { l with fences := [{ wFence 9 with domain := true }] }), by first | decide +kernel | (and_intros <;> first | rfl | decide +kernel)⟩,
    ⟨3, (wFence 9), wFenced, by first | decide +kernel | (and_intros <;> first | rfl | decide +kernel)⟩⟩

theorem witness_WordsRoundTrip_rev :
    (∃ (f : Fence), f.begun = false) :=
  ⟨(wFence 9), by first | decide +kernel | (and_intros <;> first | rfl | decide +kernel)⟩

theorem witness_JournalRecords_rev :
    (∃ (ws : List Word), 1 ≤ fld (nthW ws 0) 31 28 ∧ fld (nthW ws 0) 31 28 ≤ 3) ∧
    (∃ (r : JrnRec) (s t : State), s.openFlow .journalFlow r.job = some t) ∧
    (∃ (r : JrnRec) (s : State), s.openFlow .journalFlow r.job = none) ∧
    (∃ (k : TrackKind) (j : BitVec 15) (s : State), s.flowOpen k j = true) ∧
    (∃ (k : TrackKind) (j : BitVec 15) (s : State), s.flowOpen k j = false ∧ 61440 ≤ s.jup.tracker.length) ∧
    (∃ (k : TrackKind) (j : BitVec 15) (s : State), s.flowOpen k j = false ∧ s.jup.tracker.length < 61440) ∧
    (∃ (r : JrnRec) (s : State), r.crcOk = true ∧ s.durableTwin r = none ∧ r.kind ≠ 3) ∧
    (∃ (r : JrnRec), r.crcOk = false) ∧
    (∃ (p : Nat) (ws : List Word) (r : JrnRec) (s : State), r = recordOf ws 0 (s.now .jup) ∧ 1 ≤ fld (nthW ws 0) 31 28 ∧ fld (nthW ws 0) 31 28 ≤ 3 ∧ p < 88 ∧ s.flowOpen .journalFlow r.job = true ∧ crc32c (r.data.drop 4) ≠ (nthW ws 3).extractLsb' 32 32) ∧
    (∃ (n : Nat) (x r : JrnRec) (ws : List Word) (s : State), r = recordOf ws 0 (s.now .jup) ∧ s.jup.journal = [(n, x)] ∧ x.durable = true ∧ fld (nthW ws 0) 31 28 = 1 ∧ r.crcOk = true ∧ s.flowOpen .journalFlow r.job = true ∧ sameChunk x r = true ∧ x.crc = r.crc) ∧
    (∃ (r x : JrnRec) (s : State), r.crcOk = true ∧ s.durableTwin r = some x ∧ x.crc ≠ r.crc) ∧
    (∃ (p : Nat) (ws : List Word) (r : JrnRec) (s : State), r = recordOf ws 0 (s.now .jup) ∧ 1 ≤ fld (nthW ws 0) 31 28 ∧ fld (nthW ws 0) 31 28 ≤ 3 ∧ p < 88 ∧ r.crcOk = true ∧ s.flowOpen .journalFlow r.job = true ∧ s.jup.journal.any (fun e => sameChunk e.2 r && e.2.durable) = false ∧ s.stepPassed r = false ∧ s.usage r.job + r.bytes ≤ (s.jobWord r.job 4).toNat) :=
  ⟨⟨(wAppend 1 0), by first | decide +kernel | (and_intros <;> first | rfl | decide +kernel)⟩,
    ⟨(wRec false), State.reset, (State.reset.track (wFlowEntry .journalFlow)), by rfl⟩,
    ⟨(wRec false), wTrackFull, by exact noFlow .journalFlow⟩,
    ⟨.journalFlow, 7, (wFlow .journalFlow), by first | decide +kernel | (and_intros <;> first | rfl | decide +kernel)⟩,
    ⟨.journalFlow, 7, wTrackFull, by exact ⟨noFlowOpen _, trackFull⟩⟩,
    ⟨.journalFlow, 7, State.reset, by first | decide +kernel | (and_intros <;> first | rfl | decide +kernel)⟩,
    ⟨(wRec false), State.reset, by first | decide +kernel | (and_intros <;> first | rfl | decide +kernel)⟩,
    ⟨wBadRec, by first | decide +kernel | (and_intros <;> first | rfl | decide +kernel)⟩,
    ⟨5, (wAppend 1 0), (recordOf (wAppend 1 0) 0 ((wFlow .journalFlow).now .jup)), (wFlow .journalFlow), by first | decide +kernel | (and_intros <;> first | rfl | decide +kernel)⟩,
    ⟨0, (wRec true), (recordOf (wAppend 1 wCrc) 0 ((wFlow .journalFlow (wStored true)).now .jup)), (wAppend 1 wCrc), (wFlow .journalFlow (wStored true)), by first | decide +kernel | (and_intros <;> first | rfl | decide +kernel)⟩,
    ⟨(wRec false), { wRec true with crc := 1 }, (State.reset.modJup fun j => { j with journal := [(0, { wRec true with crc := 1 })] }), by first | decide +kernel | (and_intros <;> first | rfl | decide +kernel)⟩,
    ⟨5, (wAppend 1 wCrc), (recordOf (wAppend 1 wCrc) 0 ((wFlow .journalFlow (wQuota 64)).now .jup)), (wFlow .journalFlow (wQuota 64)), by first | decide +kernel | (and_intros <;> first | rfl | decide +kernel)⟩⟩

theorem witness_RecordsAge_rev :
    (∃ (j : BitVec 15) (s t : State), s.openFlow .shadowFlow j = some t) ∧
    (∃ (j : BitVec 15) (s : State), s.openFlow .shadowFlow j = none) ∧
    (∃ (j : BitVec 15) (r : BitVec 17) (x : Shadow) (s : State), s.jup.shadows = [x] ∧ x.job = j ∧ x.rank = r ∧ s.flowOpen .shadowFlow j = true) ∧
    (∃ (i : BitVec 16) (e : TrackEntry) (s : State), i.toNat < 61440 ∧ tget none s.jup.tracker i.toNat = some e ∧ e.deadline < s.now .jup) ∧
    (∃ (i : BitVec 16) (e : TrackEntry) (s : State), 61440 ≤ i.toNat ∧ s.stageEntry (i.toNat - 61440) = some e ∧ e.deadline < s.now .jup) ∧
    (∃ (i : BitVec 16) (e : TrackEntry) (s : State), i.toNat < 61440 ∧ tget none s.jup.tracker i.toNat = some e ∧ e.deadline < s.now .jup ∧ e.kind ≠ .restoreFlow ∧ e.handle = 0 ∧ Table.wf none s.jup.tracker = true) ∧
    (∃ (i : BitVec 16) (e : TrackEntry) (s : State), s.opEntry i.toNat = some e ∧ ¬ e.deadline < s.now .jup) ∧
    (∃ (b : Bool) (k : Tick) (s : State), s.side = 2 ∧ (standbyLinks b).all s.longDown = true ∧ tget none s.jup.peerDown (sideKey b) = some k ∧ k.toNat + 2 ^ s.downLog2 ((standbyLinks b).headD 0) ≤ (s.now .jup).toNat ∧ s.jup.takeover.contains b = false) ∧
    (∃ (s : State), s.side ≠ 2) ∧
    (∃ (b r : Bool) (s : State), s.side = 2 ∧ (s.jup.takeover.contains b = true ∨ (standbyLinks b).all s.longDown = false ∨ (r = false ∧ Table.wf none s.jup.peerDown = true))) :=
  ⟨⟨7, State.reset, (State.reset.track (wFlowEntry .shadowFlow)), by rfl⟩,
    ⟨7, wTrackFull, by exact noFlow .shadowFlow⟩,
    ⟨7, 2, wShadow, (wFlow .shadowFlow (State.reset.modJup fun j => { j with shadows := [wShadow] })), by first | decide +kernel | (and_intros <;> first | rfl | decide +kernel)⟩,
    ⟨3, { handle := 0, kind := .command, job := none, deadline := 5, delivered := 0, expected := 1 }, wTrk, by first | decide +kernel | (and_intros <;> first | rfl | decide +kernel)⟩,
    ⟨61444, wStageEntry, wOldDeadline, by first | decide +kernel | (and_intros <;> first | rfl | decide +kernel)⟩,
    ⟨3, { handle := 0, kind := .command, job := none, deadline := 5, delivered := 0, expected := 1 }, wTrk, by first | decide +kernel | (and_intros <;> first | rfl | decide +kernel)⟩,
    ⟨3, { handle := 1, kind := .command, job := none, deadline := 5, delivered := 0, expected := 1 }, (wTrack 5), by first | decide +kernel | (and_intros <;> first | rfl | decide +kernel)⟩,
    ⟨false, 0, wPeerLost, by first | decide +kernel | (and_intros <;> first | rfl | decide +kernel)⟩,
    ⟨State.reset, by first | decide +kernel | (and_intros <;> first | rfl | decide +kernel)⟩,
    ⟨true, false, (wBothDown.modJup fun j => { j with takeover := [true] }), by first | decide +kernel | (and_intros <;> first | rfl | decide +kernel)⟩⟩

theorem witness_LoadsJudged_rev :
    (∃ (d : Dev) (h : Hdr) (s s' : State) (hd : Half), s.accept d h opLoadImage = (s', some hd) ∧ (s'.com d).load = none ∧ ((d = .tsu → s'.anyBound = false)) ∧ ((d = .jup → s'.jup.tracker.length < 61440))) ∧
    (∃ (d : Dev) (f : List Word) (l : Load) (s : State), (s.com d).sec.lcRead = true ∧ (s.com d).load = some l ∧ l.ready = false ∧ l.pos = 0 ∧ fld (nthW f 0) 63 56 = 0 ∧ fld (nthW f 0) 55 36 = l.frame ∧ (f.drop 1).length = fld (nthW f 0) 35 27 + 1 ∧ fld (nthW f 0) 26 0 = 0 ∧ (l.header ++ f.drop 1).length < headerLen (l.header ++ f.drop 1) ∧ 1 ≤ imgSections (l.header ++ f.drop 1) ∧ imgSections (l.header ++ f.drop 1) ≤ 64) ∧
    (∃ (d : Dev) (f : List Word) (l : Load) (s : State), (s.com d).sec.lcRead = true ∧ (s.com d).load = some l ∧ l.ready = false ∧ fld (nthW f 0) 63 56 = l.pos ∧ fld (nthW f 0) 55 36 = l.frame ∧ (f.drop 1).length = fld (nthW f 0) 35 27 + 1 ∧ fld (nthW f 0) 26 0 ≠ 0) ∧
    (∃ (p : BitVec 7) (l : Load) (s : State), s.jupC.load = some l ∧ l.ready = true ∧ (s.now .jup).toNat % 8 = 0 ∧ l.dest = .generation p ∧ s.genRead p.toNat = false ∧ Table.wf {} s.jup.gens = true ∧ Table.wf false s.jup.genActive = true) ∧
    (∃ (p : BitVec 7) (l : Load) (s : State), s.jupC.load = some l ∧ l.ready = true ∧ (s.now .jup).toNat % 8 = 0 ∧ l.dest = .generation p ∧ s.genRead p.toNat = true) :=
  ⟨⟨.jup, hdr, (State.reset), (State.reset.accept .jup hdr opLoadImage).1, 0x01000000, by first | decide +kernel | (and_intros <;> first | rfl | decide +kernel)⟩,
    ⟨.jup, wFrame, (wLoad [] .self), (wLoading (wLoad [] .self)), by first | decide +kernel | (and_intros <;> first | rfl | decide +kernel)⟩,
    ⟨.jup, [put 64 35 27 2 ||| 1, put 64 7 0 1, 0, 0], (wLoad [] .self), (wLoading (wLoad [] .self)), by first | decide +kernel | (and_intros <;> first | rfl | decide +kernel)⟩,
    ⟨5, (wLoad [] (.generation 5) true), (wLoading (wLoad [] (.generation 5) true)), by first | decide +kernel | (and_intros <;> first | rfl | decide +kernel)⟩,
    ⟨5, (wLoad [] (.generation 5) true), wReadGen, by first | decide +kernel | (and_intros <;> first | rfl | decide +kernel)⟩⟩

theorem witness_RestoresRun_rev :
    (∃ (h : Hdr) (p : BitVec 32) (n : Nat) (g : Bool) (s s' : State) (hd : Half), s.accept .jup h opRestore = (s', some hd) ∧ s'.pathPort p = some (some n) ∧ s'.role = 1 ∧ n < 88 ∧ ((s'.gen n g).aonUplink = s'.ownSide ∨ s'.side = 2) ∧ tget none s'.jup.restores n = none ∧ s'.dieOwned n = false ∧ (s'.gen n g).bad = false ∧ (s'.gen n g).header ≠ [] ∧ s'.jup.tracker.length < 61440) ∧
    (∃ (s : State), 61440 ≤ s.jup.tracker.length) ∧
    (∃ (p : Nat) (g : Bool) (s : State), g = tget false s.jup.genActive p ∧ s.role = 1 ∧ (s.gen p g).header ≠ [] ∧ (s.gen p g).bad = false ∧ tget none s.jup.restores p = none ∧ (s.gen p g).aonUplink = s.ownSide ∧ s.jup.tracker.length < 61440) :=
  ⟨⟨hdr, 5, 5, false, (wRst), ((wRst).accept .jup hdr opRestore).1, 0x01000000, by first | decide +kernel | (and_intros <;> first | rfl | decide +kernel)⟩,
    ⟨wTrackFull, by exact trackFull⟩,
    ⟨5, false, wRst, by first | decide +kernel | (and_intros <;> first | rfl | decide +kernel)⟩⟩

theorem witness_JobCommands_rev :
    (∃ (h : Hdr) (j : BitVec 15) (s s' : State) (hd : Half), s.accept .jup h opHoldJob (job := some j) = (s', some hd) ∧ s'.jobPlace j = .top ∧ s'.activeHere j = true) ∧
    (∃ (h : Hdr) (j : BitVec 15) (s s' : State) (hd : Half), s.accept .jup h opHoldJob (job := some j) = (s', some hd) ∧ s'.jobPlace j = .top ∧ s'.activeHere j = false) ∧
    (∃ (h : Hdr) (j : BitVec 15) (s s' : State) (hd : Half), s.accept .jup h opStretchJob (job := some j) = (s', some hd) ∧ s'.jobPlace j = .top ∧ s'.activeHere j = true) ∧
    (∃ (h : Hdr) (j : BitVec 15) (s s' : State) (hd : Half), s.accept .jup h opStretchJob (job := some j) = (s', some hd) ∧ s'.jobPlace j = .top ∧ s'.activeHere j = false) ∧
    (∃ (h : Hdr) (j : BitVec 15) (n : BitVec 64) (k p : Nat) (r : List Nat) (x : Msg) (s s' : State) (hd : Half), s.accept .jup h opHoldJob (job := some j) = (s', some hd) ∧ s'.jobPlace j = .top ∧ s'.activeHere j = true ∧ s'.jobTrees j = k :: r ∧ k < 4096 ∧ p ∈ s'.treeOut k ∧ x = { mtype := mtCommand, route := 3, flow := 0, addr := BitVec.ofNat 32 k, words := cmdWords opHoldJob (s'.wholeSpan j) hd [n] } ∧ s'.sideOk p x = true ∧ s'.fencedAt p x = false) ∧
    (∃ (h : Hdr) (j : BitVec 15) (n : BitVec 64) (v : BitVec 20) (k p : Nat) (r : List Nat) (x : Msg) (s s' u : State) (hd : Half), s.accept .jup h opStretchJob (job := some j) = (s', some hd) ∧ s'.jobPlace j = .top ∧ s'.activeHere j = true ∧ u = s'.setJobWord j 3 ((s'.jobWord j 3 &&& 0xFFFFFFFF00000000) ||| v.setWidth 64) ∧ u.jobTrees j = k :: r ∧ k < 4096 ∧ p ∈ u.treeOut k ∧ x = { mtype := mtCommand, route := 3, flow := 0, addr := BitVec.ofNat 32 k, words := cmdWords opStretchJob (u.wholeSpan j) hd [n, v.setWidth 64] } ∧ u.sideOk p x = true ∧ u.fencedAt p x = false) ∧
    (∃ (h : Hdr) (j : BitVec 15) (s s' : State) (hd : Half), s.accept .jup h opHoldJob (job := some j) = (s', some hd) ∧ s'.jobPlace j = .top ∧ s'.activeHere j = true ∧ s'.jobTrees j = []) ∧
    (∃ (h : Hdr) (j : BitVec 15) (r : BitVec 17) (p q : BitVec 32) (s s' : State) (hd : Half), s.accept .jup h opBringIn (job := some j) = (s', some hd) ∧ s'.jobPlace j = .top ∧ s'.role = 1 ∧ r ≤ s'.lastRank j ∧ s'.pickRack j r p h.override = .spare q ∧ s'.jup.tracker.length < 61440) :=
  ⟨⟨hdr, 7, (wJob 1), ((wJob 1).accept .jup hdr opHoldJob (job := some 7)).1, 0x01000000, by first | decide +kernel | (and_intros <;> first | rfl | decide +kernel)⟩,
    ⟨hdr, 7, (wJobB), ((wJobB).accept .jup hdr opHoldJob (job := some 7)).1, 0x01000000, by first | decide +kernel | (and_intros <;> first | rfl | decide +kernel)⟩,
    ⟨hdr, 7, (wJob 1), ((wJob 1).accept .jup hdr opStretchJob (job := some 7)).1, 0x01000000, by first | decide +kernel | (and_intros <;> first | rfl | decide +kernel)⟩,
    ⟨hdr, 7, (wJobB), ((wJobB).accept .jup hdr opStretchJob (job := some 7)).1, 0x01000000, by first | decide +kernel | (and_intros <;> first | rfl | decide +kernel)⟩,
    ⟨hdr, 7, 0, 0, 5, [], (wTreeMsg opHoldJob [0] ((wTree7 (wJob 1)).accept .jup hdr opHoldJob (job := some 7)).1), (wTree7 (wJob 1)), ((wTree7 (wJob 1)).accept .jup hdr opHoldJob (job := some 7)).1, 0x01000000, by first | decide +kernel | (and_intros <;> first | rfl | decide +kernel)⟩,
    ⟨hdr, 7, 0, 0, 0, 5, [], (wTreeMsg opStretchJob [0, (0 : BitVec 20).setWidth 64] wStretched), (wTree7 (wJob 1)), ((wTree7 (wJob 1)).accept .jup hdr opStretchJob (job := some 7)).1, wStretched, 0x01000000, by first | decide +kernel | (and_intros <;> first | rfl | decide +kernel)⟩,
    ⟨hdr, 7, (wJob 1), ((wJob 1).accept .jup hdr opHoldJob (job := some 7)).1, 0x01000000, by first | decide +kernel | (and_intros <;> first | rfl | decide +kernel)⟩,
    ⟨hdr, 7, 2, 0, (wSpare.childPath 9), (wSpare), wSpare', 0x01000000, by exact ⟨rfl, by decide +kernel, by decide +kernel, by decide +kernel, wSpare_picked, by decide +kernel⟩⟩⟩

theorem witness_RecoveryRuns_rev :
    (∃ (j : BitVec 15) (r : BitVec 17) (p : BitVec 32) (d : Word) (b x : BringIn) (s : State), s.jup.bringIns = [b, x] ∧ b.job = j ∧ b.rank = r ∧ b.mode = 1 ∧ b.phase = 1 ∧ b.spare = p ∧ b.second = none ∧ (s.checkpointOf j r).map (fun c => nthW c.data 4) = some d ∧ x.job = j ∧ x.phase ≠ 2) ∧
    (∃ (j : BitVec 15) (r : BitVec 17) (p : BitVec 32) (b x : BringIn) (s : State), s.jup.bringIns = [b, x] ∧ b.job = j ∧ b.rank = r ∧ b.phase = 3 ∧ b.spare = p ∧ x.job = j ∧ x.phase ≠ 2) ∧
    (∃ (j : BitVec 15) (r : BitVec 17) (p : BitVec 32) (d : Word) (b : BringIn) (q : BitVec 32) (s : State), s.jup.bringIns = [b] ∧ b.job = j ∧ b.rank = r ∧ b.mode = 1 ∧ b.phase = 1 ∧ b.spare = q ∧ b.second = some p ∧ q < p ∧ (s.checkpointOf j r).map (fun c => nthW c.data 4) = some d) ∧
    (∃ (j : BitVec 15) (r : BitVec 17) (b x : BringIn) (s : State), s.jup.bringIns = [b, x] ∧ b.job = j ∧ b.rank = r ∧ b.mode = 1 ∧ b.phase = 1 ∧ b.matched = none ∧ b.started.toNat + s.recomputeLimit j ≤ (s.now .jup).toNat ∧ x.job = j ∧ x.phase ≠ 2) ∧
    (∃ (j : BitVec 15) (r : BitVec 17) (p : BitVec 32) (d : Word) (b : BringIn) (s : State), s.jup.bringIns = [b] ∧ b.job = j ∧ b.rank = r ∧ b.mode = 1 ∧ b.phase = 1 ∧ b.spare = p ∧ (s.checkpointOf j r).map (fun c => nthW c.data 4) = some d ∧ ((∀ q, b.second = some q → p ≤ q))) ∧
    (∃ (j : BitVec 15) (r : BitVec 17) (p : BitVec 32) (b : BringIn) (s : State), s.jup.bringIns = [b] ∧ b.job = j ∧ b.rank = r ∧ b.mode = 1 ∧ b.phase = 1 ∧ b.spare = p ∧ s.checkpointOf j r = none ∧ ((∀ q, b.second = some q → p ≤ q))) ∧
    (∃ (j : BitVec 15) (r : BitVec 17) (p : BitVec 32) (d e : Word) (b : BringIn) (s : State), s.jup.bringIns = [b] ∧ b.job = j ∧ b.rank = r ∧ b.mode = 1 ∧ b.phase = 1 ∧ b.spare = p ∧ (s.checkpointOf j r).map (fun c => nthW c.data 4) = some e ∧ d ≠ e) ∧
    (∃ (j : BitVec 15) (r : BitVec 17) (b : BringIn) (s : State), s.jup.bringIns = [b] ∧ b.job = j ∧ b.rank = r ∧ b.mode = 1 ∧ b.phase = 1 ∧ b.matched = none ∧ b.started.toNat + s.recomputeLimit j ≤ (s.now .jup).toNat) ∧
    (∃ (j : BitVec 15) (lo : BitVec 16) (s : State), s.jup.stage.rerun = [(j, lo)] ∧ s.rerunReady j = true ∧ s.jobPlace j = .top ∧ s.fencedRanks j = [] ∧ s.jup.stage.brown.contains j = false ∧ s.jup.stage.again.contains j = false ∧ s.rerunMax j ≤ fld (s.jobWord j 0) 15 8) :=
  ⟨⟨7, 2, 5, 0x1234, (wBring 1), wBring3, wTwoCheck, by first | decide +kernel | (and_intros <;> first | rfl | decide +kernel)⟩,
    ⟨7, 2, 5, wLastSteps, wBring3, (State.reset.modJup fun j => { j with bringIns := [wLastSteps, wBring3] }), by first | decide +kernel | (and_intros <;> first | rfl | decide +kernel)⟩,
    ⟨7, 2, 6, 0x1234, wPairBring, 5, wPairCheck, by first | decide +kernel | (and_intros <;> first | rfl | decide +kernel)⟩,
    ⟨7, 2, (wBring 1), wBring3, (wTwoBring 1 0xFFFFFFFFFFFFFFFF), by exact ⟨by decide +kernel, rfl, rfl, rfl, rfl, rfl, limit_reached _ _ (by decide +kernel), rfl, by decide⟩⟩,
    ⟨7, 2, 5, 0x1234, (wBring 1), wCheckpoint, by exact ⟨rfl, rfl, rfl, rfl, rfl, rfl, by decide +kernel, fun q h => by cases h⟩⟩,
    ⟨7, 2, 5, (wBring 1), (wBringing 1), by exact ⟨rfl, rfl, rfl, rfl, rfl, rfl, by decide +kernel, fun q h => by cases h⟩⟩,
    ⟨7, 2, 5, 1, 0x1234, (wBring 1), wCheckpoint, by first | decide +kernel | (and_intros <;> first | rfl | decide +kernel)⟩,
    ⟨7, 2, (wBring 1), (wBringing 1 0xFFFFFFFFFFFFFFFF), by exact ⟨by decide +kernel, rfl, rfl, rfl, rfl, rfl, limit_reached _ _ (by decide +kernel)⟩⟩,
    ⟨7, 4, wRerunFull, by exact ⟨by decide +kernel, by decide +kernel, by decide +kernel, by decide +kernel, by decide +kernel, by decide +kernel, rerun_reached _ _ (by decide +kernel)⟩⟩⟩

theorem witness_GroupsCommit_rev :
    (∃ (d : Dev) (h : Hdr) (g : Half) (ws : List StagedWrite) (c : CoordGroup) (s : State), s.cmdDenied d h false = false ∧ s.stageRefusal d g .self ws = 0 ∧ s.coordGroup d g = some c ∧ s.group d g = none ∧ ws.length ≤ 30 ∧ (d = .tsu ∨ bindIn ws = none)) ∧
    (∃ (d : Dev) (h : Hdr) (g : Half) (t m : Target) (ws : List StagedWrite) (c : CoordGroup) (s : State), s.cmdDenied d h false = false ∧ s.coordGroup d g = some c ∧ c.state = .opened ∧ amongMembers c.members t = true ∧ ((∀ w ∈ ws, w.offset.toNat < targetSpace d t ∧ w.offset.toNat % 4 = 0)) ∧ m ∈ s.stageMembers d c.stages t ∧ 256 < s.memberWrites d c.stages m + ws.length) ∧
    (∃ (n : Nat) (ws : List Word) (g : MemberGroup) (s : State), n < 88 ∧ s.role = 1 ∧ msgKind ws = 3 ∧ msgReason ws ≠ stPartial ∧ s.group .jup (msgGroup ws) = some g ∧ g.heard.contains n = false ∧ g.ports.contains n = true) ∧
    (∃ (p : Nat) (h : Half) (g : MemberGroup) (t : Tick) (s : State), s.group .jup h = some g ∧ g.tc = some t ∧ g.applied = true ∧ s.role = 1 ∧ p < 88 ∧ p ∈ g.ports ∧ s.now .jup = t + 64) ∧
    (∃ (p : Nat) (h : Half) (g : MemberGroup) (t : Tick) (s : State), s.group .jup h = some g ∧ g.tc = some t ∧ g.applied = true ∧ s.role = 1 ∧ p < 88 ∧ p ∈ g.ports ∧ s.now .jup = t + 64 ∧ s.unackedPorts h = [] ∧ (s.link .jup p).held = [] ∧ s.coordGroup .jup h = none) :=
  ⟨⟨.tsu, hdr, 1, [⟨0x10, 5⟩], (wCoord .opened), (wCoordAt .tsu .opened), by first | decide +kernel | (and_intros <;> first | rfl | decide +kernel)⟩,
    ⟨.tsu, hdr, 1, .self, (.path (wLimit.selfPath .tsu)), (List.replicate 57 ⟨0x10, 5⟩), { wCoord .opened with stages := [(.self, 200)] }, wLimit, by first | decide +kernel | (and_intros <;> first | rfl | decide +kernel)⟩,
    ⟨5, wAnswer, { wMember with ports := [5] }, (roled 1 0 (wGrpJ fun g => { g with ports := [5] })), by first | decide +kernel | (and_intros <;> first | rfl | decide +kernel)⟩,
    ⟨5, 1, { wMember with applied := true, ports := [5] }, 0, wChk, by first | decide +kernel | (and_intros <;> first | rfl | decide +kernel)⟩,
    ⟨5, 1, { wMember with applied := true, ports := [5] }, 0, wChk, by first | decide +kernel | (and_intros <;> first | rfl | decide +kernel)⟩⟩

theorem witness_FirstFaultLatched_rev :
    (∃ (d : Dev) (b : Nat) (s : State), ((d = .tsu → (s.tsu.badWords.any fun x => decide (x.1 = 5)) = false)) ∧ (s.fblock d b).valid = false ∧ (s.fblock d b).overflow = false ∧ (s.fblock d b).events = 0 ∧ (s.fblock d b).grades = []) ∧
    (∃ (ch w : Nat) (s : State), s.tsu.badWords = [(5, ch, w)] ∧ (s.fblock .tsu (blkCmd .tsu)).valid = false) :=
  ⟨⟨.tsu, 2, State.reset, by first | decide +kernel | (and_intros <;> first | rfl | decide +kernel)⟩,
    ⟨0, 3, (State.reset.modTsu fun t => { t with badWords := [(5, 0, 3)] }), by first | decide +kernel | (and_intros <;> first | rfl | decide +kernel)⟩⟩

theorem witness_FaultsCommanded_rev :
    (∃ (ws : List Word) (c : Code) (s : State), fld (nthW ws 0) 39 37 = 1 ∧ c = (nthW ws 0).extractLsb' 48 16 ∧ c ∉ [cStepOverrun, cRepeatBroken] ∧ s.jup.sevSeen.any (reportOf ws) = false) ∧
    (∃ (ws : List Word), fld (nthW ws 0) 39 37 = 2 ∧ (nthW ws 0).extractLsb' 48 16 ∉ [cStepOverrun, cRepeatBroken, cSupplyWarn]) ∧
    (∃ (ws : List Word) (s : State), (fld (nthW ws 0) 36 35 < 2 ∨ s.setsFences = false)) ∧
    (∃ (ws : List Word) (s : State), fld (nthW ws 0) 36 35 = 2 ∧ s.setsFences = true ∧ s.gradedReport ws = true) ∧
    (∃ (ws : List Word) (s : State), fld (nthW ws 0) 36 35 = 3 ∧ s.setsFences = true) ∧
    (∃ (ws : List Word) (s : State), fld (nthW ws 0) 36 35 = 2 ∧ s.setsFences = true ∧ s.gradedReport ws = false) ∧
    (∃ (ws : List Word), fld (nthW ws 0) 39 37 = 3 ∧ fld (nthW ws 3) 31 16 = 0 ∧ (nthW ws 0).extractLsb' 48 16 = cSupplyWarn) ∧
    (∃ (r : Reading) (v : Int) (s : State), thermAt r false v = true ∧ Table.wf 0 s.jup.readings = true ∧ (((s.fblock .jup (blkPower .jup)).levels.any fun e => decide (e.1 = cThermalWarn ∧ e.2 = ({} : Ctx).word)) = false)) ∧
    (∃ (r : Reading) (v : Int) (s : State), thermAt r true v = true ∧ (((s.setReading r v).noteHot true r).raiseLevel .jup (blkPower .jup) cThermalTrip {}).jup.thermTrip = false) ∧
    (∃ (r : Reading) (trip : Bool) (s u : State), u = s.modJup (fun j => { j with hot := j.hot.filter fun e => !decide (e = (trip, r)) }) ∧ (u.jup.hot.any fun e => decide (e.1 = trip)) = false) ∧
    (∃ (r : Reading) (trip : Bool) (s u : State), u = s.modJup (fun j => { j with hot := j.hot.filter fun e => !decide (e = (trip, r)) }) ∧ (u.jup.hot.any fun e => decide (e.1 = trip)) = true) :=
  ⟨⟨(wRep 1 0), cNoMatch, State.reset, by first | decide +kernel | (and_intros <;> first | rfl | decide +kernel)⟩,
    ⟨(wRep 2 0), by first | decide +kernel | (and_intros <;> first | rfl | decide +kernel)⟩,
    ⟨(wRep 2 1), State.reset, by first | decide +kernel | (and_intros <;> first | rfl | decide +kernel)⟩,
    ⟨(wRep 2 2), (wRackA [wSev 2]), by first | decide +kernel | (and_intros <;> first | rfl | decide +kernel)⟩,
    ⟨(wRep 2 3), (wRackA []), by first | decide +kernel | (and_intros <;> first | rfl | decide +kernel)⟩,
    ⟨(wRep 2 2), (wRackA []), by first | decide +kernel | (and_intros <;> first | rfl | decide +kernel)⟩,
    ⟨(wRep 3 0 cSupplyWarn), by first | decide +kernel | (and_intros <;> first | rfl | decide +kernel)⟩,
    ⟨.stack, 85, State.reset, by first | decide +kernel | (and_intros <;> first | rfl | decide +kernel)⟩,
    ⟨.stack, 95, State.reset, by first | decide +kernel | (and_intros <;> first | rfl | decide +kernel)⟩,
    ⟨.stack, false, (State.reset.modJup fun j => { j with hot := [(false, .stack)] }), ((State.reset.modJup fun j => { j with hot := [(false, .stack)] }).modJup (fun j => { j with hot := j.hot.filter fun e => !decide (e = (false, Reading.stack)) })), by first | decide +kernel | (and_intros <;> first | rfl | decide +kernel)⟩,
    ⟨.stack, false, wHot, (wHot.modJup (fun j => { j with hot := j.hot.filter fun e => !decide (e = (false, Reading.stack)) })), by first | decide +kernel | (and_intros <;> first | rfl | decide +kernel)⟩⟩

/-! ## Single steps. Expected values are worked by hand from the rules named. -/

/-- A predicate of the next state; false where there is none. -/
def next (r : Res) (p : State → Bool) : Bool := match r with | .next t => p t | _ => false
def faults (r : Res) : Bool := match r with | .fault _ => true | _ => false

/-- R273: CRC-32C (Castagnoli); the value for 32 zero bytes and for 32 bytes of ones is that of RFC 3720. -/
theorem test_crc32c : crc32c [0, 0, 0, 0] = 0x8A9136AA ∧ crc32c (List.replicate 4 (BitVec.allOnes 64)) = 0x62A8AB43 := by decide +kernel
/-- R34 and assumption 2: one tick passes on an empty queue. -/
theorem test_tick : next (step State.reset) (fun t => decide (t.now .tsu = 1 ∧ t.now .jup = 1)) = true := by decide +kernel
/-- R61: a read of the low half of HTC latches the high half. -/
theorem test_htc_read : next (exec (.htcRead .tsu) (tick 0x500000006)) (fun t => decide (t.tsuC.rdata = 6 ∧ t.tsuC.time.htcHi = 5)) = true := by decide +kernel
/-- R380, R433: JTAG outside a session counts in DENIED. -/
theorem test_jtag_denied : next (exec (.registerWrite .tsu .jtag 0x6008 0xF 1) State.reset) (fun t =>
    decide (t.tsuC.sec.denied = 1 ∧ t.reg .tsu 0x6008 = State.reset.reg .tsu 0x6008)) = true := by decide +kernel
/-- R401: DIE_RST while a channel is bound resets nothing; RST_ERR reads 2. -/
theorem test_die_rst_bound : next (exec .dieRst (state0 .ready)) (fun t => decide (t.power.rstErr = 2 ∧ (t.chan 0).state = .ready)) = true := by decide +kernel
/-- R158: ARM of a READY channel at its start tick is late. -/
theorem test_arm_late : next (exec (.arm 0) (chan0 (fun c => { c with state := .ready, startTick := 5 }) (tick 5))) (fun t =>
    !(t.chan 0).arm) = true := by decide +kernel
theorem test_arm : next (exec (.arm 0) wArmed) (fun t => (t.chan 0).arm) = true := by decide +kernel
/-- R458: 95 degrees at the junction warn, 94 do not. -/
theorem test_thermal : next (exec (.thermalWarn .junction 95) State.reset) (fun t => (t.fblock .jup (blkPower .jup)).valid) = true ∧
    next (exec (.thermalWarn .junction 94) State.reset) (fun t => !(t.fblock .jup (blkPower .jup)).valid) = true := by decide +kernel
/-- R465: the FW_VERSION word is written once. -/
theorem test_fw_version : next (exec (.fwVersionWrite 7) State.reset) (fun t => decide (t.reg .tsu 0x44 = 0x80000007)) = true ∧
    next (exec (.fwVersionWrite 7) (State.reset.setReg .tsu 0x44 0x80000005)) (fun t => decide (t.reg .tsu 0x44 = 0x80000005)) = true := by decide +kernel
/-- R384, R386: a SHUTTER 16,384 ticks ahead at the root master is taken, one 16,383 ahead is TOO_EARLY. -/
theorem test_shutter : next (exec (.shutter hdr 16384 0) root) (fun t => decide (t.jupC.shut.waiting.length = 1 ∧ t.jupC.shut.nextId = 1)) = true ∧
    next (exec (.shutter hdr 16383 0) root) (fun t => decide (t.jupC.shut.waiting = [] ∧ (t.cplEntry .jup 0x01000000).map CplEntry.status = some stTooEarly)) = true := by
  decide +kernel
/-- R343: handles count up by command, context above. -/
theorem test_handles : next (exec (.dbgClose .tsu) State.reset) (fun t => decide ((t.accept .tsu hdr opCgBegin).2 = some 0x01000000 ∧
    ((t.accept .tsu hdr opCgBegin).1.accept .tsu hdr opCgBegin).2 = some 0x01000001)) = true := by decide +kernel
/-- R208: GIVE adds and stops at 255; TAKE subtracts. -/
theorem test_give_take : next (exec (.coreGive (wReq 5) ⟨0, 0⟩) (wCore tallyCfg 250)) (fun t => decide (t.slotVal (slotKey 0 3) = 255)) = true ∧
    next (exec (.coreTake (wReq 5)) (wCore tallyCfg 250)) (fun t => decide (t.slotVal (slotKey 0 3) = 245)) = true := by
  simp only [exec, execCoreGive, execCoreTake, State.mainIn, State.due, State.coreChange, allowed0 (wCore tallyCfg 250) (wReq 5) _ rfl rfl rfl]
  decide +kernel
/-- R409: N E = 4,000,000 nJ, N I = 4,000 mW, B = 100 W, T = 1,000: ceil(6.3e9 / 96,000) = 65,625. -/
theorem test_budget : budgetStretch 4 1000000 1000 100 1000 = some 65625 := by decide +kernel
/-- R314: the first fault stays, the second only counts. -/
theorem test_first_fault : ((State.reset.raiseFault .tsu 2 0x3001 {}).raiseFault .tsu 2 0x3002 {}).fblock .tsu 2 =
    { (State.reset.raiseFault .tsu 2 0x3001 {}).fblock .tsu 2 with
        overflow := true, events := 2, grades := (((State.reset.raiseFault .tsu 2 0x3001 {}).raiseFault .tsu 2 0x3002 {}).fblock .tsu 2).grades } := by
  decide +kernel
/-- R9: reserved codes and bits stop. -/
theorem test_reserved_stop : faults (exec (.fltInjArm 6 0 0 .host) State.reset) = true ∧ faults (exec (.jpPowerOnReset (0x18, 0)) State.reset) = true ∧
    faults (exec (.registerWrite .tsu .host 0x6004 0xF 8) State.reset) = true ∧ faults (exec (.journalAppend 0 (wAppend 0 0)) State.reset) = true := by
  decide +kernel
/-- R402: a die reset in DARK waits; in any other state it clears the channels. -/
theorem test_main_rail : next (exec .mainRailFall (state0 .ready)) (fun t => decide ((t.chan 0).state = .unbound ∧ t.power.cause = 1)) = true ∧
    next (exec .mainRailFall ((state0 .ready).modPower fun p => { p with state := 4 })) (fun t => decide ((t.chan 0).state = .ready)) = true := by decide +kernel
/-- R118: before the seal a write of LOCK_GRP 6 leaves that field and stores WD_LOG2. -/
theorem test_lock_grp_kept : next (exec (.registerWrite .tsu .host 0x1000 0xF 0x00060014) State.reset)
    (fun t => decide (t.reg .tsu 0x1000 = 0x00000014)) = true := by decide +kernel
/-- R186, R196: FSUM of INT32 is no combination, FSUM of 16 FP32 lanes in 8 words is; SCATTER goes with TOPK alone. -/
theorem test_combinations : opOk 3 2 8 = false ∧ opOk 3 8 8 = true ∧ opLanes 3 8 = some (16, 32) ∧
    formatOk (bit1 64 63 true ||| put 64 50 47 4 ||| put 64 46 43 6 ||| put 64 38 37 1) = false ∧
    formatOk (bit1 64 63 true ||| put 64 50 47 8 ||| put 64 46 43 6 ||| put 64 38 37 1) = true := by decide +kernel
end Sys2Proof.Tests
end

section
/-! PROOFS of spec family 00: the controls of a channel. -/
namespace Sys2Proof.Machine
open Sys2Proof

/-! ## Channels and fabric filters -/

theorem clearFilter_frame (s : State) (f : Filter) :
    (s.clearFilter f).tsu.chans = s.tsu.chans ∧ (s.clearFilter f).tsuC = s.tsuC := ⟨rfl, rfl⟩

theorem foldl_clearFilter_frame (fs : List Filter) (s : State) :
    (fs.foldl State.clearFilter s).tsu.chans = s.tsu.chans ∧ (fs.foldl State.clearFilter s).tsuC = s.tsuC := by
  induction fs generalizing s with
  | nil => exact ⟨rfl, rfl⟩
  | cons f fs ih =>
    obtain ⟨hchans, hcom⟩ := ih (s.clearFilter f)
    exact ⟨hchans.trans (clearFilter_frame s f).1, hcom.trans (clearFilter_frame s f).2⟩

/-- Clearing the filter entries of a channel touches no channel and nothing of the common state. -/
@[simp] theorem chan_unbindFilters (s : State) (c k : Nat) : (s.unbindFilters c).chan k = s.chan k := by
  unfold State.chan State.unbindFilters
  rw [(foldl_clearFilter_frame _ _).1]; rfl

@[simp] theorem tsuC_unbindFilters (s : State) (c : Nat) : (s.unbindFilters c).tsuC = s.tsuC :=
  (foldl_clearFilter_frame _ _).2

/-- In canonical form a channel reads as it was written, whatever was written. -/
theorem chan_modChan_wf (s : State) (c : Nat) (f : Chan → Chan) (h : Table.wf {} s.tsu.chans = true) :
    (s.modChan c f).chan c = f (s.chan c) :=
  tget_tset_same _ _ _ _ h

/-! ## BIND (R38, R116, R117) -/

/-- The conditions of BIND in their order: ERR is the first that fails, 0 where none does. -/
theorem bindErr_cases (s : State) (c : Nat) :
    (s.bindErr c = 1 ∧ (s.tsuC.time.state ≠ .locked ∨ s.tsuC.time.epochSplit = true)) ∨
    (¬(s.tsuC.time.state ≠ .locked ∨ s.tsuC.time.epochSplit = true) ∧
      ((s.bindErr c = 2 ∧ (s.chan c).state ≠ .unbound) ∨
       ((s.chan c).state = .unbound ∧ (s.bindErr c = 3 ∧ s.bankSize c = 0 ∨ s.bindErr c = 0 ∧ s.bankSize c ≠ 0)))) := by
  unfold State.bindErr
  by_cases hl : s.tsuC.time.state ≠ .locked ∨ s.tsuC.time.epochSplit = true
  · exact .inl ⟨if_pos hl, hl⟩
  refine .inr ⟨hl, ?_⟩
  rw [if_neg hl]
  by_cases hu : (s.chan c).state = .unbound
  · rw [if_neg (not_not_intro hu)]
    by_cases hb : s.bankSize c = 0
    · exact .inr ⟨hu, .inl ⟨if_pos hb, hb⟩⟩
    · exact .inr ⟨hu, .inr ⟨if_neg hb, hb⟩⟩
  · exact .inl ⟨if_pos hu, hu⟩

theorem bindErr_eq_zero {s : State} {c : Nat} (hl : s.tsuC.time.state = .locked) (he : s.tsuC.time.epochSplit = false)
    (hu : (s.chan c).state = .unbound) (hb : s.bankSize c ≠ 0) : s.bindErr c = 0 := by
  rcases bindErr_cases s c with ⟨-, h⟩ | ⟨-, ⟨-, h⟩ | ⟨-, ⟨-, h⟩ | ⟨h, -⟩⟩⟩
  · simp [hl, he] at h
  · exact absurd hu h
  · exact absurd h hb
  · exact h

/-- Each reason that ERR can hold is the condition that failed, and NOT_LOCKED is given whenever the TSU is not locked. -/
theorem bindErr_reason (s : State) (c : Nat) :
    (s.bindErr c = 1 ↔ (s.tsuC.time.state ≠ .locked ∨ s.tsuC.time.epochSplit = true)) ∧
    (s.bindErr c = 2 → (s.chan c).state ≠ .unbound) ∧ (s.bindErr c = 3 → s.bankSize c = 0) := by
  rcases bindErr_cases s c with ⟨e, h⟩ | ⟨hl, ⟨e, h⟩ | ⟨-, ⟨e, h⟩ | ⟨e, -⟩⟩⟩ <;> rw [e]
  · exact ⟨iff_of_true rfl h, (absurd · (by decide)), (absurd · (by decide))⟩
  · exact ⟨iff_of_false (by decide) hl, fun _ => h, (absurd · (by decide))⟩
  · exact ⟨iff_of_false (by decide) hl, (absurd · (by decide)), fun _ => h⟩
  · exact ⟨iff_of_false (by decide) hl, (absurd · (by decide)), (absurd · (by decide))⟩

theorem execBind_bound {c : Fin 8} {s : State} (hc : s.bankClash c = false) (h : s.bindErr c = 0) :
    exec (.bind c) s = .next (s.bindNow c) := by
  change execBind c s = _
  rw [execBind, State.bindClash, hc, Bool.and_false, if_neg Bool.false_ne_true, State.doBind, if_pos h]

theorem execBind_refused {c : Fin 8} {s : State} (h : s.bindErr c ≠ 0) :
    exec (.bind c) s = .next (s.modChan c fun x => { x with err := s.bindErr c }) := by
  change execBind c s = _
  rw [execBind, State.bindClash, decide_eq_false h, Bool.false_and, if_neg Bool.false_ne_true, State.doBind, if_neg h]

theorem execBind_clash {c : Fin 8} {s : State} (h : s.bindErr c = 0) (hc : s.bankClash c = true) :
    exec (.bind c) s = .fault (.unpredictable "R10") := by
  change execBind c s = _
  rw [execBind, State.bindClash, decide_eq_true h, hc, Bool.and_true, if_pos rfl]

/-- A bound channel is READY, at step 0, with the job and rank that it had. -/
theorem chan_bindNow (s : State) (c : Nat) :
    ((s.bindNow c).chan c).state = .ready ∧ ((s.bindNow c).chan c).step = 0 ∧ ((s.bindNow c).chan c).pc = 0 ∧
      ((s.bindNow c).chan c).holdCause = 0 ∧ ((s.bindNow c).chan c).ckpt = s.ckptInit c ∧
      ((s.bindNow c).chan c).job = (s.chan c).job ∧ ((s.bindNow c).chan c).rank = (s.chan c).rank := by
  rw [State.bindNow, chan_modChan _ _ _ (chan_ne_reset _ (by simp))]
  exact ⟨rfl, rfl, rfl, rfl, rfl, rfl, rfl⟩

theorem chan_bindNow_other (s : State) {c k : Nat} (h : k ≠ c) : (s.bindNow c).chan k = s.chan k :=
  chan_modChan_other _ _ _ _ h

/-! ## ARM and RESUME (R158, R160, R162) -/

theorem execArm_early {c : Fin 8} {s : State} (hr : (s.chan c).state = .ready) (ht : s.now .tsu < (s.chan c).startTick) :
    exec (.arm c) s = .next (s.modChan c fun x => { x with arm := true }) := by
  have hn : ¬ (s.chan c).startTick ≤ s.now .tsu := BitVec.not_le.mpr ht
  change execArm c s = _
  simp only [execArm, State.doArm, hr, hn, ne_eq, not_true_eq_false, if_false]

theorem execArm_late {c : Fin 8} {s : State} (hr : (s.chan c).state = .ready) (ht : (s.chan c).startTick ≤ s.now .tsu) :
    exec (.arm c) s = .next (s.raiseChan c cStepLate (idxCtx c (s.chan c).startIndex)) := by
  change execArm c s = _
  simp only [execArm, State.doArm, hr, ht, ne_eq, not_true_eq_false, if_false, if_true]

theorem execArm_otherState {c : Fin 8} {s : State} (hr : (s.chan c).state ≠ .ready) : exec (.arm c) s = .next s := by
  change execArm c s = _
  simp [execArm, State.doArm, hr]

theorem execResume_early {c : Fin 8} {s : State} (hb : s.resumeBarred c = false) (ht : s.now .tsu ≤ (s.chan c).startTick) :
    exec (.resume c) s = .next (s.modChan c fun x => { x with resume := true }) := by
  have hn : ¬ (s.chan c).startTick < s.now .tsu := BitVec.not_lt.mpr ht
  change execResume c s = _
  simp [execResume, State.doResume, hb, hn]

theorem execResume_barred {c : Fin 8} {s : State} (hb : s.resumeBarred c = true) :
    exec (.resume c) s = .next (s.modChan c fun x => { x with err := 2 }) := by
  change execResume c s = _
  simp [execResume, State.doResume, hb]

theorem execResume_late {c : Fin 8} {s : State} (hb : s.resumeBarred c = false) (ht : (s.chan c).startTick < s.now .tsu) :
    exec (.resume c) s = .next ((s.raiseChan c cStepLate {}).stopStep c 5 cStepLate {}) := by
  change execResume c s = _
  simp [execResume, State.doResume, hb, ht, State.lateCommand]

/-! ## HOLD (R118, R169) -/

theorem execHold_otherState {c : Fin 8} {s : State} (hr : (s.chan c).state ≠ .running) : exec (.hold c) s = .next s := by
  change execHold c s = _
  simp [execHold, State.doHold, hr]

theorem execHold_alone {c : Fin 8} {s : State} (hr : (s.chan c).state = .running) (hm : s.lockMates c = []) :
    exec (.hold c) s = .next ((s.modChan c fun x => { x with hold := true }).wantHold c 2) := by
  change execHold c s = _
  simp [execHold, State.doHold, hr, hm]

/-- A RUNNING channel keeps in `holdWant` the cause for which its next boundary is to hold it. -/
theorem chan_wantHold_running {s : State} {c : Nat} (cause : Nat) (hr : (s.chan c).state = .running) :
    cause ∈ ((s.wantHold c cause).chan c).holdWant ∧ ((s.wantHold c cause).chan c).hold = (s.chan c).hold ∧
      ((s.wantHold c cause).chan c).state = .running ∧ ((s.wantHold c cause).chan c).step = (s.chan c).step := by
  by_cases hw : cause ∈ (s.chan c).holdWant
  · rw [State.wantHold, chan_modChan _ _ _ (chan_ne_reset _ (by simp [hw, hr]))]
    simp [hw, hr]
  · rw [State.wantHold, chan_modChan _ _ _ (chan_ne_reset _ (by simp [hw, hr]))]
    simp [hw, hr]

theorem chan_wantHold_other (s : State) {c k : Nat} (cause : Nat) (h : k ≠ c) : (s.wantHold c cause).chan k = s.chan k :=
  chan_modChan_other _ _ _ _ h

/-! ## UNBIND (R116, R145) -/

theorem execUnbind_running {c : Fin 8} {s : State} (hr : (s.chan c).state = .running) :
    exec (.unbind c) s = .next (s.modChan c fun x => { x with unbindPend := true }) := by
  change execUnbind c s = _
  simp [execUnbind, State.doUnbind, hr]

theorem execUnbind_idle {c : Fin 8} {s : State}
    (hr : (s.chan c).state = .ready ∨ (s.chan c).state = .held ∨ (s.chan c).state = .halted) :
    exec (.unbind c) s = .next ((s.modChan c Chan.unbound).unbindFilters c) := by
  change execUnbind c s = _
  rcases hr with hr | hr | hr <;> simp [execUnbind, State.doUnbind, hr]

theorem execUnbind_stopped {c : Fin 8} {s : State} (hr : (s.chan c).state = .stopped) :
    exec (.unbind c) s = .next ((((s.emit (.shd c false)).cancelWaits c).modChan c Chan.unbound).unbindFilters c) := by
  change execUnbind c s = _
  simp [execUnbind, State.doUnbind, hr]

/-- Settles O17: each control has one equation per state in which it is given; the outcomes of BIND, HOLD and UNBIND are read
off the channel that they write. -/
theorem channelControls : Obligations.ChannelControls := by
  refine ⟨?bindOk, fun c s h => execBind_refused h, fun c s => bindErr_reason s c, fun c s => execBind_clash, fun c s => execArm_early,
    fun c s => execArm_late, fun c s => execArm_otherState, fun c s => execResume_early, fun c s => execResume_barred,
    fun c s => execResume_late, ?hold, fun c s => execHold_otherState, fun c s => execUnbind_running, fun c s => execUnbind_idle,
    fun c s => execUnbind_stopped, ?unbind⟩
  case bindOk =>
    intro c s hc hl he hu hb
    obtain ⟨hstate, hstep, hpc, hcause, hckpt, hjob, hrank⟩ := chan_bindNow s c
    exact ⟨s.bindNow c, execBind_bound hc (bindErr_eq_zero hl he hu hb), hstate, hstep, hpc, hcause, hckpt, hjob, hrank,
      fun k hk => chan_bindNow_other s hk, rfl, rfl, rfl⟩
  case hold =>
    intro c s hr hm
    have hc : (s.modChan c fun x => { x with hold := true }).chan c = { s.chan c with hold := true } :=
      chan_modChan _ _ _ (chan_ne_reset _ (by simp [hr]))
    obtain ⟨hwant, hhold, hstate, hstep⟩ :=
      chan_wantHold_running (s := s.modChan c fun x => { x with hold := true }) (c := c) 2 (by rw [hc]; exact hr)
    rw [hc] at hhold hstep
    refine ⟨_, execHold_alone hr hm, hhold, hwant, hstate, hstep, fun k hk => ?_, rfl, rfl⟩
    rw [chan_wantHold_other _ _ hk, chan_modChan_other _ _ _ _ hk]
  case unbind =>
    intro c s hwf hr
    refine ⟨_, execUnbind_idle hr, ?_, fun k hk => ?_, tsuC_unbindFilters _ _⟩
    · rw [chan_unbindFilters, chan_modChan_wf _ _ _ hwf]; rfl
    · rw [chan_unbindFilters, chan_modChan_other _ _ _ _ hk]

end Sys2Proof.Machine
end

section
/-! PROOFS of spec family 00: how the journal judges, stores and forwards an append. -/
namespace Sys2Proof.Machine
open Sys2Proof

/-! ## What the operations behind an append leave -/

@[simp] theorem jup_setJobWord (s : State) (job : BitVec 15) (i : Nat) (w : Word) : (s.setJobWord job i w).jup = s.jup := by
  unfold State.setJobWord; split <;> rfl
@[simp] theorem tsu_setJobWord (s : State) (job : BitVec 15) (i : Nat) (w : Word) : (s.setJobWord job i w).tsu = s.tsu := by
  unfold State.setJobWord; split <;> rfl
@[simp] theorem out_setJobWord (s : State) (job : BitVec 15) (i : Nat) (w : Word) : (s.setJobWord job i w).out = s.out := by
  unfold State.setJobWord; split <;> rfl

@[simp] theorem jup_sendAll (s : State) (d : Dev) (ns : List Nat) (m : Msg) : (s.sendAll d ns m).jup = s.jup := by
  induction ns generalizing s with
  | nil => rfl
  | cons n ns ih => exact (ih (s.send d n m)).trans (jup_modTx ..)
@[simp] theorem tsu_sendAll (s : State) (d : Dev) (ns : List Nat) (m : Msg) : (s.sendAll d ns m).tsu = s.tsu := by
  induction ns generalizing s with
  | nil => rfl
  | cons n ns ih => exact (ih (s.send d n m)).trans (tsu_modTx ..)
@[simp] theorem out_sendAll (s : State) (d : Dev) (ns : List Nat) (m : Msg) : (s.sendAll d ns m).out = s.out := by
  induction ns generalizing s with
  | nil => rfl
  | cons n ns ih => exact (ih (s.send d n m)).trans (out_modTx ..)

/-! Taking a message from the inbox changes nothing by which the journal judges a record. -/

theorem flowOpen_consume (s : State) (n : Nat) (mt : BitVec 8) (ws : List Word) (k : TrackKind) (job : BitVec 15) :
    (s.consume .jup n mt ws).flowOpen k job = s.flowOpen k job := rfl
theorem durableTwin_consume (s : State) (n : Nat) (mt : BitVec 8) (ws : List Word) (r : JrnRec) :
    (s.consume .jup n mt ws).durableTwin r = s.durableTwin r := rfl
theorem stepPassed_consume (s : State) (n : Nat) (mt : BitVec 8) (ws : List Word) (r : JrnRec) :
    (s.consume .jup n mt ws).stepPassed r = s.stepPassed r := rfl
theorem jobWord_consume (s : State) (n : Nat) (mt : BitVec 8) (ws : List Word) (job : BitVec 15) (i : Nat) :
    (s.consume .jup n mt ws).jobWord job i = s.jobWord job i := rfl
theorem usage_consume (s : State) (n : Nat) (mt : BitVec 8) (ws : List Word) (job : BitVec 15) :
    (s.consume .jup n mt ws).usage job = s.usage job := rfl
theorem journalPlace_consume (s : State) (n : Nat) (mt : BitVec 8) (ws : List Word) (bytes : Nat) :
    (s.consume .jup n mt ws).journalPlace bytes = s.journalPlace bytes := rfl

/-- Of the Jupin's own state the usage of a job moves no more than its mark as over quota. -/
theorem jup_setUsage (s : State) (job : BitVec 15) (n : Nat) :
    (s.setUsage job n).jup = { s.jup with quotaOver := (s.setUsage job n).jup.quotaOver } := by
  unfold State.setUsage
  dsimp only
  split <;> simp
theorem tsu_setUsage (s : State) (job : BitVec 15) (n : Nat) : (s.setUsage job n).tsu = s.tsu := by
  unfold State.setUsage
  dsimp only
  split <;> simp
theorem out_setUsage (s : State) (job : BitVec 15) (n : Nat) : (s.setUsage job n).out = s.out := by
  unfold State.setUsage
  dsimp only
  split <;> simp

/-- A record is stored at the end of the journal, under the next number, in the blocks that are next. -/
theorem jup_storeRecord (s : State) (r : JrnRec) :
    ∃ q, (s.storeRecord r false).jup = { s.jup with
      journal := s.jup.journal ++ [(s.jup.journalNext, { r with block := s.journalPlace r.bytes, durable := false, endTick := none })],
      journalNext := s.jup.journalNext + 1, journalBlock := s.journalPlace r.bytes + r.bytes / 64, quotaOver := q } :=
  ⟨_, jup_setUsage _ _ _⟩
theorem tsu_storeRecord (s : State) (r : JrnRec) (durable : Bool) : (s.storeRecord r durable).tsu = s.tsu := tsu_setUsage ..
theorem out_storeRecord (s : State) (r : JrnRec) (durable : Bool) : (s.storeRecord r durable).out = s.out := out_setUsage ..

theorem jup_forwardRecord (s : State) (r : JrnRec) : (s.forwardRecord r).jup = s.jup := jup_sendAll ..
theorem tsu_forwardRecord (s : State) (r : JrnRec) : (s.forwardRecord r).tsu = s.tsu := tsu_sendAll ..
theorem out_forwardRecord (s : State) (r : JrnRec) : (s.forwardRecord r).out = s.out := out_sendAll ..

/-! ## The flow of a job (R270) -/

/-- What is written and is not the unlisted value is an entry of the table. -/
theorem mem_tset_self {α : Type} [DecidableEq α] (d : α) (t : Table α) (k : Nat) (v : α) (h : v ≠ d) : (k, v) ∈ tset d t k v := by
  induction t with
  | nil => simp [tset, h]
  | cons a t ih =>
    obtain ⟨j, w⟩ := a
    simp only [tset, if_neg h]
    split
    · exact List.mem_cons_self
    split
    · exact List.mem_cons_self
    · exact List.mem_cons_of_mem _ ih

/-- An entry just opened is the flow's. -/
theorem flowOpen_track (s : State) (k : TrackKind) (job : BitVec 15) (e : TrackEntry) (h : e.isFlow k 0 (some job) = true) :
    (s.track e).flowOpen k job = true :=
  List.any_eq_true.mpr ⟨(_, some e), mem_tset_self none _ _ (some e) (by simp), h⟩

theorem openFlow_open {k : TrackKind} {job : BitVec 15} {s : State} (h : s.flowOpen k job = true) :
    s.openFlow k job = some s := if_pos h

/-- The first message of a flow finds no free tracker entry, or opens the flow and changes the tracker alone. -/
theorem openFlow_full {k : TrackKind} {job : BitVec 15} {s : State} (h : s.flowOpen k job = false)
    (hf : 61440 ≤ s.jup.tracker.length) : s.openFlow k job = none := by
  rw [State.openFlow, if_neg (Bool.eq_false_iff.mp h)]
  exact if_pos hf

theorem openFlow_opens {k : TrackKind} {job : BitVec 15} {s : State} (h : s.flowOpen k job = false)
    (hf : s.jup.tracker.length < 61440) :
    ∃ e, e.isFlow k 0 (some job) = true ∧ s.openFlow k job = some (s.track e) := by
  refine ⟨⟨0, k, some job, s.now .jup + Config.opDeadline k.code, 0, 0⟩, by simp [TrackEntry.isFlow], ?_⟩
  rw [State.openFlow, if_neg (Bool.eq_false_iff.mp h)]
  exact if_neg (Nat.not_le.mpr hf)

/-! ## The judgments of an append (R273, R275, R277, R327) -/

theorem execJournalAppend_reserved {p : Nat} {ws : List Word} {s : State} (h : fld (nthW ws 0) 31 28 = 0 ∨ 3 < fld (nthW ws 0) 31 28) :
    exec (.journalAppend p ws) s = .fault (.unpredictable "R9") := if_pos h

theorem execJournalAppend_kind {p : Nat} {ws : List Word} {s : State} (h1 : 1 ≤ fld (nthW ws 0) 31 28) (h3 : fld (nthW ws 0) 31 28 ≤ 3) :
    exec (.journalAppend p ws) s = .next ((s.consume .jup p mtAppend ws).appendIn p (recordOf ws 0 (s.now .jup))) :=
  if_neg (c := fld (nthW ws 0) 31 28 = 0 ∨ 3 < fld (nthW ws 0) 31 28) (by omega)

theorem appendIn_flow {p : Nat} {r : JrnRec} {s t : State} (h : s.openFlow .journalFlow r.job = some t) :
    s.appendIn p r = if 88 ≤ p then t.appendCopy p r else t.appendOwn p r := by
  rw [State.appendIn, h]

theorem appendIn_noFlow {p : Nat} {r : JrnRec} {s : State} (h : s.openFlow .journalFlow r.job = none) :
    s.appendIn p r = if p < 88 ∧ r.kind = 1 then s.badInput r else s := by
  rw [State.appendIn, h]

/-- An append whose flow is open comes to the judgments with its message taken. -/
theorem execJournalAppend_open {p : Nat} {ws : List Word} {r : JrnRec} {s : State} (hr : r = recordOf ws 0 (s.now .jup))
    (h1 : 1 ≤ fld (nthW ws 0) 31 28) (h3 : fld (nthW ws 0) 31 28 ≤ 3) (ho : s.flowOpen .journalFlow r.job = true) :
    exec (.journalAppend p ws) s = .next (if 88 ≤ p then (s.consume .jup p mtAppend ws).appendCopy p r
      else (s.consume .jup p mtAppend ws).appendOwn p r) := by
  rw [execJournalAppend_kind h1 h3, ← hr, appendIn_flow (openFlow_open ((flowOpen_consume ..).trans ho))]

theorem appendCopy_badCrc {p : Nat} {r : JrnRec} {s : State} (h : r.crcOk = false) : s.appendCopy p r = s.raisePort p cJrnCrc {} := by
  simp [State.appendCopy, h]

theorem appendOwn_badCrc {p : Nat} {r : JrnRec} {s : State} (h : r.crcOk = false) :
    s.appendOwn p r = (s.badInput r).raisePort p cJrnCrc {} := by
  simp [State.appendOwn, h]

/-- A chunk that is durable already, with the same CRC, is only counted, from a die and from the other member alike. -/
theorem appendCopy_twin {p : Nat} {r x : JrnRec} {s : State} (h : r.crcOk = true) (ht : s.durableTwin r = some x) (hx : x.crc = r.crc) :
    s.appendCopy p r = s.ignoreTwin := by
  simp [State.appendCopy, h, ht, hx]

theorem appendOwn_twin {p : Nat} {r x : JrnRec} {s : State} (h : r.crcOk = true) (ht : s.durableTwin r = some x) (hx : x.crc = r.crc) :
    s.appendOwn p r = s.ignoreTwin := by
  simp [State.appendOwn, h, ht, hx]

theorem appendOwn_otherCrc {p : Nat} {r x : JrnRec} {s : State} (h : r.crcOk = true) (ht : s.durableTwin r = some x) (hx : x.crc ≠ r.crc) :
    s.appendOwn p r = (s.badInput r).raisePort p cJrnCrc {} := by
  simp [State.appendOwn, h, ht, hx]

theorem appendCopy_stored {p : Nat} {r : JrnRec} {s : State} (h : r.crcOk = true) (ht : s.durableTwin r = none) (hk : r.kind ≠ 3) :
    s.appendCopy p r = s.storeRecord r true := by
  simp [State.appendCopy, h, ht, hk]

theorem appendOwn_late {p : Nat} {r : JrnRec} {s : State} (h : r.crcOk = true) (ht : s.durableTwin r = none) (hs : s.stepPassed r = true) :
    s.appendOwn p r = (s.addLost r.job r.seqId lostJrnLate).raisePort p cJrnLate {} := by
  simp [State.appendOwn, h, ht, hs]

theorem appendOwn_overQuota {p : Nat} {r : JrnRec} {s : State} (h : r.crcOk = true) (ht : s.durableTwin r = none)
    (hs : s.stepPassed r = false) (hq : (s.jobWord r.job 4).toNat < s.usage r.job + r.bytes) : s.appendOwn p r = s.overQuota r := by
  simp [State.appendOwn, h, ht, hs, hq]

theorem appendOwn_stored {p : Nat} {r : JrnRec} {s : State} (h : r.crcOk = true) (ht : s.durableTwin r = none)
    (hs : s.stepPassed r = false) (hq : s.usage r.job + r.bytes ≤ (s.jobWord r.job 4).toNat) :
    s.appendOwn p r = (s.storeRecord r false).forwardRecord r := by
  simp [State.appendOwn, h, ht, hs, Nat.not_lt.mpr hq]

/-- With no durable record of the chunk there is no twin, whatever the record's KIND. -/
theorem durableTwin_none {r : JrnRec} {s : State} (h : s.jup.journal.any (fun e => sameChunk e.2 r && e.2.durable) = false) :
    s.durableTwin r = none := by
  rw [State.durableTwin, List.find?_eq_none]
  intro x hx
  obtain ⟨e, he, rfl⟩ := List.mem_map.mp hx
  have := List.any_eq_false.mp h e he
  simp_all

/-- The one record of the journal is the twin of an INPUT record of its chunk, once it is durable. -/
theorem durableTwin_single {n : Nat} {r x : JrnRec} {s : State} (hj : s.jup.journal = [(n, x)]) (hd : x.durable = true)
    (hk : r.kind = 1) (hc : sameChunk x r = true) : s.durableTwin r = some x := by
  simp [State.durableTwin, hj, hd, hk, hc]

/-- Settles O41: one equation per judgment, in the order in which `appendOwn` and `appendCopy` make them; the stored record is
read off `storeRecord`, and forwarding it touches only the links. -/
theorem journalRecords : Obligations.JournalRecords := by
  refine ⟨fun p ws s => execJournalAppend_reserved, fun p ws s => execJournalAppend_kind, fun p r s t => appendIn_flow,
    fun p r s => appendIn_noFlow, fun k j s => openFlow_open, fun k j s => openFlow_full, ?opens, fun p r s => appendCopy_stored,
    fun p r s h => ⟨appendCopy_badCrc h, appendOwn_badCrc h⟩, ?badCrc, ?twin, fun p r x s => appendOwn_otherCrc,
    fun p r s h hd => appendOwn_stored h (durableTwin_none hd), fun p r s h hd => appendOwn_late h (durableTwin_none hd),
    fun p r s h hd => appendOwn_overQuota h (durableTwin_none hd), ?stored⟩
  case opens =>
    intro k j s h hf
    obtain ⟨e, he, ho⟩ := openFlow_opens h hf
    exact ⟨s.track e, ho, flowOpen_track s k j e he, rfl, rfl, rfl, rfl, rfl⟩
  case badCrc =>
    intro p ws r s hr h1 h3 hp ho hc
    have hcrc : r.crcOk = false := decide_eq_false (by rw [hr] at hc ⊢; exact hc)
    rw [execJournalAppend_open hr h1 h3 ho, if_neg (Nat.not_le.mpr hp), appendOwn_badCrc hcrc]
  case twin =>
    intro p n x r ws s hr hj hd hk hcrc ho hsame hx
    have ht : (s.consume .jup p mtAppend ws).durableTwin r = some x :=
      (durableTwin_consume ..).trans (durableTwin_single hj hd (by rw [hr]; exact hk) hsame)
    rw [execJournalAppend_open hr (by omega) (by omega) ho, appendCopy_twin hcrc ht hx, appendOwn_twin hcrc ht hx, ite_self]
    rfl
  case stored =>
    intro p ws r s hr h1 h3 hp hcrc ho hd hs hq
    have h := appendOwn_stored (p := p) (s := s.consume .jup p mtAppend ws) hcrc
      ((durableTwin_consume ..).trans (durableTwin_none hd)) ((stepPassed_consume ..).trans hs)
      (by rw [usage_consume, jobWord_consume]; exact hq)
    obtain ⟨q, hstore⟩ := jup_storeRecord (s.consume .jup p mtAppend ws) r
    refine ⟨_, (execJournalAppend_open hr h1 h3 ho).trans (by rw [if_neg (Nat.not_le.mpr hp), h]), ?_⟩
    rw [jup_forwardRecord, tsu_forwardRecord, out_forwardRecord, tsu_storeRecord, out_storeRecord, hstore, journalPlace_consume]
    exact ⟨rfl, rfl, rfl, rfl, rfl, rfl, rfl⟩

end Sys2Proof.Machine
end

section
/-! PROOFS of spec family 00: register, window and append accesses. -/
namespace Sys2Proof.Machine
open Sys2Proof

/-! ## What a fault leaves: the register words and the security state of both devices -/

theorem com_send_held (s : State) (d e : Dev) (n : Nat) (m : Msg) :
    ((s.send d n m).com e).regs = (s.com e).regs ∧ ((s.send d n m).com e).sec = (s.com e).sec := by
  cases d <;> cases e <;> exact ⟨rfl, rfl⟩

theorem com_sendAll_held (s : State) (d e : Dev) (ns : List Nat) (m : Msg) :
    ((s.sendAll d ns m).com e).regs = (s.com e).regs ∧ ((s.sendAll d ns m).com e).sec = (s.com e).sec := by
  induction ns generalizing s with
  | nil => exact ⟨rfl, rfl⟩
  | cons n ns ih => exact ⟨(ih _).1.trans (com_send_held ..).1, (ih _).2.trans (com_send_held ..).2⟩

theorem com_report_held (s : State) (d e : Dev) (ws : List Word) :
    ((s.report d ws).com e).regs = (s.com e).regs ∧ ((s.report d ws).com e).sec = (s.com e).sec := by
  cases d
  · exact com_sendAll_held ..
  · change ((s.logReport ws).com e).regs = (s.com e).regs ∧ ((s.logReport ws).com e).sec = (s.com e).sec
    unfold State.logReport
    split <;> simp

theorem com_modBlock_held (s : State) (d e : Dev) (b : Nat) (f : FaultBlock → FaultBlock) :
    ((s.modBlock d b f).com e).regs = (s.com e).regs ∧ ((s.modBlock d b f).com e).sec = (s.com e).sec := by
  cases d <;> cases e <;> exact ⟨rfl, rfl⟩

theorem com_latchFault_held (s : State) (d e : Dev) (blk : Nat) (code : Code) (ctx : Ctx) :
    ((s.latchFault d blk code ctx).com e).regs = (s.com e).regs ∧ ((s.latchFault d blk code ctx).com e).sec = (s.com e).sec := by
  unfold State.latchFault
  dsimp only
  split <;> split <;> simp only [com_report_held, com_modBlock_held, and_self]

theorem com_readSeverity_held (s : State) (d e : Dev) :
    ((s.readSeverity d).com e).regs = (s.com e).regs ∧ ((s.readSeverity d).com e).sec = (s.com e).sec := by
  unfold State.readSeverity
  split
  · simp only [com_latchFault_held, com_modTsu, and_self]
  · exact ⟨rfl, rfl⟩

theorem com_raiseFault_held (s : State) (d e : Dev) (blk : Nat) (code : Code) (ctx : Ctx) :
    ((s.raiseFault d blk code ctx).com e).regs = (s.com e).regs ∧ ((s.raiseFault d blk code ctx).com e).sec = (s.com e).sec := by
  simp only [State.raiseFault, com_latchFault_held, com_readSeverity_held, and_self]

/-- A denied access counts in DENIED and changes no register word. -/
theorem denied_counts (s : State) (d : Dev) :
    ((s.denied d).com d).regs = (s.com d).regs ∧ ((s.denied d).com d).sec.denied = satInc (s.com d).sec.denied := by
  simp only [State.denied, com_raiseFault_held, com_modSec, and_self]

/-! ## Updates of what both devices hold -/

@[simp] theorem com_modCom (s : State) (d : Dev) (f : Common → Common) : (s.modCom d f).com d = f (s.com d) := com_setCom ..
@[simp] theorem tsu_modCom (s : State) (d : Dev) (f : Common → Common) : (s.modCom d f).tsu = s.tsu := by cases d <;> rfl
@[simp] theorem jup_modCom (s : State) (d : Dev) (f : Common → Common) : (s.modCom d f).jup = s.jup := by cases d <;> rfl
@[simp] theorem out_modCom (s : State) (d : Dev) (f : Common → Common) : (s.modCom d f).out = s.out := by cases d <;> rfl

/-! ## Several sources on one CSR cycle (R463) -/

theorem csrPut_later {s : State} {d : Dev} {src : Src} {off : Nat} {f : State → State} (h : s.csrLater d src off = true) :
    s.csrPut d src off f = s := if_pos h

/-- A write that stands is recorded with its source beside what it stores. -/
theorem csrPut_stands {s : State} {d : Dev} {src : Src} {off : Nat} (f : State → State) (h : s.csrLater d src off = false) :
    ∃ l : Common → List (Nat × Nat), (∀ c, ∀ e ∈ l c, e.1 ≠ off) ∧
      s.csrPut d src off f =
        (f s).modCom d fun c => { c with csrAt := (s.now d).toNat / 8, csrWr := (off, Src.order src) :: l c } := by
  refine ⟨_, fun c e he => ?_, if_neg (Bool.eq_false_iff.mp h)⟩
  split at he
  · simpa using (List.mem_filter.mp he).2
  · cases he

/-- Beside what it stores such a write leaves what it leaves without the note. -/
theorem csrPut_frame {s : State} {d : Dev} {src : Src} {off : Nat} (f : State → State) (h : s.csrLater d src off = false) :
    ((s.csrPut d src off f).com d).regs = ((f s).com d).regs ∧ ((s.csrPut d src off f).com d).sec = ((f s).com d).sec ∧
      (s.csrPut d src off f).now d = (f s).now d ∧ (∀ e, e ≠ d → (s.csrPut d src off f).com e = (f s).com e) ∧
      (s.csrPut d src off f).tsu = (f s).tsu ∧ (s.csrPut d src off f).jup = (f s).jup ∧ (s.csrPut d src off f).out = (f s).out := by
  obtain ⟨l, -, hput⟩ := csrPut_stands f h
  rw [hput, State.now, com_modCom, State.now, com_modCom]
  exact ⟨rfl, rfl, rfl, fun e he => com_setCom_other _ _ _ _ he, tsu_modCom .., jup_modCom .., out_modCom ..⟩

/-- After a write that stands, the sources before it in the order of R463 are too late for the word, and no other. -/
theorem csrLater_csrPut {s : State} {d : Dev} {src : Src} {off : Nat} {f : State → State} (h : s.csrLater d src off = false)
    (hf : (f s).now d = s.now d) (x : Src) :
    (s.csrPut d src off f).csrLater d x off = decide (Src.order x < Src.order src) := by
  obtain ⟨l, hl, hput⟩ := csrPut_stands f h
  have hrest (c : Common) : (l c).any (fun e => decide (e.1 = off ∧ Src.order x < e.2)) = false :=
    List.any_eq_false.mpr fun e he => by simp [hl c e he]
  obtain ⟨-, -, hnow, -⟩ := csrPut_frame f h
  rw [State.csrLater, hnow.trans hf, hput, com_modCom]
  simp only [List.any_cons, hrest, decide_true, true_and, Bool.true_and, Bool.or_false]

/-! ## Which accesses reach a word (R380, R433, R442) -/

theorem jtagBarred_otherSource {src : Src} (h : src ≠ .jtag) (s : State) (d : Dev) (off : Nat) : s.jtagBarred d src off = false := by
  simp [State.jtagBarred, h]

theorem jtagBarred_noSession {s : State} {d : Dev} {off : Nat} (hoff : 0x100 ≤ off) (h : (s.com d).sec.session = .none) :
    s.jtagBarred d .jtag off = true := by
  have : ¬ off < 0xA8 ∧ ¬ off < 0x100 := by omega
  cases d <;> simp_all [State.jtagBarred]

theorem execRegisterWrite_unreached {d : Dev} {src : Src} {off : Nat} {st : BitVec 4} {v : Half} {s : State}
    (h : off % 4 ≠ 0 ∨ (d = .tsu ∧ st ≠ 0xF) ∨ (d = .jup ∧ src = .host ∧ s.jup.pcieReset = true)) :
    exec (.registerWrite d src off st v) s = .next s := by
  have hu : s.unreached d src off st = true := by
    rcases h with h | ⟨rfl, h⟩ | ⟨rfl, rfl, h⟩
    · simp [State.unreached, h]
    · exact (Bool.or_eq_true ..).mpr (.inr (decide_eq_true h))
    · simp [State.unreached, h]
  exact if_pos hu

theorem execRegisterWrite_jtagClosed {d : Dev} {off : Nat} {v : Half} {s : State} (ha : off % 4 = 0) (hoff : 0x100 ≤ off)
    (h : (s.com d).sec.session = .none) : exec (.registerWrite d .jtag off 0xF v) s = .next (s.denied d) := by
  have hu : s.unreached d .jtag off 0xF = false := by cases d <;> simp [State.unreached, ha]
  change execRegisterWrite d .jtag off 0xF v s = _
  rw [execRegisterWrite, hu, if_neg Bool.false_ne_true, State.portWrite, if_pos (jtagBarred_noSession hoff h)]

/-- A full, aligned write of a TSU word that is no command port's CTRL. -/
theorem execRegisterWrite_tsu {src : Src} {off : Nat} {v : Half} {s : State} (hj : src ≠ .jtag) (ha : off % 4 = 0)
    (hc : ctrlPort .tsu off = none) : exec (.registerWrite .tsu src off 0xF v) s = s.regWrite .tsu src off v := by
  have hu : s.unreached .tsu src off 0xF = false := by simp [State.unreached, ha]
  change execRegisterWrite .tsu src off 0xF v s = _
  rw [execRegisterWrite, hu, if_neg Bool.false_ne_true, State.portWrite, jtagBarred_otherSource hj, if_neg Bool.false_ne_true, hc]
  rfl

/-! ## Writes of a plain word (R9, R369, R461) -/

theorem regWrite_reserved {s : State} {d : Dev} {src : Src} {off : Nat} {v : Half} {r : RegRow} (hj : src ≠ .jtag)
    (hr : regRow d off = some r) (hv : v &&& ~~~wordMask d off r ≠ 0) : s.regWrite d src off v = .fault (.unpredictable "R9") := by
  unfold State.regWrite
  simp only [hr, jtagBarred_otherSource hj, Bool.false_eq_true, if_false, if_pos hv]

/-- A TSU word that is no select register, no data register of a window and no control word of a link. -/
def plainTsuWord (off : Nat) : Prop := selectReg .tsu off = false ∧ winOf .tsu off = none ∧ ctrlLink .tsu off = none

/-- Such a word with no effect of its own is stored by its row, where no later source has written it on this CSR cycle. -/
theorem regWrite_plain {s : State} {src : Src} {off : Nat} {v : Half} {r : RegRow} (hp : plainTsuWord off) (hj : src ≠ .jtag)
    (hr : regRow .tsu off = some r) (hv : v &&& ~~~wordMask .tsu off r = 0) (he : s.writeError .tsu src off v = none)
    (ha : s.actWrite .tsu src off v = none) (hs : s.tsuSpecial src off v = none) :
    s.regWrite .tsu src off v = .next (s.csrPut .tsu src off fun s => s.plainWrite .tsu src off v r) := by
  obtain ⟨hsel, hwin, hlink⟩ := hp
  rw [State.regWrite, hr]
  simp only [jtagBarred_otherSource hj, hv, he, ha, hs, hsel, hwin, hlink, Bool.false_eq_true, if_false, ne_eq, not_true_eq_false]

/-! ### CMD_LEAD, which stands for the plain RWL words (R411) -/

/-- CMD_LEAD: every bit is assigned, and RWL. -/
def cmdLeadRow : RegRow := { base := 0x6008, mask := fullMask, rwl := fullMask, reset := 0x460 }

theorem and_fullMask (v : Half) : v &&& fullMask = v := BitVec.and_allOnes

theorem regRow_cmdLead : regRow .tsu 0x6008 = some cmdLeadRow := by decide +kernel

/-- TSU_PWR_CFG: bits 15 to 3 are reserved. -/
theorem regRow_pwrCfg :
    regRow .tsu 0x6004 = some { base := 0x6004, mask := 0xFFFF0007, rwl := 0xFFFF0007, reset := 0x00400004 } := by decide +kernel

theorem plainTsuWord_cmdLead : plainTsuWord 0x6008 := ⟨rfl, by decide +kernel, rfl⟩

theorem writeError_cmdLead (s : State) (src : Src) (v : Half) : s.writeError .tsu src 0x6008 v = none := by
  simp [State.writeError, crBase, nPulses, pulseBase]

theorem actWrite_cmdLead (s : State) (src : Src) (v : Half) : s.actWrite .tsu src 0x6008 v = none := by
  simp [State.actWrite, crBase]

theorem tsuSpecial_cmdLead (s : State) (src : Src) (v : Half) : s.tsuSpecial src 0x6008 v = none := by
  simp [State.tsuSpecial]

theorem regChanged_cmdLead (s : State) (old : Half) : s.regChanged .tsu 0x6008 old = s := by
  have hp : pulseOfCfg .tsu 0x6008 = none := by decide
  simp [State.regChanged, vrnBase, hp]

/-- No source has a bit of it for itself, so a write stores through the RWL guard alone: where the guard lets it, the whole
word. -/
theorem plainWrite_cmdLead (s : State) (src : Src) (v : Half) :
    s.plainWrite .tsu src 0x6008 v cmdLeadRow =
      (s.setReg .tsu 0x6008 (s.reg .tsu 0x6008)).rwlGuard .tsu src (decide (v ≠ s.reg .tsu 0x6008)) (State.setReg · .tsu 0x6008 v) := by
  have himg : imgBits .tsu src 0x6008 cmdLeadRow = 0 := by unfold imgBits; exact ite_self _
  have hkeep : s.keepLock .tsu 0x6008 v = v := by simp [State.keepLock]
  have hch : (s.reg .tsu 0x6008 ^^^ v) &&& fullMask ≠ 0 ↔ v ≠ s.reg .tsu 0x6008 := by
    rw [and_fullMask]
    exact not_congr (BitVec.xor_eq_zero_iff.trans eq_comm)
  have hkept (old : Half) : (old &&& ~~~(0 ||| 0) ||| v &&& (0 ||| 0)) = old := by
    rw [show (~~~(0 ||| 0) : Half) = fullMask from rfl, and_fullMask]; simp
  have hnew (old : Half) : (old &&& ~~~fullMask ||| v &&& fullMask) = v := by
    rw [show ~~~fullMask = 0 from rfl, and_fullMask]; simp
  unfold State.plainWrite
  dsimp only
  rw [regChanged_cmdLead, hkeep, himg]
  simp only [cmdLeadRow, hch, hkept, hnew]

theorem execRegisterWrite_cmdLead {src : Src} (hj : src ≠ .jtag) (v : Half) (s : State) :
    exec (.registerWrite .tsu src 0x6008 0xF v) s =
      .next (s.csrPut .tsu src 0x6008 fun s => s.plainWrite .tsu src 0x6008 v cmdLeadRow) := by
  rw [execRegisterWrite_tsu hj (by decide) (by decide)]
  exact regWrite_plain plainTsuWord_cmdLead hj regRow_cmdLead (by simp [wordMask, cmdLeadRow, fullMask]) (writeError_cmdLead ..)
    (actWrite_cmdLead ..) (tsuSpecial_cmdLead ..)

/-! ### Rights (R369, R380) -/

/-- An RWL field before the seal, and after it from an image or a commit group. -/
theorem rwlGuard_free {s : State} {d : Dev} {src : Src} (h : src = .image ∨ src = .cg ∨ (s.com d).sec.sealedImg = false)
    (changes : Bool) (f : State → State) : s.rwlGuard d src changes f = f s := by
  rcases h with rfl | rfl | h
  · simp [State.rwlGuard, State.rwlOpen]
  · simp [State.rwlGuard, State.rwlOpen]
  · simp [State.rwlGuard, State.rwlOpen, h]

/-- A sealed RWL field that the host would change. -/
theorem rwlGuard_host_sealed {s : State} {d : Dev} (hs : (s.com d).sec.sealedImg = true) (hl : (s.com d).sec.level ≠ .opened)
    (f : State → State) : s.rwlGuard d .host true f = s.denied d := by
  simp [State.rwlGuard, State.rwlOpen, hs, hl]

/-- The write carried out: the word is stored, over its own value. -/
theorem plainWrite_cmdLead_free {s : State} {src : Src} (v : Half) (h : src = .image ∨ src = .cg ∨ s.tsuC.sec.sealedImg = false) :
    s.plainWrite .tsu src 0x6008 v cmdLeadRow = (s.setReg .tsu 0x6008 (s.reg .tsu 0x6008)).setReg .tsu 0x6008 v := by
  rw [plainWrite_cmdLead, rwlGuard_free (by rw [com_setReg]; exact h)]

/-- The write that the seal bars to the host: the word keeps its value. -/
theorem plainWrite_cmdLead_sealed {s : State} {v : Half} (hs : s.tsuC.sec.sealedImg = true) (hl : s.tsuC.sec.level ≠ .opened)
    (hv : v ≠ s.reg .tsu 0x6008) :
    s.plainWrite .tsu .host 0x6008 v cmdLeadRow = (s.setReg .tsu 0x6008 (s.reg .tsu 0x6008)).denied .tsu := by
  rw [plainWrite_cmdLead, decide_eq_true hv,
    rwlGuard_host_sealed (by rw [com_setReg]; exact hs) (by rw [com_setReg]; exact hl)]

theorem reg_of_regs {s t : State} {d : Dev} (h : (t.com d).regs = (s.com d).regs) (o : Nat) : t.reg d o = s.reg d o := by
  rw [State.reg, h, State.reg]

theorem reg_rewrite {s : State} {d : Dev} {off : Nat} (u v : Half) (h : tok (regReset d) none (s.com d).regs = true) :
    ((s.setReg d off u).setReg d off v).reg d off = v :=
  reg_setReg _ _ _ _ (by rw [com_setReg]; exact tok_tset _ _ _ _ none h (by intro l hl; cases hl))

theorem reg_rewrite_other {s : State} {d : Dev} {o off : Nat} (u v : Half) (h : o ≠ off) :
    ((s.setReg d off u).setReg d off v).reg d o = s.reg d o :=
  (reg_setReg_other _ _ _ _ _ h).trans (reg_setReg_other _ _ _ _ _ h)

/-- A word of the TSU is stored over, and nothing else is. -/
theorem rewrite_frame (s : State) (off : Nat) (u v : Half) :
    ((s.setReg .tsu off u).setReg .tsu off v).tsuC.sec = s.tsuC.sec ∧
      ((s.setReg .tsu off u).setReg .tsu off v).now .tsu = s.now .tsu ∧
      ((s.setReg .tsu off u).setReg .tsu off v).jupC = s.jupC ∧ ((s.setReg .tsu off u).setReg .tsu off v).tsu = s.tsu ∧
      ((s.setReg .tsu off u).setReg .tsu off v).jup = s.jup ∧ ((s.setReg .tsu off u).setReg .tsu off v).out = s.out :=
  ⟨rfl, rfl, rfl, rfl, rfl, rfl⟩

/-- A denied write leaves the word, and counts once. -/
theorem denied_rewrite {s : State} {d : Dev} {off : Nat} (u : Half) (h : tok (regReset d) none (s.com d).regs = true) :
    ((s.setReg d off u).denied d).reg d off = u ∧
      (((s.setReg d off u).denied d).com d).sec.denied = satInc (s.com d).sec.denied := by
  obtain ⟨hregs, hcount⟩ := denied_counts (s.setReg d off u) d
  refine ⟨(reg_of_regs hregs off).trans (reg_setReg _ _ _ _ h), ?_⟩
  rw [hcount, com_setReg]

/-! ## Reads with an effect (R61, R169) -/

theorem execSplitReadLatch_lo {d : Dev} {off : Nat} {s : State} (h : splitLo d off = true) :
    exec (.splitReadLatch d off) s = .next ((s.setWin d .host (off + 4) (s.regNow d .host (off + 4))).modCom d fun c =>
      { c with rdata := (s.readReg d .host off).setWidth 64 }) := by
  change execSplitReadLatch d off s = _
  rw [execSplitReadLatch, h]; rfl

theorem execSplitReadLatch_plain {d : Dev} {off : Nat} {s : State} (h : splitLo d off = false) :
    exec (.splitReadLatch d off) s = .next (s.modCom d fun c => { c with rdata := (s.readReg d .host off).setWidth 64 }) := by
  change execSplitReadLatch d off s = _
  rw [execSplitReadLatch, h]; rfl

theorem win_setWin {s : State} {d : Dev} (src : Src) (off : Nat) (v : Half) (h : Table.wf 0 (s.com d).win = true) :
    (s.setWin d src off v).win d src off = v := by
  rw [State.win, State.setWin, com_modCom]
  exact tget_tset_same _ _ _ _ h

/-! ## The indexed windows (R466) -/

/-- Past the last data register of a window a read gives 0 and a write does nothing. -/
theorem execIndexedWindowAccess_outside {d : Dev} {src : Src} {w : Win} {i : Nat} {s : State} (h : winCount d w ≤ i) :
    exec (.indexedWindowAccess d src w i none) s = .next (s.modCom d fun c => { c with rdata := 0 }) ∧
    ∀ v, exec (.indexedWindowAccess d src w i (some v)) s = .next s := by
  have ho : (!winHere d w || decide (winCount d w ≤ i)) = true := by simp [h]
  exact ⟨if_pos ho, fun v => if_pos ho⟩

/-- Within a window of the device an access from another source than JTAG is a read or a write of the entry selected. -/
theorem execIndexedWindowAccess_inside {d : Dev} {src : Src} {w : Win} {i : Nat} {s : State} (hw : winHere d w = true)
    (h : i < winCount d w) (hj : src ≠ .jtag) :
    exec (.indexedWindowAccess d src w i none) s = .next (s.winRead d src w i) ∧
    ∀ v, exec (.indexedWindowAccess d src w i (some v)) s = s.winWrite d src w i v := by
  have ho : ¬ (!winHere d w || decide (winCount d w ≤ i)) = true := by simp [hw, h]
  have hb : ¬ s.jtagBarred d src (winData d w i) = true := by simp [jtagBarred_otherSource hj]
  exact ⟨(if_neg ho).trans (if_neg hb), fun v => (if_neg ho).trans (if_neg hb)⟩

theorem winWrite_accepted {s : State} {d : Dev} {src : Src} {w : Win} {i : Nat} {v : Half} (hr : winReserved w i v = false)
    (he : s.winError d src w i v = none) :
    s.winWrite d src w i v = .next (((s.winPut d src w i v).setWin d src (winData d w i) v).winStep d src w i true) := by
  rw [State.winWrite, hr, he]; rfl

/-- The index of a window moves in its select register alone. -/
theorem winStep_frame (s : State) (src : Src) (w : Win) (i : Nat) (write : Bool) :
    (s.winStep .jup src w i write).tsuC = s.tsuC ∧ (s.winStep .jup src w i write).tsu = s.tsu ∧
      (s.winStep .jup src w i write).jup = s.jup := by
  unfold State.winStep
  dsimp only
  split <;> exact ⟨rfl, rfl, rfl⟩

/-! ## The append window (R273, R412, R433) -/

theorem execAppendWindowWrite_off {ws : List Word} {s : State} (h : s.mainOff = true) : exec (.appendWindowWrite ws) s = .next s := by
  change execAppendWindowWrite ws s = _
  rw [execAppendWindowWrite, State.mainIn, h]; rfl

theorem execAppendWindowWrite_on {ws : List Word} {s : State} (h : s.mainOff = false) :
    exec (.appendWindowWrite ws) s = .next (s.frameAppend ws) := by
  change execAppendWindowWrite ws s = _
  rw [execAppendWindowWrite, State.mainIn, h]; rfl

theorem frameAppend_short {ws : List Word} {s : State} (h : ws.length < recordLen ws) : s.frameAppend ws = s := if_pos h

theorem frameAppend_whole {ws : List Word} {c : Nat} {s : State} (h : recordLen ws = ws.length)
    (hc : s.chanOfRank ((nthW ws 0).extractLsb' 49 15) ((nthW ws 0).extractLsb' 32 17) = some c) :
    s.frameAppend ws = s.send .tsu (s.upOf c) (appendMsg ((nthW ws 0).extractLsb' 49 15) ws) := by
  simp [State.frameAppend, h, hc]

/-- Settles O56: a write of CMD_LEAD comes down to one guarded store noted for its CSR cycle, so that what stands of it is read
off `rwlGuard` and `csrPut`; every other access has one equation per case. -/
theorem registersAccessed : Obligations.RegistersAccessed := by
  refine ⟨fun d src off st v s => execRegisterWrite_unreached, fun d off v s => execRegisterWrite_jtagClosed, ?stored, ?later,
    ?order, ?afterSeal, ?group, ?reserved, ?htc, ?latch, fun d off s => execSplitReadLatch_plain,
    fun d src w i v s h => ⟨(execIndexedWindowAccess_outside h).1, (execIndexedWindowAccess_outside h).2 v⟩,
    fun d src w i s hw h hj => (execIndexedWindowAccess_inside hw h hj).1, ?winRead, ?winWrite, ?short,
    fun ws s => execAppendWindowWrite_off, ?whole⟩
  case stored =>
    intro src v s hj hs hl hreg
    obtain ⟨hregs, hsec, -, hcom, htsu, hjup, hout⟩ := csrPut_frame (fun s => s.plainWrite .tsu src 0x6008 v cmdLeadRow) hl
    rw [plainWrite_cmdLead_free v (.inr (.inr hs))] at hregs hsec hcom htsu hjup hout
    obtain ⟨ksec, -, kjupC, ktsu, kjup, kout⟩ := rewrite_frame s 0x6008 (s.reg .tsu 0x6008) v
    exact ⟨_, execRegisterWrite_cmdLead hj v s, (reg_of_regs hregs _).trans (reg_rewrite _ v hreg),
      fun o ho => (reg_of_regs hregs o).trans (reg_rewrite_other _ v ho), htsu.trans ktsu, (hcom .jup (by decide)).trans kjupC,
      hjup.trans kjup, hout.trans kout, hsec.trans ksec⟩
  case later =>
    intro src v s hj hl
    rw [execRegisterWrite_cmdLead hj, csrPut_later hl]
  case order =>
    intro v s hs hl
    have hnow : (s.plainWrite .tsu .host 0x6008 v cmdLeadRow).now .tsu = s.now .tsu := by
      obtain ⟨-, htick, -⟩ := rewrite_frame s 0x6008 (s.reg .tsu 0x6008) v
      rw [plainWrite_cmdLead_free v (.inr (.inr hs)), htick]
    have hlater := csrLater_csrPut (f := fun s => s.plainWrite .tsu .host 0x6008 v cmdLeadRow) hl hnow
    obtain ⟨-, -, hput, -⟩ := csrPut_frame (fun s => s.plainWrite .tsu .host 0x6008 v cmdLeadRow) hl
    exact ⟨_, execRegisterWrite_cmdLead (by decide) v s, (hlater .cg).trans rfl, (hlater .image).trans rfl,
      (hlater .host).trans rfl, hput.trans hnow⟩
  case afterSeal =>
    intro v s hs hlevel hv hl hreg
    obtain ⟨hregs, hsec, -⟩ := csrPut_frame (fun s => s.plainWrite .tsu .host 0x6008 v cmdLeadRow) hl
    obtain ⟨hkept, hcount⟩ := denied_rewrite (off := 0x6008) (s.reg .tsu 0x6008) hreg
    rw [plainWrite_cmdLead_sealed hs hlevel hv] at hregs hsec
    exact ⟨_, execRegisterWrite_cmdLead (by decide) v s, (reg_of_regs hregs _).trans hkept,
      (congrArg Security.denied hsec).trans hcount⟩
  case group =>
    intro v s hl hreg
    obtain ⟨hregs, -⟩ := csrPut_frame (fun s => s.plainWrite .tsu .cg 0x6008 v cmdLeadRow) hl
    rw [plainWrite_cmdLead_free v (.inr (.inl rfl))] at hregs
    exact ⟨_, execRegisterWrite_cmdLead (by decide) v s, (reg_of_regs hregs _).trans (reg_rewrite _ v hreg)⟩
  case reserved =>
    intro v s hv
    rw [execRegisterWrite_tsu (by decide) (by decide) (by decide)]
    exact regWrite_reserved (by decide) regRow_pwrCfg hv
  case htc =>
    intro d s
    refine ⟨_, rfl, ?_⟩
    cases d <;> exact ⟨rfl, rfl, rfl, rfl, rfl, rfl⟩
  case latch =>
    intro d off s h
    refine ⟨_, execSplitReadLatch_lo h, ?_⟩
    cases d <;> exact ⟨rfl, rfl, rfl, rfl, win_setWin .host (off + 4) _⟩
  case winRead =>
    intro d src w i s hw h hj hd
    subst hd
    obtain ⟨htsuC, htsu, hjup⟩ := winStep_frame s src w i false
    exact ⟨_, (execIndexedWindowAccess_inside hw h hj).1, rfl, htsuC, htsu, hjup⟩
  case winWrite =>
    intro d src w i v s hw h hj hr he
    rw [(execIndexedWindowAccess_inside hw h hj).2, winWrite_accepted hr he]
  case short =>
    intro ws s h
    cases hm : s.mainOff
    · rw [execAppendWindowWrite_on hm, frameAppend_short h]
    · exact execAppendWindowWrite_off hm
  case whole =>
    intro ws c s hm hlen hc
    rw [execAppendWindowWrite_on hm, frameAppend_whole hlen hc]

end Sys2Proof.Machine
end

section
/-! PROOFS of spec family 02: events that are due, and links read back. -/
namespace Sys2Proof.Machine
open Sys2Proof

/-! ## Events that are due, and events that are not -/

theorem due_of {s : State} {b : Bool} {f : State → State} (h : b = true) : s.due b f = .next (f s) := by rw [h, due_true]
theorem due_unless {s : State} {b : Bool} {f : State → State} (h : b = false) : s.due b f = .next s := by rw [h, due_false]

/-! ## Links read back -/

/-- A link that is not as after reset reads as it was written. -/
theorem link_modLink {s : State} {d : Dev} {n : Nat} {f : Link → Link} (h : f (s.link d n) ≠ {}) :
    (s.modLink d n f).link d n = f (s.link d n) := by
  rw [State.link, com_modLink]
  exact tget_tset_ne _ _ _ _ h

theorem link_modLink_other {s : State} {d : Dev} {n k : Nat} {f : Link → Link} (h : k ≠ n) : (s.modLink d n f).link d k = s.link d k := by
  rw [State.link, com_modLink]
  exact tget_tset_other _ _ _ _ _ h

theorem link_modTx {s : State} {d : Dev} {n : Nat} {f : LinkTx → LinkTx} (h : { s.link d n with tx := f (s.link d n).tx } ≠ ({} : Link)) :
    (s.modTx d n f).link d n = { s.link d n with tx := f (s.link d n).tx } := link_modLink h
theorem link_modLt {s : State} {d : Dev} {n : Nat} {f : LinkTime → LinkTime}
    (h : { s.link d n with time := f (s.link d n).time } ≠ ({} : Link)) :
    (s.modLt d n f).link d n = { s.link d n with time := f (s.link d n).time } := link_modLink h
theorem link_modCtl {s : State} {d : Dev} {n : Nat} {f : LinkCtl → LinkCtl}
    (h : { s.link d n with ctl := f (s.link d n).ctl } ≠ ({} : Link)) :
    (s.modCtl d n f).link d n = { s.link d n with ctl := f (s.link d n).ctl } := link_modLink h
theorem link_modAsym {s : State} {d : Dev} {n : Nat} {f : Asym → Asym}
    (h : { s.link d n with asym := f (s.link d n).asym } ≠ ({} : Link)) :
    (s.modAsym d n f).link d n = { s.link d n with asym := f (s.link d n).asym } := link_modLink h

end Sys2Proof.Machine
end

section
/-! PROOFS of spec family 02: the UTC mapping record and the NTPv4 service. -/
namespace Sys2Proof.Machine
open Sys2Proof

/-! ## The mapping record (R62, R63) -/

theorem execMappingApply_boundary {s : State} (hn : s.jup.mapNext.isSome = true) (hb : (s.now .jup).toNat % 1600000000 = 0) :
    exec .mappingApply s = .next (s.modJup fun j => { j with mapCur := j.mapNext, mapNext := none }) := by
  change execMappingApply s = _
  exact due_of (by rw [hn, Bool.true_and]; exact decide_eq_true hb)

theorem execMappingApply_between {s : State} (hb : (s.now .jup).toNat % 1600000000 ≠ 0) : exec .mappingApply s = .next s := by
  change execMappingApply s = _
  exact due_unless (by rw [Bool.and_eq_false_iff]; exact .inr (decide_eq_false hb))

theorem execMappingApply_nothing {s : State} (hn : s.jup.mapNext = none) : exec .mappingApply s = .next s := by
  change execMappingApply s = _
  exact due_unless (by rw [hn]; rfl)

theorem execMappingHoldover_aged {s : State} (h : s.jup.mapTick.toNat + 6400000000 ≤ (s.now .jup).toNat) :
    exec .mappingHoldover s = .next (s.modJup fun j => { j with mapHold := true }) := by
  change execMappingHoldover s = _
  exact due_of (decide_eq_true h)

theorem execMappingHoldover_fresh {s : State} (h : (s.now .jup).toNat < s.jup.mapTick.toNat + 6400000000) :
    exec .mappingHoldover s = .next s := by
  change execMappingHoldover s = _
  exact due_unless (decide_eq_false (Nat.not_le.mpr h))

/-- A record held over is served as HOLDOVER, another one with the quality that it names. -/
theorem servedQuality_holdover {s : State} {r : MapRec} (hr : s.jup.mapCur = some r) (hh : s.jup.mapHold = true) :
    s.servedQuality = 1 := by simp [State.servedQuality, hr, hh]
theorem servedQuality_current {s : State} {r : MapRec} (hr : s.jup.mapCur = some r) (hh : s.jup.mapHold = false) :
    s.servedQuality = r.quality.toNat := by simp [State.servedQuality, hr, hh]

/-- Settles O6: the two events of R63 have one equation where they are due and one where they are not. -/
theorem mappingApplied : Obligations.MappingApplied := by
  refine ⟨?applies, fun s => execMappingApply_between, fun s => execMappingApply_nothing, fun s => execMappingHoldover_aged,
    fun s => execMappingHoldover_fresh, fun s r => servedQuality_holdover, fun s r => servedQuality_current⟩
  case applies =>
    intro s r hr hb
    rw [execMappingApply_boundary (by rw [hr]; rfl) hb, State.modJup, hr]

/-! ## Publication and labels (R62) -/

/-- The second since the last publication is over, or nothing has been published. -/
theorem publishDue_of {s : State} (hm : s.rootMaster .jup = true)
    (ht : s.jup.pubTick = none ∨ ∃ p, s.jup.pubTick = some p ∧ p.toNat + 1600000000 ≤ (s.now .jup).toNat) : s.publishDue = true := by
  rw [State.publishDue, hm, Bool.true_and]
  rcases ht with ht | ⟨p, ht, hp⟩
  · rw [ht]
  · rw [ht]; exact decide_eq_true hp

theorem execMappingPublish_due {s : State} (h : s.publishDue = true) :
    exec .mappingPublish s = .next (((s.emit (.mapping s.mapRecord)).mapArrive s.mapRecord).modJup fun j =>
      { j with pubTick := some (s.now .jup), pubSeq := j.pubSeq + 1 }) := by
  change execMappingPublish s = _
  exact due_of h

theorem execMappingPublish_elsewhere {s : State} (h : s.rootMaster .jup = false) : exec .mappingPublish s = .next s := by
  change execMappingPublish s = _
  exact due_unless (by rw [State.publishDue, h, Bool.false_and])

theorem execSetTod_master {h : Hdr} {sec : BitVec 48} {utc : BitVec 16} {leap : BitVec 2} {s s' : State} {hd : Half} (hl : leap ≠ 3)
    (ha : s.accept .jup h opSetTod = (s', some hd)) (hm : s'.rootMaster .jup = true) :
    exec (.setTod h sec utc leap) s = .next (s'.modJup fun j => { j with tod := some (sec, utc, leap, hd) }) := by
  change execSetTod h sec utc leap s = _
  rw [execSetTod, if_neg hl, withHandle_accepted _ _ _ _ _ _ _ _ _ ha, if_pos hm]

theorem execSetTod_elsewhere {h : Hdr} {sec : BitVec 48} {utc : BitVec 16} {leap : BitVec 2} {s s' : State} {hd : Half} (hl : leap ≠ 3)
    (ha : s.accept .jup h opSetTod = (s', some hd)) (hm : s'.rootMaster .jup = false) :
    exec (.setTod h sec utc leap) s = .next (s'.post .jup hd stNotMaster []) := by
  change execSetTod h sec utc leap s = _
  rw [execSetTod, if_neg hl, withHandle_accepted _ _ _ _ _ _ _ _ _ ha, if_neg (by simp [hm])]

/-! ## The NTPv4 service (R64) -/

theorem execNtpRequest_otherMode {m : BitVec 3} {key : Option (BitVec 16 × BitVec 128)} {body : List Word} {s : State} (hm : m ≠ 3) :
    exec (.ntpRequest m key body) s = .next s := by
  change execNtpRequest m key body s = _
  rw [execNtpRequest, if_pos hm]

theorem execNtpRequest_authentic {key : Option (BitVec 16 × BitVec 128)} {body : List Word} {s : State} (ha : s.ntpAuth key body = true) :
    exec (.ntpRequest 3 key body) s = .next (s.ntpServe key body) := by
  change execNtpRequest 3 key body s = _
  rw [execNtpRequest, if_neg (by simp), if_pos ha]

theorem execNtpRequest_unauthentic {key : Option (BitVec 16 × BitVec 128)} {body : List Word} {s : State}
    (ha : s.ntpAuth key body = false) :
    exec (.ntpRequest 3 key body) s = .next (s.modJup fun j => { j with ntpAuthFail := j.ntpAuthFail + 1 }) := by
  change execNtpRequest 3 key body s = _
  rw [execNtpRequest, if_neg (by simp), if_neg (by simp [ha])]

/-- Fewer than 2,000 requests have been answered in the second that runs. -/
theorem ntpServe_answered {key : Option (BitVec 16 × BitVec 128)} {body : List Word} {s : State}
    (hu : s.jup.ntpSecond ≠ (s.now .jup).toNat / 1600000000 ∨ s.jup.ntpInSecond < 2000) :
    ∃ n, s.ntpServe key body = (s.fresh.2.modJup fun j => { j with
      ntpAnswered := j.ntpAnswered + 1, ntpSecond := (s.now .jup).toNat / 1600000000, ntpInSecond := n }).emit
        (.ntpReply (s.ntpAnswer key s.fresh.1 body)) := by
  have hlt : (if s.jup.ntpSecond = s.nowN .jup / second then s.jup.ntpInSecond else 0) < 2000 := by
    split
    · rename_i heq
      exact hu.resolve_left (absurd heq)
    · decide
  exact ⟨_, if_pos hlt⟩

theorem ntpServe_dropped {key : Option (BitVec 16 × BitVec 128)} {body : List Word} {s : State}
    (hs : s.jup.ntpSecond = (s.now .jup).toNat / 1600000000) (hu : 2000 ≤ s.jup.ntpInSecond) :
    s.ntpServe key body = s.modJup fun j => { j with ntpDropped := j.ntpDropped + 1 } := by
  have hge : ¬ (if s.jup.ntpSecond = s.nowN .jup / second then s.jup.ntpInSecond else 0) < 2000 := by
    rw [if_pos (show s.jup.ntpSecond = s.nowN .jup / second from hs)]
    exact Nat.not_lt.mpr hu
  exact if_neg hge

/-- While the served quality is not FREE an answer has stratum 1 and the reference ID HALL. -/
theorem ntpAnswer_source {s : State} (hq : s.servedQuality ≠ 2) (key : Option (BitVec 16 × BitVec 128)) (v : BitVec 64) (body : List Word) :
    (s.ntpAnswer key v body).stratum = 1 ∧ (s.ntpAnswer key v body).refId = 0x48414C4C := by
  unfold State.ntpAnswer
  split
  · exact absurd ‹_› hq
  · exact ⟨rfl, rfl⟩
  · exact ⟨rfl, rfl⟩

/-- Settles O5: each event, command and request has one equation per case; what it leaves is read off the state it answers. -/
theorem utcServed : Obligations.UtcServed := by
  refine ⟨?applies, ?ages, ?publishes, fun s => execMappingPublish_elsewhere, ?arrives, fun h sec utc leap s s' hd => execSetTod_master,
    fun h sec utc leap s s' hd => execSetTod_elsewhere, fun h sec utc s => rfl, ?answered,
    fun s key v body => ⟨rfl, rfl, rfl, fun hq => ntpAnswer_source hq key v body, ?noMac⟩, ?dropped,
    fun s key body => execNtpRequest_unauthentic, fun s m key body => execNtpRequest_otherMode⟩
  case applies =>
    intro s hn hb
    exact ⟨_, execMappingApply_boundary hn hb, rfl, rfl, rfl, rfl, rfl, rfl, rfl, rfl⟩
  case ages =>
    intro s h
    refine ⟨_, execMappingHoldover_aged h, rfl, rfl, fun hc => ?_, rfl, rfl, rfl, rfl⟩
    obtain ⟨r, hr⟩ := Option.isSome_iff_exists.mp hc
    exact servedQuality_holdover hr rfl
  case publishes =>
    intro s hm ht
    exact ⟨_, execMappingPublish_due (publishDue_of hm ht), rfl, rfl, rfl, rfl, rfl, rfl, rfl⟩
  case arrives =>
    intro s r
    exact ⟨s.mapArrive r, rfl, rfl, rfl, rfl, rfl, rfl, rfl⟩
  case answered =>
    intro s key body ha hu
    obtain ⟨n, hserve⟩ := ntpServe_answered (key := key) (body := body) hu
    exact ⟨_, (execNtpRequest_authentic ha).trans (congrArg _ hserve), rfl, rfl, rfl, rfl, rfl⟩
  case noMac =>
    rintro rfl
    rfl
  case dropped =>
    intro s key body ha hs hu
    rw [execNtpRequest_authentic ha, ntpServe_dropped hs hu]; rfl

end Sys2Proof.Machine
end

section
/-! PROOFS of spec family 02: measuring a link, and the swaps of the asymmetry banks. -/
namespace Sys2Proof.Machine
open Sys2Proof

/-! ## A link under measurement -/

theorem link_ne_of_reflect {l : Link} {hd : Half} (h : l.asym.reflect = some hd) : l ≠ {} := by rintro rfl; cases h
theorem link_ne_of_medium {l : Link} {med : Int} (h : l.asym.medium = some med) : l ≠ {} := by rintro rfl; cases h

/-! ## MEASURE_LINK (R50, R51) -/

/-- An accepted MEASURE_LINK without reflection reports the averages of the port's link. -/
theorem execMeasureLink_report {h : Hdr} {port : BitVec 7} {sel : Bool} {s s' : State} {hd : Half}
    (ha : s.accept .jup h opMeasureLink (light := true) = (s', some hd)) :
    exec (.measureLink h port false sel) s = .next (s'.post .jup hd stOk
      [put 64 63 32 (BitVec.ofInt 32 (s'.link .jup port.toNat).time.offset).toNat |||
         put 64 31 0 (BitVec.ofInt 32 (s'.link .jup port.toNat).time.rtd).toNat,
       put 64 63 32 (BitVec.ofInt 32 (s'.link .jup port.toNat).time.asym).toNat]) := by
  change execMeasureLink h port false sel s = _
  exact congrArg _ (withHandle_accepted _ _ _ _ _ _ _ (!false) _ ha)

theorem execMeasureLink_inUse {h : Hdr} {port : BitVec 7} {sel : Bool} {s s' : State} {hd : Half}
    (ha : s.accept .jup h opMeasureLink (light := false) = (s', some hd)) (hu : sel = true ∨ s'.portActive port.toNat = true) :
    exec (.measureLink h port true sel) s = .next (s'.post .jup hd stLinkInUse []) := by
  change execMeasureLink h port true sel s = _
  refine congrArg _ ((withHandle_accepted _ _ _ _ _ _ _ (!true) _ ha).trans ?_)
  exact if_pos ((Bool.or_eq_true ..).mpr hu)

/-- The port takes the reflect measurement, and its link goes DOWN for it. -/
def State.startReflect (s : State) (p : Nat) (hd : Half) : State :=
  (s.modAsym .jup p fun a => { a with reflect := some hd, medium := none }).modCtl .jup p fun c =>
    { c with lstate := .down, frameLock := false, since := s.now .jup }

theorem execMeasureLink_reflect {h : Hdr} {port : BitVec 7} {s s' : State} {hd : Half}
    (ha : s.accept .jup h opMeasureLink (light := false) = (s', some hd)) (hu : s'.portActive port.toNat = false) :
    exec (.measureLink h port true false) s = .next (s'.startReflect port.toNat hd) := by
  change execMeasureLink h port true false s = _
  refine congrArg _ ((withHandle_accepted _ _ _ _ _ _ _ (!true) _ ha).trans ?_)
  exact if_neg (Bool.eq_false_iff.mp hu)

theorem link_startReflect (s : State) (p : Nat) (hd : Half) : (s.startReflect p hd).link .jup p =
    { s.link .jup p with
      asym := { (s.link .jup p).asym with reflect := some hd, medium := none }
      ctl := { (s.link .jup p).ctl with lstate := .down, frameLock := false, since := s.now .jup } } := by
  have hasym : (s.modAsym .jup p fun a => { a with reflect := some hd, medium := none }).link .jup p =
      { s.link .jup p with asym := { (s.link .jup p).asym with reflect := some hd, medium := none } } :=
    link_modAsym (link_ne_of_reflect (hd := hd) rfl)
  rw [State.startReflect, link_modCtl (link_ne_of_reflect (hd := hd) (by rw [hasym])), hasym]

/-! ## REFLECT_COMPLETE (R50) -/

/-- The pair delays are in: A_MED0 of the port, and the averages of its link, start from them, and the link trains. -/
def State.reflected (s : State) (p : Nat) (med : Int) : State :=
  ((s.modAsym .jup p fun a => { a with medium := some med }).modLt .jup p LinkTime.restart).modCtl .jup p fun c =>
    { c with lstate := .train, since := s.now .jup }

theorem execReflectComplete_timed {port : BitVec 7} {po pi : Int} {s : State} {hd : Half}
    (hr : (s.link .jup port.toNat).asym.reflect = some hd) (hm : (s.link .jup port.toNat).asym.medium = none) :
    exec (.reflectComplete port (po, pi)) s =
      .next (s.reflected port.toNat (if s.isChild .jup port.toNat then pi - po else po - pi)) := by
  change execReflectComplete port (po, pi) s = _
  rw [execReflectComplete, hr, hm]; rfl

theorem execReflectComplete_idle {port : BitVec 7} {po pi : Int} {s : State} (hr : (s.link .jup port.toNat).asym.reflect = none) :
    exec (.reflectComplete port (po, pi)) s = .next s := by
  change execReflectComplete port (po, pi) s = _
  rw [execReflectComplete, hr]; rfl

theorem link_reflected (s : State) (p : Nat) (med : Int) : (s.reflected p med).link .jup p =
    { s.link .jup p with
      asym := { (s.link .jup p).asym with medium := some med }
      time := (s.link .jup p).time.restart
      ctl := { (s.link .jup p).ctl with lstate := .train, since := s.now .jup } } := by
  have hasym : (s.modAsym .jup p fun a => { a with medium := some med }).link .jup p =
      { s.link .jup p with asym := { (s.link .jup p).asym with medium := some med } } :=
    link_modAsym (link_ne_of_medium (med := med) rfl)
  have htime : ((s.modAsym .jup p fun a => { a with medium := some med }).modLt .jup p LinkTime.restart).link .jup p =
      { s.link .jup p with asym := { (s.link .jup p).asym with medium := some med }, time := (s.link .jup p).time.restart } := by
    rw [link_modLt (link_ne_of_medium (med := med) (by rw [hasym])), hasym]
  rw [State.reflected, link_modCtl (link_ne_of_medium (med := med) (by rw [htime])), htime]

theorem reflectFinish_measured {n : Nat} {hd : Half} {med : Int} {s : State} (hr : (s.link .jup n).asym.reflect = some hd)
    (hm : (s.link .jup n).asym.medium = some med) :
    s.reflectFinish .jup n = ((s.modAsym .jup n fun a => { (Asym.setInactive a (s.reflectEntry n med)) with
      reflect := none, medium := none, go := true, bad := false, measured := true }).emit (.farEntry n (asymMirror (s.reflectEntry n med)))).post
        .jup hd stOk (reflectResults (s.reflectEntry n med)) := by
  unfold State.reflectFinish
  rw [hr, hm]

/-! ## Bank swaps (R52) -/

theorem execAsymSwapGo_asked {d : Dev} {n : Nat} {s : State} (hg : (s.link d (asymKey d n)).asym.go = false) :
    exec (.asymSwapGo d n) s = .next (s.modAsym d (asymKey d n) fun a => { a with go := true, bad := false }) := by
  change execAsymSwapGo d n s = _
  exact due_of (by rw [hg]; rfl)

theorem execAsymSwapGo_standing {d : Dev} {n : Nat} {s : State} (hg : (s.link d (asymKey d n)).asym.go = true) :
    exec (.asymSwapGo d n) s = .next s := by
  change execAsymSwapGo d n s = _
  exact due_unless (by rw [hg]; rfl)

theorem execAsymBankSwap_between {d : Dev} {n : Nat} {s : State} (hb : (s.now d).toNat % 8192 ≠ 0) :
    exec (.asymBankSwap d n) s = .next s := by
  change execAsymBankSwap d n s = _
  exact due_unless (Bool.and_eq_false_iff.mpr (.inr (decide_eq_false hb)))

theorem atBoundary_of {d : Dev} {s : State} (hb : (s.now d).toNat % 8192 = 0) : s.atBoundary d = true := decide_eq_true hb

/-- At a boundary a swap that was asked for takes effect on every link of its group where the check holds. -/
theorem execAsymBankSwap_checked {d : Dev} {n : Nat} {s : State} (hg : (s.link d (asymKey d n)).asym.go = true)
    (hb : (s.now d).toNat % 8192 = 0) (hc : s.asymCheckOk d n = true) :
    exec (.asymBankSwap d n) s =
      .next ((asymGroup d n).foldl (fun s k => s.swapAsym d k) (s.modAsym d (asymKey d n) fun a => { a with go := false })) := by
  change execAsymBankSwap d n s = _
  rw [execAsymBankSwap, due_of (by rw [hg, atBoundary_of hb]; rfl), if_pos hc]

theorem execAsymBankSwap_bad {d : Dev} {n : Nat} {s : State} (hg : (s.link d (asymKey d n)).asym.go = true)
    (hb : (s.now d).toNat % 8192 = 0) (hc : s.asymCheckOk d n = false) :
    exec (.asymBankSwap d n) s = .next (((s.modAsym d (asymKey d n) fun a => { a with go := false }).modAsym d (asymKey d n)
      fun a => { a with bad := true, measured := false }).raiseFault d (blkAsym d n) cAsymTableBad (linkCtx d n)) := by
  change execAsymBankSwap d n s = _
  rw [execAsymBankSwap, due_of (by rw [hg, atBoundary_of hb]; rfl), if_neg (by simp [hc])]

/-- Settles O7: each command and event has one equation per case; the link that a reflect measurement leaves is read back after
its updates, each of which leaves it unlike a link after reset. -/
theorem asymmetryMeasured : Obligations.AsymmetryMeasured := by
  refine ⟨fun h port sel s s' hd => execMeasureLink_report, fun h port sel s s' hd => execMeasureLink_inUse, ?reflects, ?timed,
    fun port po pi s => execReflectComplete_idle, fun n hd med s => reflectFinish_measured, fun d n s => execAsymSwapGo_asked,
    fun d n s => execAsymSwapGo_standing, fun n s => execAsymBankSwap_checked (d := .jup), fun n s => execAsymBankSwap_checked (d := .tsu),
    fun d n s => execAsymBankSwap_bad, fun d n s => execAsymBankSwap_between⟩
  case reflects =>
    intro h port s s' hd ha hu
    refine ⟨_, execMeasureLink_reflect ha hu, ?_⟩
    rw [link_startReflect]
    exact ⟨rfl, rfl, rfl, rfl⟩
  case timed =>
    intro port po pi s hd hr hm
    refine ⟨_, execReflectComplete_timed hr hm, ?_⟩
    rw [link_reflected]
    exact ⟨rfl, rfl, rfl, rfl, rfl⟩

end Sys2Proof.Machine
end

section
/-! PROOFS of spec family 02: the departure of a time code. -/
namespace Sys2Proof.Machine
open Sys2Proof

/-! ## When a code leaves (R40, R60) -/

/-- Every exchange tick, of either end and at either rate, is a multiple of 4,096. -/
theorem sendDue_offTick {d : Dev} {n : Nat} {s : State} (h : (s.now d).toNat % 4096 ≠ 0) : s.sendDue d n = false := by
  have hp : s.period d n = 8192 ∨ s.period d n = 65536 := by
    unfold State.period
    split <;> split
    · exact .inr rfl
    · exact .inl rfl
    · exact .inr rfl
    · exact .inl rfl
  have hC : s.nowN d % s.period d n ≠ 4096 := by
    rcases hp with hp | hp <;> rw [hp, State.nowN] <;> omega
  have hM : s.nowN d % s.period d n ≠ 0 := by
    rcases hp with hp | hp <;> rw [hp, State.nowN] <;> omega
  simp [State.sendDue, hC, hM]

theorem sendDue_parent {d : Dev} {n : Nat} {s : State} (hl : (s.link d n).ctl.lstate.timed = true) (hc : s.isChild d n = false)
    (hp : s.isParent d n = true) (ht : (s.now d).toNat % (if (s.link d n).time.lowFar then 65536 else 8192) = 0) :
    s.sendDue d n = true := by
  have hper : s.period d n = if (s.link d n).time.lowFar then 65536 else 8192 := by simp [State.period, hc, lowPeriod, exPeriod]
  simp [State.sendDue, hl, hc, hp, hper, State.nowN, ht]

theorem sendDue_child {d : Dev} {n : Nat} {s : State} (hl : (s.link d n).ctl.lstate.timed = true) (hc : s.isChild d n = true)
    (hf : (s.com d).time.fullFrom ≤ s.now d) (ho : s.timeOn d n = true)
    (ht : (s.now d).toNat % (if (s.com d).time.lowRate then 65536 else 8192) = 4096) : s.sendDue d n = true := by
  have hper : s.period d n = if (s.com d).time.lowRate then 65536 else 8192 := by simp [State.period, hc, lowPeriod, exPeriod]
  simp [State.sendDue, hl, hc, ho, hf, hper, State.nowN, ht]

/-! ## What a code says (R41) -/

/-- ECHO of a time code is the number put there, as 32 bits hold it. -/
theorem codeEcho_timeCode (st : Stamp) (echo : Int) (temp : BitVec 8) (state seq : Nat) :
    codeEcho (timeCode st echo temp state seq) = (BitVec.ofInt 32 echo).toInt := by
  have hfield : (timeCode st echo temp state seq).extractLsb' 16 32 = BitVec.ofInt 32 echo := by
    refine BitVec.eq_of_getLsbD_eq fun i hi => ?_
    have h48 : ¬ 48 ≤ 16 + i := by omega
    have h64 : ¬ 64 ≤ 16 + i := by omega
    have h15 : ¬ 16 + i - 8 < 8 := by omega
    have h7 : ¬ 16 + i - 5 < 3 := by omega
    have h4 : ¬ 16 + i < 5 := by omega
    have hw : 16 + i < 128 := by omega
    simp only [timeCode, BitVec.getLsbD_extractLsb', BitVec.getLsbD_or, getLsbD_put, BitVec.testBit_toNat]
    simp [hi, h48, h64, h15, h7, h4, hw]
  rw [codeEcho, hfield]

/-- A child sends ECHO 0. -/
theorem codeEcho_codeNow_child {d : Dev} {n : Nat} {s : State} (hc : s.isChild d n = true) : codeEcho (s.codeNow d n) = 0 := by
  rw [State.codeNow, if_pos hc, codeEcho_timeCode]; rfl

/-! ## The link that a departing code leaves -/

/-- The code waits for the next TIME slot. -/
def State.queueCode (s : State) (d : Dev) (n : Nat) (c : BitVec 128) : State := s.modTx d n fun t => { t with timeCode := some c }

theorem link_ne_of_timeCode {l : Link} {c : BitVec 128} (h : l.tx.timeCode = some c) : l ≠ {} := by rintro rfl; cases h

theorem link_queueCode (s : State) (d : Dev) (n : Nat) (c : BitVec 128) :
    (s.queueCode d n c).link d n = { s.link d n with tx := { (s.link d n).tx with timeCode := some c } } :=
  link_modTx (link_ne_of_timeCode (c := c) rfl)

theorem isChild_queueCode (s : State) (d : Dev) (n : Nat) (c : BitVec 128) : (s.queueCode d n c).isChild d n = s.isChild d n := by
  cases d <;> rfl

/-- A code that waits changes nothing of what the end would send. -/
theorem codeNow_queueCode (s : State) (d : Dev) (n : Nat) (c : BitVec 128) : (s.queueCode d n c).codeNow d n = s.codeNow d n := by
  unfold State.codeNow State.period State.txdOf
  rw [link_queueCode, isChild_queueCode]
  cases d <;> rfl

theorem execTimeCodeSend_due {d : Dev} {n : Nat} {s : State} (h : s.sendDue d n = true) :
    exec (.timeCodeSend d n) s = .next ((s.queueCode d n (s.codeNow d n)).sentCode d n) := by
  change execTimeCodeSend d n s = _
  exact due_of h

theorem execTimeCodeSend_offTick {d : Dev} {n : Nat} {s : State} (h : (s.now d).toNat % 4096 ≠ 0) :
    exec (.timeCodeSend d n) s = .next s := by
  change execTimeCodeSend d n s = _
  exact due_unless (sendDue_offTick h)

/-- M notes t1 of a new exchange. -/
def LinkTime.noteOpened (t : LinkTime) (c : BitVec 128) (now : Tick) : LinkTime :=
  { t with t1 := some (codeStamp c), t4 := none, bad := false, handover := some now }

/-- C notes t3 of the exchange that is open, or one missed where none is. -/
def LinkTime.noteReply (t : LinkTime) (c : BitVec 128) (now : Tick) (moved : Int) : LinkTime :=
  if t.t1.isSome && t.t3.isNone then { t with t3 := some (codeStamp c), handover := some now, mv3 := moved }
  else { t.miss with t1 := none, t2 := none, t3 := none, handover := some now }

theorem sentCode_queueCode (s : State) (d : Dev) (n : Nat) :
    (s.queueCode d n (s.codeNow d n)).sentCode d n = (s.queueCode d n (s.codeNow d n)).modLt d n fun t =>
      if s.isChild d n then t.noteReply (s.codeNow d n) (s.now d) (s.com d).cr.moved else t.noteOpened (s.codeNow d n) (s.now d) := by
  rw [State.sentCode, codeNow_queueCode, isChild_queueCode]
  cases hc : s.isChild d n <;> cases d <;> rfl

/-- The end's link after its code: the code waits, and the end has noted it. -/
theorem link_sentCode (s : State) (d : Dev) (n : Nat) :
    ((s.queueCode d n (s.codeNow d n)).sentCode d n).link d n =
      { s.link d n with
        tx := { (s.link d n).tx with timeCode := some (s.codeNow d n) }
        time := if s.isChild d n then (s.link d n).time.noteReply (s.codeNow d n) (s.now d) (s.com d).cr.moved
          else (s.link d n).time.noteOpened (s.codeNow d n) (s.now d) } := by
  rw [sentCode_queueCode, link_modLt (link_ne_of_timeCode (c := s.codeNow d n) (by rw [link_queueCode])), link_queueCode]

/-- Nothing but links changes. -/
theorem sentCode_frame (s : State) (d : Dev) (n : Nat) (c : BitVec 128) :
    (((s.queueCode d n c).sentCode d n).com d).time = (s.com d).time ∧ ((s.queueCode d n c).sentCode d n).tsu = s.tsu ∧
      ((s.queueCode d n c).sentCode d n).jup = s.jup ∧ ((s.queueCode d n c).sentCode d n).out = s.out := by
  unfold State.sentCode
  dsimp only
  split <;> simp [State.queueCode]

/-- Settles O1: at its exchange tick an end queues its code and notes it on its link, which is read back once for both ends. -/
theorem timeCodeSent : Obligations.TimeCodeSent := by
  refine ⟨?parent, ?childOpen, ?childMissed, fun d n s => codeEcho_codeNow_child, fun d n s => execTimeCodeSend_offTick⟩
  case parent =>
    intro d n s hl hc hp ht
    refine ⟨_, execTimeCodeSend_due (sendDue_parent hl hc hp ht), ?_⟩
    rw [link_sentCode, hc]
    exact ⟨rfl, rfl, rfl, rfl, rfl, sentCode_frame ..⟩
  case childOpen =>
    intro d n s hl hc hf ho ht h1 h3
    obtain ⟨-, hrest⟩ := sentCode_frame s d n (s.codeNow d n)
    have hnote : (s.link d n).time.noteReply (s.codeNow d n) (s.now d) (s.com d).cr.moved =
        { (s.link d n).time with t3 := some (codeStamp (s.codeNow d n)), handover := some (s.now d), mv3 := (s.com d).cr.moved } :=
      if_pos (by rw [h1, h3]; rfl)
    refine ⟨_, execTimeCodeSend_due (sendDue_child hl hc hf ho ht), ?_⟩
    rw [link_sentCode, if_pos hc, hnote]
    exact ⟨rfl, rfl, rfl, rfl, rfl, hrest⟩
  case childMissed =>
    intro d n s hl hc hf ho ht h1
    have hnote : (s.link d n).time.noteReply (s.codeNow d n) (s.now d) (s.com d).cr.moved =
        { (s.link d n).time.miss with t1 := none, t2 := none, t3 := none, handover := some (s.now d) } :=
      if_neg (by rw [h1]; exact Bool.false_ne_true)
    refine ⟨_, execTimeCodeSend_due (sendDue_child hl hc hf ho ht), ?_⟩
    rw [link_sentCode, if_pos hc, hnote]
    exact ⟨rfl, rfl, rfl, rfl⟩

end Sys2Proof.Machine
end

section
/-! PROOFS of spec family 02: what a fault and a selection of the Clock Room leave, and the judgments of parents and of the time
state. -/
namespace Sys2Proof.Machine
open Sys2Proof

/-! ## What raising a fault leaves -/

/-- The state without what a fault may touch: the fault blocks and the queues of the links by which it is reported, the log and
the interrupts of a Jupin, and the words of the severity table that failed their parity. -/
def State.sansFaults (s : State) : State :=
  { s with tsuC := { s.tsuC with blocks := [], links := [] }, jupC := { s.jupC with blocks := [], links := [] },
           tsu := { s.tsu with badWords := [], parStop := false }, jup := { s.jup with log := [], logLost := 0 }, out := [] }

theorem sansFaults_send (s : State) (d : Dev) (n : Nat) (m : Msg) : (s.send d n m).sansFaults = s.sansFaults := by cases d <;> rfl
theorem sansFaults_sendAll (s : State) (d : Dev) (ns : List Nat) (m : Msg) : (s.sendAll d ns m).sansFaults = s.sansFaults := by
  induction ns generalizing s with
  | nil => rfl
  | cons n ns ih => exact (ih _).trans (sansFaults_send ..)
theorem sansFaults_modBlock (s : State) (d : Dev) (b : Nat) (f : FaultBlock → FaultBlock) :
    (s.modBlock d b f).sansFaults = s.sansFaults := by cases d <;> rfl

theorem sansFaults_report (s : State) (d : Dev) (ws : List Word) : (s.report d ws).sansFaults = s.sansFaults := by
  cases d with
  | tsu => exact sansFaults_sendAll ..
  | jup =>
    change (s.logReport ws).sansFaults = _
    unfold State.logReport
    split <;> rfl

theorem sansFaults_latchFault (s : State) (d : Dev) (b : Nat) (code : Code) (ctx : Ctx) :
    (s.latchFault d b code ctx).sansFaults = s.sansFaults := by
  unfold State.latchFault
  dsimp only
  split <;> split <;> simp only [sansFaults_report, sansFaults_modBlock]

theorem sansFaults_readSeverity (s : State) (d : Dev) : (s.readSeverity d).sansFaults = s.sansFaults := by
  unfold State.readSeverity
  split
  · exact sansFaults_latchFault ..
  · rfl

theorem sansFaults_raiseFault (s : State) (d : Dev) (b : Nat) (code : Code) (ctx : Ctx) :
    (s.raiseFault d b code ctx).sansFaults = s.sansFaults :=
  (sansFaults_latchFault ..).trans (sansFaults_readSeverity ..)

theorem sansFaults_raiseLevel (s : State) (d : Dev) (b : Nat) (code : Code) (ctx : Ctx) :
    (s.raiseLevel d b code ctx).sansFaults = s.sansFaults := by
  unfold State.raiseLevel
  split
  · rfl
  · rw [sansFaults_modBlock, sansFaults_raiseFault]

theorem time_of_sansFaults {s t : State} (h : t.sansFaults = s.sansFaults) (d : Dev) : (t.com d).time = (s.com d).time := by
  cases d
  · exact (congrArg (fun x : State => x.tsuC.time) h :)
  · exact (congrArg (fun x : State => x.jupC.time) h :)
theorem cr_of_sansFaults {s t : State} (h : t.sansFaults = s.sansFaults) (d : Dev) : (t.com d).cr = (s.com d).cr := by
  cases d
  · exact (congrArg (fun x : State => x.tsuC.cr) h :)
  · exact (congrArg (fun x : State => x.jupC.cr) h :)
theorem chan_of_sansFaults {s t : State} (h : t.sansFaults = s.sansFaults) (c : Nat) : t.chan c = s.chan c :=
  (congrArg (fun x : State => x.chan c) h :)

/-! ## The block that a fault is raised in -/

/-- A block that is not as after reset reads as it was written. -/
theorem fblock_modBlock_ne {s : State} {d : Dev} {b : Nat} {f : FaultBlock → FaultBlock} (h : f (s.fblock d b) ≠ {}) :
    (s.modBlock d b f).fblock d b = f (s.fblock d b) := by
  cases d <;> exact tget_tset_ne _ _ _ _ h

theorem fblock_sendAll (s : State) (d e : Dev) (ns : List Nat) (m : Msg) (b : Nat) : (s.sendAll d ns m).fblock e b = s.fblock e b := by
  induction ns generalizing s with
  | nil => rfl
  | cons n ns ih => exact (ih _).trans (by cases d <;> cases e <;> rfl)

theorem fblock_report (s : State) (d e : Dev) (ws : List Word) (b : Nat) : (s.report d ws).fblock e b = s.fblock e b := by
  cases d with
  | tsu => exact fblock_sendAll ..
  | jup =>
    change (s.logReport ws).fblock e b = _
    unfold State.logReport
    split <;> cases e <;> rfl

theorem valid_latch (b : FaultBlock) (now : Tick) (code : Code) (w : BitVec 64) : (b.latch now code w).valid = true := by
  unfold FaultBlock.latch
  split <;> simp [*]
theorem valid_severe (b : FaultBlock) (now : Tick) (code : Code) (w : BitVec 64) (p : Profile) :
    (b.severe now code w p).valid = b.valid := by
  unfold FaultBlock.severe
  dsimp only
  repeat' split
  all_goals rfl

/-- The block has a first fault once one is raised in it. -/
theorem valid_latchFault (s : State) (d : Dev) (b : Nat) (code : Code) (ctx : Ctx) :
    ((s.latchFault d b code ctx).fblock d b).valid = true := by
  unfold State.latchFault
  extract_lets now b0 p g b1 becomesSevere b2 b3 s1 s2
  have hb3 : b3.valid = true := by
    change b2.valid = true
    have hb1 : b1.valid = true := valid_latch ..
    unfold b2
    split
    · rw [valid_severe, hb1]
    · exact hb1
  have hs1 : s1.fblock d b = b3 := fblock_modBlock_ne (by rintro h; rw [h] at hb3; cases hb3)
  have hs2 : s2.fblock d b = b3 := by
    unfold s2
    split
    · exact hs1
    · rw [fblock_report, hs1]
  split
  · rw [fblock_report, hs2, hb3]
  · rw [hs2, hb3]

/-! ## What a selection of the Clock Room leaves -/

/-- The state without what a selection may touch of its device: time, Clock Room, fault blocks and the debug session. -/
def State.sansSteering (s : State) (d : Dev) : State :=
  s.modCom d fun c => { c with time := {}, cr := {}, blocks := [], sec := {} }

@[simp] theorem sansSteering_modTime (s : State) (d : Dev) (f : TimeCore → TimeCore) : (s.modTime d f).sansSteering d = s.sansSteering d := by
  cases d <;> rfl
@[simp] theorem sansSteering_modCr (s : State) (d : Dev) (f : ClockRoom → ClockRoom) : (s.modCr d f).sansSteering d = s.sansSteering d := by
  cases d <;> rfl
@[simp] theorem sansSteering_modRef (s : State) (d : Dev) (r : Nat) (f : Ref → Ref) : (s.modRef d r f).sansSteering d = s.sansSteering d := by
  cases d <;> rfl
@[simp] theorem sansSteering_modSec (s : State) (d : Dev) (f : Security → Security) : (s.modSec d f).sansSteering d = s.sansSteering d := by
  cases d <;> rfl
@[simp] theorem sansSteering_endLevel (s : State) (d : Dev) (b : Nat) (code : Code) (ctx : Ctx) :
    (s.endLevel d b code ctx).sansSteering d = s.sansSteering d := by
  cases d <;> rfl

@[simp] theorem sansSteering_evalRef (s : State) (d : Dev) (r : Nat) : (s.evalRef d r).sansSteering d = s.sansSteering d := by
  unfold State.evalRef
  dsimp only
  repeat' split
  all_goals simp

theorem sansSteering_foldl_evalRef (rs : List Nat) (s : State) (d : Dev) :
    (rs.foldl (fun s r => s.evalRef d r) s).sansSteering d = s.sansSteering d := by
  induction rs generalizing s with
  | nil => rfl
  | cons r rs ih => exact (ih _).trans (sansSteering_evalRef ..)
@[simp] theorem sansSteering_evalRefs (s : State) (d : Dev) : (s.evalRefs d).sansSteering d = s.sansSteering d :=
  sansSteering_foldl_evalRef ..

/-! ### Steps of a selection -/

@[simp] theorem sansSteering_select (s : State) (d : Dev) (r : Nat) : (s.select d r).sansSteering d = s.sansSteering d :=
  sansSteering_modCr ..
@[simp] theorem sansSteering_unselect (s : State) (d : Dev) : (s.unselect d).sansSteering d = s.sansSteering d := sansSteering_modCr ..
@[simp] theorem sansSteering_buildOut (s : State) (d : Dev) (x : Int) : (s.buildOut d x).sansSteering d = s.sansSteering d :=
  sansSteering_modCr ..
@[simp] theorem sansSteering_anchorRef (s : State) (d : Dev) (r : Nat) : (s.anchorRef d r).sansSteering d = s.sansSteering d :=
  sansSteering_modRef ..
@[simp] theorem sansSteering_anchorExt (s : State) (d : Dev) (r : Nat) : (s.anchorExt d r).sansSteering d = s.sansSteering d := by
  unfold State.anchorExt
  split <;> simp
@[simp] theorem sansSteering_crFree (s : State) (d : Dev) : (s.crFree d).sansSteering d = s.sansSteering d := by simp [State.crFree]
@[simp] theorem sansSteering_resyncNow (s : State) (d : Dev) : (s.resyncNow d).sansSteering d = s.sansSteering d := by
  unfold State.resyncNow
  split <;> simp
@[simp] theorem sansSteering_manualEnd (s : State) (d : Dev) : (s.manualEnd d).sansSteering d = s.sansSteering d := by
  unfold State.manualEnd
  repeat' split
  all_goals simp
@[simp] theorem sansSteering_followLink (s : State) (d : Dev) : (s.followLink d).sansSteering d = s.sansSteering d := by
  unfold State.followLink
  repeat' split
  all_goals simp
@[simp] theorem sansSteering_switchRef (s : State) (d : Dev) (r : Nat) : (s.switchRef d r).sansSteering d = s.sansSteering d := by
  unfold State.switchRef
  dsimp only
  repeat' split
  all_goals simp
@[simp] theorem sansSteering_enterHoldover (s : State) (d : Dev) : (s.enterHoldover d).sansSteering d = s.sansSteering d := by
  unfold State.enterHoldover
  dsimp only
  split <;> simp
@[simp] theorem sansSteering_leaveHoldover (s : State) (d : Dev) (r : Nat) : (s.leaveHoldover d r).sansSteering d = s.sansSteering d := by
  simp [State.leaveHoldover]
@[simp] theorem sansSteering_startAcquire (s : State) (d : Dev) (r : Nat) : (s.startAcquire d r).sansSteering d = s.sansSteering d := by
  simp [State.startAcquire]
@[simp] theorem sansSteering_acquireOn (s : State) (d : Dev) (r : Nat) : (s.acquireOn d r).sansSteering d = s.sansSteering d := by
  simp [State.acquireOn]
@[simp] theorem sansSteering_acquireEnd (s : State) (d : Dev) : (s.acquireEnd d).sansSteering d = s.sansSteering d := by
  simp [State.acquireEnd]
@[simp] theorem sansSteering_rootTrack (s : State) (d : Dev) (r : Nat) : (s.rootTrack d r).sansSteering d = s.sansSteering d := by
  unfold State.rootTrack
  split <;> simp
@[simp] theorem sansSteering_lostResync (s : State) (d : Dev) : (s.lostResync d).sansSteering d = s.sansSteering d := by
  unfold State.lostResync
  split <;> simp
@[simp] theorem sansSteering_epochFollow (s : State) (d : Dev) : (s.epochFollow d).sansSteering d = s.sansSteering d := by
  unfold State.epochFollow
  dsimp only
  repeat' split
  all_goals simp

/-! ### Selection, by the state of the Clock Room -/

@[simp] theorem sansSteering_selectFree (s : State) (d : Dev) : (s.selectFree d).sansSteering d = s.sansSteering d := by
  unfold State.selectFree
  repeat' split
  all_goals simp
@[simp] theorem sansSteering_selectAcquire (s : State) (d : Dev) : (s.selectAcquire d).sansSteering d = s.sansSteering d := by
  unfold State.selectAcquire
  repeat' split
  all_goals simp
@[simp] theorem sansSteering_selectTrack (s : State) (d : Dev) : (s.selectTrack d).sansSteering d = s.sansSteering d := by
  unfold State.selectTrack
  repeat' split
  all_goals simp
@[simp] theorem sansSteering_selectNamed (s : State) (d : Dev) : (s.selectNamed d).sansSteering d = s.sansSteering d := by
  unfold State.selectNamed
  repeat' split
  all_goals simp
@[simp] theorem sansSteering_selectHoldover (s : State) (d : Dev) : (s.selectHoldover d).sansSteering d = s.sansSteering d := by
  unfold State.selectHoldover
  repeat' split
  all_goals simp

theorem sansSteering_crSelect (s : State) (d : Dev) : (s.crSelect d).sansSteering d = s.sansSteering d := by
  unfold State.crSelect
  dsimp only
  rw [sansSteering_epochFollow]
  repeat' split
  all_goals simp

theorem link_crSelect (s : State) (d : Dev) (n : Nat) : (s.crSelect d).link d n = s.link d n := by
  have hlinks : ((s.crSelect d).com d).links = (s.com d).links := by
    cases d
    · exact (congrArg (fun x : State => x.tsuC.links) (sansSteering_crSelect s .tsu) :)
    · exact (congrArg (fun x : State => x.jupC.links) (sansSteering_crSelect s .jup) :)
  rw [State.link, hlinks, State.link]

/-! ## Holding every channel (R55) -/

theorem com_wantHoldAll (s : State) (cause : Nat) (d : Dev) : (s.wantHoldAll cause).com d = s.com d := by
  simp only [State.wantHoldAll, State.wantHold, chanNums, List.foldl_cons, List.foldl_nil, com_modChan]

/-- A RUNNING channel stays RUNNING, and keeps the causes that it is to be held for, when any channel is to be held. -/
theorem chan_wantHold_any {s : State} {c : Nat} (k cause : Nat) (hr : (s.chan c).state = .running) :
    ((s.wantHold k cause).chan c).state = .running ∧
      (k = c ∨ cause ∈ (s.chan c).holdWant → cause ∈ ((s.wantHold k cause).chan c).holdWant) := by
  by_cases hk : c = k
  · subst hk
    obtain ⟨hwant, -, hstate, -⟩ := chan_wantHold_running cause hr
    exact ⟨hstate, fun _ => hwant⟩
  · rw [chan_wantHold_other _ _ hk]
    exact ⟨hr, fun h => h.resolve_left (Ne.symm hk)⟩

theorem holdWant_foldl_wantHold (cs : List Nat) {s : State} {c : Nat} (cause : Nat) (hr : (s.chan c).state = .running)
    (h : c ∈ cs ∨ cause ∈ (s.chan c).holdWant) :
    cause ∈ ((cs.foldl (fun s k => s.wantHold k cause) s).chan c).holdWant := by
  induction cs generalizing s with
  | nil => exact h.resolve_left (List.not_mem_nil)
  | cons k cs ih =>
    obtain ⟨hstate, hwant⟩ := chan_wantHold_any k cause hr
    refine ih hstate ?_
    rcases h with h | h
    · rcases List.mem_cons.mp h with rfl | h
      · exact .inr (hwant (.inl rfl))
      · exact .inl h
    · exact .inr (hwant (.inr h))

theorem holdWant_wantHoldAll {s : State} {c : Fin 8} (cause : Nat) (hr : (s.chan c).state = .running) :
    cause ∈ ((s.wantHoldAll cause).chan c).holdWant :=
  holdWant_foldl_wantHold chanNums cause hr (.inl ((by decide : ∀ c : Fin 8, c.val ∈ chanNums) c))

/-! ## PARENT_LOST and TIME_PARENT_SKEW (R44, R46) -/

theorem execParentLost_due {d : Dev} {n : Nat} {s : State} (hc : s.isChild d n = true) (hn : 64 ≤ (s.link d n).time.consecInvalid)
    (hl : (s.link d n).time.lost = false) :
    exec (.parentLost d n) s = .next ((s.modLt d n fun t => { t with lost := true, xs := [], ds := [], ph := [] }).crSelect d) := by
  change execParentLost d n s = _
  exact due_of (by rw [hc, hl, decide_eq_true hn]; rfl)

theorem execParentLost_early {d : Dev} {n : Nat} {s : State} (hn : (s.link d n).time.consecInvalid < 64) :
    exec (.parentLost d n) s = .next s := by
  change execParentLost d n s = _
  exact due_unless (by rw [decide_eq_false (Nat.not_le.mpr hn)]; simp)

theorem execTimeParentSkew_due {d : Dev} {s : State} (h : 1024 ≤ (s.com d).time.skewCount ∨ 1024 ≤ (s.com d).time.skewCountB) :
    exec (.timeParentSkew d) s =
      .next ((s.raiseLevel d (blkLink d (uplinks d).1) cParentSkew (linkCtx d (uplinks d).1)).raiseLevel d
        (blkLink d (uplinks d).2) cParentSkew (linkCtx d (uplinks d).2)) := by
  change execTimeParentSkew d s = _
  exact due_of (decide_eq_true h)

theorem execTimeParentSkew_early {d : Dev} {s : State} (ha : (s.com d).time.skewCount < 1024) (hb : (s.com d).time.skewCountB < 1024) :
    exec (.timeParentSkew d) s = .next s := by
  change execTimeParentSkew d s = _
  exact due_unless (decide_eq_false (by omega))

/-! ## Levels (R322) -/

theorem levels_any_iff (l : List (Code × BitVec 64)) (c : Code) (w : BitVec 64) :
    (l.any fun (a, b) => decide (a = c ∧ b = w)) = true ↔ (c, w) ∈ l := by
  simp

theorem raiseLevel_standing {d : Dev} {b : Nat} {c : Code} {x : Ctx} {s : State} (h : (c, x.word) ∈ (s.fblock d b).levels) :
    s.raiseLevel d b c x = s := if_pos ((levels_any_iff ..).mpr h)
theorem raiseLevel_begins {d : Dev} {b : Nat} {c : Code} {x : Ctx} {s : State} (h : (c, x.word) ∉ (s.fblock d b).levels) :
    s.raiseLevel d b c x = (s.raiseFault d b c x).modBlock d b fun k => { k with levels := k.levels ++ [(c, x.word)] } :=
  if_neg (mt (levels_any_iff ..).mp h)

/-! ## TIME_LOST (R55) -/

theorem lostDue_holdover {d : Dev} {h : Tick} {s : State} (hs : (s.com d).time.state = .degraded) (hm : s.rootMaster d = false)
    (hc : (s.com d).cr.state = .holdover) (hh : (s.com d).time.holdSince = some h)
    (hl : h.toNat + (s.com d).time.holdLimit ≤ (s.now d).toNat) : s.lostDue d = true := by
  simp [State.lostDue, hs, hm, hc, hh, State.nowN, hl]

theorem lostDue_state {d : Dev} {s : State} (h : s.lostDue d = true) : (s.com d).time.state = .degraded ∧ s.rootMaster d = false ∧
    ((s.com d).cr.state = .holdover ∨ s.offsetLost d = true) := by
  simp only [State.lostDue, Bool.and_eq_true, Bool.or_eq_true, Bool.not_eq_true', decide_eq_true_eq] at h
  obtain ⟨⟨hs, hm⟩, h⟩ := h
  exact ⟨hs, hm, h.imp And.left And.right⟩

/-- Time is LOST, and the fault raised; nothing of the channels yet. -/
def State.timeIsLost (s : State) (d : Dev) : State :=
  (s.modTime d fun t => { t with state := .lost }).raiseLevel d (blkTime d) cTimeLost {}

theorem execTimeLost_tsu {s : State} (h : s.lostDue .tsu = true) : exec (.timeLost .tsu) s = .next ((s.timeIsLost .tsu).wantHoldAll 10) := by
  change execTimeLost .tsu s = _
  exact due_of h
theorem execTimeLost_jup {s : State} (h : s.lostDue .jup = true) : exec (.timeLost .jup) s = .next (s.timeIsLost .jup) := by
  change execTimeLost .jup s = _
  exact due_of h
theorem execTimeLost_early {d : Dev} {s : State} (h : s.lostDue d = false) : exec (.timeLost d) s = .next s := by
  change execTimeLost d s = _
  exact due_unless h

theorem com_timeIsLost (s : State) (d : Dev) : ((s.timeIsLost d).com d).time = { (s.com d).time with state := .lost } ∧
    ((s.timeIsLost d).com d).cr = (s.com d).cr := by
  have h := sansFaults_raiseLevel (s.modTime d fun t => { t with state := .lost }) d (blkTime d) cTimeLost {}
  rw [State.timeIsLost, time_of_sansFaults h, cr_of_sansFaults h, com_modTime]
  exact ⟨rfl, rfl⟩

theorem chan_timeIsLost (s : State) (d : Dev) (c : Nat) : (s.timeIsLost d).chan c = s.chan c := by
  rw [State.timeIsLost, chan_of_sansFaults (sansFaults_raiseLevel ..), State.chan, tsu_modTime, State.chan]

/-! ## CR_ACQ_FAIL (R103) -/

/-- The acquisition starts anew, before the fault that says so. -/
def State.acqReset (s : State) (d : Dev) : State :=
  (s.modTime d fun t => { t with state := .unset, acqStart := none }).modCr d fun c => { c with bwCur := 0, coarseTotal := 0, coarseDone := 0 }

theorem execCrAcqFail_due {d : Dev} {e : Tick} {s : State} (hc : (s.com d).cr.state = .acquire) (ha : (s.com d).time.acqStart = some e)
    (ht : e.toNat + 128000000 ≤ (s.now d).toNat) :
    exec (.crAcqFail d) s = .next ((s.acqReset d).raiseFault d (blkCr d) cAcqFail {}) := by
  change execCrAcqFail d s = _
  exact due_of (by simp [State.acqFailDue, hc, ha, State.nowN, ht])

theorem execCrAcqFail_otherState {d : Dev} {s : State} (hc : (s.com d).cr.state ≠ .acquire) : exec (.crAcqFail d) s = .next s := by
  change execCrAcqFail d s = _
  exact due_unless (by rw [State.acqFailDue, decide_eq_false hc, Bool.false_and])

/-- Settles O3: one equation for each judgment that is due and one for each that is not. What a due one leaves follows from the
two frames: a fault touches blocks, links and log, a selection touches time, Clock Room, blocks and session of its device. -/
theorem parentsJudged : Obligations.ParentsJudged := by
  refine ⟨?lost, fun d n s => execParentLost_early, fun d s => execTimeParentSkew_due, rfl, rfl, fun d s => execTimeParentSkew_early,
    fun d b c x s => raiseLevel_standing, fun d b c x s => raiseLevel_begins, ?timeLost, fun d s => lostDue_state,
    fun d s => execTimeLost_early, ?acqFail, fun d s => execCrAcqFail_otherState⟩
  case lost =>
    intro d n s hc hn hl
    have hlink : (s.modLt d n fun t => { t with lost := true, xs := [], ds := [], ph := [] }).link d n =
        { s.link d n with time := { (s.link d n).time with lost := true, xs := [], ds := [], ph := [] } } :=
      link_modLt (by intro h; cases congrArg (fun l : Link => l.time.lost) h)
    refine ⟨execParentLost_due hc hn hl, _, execParentLost_due hc hn hl, ?_⟩
    simp only [link_crSelect, hlink]
    exact ⟨trivial, trivial, trivial, trivial, trivial, fun k hk => link_modLink_other hk⟩
  case timeLost =>
    intro d h s hs hm hc hh hl
    obtain ⟨htime, hcr⟩ := com_timeIsLost s d
    cases d with
    | tsu =>
      refine ⟨_, execTimeLost_tsu (lostDue_holdover hs hm hc hh hl), ?_⟩
      rw [com_wantHoldAll]
      exact ⟨htime, hcr, fun _ c hr => holdWant_wantHoldAll 10 (by rw [chan_timeIsLost]; exact hr)⟩
    | jup => exact ⟨_, execTimeLost_jup (lostDue_holdover hs hm hc hh hl), htime, hcr, fun hd => nomatch hd⟩
  case acqFail =>
    intro d e s hc ha ht
    have h := sansFaults_raiseFault (s.acqReset d) d (blkCr d) cAcqFail {}
    refine ⟨_, execCrAcqFail_due hc ha ht, ?_, ?_, valid_latchFault ..⟩
    · rw [time_of_sansFaults h, State.acqReset, com_modCr, com_modTime]
    · rw [cr_of_sansFaults h, State.acqReset, com_modCr, com_modTime]

end Sys2Proof.Machine
end

section
/-! PROOFS of spec family 02: a hot-standby that loses both sides of its reference. -/
namespace Sys2Proof.Machine
open Sys2Proof

/-- The root's hot-standby in TRACK, none of whose references is QUALIFIED, with one kept block whose average is 5 while CV is 0. -/
def trackingStandby : State :=
  { jupC := { sec := { sealedImg := true }, regs := [(0, 0xE0)], cr := { state := .track, blocks := [(5, true)] } } }

/-- It is what the clause of the standby asks for. -/
theorem trackingStandby_standby : trackingStandby.hasRole = true ∧ trackingStandby.role = 3 ∧ trackingStandby.jup.timeMaster = false ∧
    trackingStandby.side = 2 := by decide

/-- It follows the other side; with nothing QUALIFIED there it enters HOLDOVER, whose value is not its CV. -/
theorem cv_followMaster_trackingStandby :
    trackingStandby.jupC.cr.cv = 0 ∧ trackingStandby.followMaster.jupC.cr.state = .holdover ∧
      trackingStandby.followMaster.jupC.cr.cv = 5 := by
  decide +kernel

theorem execTimeMasterChange_standby {s : State} (hh : s.hasRole = true) (hr : s.role = 3) (hm : s.jup.timeMaster = false)
    (hs : s.side = 2) : exec (.timeMasterChange true false) s = .next s.followMaster := by
  change execTimeMasterChange true false s = _
  rw [execTimeMasterChange, due_of (by simp [hh, hr, hm]), if_pos ⟨hs, rfl⟩]

/-- Refutes O4: a hot-standby in TRACK whose links to the other side are down enters HOLDOVER as the time master changes, and its
CV becomes the holdover value (R97, R105), where the clause of the standby says that CV does not move. -/
theorem not_acquisitionRuns : ¬ Obligations.AcquisitionRuns := by
  intro h
  obtain ⟨-, -, -, -, -, -, -, -, -, -, -, -, hstandby, -⟩ := h
  obtain ⟨hh, hr, hm, hs⟩ := trackingStandby_standby
  obtain ⟨hbefore, -, hafter⟩ := cv_followMaster_trackingStandby
  obtain ⟨t, ht, -, -, -, hcv, -⟩ := hstandby trackingStandby hh hr hm hs
  rw [execTimeMasterChange_standby hh hr hm hs] at ht
  obtain rfl := Host.Outcome.next.inj ht
  rw [hbefore, hafter] at hcv
  exact absurd hcv (by decide)

end Sys2Proof.Machine
end

section
/-! PROOFS of spec family 02: the state after reset, and what a tick with nothing commanded leaves. -/
namespace Sys2Proof.Machine
open Sys2Proof

/-! ## What an idle tick keeps of both devices -/

/-- The security state and the counter of both devices, and the power-on reset: nothing that a tick does of itself moves them but
the counting of the tick and the end of the reset. -/
def State.steady (s : State) : Security × Security × Tick × Tick × Bool :=
  (s.tsuC.sec, s.jupC.sec, s.now .tsu, s.now .jup, s.tsu.power.por)

theorem steady_eq_iff {s : State} {x y : Security} {m n : Tick} {p : Bool} :
    s.steady = (x, y, m, n, p) ↔ s.tsuC.sec = x ∧ s.jupC.sec = y ∧ s.now .tsu = m ∧ s.now .jup = n ∧ s.tsu.power.por = p := by
  simp [State.steady]

theorem steady_ite {c : Prop} [Decidable c] {s t u : State} (ht : t.steady = s.steady) (hu : u.steady = s.steady) :
    (if c then t else u).steady = s.steady := by split <;> assumption

theorem steady_foldl {α : Type} {f : State → α → State} (h : ∀ s a, (f s a).steady = s.steady) (l : List α) (s : State) :
    (l.foldl f s).steady = s.steady := by
  induction l generalizing s with
  | nil => rfl
  | cons a l ih => exact (ih _).trans (h s a)

theorem steady_of_sansFaults {s t : State} (h : t.sansFaults = s.sansFaults) : t.steady = s.steady :=
  (congrArg State.steady h :)

/-! ### Updates -/

@[simp] theorem steady_modJup (s : State) (f : Jup → Jup) : (s.modJup f).steady = s.steady := rfl
theorem steady_modTsu {s : State} {f : Tsu → Tsu} (h : (f s.tsu).power.por = s.tsu.power.por) : (s.modTsu f).steady = s.steady := by
  simp [State.steady, State.now, State.modTsu, State.com, h]
@[simp] theorem steady_modChan (s : State) (c : Nat) (f : Chan → Chan) : (s.modChan c f).steady = s.steady := rfl
@[simp] theorem steady_modProg (s : State) (c : Nat) (f : Prog → Prog) : (s.modProg c f).steady = s.steady := rfl
@[simp] theorem steady_modSync (s : State) (f : Sync → Sync) : (s.modSync f).steady = s.steady := rfl
@[simp] theorem steady_modConj (s : State) (r : Nat) (f : ConjRec → ConjRec) : (s.modConj r f).steady = s.steady := rfl
@[simp] theorem steady_setSlot (s : State) (k : Nat) (v : BitVec 8) : (s.setSlot k v).steady = s.steady := rfl
@[simp] theorem steady_modStage (s : State) (f : Stage → Stage) : (s.modStage f).steady = s.steady := rfl
@[simp] theorem steady_emit (s : State) (o : Out) : (s.emit o).steady = s.steady := rfl
@[simp] theorem steady_fresh (s : State) : s.fresh.2.steady = s.steady := rfl
@[simp] theorem steady_modLink (s : State) (d : Dev) (n : Nat) (f : Link → Link) : (s.modLink d n f).steady = s.steady := by
  cases d <;> rfl
@[simp] theorem steady_modBlock (s : State) (d : Dev) (b : Nat) (f : FaultBlock → FaultBlock) : (s.modBlock d b f).steady = s.steady := by
  cases d <;> rfl
@[simp] theorem steady_modCmds (s : State) (d : Dev) (f : Commands → Commands) : (s.modCmds d f).steady = s.steady := by cases d <;> rfl
@[simp] theorem steady_modPort (s : State) (d : Dev) (n : Nat) (f : CmdPort → CmdPort) : (s.modPort d n f).steady = s.steady := by
  cases d <;> rfl
@[simp] theorem steady_modGroup (s : State) (d : Dev) (h : Half) (f : MemberGroup → MemberGroup) : (s.modGroup d h f).steady = s.steady := by
  cases d <;> rfl
@[simp] theorem steady_modCoord (s : State) (d : Dev) (h : Half) (f : CoordGroup → CoordGroup) : (s.modCoord d h f).steady = s.steady := by
  cases d <;> rfl
@[simp] theorem steady_setReg (s : State) (d : Dev) (o : Nat) (v : Half) : (s.setReg d o v).steady = s.steady := by cases d <;> rfl
@[simp] theorem steady_setReg64 (s : State) (d : Dev) (o : Nat) (v : Word) : (s.setReg64 d o v).steady = s.steady := by cases d <;> rfl
@[simp] theorem steady_send (s : State) (d : Dev) (n : Nat) (m : Msg) : (s.send d n m).steady = s.steady := by cases d <;> rfl
@[simp] theorem steady_sendAll (s : State) (d : Dev) (ns : List Nat) (m : Msg) : (s.sendAll d ns m).steady = s.steady :=
  steady_foldl (fun s n => steady_send s d n m) ns s
@[simp] theorem steady_setJobWord (s : State) (job : BitVec 15) (i : Nat) (w : Word) : (s.setJobWord job i w).steady = s.steady := by
  unfold State.setJobWord
  split <;> simp

/-! ### Faults -/

@[simp] theorem steady_report (s : State) (d : Dev) (ws : List Word) : (s.report d ws).steady = s.steady :=
  steady_of_sansFaults (sansFaults_report ..)
@[simp] theorem steady_raiseFault (s : State) (d : Dev) (b : Nat) (code : Code) (ctx : Ctx) : (s.raiseFault d b code ctx).steady = s.steady :=
  steady_of_sansFaults (sansFaults_raiseFault ..)
@[simp] theorem steady_raiseLevel (s : State) (d : Dev) (b : Nat) (code : Code) (ctx : Ctx) : (s.raiseLevel d b code ctx).steady = s.steady :=
  steady_of_sansFaults (sansFaults_raiseLevel ..)
@[simp] theorem steady_endLevel (s : State) (d : Dev) (b : Nat) (code : Code) (ctx : Ctx) : (s.endLevel d b code ctx).steady = s.steady :=
  steady_modBlock ..
@[simp] theorem steady_raiseChan (s : State) (c : Nat) (code : Code) (ctx : Ctx) : (s.raiseChan c code ctx).steady = s.steady := by
  unfold State.raiseChan
  dsimp only
  split <;> simp
@[simp] theorem steady_gateFence (s : State) (c : Nat) (code : Code) (ctx : Ctx) : (s.gateFence c code ctx).steady = s.steady :=
  steady_report ..
@[simp] theorem steady_repeatBroken (s : State) (c : Nat) (ctx : Ctx) : (s.repeatBroken c ctx).steady = s.steady := steady_raiseChan ..

/-! ### Objects, waits and filters of a channel -/

@[simp] theorem steady_sramSpan (s : State) (tbl ch lo hi : Nat) : (s.sramSpan tbl ch lo hi).steady = s.steady := by
  refine steady_modTsu ?_
  dsimp only
  repeat' split
  all_goals rfl
@[simp] theorem steady_sramWrite (s : State) (tbl ch word : Nat) : (s.sramWrite tbl ch word).steady = s.steady := steady_sramSpan ..
@[simp] theorem steady_writeSels (s : State) (c : Nat) : (s.writeSels c).steady = s.steady := steady_sramSpan ..
@[simp] theorem steady_putSlot (s : State) (core : BitVec 11) (slot : BitVec 6) (v : BitVec 8) : (s.putSlot core slot v).steady = s.steady := by
  simp [State.putSlot]
@[simp] theorem steady_restoreObjects (s : State) (c : Nat) : (s.restoreObjects c).steady = s.steady := by
  unfold State.restoreObjects
  dsimp only
  rw [steady_foldl (by simp), steady_foldl (by simp), steady_modSync]
@[simp] theorem steady_clearObjects (s : State) (c : Nat) : (s.clearObjects c).steady = s.steady := rfl
@[simp] theorem steady_sendVote (s : State) (c : Nat) (ws : List Word) : (s.sendVote c ws).steady = s.steady :=
  (steady_modTsu rfl).trans (steady_send ..)
@[simp] theorem steady_earlyGate (s : State) (c : Nat) : (s.earlyGate c).steady = s.steady :=
  steady_ite rfl (steady_sendVote ..)
@[simp] theorem steady_coreRsp (s : State) (r : WaitRec) (kind : Nat) : (s.coreRsp r kind).steady = s.steady := by
  unfold State.coreRsp
  split <;> rfl
@[simp] theorem steady_cancelWaits (s : State) (c : Nat) : (s.cancelWaits c).steady = s.steady :=
  (steady_modSync ..).trans (steady_foldl (fun s r => steady_coreRsp s r 3) _ s)
@[simp] theorem steady_noteParity (s : State) (tbl c lo : Nat) : (s.noteParity tbl c lo).steady = s.steady :=
  steady_ite rfl ((steady_raiseChan ..).trans (steady_modTsu rfl))
@[simp] theorem steady_clearFilter (s : State) (f : Filter) : (s.clearFilter f).steady = s.steady := rfl
@[simp] theorem steady_unbindFilters (s : State) (c : Nat) : (s.unbindFilters c).steady = s.steady :=
  (steady_foldl steady_clearFilter _ _).trans (steady_modTsu rfl)
@[simp] theorem steady_dropHeld (s : State) (cs : List Nat) : (s.dropHeld cs).steady = s.steady := rfl

/-! ### Stopping a step (R133) -/

@[simp] theorem steady_enterHeld (s : State) (c cause : Nat) : (s.enterHeld c cause).steady = s.steady := by
  unfold State.enterHeld
  dsimp only
  split <;> simp
@[simp] theorem steady_stopStreams (s : State) (c : Nat) : (s.stopStreams c).steady = s.steady := rfl
@[simp] theorem steady_addCause (s : State) (c cause : Nat) : (s.addCause c cause).steady = s.steady := rfl
@[simp] theorem steady_stopOne (s : State) (c cause : Nat) : (s.stopOne c cause).steady = s.steady := by
  unfold State.stopOne
  dsimp only
  split
  · simp
  · split <;> simp
@[simp] theorem steady_stopMates (s : State) (mates : List Nat) (code : Code) (ctx : Ctx) : (s.stopMates mates code ctx).steady = s.steady :=
  steady_foldl (fun _ _ => steady_ite (steady_gateFence ..) (steady_stopOne ..)) mates s
@[simp] theorem steady_stopStep (s : State) (c cause : Nat) (code : Code) (ctx : Ctx) : (s.stopStep c cause code ctx).steady = s.steady := by
  unfold State.stopStep
  split
  · simp
  · split <;> simp
@[simp] theorem steady_stepFault (s : State) (c : Nat) (code : Code) (ctx : Ctx) : (s.stepFault c code ctx).steady = s.steady :=
  (steady_stopStep ..).trans (steady_raiseChan ..)
@[simp] theorem steady_judgedFault (s : State) (c : Nat) (code : Code) (ctx : Ctx) : (s.judgedFault c code ctx).steady = s.steady :=
  (steady_stepFault ..).trans (steady_ite (steady_modProg ..) rfl)
@[simp] theorem steady_stopBound (s : State) (ctx : Ctx) : (s.stopBound ctx).steady = s.steady :=
  steady_foldl (fun _ _ => steady_stopStep ..) chanNums s

/-! ### Completions and handles (R343, R345) -/

@[simp] theorem steady_postIrq (s : State) (d : Dev) (e : CplEntry) : (s.postIrq d e).steady = s.steady := by
  unfold State.postIrq
  dsimp only
  repeat' split
  all_goals rfl
@[simp] theorem steady_post (s : State) (d : Dev) (h : Half) (status : BitVec 8) (results : List Word) :
    (s.post d h status results).steady = s.steady := by
  unfold State.post
  dsimp only
  repeat' split
  all_goals simp [State.untrack]

/-- A command of another context than JTAG's is never denied, so its acceptance leaves the security state. -/
theorem steady_accept {s : State} {d : Dev} {h : Hdr} (hj : h.ctx ≠ 0x20) (op : BitVec 8) (light : Bool) (job : Option (BitVec 15)) :
    (s.accept d h op light job).1.steady = s.steady := by
  unfold State.accept
  dsimp only
  split
  · rename_i hden
    rw [State.cmdDenied, decide_eq_false hj, Bool.false_and] at hden
    cases hden
  · split
    · exact steady_modPort ..
    · split
      · exact steady_modPort ..
      · cases d <;> simp [State.track]
@[simp] theorem steady_selfHandle (s : State) (op : BitVec 8) (job : Option (BitVec 15)) : (s.selfHandle op job).1.steady = s.steady := by
  have haccept := steady_accept (s := s) (d := .jup) (h := { ctx := 0x40, override := false, notify := false }) (by decide) op false job
  unfold State.selfHandle
  dsimp only
  rw [steady_modCmds, haccept]

/-! ### Commit groups that a Jupin runs itself (R351 to R353) -/

@[simp] theorem steady_openGroup (s : State) (d : Dev) (h : Half) (ms : List Target) (serves : Option (BitVec 8 × BitVec 15 × List Word)) :
    (s.openGroup d h ms serves).steady = s.steady := by cases d <;> rfl
@[simp] theorem steady_holdStage (s : State) (d : Dev) (h : Half) (ordinal : BitVec 16) (job : Option (BitVec 15)) (ws : List StagedWrite)
    (member : Bool) (ports : List Nat) : (s.holdStage d h ordinal job ws member ports).steady = s.steady := by
  have hopen (c : Bool) (l : Common → List MemberGroup) : (if c then s else s.modCom d fun x => { x with groups := l x }).steady = s.steady :=
    steady_ite rfl (by cases d <;> rfl)
  unfold State.holdStage
  dsimp only
  refine steady_ite ?_ ?_
  · rw [steady_foldl fun _ _ => steady_emit .., steady_modGroup]
    exact hopen ..
  · rw [steady_modGroup]
    exact hopen ..
@[simp] theorem steady_stageHere (s : State) (d : Dev) (ws : List Word) (p : Nat) : (s.stageHere d ws p).steady = s.steady := by
  unfold State.stageHere
  dsimp only
  split <;> simp
@[simp] theorem steady_stagePart (s : State) (d : Dev) (h : Half) (t : Target) (ws : List StagedWrite) :
    (s.stagePart d h t ws).steady = s.steady := by
  unfold State.stagePart
  dsimp only
  split <;> simp
@[simp] theorem steady_stageOut (s : State) (d : Dev) (h : Half) (t : Target) (ws : List StagedWrite) :
    (s.stageOut d h t ws).steady = s.steady :=
  steady_foldl (fun s ws => steady_stagePart s d h t ws) _ s
@[simp] theorem steady_stageRest (s : State) (d : Dev) (h : Half) : (s.stageRest d h).steady = s.steady := by
  unfold State.stageRest
  split
  · rfl
  · exact steady_foldl (fun _ _ => steady_stageOut ..) _ s
@[simp] theorem steady_sendAggregate (s : State) (h : Half) : (s.sendAggregate h).steady = s.steady := by
  unfold State.sendAggregate
  repeat' split
  all_goals simp
@[simp] theorem steady_prepareHere (s : State) (d : Dev) (h : Half) (tc : Tick) (ready : BitVec 2) :
    (s.prepareHere d h tc ready).steady = s.steady := by
  unfold State.prepareHere
  dsimp only
  repeat' split
  all_goals simp
@[simp] theorem steady_releasePrepare (s : State) (d : Dev) (h : Half) (tick : Tick) : (s.releasePrepare d h tick).steady = s.steady := by
  unfold State.releasePrepare
  dsimp only
  repeat' split
  all_goals simp
@[simp] theorem steady_runGroup (s : State) (h : Half) (ms : List Target) (serves : Option (BitVec 8 × BitVec 15 × List Word))
    (stages : List (Target × List StagedWrite)) : (s.runGroup h ms serves stages).steady = s.steady := by
  rw [State.runGroup, steady_releasePrepare, steady_foldl fun _ _ => steady_stageOut .., steady_openGroup]
@[simp] theorem steady_runJobGroup (s : State) (h : Half) (ms : List Target) (serves : BitVec 8 × BitVec 15 × List Word)
    (stages : List (Target × List StagedWrite)) (at_ : Tick) : (s.runJobGroup h ms serves stages at_).steady = s.steady := by
  unfold State.runJobGroup
  split
  · simp
  · split
    · simp
    · rw [steady_modCoord, steady_foldl fun _ _ => steady_stageOut .., steady_openGroup]
@[simp] theorem steady_resetGroups (s : State) (hd : Half) (j : BitVec 15) (ms ts : List Target) (ps : List Half) :
    (s.resetGroups hd j ms ts ps).steady = s.steady := by
  refine steady_foldl (fun s e => ?_) _ s
  have hself := steady_selfHandle s opCgBegin (some j)
  split
  · rename_i heq; rw [heq] at hself; rw [steady_runJobGroup]; exact hself
  · rename_i heq; rw [heq] at hself; exact hself
theorem steady_resetPaths (s : State) (j : BitVec 15) (moves : List (BitVec 32)) : (s.resetPaths j moves).2.steady = s.steady := by
  have hfold (l : List Nat) (a : List Half × State) :
      (l.foldl (fun a _ => (if a.2.fresh.1.getLsbD 63 then a.1 ++ [a.2.freePath a.2.fresh.1] else a.1, a.2.fresh.2)) a).2.steady =
        a.2.steady := by
    induction l generalizing a with
    | nil => rfl
    | cons k l ih => exact (ih _).trans (steady_fresh a.2)
  unfold State.resetPaths
  split
  · rfl
  · exact hfold _ ([], s)
@[simp] theorem steady_remapGroup (s : State) (hd : Half) (j : BitVec 15) (ms : List Move) (serves : BitVec 8) :
    (s.remapGroup hd j ms serves).steady = s.steady := by
  rw [State.remapGroup, State.runResetGroup, State.noteRun, steady_modJup, steady_runJobGroup, steady_resetGroups, steady_resetPaths]

/-! ### Bring-ins and restores (R329 to R335) -/

@[simp] theorem steady_dropBringIn (s : State) (b : BringIn) : (s.dropBringIn b).steady = s.steady := rfl
@[simp] theorem steady_setBringIn (s : State) (b b' : BringIn) : (s.setBringIn b b').steady = s.steady := rfl
@[simp] theorem steady_noteRerun (s : State) (j : BitVec 15) (lo : BitVec 16) : (s.noteRerun j lo).steady = s.steady := rfl
@[simp] theorem steady_bringFails (s : State) (b : BringIn) (status : BitVec 8) : (s.bringFails b status).steady = s.steady := by
  unfold State.bringFails State.bringAgain
  split <;> simp
@[simp] theorem steady_spareLost (s : State) (p : Nat) (status : BitVec 8) : (s.spareLost p status).steady = s.steady := by
  refine steady_foldl (fun s b => ?_) _ s
  repeat' split
  all_goals simp
@[simp] theorem steady_restoreEnds (s : State) (p : Nat) (r : RestoreOp) (status : BitVec 8) : (s.restoreEnds p r status).steady = s.steady := by
  unfold State.restoreEnds
  split <;> simp
@[simp] theorem steady_openRestore (s : State) (p : Nat) (r : RestoreOp) : (s.openRestore p r).steady = s.steady := by
  unfold State.openRestore
  split
  · simp
  · rename_i s1 heq
    have hs1 : s1.steady = s.steady := by
      unfold State.openEntry at heq
      split at heq
      · cases heq
      · obtain rfl := Option.some.inj heq
        rfl
    dsimp only
    split <;> simp [hs1]
@[simp] theorem steady_forwardCmd (s : State) (h : Half) (p : Nat) (ws : List Word) : (s.forwardCmd h p ws).steady = s.steady :=
  (steady_modJup ..).trans (steady_send ..)
@[simp] theorem steady_bringRestore (s : State) (b : BringIn) (path : BitVec 32) (sections : BitVec 3) (override : Bool) :
    (s.bringRestore b path sections override).steady = s.steady := by
  unfold State.bringRestore
  dsimp only
  repeat' split
  all_goals simp
@[simp] theorem steady_pickSecond (s : State) (b : BringIn) (override : Bool) : (s.pickSecond b override).steady = s.steady := by
  unfold State.pickSecond
  dsimp only
  have hs := steady_ite (c := s.role = 1) (s := s) rfl (steady_fresh s)
  repeat' split
  all_goals simp
@[simp] theorem steady_bringIn (s : State) (hd : Half) (j : BitVec 15) (rank : BitVec 17) (given : BitVec 32) (dual override : Bool) :
    (s.bringIn hd j rank given dual override).steady = s.steady := by
  unfold State.bringIn
  dsimp only
  repeat' split
  all_goals simp
@[simp] theorem steady_rerunBringIns (s : State) (j : BitVec 15) (ranks : List (BitVec 17)) : (s.rerunBringIns j ranks).steady = s.steady := by
  refine steady_foldl (fun s r => ?_) ranks s
  have hself := steady_selfHandle s opBringIn (some j)
  split
  · rfl
  · split
    · rename_i heq; rw [heq] at hself; rw [steady_bringIn]; exact hself
    · rename_i heq; rw [heq] at hself; exact hself
@[simp] theorem steady_awaitSpares (s : State) (j : BitVec 15) : (s.awaitSpares j).steady = s.steady :=
  steady_ite rfl rfl
@[simp] theorem steady_tryRemap (s : State) (j : BitVec 15) : (s.tryRemap j).steady = s.steady := by
  unfold State.tryRemap
  dsimp only
  repeat' split
  all_goals simp
@[simp] theorem steady_bringReady (s : State) (b : BringIn) : (s.bringReady b).steady = s.steady := steady_tryRemap ..
@[simp] theorem steady_keepSpare (s : State) (b : BringIn) (path : BitVec 32) (unverified : Bool) :
    (s.keepSpare b path unverified).steady = s.steady := by
  unfold State.keepSpare
  dsimp only
  repeat' split
  all_goals simp

/-! ## The end of a tick -/

@[simp] theorem steady_judgeVote (s : State) (c : Nat) (u : Unsent) (j : VoteJudge) : (s.judgeVote c u j).steady = s.steady :=
  steady_ite (steady_modProg ..) ((steady_judgedFault ..).trans (steady_modProg ..))
theorem steady_judgeVotes (s : State) : s.judgeVotes.steady = s.steady := by
  refine steady_foldl (fun s c => steady_foldl (fun s u => ?_) _ s) chanNums s
  split
  · exact steady_ite (steady_judgeVote ..) rfl
  · rfl
theorem steady_dbgAct (s : State) (core : BitVec 11) (slot : BitVec 6) (op : Nat) (v : BitVec 8) : (s.dbgAct core slot op v).steady = s.steady := by
  refine (steady_foldl (fun s c => ?_) _ _).trans ?_
  · simp
  · split <;> simp
theorem steady_dbgDue (s : State) : s.dbgDue.steady = s.steady :=
  (steady_foldl (fun _ _ => steady_dbgAct ..) _ _).trans (steady_modSync ..)
theorem steady_parityStop (s : State) : s.parityStop.steady = s.steady :=
  steady_ite ((steady_stopBound ..).trans (steady_modTsu rfl)) rfl
theorem steady_answerCores (s : State) : s.answerCores.steady = s.steady :=
  (steady_modSync ..).trans (steady_foldl (fun _ _ => steady_emit ..) _ s)
theorem steady_settleMatches (s : State) : s.settleMatches.steady = s.steady := by
  refine steady_foldl (fun s b => ?_) _ s
  split <;> simp

theorem steady_endTick (s : State) : s.endTick.steady = s.steady := by
  rw [State.endTick, steady_settleMatches, steady_answerCores, steady_parityStop, steady_dbgDue, steady_judgeVotes]

/-! ## What acts with the tick -/

theorem steady_chanReset (s : State) (c : Nat) : (s.chanReset c).steady = s.steady := by
  have hchan (t : State) : (t.modTsu fun x => { x with chans := tset {} x.chans c {} }).steady = t.steady := rfl
  unfold State.chanReset
  dsimp only
  refine (steady_ite (steady_report ..) rfl).trans ?_
  rw [steady_modBlock, steady_unbindFilters, hchan, steady_clearObjects]
  split <;> simp
theorem steady_chanAct (s : State) (a : ChanAct) (c : Nat) : (s.chanAct a c).steady = s.steady := by
  cases a with
  | stop => exact steady_ite rfl ((steady_stopMates ..).trans (steady_stopOne ..))
  | go => exact steady_ite rfl ((steady_repeatBroken ..).trans (steady_modChan ..))
  | reset => exact steady_chanReset s c
theorem steady_chanActsDue (s : State) : s.chanActsDue.steady = s.steady :=
  (steady_foldl (fun _ _ => steady_chanAct ..) _ _).trans (steady_modTsu rfl)

theorem steady_countRing (s : State) (d : Dev) : (s.countRing d).steady = s.steady := by
  have hcount (t : State) (f : Common → Half) : (t.modCom d fun c => { c with ringCount := f c }).steady = t.steady := by cases d <;> rfl
  unfold State.countRing
  split
  · split
    · exact (hcount ..).trans (steady_fresh s)
    · rfl
  · exact hcount ..
theorem steady_dropFenceTick (s : State) : s.dropFenceTick.steady = s.steady := steady_dropHeld ..
theorem steady_sendDueVotes (s : State) : s.sendDueVotes.steady = s.steady :=
  steady_foldl (fun _ _ => steady_ite rfl ((steady_modProg ..).trans (steady_foldl (fun _ _ => steady_sendVote ..) _ _))) chanNums s
theorem steady_relatchBlock (s : State) (d : Dev) (b : Nat) : (s.relatchBlock d b).steady = s.steady := by
  unfold State.relatchBlock
  dsimp only
  repeat' split
  all_goals simp
theorem steady_relatchAll (s : State) (d : Dev) : (s.relatchAll d).steady = s.steady :=
  steady_foldl (fun _ _ => steady_relatchBlock ..) _ s
theorem steady_resyncTimeout (s : State) (d : Dev) : (s.resyncTimeout d).steady = s.steady := by
  have hclear : (s.modTime d fun x => { x with resync := none }).steady = s.steady := by cases d <;> rfl
  unfold State.resyncTimeout
  split
  · exact steady_ite ((steady_post ..).trans hclear) rfl
  · rfl
theorem steady_checkFloor (s : State) : s.checkFloor.steady = s.steady := by
  have hraise (l : List Nat) (t : State) : (l.foldl (fun s _ => s.raiseFault .jup blkRecord cSpareFloor {}) t).steady = t.steady :=
    steady_foldl (fun _ _ => steady_raiseFault ..) l t
  unfold State.checkFloor
  split
  · rfl
  dsimp only
  split
  · rw [steady_endLevel, steady_modJup]
  split
  · rw [hraise, steady_raiseLevel, steady_modJup]
  · rw [hraise, steady_modJup]
theorem steady_powerChoice (s : State) : s.powerChoice.steady = s.steady := by
  have hchoice (x : BitVec 3) (y : BitVec 4) : (s.modPower fun p => { p with chosen := x, limit := y }).steady = s.steady := rfl
  unfold State.powerChoice
  dsimp only
  split
  · rfl
  · split <;> simp [hchoice]

/-- One tick counts in both devices and ends a power-on reset; what else it does leaves the security state. -/
theorem steady_tick (s : State) :
    s.tick.steady = (s.tsuC.sec, s.jupC.sec, s.now .tsu + 1, s.now .jup + 1, false) := by
  have hcount (t : State) : t.countTick.steady = (t.tsuC.sec, t.jupC.sec, t.now .tsu + 1, t.now .jup + 1, t.tsu.power.por) := rfl
  have hreset (t : State) : t.countReset.steady = (t.tsuC.sec, t.jupC.sec, t.now .tsu, t.now .jup, false) := rfl
  have hbefore : s.endTick.countTick.chanActsDue.steady =
      (s.tsuC.sec, s.jupC.sec, s.now .tsu + 1, s.now .jup + 1, s.tsu.power.por) := by
    rw [steady_chanActsDue, hcount]
    obtain ⟨htsu, hjup, hnowT, hnowJ, hpor⟩ := steady_eq_iff.mp (steady_endTick s)
    rw [htsu, hjup, hnowT, hnowJ, hpor]
  have hafter : s.endTick.countTick.chanActsDue.countReset.steady = (s.tsuC.sec, s.jupC.sec, s.now .tsu + 1, s.now .jup + 1, false) := by
    obtain ⟨htsu, hjup, hnowT, hnowJ, -⟩ := steady_eq_iff.mp hbefore
    rw [hreset, htsu, hjup, hnowT, hnowJ]
  rw [State.tick, steady_powerChoice, steady_checkFloor, steady_resyncTimeout, steady_resyncTimeout, steady_relatchAll, steady_relatchAll,
    steady_sendDueVotes, steady_dropFenceTick, steady_countRing, steady_countRing, hafter]

/-! ## Reset (R34, R116, R373, R461) -/

/-- After reset each device holds nothing but reset values. -/
theorem com_reset (d : Dev) : State.reset.com d = {} := by cases d <;> rfl

theorem reg_reset (d : Dev) (off : Nat) : State.reset.reg d off = regReset d off := by
  rw [State.reg, com_reset]; rfl

/-- Settles O58: the reset state is read off its definition; the tick is `steady_tick`, and its queue stays empty since a tick keeps
what every step keeps. -/
theorem resetAndIdle : Obligations.ResetAndIdle := by
  refine ⟨fun d => ?reset, fun c => rfl, by decide, rfl, rfl, rfl, ?idle⟩
  case reset =>
    rw [com_reset]
    exact ⟨rfl, rfl, rfl, rfl, rfl, rfl, rfl, rfl, reg_reset d, rfl, rfl, rfl⟩
  case idle =>
    intro s hp
    obtain ⟨htsu, hjup, hnowT, hnowJ, hpor⟩ := steady_eq_iff.mp (steady_tick s)
    obtain ⟨hkept, -⟩ := keeps_tick s (keeps_refl s)
    have hpending : s.tick.pending = s.pending := (Prod.mk.inj (Prod.mk.inj hkept).2).2
    refine ⟨s.tick, ?_, hnowT, hnowJ, hpor, hpending.trans hp, htsu, hjup⟩
    rw [step, hp]

end Sys2Proof.Machine
end

section
/-! PROOFS of spec family 03: converters read back, and what leaves them alone. -/
namespace Sys2Proof.Machine
open Sys2Proof

/-! ## Converters read back -/

/-- A converter that is not as after reset reads as it was written. -/
theorem conv_modConv {s : State} {d : Dev} {n : Nat} {f : Conv → Conv} (h : f (s.conv d n) ≠ {}) :
    (s.modConv d n f).conv d n = f (s.conv d n) := by
  rw [State.conv, com_modConv]
  exact tget_tset_ne _ _ _ _ h

theorem conv_modConv_other {s : State} {d : Dev} {n k : Nat} {f : Conv → Conv} (h : k ≠ n) : (s.modConv d n f).conv d k = s.conv d k := by
  rw [State.conv, com_modConv]
  exact tget_tset_other _ _ _ _ _ h

/-- In canonical form a converter reads as it was written, whatever was written. -/
theorem conv_modConv_wf {s : State} {d : Dev} {n : Nat} {f : Conv → Conv} (h : Table.wf {} (s.com d).convs = true) :
    (s.modConv d n f).conv d n = f (s.conv d n) := by
  rw [State.conv, com_modConv]
  exact tget_tset_same _ _ _ _ h

theorem convCtl_modConvCtl {s : State} {d : Dev} {n : Nat} {f : ConvCtl → ConvCtl} (h : f (s.convCtl d n) ≠ {}) :
    (s.modConvCtl d n f).convCtl d n = f (s.convCtl d n) := by
  rw [State.convCtl, com_modConvCtl]
  exact tget_tset_ne _ _ _ _ h

theorem convCtl_modConvCtl_other {s : State} {d : Dev} {n k : Nat} {f : ConvCtl → ConvCtl} (h : k ≠ n) :
    (s.modConvCtl d n f).convCtl d k = s.convCtl d k := by
  rw [State.convCtl, com_modConvCtl]
  exact tget_tset_other _ _ _ _ _ h

@[simp] theorem conv_modConvCtl (s : State) (d : Dev) (n k : Nat) (f : ConvCtl → ConvCtl) :
    (s.modConvCtl d n f).conv d k = s.conv d k := by
  rw [State.conv, com_modConvCtl, State.conv]

@[simp] theorem convCtl_modConv (s : State) (d : Dev) (n k : Nat) (f : Conv → Conv) : (s.modConv d n f).convCtl d k = s.convCtl d k := by
  rw [State.convCtl, com_modConv, State.convCtl]

/-! ## What leaves every converter alone -/

/-- All that a device holds of its converters. -/
def State.converters (s : State) (d : Dev) : Table Conv × Table ConvCtl := ((s.com d).convs, (s.com d).convCtl)

theorem conv_of_converters {s t : State} {d : Dev} (h : t.converters d = s.converters d) (n : Nat) : t.conv d n = s.conv d n :=
  (congrArg (fun x : Table Conv × Table ConvCtl => tget {} x.1 n) h :)
theorem convCtl_of_converters {s t : State} {d : Dev} (h : t.converters d = s.converters d) (n : Nat) :
    t.convCtl d n = s.convCtl d n :=
  (congrArg (fun x : Table Conv × Table ConvCtl => tget {} x.2 n) h :)

theorem converters_of_sansFaults {s t : State} (h : t.sansFaults = s.sansFaults) (d : Dev) : t.converters d = s.converters d := by
  cases d
  · exact (congrArg (fun x : State => x.converters .tsu) h :)
  · exact (congrArg (fun x : State => x.converters .jup) h :)
theorem converters_of_sansSteering {s t : State} {d : Dev} (h : t.sansSteering d = s.sansSteering d) :
    t.converters d = s.converters d := by
  cases d
  · exact (congrArg (fun x : State => x.converters .tsu) h :)
  · exact (congrArg (fun x : State => x.converters .jup) h :)

theorem converters_foldl {α : Type} {d : Dev} {f : State → α → State} (h : ∀ s a, (f s a).converters d = s.converters d) (l : List α)
    (s : State) : (l.foldl f s).converters d = s.converters d := by
  induction l generalizing s with
  | nil => rfl
  | cons a l ih => exact (ih _).trans (h s a)

@[simp] theorem converters_modLt (s : State) (d : Dev) (n : Nat) (f : LinkTime → LinkTime) :
    (s.modLt d n f).converters d = s.converters d := by cases d <;> rfl
@[simp] theorem converters_modPulse (s : State) (d : Dev) (k : Nat) (f : Pulse → Pulse) :
    (s.modPulse d k f).converters d = s.converters d := by cases d <;> rfl
@[simp] theorem converters_raiseFault (s : State) (d : Dev) (b : Nat) (code : Code) (ctx : Ctx) :
    (s.raiseFault d b code ctx).converters d = s.converters d := converters_of_sansFaults (sansFaults_raiseFault ..) d

@[simp] theorem converters_postIrq (s : State) (d : Dev) (e : CplEntry) : (s.postIrq d e).converters d = s.converters d := by
  unfold State.postIrq
  dsimp only
  repeat' split
  all_goals rfl
@[simp] theorem converters_post (s : State) (d : Dev) (h : Half) (status : BitVec 8) (results : List Word) :
    (s.post d h status results).converters d = s.converters d := by
  unfold State.post
  dsimp only
  split
  · rfl
  split
  · rfl
  · rw [converters_postIrq]
    cases d <;> rfl

/-- Posting the calibrations that have ended. -/
@[simp] theorem converters_calPost (s : State) (d : Dev) : (s.calPost d).converters d = s.converters d := by
  unfold State.calPost
  dsimp only
  rw [converters_foldl fun _ _ => converters_post ..]
  cases d <;> rfl

/-! ### The consumers of a timestamp (R71) -/

@[simp] theorem converters_feedPulses (s : State) (d : Dev) (src : Nat) (st : Stamp) (din : Int) :
    (s.feedPulses d src st din).converters d = s.converters d := by
  refine converters_foldl (fun s k => ?_) _ s
  dsimp only
  split
  · exact converters_modPulse ..
  · rfl
@[simp] theorem converters_refEdge (s : State) (r : Nat) (st : Stamp) : (s.refEdge r st).converters .jup = s.converters .jup :=
  (converters_of_sansSteering (sansSteering_evalRef ..)).trans (converters_feedPulses ..)
@[simp] theorem converters_labelEdge (s : State) (r : Nat) (st : Stamp) : (s.labelEdge r st).converters .jup = s.converters .jup := by
  unfold State.labelEdge
  split
  · split
    · exact converters_post ..
    · rfl
  · rfl
/-- A timestamp delivered changes links, references, pulse outputs and completions. -/
theorem converters_deliver (s : State) (d : Dev) (n : Nat) (st : Stamp) : (s.deliver d n st).converters d = s.converters d := by
  unfold State.deliver
  split
  · split <;> exact converters_modLt ..
  · cases d with
    | tsu => dsimp only; split <;> simp
    | jup => dsimp only; split <;> simp

end Sys2Proof.Machine
end

section
/-! PROOFS of spec family 03: the widths that a build forms. -/
namespace Sys2Proof.Machine
open Sys2Proof

/-- Cumulative rounding telescopes: onto the rounded hits below, the widths add up to the rounded hits in all. -/
theorem foldl_buildWidths (h : List Nat) (H : Nat) :
    (buildWidths h H ((H + 8) / 16)).foldl (· + ·) ((H + 8) / 16) = (h.foldl (· + ·) H + 8) / 16 := by
  induction h generalizing H with
  | nil => rfl
  | cons x h ih =>
    have hmono : (H + 8) / 16 + ((H + x + 8) / 16 - (H + 8) / 16) = (H + x + 8) / 16 :=
      Nat.add_sub_cancel' (Nat.div_le_div_right (by omega))
    rw [buildWidths, List.foldl_cons, List.foldl_cons, hmono, ih]

/-- Settles O11: with no hits below, what the widths add up to is the rounded 2^20 hits, and 65,536 of them is one tick. -/
theorem builtWidthsSum : Obligations.BuiltWidthsSum := by
  intro h hsum
  calc (buildWidths h 0 0).foldl (· + ·) 0 = (h.foldl (· + ·) 0 + 8) / 16 := foldl_buildWidths h 0
    _ = 65536 := by rw [hsum]

end Sys2Proof.Machine
end

section
/-! PROOFS of spec family 03: edges at a converter. -/
namespace Sys2Proof.Machine
open Sys2Proof

/-! ## The outcomes of an edge (R67, R71, R74, R89) -/

theorem execVernierEdge_off {code : BitVec 8} {e : EdgeIn} {s : State} (h : s.evtSrc = 0) :
    exec (.vernierEdge .tsu 4 code e) s = .next s := by
  change execVernierEdge .tsu 4 code e s = _
  rw [execVernierEdge, if_pos ⟨rfl, rfl, h⟩]

theorem execVernierEdge_undetected {d : Dev} {n : Nat} {code : BitVec 8} {e : EdgeIn} {s : State} (hc : s.conditioned d n = true)
    (hd : s.detects d n e = false) : exec (.vernierEdge d n code e) s = .next s := by
  change execVernierEdge d n code e s = _
  simp only [execVernierEdge, hc, hd, Bool.not_false, and_self, if_true, ite_self]

section
variable {d : Dev} {n : Nat} {code : BitVec 8} {e : EdgeIn} {s : State}

/-- An input that is on and not gated. -/
theorem execVernierEdge_on (hon : d = .tsu → n = 4 → s.evtSrc ≠ 0) (hdet : s.conditioned d n = true → s.detects d n e = true)
    (hg : s.gated d n = false) :
    exec (.vernierEdge d n code e) s = .next (if s.conditioned d n ∧ !e.wide then s.dropEdge d n
      else if s.afterHit d n then s.modConvCtl d n fun c => { c with collide := satInc c.collide, lastService := some (s.now d) }
      else if !s.convReady d n then s.dropEdge d n else s.takeEdge d n code) := by
  have hoff : ¬ (d = .tsu ∧ n = 4 ∧ s.evtSrc = 0) := fun ⟨h1, h2, h3⟩ => hon h1 h2 h3
  have hundet : ¬ (s.conditioned d n = true ∧ (!s.detects d n e) = true) := fun ⟨h1, h2⟩ => by simp [hdet h1] at h2
  change execVernierEdge d n code e s = _
  rw [execVernierEdge, if_neg hoff, if_neg hundet, hg, if_neg Bool.false_ne_true]

theorem execVernierEdge_narrow (hon : d = .tsu → n = 4 → s.evtSrc ≠ 0) (hc : s.conditioned d n = true) (hd : s.detects d n e = true)
    (hw : e.wide = false) (hg : s.gated d n = false) : exec (.vernierEdge d n code e) s = .next (s.dropEdge d n) := by
  rw [execVernierEdge_on hon (fun _ => hd) hg, if_pos ⟨hc, by rw [hw]; rfl⟩]

/-- An edge that the input's conditioning passes. -/
theorem execVernierEdge_passed (hon : d = .tsu → n = 4 → s.evtSrc ≠ 0)
    (hpass : s.conditioned d n = true → s.detects d n e = true ∧ e.wide = true) (hg : s.gated d n = false) :
    exec (.vernierEdge d n code e) s = .next (
      if s.afterHit d n then s.modConvCtl d n fun c => { c with collide := satInc c.collide, lastService := some (s.now d) }
      else if !s.convReady d n then s.dropEdge d n else s.takeEdge d n code) := by
  have hwide : ¬ (s.conditioned d n = true ∧ (!e.wide) = true) := fun ⟨h1, h2⟩ => by simp [(hpass h1).2] at h2
  rw [execVernierEdge_on hon (fun h => (hpass h).1) hg, if_neg hwide]

end

/-- An edge that is taken is converted, and nothing but its converter changes. -/
theorem takeEdge_converts (s : State) (d : Dev) (n : Nat) (code : BitVec 8) :
    (s.takeEdge d n code).conv d n = { s.conv d n with lastEdge := some (s.now d), busy := some (s.now d, code) } ∧
      (s.takeEdge d n code).convCtl d n = { s.convCtl d n with lastService := some (s.now d) } := by
  constructor
  · rw [State.takeEdge, conv_modConvCtl, conv_modConv (by intro h; cases congrArg Conv.lastEdge h)]
  · rw [State.takeEdge, convCtl_modConvCtl (by intro h; cases congrArg ConvCtl.lastService h), convCtl_modConv]

theorem takeEdge_frame (s : State) (d : Dev) (n : Nat) (code : BitVec 8) :
    (∀ m, m ≠ n → (s.takeEdge d n code).conv d m = s.conv d m) ∧ ((s.takeEdge d n code).com d).time = (s.com d).time ∧
      (s.takeEdge d n code).tsu = s.tsu ∧ (s.takeEdge d n code).jup = s.jup ∧ (s.takeEdge d n code).out = s.out := by
  refine ⟨fun m hm => ?_, ?_⟩
  · rw [State.takeEdge, conv_modConvCtl, conv_modConv_other hm]
  · simp [State.takeEdge]

theorem convReady_iff {s : State} {d : Dev} {n : Nat} {t : Tick} (h : (s.conv d n).lastEdge = some t) :
    s.convReady d n = true ↔ t.toNat + 32 ≤ (s.now d).toNat := by
  rw [State.convReady, h, decide_eq_true_iff, State.nowN]

/-! ## Delivery (R70, R71) -/

theorem execTimestampDelivered_idle {d : Dev} {n : Nat} {s : State} (h : (s.conv d n).busy = none) :
    exec (.timestampDelivered d n) s = .next s := by
  change execTimestampDelivered d n s = _
  rw [execTimestampDelivered, h]

theorem execTimestampDelivered_due {d : Dev} {n : Nat} {t : Tick} {code : BitVec 8} {s : State} (h : (s.conv d n).busy = some (t, code))
    (ht : t.toNat + 20 ≤ (s.now d).toNat) :
    exec (.timestampDelivered d n) s = .next ((s.modConv d n fun c =>
      { c with busy := none, lastValid := true, lastCode := code, lastFrac := (s.lookup d n t code).frac,
               lastTickLo := t.extractLsb' 0 32 }).deliver d n (s.lookup d n t code)) := by
  change execTimestampDelivered d n s = _
  rw [execTimestampDelivered, h]
  exact due_of (decide_eq_true ht)

/-- Settles O8: an edge that the conditioning passes has three outcomes, each with its own premise; a timestamp leaves its
converter as delivered, since its consumers touch no converter. -/
theorem edgeTimestamped : Obligations.EdgeTimestamped := by
  refine ⟨?taken, fun d n code e s => execVernierEdge_undetected, fun d n code e s => execVernierEdge_narrow, ?early, ?collides,
    fun s code e => execVernierEdge_off, fun s d n t => convReady_iff, fun d n t code s => execTimestampDelivered_due, ?delivered,
    fun d n s => execTimestampDelivered_idle⟩
  case taken =>
    intro d n code e s hon hpass hg hh hr
    have htake : exec (.vernierEdge d n code e) s = .next (s.takeEdge d n code) := by
      simp [execVernierEdge_passed hon hpass hg, hh, hr]
    obtain ⟨hconv, hctl⟩ := takeEdge_converts s d n code
    exact ⟨_, htake, by rw [hconv], by rw [hconv], by rw [hctl], by rw [hctl], takeEdge_frame s d n code⟩
  case early =>
    intro d n code e s hon hpass hg hh hr
    simp [execVernierEdge_passed hon hpass hg, hh, hr, State.dropEdge]
  case collides =>
    intro d n code e s hon hpass hg hh
    simp [execVernierEdge_passed hon hpass hg, hh]
  case delivered =>
    intro d n t code s h ht
    refine ⟨_, execTimestampDelivered_due h ht, ?_⟩
    rw [conv_of_converters (converters_deliver ..), conv_modConv (by intro h; cases congrArg Conv.lastValid h)]
    exact ⟨rfl, rfl, rfl, rfl, rfl⟩

end Sys2Proof.Machine
end

section
/-! PROOFS of spec family 03: tables written by software, CAL_VERNIER and the temperature. -/
namespace Sys2Proof.Machine
open Sys2Proof

/-! ## A table written by software (R80) -/

section
variable {d : Dev} {n : Nat} {k : BitVec 16} {s : State}

theorem execVrnSwapGo_standing (hg : (s.convCtl d n).go = true) : exec (.vrnSwapGo d n k) s = .next s := by
  change execVrnSwapGo d n k s = _
  rw [execVrnSwapGo, State.vrnSwap, if_pos hg]

theorem execVrnSwapGo_checked (hg : (s.convCtl d n).go = false) (hw : s.writtenOk d n k = true) :
    exec (.vrnSwapGo d n k) s = .next ((s.modConvCtl d n fun x =>
      { x with check := k, go := true, bad := false, swapPend := true, swapAt := s.nextBoundary d, newAt := some (s.now d),
               newTemp := (s.com d).time.temp }).modConv d n
      fun c => if c.bank then { c with valid0 := true } else { c with valid1 := true }) := by
  change execVrnSwapGo d n k s = _
  rw [execVrnSwapGo, State.vrnSwap, hg, if_neg Bool.false_ne_true, if_pos hw]

theorem execVrnSwapGo_bad (hg : (s.convCtl d n).go = false) (hw : s.writtenOk d n k = false) :
    exec (.vrnSwapGo d n k) s =
      .next ((s.modConvCtl d n fun x => { x with check := k, bad := true }).raiseFault d (blkConv d n) cCalBad (convCtx d n)) := by
  change execVrnSwapGo d n k s = _
  rw [execVrnSwapGo, State.vrnSwap, hg, if_neg Bool.false_ne_true, hw, if_neg Bool.false_ne_true]

end

/-- VALID of the inactive bank is set, and its converter is not as after reset. -/
theorem conv_modConv_inactiveValid (s : State) (d : Dev) (n : Nat) :
    (s.modConv d n fun c => if c.bank then { c with valid0 := true } else { c with valid1 := true }).conv d n =
      if (s.conv d n).bank then { s.conv d n with valid0 := true } else { s.conv d n with valid1 := true } := by
  refine conv_modConv ?_
  split
  · intro h; cases congrArg Conv.valid0 h
  · intro h; cases congrArg Conv.valid1 h

/-! ## CAL_VERNIER (R81, R82) -/

/-- The command is under way: it waits for every converter of its range. -/
def State.openCal (s : State) (d : Dev) (hd : Half) (a b : Nat) : State :=
  s.modCom d fun c => { c with calCmds := c.calCmds ++
    [{ handle := hd, first := a, last := b, left := convRange d a b, built := 0, swapped := 0, held := 0, rejected := false,
       worst := 0, endTick := s.now d }] }

section
variable {d : Dev} {h : Hdr} {a b : Nat} {fg hold : Bool} {s s' : State} {hd : Half}

theorem execCalVernier_busy (ha : s.accept d h opCalVernier = (s', some hd))
    (ho : ∃ n ∈ convRange d a b, (s'.convCtl d n).owner.isSome = true) :
    exec (.calVernier d h a b fg hold) s = .next (s'.post d hd stBusy []) := by
  change execCalVernier d h a b fg hold s = _
  rw [execCalVernier, withHandle_accepted _ _ _ _ _ _ _ _ _ ha]
  dsimp only
  rw [if_pos (List.any_eq_true.mpr ho)]

/-- No converter of the range builds for a command. -/
theorem not_any_owner (ho : ∀ n ∈ convRange d a b, (s.convCtl d n).owner = none) :
    ¬ ((convRange d a b).any fun n => (s.convCtl d n).owner.isSome) = true := by
  simp only [List.any_eq_true, not_exists, not_and]
  intro n hn
  simp [ho n hn]

theorem execCalVernier_inService (ha : s.accept d h opCalVernier = (s', some hd))
    (ho : ∀ n ∈ convRange d a b, (s'.convCtl d n).owner = none) (hs : ∃ n ∈ convRange d a b, s'.hasService d n = true) :
    exec (.calVernier d h a b true hold) s = .next (s'.post d hd stInService []) := by
  change execCalVernier d h a b true hold s = _
  rw [execCalVernier, withHandle_accepted _ _ _ _ _ _ _ _ _ ha]
  dsimp only
  rw [if_neg (not_any_owner ho), Bool.true_and, if_pos (List.any_eq_true.mpr hs)]

theorem execCalVernier_starts (ha : s.accept d h opCalVernier = (s', some hd))
    (ho : ∀ n ∈ convRange d a b, (s'.convCtl d n).owner = none)
    (hs : fg = true → ∀ n ∈ convRange d a b, s'.hasService d n = false) :
    exec (.calVernier d h a b fg hold) s =
      .next (((convRange d a b).foldl (fun s n => s.startBuild d n hd hold) (s'.openCal d hd a b)).calPost d) := by
  have hfree : ¬ (fg && (convRange d a b).any fun n => s'.hasService d n) = true := by
    simp only [Bool.and_eq_true, List.any_eq_true, not_and, not_exists]
    intro hfg n hn
    simp [hs hfg n hn]
  change execCalVernier d h a b fg hold s = _
  rw [execCalVernier, withHandle_accepted _ _ _ _ _ _ _ _ _ ha]
  dsimp only
  rw [if_neg (not_any_owner ho), if_neg hfree]
  rfl

end

/-! ### The builds that it starts -/

/-- Converter `n` builds for the command from an empty histogram. -/
def State.buildsFor (s : State) (d : Dev) (hd : Half) (hold : Bool) (n : Nat) : Prop :=
  (s.convCtl d n).owner = some hd ∧ (s.convCtl d n).hold = hold ∧ (s.conv d n).running = true ∧ (s.conv d n).hits = 0 ∧
    (s.conv d n).hist = []

theorem buildsFor_startBuild (s : State) (d : Dev) (hd : Half) (hold : Bool) (n : Nat) :
    (s.startBuild d n hd hold).buildsFor d hd hold n := by
  rw [State.buildsFor, State.startBuild, conv_modConvCtl, conv_modConv (by intro h; cases congrArg Conv.running h),
    convCtl_modConvCtl (by intro h; cases congrArg ConvCtl.owner h)]
  exact ⟨rfl, rfl, rfl, rfl, rfl⟩

theorem buildsFor_startBuild_any {s : State} {d : Dev} {hd : Half} {hold : Bool} {n : Nat} (k : Nat) (h : s.buildsFor d hd hold n) :
    (s.startBuild d k hd hold).buildsFor d hd hold n := by
  by_cases hk : n = k
  · subst hk
    exact buildsFor_startBuild s d hd hold n
  · rwa [State.buildsFor, State.startBuild, conv_modConvCtl, conv_modConv_other hk, convCtl_modConvCtl_other hk, convCtl_modConv]

theorem buildsFor_foldl_startBuild (ns : List Nat) {s : State} {d : Dev} {hd : Half} {hold : Bool} {n : Nat}
    (h : n ∈ ns ∨ s.buildsFor d hd hold n) : (ns.foldl (fun s n => s.startBuild d n hd hold) s).buildsFor d hd hold n := by
  induction ns generalizing s with
  | nil => exact h.resolve_left List.not_mem_nil
  | cons k ns ih =>
    refine ih ?_
    rcases h with h | h
    · rcases List.mem_cons.mp h with rfl | h
      · exact .inr (buildsFor_startBuild ..)
      · exact .inl h
    · exact .inr (buildsFor_startBuild_any k h)

theorem buildsFor_of_converters {s t : State} {d : Dev} (h : t.converters d = s.converters d) {hd : Half} {hold : Bool} {n : Nat}
    (hs : s.buildsFor d hd hold n) : t.buildsFor d hd hold n := by
  rwa [State.buildsFor, conv_of_converters h, convCtl_of_converters h]

/-! ## TEMP_UPDATE (R413) -/

/-- The state without the converters of a device and its fault blocks. -/
def State.sansConverters (s : State) (d : Dev) : State := s.modCom d fun c => { c with convs := [], blocks := [] }

theorem sansConverters_endStale (s : State) (d : Dev) (n : Nat) : (s.endStale d n).sansConverters d = s.sansConverters d := by
  unfold State.endStale
  split
  · rfl
  · cases d <;> rfl
theorem sansConverters_freshen (s : State) (d : Dev) (n : Nat) : (s.freshen d n).sansConverters d = s.sansConverters d := by
  unfold State.freshen
  split
  · rw [sansConverters_endStale]
    cases d <;> rfl
  · rfl
theorem sansConverters_freshenAll (s : State) (d : Dev) : (s.freshenAll d).sansConverters d = s.sansConverters d := by
  have hfold (ns : List Nat) (t : State) : (ns.foldl (fun s n => s.freshen d n) t).sansConverters d = t.sansConverters d := by
    induction ns generalizing t with
    | nil => rfl
    | cons n ns ih => exact (ih _).trans (sansConverters_freshen t d n)
  exact hfold ..

/-- An end of STALE changes neither time nor the Clock Room, nor anything outside the device's common state. -/
theorem freshenAll_frame (s : State) (d : Dev) :
    ((s.freshenAll d).com d).time = (s.com d).time ∧ ((s.freshenAll d).com d).cr = (s.com d).cr ∧ (s.freshenAll d).tsu = s.tsu ∧
      (s.freshenAll d).jup = s.jup ∧ (s.freshenAll d).out = s.out := by
  have h := sansConverters_freshenAll s d
  have hcom := congrArg (fun x : State => x.com d) h
  have htsu := congrArg State.tsu h
  have hjup := congrArg State.jup h
  have hout := congrArg State.out h
  simp only [State.sansConverters, com_modCom, tsu_modCom, jup_modCom, out_modCom] at hcom htsu hjup hout
  exact ⟨(congrArg Common.time hcom :), (congrArg Common.cr hcom :), htsu, hjup, hout⟩

theorem execTempUpdate_eq (d : Dev) (t : BitVec 8) (s : State) :
    exec (.tempUpdate d t) s = .next ((s.modTime d fun x => { x with temp := t }).freshenAll d) := rfl

/-- Settles O10: each command has one equation per case; the converter that a GO leaves is read back, and each converter of a
command's range builds for it, whatever builds were started after its own. -/
theorem tablesCommanded : Obligations.TablesCommanded := by
  refine ⟨?bad, ?checked, fun d n k s => execVrnSwapGo_standing, fun d h a b hold fg s s' hd => execCalVernier_busy,
    fun d h a b hold s s' hd => execCalVernier_inService, ?starts, ?temp⟩
  case bad =>
    intro d n k s hg hw
    refine ⟨execVrnSwapGo_bad hg hw, _, execVrnSwapGo_bad hg hw, ?_⟩
    rw [convCtl_of_converters (converters_raiseFault ..), convCtl_modConvCtl (by intro h; cases congrArg ConvCtl.bad h)]
    exact ⟨rfl, hg, rfl⟩
  case checked =>
    intro d n k s hg hw
    refine ⟨_, execVrnSwapGo_checked hg hw, ?_⟩
    rw [conv_modConv_inactiveValid, conv_modConvCtl, convCtl_modConv,
      convCtl_modConvCtl (by intro h; cases congrArg ConvCtl.go h)]
    simp only [tsu_modConv, jup_modConv, out_modConv, tsu_modConvCtl, jup_modConvCtl, out_modConvCtl, true_and, and_true]
    cases (s.conv d n).bank <;> simp
  case starts =>
    intro d h a b hold fg s s' hd ha ho hs
    refine ⟨_, execCalVernier_starts ha ho hs, fun n hn => ?_⟩
    exact buildsFor_of_converters (converters_calPost ..) (buildsFor_foldl_startBuild _ (.inl hn))
  case temp =>
    intro d t s
    obtain ⟨htime, hcr, htsu, hjup, hout⟩ := freshenAll_frame (s.modTime d fun x => { x with temp := t }) d
    rw [com_modTime] at htime hcr
    rw [tsu_modTime] at htsu
    rw [jup_modTime] at hjup
    rw [out_modTime] at hout
    exact ⟨_, execTempUpdate_eq d t s, htime, hcr, htsu, hjup, hout⟩

end Sys2Proof.Machine
end

section
/-! PROOFS of spec family 03: the end of a build. -/
namespace Sys2Proof.Machine
open Sys2Proof

theorem execVernierBuildEnd_full {d : Dev} {n : Nat} {s : State} (h : (s.conv d n).hits = 1048576) :
    exec (.vernierBuildEnd d n) s = .next (s.buildEnd d n) := by
  change execVernierBuildEnd d n s = _
  exact due_of (decide_eq_true h)

/-- The widths of the build under way (R73). -/
def Conv.builtWidths (c : Conv) : List Nat := buildWidths ((List.range 256).map fun k => tget 0 c.hist k) 0 0

/-- The build is over: its histogram stands as the last one, and no command owns the converter. -/
def State.closeBuild (s : State) (d : Dev) (n : Nat) : State :=
  (s.modConv d n fun c => { c with running := false, hits := 0, lastHist := c.hist, hist := [] }).modConvCtl d n
    fun x => { x with owner := none, hold := false }

/-- The build is over and its table formed. -/
def State.formTable (s : State) (d : Dev) (n : Nat) : State :=
  ((s.closeBuild d n).modCal d (s.convCtl d n).owner fun q =>
    { q with built := q.built + 1,
             worst := max q.worst (if widthsValid (s.conv d n).builtWidths then
               cumDelta (tableOf (s.conv d n).builtWidths) (Conv.active (s.conv d n)) else 0),
             endTick := if q.swapped = 0 then s.now d else q.endTick }).storeTable d n (tableOf (s.conv d n).builtWidths)
      (widthsValid (s.conv d n).builtWidths)

theorem buildEnd_failed {s : State} {d : Dev} {n : Nat} (h : widthsValid (s.conv d n).builtWidths = false) :
    s.buildEnd d n = ((s.formTable d n).failBuild d n).buildOver d n (s.convCtl d n).owner fun q => { q with rejected := true } := by
  change ite _ _ _ = _
  rw [if_pos (by simpa [Conv.builtWidths] using h)]
  rfl

theorem buildEnd_first {s : State} {d : Dev} {n : Nat} (h : widthsValid (s.conv d n).builtWidths = true)
    (hh : (s.convCtl d n).hold = false) (hc : (s.conv d n).cand = none) (hv : Conv.valid (s.conv d n) = false) :
    s.buildEnd d n = ((s.formTable d n).modConv d n fun c => { c with fails := 0, cand := none }).modConvCtl d n fun x =>
      { x with swapPend := true, swapAt := s.nextBoundary d, swapOwner := (s.convCtl d n).owner } := by
  have hout (new : Table (BitVec 16)) (l : Nat) : buildOutcome (s.conv d n) new l = .swap false := by simp [buildOutcome, hc, hv]
  change ite _ _ _ = _
  rw [if_neg (by simpa [Conv.builtWidths] using h), hh, if_neg Bool.false_ne_true, hout]
  rfl

/-! ## What it leaves of a converter that stands in canonical tables -/

theorem convCtl_modConvCtl_wf {s : State} {d : Dev} {n : Nat} {f : ConvCtl → ConvCtl} (h : Table.wf {} (s.com d).convCtl = true) :
    (s.modConvCtl d n f).convCtl d n = f (s.convCtl d n) := by
  rw [State.convCtl, com_modConvCtl]
  exact tget_tset_same _ _ _ _ h

theorem converters_modCal (s : State) (d : Dev) (h : Option Half) (f : CalCmd → CalCmd) : (s.modCal d h f).converters d = s.converters d := by
  cases h <;> cases d <;> rfl
theorem converters_buildOver (s : State) (d : Dev) (n : Nat) (h : Option Half) (f : CalCmd → CalCmd) :
    (s.buildOver d n h f).converters d = s.converters d :=
  (converters_calPost ..).trans (converters_modCal ..)
theorem com_modCal_convs (s : State) (d : Dev) (h : Option Half) (f : CalCmd → CalCmd) :
    ((s.modCal d h f).com d).convs = (s.com d).convs := congrArg Prod.fst (converters_modCal ..)
theorem com_modCal_time (s : State) (d : Dev) (h : Option Half) (f : CalCmd → CalCmd) : ((s.modCal d h f).com d).time = (s.com d).time := by
  cases h <;> cases d <;> rfl

/-- The formed table in the inactive bank. -/
def Conv.form (c : Conv) (new : Table (BitVec 16)) (valid : Bool) : Conv :=
  if c.bank then { c.setInactive new with valid0 := valid } else { c.setInactive new with valid1 := valid }

/-- Forming a table touches neither the build nor its counters, nor which bank is active. -/
theorem form_frame (c : Conv) (new : Table (BitVec 16)) (valid : Bool) :
    (c.form new valid).fails = c.fails ∧ (c.form new valid).hits = c.hits ∧ (c.form new valid).lastHist = c.lastHist ∧
      (c.form new valid).bank = c.bank := by
  unfold Conv.form Conv.setInactive
  cases c.bank <;> simp

theorem convs_formTable (s : State) (d : Dev) (n : Nat) :
    ((s.formTable d n).com d).convs = tmod {} ((s.closeBuild d n).com d).convs n fun c =>
      c.form (tableOf (s.conv d n).builtWidths) (widthsValid (s.conv d n).builtWidths) := by
  rw [State.formTable, State.storeTable, com_modConvCtl, com_modConv, com_modCal_convs]
  rfl

section
variable {s : State} {d : Dev} {n : Nat}

theorem wf_closeBuild (h : Table.wf {} (s.com d).convs = true) : Table.wf {} ((s.closeBuild d n).com d).convs = true := by
  rw [State.closeBuild, com_modConvCtl, com_modConv]
  exact Table.wf_tset _ _ _ _ h

theorem wf_formTable (h : Table.wf {} (s.com d).convs = true) : Table.wf {} ((s.formTable d n).com d).convs = true := by
  rw [convs_formTable]
  exact Table.wf_tset _ _ _ _ (wf_closeBuild h)

theorem conv_formTable (h : Table.wf {} (s.com d).convs = true) :
    (s.formTable d n).conv d n =
      Conv.form { s.conv d n with running := false, hits := 0, lastHist := (s.conv d n).hist, hist := [] }
        (tableOf (s.conv d n).builtWidths) (widthsValid (s.conv d n).builtWidths) := by
  have hclose : (s.closeBuild d n).conv d n =
      { s.conv d n with running := false, hits := 0, lastHist := (s.conv d n).hist, hist := [] } := by
    rw [State.closeBuild, conv_modConvCtl, conv_modConv_wf h]
  rw [State.conv, convs_formTable, ← hclose]
  exact tget_tset_same _ _ _ _ (wf_closeBuild h)

theorem conv_failBuild (h : Table.wf {} (s.com d).convs = true) :
    (s.failBuild d n).conv d n = { s.conv d n with fails := satInc (s.conv d n).fails, cand := none } := by
  unfold State.failBuild
  dsimp only
  split
  · rw [conv_of_converters (converters_raiseFault ..), conv_modConv_wf h]
  · rw [conv_modConv_wf h]

/-- R75, for a converter in a canonical table: a build whose widths fail counts in FAILS, leaves its histogram as the last one,
and the active bank as it was. -/
theorem execVernierBuildEnd_failed (hwf : Table.wf {} (s.com d).convs = true) (hhits : (s.conv d n).hits = 1048576)
    (hw : widthsValid (s.conv d n).builtWidths = false) :
    ∃ t, exec (.vernierBuildEnd d n) s = .next t ∧ (t.conv d n).fails = satInc (s.conv d n).fails ∧ (t.conv d n).hits = 0 ∧
      (t.conv d n).lastHist = (s.conv d n).hist ∧ (t.conv d n).bank = (s.conv d n).bank := by
  refine ⟨_, execVernierBuildEnd_full hhits, ?_⟩
  rw [buildEnd_failed hw, conv_of_converters (converters_buildOver ..), conv_failBuild (wf_formTable hwf), conv_formTable hwf]
  obtain ⟨hfails, hhits0, hlast, hbank⟩ := form_frame
    { s.conv d n with running := false, hits := 0, lastHist := (s.conv d n).hist, hist := [] }
    (tableOf (s.conv d n).builtWidths) (widthsValid (s.conv d n).builtWidths)
  exact ⟨congrArg satInc hfails, hhits0, hlast, hbank⟩

/-! ### A first table that passes -/

theorem convCtl_formTable (h : Table.wf {} (s.com d).convCtl = true) :
    (s.formTable d n).convCtl d n =
      { s.convCtl d n with owner := none, hold := false, newAt := some (s.now d), newTemp := (s.com d).time.temp } := by
  have hclose : (s.closeBuild d n).convCtl d n = { s.convCtl d n with owner := none, hold := false } := by
    rw [State.closeBuild, convCtl_modConvCtl_wf (by rw [com_modConv]; exact h), convCtl_modConv]
  have htime : ((s.closeBuild d n).com d).time = (s.com d).time := by rw [State.closeBuild, com_modConvCtl, com_modConv]
  rw [State.formTable, State.storeTable, convCtl_modConvCtl (by intro h; cases congrArg ConvCtl.newAt h), convCtl_modConv,
    convCtl_of_converters (converters_modCal ..), hclose, State.now, com_modCal_time, htime, State.now]

/-- A swap waits for a multiple of 8,192 ticks, past the last tick of the counter too. -/
theorem nextBoundary_mod (s : State) (d : Dev) : (s.nextBoundary d).toNat % 8192 = 0 := by
  rw [State.nextBoundary, BitVec.toNat_ofNat, exPeriod]
  omega

/-- R75 and R76, for a converter in a canonical table: a first table that passes waits for the next multiple of 8,192 ticks, and
no command owns the converter any more. -/
theorem execVernierBuildEnd_first (hwf : Table.wf {} (s.com d).convCtl = true) (hhits : (s.conv d n).hits = 1048576)
    (hhold : (s.convCtl d n).hold = false) (hc : (s.conv d n).cand = none) (hv : Conv.valid (s.conv d n) = false)
    (hw : widthsValid (s.conv d n).builtWidths = true) :
    ∃ t, exec (.vernierBuildEnd d n) s = .next t ∧ (t.convCtl d n).swapPend = true ∧ (t.convCtl d n).swapAt.toNat % 8192 = 0 ∧
      (t.convCtl d n).newAt = some (s.now d) ∧ (t.convCtl d n).swapOwner = (s.convCtl d n).owner ∧ (t.convCtl d n).owner = none := by
  refine ⟨_, execVernierBuildEnd_full hhits, ?_⟩
  rw [buildEnd_first hw hhold hc hv, convCtl_modConvCtl (by intro h; cases congrArg ConvCtl.swapPend h), convCtl_modConv,
    convCtl_formTable hwf]
  exact ⟨rfl, nextBoundary_mod s d, rfl, rfl, rfl⟩

end

end Sys2Proof.Machine
end

section
/-! PROOFS of spec family 03: a build that ends on a converter listed twice. -/
namespace Sys2Proof.Machine
open Sys2Proof

/-- Converter 0 of the TSU is listed twice: first with a full build whose histogram is empty, and behind that with bank 1 active. -/
def doubledConverter : State := { tsuC := { convs := [(0, { hits := 1048576 }), (0, { bank := true })] } }

/-- No canonical table lists a converter twice. -/
theorem wf_doubledConverter : Table.wf {} doubledConverter.tsuC.convs = false := by decide

/-- It is what the clause of the failed build asks for. -/
theorem doubledConverter_full :
    (doubledConverter.conv .tsu 0).hits = 1048576 ∧ widthsValid (doubledConverter.conv .tsu 0).builtWidths = false := by
  decide +kernel

/-- With its build over the converter reads as after reset, so its entry goes, and the one behind it is read from then on. -/
theorem bank_buildEnd_doubledConverter :
    (doubledConverter.conv .tsu 0).bank = false ∧ ((doubledConverter.buildEnd .tsu 0).conv .tsu 0).bank = true := by
  decide +kernel

/-- Refutes O9: the clause of a build whose widths fail asks for no canonical table of converters. Where converter 0 is listed
twice the end of its build uncovers the second entry, and with it another active bank. In a canonical table the clause holds
(`execVernierBuildEnd_failed`). -/
theorem not_tablesBuilt : ¬ Obligations.TablesBuilt := by
  intro h
  obtain ⟨-, -, -, -, hfails, -⟩ := h
  obtain ⟨hhits, hwidths⟩ := doubledConverter_full
  obtain ⟨hbefore, hafter⟩ := bank_buildEnd_doubledConverter
  obtain ⟨t, ht, -, -, -, hbank⟩ := hfails .tsu 0 doubledConverter hhits hwidths
  rw [execVernierBuildEnd_full hhits] at ht
  obtain rfl := Host.Outcome.next.inj ht
  rw [hbefore, hafter] at hbank
  exact absurd hbank (by decide)

end Sys2Proof.Machine
end

section
/-! PROOFS of spec family 04: references and pulse outputs read back, and what judging a reference leaves. -/
namespace Sys2Proof.Machine
open Sys2Proof

/-! ## References and pulse outputs read back -/

/-- A reference that is not as after reset reads as it was written. -/
theorem ref_modRef {s : State} {d : Dev} {r : Nat} {f : Ref → Ref} (h : f (s.ref d r) ≠ {}) : (s.modRef d r f).ref d r = f (s.ref d r) := by
  rw [State.ref, com_modRef]
  exact tget_tset_ne _ _ _ _ h

theorem ref_modRef_other {s : State} {d : Dev} {r q : Nat} {f : Ref → Ref} (h : q ≠ r) : (s.modRef d r f).ref d q = s.ref d q := by
  rw [State.ref, com_modRef]
  exact tget_tset_other _ _ _ _ _ h

/-! An update counts only by what it makes of what stands there. -/

theorem modCr_congr {s : State} {d : Dev} {f g : ClockRoom → ClockRoom} (h : f (s.com d).cr = g (s.com d).cr) :
    s.modCr d f = s.modCr d g := congrArg (fun v => s.setCom d { s.com d with cr := v }) h

theorem modRef_congr {s : State} {d : Dev} {r : Nat} {f g : Ref → Ref} (h : f (s.ref d r) = g (s.ref d r)) :
    s.modRef d r f = s.modRef d r g :=
  modCr_congr (congrArg (fun v => { (s.com d).cr with refs := tset {} (s.com d).cr.refs r v }) h)

/-- A pulse output that is not as after reset reads as it was written. -/
theorem pulse_modPulse {s : State} {d : Dev} {k : Nat} {f : Pulse → Pulse} (h : f (s.pulse d k) ≠ {}) :
    (s.modPulse d k f).pulse d k = f (s.pulse d k) := by
  rw [State.pulse, com_modPulse]
  exact tget_tset_ne _ _ _ _ h

/-! ## Judging a reference (R90) -/

/-- The state and the wait-to-restore of a reference, which judging it sets. -/
def Ref.judgedAs (x : Ref) (state : RefState) (wtrStart : Option Tick) (wtrDone : Bool) : Ref :=
  { x with state := state, wtrStart := wtrStart, wtrDone := wtrDone }

theorem evalRef_judges (s : State) (d : Dev) (r : Nat) : ∃ st w b, s.evalRef d r = s.modRef d r (Ref.judgedAs · st w b) := by
  unfold State.evalRef
  extract_lets trained
  split
  · exact ⟨_, _, _, rfl⟩
  split
  · exact ⟨_, _, _, rfl⟩
  split
  · exact ⟨.qualified, none, (s.ref d r).wtrDone, modRef_congr rfl⟩
  split
  · exact ⟨.pending, some (s.now d), (s.ref d r).wtrDone, modRef_congr rfl⟩
  · exact ⟨.pending, (s.ref d r).wtrStart, (s.ref d r).wtrDone, modRef_congr rfl⟩

theorem ref_evalRef_other (s : State) (d : Dev) {r q : Nat} (h : q ≠ r) : (s.evalRef d r).ref d q = s.ref d q := by
  obtain ⟨st, w, b, he⟩ := evalRef_judges s d r
  rw [he, ref_modRef_other h]

/-- A reference that is written, and stays unlike one after reset however it is judged, keeps all but its judgment. -/
theorem ref_modRef_evalRef {s : State} {d : Dev} {r : Nat} {f : Ref → Ref} (h : ∀ st w b, (f (s.ref d r)).judgedAs st w b ≠ {}) :
    ∃ st w b, ((s.modRef d r f).evalRef d r).ref d r = (f (s.ref d r)).judgedAs st w b := by
  have hread : (s.modRef d r f).ref d r = f (s.ref d r) := ref_modRef (h _ _ _)
  obtain ⟨st, w, b, he⟩ := evalRef_judges (s.modRef d r f) d r
  exact ⟨st, w, b, by rw [he, ref_modRef (by rw [hread]; exact h st w b), hread]⟩

/-- Judging a reference leaves everything but the references. -/
theorem evalRef_frame (s : State) (d : Dev) (r : Nat) :
    (∃ l, ((s.evalRef d r).com d).cr = { (s.com d).cr with refs := l }) ∧ ((s.evalRef d r).com d).time = (s.com d).time ∧
      (s.evalRef d r).tsu = s.tsu ∧ (s.evalRef d r).jup = s.jup ∧ (s.evalRef d r).out = s.out := by
  obtain ⟨st, w, b, he⟩ := evalRef_judges s d r
  rw [he, com_modRef, tsu_modRef, jup_modRef, out_modRef]
  exact ⟨⟨_, rfl⟩, rfl, rfl, rfl, rfl⟩

/-- So do a write of a reference and its judgment together. -/
theorem modRef_evalRef_frame (s : State) (d : Dev) (r : Nat) (f : Ref → Ref) :
    (∃ l, (((s.modRef d r f).evalRef d r).com d).cr = { (s.com d).cr with refs := l }) ∧
      (((s.modRef d r f).evalRef d r).com d).time = (s.com d).time ∧ ((s.modRef d r f).evalRef d r).tsu = s.tsu ∧
      ((s.modRef d r f).evalRef d r).jup = s.jup ∧ ((s.modRef d r f).evalRef d r).out = s.out := by
  obtain ⟨⟨l, hcr⟩, htime, htsu, hjup, hout⟩ := evalRef_frame (s.modRef d r f) d r
  rw [com_modRef] at hcr htime
  exact ⟨⟨l, hcr⟩, htime, htsu.trans (tsu_modRef ..), hjup.trans (jup_modRef ..), hout.trans (out_modRef ..)⟩

end Sys2Proof.Machine
end

section
/-! PROOFS of spec family 04: the qualification of references. -/
namespace Sys2Proof.Machine
open Sys2Proof

/-! ## The judgment, by its conditions (R90) -/

section
variable {s : State} {d : Dev} {r : Nat}

theorem evalRef_absent (h : s.priority d r = 0 ∨ s.candidate d r = false) :
    s.evalRef d r = s.modRef d r fun x => { x with state := .absent, wtrStart := none, wtrDone := false } := by
  refine if_pos ?_
  rcases h with h | h
  · exact .inl h
  · exact .inr (.inl (by rw [h]; rfl))

/-- A candidate with a PRIORITY whose link, where it has one, is trained is judged by its signal. -/
theorem evalRef_trained (hp : s.priority d r ≠ 0) (hc : s.candidate d r = true)
    (hl : ∀ n, s.refLink d r = some n → (s.link d n).ctl.lstate.timed = true) :
    s.evalRef d r =
      if !s.signalGood d r true then s.modRef d r fun x => { x with state := .failed, wtrStart := none, wtrDone := false }
      else if s.furtherOk d r then s.modRef d r fun x => { x with state := .qualified, wtrStart := none }
      else if s.wtrMode d ∧ (s.ref d r).wtrStart = none then
        s.modRef d r fun x => { x with state := .pending, wtrStart := some (s.now d) }
      else s.modRef d r fun x => { x with state := .pending } := by
  refine if_neg ?_
  rintro (h | h | h)
  · exact hp h
  · rw [hc] at h; cases h
  · cases hn : s.refLink d r with
    | none => rw [hn] at h; cases h
    | some n => rw [hn] at h; simp [hl n hn] at h

/-- A signal that is good comes by a link that is trained. -/
theorem timed_of_signalGood {full : Bool} (h : s.signalGood d r full = true) (n : Nat) (hn : s.refLink d r = some n) :
    (s.link d n).ctl.lstate.timed = true := by
  rw [State.signalGood, hn] at h
  simp only [Bool.and_eq_true] at h
  exact h.1.1.1.1

theorem evalRef_failed (hp : s.priority d r ≠ 0) (hc : s.candidate d r = true)
    (hl : ∀ n, s.refLink d r = some n → (s.link d n).ctl.lstate.timed = true) (hg : s.signalGood d r true = false) :
    s.evalRef d r = s.modRef d r fun x => { x with state := .failed, wtrStart := none, wtrDone := false } := by
  rw [evalRef_trained hp hc hl, hg]; rfl

theorem evalRef_qualified (hp : s.priority d r ≠ 0) (hc : s.candidate d r = true) (hg : s.signalGood d r true = true)
    (hf : s.furtherOk d r = true) : s.evalRef d r = s.modRef d r fun x => { x with state := .qualified, wtrStart := none } := by
  rw [evalRef_trained hp hc (timed_of_signalGood hg), hg, hf]; rfl

end

/-! ## Edges and the wait-to-restore (R90, R94) -/

/-- An edge that is missing, out of its window or not there at all. -/
def Ref.missEdge (x : Ref) (period : Nat) : Ref :=
  { x with missing := x.missing + 1, good := if x.good < 16 ∨ 4 ≤ x.missing + 1 then 0 else x.good,
           pred := if 4 ≤ x.missing + 1 then none else x.pred.map (· + period * 65536) }

theorem execRefEdgeMissing_eq (d : Dev) (r : Fin 8) (s : State) :
    exec (.refEdgeMissing d r) s = .next ((s.modRef d r.val (Ref.missEdge · (s.refPeriod r.val))).evalRef d r.val) := rfl

theorem execWtrExpiry_idle {d : Dev} {r : Fin 8} {s : State} (h : (s.ref d r.val).wtrStart = none) : exec (.wtrExpiry d r) s = .next s := by
  change execWtrExpiry d r s = _
  rw [execWtrExpiry, h]

theorem execWtrExpiry_due {d : Dev} {r : Fin 8} {t : Tick} {s : State} (h : (s.ref d r.val).wtrStart = some t)
    (ht : t.toNat + s.wtrTime d * 1600000000 ≤ (s.now d).toNat) (hg : s.signalGood d r.val true = true) :
    exec (.wtrExpiry d r) s = .next ((s.modRef d r.val fun x => { x with wtrDone := true }).evalRef d r.val) := by
  change execWtrExpiry d r s = _
  rw [execWtrExpiry, h]
  exact due_of (by rw [hg, Bool.and_true]; exact decide_eq_true ht)

/-- The signal of a reference is judged by its edges and, beyond the references, by its link. -/
theorem signalGood_modRef {s : State} {d : Dev} {r : Nat} {f : Ref → Ref} {full : Bool} (h : f (s.ref d r) ≠ {})
    (hgood : (f (s.ref d r)).good = (s.ref d r).good) (hmissing : (f (s.ref d r)).missing = (s.ref d r).missing)
    (hintervals : (f (s.ref d r)).intervals = (s.ref d r).intervals) :
    (s.modRef d r f).signalGood d r full = s.signalGood d r full := by
  cases d with
  | tsu => rfl
  | jup =>
    have hlink : (s.modRef .jup r f).refLink .jup r = s.refLink .jup r := rfl
    unfold State.signalGood
    rw [hlink]
    cases hn : s.refLink .jup r with
    | some n => rfl
    | none =>
      have hfreq : (s.modRef .jup r f).freqOk r = s.freqOk r := by
        unfold State.freqOk
        rw [ref_modRef h, hintervals]; rfl
      dsimp only
      rw [hfreq, ref_modRef h, hgood, hmissing]

/-- With its wait-to-restore run out, a good candidate is QUALIFIED. -/
theorem evalRef_wtrDone {s : State} {d : Dev} {r : Nat} (hp : s.priority d r ≠ 0) (hc : s.candidate d r = true)
    (hg : s.signalGood d r true = true) (hw : s.wtrMode d = true) :
    (s.modRef d r fun x => { x with wtrDone := true }).evalRef d r =
      (s.modRef d r fun x => { x with wtrDone := true }).modRef d r fun x => { x with state := .qualified, wtrStart := none } := by
  have hdone : ({ s.ref d r with wtrDone := true } : Ref) ≠ {} := by intro h; cases congrArg Ref.wtrDone h
  have hread : (s.modRef d r fun x => { x with wtrDone := true }).ref d r = { s.ref d r with wtrDone := true } := ref_modRef hdone
  have hmode : (s.modRef d r fun x => { x with wtrDone := true }).wtrMode d = true := by cases d <;> exact hw
  refine evalRef_qualified ?_ ?_ ?_ ?_
  · cases d <;> exact hp
  · cases d <;> exact hc
  · rw [signalGood_modRef hdone rfl rfl rfl]; exact hg
  · rw [State.furtherOk, if_pos hmode, hread]

/-! ## The clock-quality word (R92) -/

theorem execClockQualitySend_due {p : Nat} {s : State} (hp : qualityPort p = true) (ht : (s.now .jup).toNat % 262144 = 0) :
    exec (.clockQualitySend p) s = .next (s.modTx .jup p fun t => { t with quality := some (s.qualityWord p) }) := by
  change execClockQualitySend p s = _
  exact due_of (by rw [hp, Bool.true_and]; exact decide_eq_true ht)

theorem execClockQualitySend_between {p : Nat} {s : State} (ht : (s.now .jup).toNat % 262144 ≠ 0) :
    exec (.clockQualitySend p) s = .next s := by
  change execClockQualitySend p s = _
  exact due_unless (by rw [Bool.and_eq_false_iff]; exact .inr (decide_eq_false ht))

/-- An unassigned QL counts in QL_UNKNOWN. -/
def State.countQl (s : State) (d : Dev) (ql : BitVec 4) : State :=
  if qlKnown ql then s else s.modCr d fun c => { c with qlUnknown := satInc c.qlUnknown }

/-- What a clock-quality word says of a reference, at the tick it comes. -/
def Ref.heard (x : Ref) (word : BitVec 16) (now : Tick) : Ref :=
  { x with qlRx := if qlKnown (word.extractLsb' 12 4) then word.extractLsb' 12 4 else 0xF, qlTick := some now,
           chain := word.extractLsb' 8 4, hold := word.getLsbD 7 }

/-- The QL of an ESMC PDU. -/
def Ref.heardQl (x : Ref) (ql : BitVec 4) (now : Tick) : Ref := { x with qlRx := if qlKnown ql then ql else 0xF, qlTick := some now }

/-- A clock-quality word is taken from the inbox, counted, and noted at its reference, which is judged anew. -/
def State.hearWord (s : State) (d : Dev) (n r : Nat) (w : BitVec 16) : State :=
  (((s.consume d n mtQuality [put 64 15 0 w.toNat]).countQl d (w.extractLsb' 12 4)).modRef d r (Ref.heard · w (s.now d))).evalRef d r

/-- An ESMC PDU is counted, and noted at the external input that it is bound to. -/
def State.hearPdu (s : State) (k : Nat) (ql : BitVec 4) : State :=
  ((s.countQl .jup ql).modRef .jup k (Ref.heardQl · ql (s.now .jup))).evalRef .jup k

theorem execClockQualityRx_reference {d : Dev} {n r : Nat} {w : BitVec 16} {s : State} (h : s.linkRef d n = some r) :
    exec (.clockQualityRx d n w) s = .next (s.hearWord d n r w) := by
  change execClockQualityRx d n w s = _
  rw [execClockQualityRx, h]; rfl

/-- Counting changes QL_UNKNOWN alone, and that only for an unassigned QL. -/
theorem countQl_frame (s : State) (d : Dev) (ql : BitVec 4) :
    ((s.countQl d ql).com d).cr.qlUnknown = (if qlKnown ql then (s.com d).cr.qlUnknown else satInc (s.com d).cr.qlUnknown) ∧
      (s.countQl d ql).tsu = s.tsu ∧ (s.countQl d ql).jup = s.jup ∧ (s.countQl d ql).out = s.out := by
  unfold State.countQl
  split
  · exact ⟨rfl, rfl, rfl, rfl⟩
  · rw [com_modCr, tsu_modCr, jup_modCr, out_modCr]
    exact ⟨rfl, rfl, rfl, rfl⟩

/-- A QL has been received at a known tick, so that the reference is not as after reset. -/
theorem judgedAs_ne_of_qlTick {x : Ref} {t : Tick} (h : x.qlTick = some t) (st : RefState) (w : Option Tick) (b : Bool) :
    x.judgedAs st w b ≠ {} := by
  intro he
  have hq : x.qlTick = none := congrArg Ref.qlTick he
  rw [hq] at h
  cases h

/-- The reference of a clock-quality word has what the word says, and an unassigned QL is counted. -/
theorem hearWord_notes (s : State) (d : Dev) (n r : Nat) (w : BitVec 16) :
    (∃ x : Ref, ∃ st a b, (s.hearWord d n r w).ref d r = (x.heard w (s.now d)).judgedAs st a b) ∧
      ((s.hearWord d n r w).com d).cr.qlUnknown =
        (if qlKnown (w.extractLsb' 12 4) then (s.com d).cr.qlUnknown else satInc (s.com d).cr.qlUnknown) ∧
      (s.hearWord d n r w).tsu = s.tsu ∧ (s.hearWord d n r w).jup = s.jup := by
  obtain ⟨hcount, htsu, hjup, -⟩ := countQl_frame (s.consume d n mtQuality [put 64 15 0 w.toNat]) d (w.extractLsb' 12 4)
  obtain ⟨⟨l, hcr⟩, -, ktsu, kjup, -⟩ := modRef_evalRef_frame
    ((s.consume d n mtQuality [put 64 15 0 w.toNat]).countQl d (w.extractLsb' 12 4)) d r (Ref.heard · w (s.now d))
  refine ⟨⟨_, ref_modRef_evalRef (judgedAs_ne_of_qlTick (t := s.now d) rfl)⟩, ?_, ?_, ?_⟩
  · rw [State.hearWord, hcr]
    refine hcount.trans ?_
    cases d <;> rfl
  · rw [State.hearWord, ktsu, htsu]; cases d <;> rfl
  · rw [State.hearWord, kjup, hjup]; cases d <;> rfl

/-! ## Time-outs and ESMC PDUs (R92, R93) -/

theorem execQlTimeout_due {d : Dev} {r : Fin 8} {t : Tick} {s : State} (h : (s.ref d r.val).qlTick = some t)
    (hl : (s.refLink d r.val).isSome = true) (ht : t.toNat + 1310720 ≤ (s.now d).toNat) :
    exec (.qlTimeout d r) s = .next (s.qlFail d r.val) := by
  change execQlTimeout d r s = _
  rw [execQlTimeout, h]
  exact due_of (by rw [hl, Bool.true_and]; exact decide_eq_true ht)

theorem execQlTimeout_early {d : Dev} {r : Fin 8} {t : Tick} {s : State} (h : (s.ref d r.val).qlTick = some t)
    (ht : (s.now d).toNat < t.toNat + 1310720) : exec (.qlTimeout d r) s = .next s := by
  change execQlTimeout d r s = _
  rw [execQlTimeout, h]
  exact due_unless (by rw [Bool.and_eq_false_iff]; exact .inr (decide_eq_false (Nat.not_le.mpr ht)))

theorem execEsmcPduRx_bound {k : Fin 4} {mac : BitVec 48} {ql : BitVec 4} {s : State} (h : s.esmcBound k.val mac = true) :
    exec (.esmcPduRx k mac true ql) s = .next (s.hearPdu k.val ql) := by
  change execEsmcPduRx k mac true ql s = _
  exact due_of (by rw [h]; rfl)

theorem execEsmcPduRx_ignored {k : Fin 4} {mac : BitVec 48} {v : Bool} {ql : BitVec 4} {s : State}
    (h : s.esmcBound k.val mac = false ∨ v = false) : exec (.esmcPduRx k mac v ql) s = .next s := by
  change execEsmcPduRx k mac v ql s = _
  exact due_unless (Bool.and_eq_false_iff.mpr h.symm)

/-- The external input has the QL of its PDU, and an unassigned one is counted. -/
theorem hearPdu_notes (s : State) (k : Nat) (ql : BitVec 4) :
    (∃ x : Ref, ∃ st a b, (s.hearPdu k ql).ref .jup k = (x.heardQl ql (s.now .jup)).judgedAs st a b) ∧
      (s.hearPdu k ql).jupC.cr.qlUnknown = (if qlKnown ql then s.jupC.cr.qlUnknown else satInc s.jupC.cr.qlUnknown) ∧
      (s.hearPdu k ql).tsu = s.tsu ∧ (s.hearPdu k ql).jup = s.jup ∧ (s.hearPdu k ql).out = s.out := by
  obtain ⟨hcount, htsu, hjup, hout⟩ := countQl_frame s .jup ql
  obtain ⟨⟨l, hcr⟩, -, ktsu, kjup, kout⟩ := modRef_evalRef_frame (s.countQl .jup ql) .jup k (Ref.heardQl · ql (s.now .jup))
  refine ⟨⟨_, ref_modRef_evalRef (judgedAs_ne_of_qlTick (t := s.now .jup) rfl)⟩, ?_, ktsu.trans htsu, kjup.trans hjup, kout.trans hout⟩
  rw [← com_jup, State.hearPdu, hcr]
  exact hcount

theorem execEsmcTimeout_due {k : Fin 4} {t : Tick} {s : State} (h : (s.ref .jup k.val).qlTick = some t)
    (ht : t.toNat + 8000000000 ≤ (s.now .jup).toNat) : exec (.esmcTimeout k) s = .next (s.qlFail .jup k.val) := by
  change execEsmcTimeout k s = _
  rw [execEsmcTimeout, h]
  exact due_of (decide_eq_true ht)

theorem execEsmcTimeout_early {k : Fin 4} {t : Tick} {s : State} (h : (s.ref .jup k.val).qlTick = some t)
    (ht : (s.now .jup).toNat < t.toNat + 8000000000) : exec (.esmcTimeout k) s = .next s := by
  change execEsmcTimeout k s = _
  rw [execEsmcTimeout, h]
  exact due_unless (decide_eq_false (Nat.not_le.mpr ht))

/-- Settles O12: each judgment and event has one equation per case. The reference that an event writes and has judged is read
back after both: its judgment changes its state and wait-to-restore alone, and what was written keeps it unlike one after reset. -/
theorem referencesJudged : Obligations.ReferencesJudged := by
  refine ⟨fun d r s => evalRef_absent, fun d r s => evalRef_failed, fun d r s => evalRef_qualified, ?missing, ?expires,
    fun d r s => execWtrExpiry_idle, ?sends, fun p s => execClockQualitySend_between, fun p s h => if_pos h, ?known, ?unknown,
    fun d r t s => execQlTimeout_due, fun d r t s => execQlTimeout_early, ?esmcKnown, ?esmcUnknown,
    fun k mac v ql s => execEsmcPduRx_ignored, fun k t s => execEsmcTimeout_due, fun k t s => execEsmcTimeout_early⟩
  case missing =>
    intro d r s
    have hne : ∀ st w b, ((s.ref d r.val).missEdge (s.refPeriod r.val)).judgedAs st w b ≠ {} := by
      intro st w b h; cases congrArg Ref.missing h
    obtain ⟨st, w, b, hread⟩ := ref_modRef_evalRef (f := (Ref.missEdge · (s.refPeriod r.val))) hne
    obtain ⟨-, htime, htsu, hjup, hout⟩ := modRef_evalRef_frame s d r.val (Ref.missEdge · (s.refPeriod r.val))
    refine ⟨_, execRefEdgeMissing_eq d r s, by rw [hread]; rfl, by rw [hread]; rfl, fun q hq => ?_, htime, htsu, hjup, hout⟩
    rw [ref_evalRef_other _ _ hq, ref_modRef_other hq]
  case expires =>
    intro d r t s h ht hg hp hc hw
    have hdone : ({ s.ref d r.val with wtrDone := true } : Ref) ≠ {} := by intro h; cases congrArg Ref.wtrDone h
    refine ⟨_, execWtrExpiry_due h ht hg, ?_⟩
    rw [evalRef_wtrDone hp hc hg hw, ref_modRef (by rw [ref_modRef hdone]; intro h; cases congrArg Ref.wtrDone h), ref_modRef hdone]
    simp only [tsu_modRef, jup_modRef, out_modRef, and_self]
  case sends =>
    intro p s hp ht
    refine ⟨_, execClockQualitySend_due hp ht, ?_⟩
    rw [link_modTx (by intro h; cases congrArg (fun l : Link => l.tx.quality) h)]
    exact ⟨rfl, rfl, rfl, rfl, rfl⟩
  case known =>
    intro d n r w s h hk
    obtain ⟨⟨x, st, a, b, hread⟩, hcount, hdevs⟩ := hearWord_notes s d n r w
    rw [hk, if_pos rfl] at hcount
    refine ⟨_, execClockQualityRx_reference h, ?_⟩
    rw [hread]
    exact ⟨if_pos hk, rfl, rfl, rfl, hcount, hdevs⟩
  case unknown =>
    intro d n r w s h hk
    obtain ⟨⟨x, st, a, b, hread⟩, hcount, hdevs⟩ := hearWord_notes s d n r w
    rw [hk, if_neg Bool.false_ne_true] at hcount
    refine ⟨_, execClockQualityRx_reference h, ?_⟩
    rw [hread]
    exact ⟨if_neg (Bool.eq_false_iff.mp hk), rfl, hcount, hdevs⟩
  case esmcKnown =>
    intro k mac ql s h hk
    obtain ⟨⟨x, st, a, b, hread⟩, hcount, hdevs⟩ := hearPdu_notes s k.val ql
    rw [hk, if_pos rfl] at hcount
    refine ⟨_, execEsmcPduRx_bound h, ?_⟩
    rw [hread]
    exact ⟨if_pos hk, rfl, hcount, hdevs⟩
  case esmcUnknown =>
    intro k mac ql s h hk
    obtain ⟨⟨x, st, a, b, hread⟩, hcount, -⟩ := hearPdu_notes s k.val ql
    rw [hk, if_neg Bool.false_ne_true] at hcount
    refine ⟨_, execEsmcPduRx_bound h, ?_, hcount⟩
    rw [hread]
    exact if_neg (Bool.eq_false_iff.mp hk)

end Sys2Proof.Machine
end

section
/-! PROOFS of spec family 04: the command that waits, and what a selection leaves of it. -/
namespace Sys2Proof.Machine
open Sys2Proof

/-! ## Nothing that selection does touches the command that waits (R96) -/

@[simp] theorem pend_evalRef (s : State) (d : Dev) (r : Nat) : ((s.evalRef d r).com d).cr.pend = (s.com d).cr.pend := by
  obtain ⟨⟨l, hcr⟩, -⟩ := evalRef_frame s d r
  rw [hcr]

@[simp] theorem pend_anchorExt (s : State) (d : Dev) (r : Nat) : ((s.anchorExt d r).com d).cr.pend = (s.com d).cr.pend := by
  unfold State.anchorExt State.anchorRef
  split <;> simp
@[simp] theorem pend_crFree (s : State) (d : Dev) : ((s.crFree d).com d).cr.pend = (s.com d).cr.pend := by
  simp [State.crFree, State.unselect]
@[simp] theorem pend_resyncNow (s : State) (d : Dev) : ((s.resyncNow d).com d).cr.pend = (s.com d).cr.pend := by
  unfold State.resyncNow State.endLevel
  split <;> simp
@[simp] theorem pend_switchRef (s : State) (d : Dev) (r : Nat) : ((s.switchRef d r).com d).cr.pend = (s.com d).cr.pend := by
  unfold State.switchRef State.buildOut State.select
  dsimp only
  repeat' split
  all_goals simp
@[simp] theorem pend_enterHoldover (s : State) (d : Dev) : ((s.enterHoldover d).com d).cr.pend = (s.com d).cr.pend := by
  unfold State.enterHoldover State.unselect
  dsimp only
  split <;> simp
@[simp] theorem pend_leaveHoldover (s : State) (d : Dev) (r : Nat) : ((s.leaveHoldover d r).com d).cr.pend = (s.com d).cr.pend := by
  simp [State.leaveHoldover, State.select]
@[simp] theorem pend_startAcquire (s : State) (d : Dev) (r : Nat) : ((s.startAcquire d r).com d).cr.pend = (s.com d).cr.pend := by
  simp [State.startAcquire, State.select]
@[simp] theorem pend_acquireOn (s : State) (d : Dev) (r : Nat) : ((s.acquireOn d r).com d).cr.pend = (s.com d).cr.pend := by
  simp [State.acquireOn, State.select]
@[simp] theorem pend_acquireEnd (s : State) (d : Dev) : ((s.acquireEnd d).com d).cr.pend = (s.com d).cr.pend := by
  simp [State.acquireEnd]
@[simp] theorem pend_rootTrack (s : State) (d : Dev) (r : Nat) : ((s.rootTrack d r).com d).cr.pend = (s.com d).cr.pend := by
  unfold State.rootTrack State.select State.anchorRef
  split <;> simp
@[simp] theorem pend_lostResync (s : State) (d : Dev) : ((s.lostResync d).com d).cr.pend = (s.com d).cr.pend := by
  unfold State.lostResync
  split <;> simp

/-! ### Selection, by the state of the Clock Room -/

@[simp] theorem pend_selectFree (s : State) (d : Dev) : ((s.selectFree d).com d).cr.pend = (s.com d).cr.pend := by
  unfold State.selectFree
  repeat' split
  all_goals simp
@[simp] theorem pend_selectAcquire (s : State) (d : Dev) : ((s.selectAcquire d).com d).cr.pend = (s.com d).cr.pend := by
  unfold State.selectAcquire
  repeat' split
  all_goals simp
@[simp] theorem pend_selectTrack (s : State) (d : Dev) : ((s.selectTrack d).com d).cr.pend = (s.com d).cr.pend := by
  unfold State.selectTrack
  repeat' split
  all_goals simp
@[simp] theorem pend_selectNamed (s : State) (d : Dev) : ((s.selectNamed d).com d).cr.pend = (s.com d).cr.pend := by
  unfold State.selectNamed
  repeat' split
  all_goals simp
@[simp] theorem pend_selectHoldover (s : State) (d : Dev) : ((s.selectHoldover d).com d).cr.pend = (s.com d).cr.pend := by
  unfold State.selectHoldover
  repeat' split
  all_goals simp
@[simp] theorem pend_epochFollow (s : State) (d : Dev) : ((s.epochFollow d).com d).cr.pend = (s.com d).cr.pend := by
  unfold State.epochFollow
  dsimp only
  repeat' split
  all_goals simp

/-! ### What comes before a selection -/

/-- Judging every reference leaves everything but the references. -/
theorem foldl_evalRef_frame (rs : List Nat) (s : State) (d : Dev) :
    (∃ l, ((rs.foldl (fun s r => s.evalRef d r) s).com d).cr = { (s.com d).cr with refs := l }) ∧
      ((rs.foldl (fun s r => s.evalRef d r) s).com d).time = (s.com d).time := by
  induction rs generalizing s with
  | nil => exact ⟨⟨_, rfl⟩, rfl⟩
  | cons r rs ih =>
    obtain ⟨⟨l, hcr⟩, htime⟩ := ih (s.evalRef d r)
    obtain ⟨⟨m, kcr⟩, ktime, -⟩ := evalRef_frame s d r
    exact ⟨⟨l, by rw [List.foldl_cons, hcr, kcr]⟩, htime.trans ktime⟩

theorem evalRefs_frame (s : State) (d : Dev) :
    (∃ l, ((s.evalRefs d).com d).cr = { (s.com d).cr with refs := l }) ∧ ((s.evalRefs d).com d).time = (s.com d).time :=
  foldl_evalRef_frame ..

@[simp] theorem pend_evalRefs (s : State) (d : Dev) : ((s.evalRefs d).com d).cr.pend = (s.com d).cr.pend := by
  obtain ⟨⟨l, hcr⟩, -⟩ := evalRefs_frame s d
  rw [hcr]
@[simp] theorem pend_manualEnd (s : State) (d : Dev) : ((s.manualEnd d).com d).cr.pend = (s.com d).cr.pend := by
  unfold State.manualEnd
  repeat' split
  all_goals simp

/-- Taking the selected reference by another link changes that link, and what is to be built out. -/
theorem followLink_frame (s : State) (d : Dev) :
    (∃ x v, ((s.followLink d).com d).cr = { (s.com d).cr with pstepRemain := x, selVia := v }) ∧
      ((s.followLink d).com d).time = (s.com d).time := by
  unfold State.followLink
  split
  · split
    · split
      · exact ⟨⟨_, _, rfl⟩, rfl⟩
      · rw [com_modCr, State.buildOut, com_modCr]
        exact ⟨⟨_, _, rfl⟩, rfl⟩
    · exact ⟨⟨_, _, rfl⟩, rfl⟩
  · exact ⟨⟨_, _, rfl⟩, rfl⟩

@[simp] theorem pend_followLink (s : State) (d : Dev) : ((s.followLink d).com d).cr.pend = (s.com d).cr.pend := by
  obtain ⟨⟨x, v, hcr⟩, -⟩ := followLink_frame s d
  rw [hcr]

theorem pend_crSelect (s : State) (d : Dev) : ((s.crSelect d).com d).cr.pend = (s.com d).cr.pend := by
  unfold State.crSelect
  dsimp only
  rw [pend_epochFollow]
  repeat' split
  all_goals simp

theorem pend_goTo (s : State) (d : Dev) (r : Nat) : ((s.goTo d r).com d).cr.pend = (s.com d).cr.pend := by
  unfold State.goTo
  repeat' split
  all_goals simp

theorem pend_crApply (s : State) (d : Dev) (op : CrOp) (r : Nat) : ((s.crApply d op r).com d).cr.pend = (s.com d).cr.pend := by
  cases op with
  | force => simp [State.crApply, pend_goTo]
  | manual => simp [State.crApply, pend_goTo]
  | clear => simp [State.crApply, pend_crSelect]
  | lockout =>
    simp only [State.crApply, pend_crSelect]
    split <;> simp
  | unlock => simp [State.crApply]
  | wtrClear =>
    simp only [State.crApply]
    split <;> simp

end Sys2Proof.Machine
end

section
/-! PROOFS of spec family 04: Clock Room commands and the comparison of references. -/
namespace Sys2Proof.Machine
open Sys2Proof

/-! ## A command waits, or is refused (R96) -/

section
variable {s : State} {d : Dev}

theorem cr_crCmd_free (op : CrOp) (r : Fin 8) (h : (s.com d).cr.pend = none) :
    ((s.crCmd d op r).com d).cr = { (s.com d).cr with pend := some (op, r) } := by
  rw [State.crCmd, com_modCr, h]; rfl

theorem crCmd_busy (op : CrOp) (r : Fin 8) {p : CrOp × Fin 8} (h : (s.com d).cr.pend = some p) :
    s.crCmd d op r = s.modCr d fun c => { c with cmdErr := 1 } :=
  modCr_congr (if_pos (by rw [h]; rfl))

/-! ## The exchange boundary (R96) -/

/-- The command that waited is taken, the references judged anew for it. -/
def State.takePend (s : State) (d : Dev) : State := (s.evalRefs d).modCr d fun c => { c with pend := none }

theorem execCrCmdApply_boundary {op : CrOp} {r : Fin 8} (h : (s.com d).cr.pend = some (op, r)) (hb : (s.now d).toNat % 8192 = 0) :
    exec (.crCmdApply d) s = .next (if (s.takePend d).crRefusal d op r.val = 0 then (s.takePend d).crApply d op r.val
      else (s.takePend d).modCr d fun c => { c with cmdErr := (s.takePend d).crRefusal d op r.val }) := by
  change execCrCmdApply d s = _
  rw [execCrCmdApply, h]
  exact due_of (atBoundary_of hb)

theorem execCrCmdApply_between (hb : (s.now d).toNat % 8192 ≠ 0) : exec (.crCmdApply d) s = .next s := by
  change execCrCmdApply d s = _
  unfold execCrCmdApply
  split
  · rfl
  · exact due_unless (decide_eq_false hb)

theorem execCrCmdApply_nothing (h : (s.com d).cr.pend = none) : exec (.crCmdApply d) s = .next s := by
  change execCrCmdApply d s = _
  rw [execCrCmdApply, h]

theorem refIx_val (r : Fin 8) : refIx r.val = r := Fin.ext (Nat.mod_eq_of_lt r.isLt)

/-- FORCE and MANUAL keep the reference that they name. -/
theorem crApply_keeps (s : State) (d : Dev) (op : CrOp) (r : Fin 8) :
    (op = .force → ((s.crApply d op r.val).com d).cr.selMode = 2 ∧ ((s.crApply d op r.val).com d).cr.forceRef = some r) ∧
      (op = .manual → ((s.crApply d op r.val).com d).cr.selMode = 1 ∧ ((s.crApply d op r.val).com d).cr.forceRef = some r) := by
  constructor
  · rintro rfl
    simp [State.crApply, refIx_val]
  · rintro rfl
    simp [State.crApply, refIx_val]

theorem crRefusal_noCandidate {op : CrOp} {r : Nat} (h : s.candidate d r = false) (hop : op = .force ∨ op = .manual ∨ op = .lockout) :
    s.crRefusal d op r = 2 := by
  rcases hop with rfl | rfl | rfl <;> exact if_pos (by rw [h]; rfl)

theorem crRefusal_manual {r : Nat} (h : s.candidate d r = true) (hq : (s.ref d r).state ≠ .qualified) :
    s.crRefusal d .manual r = 3 := by
  have hc : ¬ (!s.candidate d r) = true := by simp [h]
  exact (if_neg hc).trans (if_pos hq)

/-! ## Comparing the references (R95, R99) -/

theorem execRefSelect_boundary (hb : (s.now d).toNat % 8192 = 0) : exec (.refSelect d) s = .next (s.crSelect d) := by
  change execRefSelect d s = _
  exact due_of (by rw [atBoundary_of hb, Bool.true_or])

/-- Without a MANUAL there is none to end. -/
theorem manualEnd_automatic (h : (s.com d).cr.selMode = 0) : s.manualEnd d = s := by
  have hm : s.manualRef d = none := by simp [State.manualRef, h]
  rw [State.manualEnd, hm]

/-- Nothing is followed, so no parent's epoch is taken. -/
theorem epochFollow_unselected (h : (s.com d).cr.selected = none) : s.epochFollow d = s := by
  have hl : s.selLink d = none := by rw [State.selLink, h]
  rw [State.epochFollow, hl]

/-- HOLDOVER has no reference selected, and the counter runs on. -/
theorem com_enterHoldover (s : State) (d : Dev) : ((s.enterHoldover d).com d).cr.state = .holdover ∧
    ((s.enterHoldover d).com d).cr.selected = none ∧ (s.enterHoldover d).now d = s.now d := by
  unfold State.enterHoldover
  dsimp only
  split <;> simp [State.unselect, State.now]

/-- TRACK in automatic mode, of time that is not LOST, goes to HOLDOVER where no candidate is QUALIFIED. -/
theorem crSelect_noneQualified (hs : (s.com d).cr.state = .track) (hm : (s.com d).cr.selMode = 0) (ht : (s.com d).time.state ≠ .lost)
    (hq : ((s.evalRefs d).followLink d).bestQualified d = none) :
    s.crSelect d = ((s.evalRefs d).followLink d).enterHoldover d := by
  obtain ⟨⟨l, hcr⟩, htime⟩ := evalRefs_frame s d
  obtain ⟨⟨x, v, kcr⟩, ktime⟩ := followLink_frame (s.evalRefs d) d
  have hmanual : (s.evalRefs d).manualEnd d = s.evalRefs d := manualEnd_automatic (by rw [hcr]; exact hm)
  have hstate : (((s.evalRefs d).followLink d).com d).cr.state = .track := by rw [kcr, hcr]; exact hs
  have hmode : (((s.evalRefs d).followLink d).com d).cr.selMode = 0 := by rw [kcr, hcr]; exact hm
  have hlost : (((s.evalRefs d).followLink d).com d).time.state ≠ .lost := by rw [ktime, htime]; exact ht
  unfold State.crSelect
  simp only [hmanual, hstate, hmode, decide_eq_false hlost, Bool.false_and, Bool.false_eq_true, if_false, if_true, State.selectTrack, hq]
  exact epochFollow_unselected (com_enterHoldover ..).2.1

end

/-- Settles O13: a command has one equation where it is written and three at its boundary; no step of a selection touches the
command that waits, so one that took effect waits no more. -/
theorem clockCommands : Obligations.ClockCommands := by
  refine ⟨?waits, ?busy, ?accepted, ?refused, fun d s => execCrCmdApply_between, fun d s => execCrCmdApply_nothing,
    fun d s => execRefSelect_boundary, ?holdover, fun s d op r => crRefusal_noCandidate, fun s d r => crRefusal_manual⟩
  case waits =>
    intro d r s h
    exact ⟨⟨_, rfl, cr_crCmd_free _ _ h⟩, ⟨_, rfl, cr_crCmd_free _ _ h⟩, ⟨_, rfl, cr_crCmd_free _ _ h⟩, ⟨_, rfl, cr_crCmd_free _ _ h⟩,
      ⟨_, rfl, cr_crCmd_free _ _ h⟩, ⟨_, rfl, cr_crCmd_free _ _ h⟩⟩
  case busy =>
    intro d r p s h
    have hbusy (op : CrOp) (r : Fin 8) : Host.Outcome.next (s.crCmd d op r) = (.next (s.modCr d fun c => { c with cmdErr := 1 }) : Res) :=
      congrArg _ (crCmd_busy op r h)
    exact ⟨hbusy .force r, hbusy .manual r, hbusy .clear 0, hbusy .lockout r, hbusy .unlock r, hbusy .wtrClear r⟩
  case accepted =>
    intro d op r s h hb he
    have hpend : ((s.takePend d).com d).cr.pend = none := by rw [State.takePend, com_modCr]
    exact ⟨_, (execCrCmdApply_boundary h hb).trans (congrArg _ (if_pos he)), rfl, (pend_crApply ..).trans hpend, crApply_keeps ..⟩
  case refused =>
    intro d op r s h hb he
    exact (execCrCmdApply_boundary h hb).trans (congrArg _ (if_neg he))
  case holdover =>
    intro d s hb hs hm ht hq
    obtain ⟨hstate, hsel, hnow⟩ := com_enterHoldover ((s.evalRefs d).followLink d) d
    have hkept : ((s.evalRefs d).followLink d).now d = s.now d := by
      rw [State.now, (followLink_frame ..).2, (evalRefs_frame ..).2, State.now]
    refine ⟨_, execRefSelect_boundary hb, ?_⟩
    rw [crSelect_noneQualified hs hm ht hq]
    exact ⟨hstate, hsel, hnow.trans hkept⟩

end Sys2Proof.Machine
end

section
/-! PROOFS of spec family 04: the loop, the phase-step engine and the block averages. -/
namespace Sys2Proof.Machine
open Sys2Proof

/-! ## One LOOP edge (R86, R101, R102, R108) -/

theorem execCvUpdate_due {d : Dev} {s : State} (h : (s.now d).toNat % 32 = 0) : exec (.cvUpdate d) s = .next (s.cvStep d) := by
  change execCvUpdate d s = _
  exact due_of (decide_eq_true h)

theorem execCvUpdate_between {d : Dev} {s : State} (h : (s.now d).toNat % 32 ≠ 0) : exec (.cvUpdate d) s = .next s := by
  change execCvUpdate d s = _
  exact due_unless (decide_eq_false h)

@[simp] theorem com_fresh (s : State) (d : Dev) : s.fresh.2.com d = s.com d := by cases d <;> rfl

/-- What the engine moves at this LOOP edge, and the fraction it keeps. -/
def State.engineMove (s : State) (d : Dev) : Int × Nat := engineStep (s.com d).cr.pstepRemain (s.com d).cr.pstepAcc (s.pstepRate d)

theorem cr_cvStep (s : State) (d : Dev) : ((s.cvStep d).com d).cr =
    { (s.com d).cr with
      cv := (s.cvNext d).1, rateAcc := (s.cvNext d).2, bwCur := s.bwNow d,
      pstepRemain := (s.com d).cr.pstepRemain - (s.engineMove d).1, pstepAcc := (s.engineMove d).2,
      moved := (s.com d).cr.moved + (s.engineMove d).1 + (s.coarseMoved d - (s.com d).cr.coarseDone), coarseDone := s.coarseMoved d,
      dwellStart := if s.returnSlewing d then s.now d else (s.com d).cr.dwellStart,
      dwellOk := s.returnSlewing d || (s.com d).cr.dwellOk,
      blockSum := (s.com d).cr.blockSum + (s.cvNext d).1, blockCount := (s.com d).cr.blockCount + 1,
      blockOk := (s.com d).cr.blockOk && decide ((s.com d).time.state = .locked) && decide (s.bwNow d = 3) } := by
  cases d <;> rfl

/-- A LOOP edge touches the Clock Room and the counter of free values. -/
theorem cvStep_frame (s : State) (d : Dev) : ((s.cvStep d).com d).time = (s.com d).time ∧ (s.cvStep d).out = s.out := by
  cases d <;> exact ⟨rfl, rfl⟩

theorem clampCv_bounds (v : Int) : -268435456 ≤ clampCv v ∧ clampCv v ≤ 268435456 := by
  unfold clampCv
  omega

/-- While the loop runs below the root CV is clamped. -/
theorem cvNext_clamped {d : Dev} {s : State} (hm : s.rootMaster d = false) (hl : s.loopRuns d = true) :
    -268435456 ≤ (s.cvNext d).1 ∧ (s.cvNext d).1 ≤ 268435456 := by
  have hv : (s.cvNext d).1 = clampCv (Config.loopFilter s.freeCtr (s.bwNow d).toNat (s.loopError d) (s.com d).cr.cv) := by
    simp [State.cvNext, hm, State.cvWanted, hl]
  rw [hv]
  exact clampCv_bounds _

/-- At the root time master CV moves by one unit at most. -/
theorem cvNext_rate {d : Dev} {s : State} (hm : s.rootMaster d = true) : ((s.cvNext d).1 - (s.com d).cr.cv).natAbs ≤ 1 := by
  simp only [State.cvNext, hm, if_true]
  split
  · dsimp only; omega
  split
  · dsimp only; omega
  split
  · dsimp only; omega
  · dsimp only; omega

/-! ## Block averages (R105) -/

/-- The block is over: its average joins the kept ones, and the next begins. -/
def State.closeBlock (s : State) (d : Dev) : State :=
  s.modCr d fun c =>
    { c with blocks := ((if c.blockCount = 0 then c.cv else divNear c.blockSum c.blockCount,
                         c.blockOk && decide (0 < c.blockCount)) :: c.blocks).take 64,
             blockSum := 0, blockCount := 0, blockOk := decide ((s.com d).time.state = .locked) && decide (c.bwCur = 3) }

theorem execCvBlockAverage_due {d : Dev} {s : State} (h : (s.now d).toNat % 4194304 = 0) :
    exec (.cvBlockAverage d) s = .next (s.closeBlock d) := by
  change execCvBlockAverage d s = _
  exact due_of (decide_eq_true h)

theorem execCvBlockAverage_between {d : Dev} {s : State} (h : (s.now d).toNat % 4194304 ≠ 0) :
    exec (.cvBlockAverage d) s = .next s := by
  change execCvBlockAverage d s = _
  exact due_unless (decide_eq_false h)

/-- The block had LOOP edges, so its average is theirs. -/
theorem closeBlock_average {d : Dev} {s : State} (h : 0 < (s.com d).cr.blockCount) :
    ((s.closeBlock d).com d).cr.blocks.head? = some (divNear (s.com d).cr.blockSum (s.com d).cr.blockCount, (s.com d).cr.blockOk) ∧
      ((s.closeBlock d).com d).cr.blocks.length ≤ 64 ∧ ((s.closeBlock d).com d).cr.blockCount = 0 ∧
      ((s.closeBlock d).com d).cr.cv = (s.com d).cr.cv := by
  rw [State.closeBlock, com_modCr]
  refine ⟨?_, List.length_take_le .., rfl, rfl⟩
  simp [h, Nat.ne_of_gt h]

/-! ## BW_FORCE (R104) -/

section
variable {d : Dev} {en : Bool} {code : BitVec 3} {s : State}

theorem execBwForce_reserved (h4 : 4 ≤ code.toNat) (h6 : code.toNat ≤ 6) : exec (.bwForce d en code) s = .fault (.unpredictable "R9") :=
  if_pos ⟨h4, h6⟩

theorem execBwForce_assigned (h : code.toNat < 4 ∨ code.toNat = 7) :
    exec (.bwForce d en code) s = if (s.com d).cr.state = .holdover then .fault (.unpredictable "R10")
      else .next (s.setReg d (crBase d + 8) (bit1 32 8 en ||| put 32 2 0 code.toNat)) :=
  if_neg (c := 4 ≤ code.toNat ∧ code.toNat ≤ 6) (by omega)

theorem execBwForce_holdover (h : code.toNat < 4 ∨ code.toNat = 7) (hs : (s.com d).cr.state = .holdover) :
    exec (.bwForce d en code) s = .fault (.unpredictable "R10") := by
  rw [execBwForce_assigned h, if_pos hs]

theorem execBwForce_stored (h : code.toNat < 4 ∨ code.toNat = 7) (hs : (s.com d).cr.state ≠ .holdover) :
    exec (.bwForce d en code) s = .next (s.setReg d (crBase d + 8) (bit1 32 8 en ||| put 32 2 0 code.toNat)) := by
  rw [execBwForce_assigned h, if_neg hs]

end

/-- Settles O14: the Clock Room after a LOOP edge and after a block is written out once; that nothing of the phase is lost is the
sum of what the engine takes from the remainder and adds to what has moved. -/
theorem loopSteered : Obligations.LoopSteered := by
  refine ⟨?edge, fun d s => execCvUpdate_between, fun d s => cvNext_clamped, fun d s => cvNext_rate,
    fun d s h hc => ⟨_, execCvBlockAverage_due h, closeBlock_average hc⟩, fun d s => execCvBlockAverage_between,
    fun d en code s => execBwForce_stored, fun d en code s => execBwForce_reserved, fun d en code s => execBwForce_holdover⟩
  case edge =>
    intro d s h
    refine ⟨_, execCvUpdate_due h, ?_⟩
    rw [cr_cvStep]
    refine ⟨rfl, rfl, rfl, ?_, rfl, cvStep_frame s d⟩
    dsimp only
    omega

end Sys2Proof.Machine
end

section
/-! PROOFS of spec family 04: the pulse outputs. -/
namespace Sys2Proof.Machine
open Sys2Proof

/-! ## What a pulse output drives (R111) -/

theorem out_driveEdge (s : State) (d : Dev) (k : Fin 2) (e : Int) :
    (s.driveEdge d k e).out = s.out ++ [.pulse d k (stampOf e) (!(s.pulseCfg d k.val).getLsbD 4)] := by
  cases d <;> rfl

theorem pulse_driveEdge (s : State) (d : Dev) (k : Fin 2) (e : Int) :
    (s.driveEdge d k e).pulse d k.val =
      { s.pulse d k.val with lastOut := some e, offAt := some (e + fld (s.pulseCfg d k.val) 31 16 * 64 * 65536) } := by
  rw [State.driveEdge, State.pulse, com_emit]
  exact pulse_modPulse (by intro h; cases congrArg Pulse.lastOut h)

theorem time_driveEdge (s : State) (d : Dev) (k : Fin 2) (e : Int) : ((s.driveEdge d k e).com d).time = (s.com d).time := by
  rw [State.driveEdge, com_emit, com_modPulse]

theorem out_driveInactive (s : State) (d : Dev) (k : Fin 2) (e : Int) :
    (s.driveInactive d k e).out = s.out ++ [.pulse d k (stampOf e) ((s.pulseCfg d k.val).getLsbD 4)] := by
  rw [← Bool.not_not ((s.pulseCfg d k.val).getLsbD 4)]
  cases d <;> rfl

/-! The registers of a pulse output, and the edge that FREE places, do not depend on what was driven. -/

theorem freeEdge_driveInactive (s : State) (d : Dev) (k : Fin 2) (e : Int) :
    (s.driveInactive d k e).freeEdge d k.val = s.freeEdge d k.val := by cases d <;> rfl
theorem pulseCfg_driveInactive (s : State) (d : Dev) (k : Fin 2) (e : Int) :
    (s.driveInactive d k e).pulseCfg d k.val = s.pulseCfg d k.val := by cases d <;> rfl

/-! ## PULSE_EDGE_OUT, by MODE (R111, R112) -/

/-- At the end of WIDTH the output goes inactive. -/
def State.endWidth (s : State) (d : Dev) (k : Fin 2) : State :=
  match s.offDue d k.val with
  | some e => s.driveInactive d k e
  | none => s

section
variable {d : Dev} {k : Fin 2} {s : State}

theorem endWidth_due {e : Int} (h : s.offDue d k.val = some e) : s.endWidth d k = s.driveInactive d k e := by rw [State.endWidth, h]
theorem endWidth_none (h : s.offDue d k.val = none) : s.endWidth d k = s := by rw [State.endWidth, h]

theorem execPulseEdgeOut_reserved {e : String} (h : s.pulseReserved d k.val = some e) :
    exec (.pulseEdgeOut d k) s = .fault (.unpredictable e) := by
  change execPulseEdgeOut d k s = _
  rw [execPulseEdgeOut, h]

/-- OFF: an active output goes inactive. -/
theorem execPulseEdgeOut_off (hm : fld (s.pulseCfg d k.val) 1 0 = 0) :
    exec (.pulseEdgeOut d k) s =
      .next (if (s.pulse d k.val).offAt.isSome then s.driveInactive d k ((s.now d).toNat * 65536) else s) := by
  have hr : s.pulseReserved d k.val = none := by simp [State.pulseReserved, hm]
  change execPulseEdgeOut d k s = _
  rw [execPulseEdgeOut, hr]
  exact congrArg _ (if_pos hm)

/-- Another mode that has a meaning: the inactive edge that is due comes before the active one. -/
theorem execPulseEdgeOut_on (hr : s.pulseReserved d k.val = none) (hm : fld (s.pulseCfg d k.val) 1 0 ≠ 0) :
    exec (.pulseEdgeOut d k) s = .next ((s.endWidth d k).activeEdge d k) := by
  change execPulseEdgeOut d k s = _
  rw [execPulseEdgeOut, hr]
  exact congrArg _ (if_neg hm)

theorem pulseReserved_free (hm : fld (s.pulseCfg d k.val) 1 0 = 1) (hp : 64 ≤ s.pulsePeriod d k.val) : s.pulseReserved d k.val = none := by
  simp [State.pulseReserved, hm, Nat.not_lt.mpr hp]

theorem activeEdge_free {e : Int} (hm : fld (s.pulseCfg d k.val) 1 0 = 1) (hf : s.freeEdge d k.val = some e) :
    s.activeEdge d k = s.driveEdge d k e := by
  simp only [State.activeEdge, hm, hf]

theorem activeEdge_freeNothing (hm : fld (s.pulseCfg d k.val) 1 0 = 1) (hf : s.freeEdge d k.val = none) : s.activeEdge d k = s := by
  simp only [State.activeEdge, hm, hf]

theorem activeEdge_align {t : Int} (hm : fld (s.pulseCfg d k.val) 1 0 = 2) (ht : s.alignTarget d k.val = some t)
    (hp : (Pulse.place (s.pulse d k.val) t).1 / 65536 = (s.now d).toNat) : s.activeEdge d k = s.alignEdge d k t := by
  rw [State.activeEdge, hm, ht]
  exact if_pos hp

theorem execPulseEdgeOut_free (hm : fld (s.pulseCfg d k.val) 1 0 = 1) (hp : 64 ≤ s.pulsePeriod d k.val) :
    exec (.pulseEdgeOut d k) s = .next ((s.endWidth d k).activeEdge d k) :=
  execPulseEdgeOut_on (pulseReserved_free hm hp) (by omega)

theorem offDue_now {e : Int} (h : (s.pulse d k.val).offAt = some e) (he : e / 65536 = (s.now d).toNat) : s.offDue d k.val = some e := by
  rw [State.offDue, h]
  exact if_pos he

/-! ## Edges of an ALIGN output (R112, R113) -/

/-- An edge that nothing withholds is driven where it is placed. -/
theorem out_alignEdge {t : Int} (hl : (s.pulse d k.val).alignLost = false) (hm : (s.pulse d k.val).mute = 0)
    (hj : Pulse.jumps (s.pulse d k.val) t = false) :
    (s.alignEdge d k t).out =
      s.out ++ [.pulse d k (stampOf (snap (Pulse.place (s.pulse d k.val) t).1)) (!(s.pulseCfg d k.val).getLsbD 4)] := by
  unfold State.alignEdge
  simp only [hl, hm, hj, Bool.false_and, Bool.false_eq_true, if_false, ne_eq, not_true_eq_false]
  rw [out_driveEdge]
  cases d <;> rfl

end

theorem place_atTarget {p : Pulse} {t : Int} (h : p.ret = false ∨ p.missRun ≠ 0) : Pulse.place p t = (t, true) := by
  have hb : Pulse.comingBack p = false := by rcases h with h | h <;> simp [Pulse.comingBack, h]
  unfold Pulse.place
  split
  · rfl
  · simp [hb]

/-- On its way back to a target within half a tick the output moves by 256 FRAC a period at most. -/
theorem place_near {p : Pulse} {l t : Int} (hl : p.lastOut = some l) (hr : p.ret = true) (hm : p.missRun = 0)
    (ht : (t - (l + meanNear p.ivals)).natAbs ≤ 32768) : ((Pulse.place p t).1 - (l + meanNear p.ivals)).natAbs ≤ 256 := by
  have hb : ¬ ((!Pulse.comingBack p) = true ∨ 32768 < (t - (l + meanNear p.ivals)).natAbs) := by
    simp [Pulse.comingBack, hr, hm, Nat.not_lt.mpr ht]
  simp only [Pulse.place, hl, if_neg hb]
  split
  · dsimp only; omega
  split
  · dsimp only; omega
  · dsimp only; omega

/-- An input edge is missing: the prediction goes on, and the fourth in a row loses the alignment. -/
def Pulse.missEdge (p : Pulse) : Pulse :=
  { p with missed := satInc p.missed, missRun := p.missRun + 1, ret := true, alignLost := p.alignLost || decide (4 ≤ p.missRun + 1),
           aligned := p.aligned && decide (p.missRun + 1 < 4), pred := p.pred.map (· + meanNear p.ivals) }

theorem execAlignEdgeMissing_align {d : Dev} {k : Fin 2} {s : State} (h : fld (s.pulseCfg d k.val) 1 0 = 2) :
    exec (.alignEdgeMissing d k) s = .next (s.modPulse d k.val Pulse.missEdge) := by
  change execAlignEdgeMissing d k s = _
  exact due_of (decide_eq_true h)

theorem execAlignEdgeMissing_otherMode {d : Dev} {k : Fin 2} {s : State} (h : fld (s.pulseCfg d k.val) 1 0 ≠ 2) :
    exec (.alignEdgeMissing d k) s = .next s := by
  change execAlignEdgeMissing d k s = _
  exact due_unless (decide_eq_false h)

/-- Settles O16: PULSE_EDGE_OUT has one equation per MODE; what is driven is read off the one edge that each equation names. -/
theorem pulsesPlaced : Obligations.PulsesPlaced := by
  refine ⟨?free, ?freeNothing, ?freeOff, ?offIdle, ?offActive, ?align, fun d k t s => out_alignEdge, fun p l t => place_near,
    fun p t => place_atTarget, ?reserved, ?short, ?missing, fun d k s => execAlignEdgeMissing_otherMode⟩
  case free =>
    intro d k e s hm hp hf ho
    have hexec : exec (.pulseEdgeOut d k) s = .next (s.driveEdge d k e) := by
      rw [execPulseEdgeOut_free hm hp, endWidth_none ho, activeEdge_free hm hf]
    refine ⟨_, hexec, out_driveEdge .., ?_, ?_, time_driveEdge ..⟩
    · rw [pulse_driveEdge]
    · rw [pulse_driveEdge]
  case freeNothing =>
    intro d k s hm hp hf ho
    rw [execPulseEdgeOut_free hm hp, endWidth_none ho, activeEdge_freeNothing hm hf]
  case freeOff =>
    intro d k e s hm hp hf ho he
    have hexec : exec (.pulseEdgeOut d k) s = .next (s.driveInactive d k e) := by
      rw [execPulseEdgeOut_free hm hp, endWidth_due (offDue_now ho he),
        activeEdge_freeNothing (by rw [pulseCfg_driveInactive]; exact hm) (by rw [freeEdge_driveInactive]; exact hf)]
    exact ⟨_, hexec, out_driveInactive ..⟩
  case offIdle =>
    intro d k s hm ho
    rw [execPulseEdgeOut_off hm, ho]; rfl
  case offActive =>
    intro d k s hm ho
    exact ⟨_, (execPulseEdgeOut_off hm).trans (congrArg _ (if_pos ho)), out_driveInactive ..⟩
  case align =>
    intro k t s hm ht ho hp
    rw [execPulseEdgeOut_on (by simp [State.pulseReserved, hm]) (by omega), endWidth_none ho, activeEdge_align hm ht hp]
  case reserved =>
    intro d k s hm
    exact execPulseEdgeOut_reserved (if_pos hm)
  case short =>
    intro d k s hm hp
    exact execPulseEdgeOut_reserved (by simp [State.pulseReserved, hm, hp])
  case missing =>
    intro d k s hm
    refine ⟨_, execAlignEdgeMissing_align hm, ?_⟩
    rw [pulse_modPulse (by intro h; cases congrArg Pulse.missRun h)]
    exact ⟨rfl, rfl, rfl, out_modPulse ..⟩

end Sys2Proof.Machine
end

section
/-! PROOFS of spec family 04: how an image load is opened, and what a completion leaves of what a seal has stored. -/
namespace Sys2Proof.Machine
open Sys2Proof

/-! ## Opening a load (R348, R367) -/

section
variable {d : Dev} {h : Hdr} {st : Nat} {s s' : State} {hd : Half}

theorem execLoadImage_self (ha : s.accept d h opLoadImage = (s', some hd)) :
    exec (.loadImage d h st .self) s = .next (s'.openImage d hd .self st) := by
  change execLoadImage d h st .self s = _
  exact congrArg _ (withHandle_accepted _ _ _ _ _ _ _ _ _ ha)

theorem execLoadImage_generation {p : BitVec 7} (ha : s.accept .jup h opLoadImage = (s', some hd)) (hp : p.toNat < 88) :
    exec (.loadImage .jup h st (.generation p)) s = .next (s'.openImage .jup hd (.generation p) st) := by
  have hport : ¬ (Dev.jup = .tsu ∨ 88 ≤ p.toNat) := by simp [Nat.not_le.mpr hp]
  change execLoadImage .jup h st (.generation p) s = _
  exact congrArg _ ((withHandle_accepted _ _ _ _ _ _ _ _ _ ha).trans (if_neg hport))

end

/-- A tracker entry is opened while the tracker has room, and is all that changes (R270). -/
theorem openEntry_room (kind : TrackKind) (h : Half) (job : Option (BitVec 15)) (deadline : Tick) {s : State}
    (hroom : s.jup.tracker.length < 61440) :
    ∃ e, s.openEntry kind h job deadline = some (s.track e) := ⟨_, if_neg (Nat.not_le.mpr hroom)⟩

theorem openEntry_full (kind : TrackKind) (h : Half) (job : Option (BitVec 15)) (deadline : Tick) {s : State}
    (hfull : 61440 ≤ s.jup.tracker.length) : s.openEntry kind h job deadline = none := if_pos hfull

theorem openImage_jup_full {hd : Half} {dest : LoadTo} {st : Nat} {s : State} (h : 61440 ≤ s.jup.tracker.length) :
    s.openImage .jup hd dest st = s.post .jup hd stAborted [] := by
  rw [State.openImage, openEntry_full _ _ _ _ h]

theorem openImage_jup_room {hd : Half} {dest : LoadTo} {st : Nat} {s : State} (h : s.jup.tracker.length < 61440) :
    ∃ e, s.openEntry .imageFlow hd none (s.now .jup + Config.opDeadline 6) = some (s.track e) ∧
      s.openImage .jup hd dest st = (s.track e).askLoad .jup (some hd) dest st := by
  obtain ⟨e, he⟩ := openEntry_room .imageFlow hd none (s.now .jup + Config.opDeadline 6) h
  exact ⟨e, he, by rw [State.openImage, he]⟩

/-- A load with nothing taken yet. -/
def Load.opened (h : Option Half) (dest : LoadTo) (stage : Nat) (tablesOnly : Bool) : Load :=
  { handle := h, dest := dest, stage := stage, tablesOnly := tablesOnly, header := [], headerDone := false, sections := [], pos := 0,
    frame := 0, body := [], checked := 0, staged := [], applied := [], kept := [], ready := false }

/-- A request waits behind the load in progress. -/
theorem askLoad_waits {d : Dev} {hd : Option Half} {dest : LoadTo} {st : Nat} {s : State} (h : (s.com d).load ≠ none) :
    s.askLoad d hd dest st = s.modCom d fun c => { c with loadQueue := c.loadQueue ++ [(hd, dest, st)] } :=
  if_pos (Option.isSome_iff_ne_none.mpr h)

/-- With no load in progress the request is the first that may start. -/
theorem askLoad_idle {d : Dev} {hd : Option Half} {dest : LoadTo} {st : Nat} {s : State} (h : (s.com d).load = none) :
    s.askLoad d hd dest st = s.startFrom d [(hd, dest, st)] := if_neg (by rw [h]; exact Bool.false_ne_true)

/-- It starts, unless it is a host's on a TSU with a bound channel. -/
theorem askLoad_starts {d : Dev} {hd : Half} {dest : LoadTo} {st : Nat} {s : State} (h : (s.com d).load = none)
    (hb : d = .tsu → s.anyBound = false) :
    s.askLoad d (some hd) dest st = s.modCom d fun c => { c with load := some (Load.opened (some hd) dest st false), loadQueue := [] } := by
  rw [askLoad_idle h]
  cases d with
  | tsu =>
    rw [State.startFrom, if_neg (by simp [hb rfl])]; rfl
  | jup =>
    rw [State.startFrom, if_neg (by simp)]; rfl

theorem askLoad_bound {hd : Half} {dest : LoadTo} {st : Nat} {s : State} (h : s.tsuC.load = none) (hb : s.anyBound = true) :
    s.askLoad .tsu (some hd) dest st =
      (s.post .tsu hd stJobsActive []).modCom .tsu fun c => { c with load := none, loadQueue := [] } := by
  rw [askLoad_idle (d := .tsu) h, State.startFrom, if_pos (by simp [hb])]; rfl

/-- A device whose load is opened has that load, and its registers and security are as they were. -/
theorem openImage_opens {d : Dev} {hd : Half} {dest : LoadTo} {st : Nat} {s : State} (h : (s.com d).load = none)
    (hb : d = .tsu → s.anyBound = false) (hr : d = .jup → s.jup.tracker.length < 61440) :
    ((s.openImage d hd dest st).com d).load = some (Load.opened (some hd) dest st false) ∧
      ((s.openImage d hd dest st).com d).regs = (s.com d).regs ∧ ((s.openImage d hd dest st).com d).sec = (s.com d).sec := by
  cases d with
  | tsu =>
    rw [State.openImage, askLoad_starts h hb]
    exact ⟨rfl, rfl, rfl⟩
  | jup =>
    obtain ⟨e, -, hopen⟩ := openImage_jup_room (hd := hd) (dest := dest) (st := st) (hr rfl)
    have hidle : ((s.track e).com .jup).load = none := h
    rw [hopen, askLoad_starts hidle (fun hd => nomatch hd)]
    exact ⟨rfl, rfl, rfl⟩

/-! ## What a completion leaves (R280, R345, R369) -/

/-- What a seal has stored: registers and security of the TSU, and the generations of the Jupin. -/
def State.sealStore (s : State) : Table Half × Security × Table Generation × Table Bool :=
  (s.tsuC.regs, s.tsuC.sec, s.jup.gens, s.jup.genActive)

theorem fields_of_sealStore {s t : State} (h : t.sealStore = s.sealStore) :
    t.tsuC.regs = s.tsuC.regs ∧ t.tsuC.sec = s.tsuC.sec ∧ t.jup.gens = s.jup.gens ∧ t.jup.genActive = s.jup.genActive := by
  simpa only [State.sealStore, Prod.mk.injEq] using h

theorem sealStore_postIrq (s : State) (d : Dev) (e : CplEntry) : (s.postIrq d e).sealStore = s.sealStore := by
  unfold State.postIrq
  dsimp only
  repeat' split
  all_goals rfl

theorem sealStore_post (s : State) (d : Dev) (h : Half) (status : BitVec 8) (results : List Word) :
    (s.post d h status results).sealStore = s.sealStore := by
  unfold State.post
  dsimp only
  split
  · rfl
  split
  · rfl
  · rw [sealStore_postIrq]
    cases d <;> rfl

theorem sealStore_closeFlow (s : State) (kind : TrackKind) (h : Half) (job : Option (BitVec 15)) :
    (s.closeFlow kind h job).sealStore = s.sealStore := by
  unfold State.closeFlow
  split <;> rfl

theorem sealStore_postLoad (s : State) (d : Dev) (h : Option Half) (status : BitVec 8) (results : List Word) :
    (s.postLoad d h status results).sealStore = s.sealStore := by
  unfold State.postLoad
  split
  · rw [sealStore_post, sealStore_closeFlow]
  · exact sealStore_post ..
  · rfl

theorem sealStore_startFrom (l : List (Option Half × LoadTo × Nat)) (s : State) (d : Dev) :
    (s.startFrom d l).sealStore = s.sealStore := by
  induction l generalizing s with
  | nil => cases d <;> rfl
  | cons x l ih =>
    obtain ⟨h, dest, stage⟩ := x
    unfold State.startFrom
    extract_lets busy next
    split
    · rw [ih, sealStore_postLoad]
    · cases d <;> rfl

theorem sealStore_nextLoad (s : State) (d : Dev) : (s.nextLoad d).sealStore = s.sealStore := sealStore_startFrom ..

end Sys2Proof.Machine
end

section
/-! PROOFS of spec family 04: the frames of an image, the judgment of its header, and its seal. -/
namespace Sys2Proof.Machine
open Sys2Proof

/-! ## IMAGE_SECTION_RX (R361, R367, R375) -/

/-- A frame is taken from the inbox as it acts. -/
def State.takeImageFrame (s : State) (d : Dev) (f : List Word) : State := s.consume d (s.arrivedOn d mtImage f) mtImage f

/-- Only the inbox changes. -/
theorem takeImageFrame_frame (s : State) (d : Dev) (f : List Word) :
    ((s.takeImageFrame d f).com d).load = (s.com d).load ∧ ((s.takeImageFrame d f).com d).regs = (s.com d).regs ∧
      ((s.takeImageFrame d f).com d).sec = (s.com d).sec ∧ (s.takeImageFrame d f).out = s.out := by
  cases d <;> exact ⟨rfl, rfl, rfl, rfl⟩

theorem execImageSectionRx_unread {d : Dev} {f : List Word} {s : State} (h : (s.com d).sec.lcRead = false) :
    exec (.imageSectionRx d f) s = .next s := if_pos (by rw [h]; rfl)

theorem execImageSectionRx_read {d : Dev} {f : List Word} {s : State} (h : (s.com d).sec.lcRead = true) :
    exec (.imageSectionRx d f) s = (s.takeImageFrame d f).takeFrame d f := if_neg (by rw [h]; exact Bool.false_ne_true)

/-- A frame is in its place: the next of its section, of the length that its header says. -/
def Load.expects (l : Load) (f : List Word) : Prop :=
  l.ready = false ∧ fld (nthW f 0) 63 56 = l.pos ∧ fld (nthW f 0) 55 36 = l.frame ∧ (f.drop 1).length = fld (nthW f 0) 35 27 + 1

section
variable {s : State} {d : Dev} {f : List Word} {l : Load}

theorem takeFrame_noLoad (h : (s.com d).load = none) : s.takeFrame d f = .next s := by rw [State.takeFrame, h]

theorem takeFrame_otherSection (h : (s.com d).load = some l) (hp : fld (nthW f 0) 63 56 ≠ l.pos) :
    s.takeFrame d f = .next (s.failLoad d l stFormat (some cImageFormat) 0) := by
  rw [State.takeFrame, h]
  exact if_pos (.inr (.inl hp))

theorem takeFrame_inPlace (h : (s.com d).load = some l) (hx : l.expects f) :
    s.takeFrame d f = if fld (nthW f 0) 26 0 ≠ 0 then .fault (.unpredictable "R9")
      else if l.pos = 0 then s.headerFrame d l (f.drop 1) else s.bodyFrame d l (f.drop 1) := by
  obtain ⟨hready, hpos, hframe, hlen⟩ := hx
  rw [State.takeFrame, h]
  exact if_neg (by simp only [hready, hpos, hframe, hlen, ne_eq, not_true_eq_false, or_self, Bool.false_eq_true, not_false_eq_true])

/-- The header goes on while its words are not all there. -/
theorem headerFrame_goesOn {data : List Word} (hlen : (l.header ++ data).length < headerLen (l.header ++ data))
    (h1 : 1 ≤ imgSections (l.header ++ data)) (h64 : imgSections (l.header ++ data) ≤ 64) :
    s.headerFrame d l data =
      .next (s.modCom d fun c => { c with load := some { l with header := l.header ++ data, frame := l.frame + 1 } }) := by
  have hform : ¬ (imgSections (l.header ++ data) = 0 ∨ 64 < imgSections (l.header ++ data) ∨
      headerLen (l.header ++ data) < (l.header ++ data).length) := by omega
  exact (if_neg hform).trans (if_pos hlen)

/-! ## The header (R367, R371, R372) -/

theorem judgeHeader_locked (h : (s.com d).sec.imgLock = true) :
    s.judgeHeader d l = .inl (s.refuseLoad d l stSigBad (some cImageSigBad)) := if_pos h

theorem judgeHeader_malformed (h : (s.com d).sec.imgLock = false) (hf : headerOk d l l.header = false) :
    s.judgeHeader d l = .inl (s.failLoad d l stFormat (some cImageFormat) 0) :=
  (if_neg (Bool.eq_false_iff.mp h)).trans (if_pos (by rw [hf]; rfl))

/-- A well-formed header of an unlocked device is judged by the jobs, by EVAL, and by its version and signature. -/
theorem judgeHeader_wellFormed (h : (s.com d).sec.imgLock = false) (hf : headerOk d l l.header = true) :
    s.judgeHeader d l =
      if imgKind l.header = 1 ∧ s.jobsHere .jup then .inl (s.refuseLoad d l stJobsActive none)
      else if imgEval l.header ∧ (s.com d).sec.level ≠ .opened then .inl (s.failLoad d l stFormat (some cImageFormat) 0)
      else if !versionOk (s.com d).sec l.header || !signatureOk (s.com d).sec l.header then
        .inl (s.failLoad d l stSigBad (some cImageSigBad) 0)
      else .inr { l with headerDone := true, sections := sectionTable l.header, pos := 1, frame := 0 } :=
  (if_neg (Bool.eq_false_iff.mp h)).trans (if_neg (by rw [hf]; exact Bool.false_ne_true))

/-- One that is not a Jupin's own image meets no job. -/
theorem judgeHeader_otherKind (h : (s.com d).sec.imgLock = false) (hf : headerOk d l l.header = true) (hk : imgKind l.header ≠ 1) :
    s.judgeHeader d l =
      if imgEval l.header ∧ (s.com d).sec.level ≠ .opened then .inl (s.failLoad d l stFormat (some cImageFormat) 0)
      else if !versionOk (s.com d).sec l.header || !signatureOk (s.com d).sec l.header then
        .inl (s.failLoad d l stSigBad (some cImageSigBad) 0)
      else .inr { l with headerDone := true, sections := sectionTable l.header, pos := 1, frame := 0 } :=
  (judgeHeader_wellFormed h hf).trans (if_neg fun hj => hk hj.1)

theorem judgeHeader_signature (h : (s.com d).sec.imgLock = false) (hf : headerOk d l l.header = true) (hk : imgKind l.header ≠ 1)
    (he : imgEval l.header = false) (hv : versionOk (s.com d).sec l.header = true) :
    s.judgeHeader d l = if signatureOk (s.com d).sec l.header then
        .inr { l with headerDone := true, sections := sectionTable l.header, pos := 1, frame := 0 }
      else .inl (s.failLoad d l stSigBad (some cImageSigBad) 0) := by
  rw [judgeHeader_otherKind h hf hk, if_neg (by simp [he]), hv]
  cases signatureOk (s.com d).sec l.header <;> rfl

end

/-! ## The seal (R88, R280, R369) -/

section
variable {s : State} {d : Dev} {l : Load}

theorem execImageSeal_due (h : (s.com d).load = some l) (hr : l.ready = true) (ht : (s.now d).toNat % 8 = 0) :
    exec (.imageSeal d) s = s.sealLoad d l := by
  change execImageSeal d s = _
  rw [execImageSeal, h]
  exact if_pos ⟨hr, ht⟩

theorem execImageSeal_notReady (h : (s.com d).load = some l) (hr : l.ready = false) : exec (.imageSeal d) s = .next s := by
  change execImageSeal d s = _
  rw [execImageSeal, h]
  exact if_neg (by simp [hr])

theorem execImageSeal_notDue (h : (s.com d).load = none ∨ (s.now d).toNat % 8 ≠ 0) : exec (.imageSeal d) s = .next s := by
  change execImageSeal d s = _
  unfold execImageSeal
  split
  · rename_i l hl
    rcases h with h | h
    · rw [h] at hl; cases hl
    · exact if_neg fun hd => h hd.2
  · rfl

/-- The completion of a load that is sealed, and the start of the next. -/
def State.endSeal (s : State) (d : Dev) (l : Load) : State :=
  (s.postLoad d l.handle stOk (loadResults d l.checked (if imgKind l.header = 1 ∧ s.idRole = 3 then s.admitted else 0)
    (Config.sha384 (signedPart l.header)))).nextLoad d

theorem sealStore_endSeal (s : State) (d : Dev) (l : Load) : (s.endSeal d l).sealStore = s.sealStore :=
  (sealStore_nextLoad ..).trans (sealStore_postLoad ..)

theorem sealLoad_reading {p : BitVec 7} (hd : l.dest = .generation p) (hr : s.genRead p.toNat = true) :
    s.sealLoad d l = .fault (.unpredictable "R10") := by
  rw [State.sealLoad, hd]
  exact if_pos hr

theorem sealLoad_generation {p : BitVec 7} (hd : l.dest = .generation p) (hr : s.genRead p.toNat = false) :
    s.sealLoad d l = .next ((s.newGeneration p.toNat l).endSeal d l) := by
  rw [State.sealLoad, hd]
  exact if_neg (Bool.eq_false_iff.mp hr)

theorem sealLoad_tsu (hd : l.dest = .self) (hs : l.staged = []) : s.sealLoad .tsu l = .next ((s.sealed1 .tsu l).endSeal .tsu l) := by
  have hw : kept1 l [] = [] := ite_self _
  rw [State.sealLoad, hd, hs, hw]
  exact if_neg fun h => nomatch h.1

/-- In canonical tables the new generation is read back, and is the active one. -/
theorem newGeneration_swaps {p : Nat} (hg : Table.wf {} s.jup.gens = true) (ha : Table.wf false s.jup.genActive = true) :
    (s.newGeneration p l).gen p (!(tget false s.jup.genActive p)) = { header := l.header, sections := l.kept, bad := false } ∧
      tget false (s.newGeneration p l).jup.genActive p = !(tget false s.jup.genActive p) :=
  ⟨tget_tset_same _ _ _ _ hg, tget_tset_same _ _ _ _ ha⟩

/-- A sealed TSU is locked with the digest of its image; its registers are as the load left them. -/
theorem sealed1_tsu (s : State) (l : Load) :
    (s.sealed1 .tsu l).tsuC.sec =
        { s.tsuC.sec with imageDigest := Config.sha384 (signedPart l.header), sealedImg := true, evalOnly := imgEval l.header } ∧
      (s.sealed1 .tsu l).tsuC.regs = s.tsuC.regs := by
  have hcom : (s.sealed1 .tsu l).tsuC = ((s.modSec .tsu fun x => { x with
      imageDigest := Config.sha384 (signedPart l.header), sealedImg := true, evalOnly := imgEval l.header }).modTime .tsu
        fun t => { t with holdLimit := Config.holdLimit (Config.sha384 (signedPart l.header)) }).tsuC := by
    simp only [State.sealed1]
    split <;> split <;> simp only [State.modPower, tsuC_modTsu, tsuC_emit]
  rw [hcom, ← com_tsu, com_modTime, com_modSec]
  exact ⟨rfl, rfl⟩

end

/-- Settles O43: opening, judging and sealing have one equation per case. What a seal stored is read before its completion, which
touches none of it (`sealStore_endSeal`). -/
theorem loadsJudged : Obligations.LoadsJudged := by
  refine ⟨fun d h st s s' hd => execLoadImage_self, fun h st p s s' hd => execLoadImage_generation, ?tracked, ?opens,
    fun d hd dest st s => askLoad_waits, fun hd dest st s => askLoad_bound, fun d f s => execImageSectionRx_unread, ?outOfPlace,
    ?noLoad, ?headerGoesOn, ?reserved, fun d l s => execImageSeal_notReady, fun d s => execImageSeal_notDue, ?generation, ?reading,
    ?tsu, fun d l s => judgeHeader_locked, fun d l s => judgeHeader_malformed, ?jobs, ?eval, ?accepted, ?unsigned, ?signer0, ?signer2,
    ?signer1⟩
  case tracked =>
    intro hd dest st s
    refine ⟨rfl, openImage_jup_full, fun h => ?_⟩
    obtain ⟨e, hentry, hopen⟩ := openImage_jup_room h
    exact ⟨_, hentry, hopen⟩
  case opens =>
    intro d h st s s' hd ha hl hb hr
    obtain ⟨hload, hregs, hsec⟩ := openImage_opens (hd := hd) (dest := .self) (st := st) hl hb hr
    exact ⟨_, _, execLoadImage_self ha, hload, rfl, rfl, rfl, rfl, rfl, rfl, hregs, hsec⟩
  case outOfPlace =>
    intro d f l s hread hl hp
    obtain ⟨hload, -⟩ := takeImageFrame_frame s d f
    rw [execImageSectionRx_read hread, takeFrame_otherSection (hload.trans hl) hp]; rfl
  case noLoad =>
    intro d f s hread hl
    obtain ⟨hload, -⟩ := takeImageFrame_frame s d f
    rw [execImageSectionRx_read hread, takeFrame_noLoad (hload.trans hl)]; rfl
  case headerGoesOn =>
    intro d f l s hread hl hready hpos0 hpos hframe hlen hres hshort h1 h64
    obtain ⟨hload, hregs, hsec, hout⟩ := takeImageFrame_frame s d f
    have hx : l.expects f := ⟨hready, hpos.trans hpos0.symm, hframe, hlen⟩
    have hexec : exec (.imageSectionRx d f) s = .next ((s.takeImageFrame d f).modCom d fun c =>
        { c with load := some { l with header := l.header ++ f.drop 1, frame := l.frame + 1 } }) := by
      rw [execImageSectionRx_read hread, takeFrame_inPlace (hload.trans hl) hx, if_neg (not_not_intro hres), if_pos hpos0,
        headerFrame_goesOn hshort h1 h64]
    refine ⟨_, hexec, ?_⟩
    rw [State.modCom, com_setCom]
    exact ⟨rfl, hregs, hsec, by rw [← hout]; cases d <;> rfl⟩
  case reserved =>
    intro d f l s hread hl hready hpos hframe hlen hres
    obtain ⟨hload, -⟩ := takeImageFrame_frame s d f
    rw [execImageSectionRx_read hread, takeFrame_inPlace (hload.trans hl) ⟨hready, hpos, hframe, hlen⟩, if_pos hres]
  case generation =>
    intro p l s hl hr ht hd hread hg ha
    obtain ⟨hgen, hact⟩ := newGeneration_swaps (p := p.toNat) (l := l) hg ha
    obtain ⟨-, -, hgens, hacts⟩ := fields_of_sealStore (sealStore_endSeal (s.newGeneration p.toNat l) .jup l)
    refine ⟨_, (execImageSeal_due (d := .jup) hl hr ht).trans (sealLoad_generation hd hread), ?_, ?_⟩
    · rw [State.gen, hgens]; exact hgen
    · rw [hacts]; exact hact
  case reading =>
    intro p l s hl hr ht hd hread
    rw [execImageSeal_due (d := .jup) hl hr ht, sealLoad_reading hd hread]
  case tsu =>
    intro l s hl hr ht hd hs
    obtain ⟨hsec, hregs⟩ := sealed1_tsu s l
    obtain ⟨kregs, ksec, -⟩ := fields_of_sealStore (sealStore_endSeal (s.sealed1 .tsu l) .tsu l)
    refine ⟨_, (execImageSeal_due (d := .tsu) hl hr ht).trans (sealLoad_tsu hd hs), ?_, ?_, kregs.trans hregs⟩
    · rw [ksec, hsec]
    · rw [ksec, hsec]
  case jobs =>
    intro l s h hf hk hm
    have hjobs : s.jobsHere .jup = true := by simp [State.jobsHere, hm]
    rw [judgeHeader_wellFormed (d := .jup) h hf, if_pos ⟨hk, hjobs⟩]
  case eval =>
    intro d l s h hf hk he hlevel
    rw [judgeHeader_otherKind h hf hk, if_pos ⟨he, hlevel⟩]
  case accepted =>
    intro d l s h hf hk he hv hs
    rw [judgeHeader_signature h hf hk he hv, if_pos hs]
  case unsigned =>
    intro d l s h hf hk he hv hs
    rw [judgeHeader_signature h hf hk he hv, if_neg (Bool.eq_false_iff.mp hs)]
  case signer0 =>
    intro x ws h
    simp only [signatureOk, h]
  case signer2 =>
    intro x ws h ho
    simp [signatureOk, h, ho]
  case signer1 =>
    intro x ws h hl ha
    simp [signatureOk, h, hl, ha]

end Sys2Proof.Machine
end

section
/-! PROOFS of spec family 06: the order and the tree of the contributions to a vote. -/
namespace Sys2Proof.Machine
open Sys2Proof

/-! ## Operators that fold by one commutative, associative operation (R184)

The partials of such an operator, with the empty one beside them, are the values of an `Option`, and merging two of them is
`Option.merge` of the operation. So order and tree freedom are proved once here, for every operator at once. -/

/-- The partial that has folded nothing yet, or one that carries a value. -/
def Acc.ofOption {α : Type} (mk : α → Acc) : Option α → Acc
  | none => .none
  | some x => mk x

/-- The fold of a list of contributions, each with its rank, its HEALTH and its field. -/
def foldVotes (g : GroupRec) (l : List (BitVec 17 × Bool × List Word)) : Acc :=
  l.foldl (fun a e => mergeAcc g a (liftAcc g e.1 e.2.1 e.2.2)) .none

/-- A group's contributions are partials `mk x` that merge by the commutative, associative operation `f`. -/
structure FoldsBy (g : GroupRec) {α : Type} (mk : α → Acc) (f : α → α → α) : Prop where
  comm : Std.Commutative f
  assoc : Std.Associative f
  merge : ∀ x y, mergeAcc g (mk x) (mk y) = mk (f x y)
  lift : ∀ e : BitVec 17 × Bool × List Word, ∃ x, liftAcc g e.1 e.2.1 e.2.2 = mk x

/-- The result does not depend on the order of the contributions, nor on where their list is cut into two stages. -/
def OrderFree (g : GroupRec) : Prop :=
  (∀ l l', l.Perm l' → foldVotes g l = foldVotes g l') ∧
    ∀ l l', foldVotes g (l ++ l') = mergeAcc g (foldVotes g l) (foldVotes g l')

@[simp] theorem mergeAcc_none_left (g : GroupRec) (a : Acc) : mergeAcc g .none a = a := by rw [mergeAcc]

@[simp] theorem mergeAcc_none_right (g : GroupRec) (a : Acc) : mergeAcc g a .none = a := by cases a <;> rfl

theorem foldl_optionMerge_append {α : Type} (f : α → α → α) [Std.Associative f] (l l' : List (Option α)) :
    (l ++ l').foldl (Option.merge f) none = Option.merge f (l.foldl (Option.merge f) none) (l'.foldl (Option.merge f) none) := by
  rw [List.foldl_append, ← List.foldl_assoc (op := Option.merge f), Option.merge_none_right]

theorem optionMerge_right_comm {α : Type} (f : α → α → α) [Std.Commutative f] [Std.Associative f] (x y z : Option α) :
    Option.merge f (Option.merge f x y) z = Option.merge f (Option.merge f x z) y := by
  rw [Std.Associative.assoc (op := Option.merge f), Std.Commutative.comm (op := Option.merge f) y z,
    ← Std.Associative.assoc (op := Option.merge f)]

namespace FoldsBy
variable {g : GroupRec} {α : Type} {mk : α → Acc} {f : α → α → α}

theorem mergeAcc_ofOption (h : FoldsBy g mk f) (a b : Option α) :
    mergeAcc g (Acc.ofOption mk a) (Acc.ofOption mk b) = Acc.ofOption mk (Option.merge f a b) := by
  match a, b with
  | none, b => rw [Option.merge_none_left]; exact mergeAcc_none_left g _
  | some x, none => rw [Option.merge_none_right]; exact mergeAcc_none_right g _
  | some x, some y => exact h.merge x y

theorem foldVotes_eq (h : FoldsBy g mk f) :
    ∃ val : BitVec 17 × Bool × List Word → Option α,
      ∀ l, foldVotes g l = Acc.ofOption mk ((l.map val).foldl (Option.merge f) none) := by
  obtain ⟨val, hval⟩ := Classical.axiomOfChoice h.lift
  refine ⟨fun e => some (val e), fun l => ?_⟩
  rw [List.foldl_map]
  refine List.foldl_hom (Acc.ofOption mk) (init := none) fun a e => ?_
  rw [hval, ← h.mergeAcc_ofOption]; rfl

theorem orderFree (h : FoldsBy g mk f) : OrderFree g := by
  have := h.comm
  have := h.assoc
  obtain ⟨val, hval⟩ := h.foldVotes_eq
  constructor
  · intro l l' hp
    rw [hval, hval, (hp.map val).foldl_eq' fun x _ y _ z => optionMerge_right_comm f z x y]
  · intro l l'
    rw [hval, hval, hval, h.mergeAcc_ofOption, List.map_append, foldl_optionMerge_append]

end FoldsBy

/-! ## Operations that act lane by lane -/

theorem zipWith_commutative {α : Type} (f : α → α → α) [Std.Commutative f] : Std.Commutative (List.zipWith f) :=
  ⟨fun _ _ => List.zipWith_comm_of_comm Std.Commutative.comm⟩

theorem zipWith_associative {α : Type} (f : α → α → α) [Std.Associative f] : Std.Associative (List.zipWith f) :=
  ⟨fun a b c => by
    induction a generalizing b c with
    | nil => rfl
    | cons x a ih =>
      match b, c with
      | [], c => rfl
      | y :: b, [] => rfl
      | y :: b, z :: c => simp only [List.zipWith_cons_cons, Std.Associative.assoc (op := f), ih]⟩

theorem mergeF_commutative : Std.Commutative mergeF :=
  ⟨fun a b => by simp only [mergeF, Int.add_comm, Bool.or_comm, Bool.and_comm]⟩

theorem mergeF_associative : Std.Associative mergeF :=
  ⟨fun a b c => by simp only [mergeF, Int.add_assoc, Bool.or_assoc, Bool.and_assoc]⟩

/-- OR or AND of two words of a field, as the group's operator says. -/
def bitFold (g : GroupRec) (x y : Word) : Word := if g.op = 10 then x ||| y else x &&& y

theorem bitFold_commutative (g : GroupRec) : Std.Commutative (bitFold g) :=
  ⟨fun x y => by
    unfold bitFold
    split
    · exact BitVec.or_comm x y
    · exact BitVec.and_comm x y⟩

theorem bitFold_associative (g : GroupRec) : Std.Associative (bitFold g) :=
  ⟨fun x y z => by
    unfold bitFold
    split
    · exact BitVec.or_assoc x y z
    · exact BitVec.and_assoc x y z⟩

/-- Two histograms: the counts of each bin added, and whether either saw a lane out of range. -/
def mergeHist (a b : List Nat × Bool) : List Nat × Bool := (List.zipWith (· + ·) a.1 b.1, a.2 || b.2)

theorem mergeHist_commutative : Std.Commutative mergeHist :=
  ⟨fun a b => Prod.ext ((zipWith_commutative _).comm a.1 b.1) (Bool.or_comm a.2 b.2)⟩

theorem mergeHist_associative : Std.Associative mergeHist :=
  ⟨fun a b c => Prod.ext ((zipWith_associative _).assoc a.1 b.1 c.1) (Bool.or_assoc a.2 b.2 c.2)⟩

/-! ## The operators (R188 to R190, R197 to R199) -/

section
variable {g : GroupRec}

theorem foldsBy_gate (h : g.op = 0) : FoldsBy g .gate (· && ·) where
  comm := inferInstance
  assoc := inferInstance
  merge _ _ := rfl
  lift _ := by rw [liftAcc, h]; exact ⟨_, rfl⟩

theorem foldsBy_isum (h : g.op = 1 ∨ g.op = 2) : FoldsBy g .isum (List.zipWith (· + ·)) where
  comm := zipWith_commutative _
  assoc := zipWith_associative _
  merge _ _ := rfl
  lift _ := by obtain h | h := h <;> (rw [liftAcc, h]; exact ⟨_, rfl⟩)

theorem foldsBy_fsum (h : g.op = 3) : FoldsBy g .fsum (List.zipWith mergeF) where
  comm := have := mergeF_commutative; zipWith_commutative _
  assoc := have := mergeF_associative; zipWith_associative _
  merge _ _ := rfl
  lift _ := by rw [liftAcc, h]; exact ⟨_, rfl⟩

theorem foldsBy_hist (h : g.op = 9) : FoldsBy g (fun x => .hist x.1 x.2) mergeHist where
  comm := mergeHist_commutative
  assoc := mergeHist_associative
  merge _ _ := rfl
  lift _ := by rw [liftAcc, h]; exact ⟨(_, _), rfl⟩

theorem foldsBy_bits (h : g.op = 10 ∨ g.op = 11) : FoldsBy g .bits (List.zipWith (bitFold g)) where
  comm := have := bitFold_commutative g; zipWith_commutative _
  assoc := have := bitFold_associative g; zipWith_associative _
  merge _ _ := rfl
  lift _ := by obtain h | h := h <;> (rw [liftAcc, h]; exact ⟨_, rfl⟩)

theorem foldsBy_near (h : g.op = 12) : FoldsBy g .near (List.zipWith (· + ·)) where
  comm := zipWith_commutative _
  assoc := zipWith_associative _
  merge _ _ := rfl
  lift _ := by rw [liftAcc, h]; exact ⟨_, rfl⟩

end

/-- Settles O28: each of the eight operators folds by an operation that is commutative and associative, GATE by AND, the sums,
FSUM and NEAREST lane by lane, HIST bin by bin, OR and AND word by word, and every such operator is free of order and tree. -/
theorem votesOrderFree : Obligations.VotesOrderFree := by
  intro g hop
  change OrderFree g
  simp only [List.mem_cons, List.not_mem_nil, or_false] at hop
  obtain h | h | h | h | h | h | h | h := hop
  · exact (foldsBy_gate h).orderFree
  · exact (foldsBy_isum (.inl h)).orderFree
  · exact (foldsBy_isum (.inr h)).orderFree
  · exact (foldsBy_fsum h).orderFree
  · exact (foldsBy_hist h).orderFree
  · exact (foldsBy_bits (.inl h)).orderFree
  · exact (foldsBy_bits (.inr h)).orderFree
  · exact (foldsBy_near h).orderFree

end Sys2Proof.Machine
end

section
/-! PROOFS of spec family 07: debug writes of objects, forced releases and the timeout record. -/
namespace Sys2Proof.Machine
open Sys2Proof

/-! ## A debug write, by its session and its slot (R230) -/

section
variable {core : BitVec 11} {slot : BitVec 6} {kind : Nat} {s : State}

theorem execDbgSet_eq : exec (.dbgSet core slot) s = .next (s.dbgObject core slot 1 0 0) := rfl
theorem execDbgClear_eq : exec (.dbgClear core slot) s = .next (s.dbgObject core slot 1 1 0) := rfl
theorem execDbgPreset_eq (v : BitVec 8) : exec (.dbgPreset core slot v) s = .next (s.dbgObject core slot 2 2 v) := rfl
theorem execDbgForceRelease_eq : exec (.dbgForceRelease core slot) s = .next (s.dbgObject core slot 3 3 0) := rfl

theorem sync_denied (s : State) (d : Dev) : (s.denied d).tsu.sync = s.tsu.sync :=
  (congrArg (fun x : State => x.tsu.sync) (sansFaults_raiseFault ..)).trans (by cases d <;> rfl)
theorem chans_denied (s : State) (d : Dev) : (s.denied d).tsu.chans = s.tsu.chans :=
  (congrArg (fun x : State => x.tsu.chans) (sansFaults_raiseFault ..)).trans (by cases d <;> rfl)

theorem dbgObject_noControl (op : Nat) (v : BitVec 8) (h : s.tsuC.sec.session ≠ .control) :
    (s.dbgObject core slot kind op v).tsu.sync = { s.tsu.sync with denied := true } ∧
      (s.dbgObject core slot kind op v).tsu.chans = s.tsu.chans := by
  rw [State.dbgObject, if_pos h]
  exact ⟨sync_denied .., chans_denied ..⟩

theorem dbgObject_otherKind (op : Nat) (v : BitVec 8) (h : s.tsuC.sec.session = .control) (hk : cfgKind (s.slotCfg core slot) ≠ kind) :
    s.dbgObject core slot kind op v = s.dbgIgnored := by
  rw [State.dbgObject, if_neg (fun hn => hn h), if_pos hk]

theorem dbgObject_accepted (op : Nat) (v : BitVec 8) (h : s.tsuC.sec.session = .control) (hk : cfgKind (s.slotCfg core slot) = kind) :
    s.dbgObject core slot kind op v =
      s.modSync fun y => { y with dbgOps := y.dbgOps ++ [(core, slot, op, v, s.now .tsu + 1)] } := by
  rw [State.dbgObject, if_neg (fun hn => hn h), if_neg (fun hn => hn hk)]

end

/-! ## A fault in one block takes no other block's first fault away -/

section
variable {s : State} {d : Dev} {k : Nat}

theorem fblock_latchFault_other {b : Nat} (code : Code) (ctx : Ctx) (h : k ≠ b) :
    (s.latchFault d b code ctx).fblock d k = s.fblock d k := by
  unfold State.latchFault
  dsimp only
  split <;> split <;> simp only [fblock_report, fblock_modBlock_other _ _ _ _ _ h]

theorem latchFault_keeps_valid (b : Nat) (code : Code) (ctx : Ctx) (h : (s.fblock d k).valid = true) :
    ((s.latchFault d b code ctx).fblock d k).valid = true := by
  by_cases hk : k = b
  · rw [hk]; exact valid_latchFault ..
  · rw [fblock_latchFault_other code ctx hk, h]

theorem readSeverity_keeps_valid (h : (s.fblock d k).valid = true) : ((s.readSeverity d).fblock d k).valid = true := by
  unfold State.readSeverity
  split
  · rename_i hbad
    obtain ⟨hd, -⟩ := Bool.and_eq_true_iff.mp hbad
    obtain rfl := of_decide_eq_true hd
    exact latchFault_keeps_valid _ _ _ h
  · exact h

theorem raiseFault_keeps_valid (b : Nat) (code : Code) (ctx : Ctx) (h : (s.fblock d k).valid = true) :
    ((s.raiseFault d b code ctx).fblock d k).valid = true :=
  latchFault_keeps_valid _ _ _ (readSeverity_keeps_valid h)

end

/-! ## The channels that a debug write touches (R295) -/

/-- What a debug write does to a channel it touches. -/
def State.dbgTouch (ctx : Ctx) (s : State) (c : Nat) : State := (s.modChan c fun x => { x with debug := true }).repeatBroken c ctx

/-- A channel carries the mark of a debug write, and its block a fault. -/
def State.DbgMarked (s : State) (c : Nat) : Prop := (s.chan c).debug = true ∧ (s.fblock .tsu (blkChan c)).valid = true

theorem repeatBroken_eq (s : State) (c : Nat) (ctx : Ctx) :
    s.repeatBroken c ctx = s.raiseFault .tsu (blkChan c) cRepeatBroken { ctx with ch := BitVec.ofNat 4 c } := by
  rw [State.repeatBroken, State.raiseChan, if_neg (by decide)]

section
variable {ctx : Ctx} {s : State} {c k : Nat}

theorem sansFaults_dbgTouch : (s.dbgTouch ctx c).sansFaults = (s.modChan c fun x => { x with debug := true }).sansFaults := by
  rw [State.dbgTouch, repeatBroken_eq, sansFaults_raiseFault]

theorem dbgTouch_marks : (s.dbgTouch ctx c).DbgMarked c := by
  constructor
  · rw [chan_of_sansFaults sansFaults_dbgTouch, chan_modChan _ _ _ fun h => Bool.noConfusion (congrArg Chan.debug h)]
  · rw [State.dbgTouch, repeatBroken_eq]
    exact valid_latchFault ..

theorem dbgTouch_keeps_marked (h : s.DbgMarked k) : (s.dbgTouch ctx c).DbgMarked k := by
  by_cases hk : k = c
  · rw [hk]; exact dbgTouch_marks
  obtain ⟨hdebug, hvalid⟩ := h
  constructor
  · rw [chan_of_sansFaults sansFaults_dbgTouch, chan_modChan_other _ _ _ _ hk, hdebug]
  · rw [State.dbgTouch, repeatBroken_eq]
    exact raiseFault_keeps_valid _ _ _ hvalid

theorem sync_dbgTouch : (s.dbgTouch ctx c).tsu.sync = s.tsu.sync := (congrArg (fun x : State => x.tsu.sync) sansFaults_dbgTouch :)

theorem foldl_dbgTouch_keeps_marked (cs : List Nat) (h : s.DbgMarked k) : (cs.foldl (State.dbgTouch ctx) s).DbgMarked k := by
  induction cs generalizing s with
  | nil => exact h
  | cons c cs ih => exact ih (dbgTouch_keeps_marked h)

theorem foldl_dbgTouch_marks {cs : List Nat} (h : k ∈ cs) : (cs.foldl (State.dbgTouch ctx) s).DbgMarked k := by
  induction cs generalizing s with
  | nil => cases h
  | cons c cs ih =>
    obtain rfl | h := List.mem_cons.mp h
    · exact foldl_dbgTouch_keeps_marked cs dbgTouch_marks
    · exact ih h

theorem sync_foldl_dbgTouch (cs : List Nat) : (cs.foldl (State.dbgTouch ctx) s).tsu.sync = s.tsu.sync := by
  induction cs generalizing s with
  | nil => rfl
  | cons c cs ih => exact ih.trans sync_dbgTouch

end

/-! ## What a debug write does (R230, R295) -/

@[simp] theorem sync_sramSpan (s : State) (tbl ch lo hi : Nat) : (s.sramSpan tbl ch lo hi).tsu.sync = s.tsu.sync := by
  simp only [State.sramSpan, tsu_modTsu]
  repeat' split
  all_goals rfl
@[simp] theorem sync_sramWrite (s : State) (tbl ch word : Nat) : (s.sramWrite tbl ch word).tsu.sync = s.tsu.sync := sync_sramSpan ..

section
variable (core : BitVec 11) (slot : BitVec 6) (v : BitVec 8) (s : State)

theorem slotVal_putSlot (h : Table.wf {} s.tsu.sync.slots = true) : (s.putSlot core slot v).slotVal (slotKey core slot) = v := by
  rw [State.slotVal, State.putSlot, sync_sramWrite]
  exact congrArg SyncSlot.v (tget_tset_same _ _ _ _ h)

theorem slotVal_foldl_dbgTouch (ctx : Ctx) (cs : List Nat) (key : Nat) :
    (cs.foldl (State.dbgTouch ctx) s).slotVal key = s.slotVal key := by
  rw [State.slotVal, sync_foldl_dbgTouch, State.slotVal]

theorem slotVal_dbgAct (h : Table.wf {} s.tsu.sync.slots = true) :
    (s.dbgAct core slot 0 v).slotVal (slotKey core slot) = 1 ∧ (s.dbgAct core slot 1 v).slotVal (slotKey core slot) = 0 ∧
      (s.dbgAct core slot 2 v).slotVal (slotKey core slot) = v :=
  ⟨(slotVal_foldl_dbgTouch ..).trans (slotVal_putSlot _ _ _ _ h), (slotVal_foldl_dbgTouch ..).trans (slotVal_putSlot _ _ _ _ h),
    (slotVal_foldl_dbgTouch ..).trans (slotVal_putSlot _ _ _ _ h)⟩

theorem dbgAct_marks_owner (op : Nat) : (s.dbgAct core slot op v).DbgMarked (cfgOwner (s.slotCfg core slot)) := by
  refine foldl_dbgTouch_marks ?_
  split <;> simp

theorem dbgAct_marks_recordOwner : (s.dbgAct core slot 3 v).DbgMarked (conjOwner (s.conjCfg (cfgRec (s.slotCfg core slot)))) :=
  foldl_dbgTouch_marks (by simp)

theorem forced_dbgAct :
    (s.dbgAct core slot 3 v).tsu.sync.forced = s.tsu.sync.forced ++ [(cfgRec (s.slotCfg core slot), s.now .tsu + 64)] :=
  congrArg Sync.forced (sync_foldl_dbgTouch _)

end

/-! ## The release of a record (R220, R223) -/

/-- The state without what the release of a record touches beside it: the channels, waits and answers of those that waited, and
the injected parity of the record's word. -/
def State.sansWaiters (s : State) : State :=
  { s with tsu := { s.tsu with chans := [], injArm := none, badWords := [], sync := { s.tsu.sync with waits := [], rsps := [] } } }

/-- A record advanced to its next round, released on tick `r`. -/
def ConjRec.released (r : Tick) (x : ConjRec) : ConjRec :=
  { x with cur := x.next, next := 0, round := x.round + 1, relTick := r.setWidth 32, release := x.nextRel, nextRel := none }

section
variable (s : State) {rec : Nat} (r : Tick)

theorem sansWaiters_releaseOne (late : Bool) (w : WaitRec) : (s.releaseOne late r w).sansWaiters = s.sansWaiters := by
  unfold State.releaseOne
  dsimp only
  split <;> rfl

theorem sansWaiters_foldl_releaseOne (late : Bool) (ws : List WaitRec) :
    (ws.foldl (fun s w => s.releaseOne late r w) s).sansWaiters = s.sansWaiters := by
  induction ws generalizing s with
  | nil => rfl
  | cons w ws ih => exact (ih _).trans (sansWaiters_releaseOne ..)

theorem sansWaiters_sramSpan (tbl ch lo hi : Nat) : (s.sramSpan tbl ch lo hi).sansWaiters = s.sansWaiters := by
  simp only [State.sramSpan, State.modTsu, State.sansWaiters]
  repeat' split
  all_goals rfl

theorem sansWaiters_advanceRec (rec : Nat) : (s.advanceRec rec r).sansWaiters = s.sansWaiters.modConj rec (ConjRec.released r) :=
  sansWaiters_sramSpan ..

variable {s}

/-- A release on its tick, of a record that reads well, advances the record; beside that it touches only those that waited. -/
theorem sansWaiters_releaseRec (h : s.sramBad 1 (conjOwner (s.conjCfg rec)) rec = false) :
    (s.releaseRec rec r false).sansWaiters = s.sansWaiters.modConj rec (ConjRec.released r) := by
  rw [State.releaseRec, State.recRead, State.sramRead, h]
  exact (sansWaiters_advanceRec ..).trans (by rw [sansWaiters_foldl_releaseOne])

theorem releaseRec_frame (h : s.sramBad 1 (conjOwner (s.conjCfg rec)) rec = false) :
    (s.releaseRec rec r false).tsu.sync.forced = s.tsu.sync.forced ∧ (s.releaseRec rec r false).tsu.sync.slots = s.tsu.sync.slots ∧
      (s.releaseRec rec r false).tsuC = s.tsuC ∧ (s.releaseRec rec r false).out = s.out :=
  have hrel := sansWaiters_releaseRec r h
  ⟨(congrArg (fun x : State => x.tsu.sync.forced) hrel :), (congrArg (fun x : State => x.tsu.sync.slots) hrel :),
    (congrArg (fun x : State => x.tsuC) hrel :), (congrArg (fun x : State => x.out) hrel :)⟩

theorem conjRec_releaseRec (h : s.sramBad 1 (conjOwner (s.conjCfg rec)) rec = false) (hwf : Table.wf {} s.tsu.sync.recs = true) :
    (s.releaseRec rec r false).conjRec rec = (s.conjRec rec).released r :=
  calc (s.releaseRec rec r false).conjRec rec
    _ = (s.sansWaiters.modConj rec (ConjRec.released r)).conjRec rec :=
      (congrArg (fun x : State => x.conjRec rec) (sansWaiters_releaseRec r h) :)
    _ = (s.conjRec rec).released r := tget_tset_same _ _ _ _ hwf

end

/-- A forced release that acts is no longer waited for. -/
def State.takeForced (s : State) (e : Nat × Tick) : State := s.modSync fun y => { y with forced := dropOne e y.forced }

section
variable {rec : BitVec 12} {s : State}

theorem execForceReleaseApply_due (h : (rec.toNat, s.now .tsu) ∈ s.tsu.sync.forced) :
    exec (.forceReleaseApply rec) s = .next ((s.takeForced (rec.toNat, s.now .tsu)).releaseRec rec.toNat (s.now .tsu) false) := by
  change execForceReleaseApply rec s = _
  exact due_of (List.contains_iff_mem.mpr h)

theorem execForceReleaseApply_notDue (h : (rec.toNat, s.now .tsu) ∉ s.tsu.sync.forced) : exec (.forceReleaseApply rec) s = .next s := by
  change execForceReleaseApply rec s = _
  exact due_unless (Bool.eq_false_iff.mpr fun hc => h (List.contains_iff_mem.mp hc))

end

/-! ## The timeout record (R228) -/

theorem getLsbD_clear127 (x : BitVec 128) :
    (x &&& ~~~((1 : BitVec 128) <<< 127)).getLsbD 127 = false ∧
      ∀ i, i < 127 → (x &&& ~~~((1 : BitVec 128) <<< 127)).getLsbD i = x.getLsbD i := by
  constructor
  · simp
  · intro i hi
    have hone : ((1 : BitVec 128) <<< 127).getLsbD i = false := by rw [BitVec.getLsbD_shiftLeft]; simp [hi]
    rw [BitVec.getLsbD_and, BitVec.getLsbD_not, hone]
    simp [show i < 128 by omega]

theorem execTimeoutRecordClear_eq (s : State) :
    exec .timeoutRecordClear s = .next (s.modSync fun y => { y with timeout := y.timeout &&& ~~~((1 : BitVec 128) <<< 127) }) := rfl

/-- Settles O32: a debug write is judged by session and kind alone, and touches the owners of what it writes; a forced release on
its tick is the release of the record, which beside the record touches only those who waited. -/
theorem debugWrites : Obligations.DebugWrites := by
  refine ⟨fun core slot v s hs => ?_, fun core slot s hs hk => ?_, fun core slot v s hs hk => ?_, fun core slot s hs hk => ?_,
    fun core slot v s hs => ?_, slotVal_dbgAct, fun core slot op v s => dbgAct_marks_owner core slot v s op, dbgAct_marks_recordOwner,
    forced_dbgAct, fun rec s hdue hread => ?_, fun rec s => execForceReleaseApply_notDue, fun s => ?_⟩
  · exact ⟨⟨_, execDbgSet_eq, dbgObject_noControl 0 0 hs⟩, ⟨_, execDbgClear_eq, dbgObject_noControl 1 0 hs⟩,
      ⟨_, execDbgPreset_eq v, dbgObject_noControl 2 v hs⟩, ⟨_, execDbgForceRelease_eq, dbgObject_noControl 3 0 hs⟩⟩
  · rw [execDbgSet_eq, execDbgClear_eq, dbgObject_accepted _ _ hs hk, dbgObject_accepted _ _ hs hk]
    exact ⟨⟨_, rfl, rfl, rfl, rfl⟩, ⟨_, rfl, rfl, rfl, rfl⟩⟩
  · rw [execDbgPreset_eq, dbgObject_accepted _ _ hs hk]
    exact ⟨_, rfl, rfl, rfl, rfl⟩
  · rw [execDbgForceRelease_eq, dbgObject_accepted _ _ hs hk]
    exact ⟨_, rfl, rfl, rfl, rfl⟩
  · rw [execDbgSet_eq, execDbgClear_eq, execDbgPreset_eq, execDbgForceRelease_eq]
    have hign : ∀ kind op v, cfgKind (s.slotCfg core slot) ≠ kind → Host.Outcome.next (s.dbgObject core slot kind op v) =
        (.next s.dbgIgnored : Res) := fun _ op v hk => congrArg _ (dbgObject_otherKind op v hs hk)
    exact ⟨fun hk => ⟨hign 1 0 0 hk, hign 1 1 0 hk⟩, hign 2 2 v, hign 3 3 0⟩
  · have hread' : (s.takeForced (rec.toNat, s.now .tsu)).sramBad 1 (conjOwner (s.conjCfg rec.toNat)) rec.toNat = false := hread
    obtain ⟨hforced, hslots, hcom, hout⟩ := releaseRec_frame (s.now .tsu) hread'
    refine ⟨_, execForceReleaseApply_due hdue, hforced, fun hwf => ?_, hslots, hcom, hout⟩
    have hwf' : Table.wf {} (s.takeForced (rec.toNat, s.now .tsu)).tsu.sync.recs = true := hwf
    rw [conjRec_releaseRec _ hread' hwf']
    exact ⟨rfl, rfl, rfl⟩
  · obtain ⟨hclear, hkeep⟩ := getLsbD_clear127 s.tsu.sync.timeout
    exact ⟨_, execTimeoutRecordClear_eq s, hclear, hkeep, rfl, rfl, rfl, rfl⟩

end Sys2Proof.Machine
end

section
/-! PROOFS of spec family 08: line words under their two parities, and the symbols of a word. -/
namespace Sys2Proof.Machine
open Sys2Proof

/-! ## Parities of line words (R233)

The parity over every second bit is linear: it turns XOR of words into XOR of parities. A line word is its data with two single
bits set by XOR, so both its parities come out even, and one more bit inverted makes one of them odd. -/

theorem foldl_xor_xor (f g : Nat → Bool) (l : List Nat) (a b : Bool) :
    l.foldl (fun c i => c ^^ (f i ^^ g i)) (a ^^ b) = (l.foldl (fun c i => c ^^ f i) a ^^ l.foldl (fun c i => c ^^ g i) b) := by
  induction l generalizing a b with
  | nil => rfl
  | cons i l ih =>
    have hswap : ((a ^^ b) ^^ (f i ^^ g i)) = ((a ^^ f i) ^^ (b ^^ g i)) := by
      rw [Bool.xor_assoc, Bool.xor_assoc, Bool.xor_left_comm b]
    rw [List.foldl_cons, List.foldl_cons, List.foldl_cons, hswap, ih]

theorem parity66_xor (w x : BitVec 66) (o : Nat) : parity66 (w ^^^ x) o = (parity66 w o ^^ parity66 x o) := by
  simp only [parity66, BitVec.getLsbD_xor]
  exact foldl_xor_xor _ _ _ false false

theorem foldl_range_bit1 {i o k : Nat} (b : Bool) (hk : k ≤ 33) (ho : o < 2) :
    (List.range k).foldl (fun c j => c ^^ (bit1 66 i b).getLsbD (2 * j + o)) false = (decide (i % 2 = o ∧ i < 2 * k) && b) := by
  induction k with
  | zero => simp
  | succ k ih =>
    have hlt : 2 * k + o < 66 := by omega
    have hstep : (i % 2 = o ∧ i < 2 * (k + 1)) ↔ (i % 2 = o ∧ i < 2 * k) ∨ 2 * k + o = i := by omega
    have hnew : 2 * k + o = i → ¬(i % 2 = o ∧ i < 2 * k) := by omega
    rw [List.range_succ, List.foldl_append, ih (by omega), List.foldl_cons, List.foldl_nil, getLsbD_bit1, decide_eq_true hlt,
      decide_eq_decide.mpr hstep, Bool.decide_or, Bool.true_and]
    by_cases h : 2 * k + o = i
    · rw [decide_eq_false (hnew h), decide_eq_true h, Bool.false_and, Bool.false_or, Bool.true_and, Bool.false_xor]
    · rw [decide_eq_false h, Bool.false_and, Bool.or_false, Bool.xor_false]

/-- A single bit counts in the parity of its own half of the bits. -/
theorem parity66_bit1 {i o : Nat} (b : Bool) (hi : i < 66) (ho : o < 2) : parity66 (bit1 66 i b) o = (decide (i % 2 = o) && b) := by
  rw [parity66, foldl_range_bit1 b (Nat.le_refl 33) ho, decide_eq_decide.mpr (and_iff_left hi)]

/-- PE and PO stand above the data, so setting them is the same by OR and by XOR. -/
theorem lineWord_eq_xor (v : Word) : lineWord v =
    v.setWidth 66 ^^^ bit1 66 64 (parity66 (v.setWidth 66) 0) ^^^ bit1 66 65 (parity66 (v.setWidth 66) 1) := by
  refine BitVec.eq_of_getLsbD_eq fun j hj => ?_
  simp only [lineWord, BitVec.getLsbD_or, BitVec.getLsbD_xor, getLsbD_bit1, BitVec.getLsbD_setWidth]
  rcases Nat.lt_or_ge j 64 with hlt | hge
  · simp [show j ≠ 64 by omega, show j ≠ 65 by omega]
  · rw [BitVec.getLsbD_of_ge v j hge]
    by_cases hj64 : j = 64
    · subst hj64
      simp
    · simp [hj64]

theorem parity66_lineWord (v : Word) {o : Nat} (ho : o < 2) : parity66 (lineWord v) o = false := by
  rw [lineWord_eq_xor, parity66_xor, parity66_xor, parity66_bit1 _ (by decide) ho, parity66_bit1 _ (by decide) ho]
  match o, ho with
  | 0, _ => simp
  | 1, _ => simp

theorem wordOk_lineWord (v : Word) : wordOk (lineWord v) = true := by
  rw [wordOk, parity66_lineWord v Nat.zero_lt_two, parity66_lineWord v Nat.one_lt_two]
  rfl

/-- The data stand in bits [63:0]. -/
theorem extractLsb'_lineWord (v : Word) : (lineWord v).extractLsb' 0 64 = v := by
  refine BitVec.eq_of_getLsbD_eq fun j hj => ?_
  simp only [BitVec.getLsbD_extractLsb', lineWord_eq_xor, BitVec.getLsbD_xor, getLsbD_bit1, BitVec.getLsbD_setWidth]
  simp [hj, show j ≠ 64 by omega, show j ≠ 65 by omega, show j < 66 by omega]

theorem bit1_true_eq_natCast (i : Nat) : bit1 66 i true = ((1 <<< i : Nat) : BitVec 66) :=
  BitVec.eq_of_toNat_eq (BitVec.toNat_shiftLeft ..)

/-- An inverted bit makes the parity of its own half odd. -/
theorem wordOk_lineWord_inverted (v : Word) {i : Nat} (hi : i < 66) : wordOk (lineWord v ^^^ (1 <<< i)) = false := by
  have hpar (o : Nat) (ho : o < 2) : parity66 (lineWord v ^^^ (1 <<< i)) o = decide (i % 2 = o) := by
    rw [← bit1_true_eq_natCast, parity66_xor, parity66_lineWord v ho, parity66_bit1 true hi ho, Bool.false_xor, Bool.and_true]
  rw [wordOk, hpar 0 Nat.zero_lt_two, hpar 1 Nat.one_lt_two]
  rcases Nat.mod_two_eq_zero_or_one i with h | h <;> simp [h]

/-! ## Symbols and lanes (R232, R233) -/

theorem gray_gray : ∀ b : BitVec 2, gray (gray b) = b := by decide

/-- One level up or down inverts one bit. -/
theorem gray_adjacent : ∀ a b : BitVec 2, (gray a).toNat + 1 = (gray b).toNat → a ^^^ b = 1 ∨ a ^^^ b = 2 := by decide

theorem length_symbols (w : BitVec 66) : (symbols w).length = 33 := by rw [symbols, List.length_map, List.length_range]

theorem getD_symbols (w : BitVec 66) {i : Nat} (hi : i < 33) : (symbols w).getD i 0 = gray (w.extractLsb' (2 * i) 2) := by
  simp [symbols, hi]

theorem laneSymbols_even (a b c d e f g h : BitVec 66) :
    laneSymbols 0 [a, b, c, d, e, f, g, h] = symbols a ++ symbols c ++ symbols e ++ symbols g := by
  simp [laneSymbols]

theorem laneSymbols_odd (a b c d e f g h : BitVec 66) :
    laneSymbols 1 [a, b, c, d, e, f, g, h] = symbols b ++ symbols d ++ symbols f ++ symbols h := by
  simp [laneSymbols]

end Sys2Proof.Machine
end

section
/-! PROOFS of spec family 08: frames received, from the parities to the delivery of their messages. -/
namespace Sys2Proof.Machine
open Sys2Proof

/-! ## A fault leaves of a link all but its sending half -/

/-- A link without its sending half, by which faults are reported. -/
def Link.sansTx (l : Link) : Link := { l with tx := {} }

theorem link_modLink_otherDev {s : State} {d e : Dev} {n k : Nat} {f : Link → Link} (h : e ≠ d) :
    (s.modLink d n f).link e k = s.link e k := by
  rw [State.link, com_modLink_other _ _ _ _ _ h, State.link]

section
variable (s : State) (d e : Dev) (k : Nat)

theorem sansTx_send (n : Nat) (m : Msg) : ((s.send d n m).link e k).sansTx = (s.link e k).sansTx := by
  by_cases he : e = d
  · subst he
    by_cases hk : k = n
    · subst hk
      rw [State.send, link_modTx]
      · rfl
      · intro h
        have htx := congrArg Link.tx h
        dsimp only at htx
        split at htx
        · simpa using congrArg LinkTx.qTime htx
        · simpa using congrArg LinkTx.qBulk htx
        · simpa using congrArg LinkTx.qStep htx
    · exact congrArg _ (link_modLink_other hk)
  · exact congrArg _ (link_modLink_otherDev he)

theorem sansTx_sendAll (ns : List Nat) (m : Msg) : ((s.sendAll d ns m).link e k).sansTx = (s.link e k).sansTx := by
  induction ns generalizing s with
  | nil => rfl
  | cons n ns ih => exact (ih _).trans (sansTx_send ..)

theorem link_logReport (ws : LogEntry) : (s.logReport ws).link e k = s.link e k := by
  unfold State.logReport
  split <;> cases e <;> rfl

theorem sansTx_report (ws : List Word) : ((s.report d ws).link e k).sansTx = (s.link e k).sansTx := by
  cases d with
  | tsu => exact sansTx_sendAll ..
  | jup => exact congrArg _ (link_logReport ..)

theorem link_modBlock (b : Nat) (f : FaultBlock → FaultBlock) : (s.modBlock d b f).link e k = s.link e k := by
  cases d <;> cases e <;> rfl

theorem sansTx_latchFault (b : Nat) (code : Code) (ctx : Ctx) : ((s.latchFault d b code ctx).link e k).sansTx = (s.link e k).sansTx := by
  unfold State.latchFault
  dsimp only
  split <;> split <;> simp only [sansTx_report, link_modBlock]

theorem sansTx_readSeverity : ((s.readSeverity d).link e k).sansTx = (s.link e k).sansTx := by
  unfold State.readSeverity
  split
  · exact (sansTx_latchFault ..).trans (by cases e <;> rfl)
  · rfl

theorem sansTx_raiseFault (b : Nat) (code : Code) (ctx : Ctx) : ((s.raiseFault d b code ctx).link e k).sansTx = (s.link e k).sansTx :=
  (sansTx_latchFault ..).trans (sansTx_readSeverity ..)

end

theorem inbox_of_sansFaults {s t : State} (h : t.sansFaults = s.sansFaults) (d : Dev) : (t.com d).inbox = (s.com d).inbox := by
  cases d
  · exact (congrArg (fun x : State => x.tsuC.inbox) h :)
  · exact (congrArg (fun x : State => x.jupC.inbox) h :)

theorem raiseLink_eq (s : State) (d : Dev) (n : Nat) (code : Code) : ∃ ctx, s.raiseLink d n code = s.raiseFault d (blkLink d n) code ctx :=
  ⟨_, rfl⟩

/-! ## A frame with a failed word (R239) -/

theorem link_ne_of_frameLock {l : Link} (h : l.ctl.frameLock = true) : l ≠ {} := by rintro rfl; cases h

/-- The receiving half asks for a replay of the streams that a failed frame may belong to. -/
def LinkRx.askReplay (r : LinkRx) (time data : Bool) : LinkRx :=
  { r with nak := r.nak || data, discarding := r.discarding || data, tnak := r.tnak || time, discardingT := r.discardingT || time }

/-- A failed frame is noted on its link, before its fault is raised. -/
def State.noteBad (s : State) (d : Dev) (n : Nat) (time data : Bool) : State :=
  (s.modRx d n fun r => r.askReplay time data).modCtl d n fun c => { c with cntParity := satInc c.cntParity }

/-- A header that reads well tells the stream of its frame; without one it may be either. So a replay of one is asked for. -/
theorem badFrame_eq (s : State) (d : Dev) (n : Nat) (h : Option Word) :
    ∃ time data, (data = true ∨ time = true) ∧ s.badFrame d n h = (s.noteBad d n time data).raiseLink d n cLinkParity := by
  refine ⟨_, _, ?_, rfl⟩
  cases h with
  | none => exact .inl rfl
  | some h => exact (Decidable.em (hdrVc h = 1)).symm.imp (fun hdata => decide_eq_true hdata) fun htime => decide_eq_true htime

section
variable {s : State} {d : Dev} {n : Nat} (hlock : (s.link d n).ctl.frameLock = true)
include hlock

theorem link_noteBad (time data : Bool) : (s.noteBad d n time data).link d n =
    { s.link d n with rx := (s.link d n).rx.askReplay time data,
                      ctl := { (s.link d n).ctl with cntParity := satInc (s.link d n).ctl.cntParity } } := by
  have hrx : (s.modRx d n fun r => r.askReplay time data).link d n =
      { s.link d n with rx := (s.link d n).rx.askReplay time data } := link_modLink (link_ne_of_frameLock hlock)
  rw [State.noteBad, link_modCtl, hrx]
  rw [hrx]
  exact link_ne_of_frameLock hlock

/-- A failed frame counts as a parity error and asks for a replay; nothing is delivered, and no sequence number goes on. -/
theorem badFrame_counts (h : Option Word) :
    ((s.badFrame d n h).com d).inbox = (s.com d).inbox ∧
      ((s.badFrame d n h).link d n).ctl.cntParity = satInc (s.link d n).ctl.cntParity ∧
      (((s.badFrame d n h).link d n).rx.nak = true ∨ ((s.badFrame d n h).link d n).rx.tnak = true) ∧
      ((s.badFrame d n h).link d n).rx.nextFseq = (s.link d n).rx.nextFseq ∧
      ((s.badFrame d n h).fblock d (blkLink d n)).valid = true := by
  obtain ⟨time, data, hasked, heq⟩ := badFrame_eq s d n h
  obtain ⟨ctx, hraise⟩ := raiseLink_eq (s.noteBad d n time data) d n cLinkParity
  rw [heq, hraise]
  have hlink := sansTx_raiseFault (s.noteBad d n time data) d d n (blkLink d n) cLinkParity ctx
  rw [link_noteBad hlock] at hlink
  have hctl := (congrArg (fun l : Link => l.ctl) hlink :)
  have hrx := (congrArg (fun l : Link => l.rx) hlink :)
  dsimp only [Link.sansTx] at hctl hrx
  rw [hctl, hrx]
  refine ⟨(inbox_of_sansFaults (sansFaults_raiseFault ..) d).trans (by cases d <;> rfl), rfl, ?_, rfl, valid_latchFault ..⟩
  exact hasked.imp (fun h => by simp [LinkRx.askReplay, h]) fun h => by simp [LinkRx.askReplay, h]

end

/-! ## Frames at a link with frame lock -/

/-- The receiving half once it has taken a TIME frame. -/
def LinkRx.tookTime (r : LinkRx) (h : Word) : LinkRx :=
  { r with nextTseq := hdrFseq h + 1, vseqTime := hdrVseq h + 1, discardingT := false }

section
variable {d : Dev} {n : Nat} {f : List (BitVec 66)} {s : State}

theorem execFrameRx_locked (h : (s.link d n).ctl.frameLock = true) : exec (.frameRx d n f) s = .next (s.frameIn d n f) := by
  change execFrameRx d n f s = _
  exact due_of h

theorem execFrameRx_unlocked (h : (s.link d n).ctl.frameLock = false) : exec (.frameRx d n f) s = .next s := by
  change execFrameRx d n f s = _
  exact due_unless h

theorem frameIn_failed (h : f.all wordOk = false) : ∃ hdr, s.frameIn d n f = s.badFrame d n hdr :=
  ⟨_, if_pos (by rw [h]; rfl)⟩

theorem frameIn_idle (hok : f.all wordOk = true) (hlen : f.length = 8) (hvc : hdrVc ((f.headD 0).extractLsb' 0 64) = 0) :
    s.frameIn d n f = s.takeHeader d n ((f.headD 0).extractLsb' 0 64) := by
  rw [State.frameIn, if_neg (by rw [hok, hlen]; decide), hvc]
  exact ite_self _

theorem frameIn_time (hok : f.all wordOk = true) (hlen : f.length = 8) (hvc : hdrVc ((f.headD 0).extractLsb' 0 64) = 1)
    (hup : ((s.takeHeader d n ((f.headD 0).extractLsb' 0 64)).link d n).ctl.lstate ≠ .down) :
    s.frameIn d n f = (s.takeHeader d n ((f.headD 0).extractLsb' 0 64)).timeFrame d n ((f.headD 0).extractLsb' 0 64)
      (f.tail.map fun w => w.extractLsb' 0 64) := by
  rw [State.frameIn, if_neg (by rw [hok, hlen]; decide), hvc]
  exact if_neg hup

/-- A frame in sequence, whose messages are good, delivers them. -/
theorem timeFrame_inSequence {h : Word} {ws rest : List Word} {ms : List Msg} (hf : hdrFseq h = (s.link d n).rx.nextTseq)
    (hv : hdrVseq h = (s.link d n).rx.vseqTime) (hp : parseWords .time ws [] [] = some (ms, rest)) :
    s.timeFrame d n h ws = (s.modRx d n fun r => r.tookTime h).takeMsgs d n ms := by
  rw [State.timeFrame, if_neg (fun hne => hne.1 hf), if_neg (fun hne => hne.1 hv), hp]
  rfl

end

/-! ## What a header's fields leave at a die -/

/-- What decides how a die takes the content of a frame, and what a delivery shows, is the same in both states. -/
structure State.SameIntake (s t : State) (n : Nat) : Prop where
  rx : (t.link .tsu n).rx = (s.link .tsu n).rx
  lstate : (t.link .tsu n).ctl.lstate = (s.link .tsu n).ctl.lstate
  lock : (t.link .tsu n).ctl.frameLock = (s.link .tsu n).ctl.frameLock
  fences : (t.link .tsu n).fences = (s.link .tsu n).fences
  inbox : t.tsuC.inbox = s.tsuC.inbox
  tsu : t.tsu = s.tsu
  jup : t.jup = s.jup
  out : t.out = s.out

section
variable {s t u : State} {n : Nat}

theorem sameIntake_trans (h : s.SameIntake t n) (h' : t.SameIntake u n) : s.SameIntake u n :=
  ⟨h'.rx.trans h.rx, h'.lstate.trans h.lstate, h'.lock.trans h.lock, h'.fences.trans h.fences, h'.inbox.trans h.inbox,
    h'.tsu.trans h.tsu, h'.jup.trans h.jup, h'.out.trans h.out⟩

section
variable (hlock : (s.link .tsu n).ctl.frameLock = true)
include hlock

theorem sameIntake_modLink {f : Link → Link} (hrx : (f (s.link .tsu n)).rx = (s.link .tsu n).rx)
    (hstate : (f (s.link .tsu n)).ctl.lstate = (s.link .tsu n).ctl.lstate)
    (hkept : (f (s.link .tsu n)).ctl.frameLock = (s.link .tsu n).ctl.frameLock)
    (hfences : (f (s.link .tsu n)).fences = (s.link .tsu n).fences) : s.SameIntake (s.modLink .tsu n f) n := by
  have hlink : (s.modLink .tsu n f).link .tsu n = f (s.link .tsu n) := link_modLink (link_ne_of_frameLock (hkept.trans hlock))
  exact { rx := by rw [hlink, hrx], lstate := by rw [hlink, hstate], lock := by rw [hlink, hkept], fences := by rw [hlink, hfences],
          inbox := rfl, tsu := rfl, jup := rfl, out := rfl }

theorem sameIntake_modTx (f : LinkTx → LinkTx) : s.SameIntake (s.modTx .tsu n f) n := sameIntake_modLink hlock rfl rfl rfl rfl

/-- Frames are freed at the sending half, and the count of replays of one frame starts anew. -/
theorem sameIntake_freeFrames (f g : LinkTx → LinkTx) (c : LinkCtl → LinkCtl)
    (hc : ∀ x, (c x).lstate = x.lstate ∧ (c x).frameLock = x.frameLock) :
    s.SameIntake (((s.modTx .tsu n f).modTx .tsu n g).modCtl .tsu n c) n :=
  have hf := sameIntake_modTx hlock f
  have hg := sameIntake_trans hf (sameIntake_modTx (hf.lock.trans hlock) g)
  sameIntake_trans hg (sameIntake_modLink (hg.lock.trans hlock) rfl (hc _).1 (hc _).2 rfl)

theorem sameIntake_takeAck (ack : BitVec 8) : s.SameIntake (s.takeAck .tsu n ack) n := by
  unfold State.takeAck
  dsimp only
  split
  · exact sameIntake_modTx hlock _
  · exact sameIntake_freeFrames hlock _ _ _ fun _ => ⟨rfl, rfl⟩

theorem sameIntake_takeTack (ack : BitVec 8) : s.SameIntake (s.takeTack .tsu n ack) n := by
  unfold State.takeTack
  dsimp only
  split
  · exact sameIntake_modTx hlock _
  · exact sameIntake_freeFrames hlock _ _ _ fun _ => ⟨rfl, rfl⟩

/-- A header that asks for no replay gives acks and credits alone, which are the sending half's. -/
theorem sameIntake_takeHeader {h : Word} (hnak : h.getLsbD 60 = false) (htnak : h.getLsbD 3 = false) :
    s.SameIntake (s.takeHeader .tsu n h) n := by
  have hack := sameIntake_takeAck hlock (hdrAck h)
  have htack := sameIntake_trans hack (sameIntake_takeTack (hack.lock.trans hlock) (hdrTack h))
  unfold State.takeHeader
  dsimp only
  rw [hnak, htnak, if_neg Bool.false_ne_true, if_neg Bool.false_ne_true]
  exact sameIntake_trans htack (sameIntake_modTx (htack.lock.trans hlock) _)

end
end

/-! ## The messages of a word stream (R235, R236) -/

/-- A header word whose MTYPE belongs to a VC. -/
def headerOf (vc : Vc) (h : Word) : Prop := ∃ lo hi, mtypeForm (h.extractLsb' 56 8) = some (vc, lo, hi)

/-- A message as the words of a VC give it: of the VC's own types, with no frame of a receive buffer to free. -/
structure ParsedFrom (vc : Vc) (m : Msg) : Prop where
  form : ∃ lo hi, mtypeForm m.mtype = some (vc, lo, hi)
  src : m.src = none
  frames : m.frames = 0

theorem parseWords_parsedFrom {vc : Vc} {ws part rest : List Word} {out ms : List Msg} (hpart : ∀ h ∈ part.head?, headerOf vc h)
    (hout : ∀ m ∈ out, ParsedFrom vc m) (hp : parseWords vc ws part out = some (ms, rest)) : ∀ m ∈ ms, ParsedFrom vc m := by
  induction ws generalizing part out with
  | nil =>
    obtain ⟨rfl, -⟩ := Prod.mk.inj (Option.some.inj hp)
    exact hout
  | cons w ws ih =>
    cases part with
    | nil =>
      rw [parseWords] at hp
      split at hp
      · obtain ⟨rfl, -⟩ := Prod.mk.inj (Option.some.inj hp)
        exact hout
      · split at hp
        · next v lo hi hform =>
          split at hp
          · next hok =>
            refine ih (fun h hh => ?_) hout hp
            obtain rfl := Option.some.inj hh
            exact ⟨lo, hi, hok.1 ▸ hform⟩
          · cases hp
        · cases hp
    | cons h body =>
      rw [parseWords] at hp
      split at hp
      · refine ih (fun _ hh => by cases hh) (fun m hm => ?_) hp
        rcases List.mem_append.mp hm with hm | hm
        · exact hout m hm
        · obtain rfl := List.mem_singleton.mp hm
          exact ⟨hpart h rfl, rfl, rfl⟩
      · exact ih (part := h :: (body ++ [w])) hpart hout hp

theorem lt_of_mtypeForm_time {t : BitVec 8} {lo hi : Nat} (h : mtypeForm t = some (.time, lo, hi)) : t.toNat < 0x10 := by
  unfold mtypeForm at h
  split at h <;> simp at h <;> omega

/-! ## A TIME message at a die -/

section
variable {m : Msg} {s : State} {n : Nat}

/-- A TIME message tells nothing of a job's active side (R16). -/
theorem noteSide_time (hm : m.mtype.toNat < 0x10) : s.noteSide n m = s := by
  unfold State.noteSide
  split
  · exact if_neg (by omega)
  · rfl

theorem consumeBulk_time (hm : m.mtype.toNat < 0x10) {d : Dev} : s.consumeBulk d n m = s := if_pos (.inl (by omega))

theorem leave_noBuffer (hsrc : m.src = none) {d : Dev} : s.leave d m = s := by rw [State.leave, hsrc]

theorem accepted1_time (hm : ParsedFrom .time m) (hfences : (s.link .tsu n).fences = []) (hpower : s.tsu.power.state ≠ 4) :
    s.accepted1 .tsu n m = s.modCom .tsu fun c => { c with inbox := c.inbox ++ [(n, m)] } := by
  obtain ⟨⟨lo, hi, hform⟩, hsrc, hframes⟩ := hm
  have hlt := lt_of_mtypeForm_time hform
  have hself : { m with src := none, frames := 0 } = m := by rw [← hsrc, ← hframes]
  have hawake : s.darkHolds .tsu m = false := by
    rw [State.darkHolds, decide_eq_false (fun hdark => hpower hdark.2), Bool.false_and, Bool.false_and]
  rw [State.accepted1, hfences, if_neg (by simp [fenced]), noteSide_time hlt, State.toInbox, hawake, if_neg Bool.false_ne_true,
    State.deliverMsg, consumeBulk_time hlt, leave_noBuffer hsrc, hself]
  rfl

end

section
variable {n : Nat} {s : State} {h : Word} {ws rest : List Word} {m : Msg} (hlock : (s.link .tsu n).ctl.frameLock = true)
include hlock

theorem link_tookTime : (s.modRx .tsu n fun r => r.tookTime h).link .tsu n =
    { s.link .tsu n with rx := (s.link .tsu n).rx.tookTime h } := link_modLink (link_ne_of_frameLock hlock)

/-- One message that a TIME frame completes goes to the inbox. -/
theorem timeFrame_delivers (hf : hdrFseq h = (s.link .tsu n).rx.nextTseq) (hv : hdrVseq h = (s.link .tsu n).rx.vseqTime)
    (hp : parseWords .time ws [] [] = some ([m], rest)) (hfences : (s.link .tsu n).fences = []) (hpower : s.tsu.power.state ≠ 4) :
    s.timeFrame .tsu n h ws =
      (s.modRx .tsu n fun r => r.tookTime h).modCom .tsu fun c => { c with inbox := c.inbox ++ [(n, m)] } := by
  have hm : ParsedFrom .time m := parseWords_parsedFrom (by simp) (by simp) hp m (List.mem_singleton_self m)
  rw [timeFrame_inSequence hf hv hp]
  exact accepted1_time hm (by rw [link_tookTime hlock, hfences]) hpower

end

/-- Settles O34: the parities are linear over XOR, so a line word passes both and one inverted bit makes one of them odd. A frame
that fails raises one fault, which leaves the receiving half; a TIME frame is taken by its header, by its sequence numbers and
message by message, and each of these steps says what it leaves to the next. -/
theorem parityGuards : Obligations.ParityGuards := by
  refine ⟨fun v => ⟨wordOk_lineWord v, extractLsb'_lineWord v⟩, fun v i => wordOk_lineWord_inverted v,
    fun w i hi => ⟨length_symbols w, by rw [getD_symbols w hi, gray_gray]⟩, gray_adjacent,
    fun a b c d e f g h => ⟨laneSymbols_even a b c d e f g h, laneSymbols_odd a b c d e f g h⟩,
    fun d n f s hlock hbad => ?_, fun d n f s hlock hok hlen hvc => ?_,
    fun n f h m s hlock hok hlen hh hnak htnak hstate hvc hf hv hp hfences hpower => ?_, fun d n f s => execFrameRx_unlocked⟩
  · obtain ⟨hdr, heq⟩ := frameIn_failed hbad
    exact ⟨_, execFrameRx_locked hlock, heq ▸ badFrame_counts hlock hdr⟩
  · rw [execFrameRx_locked hlock, frameIn_idle hok hlen hvc]
  · subst hh
    have hsame := sameIntake_takeHeader hlock hnak htnak
    have hlock' := hsame.lock.trans hlock
    have hup : ((s.takeHeader .tsu n ((f.headD 0).extractLsb' 0 64)).link .tsu n).ctl.lstate ≠ .down := by
      rw [hsame.lstate, hstate]; decide
    have htaken := timeFrame_delivers hlock' (hf.trans (congrArg LinkRx.nextTseq hsame.rx).symm)
      (hv.trans (congrArg LinkRx.vseqTime hsame.rx).symm) hp (hsame.fences.trans hfences) (by rwa [hsame.tsu])
    refine ⟨_, (execFrameRx_locked hlock).trans (congrArg _ ((frameIn_time hok hlen hvc hup).trans htaken)), ?_⟩
    have hlink := link_tookTime (h := (f.headD 0).extractLsb' 0 64) hlock'
    refine ⟨congrArg (· ++ [(n, m)]) hsame.inbox, congrArg (fun l : Link => l.rx.nextTseq) hlink,
      congrArg (fun l : Link => l.rx.vseqTime) hlink, ?_, hsame.jup, hsame.out⟩
    exact (congrArg (fun l : Link => l.ctl.lstate) hlink).trans (hsame.lstate.trans hstate)

end Sys2Proof.Machine
end

section
/-! PROOFS of spec family 08: flows read back, window updates, aborts and delivery reports. -/
namespace Sys2Proof.Machine
open Sys2Proof

/-! ## What taking a message from the inbox leaves -/

section
variable (s : State) (d e : Dev) (n : Nat) (mt : BitVec 8) (ws : List Word)

theorem link_consume (k : Nat) : (s.consume d n mt ws).link e k = s.link e k := by cases d <;> cases e <;> rfl
theorem sec_consume : ((s.consume d n mt ws).com e).sec = (s.com e).sec := by cases d <;> cases e <;> rfl
theorem out_consume : (s.consume d n mt ws).out = s.out := out_modCom ..

end

/-! ## Flows read back (R248) -/

theorem num_flow (l : Link) (w : Nat) (f : BitVec 10) : (l.flow w f).num = f := by
  unfold Link.flow
  cases h : l.flows.find? fun x => decide (x.num = f) with
  | none => rfl
  | some x => exact of_decide_eq_true (List.find?_some h :)

theorem flow_setFlow {l : Link} {w : Nat} {x : Flow} {f : BitVec 10} (h : x.num = f) : (l.setFlow x).flow w f = x := by
  rw [Link.flow, Link.setFlow, List.find?_cons_of_pos (by simp [h]), Option.getD_some]

theorem flow_setFlow_other {l : Link} {w : Nat} {x : Flow} {f : BitVec 10} (h : f ≠ x.num) : (l.setFlow x).flow w f = l.flow w f := by
  have hrest : (l.flows.filter fun y => !decide (y.num = x.num)).find? (fun y => decide (y.num = f)) =
      l.flows.find? fun y => decide (y.num = f) := by
    rw [List.find?_filter]
    congr 1
    funext y
    by_cases hy : y.num = f
    · simp [hy, h]
    · simp [hy]
  rw [Link.flow, Link.setFlow, List.find?_cons_of_neg (by simp [h.symm]), hrest, Link.flow]

theorem link_ne_of_setFlow (l : Link) (x : Flow) : l.setFlow x ≠ {} := fun h => List.cons_ne_nil _ _ (congrArg Link.flows h)

/-! ## WINDOW_UPDATE_RX (R248) -/

/-- A flow whose destination has reported what it consumed. -/
def Flow.credited (x : Flow) (n : Nat) : Flow := { x with credit := n }

/-- A window update gives its flow the credit that it carries. -/
def State.credited (s : State) (d : Dev) (n : Nat) (flow : BitVec 10) (w : Word) : State :=
  (s.consume d n mtWindow [w]).modLink d n fun l => l.setFlow ((s.flow d n flow).credited (fld w 47 0))

section
variable {d : Dev} {n : Nat} {flow : BitVec 10} {w : Word} {s : State}

theorem execWindowUpdateRx_end (h : (s.flow d n flow).via = none) : exec (.windowUpdateRx d n flow w) s = .next (s.credited d n flow w) := by
  change execWindowUpdateRx d n flow w s = _
  rw [execWindowUpdateRx, h]
  rfl

theorem execWindowUpdateRx_via {i : Nat} (h : (s.flow d n flow).via = some i) : exec (.windowUpdateRx d n flow w) s =
    .next ((s.credited d n flow w).send d i { mtype := mtWindow, route := 0, flow := flow, addr := 0, words := [w] }) := by
  change execWindowUpdateRx d n flow w s = _
  rw [execWindowUpdateRx, h]
  rfl

theorem link_credited : (s.credited d n flow w).link d n = (s.link d n).setFlow ((s.flow d n flow).credited (fld w 47 0)) := by
  unfold State.credited
  rw [link_modLink, link_consume]
  exact link_ne_of_setFlow _ _

theorem link_credited_other {k : Nat} (h : k ≠ n) : (s.credited d n flow w).link d k = s.link d k := by
  rw [State.credited, link_modLink_other h, link_consume]

theorem windowOf_credited (f : BitVec 10) : (s.credited d n flow w).windowOf d f = s.windowOf d f := by
  unfold State.windowOf
  rw [show ((s.credited d n flow w).com d).sec = (s.com d).sec by rw [State.credited, com_modLink]; exact sec_consume ..]

theorem num_credited (c : Nat) : ((s.flow d n flow).credited c).num = flow := num_flow ..

theorem flow_credited : (s.credited d n flow w).flow d n flow = (s.flow d n flow).credited (fld w 47 0) := by
  rw [State.flow, link_credited, flow_setFlow (num_credited _)]

theorem flow_credited_other {f : BitVec 10} (h : f ≠ flow) : (s.credited d n flow w).flow d n f = s.flow d n f := by
  rw [State.flow, link_credited, windowOf_credited, flow_setFlow_other (by rwa [num_credited]), State.flow]

end

/-! ## FLOW_ABORT_RX (R253) -/

/-- The incomplete message of a flow is dropped from the assembly of the link. -/
def Link.dropPart (l : Link) (flow : BitVec 10) : Link :=
  if l.rx.partBulk.head?.map (fun h => h.extractLsb' 32 10) = some flow then { l with rx := { l.rx with partBulk := [] } } else l

section
variable {d : Dev} {n : Nat} {w : Word} {s : State}

/-- The state after an abort. -/
def State.aborted (s : State) (d : Dev) (n : Nat) (w : Word) : State :=
  (s.consume d n mtAbort [w]).modLink d n fun l => l.dropPart (w.extractLsb' 0 10)

theorem execFlowAbortRx_eq : exec (.flowAbortRx d n w) s = .next (s.aborted d n w) := rfl

theorem link_aborted (hwf : Table.wf {} (s.com d).links = true) : (s.aborted d n w).link d n = (s.link d n).dropPart (w.extractLsb' 0 10) := by
  have hwf' : Table.wf {} ((s.consume d n mtAbort [w]).com d).links = true := by cases d <;> exact hwf
  rw [State.aborted, State.link, com_modLink]
  exact (tget_tset_same _ _ _ _ hwf').trans (congrArg (fun l : Link => l.dropPart _) (link_consume ..))

theorem link_aborted_other {k : Nat} (h : k ≠ n) : (s.aborted d n w).link d k = s.link d k := by
  rw [State.aborted, link_modLink_other h, link_consume]

theorem out_aborted : (s.aborted d n w).out = s.out := (out_modLink ..).trans (out_consume ..)

end

/-! ## DELIVERY_REPORT_RX (R252) -/

section
variable {p : Nat} {ws : List Word} {x : Delivery} {s : State}

theorem execDeliveryReportRx_noneOpen (h : s.jupC.deliveries = []) :
    exec (.deliveryReportRx p ws) s = .next (s.consume .jup p mtDelivery ws) := by
  change execDeliveryReportRx p ws s = _
  have hopen : (s.consume .jup p mtDelivery ws).jupC.deliveries = [] := h
  rw [execDeliveryReportRx, hopen]
  rfl

theorem execDeliveryReportRx_waiting (h : s.jupC.deliveries = [x]) (hh : x.handle = (nthW ws 0).extractLsb' 32 32)
    (hp : x.left.any (fun e => decide (e.1 = p)) = true) : exec (.deliveryReportRx p ws) s =
      .next ((s.consume .jup p mtDelivery ws).portDelivered x p (fld (nthW ws 1) 63 32)) := by
  change execDeliveryReportRx p ws s = _
  have hopen : (s.consume .jup p mtDelivery ws).jupC.deliveries = [x] := h
  rw [execDeliveryReportRx, hopen, List.find?_cons_of_pos (by rw [hp, ← hh, decide_eq_true rfl]; rfl)]

/-- A delivery without a port's part, and with what that port delivered. -/
def Delivery.without (x : Delivery) (p n : Nat) : Delivery :=
  { x with left := x.left.filter fun e => !decide (e.1 = p), delivered := x.delivered + n }

/-- While other ports are still to report, the count goes on. -/
theorem portDelivered_otherPorts {n : Nat} (h : ∃ e ∈ x.left, e.1 ≠ p) : s.portDelivered x p n =
    s.modCom .jup fun c => { c with deliveries := updFirst (fun z => decide (z = x)) (fun _ => x.without p n) c.deliveries } := by
  obtain ⟨e, he, hne⟩ := h
  have hmem : e ∈ (x.without p n).left := List.mem_filter.mpr ⟨he, by simp [hne]⟩
  have hleft : (x.without p n).left.isEmpty = false := List.isEmpty_eq_false_iff_exists_mem.mpr ⟨e, hmem⟩
  exact if_neg (fun htrue => Bool.noConfusion (hleft.symm.trans htrue))

end

/-- Settles O36: each event has one equation per case; the flows and links that it leaves are read back after the one write to the
link, and the count of a delivery after the report of one of its ports. -/
theorem flowsAndDeliveries : Obligations.FlowsAndDeliveries := by
  refine ⟨fun d n flow w s hend => ⟨_, execWindowUpdateRx_end hend, ?_⟩, fun d n i flow w s => execWindowUpdateRx_via,
    fun d n w s hwf hpart => ⟨_, execFlowAbortRx_eq, ?_⟩, fun d n w s hwf hpart => ⟨_, execFlowAbortRx_eq, fun k => ?_, out_aborted⟩,
    fun p ws s => execDeliveryReportRx_noneOpen, fun p ws x s => execDeliveryReportRx_waiting,
    fun p ws x s hx hh hp hmore => ⟨_, execDeliveryReportRx_waiting hx hh hp, ?_⟩⟩
  · rw [flow_credited, link_credited]
    exact ⟨rfl, rfl, fun f => flow_credited_other, rfl, fun k => link_credited_other, (out_modLink ..).trans (out_consume ..)⟩
  · rw [link_aborted hwf, Link.dropPart, if_pos hpart]
    exact ⟨rfl, rfl, fun k => link_aborted_other, out_aborted⟩
  · by_cases hk : k = n
    · subst hk
      rw [link_aborted hwf, Link.dropPart, if_neg hpart]
    · exact link_aborted_other hk
  · have hopen : (s.consume .jup p mtDelivery ws).jupC.deliveries = [x] := hx
    rw [portDelivered_otherPorts hmore]
    refine ⟨?_, rfl, rfl, rfl⟩
    change updFirst (fun z => decide (z = x)) (fun _ => x.without p _) (s.consume .jup p mtDelivery ws).jupC.deliveries = _
    rw [hopen, updFirst, if_pos (decide_eq_true rfl)]
    rfl

end Sys2Proof.Machine
end

section
/-! PROOFS of spec family 09: restores that end, bring-ins and their remap, re-runs, and the answers to forwarded commands. -/
namespace Sys2Proof.Machine
open Sys2Proof

/-! ## Shared facts -/

theorem foldl_kept {σ α β : Type} {g : σ → β} {f : σ → α → σ} (h : ∀ s a, g (f s a) = g s) (l : List α) (s : σ) :
    g (l.foldl f s) = g s := by
  induction l generalizing s with
  | nil => rfl
  | cons a l ih => exact (ih _).trans (h s a)

theorem updFirst_head {α : Type} {p : α → Bool} {f : α → α} {a : α} {l : List α} (h : p a = true) :
    updFirst p f (a :: l) = f a :: l := if_pos h

/-! ## What posting leaves, and what it posts (R345) -/

/-- The interrupts of a posting are outputs, and nothing else. -/
theorem postIrq_eq (s : State) (d : Dev) (x : CplEntry) : ∃ o, s.postIrq d x = { s with out := o } := by
  unfold State.postIrq
  dsimp only
  repeat' split
  all_goals exact ⟨_, rfl⟩

theorem com_postIrq (s : State) (d e : Dev) (x : CplEntry) : (s.postIrq d x).com e = s.com e := by
  obtain ⟨o, heq⟩ := postIrq_eq s d x
  rw [heq]
  cases e <;> rfl
theorem tsu_postIrq (s : State) (d : Dev) (x : CplEntry) : (s.postIrq d x).tsu = s.tsu := by
  obtain ⟨o, heq⟩ := postIrq_eq s d x
  rw [heq]
theorem jup_postIrq (s : State) (d : Dev) (x : CplEntry) : (s.postIrq d x).jup = s.jup := by
  obtain ⟨o, heq⟩ := postIrq_eq s d x
  rw [heq]

section
variable {s : State} {d : Dev} {h : Half} {st : BitVec 8} {rs : List Word} {e : CplEntry}

theorem tsu_post : (s.post d h st rs).tsu = s.tsu := by
  unfold State.post
  dsimp only
  split
  · rfl
  split
  · rfl
  · rw [tsu_postIrq]
    cases d <;> rfl

/-- Of the Jupin's own state a posting moves the tracker alone. -/
theorem jup_post : (s.post d h st rs).jup = { s.jup with tracker := (s.post d h st rs).jup.tracker } := by
  unfold State.post
  dsimp only
  split
  · rfl
  split
  · rfl
  · rw [jup_postIrq]
    cases d <;> rfl

theorem handle_of_cplEntry (he : s.cplEntry d h = some e) : e.handle = h := by
  unfold State.cplEntry at he
  split at he
  · split at he
    · rename_i hh
      obtain rfl := Option.some.inj he
      exact hh
    · cases he
  · cases he

theorem entries_post (he : s.cplEntry d h = some e) (hv : e.valid = false) : ((s.post d h st rs).com d).cmds.entries =
    tset none (s.com d).cmds.entries (entryIndex d (h.extractLsb' 0 24))
      (some { e with valid := true, status := st, endTick := s.now d, results := rs }) := by
  rw [State.post, he]
  simp only [hv, Bool.false_eq_true, if_false, com_postIrq]
  cases d <;> rfl

/-- The open entry of a handle is posted with its status and results. -/
theorem cplEntry_post (he : s.cplEntry d h = some e) (hv : e.valid = false) : (s.post d h st rs).cplEntry d h =
    some { e with valid := true, status := st, endTick := s.now d, results := rs } := by
  rw [State.cplEntry, entries_post he hv, tget_tset_ne _ _ _ _ (by simp)]
  exact if_pos (handle_of_cplEntry he)

end

theorem cplEntry_of_cmds {s t : State} (hc : t.jupC.cmds = s.jupC.cmds) (h : Half) : t.cplEntry .jup h = s.cplEntry .jup h := by
  rw [State.cplEntry, State.cplEntry, com_jup, com_jup, hc]

/-! ## RESTORE_COMPLETE (R281, R324) -/

/-- A restore is over at its port: it is dropped, and its flow is closed. -/
def State.restoreDropped (s : State) (p : Nat) (r : RestoreOp) (f : Jup → List Nat) : State :=
  (s.modJup fun j => { j with restores := tset none j.restores p none, unrestored := f j }).closeFlow .restoreFlow (r.handle.getD 0) r.job

/-- A die that was restored is expelled no more. -/
def State.returned (s : State) (p : Nat) : State := if s.healthState p = 3 then s.setHealth p 0 else s

section
variable {p : Nat} {r : RestoreOp} {s : State}

/-- The end of a flow moves the tracker alone. -/
theorem closeFlow_eq (s : State) (kind : TrackKind) (h : Half) (job : Option (BitVec 15)) :
    ∃ t, s.closeFlow kind h job = s.modJup fun j => { j with tracker := t } := by
  unfold State.closeFlow
  split
  · exact ⟨_, rfl⟩
  · exact ⟨s.jup.tracker, rfl⟩

theorem fields_restoreDropped (f : Jup → List Nat) : (s.restoreDropped p r f).jup.restores = tset none s.jup.restores p none ∧
    (s.restoreDropped p r f).jupC = s.jupC ∧ (s.restoreDropped p r f).tsu = s.tsu := by
  obtain ⟨t, heq⟩ := closeFlow_eq (s.modJup fun j => { j with restores := tset none j.restores p none, unrestored := f j }) .restoreFlow
    (r.handle.getD 0) r.job
  rw [State.restoreDropped, heq]
  exact ⟨rfl, rfl, rfl⟩

theorem jup_returned : (s.returned p).jup = s.jup := by unfold State.returned; split <;> rfl
theorem tsu_returned : (s.returned p).tsu = s.tsu := by unfold State.returned; split <;> rfl
theorem cmds_returned : (s.returned p).jupC.cmds = s.jupC.cmds := by unfold State.returned; split <;> rfl

variable {h : Half} {t : Tick} {st : BitVec 8}

theorem restored_handle (hh : r.handle = some h) : s.restored p r t =
    ((s.restoreDropped p r fun j => j.unrestored.filter fun q => !decide (q = p)).returned p).post .jup h stOk [BitVec.ofNat 64 r.sent, t] := by
  rw [State.restored, hh, State.restoreDropped, hh]
  rfl

theorem failRestore_handle (hh : r.handle = some h) : s.failRestore p r st =
    (s.restoreDropped p r fun j => j.unrestored).post .jup h st [] := by
  rw [State.failRestore, State.restoreEnds, hh, State.restoreDropped, hh]

/-- The answer to a restore under a handle: the restore is gone, and the entry of the handle is posted. -/
theorem restore_answered {x : State} {e : CplEntry} {rs : List Word} (hr : x.jup.restores = tset none s.jup.restores p none)
    (hc : x.jupC.cmds = s.jupC.cmds) (ht : x.tsu = s.tsu) (he : s.cplEntry .jup h = some e) (hv : e.valid = false) :
    (Table.wf none s.jup.restores = true → tget none (x.post .jup h st rs).jup.restores p = none) ∧
      ((x.post .jup h st rs).cplEntry .jup h).map (fun e => (e.valid, e.status, e.results)) = some (true, st, rs) ∧
      (x.post .jup h st rs).tsu = s.tsu := by
  refine ⟨fun hwf => ?_, ?_, tsu_post.trans ht⟩
  · rw [jup_post, hr]
    exact tget_tset_same _ _ _ _ hwf
  · rw [cplEntry_post ((cplEntry_of_cmds hc h).trans he) hv]
    rfl

end

section
variable {p : BitVec 7} {r : RestoreOp} {s : State}

theorem execRestoreComplete_checked {t : Tick} (hr : tget none s.jup.restores p.toNat = some r) (hs : r.streaming = true) :
    exec (.restoreComplete p (some t)) s = .next (s.restored p.toNat r t) := by
  change execRestoreComplete p (some t) s = _
  rw [execRestoreComplete, hr]
  exact due_of hs

theorem execRestoreComplete_failed (hr : tget none s.jup.restores p.toNat = some r) (hs : r.streaming = true) :
    exec (.restoreComplete p none) s = .next (s.failRestore p.toNat r stImageBad) := by
  change execRestoreComplete p none s = _
  rw [execRestoreComplete, hr]
  exact due_of hs

theorem execRestoreComplete_notStreaming {t : Option Tick} (hr : tget none s.jup.restores p.toNat = some r) (hs : r.streaming = false) :
    exec (.restoreComplete p t) s = .next s := by
  change execRestoreComplete p t s = _
  rw [execRestoreComplete, hr]
  exact due_unless hs

theorem execRestoreComplete_noRestore {t : Option Tick} (hr : tget none s.jup.restores p.toNat = none) :
    exec (.restoreComplete p t) s = .next s := by
  change execRestoreComplete p t s = _
  rw [execRestoreComplete, hr]

theorem execRestoreComplete_posts {t : Tick} {h : Half} {e : CplEntry} (hr : tget none s.jup.restores p.toNat = some r)
    (hs : r.streaming = true) (hh : r.handle = some h) (he : s.cplEntry .jup h = some e) (hv : e.valid = false) :
    (∃ x, exec (.restoreComplete p (some t)) s = .next x ∧
      (Table.wf none s.jup.restores = true → tget none x.jup.restores p.toNat = none) ∧
      (x.cplEntry .jup h).map (fun e => (e.valid, e.status, e.results)) = some (true, stOk, [BitVec.ofNat 64 r.sent, t]) ∧ x.tsu = s.tsu) ∧
    (∃ x, exec (.restoreComplete p none) s = .next x ∧
      (Table.wf none s.jup.restores = true → tget none x.jup.restores p.toNat = none) ∧
      (x.cplEntry .jup h).map (fun e => (e.valid, e.status, e.results)) = some (true, stImageBad, []) ∧ x.tsu = s.tsu) := by
  refine ⟨⟨_, execRestoreComplete_checked hr hs, ?_⟩, ⟨_, execRestoreComplete_failed hr hs, ?_⟩⟩
  · obtain ⟨hrest, hcom, htsu⟩ := fields_restoreDropped (s := s) (p := p.toNat) (r := r)
      fun j => j.unrestored.filter fun q => !decide (q = p.toNat)
    rw [restored_handle hh]
    exact restore_answered (by rw [jup_returned, hrest]) (by rw [cmds_returned, hcom]) (tsu_returned.trans htsu) he hv
  · obtain ⟨hrest, hcom, htsu⟩ := fields_restoreDropped (s := s) (p := p.toNat) (r := r) fun j => j.unrestored
    rw [failRestore_handle hh]
    exact restore_answered hrest (by rw [hcom]) htsu he hv

end

/-! ## Bring-ins read back, and a remap that waits (R329, R330) -/

section
variable {s : State} {b b' x : BringIn} {l : List BringIn}

theorem bringAt_head {j : BitVec 15} {r : BitVec 17} {q : BringIn → Bool} (hb : s.jup.bringIns = b :: l) (hj : b.job = j)
    (hr : b.rank = r) (hq : q b = true) : s.bringAt j r q = some b := by
  rw [State.bringAt, hb, List.find?_cons_of_pos (by simp [hj, hr, hq])]

theorem bringIns_setBringIn (hb : s.jup.bringIns = b :: l) : (s.setBringIn b b').jup.bringIns = b' :: l := by
  change updFirst _ _ s.jup.bringIns = _
  rw [hb]
  exact updFirst_head (decide_eq_true rfl)

/-- No remap is run while a bring-in of the job is still without its state. -/
theorem tryRemap_waits {j : BitVec 15} (hx : x ∈ s.jup.bringIns) (hj : x.job = j) (hp : x.phase ≠ 2) : s.tryRemap j = s := by
  have hmem : x ∈ s.jup.bringIns.filter fun b => decide (b.job = j) := List.mem_filter.mpr ⟨hx, decide_eq_true hj⟩
  have hopen : ((s.jup.bringIns.filter fun b => decide (b.job = j)).all fun b => decide (b.phase = 2)) = false :=
    List.all_eq_false.mpr ⟨x, hmem, by simp [hp]⟩
  obtain ⟨b, bs, hbs⟩ := List.exists_cons_of_ne_nil (List.ne_nil_of_mem hmem)
  rw [hbs] at hopen
  rw [State.tryRemap, hbs]
  exact if_pos (by rw [hopen]; rfl)

/-- A spare that is ready waits for the other bring-ins of its job. -/
theorem bringReady_waits (hb : s.jup.bringIns = [b, x]) (hj : x.job = b.job) (hp : x.phase ≠ 2) :
    s.bringReady b = s.setBringIn b { b with phase := 2 } :=
  tryRemap_waits (by rw [bringIns_setBringIn hb]; simp) hj hp

/-! ## COPY_DIGEST_COMPARE (R332) -/

variable {j : BitVec 15} {r : BitVec 17} {d e : Word}

theorem execCopyDigestCompare_copying (hb : s.jup.bringIns = b :: l) (hj : b.job = j) (hr : b.rank = r) (hm : b.mode = 0)
    (hp : b.phase = 1) : exec (.copyDigestCompare j r d e) s = .next (s.copyCompared b (decide (d = e))) := by
  change execCopyDigestCompare j r d e s = _
  rw [execCopyDigestCompare, bringAt_head hb hj hr (by simp [hm, hp])]

theorem execCopyDigestCompare_noBringIn (hb : s.jup.bringIns = []) : exec (.copyDigestCompare j r d e) s = .next s := by
  change execCopyDigestCompare j r d e s = _
  rw [execCopyDigestCompare, State.bringAt, hb]
  rfl

theorem copyCompared_same (hc : s.copyCurrent b.job b.rank = true) : s.copyCompared b (decide (d = d)) = s.bringReady b := by
  rw [State.copyCompared, if_neg (by simp), if_pos hc]

theorem copyCompared_differs (h : d ≠ e) : s.copyCompared b (decide (d = e)) = s.toRecompute b :=
  if_pos (by simp [h])

/-! ## RECOMPUTE_MATCH (R333, R334) -/

variable {p : BitVec 32}

theorem execRecomputeMatch_of (hb : s.jup.bringIns = b :: l) (hj : b.job = j) (hr : b.rank = r)
    (hphase : b.mode = 1 ∧ b.phase = 1 ∨ b.phase = 3) (hp : b.spare = p ∨ b.second = some p) :
    exec (.recomputeMatch j r p d) s = .next (s.recomputed b p d) := by
  change execRecomputeMatch j r p d s = _
  rw [execRecomputeMatch, bringAt_head hb hj hr (by simpa using ⟨hphase, hp⟩)]

theorem recomputed_lastSteps (hp : b.phase = 3) : s.recomputed b p d = s.bringReady b := if_pos hp

theorem recomputed_matches (hp : b.phase = 1) (hc : (s.checkpointOf b.job b.rank).map (fun c => nthW c.data 4) = some d) :
    s.recomputed b p d = s.spareMatched b p false := by
  obtain ⟨c, hc, hd⟩ := Option.map_eq_some_iff.mp hc
  rw [State.recomputed, if_neg (by simp [hp]), hc]
  exact if_pos hd

theorem recomputed_differs (hp : b.phase = 1) (hc : (s.checkpointOf b.job b.rank).map (fun c => nthW c.data 4) = some e) (h : d ≠ e) :
    s.recomputed b p d = s := by
  obtain ⟨c, hc, hd⟩ := Option.map_eq_some_iff.mp hc
  rw [State.recomputed, if_neg (by simp [hp]), hc]
  exact if_neg fun heq => h (heq.symm.trans hd)

theorem recomputed_noCheckpoint (hp : b.phase = 1) (hc : s.checkpointOf b.job b.rank = none) :
    s.recomputed b p d = s.spareMatched b p true := by
  rw [State.recomputed, if_neg (by simp [hp]), hc]

variable {u : Bool}

theorem spareMatched_lower (hs : b.spare = p) (hq : ∀ q, b.second = some q → p ≤ q) : s.spareMatched b p u = s.keepSpare b p u := by
  refine if_pos ?_
  cases h : b.second with
  | none => rfl
  | some q => simp [hs, hq q h]

theorem spareMatched_higher (hs : b.second = some p) (hq : b.spare < p) :
    s.spareMatched b p u = s.setBringIn b { b with matched := some (p, u) } :=
  if_neg (by rw [hs, Option.all_some]; simp [hq])

/-- With one spare there is none to reset: it goes on with the steps after its checkpoint, or is ready. -/
theorem keepSpare_single (hs : b.spare = p) (hq : b.second = none) : s.keepSpare b p u =
    if !u && s.stepsLeft b then s.setBringIn b { b with unverified := u, matched := none, phase := 3 }
    else (s.setBringIn b { b with unverified := u, matched := none }).bringReady { b with unverified := u, matched := none } := by
  obtain ⟨handle, job, rank, spare, second, mode, phase, unverified, lost, started, override, matched⟩ := b
  subst hs hq
  rw [State.keepSpare, if_pos rfl]

/-- A match keeps the one spare of its bring-in: beside another that still waits, it ends in the phase that it goes on with. -/
theorem keepSpare_waits (hb : s.jup.bringIns = [b, x]) (hs : b.spare = p) (hq : b.second = none) (hj : x.job = b.job)
    (hx : x.phase ≠ 2) : (s.keepSpare b p false).jup.bringIns =
      [{ b with unverified := false, matched := none, phase := if s.stepsLeft b then 3 else 2 }, x] ∧
      (s.keepSpare b p false).jupC = s.jupC ∧ (s.keepSpare b p false).tsu = s.tsu := by
  rw [keepSpare_single hs hq, Bool.not_false, Bool.true_and]
  by_cases hl : s.stepsLeft b = true
  · rw [if_pos hl, if_pos hl]
    exact ⟨bringIns_setBringIn hb, rfl, rfl⟩
  · have hset : (s.setBringIn b { b with unverified := false, matched := none }).jup.bringIns =
        [{ b with unverified := false, matched := none }, x] := bringIns_setBringIn hb
    rw [if_neg hl, if_neg hl, bringReady_waits hset hj hx]
    exact ⟨bringIns_setBringIn hset, rfl, rfl⟩

end

/-! ## RECOMPUTE_LIMIT (R334, R335) -/

theorem rankSeqs_of_sansFaults {s t : State} (h : t.sansFaults = s.sansFaults) (j : BitVec 15) (r : BitVec 17) :
    t.rankSeqs j r = s.rankSeqs j r := (congrArg (fun x : State => x.rankSeqs j r) h :)
theorem bringIns_of_sansFaults {s t : State} (h : t.sansFaults = s.sansFaults) : t.jup.bringIns = s.jup.bringIns :=
  (congrArg (fun x : State => x.jup.bringIns) h :)
theorem rerun_of_sansFaults {s t : State} (h : t.sansFaults = s.sansFaults) : t.jup.stage.rerun = s.jup.stage.rerun :=
  (congrArg (fun x : State => x.jup.stage.rerun) h :)

theorem bringIns_addLost (s : State) (j : BitVec 15) (i : BitVec 40) (reason : Nat) : (s.addLost j i reason).jup.bringIns = s.jup.bringIns := by
  unfold State.addLost
  dsimp only
  split
  · rfl
  · rw [jup_setJobWord]
    rfl

section
variable {s : State} {b b' x : BringIn} {l : List BringIn}

/-- The SEQ_IDs of a rank whose range is lost stand in the lost list of its job. -/
def State.rankLost (s : State) (j : BitVec 15) (r : BitVec 17) : State :=
  (s.rankSeqs j r).foldl (fun s i => s.addLost j i lostRecovery) s

theorem bringIns_rankLost (j : BitVec 15) (r : BitVec 17) : (s.rankLost j r).jup.bringIns = s.jup.bringIns :=
  foldl_kept (g := fun s : State => s.jup.bringIns) (fun _ _ => bringIns_addLost ..) _ _

theorem loseRange_eq (s : State) (b : BringIn) : ∃ ctx, s.loseRange b =
    ((s.rankLost b.job b.rank).raiseFault .jup blkRecord cSeqLost ctx).setBringIn b
    { b with mode := 2, phase := 2, lost := s.rankSeqs b.job b.rank } := ⟨_, rfl⟩

theorem fblock_setBringIn (d : Dev) (k : Nat) : (s.setBringIn b b').fblock d k = s.fblock d k := by cases d <;> rfl

/-- A bring-in whose range is lost has its mode, its state and the SEQ_IDs lost; their loss is a fault of the records. -/
theorem loseRange_single (hb : s.jup.bringIns = b :: l) :
    (s.loseRange b).jup.bringIns = { b with mode := 2, phase := 2, lost := s.rankSeqs b.job b.rank } :: l ∧
      ((s.loseRange b).fblock .jup blkRecord).valid = true := by
  obtain ⟨ctx, heq⟩ := loseRange_eq s b
  rw [heq]
  refine ⟨bringIns_setBringIn ?_, ?_⟩
  · rw [bringIns_of_sansFaults (sansFaults_raiseFault ..), bringIns_rankLost, hb]
  · rw [fblock_setBringIn]
    exact valid_latchFault ..

variable {j : BitVec 15} {r : BitVec 17}

theorem execRecomputeLimit_expired (hb : s.jup.bringIns = b :: l) (hj : b.job = j) (hr : b.rank = r) (hm : b.mode = 1) (hp : b.phase = 1)
    (hmatch : b.matched = none) (ht : b.started.toNat + s.recomputeLimit j ≤ (s.now .jup).toNat) :
    exec (.recomputeLimit j r) s = .next (((s.raiseFault .jup blkRecord cNoMatch {}).loseRange b).tryRemap j) := by
  change execRecomputeLimit j r s = _
  rw [execRecomputeLimit, bringAt_head hb hj hr (decide_eq_true ⟨hm, hp, hmatch, ht⟩)]

theorem execRecomputeLimit_early (hb : s.jup.bringIns = [b]) (ht : (s.now .jup).toNat < b.started.toNat + s.recomputeLimit j) :
    exec (.recomputeLimit j r) s = .next s := by
  change execRecomputeLimit j r s = _
  have hnone : s.bringAt j r (fun b => decide (b.mode = 1 ∧ b.phase = 1 ∧ b.matched = none ∧
      b.started.toNat + s.recomputeLimit j ≤ (s.now .jup).toNat)) = none := by
    simp [State.bringAt, hb, Nat.not_le.mpr ht]
  rw [execRecomputeLimit, hnone]

end

/-! ## JOB_RERUN (R326 to R329, R337) -/

/-- The state without the links of the Jupin, by which a replay goes out. -/
def State.sansJupLinks (s : State) : State := { s with jupC := { s.jupC with links := [] } }

section
variable {s t : State} {j : BitVec 15} {n : BitVec 64}

theorem sansJupLinks_send (p : Nat) (m : Msg) : (s.send .jup p m).sansJupLinks = s.sansJupLinks := rfl
theorem sansJupLinks_streamSection (p : Nat) (typ : BitVec 8) (ws : List Word) :
    (s.streamSection p typ ws).sansJupLinks = s.sansJupLinks :=
  foldl_kept (g := State.sansJupLinks) (fun _ _ => sansJupLinks_send ..) _ _
theorem sansJupLinks_replayRank (p : Nat) (r : BitVec 17) : (s.replayRank p j r n).sansJupLinks = s.sansJupLinks := by
  unfold State.replayRank
  dsimp only
  split
  · rfl
  · exact sansJupLinks_streamSection ..
theorem sansJupLinks_replayJob : (s.replayJob j n).sansJupLinks = s.sansJupLinks := by
  unfold State.replayJob
  split
  · rfl
  · exact foldl_kept (fun s m => foldl_kept (g := State.sansJupLinks) (fun _ _ => sansJupLinks_replayRank ..) _ s) _ s

theorem fields_of_sansJupLinks (h : t.sansJupLinks = s.sansJupLinks) :
    t.jup = s.jup ∧ t.tsu = s.tsu ∧ t.rerunMax j = s.rerunMax j ∧ ∀ i, t.jobWord j i = s.jobWord j i :=
  ⟨(congrArg State.jup h :), (congrArg State.tsu h :), (congrArg (fun x : State => x.rerunMax j) h :),
    fun i => (congrArg (fun x : State => x.jobWord j i) h :)⟩

/-- What a re-run replays goes out over the links before anything else. -/
def State.rerunReplayed (s : State) (j : BitVec 15) (n : BitVec 64) : State := if s.jup.spareless.contains j then s else s.replayJob j n

theorem sansJupLinks_rerunReplayed : (s.rerunReplayed j n).sansJupLinks = s.sansJupLinks := by
  unfold State.rerunReplayed
  split
  · rfl
  · exact sansJupLinks_replayJob

theorem rerunHere_belowTop (h : s.jobPlace j ≠ .top) : s.rerunHere j n = (s.rerunReplayed j n).clearRerun j := if_pos h

theorem rerunHere_noneFenced (h : s.jobPlace j = .top) (hf : s.fencedRanks j = []) : s.rerunHere j n =
    (s.rerunReplayed j n).rerunResume j (!s.jup.stage.brown.contains j && !s.jup.stage.again.contains j) := by
  rw [State.rerunHere]
  dsimp only
  rw [if_neg (by simp [h]), if_pos (by rw [hf]; rfl)]
  rfl

theorem rerun_clearRerun {lo : BitVec 16} (h : s.jup.stage.rerun = [(j, lo)]) : (s.clearRerun j).jup.stage.rerun = [] := by
  change s.jup.stage.rerun.filter _ = []
  simp [h]

/-- A job whose re-runs have come to their limit is not run again, and the limit is a fault. -/
theorem rerunResume_limit (h : s.rerunMax j ≤ fld (s.jobWord j 0) 15 8) :
    s.rerunResume j true = (s.clearRerun j).raiseFault .jup blkRecord cRerunLimit {} :=
  if_pos (by simp [h])

variable {lo : BitVec 16}

theorem execJobRerun_ready (hr : s.jup.stage.rerun = [(j, lo)]) (h : s.rerunReady j = true) : exec (.jobRerun j) s =
    .next (s.rerunHere j (fullStep (tget none s.jup.stage.committed j.toNat) lo)) := by
  change execJobRerun j s = _
  rw [execJobRerun, hr, List.find?_cons_of_pos (by simp)]
  exact due_of h

theorem execJobRerun_notReady (hr : s.jup.stage.rerun = [(j, lo)]) (h : s.rerunReady j = false) : exec (.jobRerun j) s = .next s := by
  change execJobRerun j s = _
  rw [execJobRerun, hr, List.find?_cons_of_pos (by simp)]
  exact due_unless h

theorem execJobRerun_noneWaits (hr : s.jup.stage.rerun = []) : exec (.jobRerun j) s = .next s := by
  change execJobRerun j s = _
  rw [execJobRerun, hr]
  rfl

end

/-! ## COMPLETION_MSG_RX (R347) -/

/-- A forwarded command once a port has answered. -/
def Forward.joined (f : Forward) (port : Nat) (op st : BitVec 8) (rs : List Word) : Forward :=
  { f with left := f.left.filter fun p => !decide (p = port), status := worse f.status st, results := joinResults op f.results rs }

section
variable {s : State} {f : Forward} {h : Half} {p : Nat} {op st : BitVec 8} {rs : List Word}

theorem answered_noForward (hf : s.jup.forwards = []) : s.answered h p op st rs = s := by
  rw [State.answered, hf]
  rfl

theorem answered_eq (hf : s.jup.forwards = [f]) (hh : f.handle = h) (hp : p ∈ f.left) : s.answered h p op st rs =
    if (f.joined p op st rs).left.isEmpty then s.forwardEnds (f.joined p op st rs) op
    else s.modJup fun j => { j with forwards := updFirst (fun x => decide (x = f)) (fun _ => f.joined p op st rs) j.forwards } := by
  rw [State.answered, hf, List.find?_cons_of_pos (by simp [hh, hp])]
  rfl

/-- The last answer ends the command. -/
theorem answered_last (hf : s.jup.forwards = [f]) (hh : f.handle = h) (hp : f.left = [p]) : s.answered h p op st rs =
    s.forwardEnds { f with left := [], status := worse f.status st, results := joinResults op f.results rs } op := by
  have hleft : f.joined p op st rs = { f with left := [], status := worse f.status st, results := joinResults op f.results rs } := by
    simp [Forward.joined, hp]
  rw [answered_eq hf hh (by simp [hp]), hleft]
  exact if_pos rfl

/-- An answer while another port is still to answer is only joined. -/
theorem forwards_answered {q : Nat} (hf : s.jup.forwards = [f]) (hh : f.handle = h) (hp : p ∈ f.left) (hq : q ∈ f.left) (hne : p ≠ q) :
    (s.answered h p op st rs).jup.forwards = [f.joined p op st rs] ∧ (s.answered h p op st rs).tsu = s.tsu ∧
      (s.answered h p op st rs).out = s.out := by
  have hmem : q ∈ (f.joined p op st rs).left := List.mem_filter.mpr ⟨hq, by simp [hne.symm]⟩
  rw [answered_eq hf hh hp, if_neg (by rw [List.isEmpty_eq_false_iff_exists_mem.mpr ⟨q, hmem⟩]; exact Bool.false_ne_true)]
  refine ⟨?_, rfl, rfl⟩
  change updFirst _ _ s.jup.forwards = _
  rw [hf]
  exact updFirst_head (decide_eq_true rfl)

/-- A forwarded command is tracked no more. -/
def State.dropForward (s : State) (f : Forward) : State :=
  s.modJup fun j => { j with forwards := j.forwards.filter fun x => !decide (x.handle = f.handle ∧ x.fromPort = f.fromPort) }

theorem cplEntry_dropForward : (s.dropForward f).cplEntry .jup h = s.cplEntry .jup h := rfl

theorem forwards_dropForward {g : Forward} (hf : s.jup.forwards = [g]) (hh : g.handle = f.handle) (hg : g.fromPort = f.fromPort) :
    (s.dropForward f).jup.forwards = [] := by
  change s.jup.forwards.filter _ = []
  simp [hf, hh, hg]

/-- A command that was accepted here and serves no bring-in is posted as it ends. -/
theorem forwardEnds_own (hown : f.fromPort = ownPort) (hb : s.jup.bringIns = []) : s.forwardEnds f op =
    (s.dropForward f).post .jup f.handle f.status f.results := by
  rw [State.forwardEnds, if_pos hown, jup_modJup, hb]
  rfl

theorem forwardEnds_posts {g : Forward} {e : CplEntry} (hf : s.jup.forwards = [g]) (hh : g.handle = f.handle)
    (hg : g.fromPort = f.fromPort) (hown : f.fromPort = ownPort) (hb : s.jup.bringIns = []) (he : s.cplEntry .jup f.handle = some e)
    (hv : e.valid = false) :
    (s.forwardEnds f op).jup.forwards = [] ∧
      ((s.forwardEnds f op).cplEntry .jup f.handle).map (fun e => (e.valid, e.status)) = some (true, f.status) ∧
      (s.forwardEnds f op).tsu = s.tsu := by
  rw [forwardEnds_own hown hb]
  refine ⟨?_, ?_, tsu_post⟩
  · rw [jup_post]
    exact forwards_dropForward hf hh hg
  · rw [cplEntry_post (cplEntry_dropForward.trans he) hv]
    rfl

theorem answered_posts {e : CplEntry} (hf : s.jup.forwards = [f]) (hh : f.handle = h) (hp : f.left = [p]) (hown : f.fromPort = ownPort)
    (hb : s.jup.bringIns = []) (he : s.cplEntry .jup f.handle = some e) (hv : e.valid = false) :
    (s.answered h p op st rs).jup.forwards = [] ∧
      ((s.answered h p op st rs).cplEntry .jup f.handle).map (fun e => (e.valid, e.status)) = some (true, worse f.status st) ∧
      (s.answered h p op st rs).tsu = s.tsu := by
  rw [answered_last hf hh hp]
  exact forwardEnds_posts (f := { f with left := [], status := worse f.status st, results := joinResults op f.results rs })
    hf rfl rfl hown hb he hv

theorem execCompletionMsgRx_eq {ws : List Word} : exec (.completionMsgRx p ws) s =
    .next ((s.consume .jup p mtCompletion ws).answered ((nthW ws 0).extractLsb' 32 32) p ((nthW ws 0).extractLsb' 24 8)
      ((nthW ws 0).extractLsb' 16 8) (ws.drop 2)) := rfl

end

/-- Settles O46: one equation per outcome of an event; what it leaves is read off the restore, the bring-in, the re-run or the
forwarded command that it writes, and a bring-in beside one without its state starts no remap. -/
theorem recoveryRuns : Obligations.RecoveryRuns := by
  refine ⟨fun p t r s hr hs => ⟨execRestoreComplete_checked hr hs, execRestoreComplete_failed hr hs⟩,
    fun p t r h e s => execRestoreComplete_posts, fun p t r s => execRestoreComplete_notStreaming,
    fun p t s => execRestoreComplete_noRestore, ?copied, ?copiedWaits, ?matchWaits, ?lastStepsWaits, ?higher, ?limitWaits, ?copyDiffers,
    fun j r d e s => execCopyDigestCompare_noBringIn, ?matched, ?unverified, ?differs, fun j r b s => execRecomputeLimit_expired,
    fun j r b s => execRecomputeLimit_early, fun j lo s => execJobRerun_ready, ?rerunBelow, ?rerunLimit, fun j lo s => execJobRerun_notReady,
    fun j s => execJobRerun_noneWaits, ?noForward, ?lastAnswer, ?ownAnswer, ?moreAnswers⟩
  case copied =>
    rintro j r d b s hb rfl rfl hm hp hc
    rw [execCopyDigestCompare_copying hb rfl rfl hm hp, copyCompared_same hc]
  case copiedWaits =>
    rintro j r d b x s hb rfl rfl hm hp hc hj hx
    refine ⟨_, execCopyDigestCompare_copying hb rfl rfl hm hp, ?_⟩
    rw [copyCompared_same hc, bringReady_waits hb hj hx]
    exact ⟨bringIns_setBringIn hb, rfl, rfl⟩
  case matchWaits =>
    rintro j r p d b x s hb rfl rfl hm hp hs hq hc hj hx
    refine ⟨_, execRecomputeMatch_of hb rfl rfl (.inl ⟨hm, hp⟩) (.inl hs), ?_⟩
    rw [recomputed_matches hp hc, spareMatched_lower hs (by simp [hq])]
    exact keepSpare_waits hb hs hq hj hx
  case lastStepsWaits =>
    rintro j r p d b x s hb rfl rfl hp hs hj hx
    refine ⟨_, execRecomputeMatch_of hb rfl rfl (.inr hp) (.inl hs), ?_⟩
    rw [recomputed_lastSteps hp, bringReady_waits hb hj hx]
    exact ⟨bringIns_setBringIn hb, rfl, rfl⟩
  case higher =>
    rintro j r p d b q s hb rfl rfl hm hp rfl hq hlt hc
    refine ⟨_, execRecomputeMatch_of hb rfl rfl (.inl ⟨hm, hp⟩) (.inr hq), ?_⟩
    rw [recomputed_matches hp hc, spareMatched_higher hq hlt]
    exact ⟨bringIns_setBringIn hb, rfl, rfl⟩
  case limitWaits =>
    rintro j r b x s hb rfl rfl hm hp hmatch ht hj hx
    have hfault := sansFaults_raiseFault s .jup blkRecord cNoMatch {}
    obtain ⟨hins, hvalid⟩ := loseRange_single ((bringIns_of_sansFaults hfault).trans hb)
    rw [rankSeqs_of_sansFaults hfault] at hins
    refine ⟨_, execRecomputeLimit_expired hb rfl rfl hm hp hmatch ht, ?_⟩
    rw [tryRemap_waits (x := x) (by rw [hins]; simp) hj hx]
    exact ⟨hins, hvalid⟩
  case copyDiffers =>
    rintro j r d e b s hb rfl rfl hm hp hne
    rw [execCopyDigestCompare_copying hb rfl rfl hm hp, copyCompared_differs hne]
  case matched =>
    rintro j r p d b s hb rfl rfl hm hp hs hc hq
    rw [execRecomputeMatch_of hb rfl rfl (.inl ⟨hm, hp⟩) (.inl hs), recomputed_matches hp hc, spareMatched_lower hs hq]
  case unverified =>
    rintro j r p d b s hb rfl rfl hm hp hs hc hq
    rw [execRecomputeMatch_of hb rfl rfl (.inl ⟨hm, hp⟩) (.inl hs), recomputed_noCheckpoint hp hc, spareMatched_lower hs hq]
  case differs =>
    rintro j r p d e b s hb rfl rfl hm hp hs hc hne
    rw [execRecomputeMatch_of hb rfl rfl (.inl ⟨hm, hp⟩) (.inl hs), recomputed_differs hp hc hne]
  case rerunBelow =>
    intro j lo s hr h hplace
    obtain ⟨hjup, htsu, -, -⟩ := fields_of_sansJupLinks (j := j)
      (sansJupLinks_rerunReplayed (s := s) (j := j) (n := fullStep (tget none s.jup.stage.committed j.toNat) lo))
    refine ⟨_, execJobRerun_ready hr h, ?_⟩
    rw [rerunHere_belowTop hplace]
    exact ⟨rerun_clearRerun (by rw [hjup, hr]), (congrArg (fun x : Jup => x.journal) hjup :), htsu⟩
  case rerunLimit =>
    intro j lo s hr h hplace hf hbrown hagain hmax
    obtain ⟨hjup, -, hlimit, hword⟩ := fields_of_sansJupLinks (j := j)
      (sansJupLinks_rerunReplayed (s := s) (j := j) (n := fullStep (tget none s.jup.stage.committed j.toNat) lo))
    refine ⟨_, execJobRerun_ready hr h, ?_⟩
    rw [rerunHere_noneFenced hplace hf, hbrown, hagain, Bool.not_false, Bool.true_and,
      rerunResume_limit (by rw [hlimit, hword]; exact hmax), rerun_of_sansFaults (sansFaults_raiseFault ..)]
    exact ⟨rerun_clearRerun (by rw [hjup, hr]), valid_latchFault ..⟩
  case noForward =>
    intro p ws s hf
    rw [execCompletionMsgRx_eq, answered_noForward (s := s.consume .jup p mtCompletion ws) hf]
  case lastAnswer =>
    intro p ws f s hf hh hp
    rw [execCompletionMsgRx_eq, answered_last (s := s.consume .jup p mtCompletion ws) hf hh hp]
  case ownAnswer =>
    intro p ws f e s hf hh hp hown hb he hv
    exact ⟨_, execCompletionMsgRx_eq, answered_posts (s := s.consume .jup p mtCompletion ws) hf hh hp hown hb he hv⟩
  case moreAnswers =>
    intro p q ws f s hf hh hp hq hne
    obtain ⟨hfor, htsu, hout⟩ := forwards_answered (s := s.consume .jup p mtCompletion ws) (op := (nthW ws 0).extractLsb' 24 8)
      (st := (nthW ws 0).extractLsb' 16 8) (rs := ws.drop 2) hf hh hp hq hne
    exact ⟨_, _, execCompletionMsgRx_eq, hfor, rfl, rfl, rfl, htsu, hout⟩

end Sys2Proof.Machine
end

section
/-! PROOFS of spec family 11: the first fault of a block, and those that come after it. -/
namespace Sys2Proof.Machine
open Sys2Proof

/-! ## A fault recorded in its block (R314, R318, R319) -/

/-- The block without its severe latch and its grace timer. -/
def FaultBlock.sansSevere (x : FaultBlock) : FaultBlock :=
  { x with sev := false, sevOvf := false, grace := false, sevCode := 0, sevTick := 0, sevCtx := 0, expiry := 0, pendEsc := 0,
           pendHard := false, pendCode := 0 }

theorem sansSevere_severe (x : FaultBlock) (now : Tick) (code : Code) (w : BitVec 64) (p : Profile) :
    (x.severe now code w p).sansSevere = x.sansSevere := by
  unfold FaultBlock.severe
  dsimp only
  repeat' split
  all_goals rfl

/-- A block after a fault of a code: latched, graded, and severe where the code has come to its count. -/
def FaultBlock.record (x : FaultBlock) (now : Tick) (code : Code) (w : BitVec 64) (p : Profile) : FaultBlock :=
  let g := (tget {} x.grades code.toNat).event now p.wLog2
  let y := if p.n ≠ 0 ∧ g.count = p.n then (x.latch now code w).severe now code w p else x.latch now code w
  { y with grades := tset {} y.grades code.toNat g }

section
variable {x : FaultBlock} {now : Tick} {code : Code} {w : BitVec 64} {p : Profile}

theorem grades_latch : (x.latch now code w).grades = x.grades := by
  unfold FaultBlock.latch
  split <;> rfl

/-- But for the grades and the severe latch, a fault recorded is a fault latched. -/
theorem sansSevere_record : (x.record now code w p).sansSevere =
    { (x.latch now code w).sansSevere with grades := tset {} x.grades code.toNat ((tget {} x.grades code.toNat).event now p.wLog2) } := by
  have hgrades : ((x.latch now code w).severe now code w p).grades = x.grades :=
    (congrArg FaultBlock.grades (sansSevere_severe ..) :).trans grades_latch
  unfold FaultBlock.record
  dsimp only
  split
  · rw [hgrades, ← sansSevere_severe (x.latch now code w) now code w p]; rfl
  · rw [grades_latch]; rfl

theorem grades_record : (x.record now code w p).grades =
    tset {} x.grades code.toNat ((tget {} x.grades code.toNat).event now p.wLog2) :=
  (congrArg FaultBlock.grades sansSevere_record :)

theorem levels_record : (x.record now code w p).levels = x.levels := by
  refine (congrArg FaultBlock.levels sansSevere_record :).trans ?_
  change (x.latch now code w).levels = _
  unfold FaultBlock.latch
  split <;> rfl

theorem valid_record : (x.record now code w p).valid = true :=
  (congrArg FaultBlock.valid sansSevere_record :).trans (valid_latch x now code w)

/-- The first fault is latched with its tick and context. -/
theorem record_first (h : x.valid = false) : (x.record now code w p).firstCode = code ∧ (x.record now code w p).tick = now ∧
    (x.record now code w p).ctx = w ∧ (x.record now code w p).overflow = x.overflow ∧
    (x.record now code w p).events = satInc x.events := by
  have hl : x.latch now code w =
      { x with valid := true, firstCode := code, tick := now, ctx := w, events := satInc x.events } := if_neg (by simp [h])
  have hr := sansSevere_record (x := x) (now := now) (code := code) (w := w) (p := p)
  rw [hl] at hr
  exact ⟨(congrArg FaultBlock.firstCode hr :), (congrArg FaultBlock.tick hr :), (congrArg FaultBlock.ctx hr :),
    (congrArg FaultBlock.overflow hr :), (congrArg FaultBlock.events hr :)⟩

/-- A later fault leaves the latch: it sets OVERFLOW and counts. -/
theorem record_later (h : x.valid = true) : (x.record now code w p).firstCode = x.firstCode ∧ (x.record now code w p).tick = x.tick ∧
    (x.record now code w p).ctx = x.ctx ∧ (x.record now code w p).overflow = true ∧
    (x.record now code w p).events = satInc x.events := by
  have hl : x.latch now code w = { x with overflow := true, events := satInc x.events } := if_pos h
  have hr := sansSevere_record (x := x) (now := now) (code := code) (w := w) (p := p)
  rw [hl] at hr
  exact ⟨(congrArg FaultBlock.firstCode hr :), (congrArg FaultBlock.tick hr :), (congrArg FaultBlock.ctx hr :),
    (congrArg FaultBlock.overflow hr :), (congrArg FaultBlock.events hr :)⟩

end

theorem toNat_satInc {w : Nat} (v : BitVec w) : (satInc v).toNat = min (v.toNat + 1) (2 ^ w - 1) := by
  have hlt := v.isLt
  unfold satInc
  split
  · rename_i h
    rw [h, BitVec.toNat_allOnes]; omega
  · rename_i h
    have hne : v.toNat ≠ 2 ^ w - 1 := fun hv => h (BitVec.eq_of_toNat_eq (hv.trans (BitVec.toNat_allOnes).symm))
    change (v + BitVec.ofNat w 1).toNat = _
    rw [BitVec.toNat_add, BitVec.toNat_ofNat, Nat.add_mod_mod, Nat.mod_eq_of_lt (by omega)]
    omega

/-! ## The block and the state that a fault leaves -/

section
variable (s : State) (d : Dev) (b : Nat) (code : Code) (ctx : Ctx)

theorem fblock_latchFault : (s.latchFault d b code ctx).fblock d b =
    (s.fblock d b).record (s.now d) code ctx.word ((s.com d).profile code) := by
  have hne : (s.fblock d b).record (s.now d) code ctx.word ((s.com d).profile code) ≠ {} := fun h =>
    Bool.noConfusion (valid_record.symm.trans (congrArg FaultBlock.valid h))
  have hblock : (s.modBlock d b fun _ => (s.fblock d b).record (s.now d) code ctx.word ((s.com d).profile code)).fblock d b =
      (s.fblock d b).record (s.now d) code ctx.word ((s.com d).profile code) := fblock_modBlock_ne hne
  unfold State.latchFault
  extract_lets now b0 p g b1 becomesSevere b2 b3 s1 s2
  have hb3 : b3 = b0.record now code ctx.word p := by
    unfold b3 b2 becomesSevere
    simp only [decide_eq_true_eq]
    rfl
  have hs1 : s1.fblock d b = b0.record now code ctx.word p := by
    unfold s1
    rw [hb3]; exact hblock
  have hs2 : s2.fblock d b = b0.record now code ctx.word p := by
    unfold s2
    split
    · exact hs1
    · rw [fblock_report, hs1]
  split
  · rw [fblock_report, hs2]
  · exact hs2

theorem tsu_report (ws : List Word) : (s.report d ws).tsu = s.tsu := by
  cases d with
  | tsu => exact tsu_sendAll ..
  | jup =>
    change (s.logReport ws).tsu = _
    unfold State.logReport
    split <;> rfl

theorem tsu_latchFault : (s.latchFault d b code ctx).tsu = s.tsu := by
  unfold State.latchFault
  dsimp only
  split <;> split <;> simp only [tsu_report, tsu_modBlock]

end

/-- No word of the severity table that a device reads as it grades fails its parity. -/
def State.SeverityOk (s : State) (d : Dev) : Prop := d = .tsu → (s.tsu.badWords.any fun x => decide (x.1 = 5)) = false

section
variable {s : State} {d : Dev} {b : Nat} {code : Code} {ctx : Ctx}

theorem raiseFault_severityOk (h : s.SeverityOk d) : s.raiseFault d b code ctx = s.latchFault d b code ctx := by
  have hread : s.readSeverity d = s := if_neg fun hbad => by
    obtain ⟨hd, hany⟩ := Bool.and_eq_true_iff.mp hbad
    exact Bool.noConfusion ((h (of_decide_eq_true hd)).symm.trans hany)
  rw [State.raiseFault, hread]

theorem severityOk_latchFault (h : s.SeverityOk d) : (s.latchFault d b code ctx).SeverityOk d := by
  unfold State.SeverityOk
  rw [tsu_latchFault]
  exact h

theorem now_raiseFault (e : Dev) : (s.raiseFault d b code ctx).now e = s.now e :=
  (congrArg TimeCore.htc (time_of_sansFaults (sansFaults_raiseFault ..) e) :)

end

/-- A fault leaves the first fault of a block that has one, in this block or another. -/
theorem latchFault_keeps_first {s : State} {d : Dev} {b k : Nat} {code : Code} {ctx : Ctx} (h : (s.fblock d k).valid = true) :
    ((s.latchFault d b code ctx).fblock d k).firstCode = (s.fblock d k).firstCode ∧
      ((s.latchFault d b code ctx).fblock d k).tick = (s.fblock d k).tick ∧
      ((s.latchFault d b code ctx).fblock d k).ctx = (s.fblock d k).ctx := by
  by_cases hk : k = b
  · subst hk
    obtain ⟨hcode, htick, hctx, -⟩ := record_later h
    rw [fblock_latchFault]
    exact ⟨hcode, htick, hctx⟩
  · rw [fblock_latchFault_other _ _ hk]
    exact ⟨rfl, rfl, rfl⟩

/-! ## A run of faults (R314) -/

/-- What the latch and the grades of a block tell of the faults raised in it at a tick: the first one is latched, and each counts. -/
structure FaultBlock.Tells (x : FaultBlock) (now : Tick) (e : Code × Ctx) (l : List (Code × Ctx)) : Prop where
  valid : x.valid = true
  firstCode : x.firstCode = e.1
  tick : x.tick = now
  ctx : x.ctx = e.2.word
  overflow : x.overflow = !l.isEmpty
  events : x.events.toNat = min (1 + l.length) 65535
  grades : ∀ c : Code, tget {} x.grades c.toNat =
    if (e :: l).countP (fun y => decide (y.1 = c)) = 0 then {} else
      { count := (e :: l).countP fun y => decide (y.1 = c), opened := now }

/-- One more event of a code whose window opened on this tick. -/
theorem grade_event {now : Tick} {n wLog2 : Nat} :
    (if n = 0 then ({} : Grade) else { count := n, opened := now }).event now wLog2 = { count := n + 1, opened := now } := by
  have hw := Nat.two_pow_pos wLog2
  by_cases h : n = 0
  · subst h; rfl
  · rw [if_neg h, Grade.event, if_neg (by simp only [h, false_or]; omega)]

theorem tget_grades_record {x : FaultBlock} {now : Tick} {code : Code} {w : BitVec 64} {p : Profile} {k : Code} :
    tget {} (x.record now code w p).grades k.toNat =
      if code = k then (tget {} x.grades code.toNat).event now p.wLog2 else tget {} x.grades k.toNat := by
  have hne : (tget {} x.grades code.toNat).event now p.wLog2 ≠ ({} : Grade) := by
    unfold Grade.event
    split <;> exact fun h => Nat.noConfusion (congrArg Grade.count h)
  rw [grades_record]
  split
  · rename_i h
    rw [← h, tget_tset_ne _ _ _ _ hne]
  · rename_i h
    exact tget_tset_other _ _ _ _ _ fun hk => h (BitVec.eq_of_toNat_eq hk).symm

theorem tells_record_first {x : FaultBlock} {now : Tick} {e : Code × Ctx} {p : Profile} (hv : x.valid = false) (ho : x.overflow = false)
    (he : x.events = 0) (hg : x.grades = []) : (x.record now e.1 e.2.word p).Tells now e [] := by
  obtain ⟨hcode, htick, hctx, hovf, hevents⟩ := record_first (now := now) (code := e.1) (w := e.2.word) (p := p) hv
  refine ⟨valid_record, hcode, htick, hctx, hovf.trans ho, ?_, fun c => ?_⟩
  · rw [hevents, he]; rfl
  · rw [tget_grades_record, hg]
    by_cases h : e.1 = c
    · simpa [h] using grade_event (n := 0)
    · simp [h]

theorem tells_record_later {x : FaultBlock} {now : Tick} {e a : Code × Ctx} {l : List (Code × Ctx)} {p : Profile}
    (h : x.Tells now e l) : (x.record now a.1 a.2.word p).Tells now e (l ++ [a]) := by
  obtain ⟨hcode, htick, hctx, hovf, hevents⟩ := record_later (now := now) (code := a.1) (w := a.2.word) (p := p) h.valid
  refine ⟨valid_record, hcode.trans h.firstCode, htick.trans h.tick, hctx.trans h.ctx, by simp [hovf], ?_, fun c => ?_⟩
  · rw [hevents, toNat_satInc, h.events, List.length_append, List.length_singleton]; omega
  · rw [tget_grades_record, ← List.cons_append, List.countP_append]
    by_cases hc : a.1 = c
    · rw [if_pos hc, hc, h.grades c, grade_event]
      simp [hc]
    · rw [if_neg hc, h.grades c, List.countP_singleton, decide_eq_false hc]
      rfl

/-- Faults raised in a block one after another, on one tick. -/
def State.raiseAll (s : State) (d : Dev) (b : Nat) (l : List (Code × Ctx)) : State := l.foldl (fun s x => s.raiseFault d b x.1 x.2) s

theorem raiseAll_cons (s : State) (d : Dev) (b : Nat) (a : Code × Ctx) (l : List (Code × Ctx)) :
    s.raiseAll d b (a :: l) = (s.raiseFault d b a.1 a.2).raiseAll d b l := rfl

/-- A block that tells of a run of faults tells of the longer run once more are raised. -/
theorem raiseAll_tells {s : State} {d : Dev} {b : Nat} {now : Tick} {e : Code × Ctx} {k : List (Code × Ctx)} (l : List (Code × Ctx))
    (hok : s.SeverityOk d) (hnow : s.now d = now) (h : (s.fblock d b).Tells now e k) :
    (s.raiseAll d b l).now d = now ∧ ((s.raiseAll d b l).fblock d b).Tells now e (k ++ l) := by
  induction l generalizing s k with
  | nil => rw [List.append_nil]; exact ⟨hnow, h⟩
  | cons a l ih =>
    have hnow' : (s.latchFault d b a.1 a.2).now d = now := by rw [← raiseFault_severityOk hok, now_raiseFault, hnow]
    have hone : ((s.latchFault d b a.1 a.2).fblock d b).Tells now e (k ++ [a]) := by
      rw [fblock_latchFault, hnow]
      exact tells_record_later h
    rw [raiseAll_cons, raiseFault_severityOk hok, List.append_cons]
    exact ih (severityOk_latchFault hok) hnow' hone

/-! ## An armed entry of the severity table (R311, R323) -/

/-- The state as the severity table is read at its one word that fails its parity, before the fault that says so. -/
def State.readArmed (s : State) : State := s.modTsu fun t => { t with badWords := [], parStop := true }

theorem raiseFault_armed {s : State} {b ch w : Nat} {code : Code} {ctx : Ctx} (h : s.tsu.badWords = [(5, ch, w)]) :
    s.raiseFault .tsu b code ctx = (s.readArmed.latchFault .tsu (blkCmd .tsu) cInjSram { group := 5 }).latchFault .tsu b code ctx := by
  have hread : s.readSeverity .tsu = s.readArmed.latchFault .tsu (blkCmd .tsu) cInjSram { group := 5 } := by
    unfold State.readSeverity
    rw [h]
    unfold State.readArmed State.modTsu
    simp [h]
  rw [State.raiseFault, hread]

/-- The fault of the armed entry is the first one of the command block. -/
theorem readArmed_latches {s : State} (hv : (s.fblock .tsu (blkCmd .tsu)).valid = false) :
    ((s.readArmed.latchFault .tsu (blkCmd .tsu) cInjSram { group := 5 }).fblock .tsu (blkCmd .tsu)).valid = true ∧
      ((s.readArmed.latchFault .tsu (blkCmd .tsu) cInjSram { group := 5 }).fblock .tsu (blkCmd .tsu)).firstCode = cInjSram ∧
      ((s.readArmed.latchFault .tsu (blkCmd .tsu) cInjSram { group := 5 }).fblock .tsu (blkCmd .tsu)).tick = s.now .tsu ∧
      ((s.readArmed.latchFault .tsu (blkCmd .tsu) cInjSram { group := 5 }).fblock .tsu (blkCmd .tsu)).ctx =
        ({ group := 5 } : Ctx).word := by
  rw [fblock_latchFault]
  obtain ⟨hcode, htick, hctx, -⟩ := record_first hv
  exact ⟨valid_record, hcode, htick, hctx⟩

/-- Settles O50: without an armed entry a block records each fault by `FaultBlock.record`, and the induction over the faults
raised carries what its latch and grades tell; an armed entry puts one fault of the command block before the one raised. -/
theorem firstFaultLatched : Obligations.FirstFaultLatched := by
  refine ⟨fun d b e l s hok hv ho he hg => ?run, fun b ch w c x s hbad hv => ?armed⟩
  case run =>
    have hone : ((s.latchFault d b e.1 e.2).fblock d b).Tells (s.now d) e [] := by
      rw [fblock_latchFault]
      exact tells_record_first hv ho he hg
    have hnow' : (s.latchFault d b e.1 e.2).now d = s.now d := by rw [← raiseFault_severityOk hok, now_raiseFault]
    obtain ⟨hnow, htells⟩ := raiseAll_tells l (severityOk_latchFault hok) hnow' hone
    rw [← raiseFault_severityOk hok, ← raiseAll_cons, List.nil_append] at htells
    rw [← raiseFault_severityOk hok, ← raiseAll_cons] at hnow
    refine ⟨hnow, htells.valid, htells.firstCode, htells.tick, htells.ctx, htells.overflow, htells.events, fun c => ?_⟩
    refine (congrArg Grade.count (htells.grades c)).trans ?_
    split
    · rename_i h; exact h.symm
    · rfl
  case armed =>
    obtain ⟨hvalid, hcode, htick, hctx⟩ := readArmed_latches hv
    obtain ⟨hcode', htick', hctx'⟩ := latchFault_keeps_first (b := b) (code := c) (ctx := x) hvalid
    rw [raiseFault_armed hbad, hcode', htick', hctx', tsu_latchFault, tsu_latchFault]
    exact ⟨hcode, htick, hctx, valid_latchFault .., rfl, rfl⟩

end Sys2Proof.Machine
end

section
/-! PROOFS of spec family 11: what the faults of a TSU and the stopping of its steps leave alone. -/
namespace Sys2Proof.Machine
open Sys2Proof

/-! ## The state without what a fault of a TSU or a stopped step may touch

That is the fault blocks and links of the TSU, by which it reports, its channels and all that they own, and the outputs. Its
power, the rest of its common state, and both halves of the Jupin stay. -/

def State.sansStep (s : State) : State :=
  { s with tsuC := { s.tsuC with blocks := [], links := [] }, tsu := { power := s.tsu.power }, out := [] }

theorem fields_of_sansStep {s t : State} (h : t.sansStep = s.sansStep) : t.tsu.power = s.tsu.power ∧ t.jup = s.jup ∧
    t.tsuC.regs = s.tsuC.regs ∧ t.tsuC.time = s.tsuC.time ∧ t.tsuC.sec = s.tsuC.sec ∧ t.tsuC.sev = s.tsuC.sev :=
  ⟨(congrArg (fun x : State => x.tsu.power) h :), (congrArg State.jup h :), (congrArg (fun x : State => x.tsuC.regs) h :),
    (congrArg (fun x : State => x.tsuC.time) h :), (congrArg (fun x : State => x.tsuC.sec) h :),
    (congrArg (fun x : State => x.tsuC.sev) h :)⟩

theorem sansStep_ite {c : Prop} [Decidable c] {s t u : State} (ht : t.sansStep = s.sansStep) (hu : u.sansStep = s.sansStep) :
    (if c then t else u).sansStep = s.sansStep := by split <;> assumption

section
variable (s : State) (b c cause : Nat) (code : Code) (ctx : Ctx)

/-! ### Updates -/

@[simp] theorem sansStep_emit (o : Out) : (s.emit o).sansStep = s.sansStep := rfl
@[simp] theorem sansStep_modChan (f : Chan → Chan) : (s.modChan c f).sansStep = s.sansStep := rfl
@[simp] theorem sansStep_modSync (f : Sync → Sync) : (s.modSync f).sansStep = s.sansStep := rfl
@[simp] theorem sansStep_modBlock (f : FaultBlock → FaultBlock) : (s.modBlock .tsu b f).sansStep = s.sansStep := rfl
theorem sansStep_modTsu {f : Tsu → Tsu} (h : (f s.tsu).power = s.tsu.power) : (s.modTsu f).sansStep = s.sansStep := by
  unfold State.sansStep State.modTsu
  rw [h]
theorem sansStep_send (n : Nat) (m : Msg) : (s.send .tsu n m).sansStep = s.sansStep := rfl
theorem sansStep_sendAll (ns : List Nat) (m : Msg) : (s.sendAll .tsu ns m).sansStep = s.sansStep :=
  foldl_kept (fun s n => sansStep_send s n m) ns s

/-! ### Faults -/

@[simp] theorem sansStep_report (ws : List Word) : (s.report .tsu ws).sansStep = s.sansStep := sansStep_sendAll ..
@[simp] theorem sansStep_latchFault : (s.latchFault .tsu b code ctx).sansStep = s.sansStep := by
  unfold State.latchFault
  dsimp only
  split <;> split <;> simp
@[simp] theorem sansStep_raiseFault : (s.raiseFault .tsu b code ctx).sansStep = s.sansStep := by
  have hread : (s.readSeverity .tsu).sansStep = s.sansStep :=
    sansStep_ite ((sansStep_latchFault ..).trans (sansStep_modTsu _ rfl)) rfl
  rw [State.raiseFault, sansStep_latchFault, hread]
@[simp] theorem sansStep_raiseLevel : (s.raiseLevel .tsu b code ctx).sansStep = s.sansStep :=
  sansStep_ite rfl ((sansStep_modBlock ..).trans (sansStep_raiseFault ..))
@[simp] theorem sansStep_raiseChan : (s.raiseChan c code ctx).sansStep = s.sansStep :=
  sansStep_ite ((sansStep_modChan ..).trans (sansStep_raiseFault ..)) (sansStep_raiseFault ..)

/-! ### Objects, waits and filters of a channel -/

@[simp] theorem sansStep_sramSpan (tbl ch lo hi : Nat) : (s.sramSpan tbl ch lo hi).sansStep = s.sansStep := by
  refine sansStep_modTsu _ ?_
  dsimp only
  repeat' split
  all_goals rfl
@[simp] theorem sansStep_restoreObjects : (s.restoreObjects c).sansStep = s.sansStep := by
  unfold State.restoreObjects
  dsimp only
  rw [foldl_kept (g := State.sansStep) (by simp [State.sramWrite, State.modConj]),
    foldl_kept (g := State.sansStep) (by simp [State.sramWrite, State.setSlot]), sansStep_modSync]
@[simp] theorem sansStep_earlyGate : (s.earlyGate c).sansStep = s.sansStep := sansStep_ite rfl rfl
theorem sansStep_coreRsp (r : WaitRec) (kind : Nat) : (s.coreRsp r kind).sansStep = s.sansStep := by
  unfold State.coreRsp
  split <;> rfl
@[simp] theorem sansStep_cancelWaits : (s.cancelWaits c).sansStep = s.sansStep :=
  (sansStep_modSync ..).trans (foldl_kept (fun s r => sansStep_coreRsp s r 3) _ s)
@[simp] theorem sansStep_noteParity (tbl lo : Nat) : (s.noteParity tbl c lo).sansStep = s.sansStep :=
  sansStep_ite rfl ((sansStep_raiseChan ..).trans (sansStep_modTsu _ rfl))
theorem sansStep_clearFilter (f : Filter) : (s.clearFilter f).sansStep = s.sansStep := rfl
@[simp] theorem sansStep_unbindFilters : (s.unbindFilters c).sansStep = s.sansStep :=
  (foldl_kept sansStep_clearFilter _ _).trans (sansStep_modTsu _ rfl)

/-! ### Stopping a step (R132, R133), holding a channel (R169) -/

@[simp] theorem sansStep_enterHeld : (s.enterHeld c cause).sansStep = s.sansStep := by
  unfold State.enterHeld
  dsimp only
  split <;> simp [State.writeSels]
@[simp] theorem sansStep_stopOne : (s.stopOne c cause).sansStep = s.sansStep := by
  unfold State.stopOne
  dsimp only
  split
  · rfl
  · split <;> simp [State.stopStreams]
@[simp] theorem sansStep_gateFence : (s.gateFence c code ctx).sansStep = s.sansStep := sansStep_report ..
@[simp] theorem sansStep_stopMates (mates : List Nat) : (s.stopMates mates code ctx).sansStep = s.sansStep :=
  foldl_kept (g := State.sansStep) (fun _ _ => sansStep_ite (sansStep_gateFence ..) (sansStep_stopOne ..)) mates s
@[simp] theorem sansStep_stopStep : (s.stopStep c cause code ctx).sansStep = s.sansStep :=
  sansStep_ite rfl (sansStep_ite (sansStep_gateFence ..) ((sansStep_stopMates ..).trans (sansStep_stopOne ..)))
theorem sansStep_wantHold : (s.wantHold c cause).sansStep = s.sansStep := rfl
@[simp] theorem sansStep_wantHoldAll : (s.wantHoldAll cause).sansStep = s.sansStep :=
  foldl_kept (fun s c => sansStep_wantHold s c cause) _ s

end

end Sys2Proof.Machine
end

section
/-! PROOFS of spec family 11: fault blocks cleared, windows and grace timers that end, and injections armed. -/
namespace Sys2Proof.Machine
open Sys2Proof

/-! ## FAULT_CLEAR (R322, R458) -/

/-- A block whose first fault is cleared. -/
def FaultBlock.cleared (x : FaultBlock) : FaultBlock :=
  { x with valid := false, overflow := false, events := 0, esc := 0, deferred := false, firstCode := 0, tick := 0, ctx := 0,
           relatch := !x.levels.isEmpty }

section
variable {s : State} {d : Dev} {b k : Nat}

theorem clearFault_latched (hd : d = .tsu ∨ b ≠ blkPower .jup) (hv : (s.fblock d b).valid = true) :
    ∃ ws, s.clearFault d b = (s.modBlock d b FaultBlock.cleared).report d ws := by
  unfold State.clearFault
  extract_lets x s1 s2
  have hs2 : s2 = s1.report d _ := if_pos hv
  have htrip : ¬(d = .jup ∧ b = blkPower .jup) := fun ⟨hj, hb⟩ => hd.elim (fun ht => nomatch ht.symm.trans hj) (· hb)
  rw [if_neg htrip, hs2]
  exact ⟨_, rfl⟩

theorem fblock_clearFault (hd : d = .tsu ∨ b ≠ blkPower .jup) (hv : (s.fblock d b).valid = true)
    (hwf : Table.wf {} (s.com d).blocks = true) : (s.clearFault d b).fblock d b = (s.fblock d b).cleared := by
  obtain ⟨ws, heq⟩ := clearFault_latched hd hv
  rw [heq, fblock_report, fblock_modBlock _ _ _ _ hwf]

theorem fblock_clearFault_other (hd : d = .tsu ∨ b ≠ blkPower .jup) (hv : (s.fblock d b).valid = true) (hk : k ≠ b) :
    (s.clearFault d b).fblock d k = s.fblock d k := by
  obtain ⟨ws, heq⟩ := clearFault_latched hd hv
  rw [heq, fblock_report, fblock_modBlock_other _ _ _ _ _ hk]

end

theorem fblock_of_tsuC {s t : State} (h : t.tsuC = s.tsuC) (k : Nat) : t.fblock .tsu k = s.fblock .tsu k :=
  (congrArg (fun c : Common => tget ({} : FaultBlock) c.blocks k) h :)

/-! ## The grace timer (R319, R320) -/

section
variable {s : State} {d : Dev} {b k : Nat}

theorem graceDue_early (h : s.now d < (s.fblock d b).expiry) : s.graceDue d b = false := by
  have hn : ¬(s.fblock d b).expiry ≤ s.now d := BitVec.not_le.mpr h
  simp [State.graceDue, hn]

theorem sev_of_graceDue (h : s.graceDue d b = true) : (s.fblock d b).sev = true := by
  simp only [State.graceDue, Bool.and_eq_true] at h
  exact h.1.1

theorem execGraceExpiry_due (h : s.graceDue d b = true) : exec (.graceExpiry d b) s = .next (s.graceEnd d b) := by
  change execGraceExpiry d b s = _
  exact due_of h
theorem execGraceExpiry_early (h : s.now d < (s.fblock d b).expiry) : exec (.graceExpiry d b) s = .next s := by
  change execGraceExpiry d b s = _
  exact due_unless (graceDue_early h)

/-- A block whose grace timer has run out: ESC is the higher of the two. -/
def FaultBlock.escalated (x : FaultBlock) : FaultBlock := { x with grace := false, esc := if x.esc < x.pendEsc then x.pendEsc else x.esc }

/-- Holding the channels of a fault touches channels alone. -/
theorem holdFor_frame (s : State) (b : Nat) (ctx : Word) : (s.holdFor b ctx).tsuC = s.tsuC ∧ (s.holdFor b ctx).jup = s.jup :=
  Prod.ext_iff.mp (foldl_kept (g := fun s : State => (s.tsuC, s.jup)) (by intros; rfl) _ s)

/-- An escalation at a die is its block, a report, and channels held. -/
theorem graceEnd_tsu (s : State) (b : Nat) : ∃ t : State, (t = s.modBlock .tsu b FaultBlock.escalated ∨
    ∃ ws, t = (s.modBlock .tsu b FaultBlock.escalated).report .tsu ws) ∧
      (s.graceEnd .tsu b).tsuC = t.tsuC ∧ (s.graceEnd .tsu b).jup = t.jup := by
  unfold State.graceEnd
  extract_lets x s1 s2
  split
  · exact ⟨s1, .inl rfl, rfl, rfl⟩
  · refine ⟨s2, .inr ⟨_, rfl⟩, ?_⟩
    dsimp only
    split
    · exact holdFor_frame ..
    · exact ⟨rfl, rfl⟩

theorem graceEnd_escalates (hs : (s.fblock .tsu b).sev = true) : (s.graceEnd .tsu b).fblock .tsu b = (s.fblock .tsu b).escalated ∧
    (s.graceEnd .tsu b).tsuC.regs = s.tsuC.regs ∧ (s.graceEnd .tsu b).jup = s.jup := by
  have hblock : (s.modBlock .tsu b FaultBlock.escalated).fblock .tsu b = (s.fblock .tsu b).escalated :=
    fblock_modBlock_ne fun h => Bool.noConfusion (hs.symm.trans (congrArg FaultBlock.sev h : (s.fblock .tsu b).sev = false))
  obtain ⟨t, ht, hcom, hjup⟩ := graceEnd_tsu s b
  rw [fblock_of_tsuC hcom, hcom, hjup]
  obtain rfl | ⟨ws, rfl⟩ := ht
  · exact ⟨hblock, rfl, rfl⟩
  · obtain ⟨-, hj, hregs, -⟩ := fields_of_sansStep (sansStep_report (s.modBlock .tsu b FaultBlock.escalated) ws)
    exact ⟨(fblock_report ..).trans hblock, hregs, hj⟩

/-! ## SEVERE_CLEAR (R320, R322) -/

/-- A block whose severe latch is cleared. -/
def FaultBlock.severeCleared (x : FaultBlock) : FaultBlock :=
  { x with sev := false, sevOvf := false, grace := false, pendEsc := 0, pendHard := false, pendCode := 0, sevCode := 0,
           holdsPort := false, grades := tset {} x.grades x.sevCode.toNat {} }

theorem clearSevere_none (h : (s.fblock d b).sev = false) : s.clearSevere d b = s := by
  have hg : s.graceDue d b = false := by rw [State.graceDue, h]; rfl
  unfold State.clearSevere
  rw [hg, if_neg Bool.false_ne_true]
  exact if_pos (by rw [h]; rfl)

theorem tsuC_unbar (s : State) (b : Nat) : (s.unbar b).tsuC = s.tsuC :=
  foldl_kept (g := State.tsuC) (fun s c => by split <;> rfl) _ s

theorem clearSevere_early (hs : (s.fblock .tsu b).sev = true) (ht : s.now .tsu < (s.fblock .tsu b).expiry) :
    ∃ ws, (s.clearSevere .tsu b).tsuC = ((s.modBlock .tsu b FaultBlock.severeCleared).report .tsu ws).tsuC := by
  unfold State.clearSevere
  rw [graceDue_early ht, if_neg Bool.false_ne_true]
  dsimp only
  rw [hs, if_neg (by decide)]
  exact ⟨_, tsuC_unbar ..⟩

theorem fblock_clearSevere (hs : (s.fblock .tsu b).sev = true) (ht : s.now .tsu < (s.fblock .tsu b).expiry)
    (hwf : Table.wf {} s.tsuC.blocks = true) : (s.clearSevere .tsu b).fblock .tsu b = (s.fblock .tsu b).severeCleared ∧
      ∀ k, k ≠ b → (s.clearSevere .tsu b).fblock .tsu k = s.fblock .tsu k := by
  obtain ⟨ws, heq⟩ := clearSevere_early hs ht
  have hgot (k : Nat) : (s.clearSevere .tsu b).fblock .tsu k = (s.modBlock .tsu b FaultBlock.severeCleared).fblock .tsu k :=
    (fblock_of_tsuC heq k).trans (fblock_report ..)
  exact ⟨(hgot b).trans (fblock_modBlock _ _ _ _ hwf), fun k hk => (hgot k).trans (fblock_modBlock_other _ _ _ _ _ hk)⟩

end

/-! ## GRADING_WINDOW_CLOSE (R318) -/

section
variable {s : State} {d : Dev} {b : Nat} {c : BitVec 16}

theorem execGradingWindowClose_due (h : s.windowDue d b c = true) : exec (.gradingWindowClose d b c) s =
    .next (s.modBlock d b fun x => { x with grades := tset {} x.grades c.toNat {} }) := by
  change execGradingWindowClose d b c s = _
  exact due_of h
theorem execGradingWindowClose_early (h : s.windowDue d b c = false) : exec (.gradingWindowClose d b c) s = .next s := by
  change execGradingWindowClose d b c s = _
  exact due_unless h

end

/-! ## Injections (R323, R380) -/

section
variable {s : State} {table : BitVec 3} {ch : Fin 8} {w : BitVec 16} {src : Src} {g : BitVec 12}

theorem execFltInjArm_reserved (h : 6 ≤ table.toNat) : exec (.fltInjArm table ch w src) s = .fault (.unpredictable "R9") := if_pos h
theorem execFltInjArm_assigned (h : table.toNat < 6) : exec (.fltInjArm table ch w src) s =
    .next (if s.injDenied .tsu src then s.denied .tsu
      else s.modTsu fun x => { x with injArm := some (table.toNat, ch.val, w.toNat) }) := if_neg (by omega)
theorem execFltInjArm_armed (h : table.toNat < 6) (hd : s.injDenied .tsu src = false) : exec (.fltInjArm table ch w src) s =
    .next (s.modTsu fun x => { x with injArm := some (table.toNat, ch.val, w.toNat) }) := by
  rw [execFltInjArm_assigned h, hd]; rfl
theorem execFltInjArm_denied (h : table.toNat < 6) (hd : s.injDenied .tsu src = true) : exec (.fltInjArm table ch w src) s =
    .next (s.denied .tsu) := by
  rw [execFltInjArm_assigned h, hd]; rfl

theorem execInjDigestArm_armed (hd : s.injDenied .jup src = false) : exec (.injDigestArm g src) s =
    .next (s.modGrp g.toNat fun x => { x with inj := true }) := by
  change execInjDigestArm g src s = _
  rw [execInjDigestArm, hd]; rfl
theorem execInjDigestArm_denied (hd : s.injDenied .jup src = true) : exec (.injDigestArm g src) s = .next (s.denied .jup) := by
  change execInjDigestArm g src s = _
  rw [execInjDigestArm, hd]; rfl

theorem grpStat_modGrp {k : Nat} {f : GrpStat → GrpStat} (h : f (s.grpStat k) ≠ {}) : (s.modGrp k f).grpStat k = f (s.grpStat k) :=
  tget_tset_ne _ _ _ _ h

end

end Sys2Proof.Machine
end

section
/-! PROOFS of spec family 11: reports received and what they mean to the rack side that takes them. -/
namespace Sys2Proof.Machine
open Sys2Proof

/-! ## The fault log (R316) -/

section
variable {s : State} {ws : LogEntry}

theorem logReport_room (h : s.jup.log.length < 4096) :
    s.logReport ws = (s.modJup fun j => { j with log := j.log ++ [ws] }).emit (.msix 0) := if_pos h
theorem logReport_full (h : 4096 ≤ s.jup.log.length) : s.logReport ws = s.modJup fun j => { j with logLost := satInc j.logLost } :=
  if_neg (Nat.not_lt.mpr h)

/-- A report logged moves the log and the interrupts of the Jupin alone. -/
theorem logReport_frame (s : State) (ws : LogEntry) : ∃ l n o,
    s.logReport ws = { s with jup := { s.jup with log := l, logLost := n }, out := o } := by
  unfold State.logReport
  split <;> exact ⟨_, _, _, rfl⟩

end

/-! ## The parts of a report received (R294, R316, R339) -/

section
variable {s : State} {p n : Nat} {ws : List Word} {code : Code} {ctx : Word} {j : BitVec 15}

theorem noteWarn_otherCode (h : code ≠ cSupplyWarn) : s.noteWarn p code n = s := if_pos h
theorem noteWarn_otherEvent (h0 : n ≠ 0) (h3 : n ≠ 3) : s.noteWarn p code n = s := by
  rw [State.noteWarn, if_neg h0, if_neg h3, ite_self]
theorem noteWarn_frame (s : State) (p : Nat) (code : Code) (n : Nat) :
    (s.noteWarn p code n).jup = { s.jup with warned := (s.noteWarn p code n).jup.warned } ∧ (s.noteWarn p code n).tsu = s.tsu ∧
      (s.noteWarn p code n).jupC = s.jupC := by
  unfold State.noteWarn
  repeat' split
  all_goals exact ⟨rfl, rfl, rfl⟩

theorem mem_warned_noteWarn (s : State) (p : Nat) : p ∈ (s.noteWarn p cSupplyWarn 0).jup.warned := by
  change p ∈ if s.jup.warned.contains p then s.jup.warned else s.jup.warned ++ [p]
  split
  · rename_i h
    exact List.contains_iff_mem.mp h
  · simp
theorem not_mem_warned_noteWarn (s : State) (p : Nat) : p ∉ (s.noteWarn p cSupplyWarn 3).jup.warned := by
  change p ∉ s.jup.warned.filter fun q => !decide (q = p)
  simp

theorem noteRepeat_otherCode (h : code ∉ [cStepOverrun, cRepeatBroken]) : s.noteRepeat code ctx j = s := by
  simp only [List.mem_cons, List.not_mem_nil, or_false, not_or] at h
  rw [State.noteRepeat, if_neg h.1, if_neg h.2]

theorem noteBrown_otherCode (h : code ≠ cBrownoutHold) : s.noteBrown code j = s := if_neg h

/-- A report goes on over a link of the Jupin, or not at all. -/
theorem sansJupLinks_reportOnward : (s.reportOnward p ws).sansJupLinks = s.sansJupLinks := by
  unfold State.reportOnward
  split
  · rfl
  · split
    · split <;> rfl
    · rfl

theorem reportOnward_frame : (s.reportOnward p ws).jup = s.jup ∧ (s.reportOnward p ws).tsu = s.tsu ∧
    (s.reportOnward p ws).tsuC = s.tsuC ∧ (s.reportOnward p ws).out = s.out ∧ (s.reportOnward p ws).jupC.regs = s.jupC.regs :=
  ⟨(congrArg State.jup sansJupLinks_reportOnward :), (congrArg State.tsu sansJupLinks_reportOnward :),
    (congrArg State.tsuC sansJupLinks_reportOnward :), (congrArg State.out sansJupLinks_reportOnward :),
    (congrArg (fun x : State => x.jupC.regs) sansJupLinks_reportOnward :)⟩

/-- Noting the severe latch of a report and passing it on touches the record of severe latches and the links alone. -/
theorem noteSev_reportOnward_frame (s : State) (p : Nat) (ws : List Word) :
    ((s.noteSev p ws).reportOnward p ws).jup = { s.jup with sevSeen := (s.noteSev p ws).jup.sevSeen } ∧
      ((s.noteSev p ws).reportOnward p ws).tsu = s.tsu ∧ ((s.noteSev p ws).reportOnward p ws).tsuC = s.tsuC ∧
      ((s.noteSev p ws).reportOnward p ws).out = s.out ∧ ((s.noteSev p ws).reportOnward p ws).jupC.regs = s.jupC.regs := by
  obtain ⟨hjup, htsu, htsuC, hout, hregs⟩ := reportOnward_frame (s := s.noteSev p ws) (p := p) (ws := ws)
  rw [hjup, htsu, htsuC, hout, hregs]
  exact ⟨rfl, rfl, rfl, rfl, rfl⟩

/-- A severe latch not known yet is noted with the tick on which its escalation acts. -/
def severeNoted (ws : List Word) (prof : Profile) : SevSeen :=
  { path := (nthW ws 0).extractLsb' 0 32, block := fld (nthW ws 0) 47 40, job := reportJob ws,
    due := nthW ws 1 + BitVec.ofNat 64 (2 ^ prof.graceLog2), esc := prof.esc.toNat, acted := false }

theorem sevSeen_noteSev_severe (he : fld (nthW ws 0) 39 37 = 1) (hn : s.jup.sevSeen.any (reportOf ws) = false) :
    (s.noteSev p ws).jup.sevSeen = s.jup.sevSeen ++ [severeNoted ws (s.dieProfile p ((nthW ws 0).extractLsb' 48 16))] := by
  simp only [State.noteSev, jup_modJup, he, hn, Bool.false_eq_true, if_false]
  rfl
theorem sevSeen_noteSev_cleared (he : fld (nthW ws 0) 39 37 = 3) (hc : fld (nthW ws 3) 31 16 = 0) :
    (s.noteSev p ws).jup.sevSeen = s.jup.sevSeen.filter fun x => !reportOf ws x := by
  simp only [State.noteSev, jup_modJup, he, hc, if_true]

/-! ## FAULT_REPORT_RX, by its event -/

/-- A report taken and logged, before it is read. -/
def State.logged (s : State) (p : Nat) (ws : List Word) : State := (s.consume .jup p mtCompletion ws).logReport ws

theorem dieProfile_congr {t : State} (hg : t.activeGen p = s.activeGen p) (hp : t.jupC.profile = s.jupC.profile) :
    t.dieProfile p = s.dieProfile p := by
  funext code
  rw [State.dieProfile, hg, hp, State.dieProfile]

theorem logged_frame (s : State) (p : Nat) (ws : List Word) : (s.logged p ws).tsu = s.tsu ∧ (s.logged p ws).tsuC = s.tsuC ∧
    (s.logged p ws).jupC.regs = s.jupC.regs ∧ (s.logged p ws).jup.sevSeen = s.jup.sevSeen ∧
    (s.logged p ws).dieProfile p = s.dieProfile p := by
  obtain ⟨l, n, o, heq⟩ := logReport_frame (s.consume .jup p mtCompletion ws) ws
  rw [State.logged, heq]
  exact ⟨rfl, rfl, rfl, rfl, dieProfile_congr rfl rfl⟩

theorem logged_room (h : s.jup.log.length < 4096) : (s.logged p ws).jup.log = s.jup.log ++ [ws] ∧
    (s.logged p ws).out = s.out ++ [.msix 0] := by
  rw [State.logged, logReport_room (s := s.consume .jup p mtCompletion ws) h]
  exact ⟨rfl, rfl⟩

theorem execFaultReportRx_eq (p : Nat) (ws : List Word) (s : State) : exec (.faultReportRx p ws) s = .next (s.faultReport p ws) := rfl

variable (hcode : (nthW ws 0).extractLsb' 48 16 ∉ [cStepOverrun, cRepeatBroken])
include hcode

theorem faultReport_first (he : fld (nthW ws 0) 39 37 = 0) (hb : (nthW ws 0).extractLsb' 48 16 ≠ cBrownoutHold) :
    s.faultReport p ws = (((s.logged p ws).noteWarn p ((nthW ws 0).extractLsb' 48 16) 0).noteSev p ws).reportOnward p ws := by
  unfold State.faultReport
  simp only [he, noteRepeat_otherCode hcode, noteBrown_otherCode hb, ite_self, if_true]
  rfl

theorem faultReport_severe (he : fld (nthW ws 0) 39 37 = 1) :
    s.faultReport p ws = ((s.logged p ws).noteSev p ws).reportOnward p ws := by
  unfold State.faultReport
  simp only [he, noteRepeat_otherCode hcode, noteWarn_otherEvent (n := 1) (by decide) (by decide), ite_self]
  rfl

theorem faultReport_escalated (he : fld (nthW ws 0) 39 37 = 2) :
    s.faultReport p ws = (((s.logged p ws).reportEscalates p ws).noteSev p ws).reportOnward p ws := by
  unfold State.faultReport
  simp only [he, noteRepeat_otherCode hcode, noteWarn_otherEvent (n := 2) (by decide) (by decide), ite_self]
  rfl

omit hcode in
theorem faultReport_cleared (he : fld (nthW ws 0) 39 37 = 3) :
    s.faultReport p ws = (((s.logged p ws).noteWarn p ((nthW ws 0).extractLsb' 48 16) 3).noteSev p ws).reportOnward p ws := by
  unfold State.faultReport
  simp only [he]
  rfl

end

/-! ## Escalated reports (R132, R320, R325) -/

section
variable {s : State} {p : Nat} {ws : List Word}

/-- The jobs from which an escalated report fences its die. -/
def State.reportJobs (s : State) (p : Nat) (ws : List Word) : List (BitVec 15) :=
  match reportJob ws with | some j => [j] | none => s.jobsAt p

theorem reportEscalates_none (h : fld (nthW ws 0) 36 35 < 2 ∨ s.setsFences = false) : s.reportEscalates p ws = s := by
  unfold State.reportEscalates
  refine if_pos ?_
  rcases h with h | h
  · simp [Nat.not_le.mpr h]
  · simp [h]

theorem reportEscalates_acts (h2 : 2 ≤ fld (nthW ws 0) 36 35) (hs : s.setsFences = true) : s.reportEscalates p ws =
    if fld (nthW ws 0) 36 35 = 2 ∧ !s.gradedReport ws then s.fenceAtCommit p ((nthW ws 0).extractLsb' 48 16) (s.reportJobs p ws)
    else s.escalateDie p (fld (nthW ws 0) 36 35) (s.dieProfile p ((nthW ws 0).extractLsb' 48 16)).hard (s.reportJobs p ws) := by
  unfold State.reportEscalates
  exact if_neg (by simp [h2, hs])

theorem reportEscalates_graded (h : fld (nthW ws 0) 36 35 = 2) (hs : s.setsFences = true) (hg : s.gradedReport ws = true) :
    s.reportEscalates p ws =
      s.escalateDie p 2 (s.dieProfile p ((nthW ws 0).extractLsb' 48 16)).hard (s.reportJobs p ws) := by
  rw [reportEscalates_acts (Nat.le_of_eq h.symm) hs, if_neg (by simp [hg]), h]
theorem reportEscalates_domain (h : fld (nthW ws 0) 36 35 = 3) (hs : s.setsFences = true) :
    s.reportEscalates p ws =
      s.escalateDie p 3 (s.dieProfile p ((nthW ws 0).extractLsb' 48 16)).hard (s.reportJobs p ws) := by
  rw [reportEscalates_acts (by omega) hs, if_neg (by omega), h]
theorem reportEscalates_commit (h : fld (nthW ws 0) 36 35 = 2) (hs : s.setsFences = true) (hg : s.gradedReport ws = false) :
    s.reportEscalates p ws = s.fenceAtCommit p ((nthW ws 0).extractLsb' 48 16) (s.reportJobs p ws) := by
  rw [reportEscalates_acts (Nat.le_of_eq h.symm) hs, if_pos (by simp [h, hg])]

end

end Sys2Proof.Machine
end

section
/-! PROOFS of spec family 11: deferred expulsions, ports returned to service, thermal faults, and the commands of the fault
family together. -/
namespace Sys2Proof.Machine
open Sys2Proof

/-! ## What a fence leaves (R253, R254, R320)

A fence of a rack side is messages, groups aborted and deliveries ended: the deferred expulsions and the die stay. -/

def State.fenceKept (s : State) : List (Nat × Nat) × Tsu × Common := (s.jup.deferred, s.tsu, s.tsuC)

theorem fenceKept_ite {c : Prop} [Decidable c] {s t u : State} (ht : t.fenceKept = s.fenceKept) (hu : u.fenceKept = s.fenceKept) :
    (if c then t else u).fenceKept = s.fenceKept := by split <;> assumption

section
variable (s : State) (p : Nat) (f : Fence) (m : Msg)

theorem fenceKept_send (n : Nat) : (s.send .jup n m).fenceKept = s.fenceKept := rfl
theorem fenceKept_sendAll (ns : List Nat) : (s.sendAll .jup ns m).fenceKept = s.fenceKept :=
  foldl_kept (fun s n => fenceKept_send s m n) ns s
theorem fenceKept_post (h : Half) (st : BitVec 8) (rs : List Word) : (s.post .jup h st rs).fenceKept = s.fenceKept := by
  have hcom : (s.post .jup h st rs).tsuC = s.tsuC := by
    unfold State.post
    dsimp only
    split
    · rfl
    split
    · rfl
    · exact com_postIrq _ _ .tsu _
  have hjup : (s.post .jup h st rs).jup.deferred = s.jup.deferred := (congrArg (fun j : Jup => j.deferred) jup_post :)
  rw [State.fenceKept, hcom, hjup, tsu_post, State.fenceKept]

/-! ### The groups open on a port (R29) -/

theorem fenceKept_warnRefused (r : BitVec 8) (path : BitVec 32) : (s.warnRefused r path).2.fenceKept = s.fenceKept := by
  unfold State.warnRefused
  split
  · rfl
  · split
    · split <;> rfl
    · rfl
theorem fenceKept_discardGroup (h : Half) : (s.discardGroup .jup h).fenceKept = s.fenceKept := by
  unfold State.discardGroup
  split <;> rfl
theorem fenceKept_abortCoord (h : Half) (r : BitVec 8) (path : BitVec 32) : (s.abortCoord .jup h r path).fenceKept = s.fenceKept := by
  unfold State.abortCoord
  split
  · rfl
  · extract_lets links s1 r2
    have hs1 : s1.fenceKept = s.fenceKept := (fenceKept_discardGroup ..).trans (fenceKept_sendAll ..)
    split
    · exact (fenceKept_warnRefused ..).trans hs1
    · exact (fenceKept_post ..).trans hs1
theorem fenceKept_fenceOneGroup (g : MemberGroup) : (s.fenceOneGroup p g).fenceKept = s.fenceKept := by
  refine fenceKept_ite rfl ?_
  split
  · exact fenceKept_ite rfl (fenceKept_abortCoord ..)
  · exact fenceKept_sendAll ..
theorem fenceKept_fenceGroups : (s.fenceGroups p).fenceKept = s.fenceKept :=
  foldl_kept (fun s g => fenceKept_fenceOneGroup s p g) _ s

/-! ### The peer fence (R254) -/

theorem fenceKept_countDiscards (ps : List Nat) : (s.countDiscards ps).fenceKept = s.fenceKept :=
  foldl_kept (g := State.fenceKept) (by intros; rfl) ps s
theorem fenceKept_leave : (s.leave .jup m).fenceKept = s.fenceKept := by
  unfold State.leave
  split
  · exact fenceKept_ite rfl rfl
  · rfl
theorem fenceKept_sendCopies (ps : List Nat) : (s.sendCopies ps m).fenceKept = s.fenceKept := by
  unfold State.sendCopies
  split
  · exact fenceKept_leave ..
  · exact (fenceKept_send ..).trans (fenceKept_sendAll ..)
theorem fenceKept_finishDelivery (x : Delivery) : (s.finishDelivery x).fenceKept = s.fenceKept := by
  unfold State.finishDelivery
  refine fenceKept_ite rfl ?_
  split
  · exact fenceKept_post ..
  · rfl
theorem fenceKept_multicast (n : Nat) (rs : Option (List Word)) : (s.multicast n m rs).fenceKept = s.fenceKept := by
  unfold State.multicast
  extract_lets _ all ok s0 ps s1
  have hs1 : s1.fenceKept = s.fenceKept :=
    (fenceKept_sendCopies ..).trans ((fenceKept_countDiscards ..).trans (fenceKept_ite rfl rfl))
  split
  · exact hs1
  · exact fenceKept_ite ((fenceKept_finishDelivery ..).trans hs1) hs1
theorem fenceKept_peerFence : (s.peerFence p f).fenceKept = s.fenceKept :=
  foldl_kept (fun s _ => foldl_kept (g := State.fenceKept)
    (fun _ _ => fenceKept_ite (fenceKept_multicast ..) ((fenceKept_send ..).trans (fenceKept_multicast ..))) _ s) _ s

/-! ### The fence itself -/

theorem fenceKept_placeFence : (s.placeFence p f).fenceKept = s.fenceKept := by
  unfold State.placeFence
  refine fenceKept_ite (fenceKept_countDiscards ..) ?_
  extract_lets s1 s2
  have hs2 : s2.fenceKept = s.fenceKept := fenceKept_ite (fenceKept_sendAll ..) (fenceKept_sendAll ..)
  exact fenceKept_ite ((fenceKept_peerFence ..).trans hs2) hs2
theorem fenceKept_fencePort : (s.fencePort p f).fenceKept = s.fenceKept := by
  have hafter : (s.afterCommit p f).1.fenceKept = s.fenceKept := by
    unfold State.afterCommit
    split <;> rfl
  exact (fenceKept_placeFence ..).trans ((fenceKept_ite rfl (fenceKept_fenceGroups ..)).trans hafter)
theorem fenceKept_fenceRanks (esc : Nat) (jobs : List (BitVec 15)) (t : Tick) :
    (s.fenceRanks p esc jobs t).fenceKept = s.fenceKept :=
  fenceKept_ite (fenceKept_fencePort ..) (foldl_kept (fun s _ => fenceKept_fencePort s p _) jobs s)

end

/-! ## Deferred expulsions (R325) -/

section
variable {s : State} {p esc : Nat}

theorem execDeferredExpulsion_due (h : s.deferredDue = some (p, esc)) : exec .deferredExpulsion s = .next (s.carryOut p esc) := by
  change execDeferredExpulsion s = _
  rw [execDeferredExpulsion, h]
theorem execDeferredExpulsion_nothing (h : s.jup.deferred = []) : exec .deferredExpulsion s = .next s := by
  change execDeferredExpulsion s = _
  rw [execDeferredExpulsion, State.deferredDue, h]

theorem carryOut_frame : (s.carryOut p esc).jup.deferred = s.jup.deferred.drop 1 ∧ (s.carryOut p esc).tsu = s.tsu ∧
    (s.carryOut p esc).tsuC = s.tsuC := by
  have h : (s.carryOut p esc).fenceKept = (s.jup.deferred.drop 1, s.tsu, s.tsuC) := fenceKept_fenceRanks ..
  simpa only [State.fenceKept, Prod.mk.injEq] using h

end

/-! ## Ports returned to service (R324, R472) -/

section
variable {s : State}

/-- The state that a write of STATE stores in a port's health word. -/
theorem healthState_setHealth (p st : Nat) (hst : st < 4) (h : tok (regReset .jup) none s.jupC.regs = true) :
    (s.setHealth p st).healthState p = st := by
  rw [State.healthState, State.setHealth, reg_setReg _ _ _ _ h]
  have hmask : ∀ i, i < 2 → (0x3FFFFFFF : Half).getLsbD (30 + i) = false := by decide
  have hfield (w : Half) : ((w &&& 0x3FFFFFFF) ||| put 32 31 30 st).extractLsb' 30 2 = BitVec.ofNat 2 st := by
    ext i hi
    have h32 : 30 + i < 32 := by omega
    rw [BitVec.getElem_extractLsb', BitVec.getLsbD_or, BitVec.getLsbD_and, hmask i hi, Bool.and_false, Bool.false_or, getLsbD_put,
      ← BitVec.getLsbD_eq_getElem, BitVec.getLsbD_ofNat]
    simp [h32, hi]
  rw [fld, hfield, BitVec.toNat_ofNat]
  omega

theorem execPortReturnService_expelled {p : BitVec 7} (hp : p.toNat < 88) (hs : s.healthState p.toNat = 3) :
    exec (.portReturnService p) s = .next ((s.setHealth p.toNat 0).modJup fun j =>
      { j with unrestored := p.toNat :: j.unrestored.filter fun q => !decide (q = p.toNat) }) := by
  change execPortReturnService p s = _
  rw [execPortReturnService, if_pos hp, State.portReturn, if_neg (not_not_intro hs)]
theorem execPortReturnService_inService {p : BitVec 7} (hs : s.healthState p.toNat ≠ 3) : exec (.portReturnService p) s = .next s := by
  change execPortReturnService p s = _
  rw [execPortReturnService, State.portReturn, if_pos hs, ite_self]

/-! ## The stale-generation input (R312, R412) -/

theorem execFabricStaleGen_on {c : Fin 8} (h : s.mainOff = false) : exec (.fabricStaleGen c) s = .next (s.stepFault c cStaleGen {}) := by
  change execFabricStaleGen c s = _
  rw [execFabricStaleGen, State.mainIn, h]; rfl
theorem execFabricStaleGen_off {c : Fin 8} (h : s.mainOff = true) : exec (.fabricStaleGen c) s = .next s := by
  change execFabricStaleGen c s = _
  rw [execFabricStaleGen, State.mainIn, h]; rfl

end

/-! ## Thermal faults (R456 to R458) -/

section
variable {s : State} {r : Reading} {v : Int}

/-- A reading at its threshold is kept, and noted. -/
def State.readHot (s : State) (trip : Bool) (r : Reading) (v : Int) : State := (s.setReading r v).noteHot trip r

theorem mem_hot_readHot (s : State) (trip : Bool) (r : Reading) (v : Int) : (trip, r) ∈ (s.readHot trip r v).jup.hot := by
  change (trip, r) ∈ (if s.jup.hot.contains (trip, r) then s.jup.hot else s.jup.hot ++ [(trip, r)])
  split
  · rename_i h
    exact List.contains_iff_mem.mp h
  · simp

theorem execThermalWarn_at (h : thermAt r false v = true) :
    exec (.thermalWarn r v) s = .next ((s.readHot false r v).raiseLevel .jup (blkPower .jup) cThermalWarn {}) := by
  change execThermalWarn r v s = _
  exact due_of h
theorem execThermalWarn_below (h : thermAt r false v = false) : exec (.thermalWarn r v) s = .next s := by
  change execThermalWarn r v s = _
  exact due_unless h

/-- The trip of a board: THERM_TRIP_N falls and every port is DISABLED. -/
def State.tripped (s : State) : State := ((s.modJup fun j => { j with thermTrip := true }).tripPorts).emit (.thermTrip true)

theorem execThermalTrip_at (h : thermAt r true v = true)
    (ht : ((s.readHot true r v).raiseLevel .jup (blkPower .jup) cThermalTrip {}).jup.thermTrip = false) :
    exec (.thermalTrip r v) s = .next ((s.readHot true r v).raiseLevel .jup (blkPower .jup) cThermalTrip {}).tripped := by
  change execThermalTrip r v s = _
  rw [execThermalTrip, due_of h]
  exact congrArg Host.Outcome.next (if_neg (by rw [State.readHot] at ht; rw [ht]; exact Bool.false_ne_true))
theorem execThermalTrip_below (h : thermAt r true v = false) : exec (.thermalTrip r v) s = .next s := by
  change execThermalTrip r v s = _
  exact due_unless h

/-! ### What a level of the Jupin leaves -/

theorem tsu_raiseLevel (b : Nat) (code : Code) (ctx : Ctx) : (s.raiseLevel .jup b code ctx).tsu = s.tsu := by
  unfold State.raiseLevel
  split
  · rfl
  · have hok : s.SeverityOk .jup := fun h => by cases h
    rw [tsu_modBlock, raiseFault_severityOk hok, tsu_latchFault]

/-- A level that begins is latched and stands in its block. -/
theorem fblock_raiseLevel_begins {d : Dev} {b : Nat} {code : Code} {ctx : Ctx} (hok : s.SeverityOk d)
    (h : (code, ctx.word) ∉ (s.fblock d b).levels) : ((s.raiseLevel d b code ctx).fblock d b).valid = true ∧
      ((s.raiseLevel d b code ctx).fblock d b).levels = (s.fblock d b).levels ++ [(code, ctx.word)] := by
  rw [raiseLevel_begins h, raiseFault_severityOk hok,
    fblock_modBlock_ne fun hne => List.append_ne_nil_of_right_ne_nil _ (List.cons_ne_nil _ _) (congrArg FaultBlock.levels hne),
    fblock_latchFault]
  exact ⟨valid_record, congrArg (· ++ _) levels_record⟩

/-! ### The ports of a trip -/

theorem disable_modCtl {d : Dev} {n k : Nat} {f : LinkCtl → LinkCtl} (hf : (f (s.link d n).ctl).disable = true ∨ k ≠ n)
    (hk : k ≠ n → (s.link d k).ctl.disable = true) : ((s.modCtl d n f).link d k).ctl.disable = true := by
  by_cases h : k = n
  · subst h
    have hd : (f (s.link d k).ctl).disable = true := hf.resolve_right (not_not_intro rfl)
    rw [link_modCtl fun he => Bool.noConfusion (hd.symm.trans (congrArg (fun l : Link => l.ctl.disable) he : _ = false))]
    exact hd
  · rw [State.modCtl, link_modLink_other h]
    exact hk h

/-- One port of a trip: DOWN, and DISABLED. -/
def State.tripPort (s : State) (n : Nat) : State := (s.linkToDown .jup n).modCtl .jup n fun c => { c with disable := true }

theorem disable_linkToDown {n k : Nat} (h : (s.link .jup k).ctl.disable = true) : ((s.linkToDown .jup n).link .jup k).ctl.disable = true := by
  refine disable_modCtl ?_ fun _ => h
  by_cases hk : k = n
  · exact .inl (hk ▸ h)
  · exact .inr hk
theorem disable_tripPort_self (s : State) (n : Nat) : ((s.tripPort n).link .jup n).ctl.disable = true := by
  rw [State.tripPort]
  exact disable_modCtl (.inl rfl) fun h => absurd rfl h
theorem disable_tripPort_keeps {n k : Nat} (h : (s.link .jup k).ctl.disable = true) : ((s.tripPort n).link .jup k).ctl.disable = true := by
  rw [State.tripPort]
  exact disable_modCtl (.inl rfl) fun _ => disable_linkToDown h

theorem disable_foldl_tripPort {k : Nat} (ns : List Nat) (h : k ∈ ns ∨ (s.link .jup k).ctl.disable = true) :
    ((ns.foldl State.tripPort s).link .jup k).ctl.disable = true := by
  induction ns generalizing s with
  | nil => exact h.resolve_left List.not_mem_nil
  | cons n ns ih =>
    refine ih ?_
    rcases h with h | h
    · rcases List.mem_cons.mp h with rfl | h
      · exact .inr (disable_tripPort_self s k)
      · exact .inl h
    · exact .inr (disable_tripPort_keeps h)

theorem tripPorts_eq (s : State) : s.tripPorts = (List.range 96).foldl State.tripPort s := rfl
theorem disable_tripPorts {n : Nat} (hn : n < 96) : ((s.tripPorts).link .jup n).ctl.disable = true := by
  rw [tripPorts_eq]
  exact disable_foldl_tripPort _ (.inl (List.mem_range.mpr hn))
theorem tripPorts_frame (s : State) : s.tripPorts.jup = s.jup ∧ s.tripPorts.tsu = s.tsu := by
  rw [tripPorts_eq]
  exact Prod.mk.inj (foldl_kept (g := fun s : State => (s.jup, s.tsu)) (by intros; rfl) (List.range 96) s)

theorem link_emit (o : Out) (d : Dev) (n : Nat) : (s.emit o).link d n = s.link d n := by
  rw [State.link, com_emit, State.link]

theorem tripped_frame (s : State) : s.tripped.jup.thermTrip = true ∧ Out.thermTrip true ∈ s.tripped.out ∧
    (∀ n, n < 96 → (s.tripped.link .jup n).ctl.disable = true) ∧ s.tripped.tsu = s.tsu := by
  obtain ⟨hjup, htsu⟩ := tripPorts_frame (s.modJup fun j => { j with thermTrip := true })
  unfold State.tripped
  refine ⟨by rw [jup_emit, hjup, jup_modJup], ?_, fun n hn => ?_, by rw [tsu_emit, htsu, tsu_modJup]⟩
  · rw [out_emit_driven _ _ (.inl rfl)]
    exact List.mem_append_right _ (List.mem_singleton.mpr rfl)
  · rw [link_emit]
    exact disable_tripPorts hn

/-! ### The thresholds, and the end of a condition -/

theorem execThermalClear_last {trip : Bool} {u : State} (hu : u = s.modJup fun j => { j with hot := j.hot.filter fun e => !decide (e = (trip, r)) })
    (h : (u.jup.hot.any fun e => decide (e.1 = trip)) = false) : exec (.thermalClear r trip) s =
      .next (u.endLevel .jup (blkPower .jup) (if trip then cThermalTrip else cThermalWarn) {}) := by
  subst hu
  exact congrArg Host.Outcome.next (if_neg (by rw [h]; exact Bool.false_ne_true))
theorem execThermalClear_others {trip : Bool} {u : State} (hu : u = s.modJup fun j => { j with hot := j.hot.filter fun e => !decide (e = (trip, r)) })
    (h : (u.jup.hot.any fun e => decide (e.1 = trip)) = true) : exec (.thermalClear r trip) s = .next u := by
  subst hu
  exact congrArg Host.Outcome.next (if_pos h)

end

/-- Settles O51: each command of the fault family has one equation per case; what an outcome leaves is read off the block written,
and off the frames of a report, of a fence and of the channels held. -/
theorem faultsCommanded : Obligations.FaultsCommanded := by
  refine ⟨?clear, fun d b s h => congrArg Host.Outcome.next (clearSevere_none h), ?severeClear,
    fun d b c s => execGradingWindowClose_due, fun d b c s => execGradingWindowClose_early, fun d b s => execGraceExpiry_due, ?grace,
    fun d b s => execGraceExpiry_early, ?arm, fun table ch w src s => execFltInjArm_denied,
    fun table ch w src s => execFltInjArm_reserved, ?digest, fun g src s => execInjDigestArm_denied,
    fun p ws s => execFaultReportRx_eq p ws s, ?severe, ?escalated, fun p ws s => reportEscalates_none,
    fun p ws s => reportEscalates_graded, fun p ws s => reportEscalates_domain, fun p ws s => reportEscalates_commit, ?warnEnds,
    ?first, ?warnBegins, ?logged, fun ws s => logReport_full, fun n s => ⟨_, rfl, rfl, rfl, rfl, rfl⟩,
    fun s => ⟨_, rfl, rfl, rfl, rfl, rfl⟩, fun p s => execPortReturnService_expelled, ?returned,
    fun p s => execPortReturnService_inService, fun p esc s => execDeferredExpulsion_due,
    fun p esc s h => ⟨_, execDeferredExpulsion_due h, carryOut_frame⟩, fun s => execDeferredExpulsion_nothing,
    fun c s => execFabricStaleGen_on, fun c s => execFabricStaleGen_off, fun r v s => execThermalWarn_at, ?warn,
    fun r v s => execThermalWarn_below, fun r v s => execThermalTrip_at, fun r v s => execThermalTrip_below, ?trip,
    fun r trip s u => execThermalClear_last, fun r trip s u => execThermalClear_others, ?limits⟩
  case clear =>
    intro d b s hd hv hwf
    refine ⟨_, rfl, ?_⟩
    rw [fblock_clearFault hd hv hwf]
    exact ⟨rfl, rfl, rfl, rfl, rfl, rfl, rfl, rfl, fun k => fblock_clearFault_other hd hv⟩
  case severeClear =>
    intro b s hs ht hwf
    obtain ⟨hblock, hothers⟩ := fblock_clearSevere hs ht hwf
    refine ⟨_, rfl, ?_⟩
    rw [hblock]
    exact ⟨rfl, rfl, rfl, rfl, rfl, hothers⟩
  case grace =>
    intro b s h
    have hsev := sev_of_graceDue h
    obtain ⟨hblock, hregs, hjup⟩ := graceEnd_escalates hsev
    refine ⟨_, execGraceExpiry_due h, ?_⟩
    rw [hblock]
    exact ⟨rfl, hsev, rfl, hregs, hjup⟩
  case arm =>
    rintro t c table ch w src s rfl rfl ht hd
    exact execFltInjArm_armed ht hd
  case digest =>
    intro g src s hd
    refine ⟨_, execInjDigestArm_armed hd, ?_, rfl, rfl⟩
    rw [grpStat_modGrp fun h => Bool.noConfusion (congrArg GrpStat.inj h)]
  case severe =>
    rintro p ws c s he rfl hc hn
    obtain ⟨hjup, htsu, -⟩ := noteSev_reportOnward_frame (s.logged p ws) p ws
    obtain ⟨ltsu, -, -, lsev, lprof⟩ := logged_frame s p ws
    refine ⟨_, execFaultReportRx_eq p ws s, ?_⟩
    rw [faultReport_severe hc he, htsu, hjup, sevSeen_noteSev_severe he (lsev ▸ hn), lsev, lprof]
    exact ⟨ltsu, rfl⟩
  case escalated =>
    intro p ws s he hc
    have hc' : (nthW ws 0).extractLsb' 48 16 ∉ [cStepOverrun, cRepeatBroken] := fun h => hc (List.mem_append_left [cSupplyWarn] h)
    rw [execFaultReportRx_eq, faultReport_escalated hc' he]
    rfl
  case warnEnds =>
    intro p ws s he hcount hcode
    obtain ⟨hjup, htsu, -⟩ := noteSev_reportOnward_frame ((s.logged p ws).noteWarn p cSupplyWarn 3) p ws
    obtain ⟨wjup, wtsu, -⟩ := noteWarn_frame (s.logged p ws) p cSupplyWarn 3
    obtain ⟨ltsu, -, -, lsev, -⟩ := logged_frame s p ws
    have hsev : ((s.logged p ws).noteWarn p cSupplyWarn 3).jup.sevSeen = s.jup.sevSeen :=
      (congrArg (fun j : Jup => j.sevSeen) wjup :).trans lsev
    refine ⟨_, execFaultReportRx_eq p ws s, ?_⟩
    rw [faultReport_cleared he, hcode, hjup, htsu, sevSeen_noteSev_cleared he hcount, hsev]
    exact ⟨not_mem_warned_noteWarn _ _, rfl, wtsu.trans ltsu⟩
  case first =>
    intro p ws s he hroom hc
    simp only [List.mem_cons, List.not_mem_nil, or_false, not_or] at hc
    obtain ⟨hoverrun, hrepeat, hbrown, hwarn⟩ := hc
    obtain ⟨hjup, htsu, htsuC, hout, hregs⟩ := noteSev_reportOnward_frame (s.logged p ws) p ws
    obtain ⟨ltsu, ltsuC, lregs, -⟩ := logged_frame s p ws
    obtain ⟨llog, lout⟩ := logged_room (p := p) hroom
    refine ⟨_, execFaultReportRx_eq p ws s, ?_⟩
    rw [faultReport_first (by simp [hoverrun, hrepeat]) he hbrown, noteWarn_otherCode hwarn, hjup, htsu, htsuC, hout, hregs]
    exact ⟨llog, lout, lregs, ltsu, ltsuC⟩
  case warnBegins =>
    intro p ws s he hroom hcode
    obtain ⟨hjup, -, -, -, hregs⟩ := noteSev_reportOnward_frame ((s.logged p ws).noteWarn p cSupplyWarn 0) p ws
    obtain ⟨wjup, -, wcom⟩ := noteWarn_frame (s.logged p ws) p cSupplyWarn 0
    obtain ⟨-, -, lregs, -⟩ := logged_frame s p ws
    obtain ⟨llog, -⟩ := logged_room (p := p) hroom
    have hlog : ((s.logged p ws).noteWarn p cSupplyWarn 0).jup.log = s.jup.log ++ [ws] :=
      (congrArg (fun j : Jup => j.log) wjup :).trans llog
    refine ⟨_, execFaultReportRx_eq p ws s, ?_⟩
    rw [faultReport_first (by rw [hcode]; decide) he (by rw [hcode]; decide), hcode, hjup, hregs, wcom]
    exact ⟨hlog, mem_warned_noteWarn .., lregs⟩
  case logged =>
    intro ws s h
    rw [logReport_room h]
    exact ⟨rfl, rfl⟩
  case returned =>
    intro p s hp hs hreg
    exact ⟨_, execPortReturnService_expelled hp hs, healthState_setHealth _ 0 (by decide) hreg, List.mem_cons_self, rfl, rfl⟩
  case warn =>
    intro r v s h hwf hl
    have hlevel : (cThermalWarn, ({} : Ctx).word) ∉ ((s.readHot false r v).fblock .jup (blkPower .jup)).levels :=
      mt (levels_any_iff ..).mpr (by rw [Bool.not_eq_true]; exact hl)
    obtain ⟨hvalid, hlevels⟩ := fblock_raiseLevel_begins (s := s.readHot false r v) (fun h => by cases h) hlevel
    have hsans := sansFaults_raiseLevel (s.readHot false r v) .jup (blkPower .jup) cThermalWarn {}
    have hreading : ((s.readHot false r v).raiseLevel .jup (blkPower .jup) cThermalWarn {}).jup.readings =
        tset 0 s.jup.readings (readingIx r) (BitVec.ofInt 16 v) := (congrArg (fun x : State => x.jup.readings) hsans :)
    have hhot : ((s.readHot false r v).raiseLevel .jup (blkPower .jup) cThermalWarn {}).jup.hot = (s.readHot false r v).jup.hot :=
      (congrArg (fun x : State => x.jup.hot) hsans :)
    refine ⟨_, execThermalWarn_at h, ?_, hvalid, ?_, hlevels, (congrArg (fun x : State => x.jupC.regs) hsans :), tsu_raiseLevel ..⟩
    · rw [hreading]
      exact tget_tset_same _ _ _ _ hwf
    · rw [hhot]
      exact mem_hot_readHot ..
  case trip =>
    intro r v s h ht
    have hkept : ((s.readHot true r v).raiseLevel .jup (blkPower .jup) cThermalTrip {}).jup.thermTrip = false :=
      (congrArg (fun x : State => x.jup.thermTrip) (sansFaults_raiseLevel ..) :).trans ht
    obtain ⟨htrip, hout, hports, htsu⟩ := tripped_frame ((s.readHot true r v).raiseLevel .jup (blkPower .jup) cThermalTrip {})
    exact ⟨_, execThermalTrip_at h hkept, htrip, hout, hports, htsu.trans (tsu_raiseLevel ..)⟩
  case limits =>
    intro v
    simp [thermAt, thermLimit]

end Sys2Proof.Machine
end

section
/-! PROOFS of spec family 11: supply warnings, and the time that the low rate begins and ends. -/
namespace Sys2Proof.Machine
open Sys2Proof

/-! ## The low rate (R60, R99, R110) -/

theorem fields_of_sansSteering_tsu {s t : State} (h : t.sansSteering .tsu = s.sansSteering .tsu) : t.tsu = s.tsu ∧ t.jup = s.jup ∧
    t.tsuC.regs = s.tsuC.regs ∧ t.tsuC.sev = s.tsuC.sev :=
  ⟨(congrArg State.tsu h :), (congrArg State.jup h :), (congrArg (fun x : State => x.tsuC.regs) h :),
    (congrArg (fun x : State => x.tsuC.sev) h :)⟩

section
variable (s : State)

/-- The Clock Room follows the always-on uplink, before the exchanges go to the low rate. -/
def State.steerLow : State :=
  if s.tsuC.cr.state = .track then
    ((s.switchRef .tsu s.aonUplink).modCr .tsu fun c => { c with state := .lowrate }).modTime .tsu fun t =>
      { t with state := if t.state = .locked then .degraded else t.state, holdSince := none }
  else s

theorem sansSteering_steerLow : s.steerLow.sansSteering .tsu = s.sansSteering .tsu := by
  unfold State.steerLow
  split
  · rw [sansSteering_modTime, sansSteering_modCr, sansSteering_switchRef]
  · rfl

theorem enterLowRate_frame : s.enterLowRate.tsu = s.tsu ∧ s.enterLowRate.jup = s.jup ∧ s.enterLowRate.tsuC.regs = s.tsuC.regs ∧
    s.enterLowRate.tsuC.sev = s.tsuC.sev :=
  fields_of_sansSteering_tsu (s := s) (t := s.steerLow) (sansSteering_steerLow s)

theorem lowRate_enterLowRate : s.enterLowRate.tsuC.time.lowRate = true := rfl

theorem leaveLowRate_frame : s.leaveLowRate.tsu = s.tsu ∧ s.leaveLowRate.jup = s.jup := by
  have h : s.leaveLowRate.sansSteering .tsu = s.sansSteering .tsu := by
    unfold State.leaveLowRate
    dsimp only
    split
    · rw [sansSteering_crSelect, sansSteering_modCr, sansSteering_modTime]
    · exact sansSteering_modTime ..
  obtain ⟨htsu, hjup, -⟩ := fields_of_sansSteering_tsu h
  exact ⟨htsu, hjup⟩

end

/-! ## SUPPLY_WARN (R336) -/

section
variable {s : State}

/-- A warning that begins in the power manager's own record. -/
def Power.warned (p : Power) (now : Tick) : Power := { p with warn := true, warnAt := now, fenced := false, warnCnt := satInc p.warnCnt }

theorem execSupplyWarn_begins (hw : s.power.warn = false) (hs : s.power.state ≠ 4) (hd : s.power.darkWake = false) :
    exec .supplyWarn s = .next ((((s.raiseLevel .tsu (blkPower .tsu) cSupplyWarn {}).modPower fun p =>
      p.warned (s.now .tsu)).enterLowRate).wantHoldAll 6) := by
  change execSupplyWarn s = _
  exact due_of (by rw [hw, hd, decide_eq_true hs]; rfl)

theorem execSupplyWarn_ignored (h : s.power.warn = true ∨ s.power.state = 4 ∨ s.power.darkWake = true) : exec .supplyWarn s = .next s := by
  change execSupplyWarn s = _
  refine due_unless ?_
  rcases h with h | h | h <;> simp [h]

/-! ## The end of a warning (R337, R338) -/

/-- A warning that has ended in the power manager's own record. -/
def Power.ended (p : Power) (dur : Nat) : Power := { p with warn := false, lastDur := BitVec.ofNat 16 (min 0xFFFF (dur / 64)) }

/-- Ticks that the present warning has lasted. -/
def State.warnTicks (s : State) : Nat := (s.now .tsu).toNat - s.power.warnAt.toNat

/-- The warning is over: the full rate resumes, and the level ends. -/
def State.warnOver (s : State) : State :=
  (s.modPower fun p => p.ended s.warnTicks).leaveLowRate.endLevel .tsu (blkPower .tsu) cSupplyWarn {}

theorem warnOver_frame (s : State) : s.warnOver.tsu.power = s.tsu.power.ended s.warnTicks ∧ s.warnOver.jup = s.jup := by
  obtain ⟨htsu, hjup⟩ := leaveLowRate_frame (s.modPower fun p => p.ended s.warnTicks)
  rw [State.warnOver, State.endLevel, tsu_modBlock, jup_modBlock, htsu, hjup]
  exact ⟨rfl, rfl⟩

theorem execSupplyWarnClear_none {ok : Bool} (h : s.power.warn = false) : exec (.supplyWarnClear ok) s = .next s := by
  change execSupplyWarnClear ok s = _
  exact due_unless h

theorem execSupplyWarnClear_ends {ok : Bool} (h : s.power.warn = true) : exec (.supplyWarnClear ok) s = .next (
    if s.warnTicks ≤ 32000 then s.warnOver.reportReady
    else if s.power.fenced then s.warnOver
    else if s.warnTicks ≤ 160000 ∧ ok then s.warnOver.reportReady
    else (s.warnOver.raiseFault .tsu (blkImage .tsu) cImageSectionBad {}).orderlyFence cBrownoutFence) := by
  change execSupplyWarnClear ok s = _
  rw [execSupplyWarnClear, due_of h]
  rfl

/-! ## The orderly fence (R338) -/

/-- The steps of an orderly fence that run are stopped, and its fault is raised. -/
def State.fenceStops (s : State) (code : Code) : State :=
  ((chanNums.filter fun c => decide ((s.chan c).state = .running)).foldl (fun s c => s.stopStep c 6 code {}) s).raiseFault .tsu
    (blkPower .tsu) code {}

theorem sansStep_fenceStops (s : State) (code : Code) : (s.fenceStops code).sansStep = s.sansStep :=
  (sansStep_raiseFault ..).trans (foldl_kept (fun s c => sansStep_stopStep s c 6 code {}) _ s)

theorem power_modPower (s : State) (f : Power → Power) : (s.modPower f).tsu.power = f s.tsu.power := rfl
theorem jup_modPower (s : State) (f : Power → Power) : (s.modPower f).jup = s.jup := rfl
theorem fblock_modPower (s : State) (f : Power → Power) (d : Dev) (b : Nat) : (s.modPower f).fblock d b = s.fblock d b := by
  rw [State.fblock, State.modPower, com_modTsu, State.fblock]

theorem orderlyFence_eq (s : State) (code : Code) : ∃ ws,
    s.orderlyFence code = ((s.fenceStops code).modPower fun p => { p with fenced := true }).report .tsu ws := ⟨_, rfl⟩

/-- An orderly fence leaves of the power manager all but its own mark, and the Jupin as it is. -/
theorem orderlyFence_frame (s : State) (code : Code) : (s.orderlyFence code).tsu.power = { s.tsu.power with fenced := true } ∧
    (s.orderlyFence code).jup = s.jup := by
  obtain ⟨ws, heq⟩ := orderlyFence_eq s code
  obtain ⟨hpower, hjup, -⟩ := fields_of_sansStep (sansStep_report ((s.fenceStops code).modPower fun p => { p with fenced := true }) ws)
  obtain ⟨hpower', hjup', -⟩ := fields_of_sansStep (sansStep_fenceStops s code)
  rw [heq, hpower, hjup, power_modPower, jup_modPower, hpower', hjup']
  exact ⟨rfl, rfl⟩

theorem valid_orderlyFence (s : State) (code : Code) : ((s.orderlyFence code).fblock .tsu (blkPower .tsu)).valid = true := by
  obtain ⟨ws, heq⟩ := orderlyFence_eq s code
  rw [heq, fblock_report, fblock_modPower, State.fenceStops, State.raiseFault]
  exact valid_latchFault ..

/-- Whatever the end of a warning goes on to, the power manager has it as ended. -/
theorem execSupplyWarnClear_frame {ok : Bool} (h : s.power.warn = true) : ∃ t, exec (.supplyWarnClear ok) s = .next t ∧
    (∃ fenced, t.tsu.power = { s.warnOver.tsu.power with fenced := fenced }) ∧ t.jup = s.warnOver.jup := by
  obtain ⟨hready, hreadyJup, -⟩ := fields_of_sansStep (sansStep_report s.warnOver
    (s.warnOver.reportWords .tsu cSupplyWarn (blkPower .tsu) 3 0 false (s.warnOver.now .tsu) ({} : Ctx).word 0))
  obtain ⟨hfault, hfaultJup, -⟩ := fields_of_sansStep (sansStep_raiseFault s.warnOver (blkImage .tsu) cImageSectionBad {})
  obtain ⟨hfence, hfenceJup⟩ := orderlyFence_frame (s.warnOver.raiseFault .tsu (blkImage .tsu) cImageSectionBad {}) cBrownoutFence
  refine ⟨_, execSupplyWarnClear_ends h, ?_⟩
  split
  · exact ⟨⟨_, hready⟩, hreadyJup⟩
  split
  · exact ⟨⟨_, rfl⟩, rfl⟩
  split
  · exact ⟨⟨_, hready⟩, hreadyJup⟩
  · rw [hfence, hfault, hfenceJup, hfaultJup]
    exact ⟨⟨_, rfl⟩, rfl⟩

theorem execBrownoutFence_due (hw : s.power.warn = true) (hf : s.power.fenced = false)
    (ht : s.power.warnAt.toNat + 160000 ≤ (s.now .tsu).toNat) : exec .brownoutFence s = .next (s.orderlyFence cBrownoutFence) := by
  change execBrownoutFence s = _
  exact due_of (by simp [hw, hf, ht])
theorem execBrownoutFence_early (ht : (s.now .tsu).toNat < s.power.warnAt.toNat + 160000) : exec .brownoutFence s = .next s := by
  change execBrownoutFence s = _
  exact due_unless (by simp [Nat.not_le.mpr ht])

end

end Sys2Proof.Machine
end

section
/-! PROOFS of spec family 11: power states, resets of the die, and the supply, power and reset commands together. -/
namespace Sys2Proof.Machine
open Sys2Proof

/-! ## WAKE_START (R393, R397) -/

section
variable {s : State}

theorem execWakeStart_due (h : s.wakeDue = true) : exec .wakeStart s = .next s.startWake := by
  change execWakeStart s = _
  exact due_of h

theorem execWakeStart_ignored (h : s.power.state = 0 ∨ s.power.waking = true) : exec .wakeStart s = .next s := by
  change execWakeStart s = _
  refine due_unless ?_
  unfold State.wakeDue
  rcases h with h | h <;> simp [h]

theorem out_startWake (s : State) : s.startWake.out = s.out ++ [.pwrReq 0] := by
  rw [State.startWake, out_emit_driven _ _ (.inl rfl)]; rfl

end

/-! ## PM_STATE_CHANGE (R379, R381, R397) -/

section
variable {s : State} {k : Nat}

/-- The state in force in the power manager's own record, as it is reported. -/
def Power.reported (p : Power) (k : Nat) : Power :=
  { p with state := BitVec.ofNat 3 k, entries := if p.state.toNat < k then tmod 0 p.entries k satInc else p.entries,
           waking := p.waking && decide (k ≠ 0) || p.darkWake }
def State.stateReported (s : State) (k : Nat) : State := s.modPower (Power.reported · k)

theorem toNat_ne_four {x : BitVec 3} (h : x ≠ 4) : x.toNat ≠ 4 := fun hx => h (BitVec.eq_of_toNat_eq hx)

theorem openPending_frame (s : State) : s.openPending.tsu = s.tsu ∧ s.openPending.jup = s.jup := by
  unfold State.openPending
  split <;> exact ⟨rfl, rfl⟩
theorem openPending_none (h : s.tsuC.sec.pending = false) : s.openPending = s := if_neg (by simp [h])

/-- What a state reported means to the main rail, before a session that waits is opened. -/
def State.railMoved (s : State) (k : Nat) : State :=
  if k = 4 ∧ s.power.state.toNat ≠ 4 then (s.stateReported k).enterDark
  else if s.power.state.toNat = 4 ∧ k ≠ 4 then (s.stateReported k).leaveLowRate.deliverHeld else s.stateReported k

theorem powerNow_eq (s : State) (k : Nat) : s.powerNow k = if k ≤ 2 then (s.railMoved k).openPending else s.railMoved k := rfl

/-- Between two states that keep the main rail, only the record of the power manager changes. -/
theorem powerNow_railOn (hk : k ≠ 4) (hs : s.power.state ≠ 4) (hp : s.tsuC.sec.pending = false) : s.powerNow k = s.stateReported k := by
  have hmoved : s.railMoved k = s.stateReported k := by
    rw [State.railMoved, if_neg fun h => hk h.1, if_neg fun h => toNat_ne_four hs h.1]
  rw [powerNow_eq, hmoved, openPending_none (s := s.stateReported k) hp, ite_self]

theorem powerNow_dark (hs : s.power.state ≠ 4) : s.powerNow 4 = (s.stateReported 4).enterDark := by
  rw [powerNow_eq, if_neg (by decide), State.railMoved, if_pos ⟨rfl, toNat_ne_four hs⟩]

theorem railMoved_fromDark (hk : k ≠ 4) (hs : s.power.state = 4) : s.railMoved k = (s.stateReported k).leaveLowRate.deliverHeld := by
  rw [State.railMoved, if_neg fun h => hk h.1, if_pos ⟨by rw [hs]; rfl, hk⟩]

/-- With nothing in the receive buffers, a die that leaves DARK delivers nothing. -/
theorem deliverHeld_none (h : s.tsu.power.held = []) : s.deliverHeld = s.modPower fun p => { p with held := [] } := by
  unfold State.deliverHeld
  rw [h]
  rfl

theorem powerNow_fromDark_frame (hk : k ≠ 4) (hs : s.power.state = 4) (hh : s.power.held = []) :
    (s.powerNow k).tsu.power = { s.power.reported k with held := [] } ∧ (s.powerNow k).jup = s.jup := by
  obtain ⟨htsu, hjup⟩ := leaveLowRate_frame (s.stateReported k)
  have hheld : (s.stateReported k).leaveLowRate.tsu.power.held = [] := by rw [htsu]; exact hh
  have hmoved : (s.railMoved k).tsu.power = { s.power.reported k with held := [] } ∧ (s.railMoved k).jup = s.jup := by
    rw [railMoved_fromDark hk hs, deliverHeld_none hheld]
    exact ⟨congrArg (fun t : Tsu => { t.power with held := [] }) htsu, hjup⟩
  obtain ⟨otsu, ojup⟩ := openPending_frame (s.railMoved k)
  rw [powerNow_eq]
  split
  · rw [otsu, ojup]; exact hmoved
  · exact hmoved

/-! ### Entering DARK -/

/-- What DARK loses before the main domain enters its reset. -/
def State.darkLoss (s : State) : State :=
  (s.loseTables.enterLowRate.modSec .tsu Security.endSession).linkToDown .tsu (1 - s.aonUplink)

theorem enterDark_eq (s : State) :
    s.enterDark = (s.darkLoss.modPower fun p => { p with mainUp := false, mainHold := 64 }).emit (.mainRst false) := rfl

theorem darkLoss_frame (s : State) : s.darkLoss.tsu.power = s.tsu.power ∧ s.darkLoss.tsuC.sec.session = .none ∧ s.darkLoss.tsuC.sev = [] := by
  obtain ⟨htsu, -, -, hsev⟩ := enterLowRate_frame s.loseTables
  exact ⟨(congrArg Tsu.power htsu :), rfl, hsev⟩

theorem enterDark_frame (s : State) : s.enterDark.tsu.power = { s.tsu.power with mainUp := false, mainHold := 64 } ∧
    s.enterDark.tsuC.sec.session = .none ∧ s.enterDark.tsuC.sev = [] ∧ Out.mainRst false ∈ s.enterDark.out := by
  obtain ⟨hpower, hsession, hsev⟩ := darkLoss_frame s
  rw [enterDark_eq, out_emit_driven _ _ (.inl rfl)]
  exact ⟨congrArg (fun p : Power => { p with mainUp := false, mainHold := 64 }) hpower, hsession, hsev,
    List.mem_append_right _ (List.mem_singleton.mpr rfl)⟩

end

/-! ## LATE_WAKE and MAIN_RESET_RELEASE (R398, R399, R402) -/

section
variable {s : State}

theorem execLateWake_late (hw : s.power.waking = true) (hs : s.power.state ≠ 0) (ht : s.power.wakeBy ≤ s.now .tsu) :
    exec .lateWake s = .next ((chanNums.filter fun c => decide ((s.chan c).state = .running)).foldl
      (fun s c => s.modProg c fun p => { p with lateNext := true }) s) := by
  change execLateWake s = _
  exact due_of (by rw [hw, decide_eq_true hs, decide_eq_true ht]; rfl)

theorem execMainResetRelease_ignored (h : s.power.mainUp = true ∨ s.power.mainHold ≠ 0) : exec .mainResetRelease s = .next s := by
  change execMainResetRelease s = _
  exact due_unless (by rcases h with h | h <;> simp [h])

theorem execMainResetRelease_plain (hu : s.power.mainUp = false) (hm : s.power.mainHold = 0) (hd : s.power.darkWake = false)
    (hr : s.power.rstPend = none) :
    exec .mainResetRelease s = .next ((s.modPower fun p => { p with mainUp := true }).emit (.mainRst true)) := by
  change execMainResetRelease s = _
  rw [execMainResetRelease, due_of (by rw [hu, hm]; rfl), State.mainRelease, hd, hr]
  rfl

/-! ## Resets of the die (R401, R402, R406) -/

theorem execMainRailFall_dark (h : s.power.state = 4) : exec .mainRailFall s = .next s := by
  change execMainRailFall s = _
  exact due_unless (decide_eq_false (not_not_intro h))
theorem execMainRailFall_on (h : s.power.state ≠ 4) : exec .mainRailFall s = .next (s.dieReset 1) := by
  change execMainRailFall s = _
  exact due_of (decide_eq_true h)

theorem execDieResetInput_pll : (s.power.mainUp = true → exec (.dieResetInput true) s = .next (s.dieReset 2)) ∧
    (s.power.mainUp = false → exec (.dieResetInput true) s = .next s) := by
  change (_ → execDieResetInput true s = _) ∧ (_ → execDieResetInput true s = _)
  exact ⟨fun h => due_of (by rw [h]; rfl), fun h => due_unless (by rw [h]; rfl)⟩

theorem execDieRst_bound (h : s.anyBound = true) : exec .dieRst s = .next (s.modPower fun p => { p with rstErr := 2 }) :=
  congrArg Host.Outcome.next (if_pos h)
theorem execDieRst_unbound (h : s.anyBound = false) : exec .dieRst s = .next (s.dieReset 4) :=
  congrArg Host.Outcome.next (if_neg (by simp [h]))

theorem dieReset_dark {c : BitVec 4} (h : s.power.state = 4) : s.dieReset c = s.modPower fun p => { p with rstPend := some c } := if_pos h

/-! What a die reset does before it clears the main domain leaves Hall time. -/

theorem time_post (s : State) (h : Half) (st : BitVec 8) (rs : List Word) : (s.post .tsu h st rs).tsuC.time = s.tsuC.time := by
  unfold State.post
  dsimp only
  split
  · rfl
  split
  · rfl
  · exact (congrArg Common.time (com_postIrq _ _ .tsu _) :)

theorem time_abandon (s : State) : s.abandon.tsuC.time = s.tsuC.time :=
  foldl_kept (g := fun s : State => s.tsuC.time) (fun _ _ => time_post ..) _ s

theorem sansStep_stopAll (s : State) : s.stopAll.sansStep = s.sansStep :=
  foldl_kept (g := State.sansStep) (fun s c => (sansStep_cancelWaits ((s.stopStreams c).emit (.shd c false)) c).trans rfl) _ s

theorem time_stopAll (s : State) : s.stopAll.tsuC.time = s.tsuC.time := by
  obtain ⟨-, -, -, htime, -⟩ := fields_of_sansStep (sansStep_stopAll s)
  exact htime

theorem dieReset_frame {c : BitVec 4} (h : s.power.state ≠ 4) : (s.dieReset c).tsu.power.cause = c ∧
    (s.dieReset c).tsu.power.mainUp = false ∧ (s.dieReset c).tsu.power.rstTick = s.now .tsu ∧ (s.dieReset c).tsu.power.mainHold = 64 ∧
    (s.dieReset c).tsu.chans = [] ∧ (s.dieReset c).tsuC.blocks = [] ∧ (s.dieReset c).tsuC.time = s.tsuC.time := by
  have htime : s.abandon.stopAll.loseTables.tsuC.time = s.tsuC.time := (time_stopAll s.abandon).trans (time_abandon s)
  unfold State.dieReset
  rw [if_neg h]
  generalize s.abandon.stopAll.loseTables = t at htime ⊢
  exact ⟨rfl, rfl, rfl, rfl, rfl, rfl, htime⟩

/-! ## Power-on reset (R401) -/

theorem powerOn_session (s : State) {u : Nat} (hu : u < 2) : (s.powerOn.link .tsu u).ctl.session = (s.link .tsu u).ctl.session + 1 := by
  have hwf : Table.wf ({} : Link) (tset {} [] 0 { ctl := { session := (s.link .tsu 0).ctl.session + 1 } }) = true :=
    tok_tset (fun _ => ({} : Link)) [] 0 _ none rfl nofun
  obtain rfl | rfl : u = 0 ∨ u = 1 := by omega
  · exact congrArg (fun l : Link => l.ctl.session)
      ((tget_tset_other _ _ 1 0 _ (by decide)).trans (tget_tset_same _ [] 0 _ rfl))
  · exact congrArg (fun l : Link => l.ctl.session) (tget_tset_same _ _ 1 _ hwf)

/-! ## Resets of a channel and of a link (R403, R404) -/

/-- A channel that does not run and is not STOPPED returns to its reset values, and no other channel changes. -/
theorem chan_chanReset_idle {c k : Nat} (hr : (s.chan c).state ≠ .running) (hs : (s.chan c).state ≠ .stopped) :
    (s.chanReset c).chan k = tget {} (tset {} s.tsu.chans c {}) k := by
  have hcleared : (((s.clearObjects c).modTsu fun t => { t with chans := tset {} t.chans c {} }).unbindFilters c).chan k =
      tget {} (tset {} s.tsu.chans c {}) k := chan_unbindFilters ..
  have hreport (t : State) (ws : List Word) : (t.report .tsu ws).chan k = t.chan k := by
    rw [State.chan, tsu_report, State.chan]
  unfold State.chanReset
  extract_lets x bound ctx ws s1 s2 s3
  have hs1 : s1 = s := by
    unfold s1
    split
    · exact absurd ‹_› hr
    · exact absurd ‹_› hs
    · rfl
  have hs3 : s3.chan k = tget {} (tset {} s.tsu.chans c {}) k := by
    unfold s3 s2
    rw [hs1]
    exact hcleared
  split
  · rw [hreport, hs3]
  · exact hs3

theorem execLinkRst_disabled {u : Fin 2} (h : (s.link .tsu u).ctl.disable = true) :
    exec (.linkRst u) s = .next (s.modLink .tsu u fun l => l.restart .down (s.now .tsu)) :=
  congrArg Host.Outcome.next (if_pos h)
theorem execLinkRst_enabled {u : Fin 2} (h : (s.link .tsu u).ctl.disable = false) :
    exec (.linkRst u) s = .next (s.modPower fun p => { p with rstErr := 1 }) :=
  congrArg Host.Outcome.next (if_neg (by simp [h]))

/-! ## The outputs while a domain is clamped (R412, R436) -/

theorem pins_clamped (h : s.tsu.power.por = true) : s.pins =
    { clk := some Config.tieClk, mainRstN := Config.tieMainRstN, pwrReq := Config.tiePwr, keep := Config.tieKeep, irq := Config.tieIrq,
      padOe := Config.tiePadOe, shutterOut := Config.tieData 0, pps := Config.tieData 1 } := if_pos (by simp [State.clamped, h])

theorem pins_driven (h : s.tsu.power.por = false) : s.pins.mainRstN = s.tsu.power.mainUp ∧ s.pins.pwrReq = s.tsu.power.chosen ∧
    s.pins.pps = s.pulseLevel .tsu 0 := by
  have hc : ¬ s.clamped false = true := by simp [State.clamped, h]
  rw [State.pins, if_neg hc]
  exact ⟨rfl, rfl, rfl⟩

theorem out_emit_clamped {o : Out} (ho : o.mainSide = true) (hu : s.tsu.power.mainUp = false) : (s.emit o).out = s.out := by
  rw [out_emit]
  exact if_pos (by simp [ho, State.clamped, hu])

end

/-- Settles O53: each command has one equation per case; what an outcome leaves is read off the record that the power manager, the
reset or the channel writes, and off the frames of faults, stopped steps and low-rate time. -/
theorem powerAndResets : Obligations.PowerAndResets := by
  refine ⟨fun s => execSupplyWarn_begins, ?warns, fun s => execSupplyWarn_ignored, fun b s => execSupplyWarnClear_none, ?ready,
    ?warnEnds, ?fence, fun s => execBrownoutFence_due, fun s => execBrownoutFence_early, fun s => execWakeStart_due,
    fun s h => ⟨_, execWakeStart_due h, rfl, rfl, rfl, rfl, rfl, rfl, rfl, rfl, out_startWake s⟩, fun s => execWakeStart_ignored,
    ?railOn, ?dark, ?fromDark, ?lateNone, ?lateOne, fun s h => execMainResetRelease_ignored (.inl h),
    fun s h => execMainResetRelease_ignored (.inr h), fun s => execMainResetRelease_plain,
    fun s => ⟨_, rfl, rfl, rfl, rfl, rfl, rfl, rfl, fun u => powerOn_session s⟩, fun s => execMainRailFall_dark,
    fun s => execMainRailFall_on, fun s => rfl, fun s => execDieResetInput_pll, fun s => execDieRst_bound, fun s => execDieRst_unbound,
    fun c s => dieReset_dark, fun c s => dieReset_frame, fun c s => ⟨_, rfl, rfl, rfl, rfl, rfl, rfl⟩, ?chanReset,
    fun u s => execLinkRst_disabled, fun u s => execLinkRst_enabled, ?clamped, fun s => pins_driven,
    fun o s => ⟨out_emit_clamped, fun ho => out_emit_driven s o (.inl ho)⟩⟩
  case warns =>
    intro s hw hs hd
    obtain ⟨hpower, hjup, hregs, -⟩ := fields_of_sansStep (sansStep_raiseLevel s (blkPower .tsu) cSupplyWarn {})
    obtain ⟨ltsu, ljup, lregs, -⟩ := enterLowRate_frame
      ((s.raiseLevel .tsu (blkPower .tsu) cSupplyWarn {}).modPower fun p => p.warned (s.now .tsu))
    obtain ⟨wpower, wjup, wregs, wtime, -⟩ := fields_of_sansStep (sansStep_wantHoldAll
      ((s.raiseLevel .tsu (blkPower .tsu) cSupplyWarn {}).modPower fun p => p.warned (s.now .tsu)).enterLowRate 6)
    refine ⟨_, execSupplyWarn_begins hw hs hd, ?_⟩
    rw [wpower, wjup, wregs, wtime, ltsu, ljup, lregs]
    exact ⟨rfl, rfl, rfl, congrArg (fun p : Power => satInc p.warnCnt) hpower, lowRate_enterLowRate _, hregs, hjup⟩
  case ready =>
    intro b s hw ht
    have hdur : s.warnTicks ≤ 32000 := by unfold State.warnTicks; omega
    rw [execSupplyWarnClear_ends hw, if_pos hdur]
    rfl
  case warnEnds =>
    intro b s hw
    obtain ⟨t, ht, ⟨fenced, hpower⟩, hjup⟩ := execSupplyWarnClear_frame (ok := b) hw
    obtain ⟨opower, ojup⟩ := warnOver_frame s
    refine ⟨t, ht, ?_⟩
    rw [hpower, hjup, opower, ojup]
    exact ⟨rfl, rfl, rfl⟩
  case fence =>
    intro s hw hf ht
    obtain ⟨hpower, hjup⟩ := orderlyFence_frame s cBrownoutFence
    refine ⟨_, execBrownoutFence_due hw hf ht, ?_, ?_, valid_orderlyFence .., hjup⟩
    · rw [hpower]
    · rw [hpower]; exact hw
  case railOn =>
    intro k s hk hs hp
    refine ⟨_, congrArg Host.Outcome.next (powerNow_railOn hk hs hp), ?_, rfl, rfl, rfl⟩
    exact (BitVec.toNat_ofNat ..).trans (Nat.mod_eq_of_lt (by omega))
  case dark =>
    intro s hs
    obtain ⟨hpower, hsession, hsev, hout⟩ := enterDark_frame (s.stateReported 4)
    refine ⟨_, congrArg Host.Outcome.next (powerNow_dark hs), ?_, ?_, hsession, hsev, hout⟩
    · rw [hpower]; rfl
    · rw [hpower]
  case fromDark =>
    intro k s hk hs hh
    obtain ⟨hpower, hjup⟩ := powerNow_fromDark_frame hk hs hh
    refine ⟨_, rfl, ?_, ?_, hjup⟩
    · rw [hpower]
      exact (BitVec.toNat_ofNat ..).trans (Nat.mod_eq_of_lt (by omega))
    · rw [hpower]; rfl
  case lateNone =>
    intro s hw hs ht hc
    have hnone : (chanNums.filter fun c => decide ((s.chan c).state = .running)) = [] :=
      List.filter_eq_nil_iff.mpr fun c h => by simp [hc c h]
    rw [execLateWake_late hw hs ht, hnone]
    rfl
  case lateOne =>
    intro c s hw hs ht hc
    rw [execLateWake_late hw hs ht, hc]
    rfl
  case chanReset =>
    intro c s hr hs hwf
    exact ⟨(chan_chanReset_idle hr hs).trans (tget_tset_same _ _ _ _ hwf),
      fun k hk => (chan_chanReset_idle hr hs).trans (tget_tset_other _ _ _ _ _ hk)⟩
  case clamped =>
    intro s h
    rw [pins_clamped h]
    exact ⟨rfl, rfl, rfl, rfl, rfl, rfl, rfl⟩

end Sys2Proof.Machine
end

section
/-! PROOFS of spec family 12: what a step keeps of the fuses, of the queue and of the sparse tables. -/
namespace Sys2Proof.Machine
open Sys2Proof

/-! ## A step takes the front command, or a tick passes -/

theorem step_of_pending_nil {s : State} (h : s.pending = []) : step s = .next s.tick := by
  unfold step; rw [h]

theorem step_of_pending_cons {s : State} {c : Instr} {rest : List Instr} (h : s.pending = c :: rest) :
    step s = exec c { s with pending := rest } := by
  unfold step; rw [h]

/-- Settles O57: by the definition of a step on a queue that is not empty. -/
theorem stepRunsFront : Obligations.StepRunsFront := fun _ _ _ => step_of_pending_cons rfl

/-! ## What each command keeps -/

/-- Every command but LIFECYCLE_READ keeps the fuses, the queue and the canonical form of the tables. -/
theorem resKeeps_exec (s : State) (i : Instr) (h : ∀ d a b, i ≠ .lifecycleRead d a b) : ResKeeps s (exec i s) := by
  cases i with
  | timeCodeSend => exact keeps_execTimeCodeSend _ _ s (keeps_refl s)
  | timeCodeRx => exact keeps_execTimeCodeRx _ _ _ _ _ _ s (keeps_refl s)
  | parentLost => exact keeps_execParentLost _ _ s (keeps_refl s)
  | timeParentSkew => exact keeps_execTimeParentSkew _ s (keeps_refl s)
  | timeMasterChange => exact keeps_execTimeMasterChange _ _ s (keeps_refl s)
  | timeLost => exact keeps_execTimeLost _ s (keeps_refl s)
  | coarseLoad => exact keeps_execCoarseLoad _ s (keeps_refl s)
  | dwellEnd => exact keeps_execDwellEnd _ s (keeps_refl s)
  | crAcqFail => exact keeps_execCrAcqFail _ s (keeps_refl s)
  | timeResync => exact keeps_execTimeResync _ _ s (keeps_refl s)
  | mappingPublish => exact keeps_execMappingPublish s (keeps_refl s)
  | mappingRecordRx => exact keeps_execMappingRecordRx _ s (keeps_refl s)
  | mappingApply => exact keeps_execMappingApply s (keeps_refl s)
  | mappingHoldover => exact keeps_execMappingHoldover s (keeps_refl s)
  | setTod => exact keeps_execSetTod _ _ _ _ s (keeps_refl s)
  | ntpRequest => exact keeps_execNtpRequest _ _ _ s (keeps_refl s)
  | measureLink => exact keeps_execMeasureLink _ _ _ _ s (keeps_refl s)
  | reflectComplete => exact keeps_execReflectComplete _ _ s (keeps_refl s)
  | asymSwapGo => exact keeps_execAsymSwapGo _ _ s (keeps_refl s)
  | asymBankSwap => exact keeps_execAsymBankSwap _ _ s (keeps_refl s)
  | vernierEdge => exact keeps_execVernierEdge _ _ _ _ s (keeps_refl s)
  | timestampDelivered => exact keeps_execTimestampDelivered _ _ s (keeps_refl s)
  | calHit => exact keeps_execCalHit _ _ _ s (keeps_refl s)
  | vernierBuildEnd => exact keeps_execVernierBuildEnd _ _ s (keeps_refl s)
  | vernierTableSwap => exact keeps_execVernierTableSwap _ _ s (keeps_refl s)
  | vernierCalStale => exact keeps_execVernierCalStale _ _ s (keeps_refl s)
  | vrnSwapGo => exact keeps_execVrnSwapGo _ _ _ s (keeps_refl s)
  | calVernier => exact keeps_execCalVernier _ _ _ _ _ _ s (keeps_refl s)
  | tempUpdate => exact keeps_execTempUpdate _ _ s (keeps_refl s)
  | refEdgeMissing => exact keeps_execRefEdgeMissing _ _ s (keeps_refl s)
  | wtrExpiry => exact keeps_execWtrExpiry _ _ s (keeps_refl s)
  | clockQualitySend => exact keeps_execClockQualitySend _ s (keeps_refl s)
  | clockQualityRx => exact keeps_execClockQualityRx _ _ _ s (keeps_refl s)
  | qlTimeout => exact keeps_execQlTimeout _ _ s (keeps_refl s)
  | esmcPduRx => exact keeps_execEsmcPduRx _ _ _ _ s (keeps_refl s)
  | esmcTimeout => exact keeps_execEsmcTimeout _ s (keeps_refl s)
  | refSelect => exact keeps_execRefSelect _ s (keeps_refl s)
  | crForce => exact keeps_execCrForce _ _ s (keeps_refl s)
  | crManual => exact keeps_execCrManual _ _ s (keeps_refl s)
  | crClear => exact keeps_execCrClear _ s (keeps_refl s)
  | crLockout => exact keeps_execCrLockout _ _ s (keeps_refl s)
  | crUnlock => exact keeps_execCrUnlock _ _ s (keeps_refl s)
  | crWtrClear => exact keeps_execCrWtrClear _ _ s (keeps_refl s)
  | crCmdApply => exact keeps_execCrCmdApply _ s (keeps_refl s)
  | cvBlockAverage => exact keeps_execCvBlockAverage _ s (keeps_refl s)
  | pstepWrite => exact keeps_execPstepWrite _ _ s (keeps_refl s)
  | bwForce => exact keeps_execBwForce _ _ _ s (keeps_refl s)
  | pulseEdgeOut => exact keeps_execPulseEdgeOut _ _ s (keeps_refl s)
  | alignEdgeMissing => exact keeps_execAlignEdgeMissing _ _ s (keeps_refl s)
  | bind => exact keeps_execBind _ s (keeps_refl s)
  | arm => exact keeps_execArm _ s (keeps_refl s)
  | resume => exact keeps_execResume _ s (keeps_refl s)
  | hold => exact keeps_execHold _ s (keeps_refl s)
  | unbind => exact keeps_execUnbind _ s (keeps_refl s)
  | startTickReached => exact keeps_execStartTickReached _ s (keeps_refl s)
  | resumeTickReached => exact keeps_execResumeTickReached _ s (keeps_refl s)
  | launch => exact keeps_execLaunch _ s (keeps_refl s)
  | wait => exact keeps_execWait _ s (keeps_refl s)
  | branch => exact keeps_execBranch _ s (keeps_refl s)
  | loop => exact keeps_execLoop _ s (keeps_refl s)
  | vote => exact keeps_execVote _ _ s (keeps_refl s)
  | signal => exact keeps_execSignal _ _ s (keeps_refl s)
  | commit => exact keeps_execCommit _ s (keeps_refl s)
  | idle => exact keeps_execIdle _ s (keeps_refl s)
  | halt => exact keeps_execHalt _ s (keeps_refl s)
  | waitSatisfied => exact keeps_execWaitSatisfied _ s (keeps_refl s)
  | syncTimeout => exact keeps_execSyncTimeout _ s (keeps_refl s)
  | stepWatchdog => exact keeps_execStepWatchdog _ s (keeps_refl s)
  | stbyVerify => exact keeps_execStbyVerify _ _ s (keeps_refl s)
  | verifyDone => exact keeps_execVerifyDone _ s (keeps_refl s)
  | bankSwapGo => exact keeps_execBankSwapGo _ _ _ s (keeps_refl s)
  | selectorWrite => exact keeps_execSelectorWrite _ _ _ _ _ s (keeps_refl s)
  | stepStart => exact keeps_execStepStart _ _ _ s (keeps_refl s)
  | stepHold => exact keeps_execStepHold _ _ _ s (keeps_refl s)
  | stepStretch => exact keeps_execStepStretch _ _ _ s (keeps_refl s)
  | stationBusyReport => exact keeps_execStationBusyReport _ s (keeps_refl s)
  | overrunReport => exact keeps_execOverrunReport _ _ _ _ s (keeps_refl s)
  | captureWrite => exact keeps_execCaptureWrite _ _ _ _ _ _ s (keeps_refl s)
  | checkpointDelta => exact keeps_execCheckpointDelta _ _ s (keeps_refl s)
  | digestUpdate => exact keeps_execDigestUpdate _ _ _ _ s (keeps_refl s)
  | voteContributionRx => exact keeps_execVoteContributionRx _ _ s (keeps_refl s)
  | votePartialRx => exact keeps_execVotePartialRx _ _ s (keeps_refl s)
  | voteDeadline => exact keeps_execVoteDeadline _ s (keeps_refl s)
  | voteResultRx => exact keeps_execVoteResultRx _ s (keeps_refl s)
  | selectorValid => exact keeps_execSelectorValid _ _ s (keeps_refl s)
  | resultLateDelivery _ _ rank => exact keeps_execResultLateDelivery _ _ rank _ _ s (keeps_refl s)
  | coreSet => exact keeps_execCoreSet _ _ s (keeps_refl s)
  | coreClear => exact keeps_execCoreClear _ _ s (keeps_refl s)
  | coreGive => exact keeps_execCoreGive _ _ s (keeps_refl s)
  | coreTake => exact keeps_execCoreTake _ s (keeps_refl s)
  | coreWaitSet => exact keeps_execCoreWaitSet _ s (keeps_refl s)
  | coreWaitClear => exact keeps_execCoreWaitClear _ s (keeps_refl s)
  | coreWaitCount => exact keeps_execCoreWaitCount _ s (keeps_refl s)
  | coreWaitTake => exact keeps_execCoreWaitTake _ s (keeps_refl s)
  | coreEnter => exact keeps_execCoreEnter _ s (keeps_refl s)
  | coreArrive => exact keeps_execCoreArrive _ s (keeps_refl s)
  | remoteSignalRx => exact keeps_execRemoteSignalRx _ s (keeps_refl s)
  | niWatchReport => exact keeps_execNiWatchReport _ s (keeps_refl s)
  | signalVisible => exact keeps_execSignalVisible _ s (keeps_refl s)
  | dbgSet => exact keeps_execDbgSet _ _ s (keeps_refl s)
  | dbgClear => exact keeps_execDbgClear _ _ s (keeps_refl s)
  | dbgPreset => exact keeps_execDbgPreset _ _ _ s (keeps_refl s)
  | dbgForceRelease => exact keeps_execDbgForceRelease _ _ s (keeps_refl s)
  | forceReleaseApply => exact keeps_execForceReleaseApply _ s (keeps_refl s)
  | drainDone => exact keeps_execDrainDone s (keeps_refl s)
  | localConjRelease => exact keeps_execLocalConjRelease _ s (keeps_refl s)
  | conjArrivalRx => exact keeps_execConjArrivalRx _ _ s (keeps_refl s)
  | conjReleaseRx => exact keeps_execConjReleaseRx _ s (keeps_refl s)
  | conjReleaseApply => exact keeps_execConjReleaseApply _ s (keeps_refl s)
  | timeoutRecordClear => exact keeps_execTimeoutRecordClear s (keeps_refl s)
  | frameRx => exact keeps_execFrameRx _ _ _ s (keeps_refl s)
  | ackTimeout => exact keeps_execAckTimeout _ _ s (keeps_refl s)
  | windowUpdateRx => exact keeps_execWindowUpdateRx _ _ _ _ s (keeps_refl s)
  | flowAbortRx => exact keeps_execFlowAbortRx _ _ _ s (keeps_refl s)
  | deliveryReportRx => exact keeps_execDeliveryReportRx _ _ s (keeps_refl s)
  | linkControlRx => exact keeps_execLinkControlRx _ _ _ s (keeps_refl s)
  | linkSignalDetect => exact keeps_execLinkSignalDetect _ _ s (keeps_refl s)
  | linkStateTimeout => exact keeps_execLinkStateTimeout _ _ s (keeps_refl s)
  | linkTrainRetry => exact keeps_execLinkTrainRetry _ _ s (keeps_refl s)
  | linkDown => exact keeps_execLinkDown _ s (keeps_refl s)
  | injPar => exact keeps_execInjPar _ _ _ s (keeps_refl s)
  | retrain => exact keeps_execRetrain _ _ s (keeps_refl s)
  | disable => exact keeps_execDisable _ _ _ s (keeps_refl s)
  | fenceRx => exact keeps_execFenceRx _ _ _ s (keeps_refl s)
  | fenceTick => exact keeps_execFenceTick _ s (keeps_refl s)
  | peerFenceRx => exact keeps_execPeerFenceRx _ s (keeps_refl s)
  | niFilterAck => exact keeps_execNiFilterAck _ s (keeps_refl s)
  | jpMemberLost => exact keeps_execJpMemberLost _ _ s (keeps_refl s)
  | jpOpTimeout => exact keeps_execJpOpTimeout _ s (keeps_refl s)
  | memoryUe => exact keeps_execMemoryUe _ s (keeps_refl s)
  | journalAppend => exact keeps_execJournalAppend _ _ s (keeps_refl s)
  | journalDurable => exact keeps_execJournalDurable _ s (keeps_refl s)
  | journalAgeOut => exact keeps_execJournalAgeOut _ _ s (keeps_refl s)
  | shadowAck => exact keeps_execShadowAck _ _ _ s (keeps_refl s)
  | loadImage => exact keeps_execLoadImage _ _ _ _ s (keeps_refl s)
  | imageSectionRx => exact keeps_execImageSectionRx _ _ s (keeps_refl s)
  | imageSeal => exact keeps_execImageSeal _ s (keeps_refl s)
  | restore => exact keeps_execRestore _ _ _ _ s (keeps_refl s)
  | restoreIdentityCheck => exact keeps_execRestoreIdentityCheck _ _ s (keeps_refl s)
  | restoreStreamRx => exact keeps_execRestoreStreamRx _ s (keeps_refl s)
  | restoreComplete => exact keeps_execRestoreComplete _ _ s (keeps_refl s)
  | startJob => exact keeps_execStartJob _ _ _ _ s (keeps_refl s)
  | teardownJob => exact keeps_execTeardownJob _ _ s (keeps_refl s)
  | holdJob => exact keeps_execHoldJob _ _ _ s (keeps_refl s)
  | resumeJob => exact keeps_execResumeJob _ _ _ s (keeps_refl s)
  | stretchJob => exact keeps_execStretchJob _ _ _ _ s (keeps_refl s)
  | setQuota => exact keeps_execSetQuota _ _ _ s (keeps_refl s)
  | fence => exact keeps_execFence _ _ _ _ s (keeps_refl s)
  | bringIn => exact keeps_execBringIn _ _ _ _ _ s (keeps_refl s)
  | remapRank => exact keeps_execRemapRank _ _ _ _ _ s (keeps_refl s)
  | shutter => exact keeps_execShutter _ _ _ s (keeps_refl s)
  | readPlate => exact keeps_execReadPlate _ _ _ _ _ _ s (keeps_refl s)
  | cgBegin => exact keeps_execCgBegin _ _ _ s (keeps_refl s)
  | cgStage => exact keeps_execCgStage _ _ _ _ _ s (keeps_refl s)
  | cgCommit => exact keeps_execCgCommit _ _ _ _ s (keeps_refl s)
  | cgAbort => exact keeps_execCgAbort _ _ _ s (keeps_refl s)
  | cgStageMsg => exact keeps_execCgStageMsg _ _ s (keeps_refl s)
  | cgPrepareMsg => exact keeps_execCgPrepareMsg _ _ _ s (keeps_refl s)
  | cgAnswerMsg => exact keeps_execCgAnswerMsg _ _ _ s (keeps_refl s)
  | cgCommitMsg => exact keeps_execCgCommitMsg _ _ s (keeps_refl s)
  | cgAbortMsg => exact keeps_execCgAbortMsg _ _ s (keeps_refl s)
  | cgPrepareDeadline => exact keeps_execCgPrepareDeadline _ _ s (keeps_refl s)
  | cgApply => exact keeps_execCgApply _ _ s (keeps_refl s)
  | cgDeliveryCheck => exact keeps_execCgDeliveryCheck _ _ s (keeps_refl s)
  | cgPost => exact keeps_execCgPost _ _ s (keeps_refl s)
  | completionMsgRx => exact keeps_execCompletionMsgRx _ _ s (keeps_refl s)
  | completionFree => exact keeps_execCompletionFree _ _ s (keeps_refl s)
  | faultReportRx => exact keeps_execFaultReportRx _ _ s (keeps_refl s)
  | gradingWindowClose => exact keeps_execGradingWindowClose _ _ _ s (keeps_refl s)
  | graceExpiry => exact keeps_execGraceExpiry _ _ s (keeps_refl s)
  | faultClear => exact keeps_execFaultClear _ _ s (keeps_refl s)
  | severeClear => exact keeps_execSevereClear _ _ s (keeps_refl s)
  | fltInjArm => exact keeps_execFltInjArm _ _ _ _ s (keeps_refl s)
  | deferredExpulsion => exact keeps_execDeferredExpulsion s (keeps_refl s)
  | jobRerun => exact keeps_execJobRerun _ s (keeps_refl s)
  | copyDigestCompare => exact keeps_execCopyDigestCompare _ _ _ _ s (keeps_refl s)
  | recomputeMatch => exact keeps_execRecomputeMatch _ _ _ _ s (keeps_refl s)
  | recomputeLimit => exact keeps_execRecomputeLimit _ _ s (keeps_refl s)
  | supplyWarn => exact keeps_execSupplyWarn s (keeps_refl s)
  | supplyWarnClear => exact keeps_execSupplyWarnClear _ s (keeps_refl s)
  | brownoutFence => exact keeps_execBrownoutFence s (keeps_refl s)
  | fabricStaleGen => exact keeps_execFabricStaleGen _ s (keeps_refl s)
  | dbgChal => exact keeps_execDbgChal _ s (keeps_refl s)
  | dbgOpen => exact keeps_execDbgOpen _ s (keeps_refl s)
  | debugTokenChecked => exact keeps_execDebugTokenChecked _ s (keeps_refl s)
  | dbgClose => exact keeps_execDbgClose _ s (keeps_refl s)
  | debugSessionExpiry => exact keeps_execDebugSessionExpiry _ s (keeps_refl s)
  | dbgStop => exact keeps_execDbgStop _ s (keeps_refl s)
  | dbgContinue => exact keeps_execDbgContinue _ s (keeps_refl s)
  | lifecycleRead d a b => exact absurd rfl (h d a b)
  | shutterRx => exact keeps_execShutterRx _ _ _ s (keeps_refl s)
  | shutterLatch => exact keeps_execShutterLatch _ s (keeps_refl s)
  | flashRead => exact keeps_execFlashRead _ s (keeps_refl s)
  | flashErase => exact keeps_execFlashErase _ s (keeps_refl s)
  | flashProgram => exact keeps_execFlashProgram _ s (keeps_refl s)
  | fwVersionWrite => exact keeps_execFwVersionWrite _ s (keeps_refl s)
  | wakeStart => exact keeps_execWakeStart s (keeps_refl s)
  | pmStateChange => exact keeps_execPmStateChange _ s (keeps_refl s)
  | lateWake => exact keeps_execLateWake s (keeps_refl s)
  | wakeReportRx => exact keeps_execWakeReportRx _ _ s (keeps_refl s)
  | powerOnReset => exact keeps_execPowerOnReset s (keeps_refl s)
  | mainRailFall => exact keeps_execMainRailFall s (keeps_refl s)
  | dieResetInput => exact keeps_execDieResetInput _ s (keeps_refl s)
  | dieRst => exact keeps_execDieRst s (keeps_refl s)
  | chRst => exact keeps_execChRst _ s (keeps_refl s)
  | linkRst => exact keeps_execLinkRst _ s (keeps_refl s)
  | budgetWrite => exact keeps_execBudgetWrite _ _ s (keeps_refl s)
  | jpPowerOnReset => exact keeps_execJpPowerOnReset _ s (keeps_refl s)
  | jpMainReset => exact keeps_execJpMainReset _ s (keeps_refl s)
  | perst => exact keeps_execPerst _ s (keeps_refl s)
  | thermalWarn => exact keeps_execThermalWarn _ _ s (keeps_refl s)
  | thermalTrip => exact keeps_execThermalTrip _ _ s (keeps_refl s)
  | thermalClear => exact keeps_execThermalClear _ _ s (keeps_refl s)
  | portReturnService => exact keeps_execPortReturnService _ s (keeps_refl s)
  | logFree => exact keeps_execLogFree _ s (keeps_refl s)
  | divLogClear => exact keeps_execDivLogClear s (keeps_refl s)
  | injDigestArm => exact keeps_execInjDigestArm _ _ s (keeps_refl s)
  | indexedWindowAccess => exact keeps_execIndexedWindowAccess _ _ _ _ _ s (keeps_refl s)
  | htcRead => exact keeps_execHtcRead _ s (keeps_refl s)
  | splitReadLatch => exact keeps_execSplitReadLatch _ _ s (keeps_refl s)
  | registerWrite => exact keeps_execRegisterWrite _ _ _ _ _ s (keeps_refl s)
  | frameLaunch => exact keeps_execFrameLaunch _ _ s (keeps_refl s)
  | cvUpdate => exact keeps_execCvUpdate _ s (keeps_refl s)
  | trainLock => exact keeps_execTrainLock _ _ s (keeps_refl s)
  | frameLock => exact keeps_execFrameLock _ _ s (keeps_refl s)
  | laneLoss => exact keeps_execLaneLoss _ _ s (keeps_refl s)
  | streamEnd => exact keeps_execStreamEnd _ s (keeps_refl s)
  | mainResetRelease => exact keeps_execMainResetRelease s (keeps_refl s)
  | appendWindowWrite => exact keeps_execAppendWindowWrite _ s (keeps_refl s)

/-- A step is a tick on an empty queue, LIFECYCLE_READ, or another command that keeps what the state with the queue's rest has. -/
theorem step_cases {s t : State} (h : step s = .next t) :
    (s.pending = [] ∧ s.Keeps t) ∨
    (∃ rest d a b, s.pending = .lifecycleRead d a b :: rest ∧ execLifecycleRead d a b { s with pending := rest } = .next t) ∨
    (∃ c rest, s.pending = c :: rest ∧ (∀ d a b, c ≠ .lifecycleRead d a b) ∧ State.Keeps { s with pending := rest } t) := by
  cases hp : s.pending with
  | nil =>
    rw [step_of_pending_nil hp] at h
    exact .inl ⟨rfl, resKeeps_next (keeps_tick s (keeps_refl s)) t h⟩
  | cons c rest =>
    rw [step_of_pending_cons hp] at h
    by_cases hc : ∀ d a b, c ≠ .lifecycleRead d a b
    · exact .inr (.inr ⟨c, rest, rfl, hc, resKeeps_exec _ c hc t h⟩)
    · push Not at hc
      obtain ⟨d, a, b, rfl⟩ := hc
      exact .inr (.inl ⟨rest, d, a, b, rfl, h⟩)

theorem pending_of_keeps {s t : State} (h : s.Keeps t) : t.pending = s.pending := congrArg (fun x => x.2.2) h.1

/-- Settles O60: by what LIFECYCLE_READ, every other command and a tick keep. -/
theorem tablesCanonical : Obligations.TablesCanonical := by
  intro s t h
  rcases step_cases h with ⟨hp, hk⟩ | ⟨rest, d, a, b, hp, he⟩ | ⟨c, rest, hp, -, hk⟩
  · exact ⟨hk.2, (pending_of_keeps hk).trans (by rw [hp]; rfl)⟩
  · obtain ⟨hpend, htab⟩ := lifecycleRead_tables _ t d a b he
    exact ⟨htab, by rw [hpend, hp]; rfl⟩
  · exact ⟨hk.2, (pending_of_keeps hk).trans (by rw [hp]; rfl)⟩

/-! ## Fuses (R373 to R375) -/

theorem fuses_of_keeps {s t : State} (h : s.Keeps t) (d : Dev) : (t.com d).sec.fuses = (s.com d).sec.fuses := by
  cases d
  · exact congrArg (fun x => x.1) h.1
  · exact congrArg (fun x => x.2.1) h.1

/-- Fuses `g` hold all that fuses `f` hold: no level or record number fell, and an owner key once blown stayed. -/
def Fuses.Holds (f g : Fuses) : Prop :=
  f.level.code ≤ g.level.code ∧ f.seq ≤ g.seq ∧ (f.owner ≠ 0 → g.owner = f.owner)

/-- The fuses after a record is applied. -/
def Fuses.blown (f : Fuses) (ws : List Word) : Fuses :=
  { level := levelOf (recordLevel ws),
    owner := if f.owner = 0 ∧ levelOf (recordLevel ws) ≠ .opened then recordOwner ws else f.owner,
    seq := max f.seq (min (recordSeq ws) 64) }

theorem code_levelOf {n : Nat} (h : n < 3) : (levelOf n).code = n := by
  match n, h with
  | 0, _ => rfl
  | 1, _ => rfl
  | 2, _ => rfl

/-- A valid record names a level that is one of the three and not below the fuse's. -/
theorem level_of_recordValid {d : Dev} {f : Fuses} {ws : List Word} (h : recordValid d f ws = true) :
    f.level.code ≤ recordLevel ws ∧ recordLevel ws < 3 := by
  unfold recordValid at h
  simp only [Bool.and_eq_true, decide_eq_true_eq] at h
  obtain ⟨⟨⟨⟨⟨-, hlevel⟩, -⟩, -⟩, -⟩, -⟩ := h
  exact hlevel

/-- Applying a valid record takes nothing from the fuses: it names no lower level, the number is a maximum, and the owner is
written where none stands. -/
theorem holds_blown {d : Dev} {f : Fuses} {ws : List Word} (h : recordValid d f ws = true) : f.Holds (f.blown ws) := by
  obtain ⟨hlevel, hthree⟩ := level_of_recordValid h
  refine ⟨?_, Nat.le_max_left _ _, fun hown => if_neg fun hc => hown hc.1⟩
  calc f.level.code ≤ recordLevel ws := hlevel
    _ = (f.blown ws).level.code := (code_levelOf hthree).symm

theorem fuses_applyRecord (s : State) (d : Dev) (ws : List Word) :
    ((s.applyRecord d ws).com d).sec.fuses = (s.com d).sec.fuses.blown ws ∧
    ∀ e, e ≠ d → ((s.applyRecord d ws).com e).sec.fuses = (s.com e).sec.fuses := by
  unfold State.applyRecord
  extract_lets f lv f' s1
  have hs1 : (s1.com d).sec.fuses = f' ∧ ∀ e, e ≠ d → (s1.com e).sec.fuses = (s.com e).sec.fuses := by
    have hkeep := fun e => fuses_of_keeps (keeps_endLevel _ d (blkImage d) cLifecycleBad {} (keeps_refl (s.modSec d fun x =>
      { x with fuses := f', level := lv, lcOk := true, imgLock := false, allowVendor := (nthW ws 0).getLsbD 29,
               minImageVersion := (nthW ws 2).extractLsb' 0 32 }))) e
    exact ⟨(hkeep d).trans (by rw [com_modSec]), fun e he => (hkeep e).trans (by rw [com_modSec_other _ _ _ _ he])⟩
  split
  · exact hs1
  · simp only [com_emit]; exact hs1

/-- The record in force is one that is valid: a copy is chosen only where its check passed. -/
theorem chooseCopy_valid {v0 v1 b : Bool} {q0 q1 : Nat} (h : chooseCopy v0 v1 q0 q1 = some b) : (if b then v1 else v0) = true := by
  unfold chooseCopy at h
  split at h
  · cases h
    simp_all
  · split at h
    · cases h
      assumption
    · cases h

theorem fuses_noRecord (s : State) (d e : Dev) : ((s.noRecord d).com e).sec.fuses = (s.com e).sec.fuses :=
  fuses_of_keeps (keeps_noRecord s d (keeps_refl s)) e

/-- The copy of the record in force on a device (R448). -/
def State.copyInForce (s : State) (d : Dev) (a b : List Word) : Option Bool :=
  chooseCopy (recordValid d (s.com d).sec.fuses a) (decide (d = .jup) && recordValid d (s.com d).sec.fuses b) (recordSeq a) (recordSeq b)

/-- The state once the copy in force is applied; without one, the level of the fuse holds (R375). -/
def State.recordTaken (s : State) (d : Dev) (a b : List Word) : State :=
  match s.copyInForce d a b with
  | some false => s.applyRecord d a
  | some true => s.applyRecord d b
  | none => s.noRecord d

/-- Besides that, what both devices have in common knows only that the record is read. -/
theorem com_lifecycle (s : State) (d e : Dev) (a b : List Word) :
    (s.lifecycle d a b).com e = ((s.recordTaken d a b).modSec d fun x => { x with lcRead := true }).com e := by
  cases d <;> cases e <;> rfl

section
variable {s : State} {d : Dev} {a b : List Word}

theorem recordTaken_none (h : s.copyInForce d a b = none) : s.recordTaken d a b = s.noRecord d := by
  unfold State.recordTaken; rw [h]

theorem recordTaken_first (h : s.copyInForce d a b = some false) : s.recordTaken d a b = s.applyRecord d a := by
  unfold State.recordTaken; rw [h]

theorem recordTaken_second (h : s.copyInForce d a b = some true) : s.recordTaken d a b = s.applyRecord d b := by
  unfold State.recordTaken; rw [h]

end

/-- Reading the record leaves the fuses, or blows those of a valid record of the device that reads it. -/
theorem fuses_lifecycle (s : State) (d e : Dev) (a b : List Word) :
    ((s.lifecycle d a b).com e).sec.fuses = (s.com e).sec.fuses ∨
    ∃ ws, recordValid d (s.com d).sec.fuses ws = true ∧
      ((s.lifecycle d a b).com e).sec.fuses = ((s.applyRecord d ws).com e).sec.fuses := by
  have hread : ((s.lifecycle d a b).com e).sec.fuses = ((s.recordTaken d a b).com e).sec.fuses := by
    rw [com_lifecycle]
    exact fuses_of_keeps (keeps_modSec d _ (keeps_refl _) rfl) e
  rw [hread]
  rcases hp : s.copyInForce d a b with _ | _ | _
  · exact .inl (by rw [recordTaken_none hp, fuses_noRecord])
  · exact .inr ⟨a, chooseCopy_valid hp, by rw [recordTaken_first hp]⟩
  · exact .inr ⟨b, (Bool.and_eq_true_iff.mp (chooseCopy_valid hp)).2, by rw [recordTaken_second hp]⟩

/-- LIFECYCLE_READ leaves the fuses of a device, or blows those of a valid record of that device. -/
theorem fuses_lifecycleRead {s t : State} {d : Dev} {a b : List Word} (h : execLifecycleRead d a b s = .next t) (e : Dev) :
    (t.com e).sec.fuses = (s.com e).sec.fuses ∨
    ∃ ws, recordValid d (s.com d).sec.fuses ws = true ∧ e = d ∧ (t.com e).sec.fuses = (s.com e).sec.fuses.blown ws := by
  unfold execLifecycleRead at h
  extract_lets x at h
  split at h
  · cases h; exact .inl rfl
  split at h
  · cases h
  cases h
  rcases fuses_lifecycle s d e a b with hsame | ⟨ws, hv, happlied⟩
  · exact .inl hsame
  obtain ⟨hown, hother⟩ := fuses_applyRecord s d ws
  by_cases he : e = d
  · subst he; exact .inr ⟨ws, hv, rfl, happlied.trans hown⟩
  · exact .inl (happlied.trans (hother e he))

/-- Settles O59: a tick and every command but LIFECYCLE_READ leave the fuses; LIFECYCLE_READ applies valid records alone. -/
theorem fusesNeverFall : Obligations.FusesNeverFall := by
  have same : ∀ {f g : Fuses} {p : Prop}, g = f → f.level.code ≤ g.level.code ∧ f.seq ≤ g.seq ∧ (f.owner ≠ 0 → g.owner = f.owner) ∧
      (p → g = f) := fun h => by subst h; exact ⟨Nat.le_refl _, Nat.le_refl _, fun _ => rfl, fun _ => rfl⟩
  have rest : ∀ (s : State) (q : List Instr) (k : Dev), (State.com { s with pending := q } k).sec.fuses = (s.com k).sec.fuses :=
    fun s q k => by cases k <;> rfl
  intro s t h d
  rcases step_cases h with ⟨-, hk⟩ | ⟨q, e, a, b, hp, he⟩ | ⟨c, q, -, -, hk⟩
  · exact same (fuses_of_keeps hk d)
  · rcases fuses_lifecycleRead he d with hsame | ⟨ws, hv, rfl, hblown⟩
    · exact same (hsame.trans (rest s q d))
    · rw [rest] at hv hblown
      obtain ⟨hlevel, hseq, howner⟩ := holds_blown hv
      rw [hblown]
      exact ⟨hlevel, hseq, howner, fun hno => absurd (by rw [hp]; rfl) (hno a b)⟩
  · exact same ((fuses_of_keeps hk d).trans (rest s q d))

end Sys2Proof.Machine
end

section
/-! PROOFS of spec family 14: the stretch for a power budget. -/
namespace Sys2Proof.Machine
open Sys2Proof

/-! ## The least stretch that keeps a job within its budget (R409) -/

/-- The least stretch for a budget, were there no bound on it. -/
def leastStretch (n e i b t : Nat) : Nat :=
  if 8 * (1000 * (n * e : Int) - 625 * (b * t : Int)) ≤ 0 then 0
  else ((8 * (1000 * (n * e : Int) - 625 * (b * t : Int))).toNat + 5 * (1000 * b - n * i) - 1) / (5 * (1000 * b - n * i))

theorem budgetStretch_eq {n e i b t : Nat} (hb : b ≠ 0) (h : n * i < 1000 * b) :
    budgetStretch n e i b t = if leastStretch n e i b t ≤ 1048575 then some (leastStretch n e i b t) else none := by
  rw [budgetStretch, if_neg hb, if_neg (by omega)]
  rfl

/-- A budget that the power of the ranks at rest reaches or passes gives no stretch. -/
theorem budgetStretch_overdrawn {n e i b t : Nat} (hb : b ≠ 0) (h : ¬ n * i < 1000 * b) : budgetStretch n e i b t = none := by
  rw [budgetStretch, if_neg hb, if_pos (by omega)]

/-- The stretch is the least: the stretches not below it are those that keep the job's energy within the budget. -/
theorem leastStretch_le_iff {n e i b t : Nat} (h : n * i < 1000 * b) (R : Nat) :
    leastStretch n e i b t ≤ R ↔ 1600 * n * e + n * i * R ≤ 1000 * b * (t + R) := by
  obtain ⟨D, hD⟩ := Nat.exists_eq_add_of_lt h
  -- Each tick of stretch brings `1000 b` in and takes `n i` of it, so that `D + 1` of it is left over.
  have hsaved : 1000 * b * (t + R) = 1000 * (b * t) + n * i * R + (D + 1) * R := by
    calc 1000 * b * (t + R) = 1000 * (b * t) + 1000 * b * R := by ring
      _ = 1000 * (b * t) + n * i * R + (D + 1) * R := by rw [hD]; ring
  have hspent : 1600 * n * e = 1600 * (n * e) := Nat.mul_assoc ..
  have hleft : 1000 * b - n * i = D + 1 := by omega
  rw [hsaved, hspent, leastStretch, hleft]
  split
  · omega
  · rw [← Nat.ceilDiv_eq_add_pred_div, ceilDiv_le_iff_le_mul (by omega), Nat.mul_assoc]
    omega

theorem execBudgetWrite_eq (j : BitVec 15) (w : Half) (s : State) : exec (.budgetWrite j w) s = .next (s.writeBudget j w) := rfl

theorem writeBudget_belowTop {s : State} {j : BitVec 15} (h : s.jobPlace j ≠ .top) (w : Half) :
    s.writeBudget j w = s.setJobWord j 3 ((s.jobWord j 3 &&& 0xFFFFFFFF) ||| put 64 63 32 w.toNat) :=
  if_pos (.inr h)

/-- Settles O52: the stretch is the least that keeps within the budget, so a shorter one does not; where none is given, the least
lies past the bound. -/
theorem budgetBounds : Obligations.BudgetBounds := by
  refine ⟨?given, ?none, fun _ _ _ _ => rfl, execBudgetWrite_eq, fun j w s h => writeBudget_belowTop h w⟩
  case given =>
    intro n e i b t S hb hS
    by_cases h : n * i < 1000 * b
    · rw [budgetStretch_eq hb h] at hS
      split at hS
      · next hbound =>
        cases hS
        exact ⟨(leastStretch_le_iff h _).mp (Nat.le_refl _), hbound, h,
          fun R hR => Nat.lt_of_not_le fun hle => Nat.not_le_of_lt hR ((leastStretch_le_iff h R).mpr hle)⟩
      · cases hS
    · rw [budgetStretch_overdrawn hb h] at hS
      cases hS
  case none =>
    intro n e i b t hb h hnone S hS
    rw [budgetStretch_eq hb h, ite_eq_right_iff] at hnone
    refine Nat.lt_of_not_le fun hle => ?_
    have hleast := (leastStretch_le_iff h S).mpr hle
    cases hnone (hleast.trans hS)

end Sys2Proof.Machine
end

section
/-! PROOFS of spec family 13: challenges, debug sessions, stops, and the life-cycle record. -/
namespace Sys2Proof.Machine
open Sys2Proof

theorem sec_of_steady {s t : State} (h : t.steady = s.steady) (d : Dev) : (t.com d).sec = (s.com d).sec := by
  obtain ⟨htsu, hjup, -⟩ := steady_eq_iff.mp h
  cases d
  · exact htsu
  · exact hjup

theorem modSec_modSec (s : State) (d : Dev) (f g : Security → Security) : (s.modSec d f).modSec d g = s.modSec d fun x => g (f x) := by
  cases d <;> rfl

/-- An update counts only by what it makes of what stands there. -/
theorem modSec_congr {s : State} {d : Dev} {f g : Security → Security} (h : f (s.com d).sec = g (s.com d).sec) :
    s.modSec d f = s.modSec d g := by
  unfold State.modSec State.modCom
  dsimp only
  rw [h]

/-! ## OPEN and its check (R376 to R378, R381) -/

section
variable {d : Dev} {s : State}

theorem execDebugTokenChecked_idle (h : (s.com d).sec.opening = none) : exec (.debugTokenChecked d) s = .next s := by
  change execDebugTokenChecked d s = _
  simp [execDebugTokenChecked, h]

theorem execDebugTokenChecked_checked (ho : (s.com d).sec.opening ≠ none) (hr : (s.com d).sec.lcRead = true)
    (ht : tokenReserved (s.com d).sec = false) : exec (.debugTokenChecked d) s = .next (s.tokenChecked d) := by
  obtain ⟨t, ht'⟩ := Option.ne_none_iff_exists'.mp ho
  change execDebugTokenChecked d s = _
  unfold execDebugTokenChecked
  simp only [ht', hr, ht, Option.isSome_some, Bool.not_true, Bool.or_false, Bool.false_eq_true, if_false]

theorem tokenChecked_refused (h : s.openRefusal d ≠ 0) : s.tokenChecked d =
    (((s.modSec d fun x => { x with opening := none }).modSec d fun x => { x with refuse := BitVec.ofNat 4 (s.openRefusal d) }).raiseFault
      d (blkImage d) cTokenBad {}).modSec d fun x => { x with chalFresh := false } := by
  unfold State.tokenChecked
  dsimp only
  rw [if_neg h]

theorem tokenChecked_opens (h : s.openRefusal d = 0) : s.tokenChecked d =
    ((s.modSec d fun x => { x with opening := none }).openSession d).modSec d fun x => { x with chalFresh := false } := by
  unfold State.tokenChecked
  dsimp only
  rw [if_pos h]

/-- At level OPEN no token is needed, so that none has reserved bits. -/
theorem tokenReserved_opened {x : Security} (h : x.level = .opened) : tokenReserved x = false := by
  simp [tokenReserved, h]

/-- At level OPEN only DARK and the reserved REQ 3 refuse. -/
theorem openRefusal_opened (hl : (s.com d).sec.level = .opened) (hi : (s.com d).sec.imgLock = false) (hd : s.inDark d = false)
    (hq : (s.com d).sec.req ≠ 3) : s.openRefusal d = 0 := by
  unfold State.openRefusal
  simp only [hl, hi, hd, Bool.not_false, and_self, if_true, Bool.false_eq_true, if_false]
  exact if_neg hq

/-- CONTROL asked for at level OPEN: the session opens with no rights of a token. -/
theorem openSession_control (hl : (s.com d).sec.level = .opened) (hq : (s.com d).sec.req = 2)
    (hd : ¬ (d = .tsu ∧ s.power.state = 3)) : s.openSession d =
    s.modSec d fun x => { x with inject := false, notAfter := 0xFFFFFFFFFFFFFFFF, session := .control } := by
  unfold State.openSession
  dsimp only
  rw [if_neg fun h => hd h.2, modSec_modSec]
  refine modSec_congr ?_
  simp [hl, hq]

/-- In DEEP a CONTROL session waits for NAP. -/
theorem openSession_deep {s : State} (hl : s.tsuC.sec.level = .opened) (hq : s.tsuC.sec.req = 2) (hd : s.power.state = 3) :
    s.openSession .tsu =
    (s.modSec .tsu fun x => { x with inject := false, notAfter := 0xFFFFFFFFFFFFFFFF, pending := true }).powerChoice := by
  unfold State.openSession
  dsimp only
  rw [if_pos ⟨hq, rfl, hd⟩]
  simp [hl]
  rfl

/-- The check of an OPEN that asks for CONTROL at level OPEN. -/
theorem execDebugTokenChecked_control (ho : (s.com d).sec.opening ≠ none) (hr : (s.com d).sec.lcRead = true)
    (hl : (s.com d).sec.level = .opened) (hi : (s.com d).sec.imgLock = false) (hq : (s.com d).sec.req = 2) (hdark : s.inDark d = false)
    (hdeep : ¬ (d = .tsu ∧ s.power.state = 3)) : exec (.debugTokenChecked d) s = .next (s.modSec d fun x =>
      { x with opening := none, inject := false, notAfter := 0xFFFFFFFFFFFFFFFF, session := .control, chalFresh := false }) := by
  have hopen : (s.modSec d fun x => { x with opening := none }).openSession d = (s.modSec d fun x => { x with opening := none }).modSec d
      fun x => { x with inject := false, notAfter := 0xFFFFFFFFFFFFFFFF, session := .control } :=
    openSession_control (by rw [com_modSec]; exact hl) (by rw [com_modSec]; exact hq)
      (by rw [show (s.modSec d _).power = s.power from congrArg Tsu.power (tsu_modSec ..)]; exact hdeep)
  rw [execDebugTokenChecked_checked ho hr (tokenReserved_opened hl),
    tokenChecked_opens (openRefusal_opened hl hi hdark fun h => absurd (hq.symm.trans h) (by decide)), hopen, modSec_modSec, modSec_modSec]

/-- In DEEP the session stays as it is, and waits. -/
theorem execDebugTokenChecked_deep {s : State} (ho : s.tsuC.sec.opening ≠ none) (hr : s.tsuC.sec.lcRead = true)
    (hl : s.tsuC.sec.level = .opened) (hi : s.tsuC.sec.imgLock = false) (hq : s.tsuC.sec.req = 2) (hdeep : s.power.state = 3) :
    exec (.debugTokenChecked .tsu) s = .next ((s.modSec .tsu fun x =>
      { x with opening := none, inject := false, notAfter := 0xFFFFFFFFFFFFFFFF, pending := true }).powerChoice.modSec .tsu fun x =>
        { x with chalFresh := false }) := by
  have hdark : s.inDark .tsu = false := by
    unfold State.inDark
    rw [hdeep]
    rfl
  have hopen : (s.modSec .tsu fun x => { x with opening := none }).openSession .tsu = State.powerChoice (s.modSec .tsu fun x =>
      { x with opening := none, inject := false, notAfter := 0xFFFFFFFFFFFFFFFF, pending := true }) := openSession_deep hl hq hdeep
  rw [execDebugTokenChecked_checked (d := .tsu) ho hr (tokenReserved_opened hl),
    tokenChecked_opens (openRefusal_opened (d := .tsu) hl hi hdark fun h => absurd (hq.symm.trans h) (by decide)), hopen]

end

/-! ## The end of a session (R379) -/

section
variable {d : Dev} {s : State}

theorem execDebugSessionExpiry_past (h : (s.com d).sec.notAfter < s.now d) :
    exec (.debugSessionExpiry d) s = .next (s.modSec d Security.endSession) :=
  due_of (f := fun s => s.modSec d Security.endSession) (decide_eq_true h)

theorem execDebugSessionExpiry_early (h : s.now d ≤ (s.com d).sec.notAfter) : exec (.debugSessionExpiry d) s = .next s :=
  due_unless (f := fun s => s.modSec d Security.endSession) (decide_eq_false (BitVec.not_lt.mpr h))

end

/-! ## STOP and CONTINUE (R380, R382) -/

section
variable {s : State}

theorem dbgAsk_denied (go : Bool) (c : Nat) (h : s.tsuC.sec.session ≠ .control) : s.dbgAsk go c = s.denied .tsu := if_neg h

theorem dbgAsk_control (go : Bool) (c : Nat) (h : s.tsuC.sec.session = .control) :
    s.dbgAsk go c = s.nextTick (if go then .go else .stop) c := if_pos h

theorem dbgStopStep_running {c : Nat} (h : (s.chan c).state = .running) :
    s.chanAct .stop c = (s.stopOne c 9).stopMates (s.lockMates c) cCommitFail {} := if_neg (not_not.mpr h)

theorem dbgStopStep_idle {c : Nat} (h : (s.chan c).state ≠ .running) : s.chanAct .stop c = s := if_pos h

theorem dbgGoOn_idle {c : Nat} (h : (s.chan c).state ≠ .stopped) : s.chanAct .go c = s := if_pos h

/-- A STOPPED channel goes on from now. -/
def Chan.goneOn (x : Chan) (now : Tick) : Chan :=
  { x with state := .running, holdCause := 0, debug := true, prog := { x.prog with refTick := now, readyTick := now, lateNext := false } }

theorem chan_dbgGoOn {c : Nat} (h : (s.chan c).state = .stopped) :
    (s.chanAct .go c).chan c = (s.chan c).goneOn (s.now .tsu) ∧ ∀ k, k ≠ c → (s.chanAct .go c).chan k = s.chan k := by
  have hgo : s.chanAct .go c = ((s.emit (.shd c false)).modChan c fun x => x.goneOn (s.now .tsu)).repeatBroken c { index := (s.chan c).pc } :=
    if_neg (not_not.mpr h)
  have hchan : ∀ k, (s.chanAct .go c).chan k = ((s.emit (.shd c false)).modChan c fun x => x.goneOn (s.now .tsu)).chan k := fun k => by
    rw [hgo, repeatBroken_eq, chan_of_sansFaults (sansFaults_raiseFault ..)]
  constructor
  · rw [hchan, chan_modChan _ _ _ (chan_ne_reset _ (by simp [Chan.goneOn]))]
    rfl
  · intro k hk
    rw [hchan, chan_modChan_other _ _ _ _ hk]
    rfl

end

/-! ## The life-cycle record (R374, R375) -/

section
variable {s : State} {d : Dev} {a b : List Word}

theorem execLifecycleRead_again (h : (s.com d).sec.lcRead = true) : exec (.lifecycleRead d a b) s = .next s := if_pos h

theorem execLifecycleRead_first (h : (s.com d).sec.lcRead = false) (ha : recordReserved d (s.com d).sec.fuses a = false)
    (hb : d = .jup → recordReserved d (s.com d).sec.fuses b = false) : exec (.lifecycleRead d a b) s = .next (s.lifecycle d a b) := by
  have hres : (recordReserved d (s.com d).sec.fuses a || (decide (d = .jup) && recordReserved d (s.com d).sec.fuses b)) = false := by
    rw [ha, Bool.false_or, Bool.and_eq_false_imp]
    exact fun h => hb (of_decide_eq_true h)
  change execLifecycleRead d a b s = _
  unfold execLifecycleRead
  simp only [h, hres, Bool.false_eq_true, if_false]

theorem sec_lifecycle : ((s.lifecycle d a b).com d).sec = { ((s.recordTaken d a b).com d).sec with lcRead := true } := by
  rw [com_lifecycle, com_modSec]

/-- Without a valid copy the level is the fuse's, locked to images above OPEN. -/
theorem sec_noRecord : ((s.noRecord d).com d).sec = { (s.com d).sec with
    level := (s.com d).sec.fuses.level, lcOk := false, imgLock := decide ((s.com d).sec.fuses.level ≠ .opened),
    allowVendor := false, minImageVersion := 0 } := by
  rw [State.noRecord, sec_of_steady (steady_raiseLevel ..), com_modSec]

theorem sec_applyRecord (ws : List Word) : ((s.applyRecord d ws).com d).sec = { (s.com d).sec with
    fuses := (s.com d).sec.fuses.blown ws, level := levelOf (recordLevel ws), lcOk := true, imgLock := false,
    allowVendor := (nthW ws 0).getLsbD 29, minImageVersion := (nthW ws 2).extractLsb' 0 32 } := by
  unfold State.applyRecord
  extract_lets f lv f' s1
  have hs1 : (s1.com d).sec = { (s.com d).sec with
      fuses := f', level := lv, lcOk := true, imgLock := false, allowVendor := (nthW ws 0).getLsbD 29,
      minImageVersion := (nthW ws 2).extractLsb' 0 32 } := by
    rw [sec_of_steady (steady_endLevel ..), com_modSec]
  split
  · exact hs1
  · rw [com_emit]; exact hs1

theorem copyInForce_none (ha : recordValid d (s.com d).sec.fuses a = false) (hb : recordValid d (s.com d).sec.fuses b = false) :
    s.copyInForce d a b = none := by
  simp [State.copyInForce, chooseCopy, ha, hb]

/-- A TSU has one copy. -/
theorem copyInForce_tsu (ha : recordValid .tsu s.tsuC.sec.fuses a = true) : s.copyInForce .tsu a b = some false := by
  simp [State.copyInForce, chooseCopy, ha]

end

/-- Settles O54: the check of a token is read off its refusal or the session it opens; a stop and a going-on are the channel's own;
the record is read off the copy in force. -/
theorem sessionsAndRecord : Obligations.SessionsAndRecord := by
  refine ⟨?chal, ?opens, fun d s => execDebugTokenChecked_idle, ?refused, ?jupOpens, ?tsuOpens, ?deep, ?close,
    fun d s => execDebugSessionExpiry_past, ?expired, fun d s => execDebugSessionExpiry_early,
    ?asked, ?acts, fun c s => dbgStopStep_running, fun c s => ⟨dbgStopStep_idle, dbgGoOn_idle⟩, fun c s => chan_dbgGoOn,
    fun d a b s => execLifecycleRead_again, ?record, fun x => rfl⟩
  case chal =>
    intro d s
    exact ⟨_, rfl, by rw [com_modSec], by rw [com_modSec]; rfl, by rw [freeCtr_modSec]; rfl, by rw [tsu_modSec]; rfl,
      by rw [jup_modSec]; rfl⟩
  case opens =>
    intro d s
    refine ⟨_, rfl, ?_, by rw [com_modSec], tsu_modSec .., jup_modSec ..⟩
    rw [com_modSec]
    cases (s.com d).sec.opening <;> rfl
  case refused =>
    intro d s ho hr ht href
    rw [execDebugTokenChecked_checked ho hr ht, tokenChecked_refused href]
  case jupOpens =>
    intro s ho hr hl hi hq
    exact ⟨_, execDebugTokenChecked_control (d := .jup) ho hr hl hi hq rfl fun h => Dev.noConfusion h.1, rfl, rfl, rfl, rfl⟩
  case tsuOpens =>
    intro s ho hr hl hi hq hdeep hdark
    exact ⟨_, execDebugTokenChecked_control (d := .tsu) ho hr hl hi hq (decide_eq_false fun h => hdark h.2) fun h => hdeep h.2,
      rfl, rfl, rfl, rfl, rfl, rfl⟩
  case deep =>
    intro s ho hr hl hi hq hdeep
    have hsec := sec_of_steady (steady_powerChoice (s.modSec .tsu fun x =>
      { x with opening := none, inject := false, notAfter := 0xFFFFFFFFFFFFFFFF, pending := true })) .tsu
    exact ⟨_, execDebugTokenChecked_deep ho hr hl hi hq hdeep, (congrArg Security.session hsec :), (congrArg Security.pending hsec :)⟩
  case close =>
    intro d s
    exact ⟨_, rfl, by rw [com_modSec]; rfl, by rw [com_modSec]; rfl, by rw [com_modSec]; rfl, by rw [com_modSec], tsu_modSec ..,
      jup_modSec ..⟩
  case expired =>
    intro d s h
    exact ⟨_, execDebugSessionExpiry_past h, by rw [com_modSec]; rfl, by rw [com_modSec]; rfl, tsu_modSec .., jup_modSec ..⟩
  case asked =>
    intro c s h
    exact ⟨congrArg Host.Outcome.next (dbgAsk_denied false c h), congrArg Host.Outcome.next (dbgAsk_denied true c h)⟩
  case acts =>
    intro c s h
    exact ⟨_, _, congrArg Host.Outcome.next (dbgAsk_control false c h), congrArg Host.Outcome.next (dbgAsk_control true c h),
      rfl, rfl, rfl, rfl, rfl, rfl, rfl, rfl⟩
  case record =>
    intro d a b s hr ha hb
    refine ⟨_, execLifecycleRead_first hr ha hb, by rw [sec_lifecycle], fun hva hvb => ?_, ?_⟩
    · rw [sec_lifecycle, recordTaken_none (copyInForce_none hva hvb), sec_noRecord]
      exact ⟨rfl, rfl, decide_eq_true_iff⟩
    · rintro rfl hva
      rw [sec_lifecycle, recordTaken_first (copyInForce_tsu hva), sec_applyRecord]
      exact ⟨rfl, rfl, rfl, rfl⟩

end Sys2Proof.Machine
end

section
/-! PROOFS of spec families 16 and 17: the flash of the Jupin, its resets, and the endpoint's. -/
namespace Sys2Proof.Machine
open Sys2Proof

/-! ## Record words read back (R461) -/

section
variable {s : State} {d : Dev}

theorem tok_setReg (off : Nat) (v : Half) (h : tok (regReset d) none (s.com d).regs = true) :
    tok (regReset d) none ((s.setReg d off v).com d).regs = true := by
  rw [com_setReg]
  exact tok_tset _ _ _ _ _ h fun l hl => nomatch hl

theorem tok_setReg64 (off : Nat) (v : Word) (h : tok (regReset d) none (s.com d).regs = true) :
    tok (regReset d) none ((s.setReg64 d off v).com d).regs = true := tok_setReg _ _ (tok_setReg _ _ h)

theorem reg64_setReg64 (off : Nat) (v : Word) (h : tok (regReset d) none (s.com d).regs = true) :
    (s.setReg64 d off v).reg64 d off = v := by
  rw [State.reg64, State.setReg64, reg_setReg _ _ _ _ (tok_setReg _ _ h), reg_setReg_other _ _ _ _ _ (by omega), reg_setReg _ _ _ _ h]
  exact (BitVec.extractLsb'_append_extractLsb'_eq_extractLsb' rfl).trans BitVec.extractLsb'_eq_self

/-- Words of records that do not overlap leave each other alone. -/
theorem reg64_setReg64_other {o off : Nat} (v : Word) (h : o + 8 ≤ off ∨ off + 8 ≤ o) :
    (s.setReg64 d off v).reg64 d o = s.reg64 d o := by
  have hreg : ∀ k, k ≠ off → k ≠ off + 4 → (s.setReg64 d off v).reg d k = s.reg d k := fun k h1 h2 => by
    rw [State.setReg64, reg_setReg_other _ _ _ _ _ h2, reg_setReg_other _ _ _ _ _ h1]
  rw [State.reg64, State.reg64, hreg o (by omega) (by omega), hreg (o + 4) (by omega) (by omega)]

/-- Consecutive words from `base` on, each stored at its own number. -/
def State.storeWords (s : State) (d : Dev) (base : Nat) (l : List (Nat × Word)) : State :=
  l.foldl (fun s e => s.setReg64 d (base + 8 * e.1) e.2) s

theorem reg64_storeWords_other {base i : Nat} {l : List (Nat × Word)} (h : i ∉ l.map Prod.fst) :
    (s.storeWords d base l).reg64 d (base + 8 * i) = s.reg64 d (base + 8 * i) := by
  induction l generalizing s with
  | nil => rfl
  | cons e l ih =>
    obtain ⟨hne, hl⟩ := not_or.mp (mt List.mem_cons.mpr h)
    exact (ih hl).trans (reg64_setReg64_other _ (by omega))

/-- Each word stored under a number of its own is read back. -/
theorem reg64_storeWords {base : Nat} {l : List (Nat × Word)} (hn : (l.map Prod.fst).Nodup)
    (htok : tok (regReset d) none (s.com d).regs = true) {e : Nat × Word} (he : e ∈ l) :
    (s.storeWords d base l).reg64 d (base + 8 * e.1) = e.2 := by
  induction l generalizing s with
  | nil => cases he
  | cons a l ih =>
    obtain ⟨ha, hl⟩ := List.nodup_cons.mp hn
    obtain rfl | he := List.mem_cons.mp he
    · exact (reg64_storeWords_other ha).trans (reg64_setReg64 _ _ htok)
    · exact ih hl (tok_setReg64 _ _ htok) he

/-- A list of words, each with its number. -/
def numbered (ws : List Word) : List (Nat × Word) := (List.range recordWords).map fun i => (i, nthW ws i)

theorem zip_range_eq_numbered (ws : List Word) :
    (List.range recordWords).zip ((List.range recordWords).map fun i => nthW ws i) = numbered ws := by
  have h := List.zip_map' (f := id) (g := fun i => nthW ws i) (l := List.range recordWords)
  rwa [List.map_id] at h

theorem nodup_numbered (ws : List Word) : ((numbered ws).map Prod.fst).Nodup := by
  rw [numbered, List.map_map]
  exact (List.map_id _).symm ▸ List.nodup_range

theorem frame_storeWords (base : Nat) (l : List (Nat × Word)) :
    (s.storeWords d base l).tsu = s.tsu ∧ (s.storeWords d base l).jup = s.jup ∧ (s.storeWords d base l).out = s.out :=
  ⟨foldl_kept (g := State.tsu) (fun _ _ => (tsu_setReg ..).trans (tsu_setReg ..)) l s,
    foldl_kept (g := State.jup) (fun _ _ => (jup_setReg ..).trans (jup_setReg ..)) l s,
    foldl_kept (g := State.out) (fun _ _ => (out_setReg ..).trans (out_setReg ..)) l s⟩

end

/-! ## The flash (R448, R473) -/

section
variable {k : Bool} {s : State}

/-- A copy that something has read or written is read as it stands. -/
theorem flashCopy_known (h : tget [] s.jup.flash (flashKey k) ≠ []) :
    s.flashCopy k = ((List.range recordWords).map fun i => nthW (tget [] s.jup.flash (flashKey k)) i, s) := by
  unfold State.flashCopy
  split
  · next hnil => exact absurd hnil h
  · rfl

theorem flash_setFlash {ws : List Word} (h : ws ≠ []) (err : BitVec 2) (op : Nat) :
    tget [] ((s.setFlash k ws).flashDone k op err).jup.flash (flashKey k) = ws := tget_tset_ne _ _ _ _ h

theorem flash_setFlash_other (ws : List Word) (err : BitVec 2) (op : Nat) :
    tget [] ((s.setFlash k ws).flashDone k op err).jup.flash (flashKey (!k)) = tget [] s.jup.flash (flashKey (!k)) :=
  tget_tset_other _ _ _ _ _ (by cases k <;> decide)

theorem execFlashErase_inForce (h : s.jup.lcCopy = some k) : exec (.flashErase k) s = .next (s.flashDone k 2 1) :=
  congrArg Host.Outcome.next (if_pos (decide_eq_true h))

theorem execFlashProgram_inForce (h : s.jup.lcCopy = some k) : exec (.flashProgram k) s = .next (s.flashDone k 3 1) :=
  congrArg Host.Outcome.next (if_pos (decide_eq_true h))

theorem inForce_false (h : s.jup.lcCopy ≠ some k) : ¬ s.inForce k = true := by
  rw [State.inForce, decide_eq_true_iff]; exact h

theorem execFlashErase_other (h : s.jup.lcCopy ≠ some k) : exec (.flashErase k) s =
    .next ((s.setFlash k (List.replicate recordWords (BitVec.allOnes 64))).flashDone k 2 0) :=
  congrArg Host.Outcome.next (if_neg (inForce_false h))

/-- Of an erased copy a program leaves the buffer's words: it clears the bits that are 0 there. -/
theorem programmed_erased (s : State) : ((((List.range recordWords).map fun i =>
    nthW (List.replicate recordWords (BitVec.allOnes 64)) i).zip s.bufferWords).map fun e => e.1 &&& e.2) = s.bufferWords := by
  rw [State.bufferWords, List.zip_map', List.map_map]
  refine List.map_congr_left fun i hi => ?_
  have hone : nthW (List.replicate recordWords (BitVec.allOnes 64)) i = BitVec.allOnes 64 := by
    rw [nthW, List.getD_replicate _ (List.mem_range.mp hi)]
  simp only [Function.comp_apply, hone, BitVec.allOnes_and]

theorem execFlashProgram_erased (h : s.jup.lcCopy ≠ some k)
    (he : tget [] s.jup.flash (flashKey k) = List.replicate recordWords (BitVec.allOnes 64)) :
    exec (.flashProgram k) s = .next ((s.setFlash k s.bufferWords).flashDone k 3 0) := by
  have hcopy := flashCopy_known (s := s) (k := k) (by rw [he]; exact List.cons_ne_nil _ _)
  rw [he] at hcopy
  change Host.Outcome.next (s.programFlash k) = _
  unfold State.programFlash
  rw [if_neg (inForce_false h), hcopy]
  dsimp only
  rw [programmed_erased, if_pos rfl]

theorem execFlashRead_known (h : tget [] s.jup.flash (flashKey k) ≠ []) : exec (.flashRead k) s =
    .next (((s.storeWords .jup flashBuffer (numbered (tget [] s.jup.flash (flashKey k)))).setFlash k ((List.range recordWords).map fun i =>
      nthW (tget [] s.jup.flash (flashKey k)) i)).flashDone k 1 0) := by
  change Host.Outcome.next (s.readFlash k) = _
  unfold State.readFlash
  rw [flashCopy_known h, ← zip_range_eq_numbered]
  rfl

/-- What a copy holds and JP_FL_CTRL shows are beside everything else. -/
theorem frame_setFlash (ws : List Word) (op : Nat) (err : BitVec 2) :
    ((s.setFlash k ws).flashDone k op err).jup.flErr = err ∧ ((s.setFlash k ws).flashDone k op err).tsu = s.tsu ∧
    ((s.setFlash k ws).flashDone k op err).out = s.out ∧
    ∀ off, ((s.setFlash k ws).flashDone k op err).reg64 .jup off = s.reg64 .jup off :=
  ⟨rfl, rfl, rfl, fun _ => rfl⟩

/-- The words of the copy stand in the buffer, each at its number. -/
theorem execFlashRead_buffer (hlen : (tget [] s.jup.flash (flashKey k)).length = recordWords)
    (htok : tok (regReset .jup) none s.jupC.regs = true) :
    ∃ t, exec (.flashRead k) s = .next t ∧ t.jup.flErr = 0 ∧ t.tsu = s.tsu ∧ t.out = s.out ∧
      ∀ i, i < recordWords → t.reg64 .jup (flashBuffer + 8 * i) = nthW (tget [] s.jup.flash (flashKey k)) i := by
  have hne : tget [] s.jup.flash (flashKey k) ≠ [] := List.ne_nil_of_length_pos (by rw [hlen]; decide)
  obtain ⟨herr, htsu, hout, hreg⟩ := frame_setFlash (k := k) (s := s.storeWords .jup flashBuffer (numbered (tget [] s.jup.flash
    (flashKey k)))) ((List.range recordWords).map fun i => nthW (tget [] s.jup.flash (flashKey k)) i) 1 0
  obtain ⟨stsu, -, sout⟩ := frame_storeWords (s := s) (d := .jup) flashBuffer (numbered (tget [] s.jup.flash (flashKey k)))
  refine ⟨_, execFlashRead_known hne, herr, htsu.trans stsu, hout.trans sout, fun i hi => ?_⟩
  have hmem : (i, nthW (tget [] s.jup.flash (flashKey k)) i) ∈ numbered (tget [] s.jup.flash (flashKey k)) :=
    List.mem_map_of_mem (List.mem_range.mpr hi)
  have hword := reg64_storeWords (s := s) (d := .jup) (base := flashBuffer) (nodup_numbered _) htok hmem
  rw [hreg]
  exact hword

end

/-! ## The firmware's version (R431) -/

section
variable {s : State} {v : Half}

theorem execFwVersionWrite_first (h : s.fwSet = false) : exec (.fwVersionWrite v) s = .next (s.setReg .tsu 0x44 (v ||| 0x80000000)) :=
  congrArg Host.Outcome.next (if_neg (by rw [h]; decide))

theorem execFwVersionWrite_again (h : s.fwSet = true) : exec (.fwVersionWrite v) s = .next s :=
  congrArg Host.Outcome.next (if_pos h)

end

/-! ## Resets (R440, R442, R443, R454, R468) -/

/-- Bits 6 to 5 of a word are those placed there, whatever the other bits. -/
theorem strapField (r : Half) (v : BitVec 8) : fld ((r &&& 0xFFFFFF9F) ||| put 32 6 5 (strapLo v)) 6 5 = strapLo v := by
  have hbits : ((r &&& 0xFFFFFF9F) ||| put 32 6 5 (strapLo v)).extractLsb' 5 2 = v.extractLsb' 3 2 := by
    ext i hi
    have hmask : (0xFFFFFF9F : Half).getLsbD (5 + i) = false := by
      interval_cases i <;> rfl
    have hplaced : (put 32 6 5 (strapLo v)).getLsbD (5 + i) = (v.extractLsb' 3 2).getLsbD i := by
      rw [getLsbD_put]
      simp only [Nat.add_sub_cancel_left, Nat.le_add_right, decide_true, Bool.and_true, hi, show 5 + i < 32 by omega, Bool.true_and]
      rfl
    rw [BitVec.getElem_extractLsb', BitVec.getLsbD_or, BitVec.getLsbD_and, hmask, Bool.and_false, Bool.false_or, hplaced]
    exact BitVec.getLsbD_eq_getElem hi
  exact congrArg BitVec.toNat hbits

section
variable {s : State} {v : BitVec 8} {f : BitVec 24}

theorem reg_strapRegs_stacks : (s.jupPowerOn v f).reg .jup 0x60080 = (~~~f).setWidth 32 :=
  tget_tset_tok _ _ _ _ none (tok_tset _ _ _ _ _ rfl fun _ hl => nomatch hl)

theorem reg_strapRegs_clock : (s.jupPowerOn v f).reg .jup (crBase .jup) =
    (regReset .jup (crBase .jup) &&& 0xFFFFFF9F) ||| put 32 6 5 (strapLo v) :=
  (tget_tset_away _ _ _ _ _ _ (by decide)).trans (tget_tset_tok _ [] _ _ none rfl)

end

theorem tget_filter {α : Type} {p : Nat × α → Bool} {k : Nat} (hp : ∀ v, p (k, v) = true) (d : α) (t : Table α) :
    tget d (t.filter p) k = tget d t k := by
  induction t with
  | nil => rfl
  | cons a t ih =>
    obtain ⟨j, w⟩ := a
    by_cases hj : j = k
    · subst hj
      rw [List.filter_cons_of_pos (hp w)]
      simp [tget]
    · by_cases ha : p (j, w) = true
      · rw [List.filter_cons_of_pos ha]
        simp [tget, hj, ih]
      · rw [List.filter_cons_of_neg ha]
        simp [tget, hj, ih]

/-- Settles O55: the flash and the firmware's version are read back as they are stored; a reset is read off the record it writes, and
the words of the straps off the table it leaves. -/
theorem boardCommands : Obligations.BoardCommands := by
  refine ⟨fun k s => rfl, fun k s => execFlashRead_buffer, fun k s h => ⟨execFlashErase_inForce h, execFlashProgram_inForce h⟩,
    fun k s h => ⟨_, execFlashErase_other h, flash_setFlash (List.cons_ne_nil _ _) .., rfl, rfl, flash_setFlash_other ..⟩,
    fun k s h he => ⟨_, execFlashProgram_erased h he, flash_setFlash (List.cons_ne_nil _ _) .., rfl, rfl⟩,
    fun v s => execFwVersionWrite_first, ?version, fun v s => execFwVersionWrite_again, fun v f s h => if_pos h, ?power,
    fun s => ⟨_, rfl, rfl, rfl, rfl, rfl, rfl, rfl, rfl, rfl, rfl⟩, fun s h => due_unless h, fun s h => due_of h, ?rise, ?low,
    fun s => ⟨_, rfl, rfl, rfl, rfl⟩⟩
  case version =>
    intro v s h htok
    exact ⟨_, execFwVersionWrite_first h, reg_setReg _ _ _ _ htok, fun o ho => reg_setReg_other _ _ _ _ _ ho, rfl, rfl, rfl⟩
  case power =>
    intro v f s h
    refine ⟨_, if_neg h, reg_strapRegs_stacks, rfl, rfl, rfl, rfl, rfl, ?_, rfl, rfl⟩
    rw [reg_strapRegs_clock, strapField]
  case rise =>
    intro s h
    exact ⟨_, due_of h, rfl, rfl, rfl, rfl, rfl, List.map_map ..⟩
  case low =>
    intro s
    exact ⟨_, rfl, rfl, rfl, rfl, fun off h => tget_filter (fun v => by simp [h]) ..⟩

end Sys2Proof.Machine
end

section
/-! PROOFS of spec family 13: Shutters and plates. -/
namespace Sys2Proof.Machine
open Sys2Proof

/-! ## The entry that an accepted command opens (R344) -/

section
variable {s s' : State} {d : Dev} {h : Hdr} {op : BitVec 8} {light : Bool} {job : Option (BitVec 15)} {hd : Half}

/-- The low bits of a handle are the sequence number. -/
theorem seq_of_handle (a : Nat) (q : BitVec 24) : (put 32 31 24 a ||| put 32 23 0 q.toNat : Half).extractLsb' 0 24 = q := by
  ext i hi
  have hhigh : ¬ 24 ≤ i := by omega
  have hword : i < 32 := by omega
  have hlow : i < 23 + 1 := hi
  rw [BitVec.getElem_extractLsb', BitVec.getLsbD_or, getLsbD_put, getLsbD_put, Nat.zero_add]
  simp only [hhigh, hword, hlow, decide_false, decide_true, Bool.and_false, Bool.false_and, Bool.false_or, Nat.zero_le, Bool.true_and,
    Nat.sub_zero]
  exact BitVec.getLsbD_eq_getElem hi

theorem cplEntry_accept (ha : s.accept d h op light job = (s', some hd)) : ∃ e, s'.cplEntry d hd = some e ∧ e.valid = false := by
  unfold State.accept at ha
  dsimp only at ha
  split at ha
  · cases ha
  split at ha
  · cases ha
  split at ha
  · cases ha
  obtain ⟨hs, hhd⟩ := Prod.mk.inj ha
  obtain rfl := Option.some.inj hhd
  have hentries : (s'.com d).cmds.entries = tset none (s.com d).cmds.entries (entryIndex d (s.com d).cmds.seq)
      (some { handle := put 32 31 24 h.ctx.toNat ||| put 32 23 0 (s.com d).cmds.seq.toNat, opcode := op, valid := false, status := 0,
              endTick := 0, results := [], notify := h.notify }) := by
    subst hs
    cases d <;> rfl
  refine ⟨{ handle := put 32 31 24 h.ctx.toNat ||| put 32 23 0 (s.com d).cmds.seq.toNat, opcode := op, valid := false, status := 0,
            endTick := 0, results := [], notify := h.notify }, ?_, rfl⟩
  rw [State.cplEntry, seq_of_handle, hentries, tget_tset_ne _ _ _ _ (by simp)]
  exact if_pos rfl

end

/-! ## What postings and messages leave of the Shutter state -/

section
variable {s : State} {d e : Dev}

theorem shut_send (n : Nat) (m : Msg) : ((s.send d n m).com e).shut = (s.com e).shut := by cases d <;> cases e <;> rfl

theorem shut_sendAll (ns : List Nat) (m : Msg) : ((s.sendAll d ns m).com e).shut = (s.com e).shut :=
  foldl_kept (g := fun s => (s.com e).shut) (fun _ n => shut_send n m) ns s

theorem shut_consume (n : Nat) (mt : BitVec 8) (ws : List Word) : ((s.consume d n mt ws).com e).shut = (s.com e).shut := by
  cases d <;> cases e <;> rfl

theorem shut_post (h : Half) (st : BitVec 8) (rs : List Word) : ((s.post d h st rs).com e).shut = (s.com e).shut := by
  unfold State.post
  dsimp only
  split
  · rfl
  split
  · rfl
  · rw [com_postIrq]
    cases d <;> cases e <;> rfl

theorem mem_out_post {o : Out} (h : Half) (st : BitVec 8) (rs : List Word) (ho : o ∈ s.out) : o ∈ (s.post d h st rs).out := by
  have hemit : ∀ (u : State) (x : Out), o ∈ u.out → o ∈ (u.emit x).out := fun u x hu => by
    rw [out_emit]
    split
    · exact hu
    · exact List.mem_append_left _ hu
  have hirq : ∀ (u : State) (x : CplEntry), o ∈ u.out → o ∈ (u.postIrq d x).out := fun u x hu => by
    unfold State.postIrq
    cases d with
    | tsu =>
      dsimp only
      split
      · exact hemit _ _ hu
      · exact hu
    | jup =>
      dsimp only
      split
      · exact hemit _ _ hu
      split
      · exact hemit _ _ hu
      · exact hu
  unfold State.post
  dsimp only
  split
  · exact ho
  split
  · exact ho
  · refine hirq _ _ ?_
    cases d <;> exact ho

/-- The answers of a forwarded command that is no restore leave it. -/
theorem shut_answered {op : BitVec 8} (hop : op ≠ opRestore) (h : Half) (p : Nat) (st : BitVec 8) (rs : List Word) :
    ((s.answered h p op st rs).com e).shut = (s.com e).shut := by
  have hends : ∀ f : Forward, ((s.forwardEnds f op).com e).shut = (s.com e).shut := fun f => by
    have hnone : s.jup.bringIns.find? (fun b => decide (b.handle = f.handle ∧ b.phase = 0 ∧ op = opRestore)) = none :=
      List.find?_eq_none.mpr fun b _ => by simp [hop]
    unfold State.forwardEnds
    dsimp only
    split
    · rw [jup_modJup, hnone, shut_post, com_modJup]
    · rw [shut_send, com_modJup]
  unfold State.answered
  dsimp only
  split
  · rfl
  split
  · exact hends _
  · rw [com_modJup]

theorem shut_shutterAnswer (id : BitVec 16) (h : Half) (link : Nat) (b : Bool) :
    ((s.shutterAnswer d id h link b).com e).shut = (s.com e).shut := by
  cases d
  · exact shut_send ..
  · exact shut_answered (by decide) ..

end

/-! ## SHUTTER (R384) -/

section
variable {h : Hdr} {t : Tick} {set : BitVec 4} {s s' : State} {hd : Half}

theorem execShutter_below (ha : s.accept .jup h opShutter = (s', some hd)) (hr : s'.role ≠ 3) :
    exec (.shutter h t set) s = .next (s'.post .jup hd stNotMaster []) := by
  change execShutter h t set s = _
  rw [execShutter, withHandle_accepted _ _ _ _ _ _ _ _ _ ha, if_pos hr]

theorem execShutter_forwarded (ha : s.accept .jup h opShutter = (s', some hd)) (hr : s'.role = 3) (hm : s'.jup.timeMaster = false) :
    exec (.shutter h t set) s =
      .next (s'.forwardCmd hd (s'.masterLink hd.toNat) (cmdWords opShutter .self hd [t, set.setWidth 64])) := by
  change execShutter h t set s = _
  rw [execShutter, withHandle_accepted _ _ _ _ _ _ _ _ _ ha, if_neg (not_not.mpr hr), hm]
  rfl

theorem execShutter_tooEarly (ha : s.accept .jup h opShutter = (s', some hd)) (hr : s'.role = 3) (hm : s'.jup.timeMaster = true)
    (ht : t < s'.now .jup + shutterLead) : exec (.shutter h t set) s = .next (s'.post .jup hd stTooEarly []) := by
  change execShutter h t set s = _
  rw [execShutter, withHandle_accepted _ _ _ _ _ _ _ _ _ ha, if_neg (not_not.mpr hr), hm]
  simp only [Bool.not_true, Bool.false_eq_true, if_false, if_pos ht]

theorem execShutter_sent (ha : s.accept .jup h opShutter = (s', some hd)) (hr : s'.role = 3) (hm : s'.jup.timeMaster = true)
    (ht : s'.now .jup + shutterLead ≤ t) : exec (.shutter h t set) s = .next (s'.shutterMaster hd t set) := by
  change execShutter h t set s = _
  rw [execShutter, withHandle_accepted _ _ _ _ _ _ _ _ _ ha, if_neg (not_not.mpr hr), hm]
  simp only [Bool.not_true, Bool.false_eq_true, if_false, if_neg (BitVec.not_lt.mpr ht)]

end

/-! ## A Shutter that waits, is late, or goes on (R384, R385) -/

section
variable {d : Dev} {s : State} {id : BitVec 16} {set : BitVec 4} {t : Tick} {h : Half} {n : Nat} {ws : List Word}

theorem shutterWait_early (ht : s.now d < t) : s.shutterWait d id set t h n =
    s.modShut d fun x => { x with waiting := x.waiting ++ [(id, set, t, h, n)] } := if_neg (BitVec.not_le.mpr ht)

theorem shutterWait_late (ht : t ≤ s.now d) : s.shutterWait d id set t h n =
    (s.modShut d fun x => { x with missed := satInc x.missed }).shutterAnswer d id h n false := if_pos ht

/-- Sending a Shutter on opens the count of its answers and fills the queues of links. -/
theorem frame_shutterOn : (s.shutterOn h n ws).jupC.shut = s.jupC.shut ∧ (s.shutterOn h n ws).now .jup = s.now .jup ∧
    (s.shutterOn h n ws).tsu = s.tsu ∧ (s.shutterOn h n ws).tsuC = s.tsuC ∧ (s.shutterOn h n ws).out = s.out ∧
    (s.shutterOn h n ws).jup.forwards = s.jup.forwards ++
      [{ handle := h, fromPort := n, left := s.shutterLinks n ++ [ownPort], status := stOk, results := [] }] := by
  refine ⟨shut_sendAll (e := .jup) .., ?_, tsu_sendAll .., ?_, out_sendAll .., ?_⟩
  · exact foldl_kept (g := fun s => s.now .jup) (fun s k => (rfl : (s.send .jup k (localMsg mtShutter ws)).now .jup = s.now .jup))
      (s.shutterLinks n) s
  · exact foldl_kept (g := State.tsuC) (fun s k => (rfl : (s.send .jup k (localMsg mtShutter ws)).tsuC = s.tsuC)) (s.shutterLinks n) s
  · exact congrArg (fun j : Jup => j.forwards ++ _) (jup_sendAll s .jup (s.shutterLinks n) _)

/-- The time master's own Shutter waits for its tick beside the count of its answers. -/
theorem shutterMaster_waits {hd : Half} (ht : s.now .jup < t) : (s.shutterMaster hd t set).jupC.shut =
      { s.jupC.shut with nextId := s.jupC.shut.nextId + 1, seen := (s.jupC.shut.nextId :: s.jupC.shut.seen).take seenMax,
                         waiting := s.jupC.shut.waiting ++ [(s.jupC.shut.nextId, set, t, hd, ownPort)] } ∧
    (s.shutterMaster hd t set).jup.forwards = s.jup.forwards ++
      [{ handle := hd, fromPort := ownPort, left := s.shutterLinks ownPort ++ [ownPort], status := stOk, results := [] }] ∧
    (s.shutterMaster hd t set).tsu = s.tsu ∧ (s.shutterMaster hd t set).tsuC = s.tsuC ∧ (s.shutterMaster hd t set).out = s.out := by
  obtain ⟨hshut, hnow, htsu, htsuC, hout, hfor⟩ := frame_shutterOn
    (s := (s.modShut .jup fun x => { x with nextId := x.nextId + 1 }).noteShutter .jup s.jupC.shut.nextId) (h := hd) (n := ownPort)
    (ws := shutterWords s.jupC.shut.nextId set hd t)
  unfold State.shutterMaster
  dsimp only
  rw [shutterWait_early (by rw [hnow]; exact ht)]
  refine ⟨?_, hfor, htsu, htsuC, hout⟩
  rw [← com_jup, com_modShut, com_jup, hshut]
  rfl

theorem shutterIn_again (hs : s.tsuC.shut.seen.contains ((nthW ws 0).extractLsb' 48 16) = true) : s.shutterIn .tsu n ws = s := if_pos hs

theorem shutterIn_tsu (hs : s.tsuC.shut.seen.contains ((nthW ws 0).extractLsb' 48 16) = false) : s.shutterIn .tsu n ws =
    ((s.noteShutter .tsu ((nthW ws 0).extractLsb' 48 16)).stampShutter .tsu).shutterWait .tsu ((nthW ws 0).extractLsb' 48 16)
      ((nthW ws 0).extractLsb' 44 4) (nthW ws 1) ((nthW ws 0).extractLsb' 0 32) n :=
  if_neg (by rw [com_tsu, hs]; exact Bool.false_ne_true)

theorem shutterIn_jup (hs : s.jupC.shut.seen.contains ((nthW ws 0).extractLsb' 48 16) = false) : s.shutterIn .jup n ws =
    (((s.noteShutter .jup ((nthW ws 0).extractLsb' 48 16)).stampShutter .jup).shutterOn ((nthW ws 0).extractLsb' 0 32) n ws).shutterWait
      .jup ((nthW ws 0).extractLsb' 48 16) ((nthW ws 0).extractLsb' 44 4) (nthW ws 1) ((nthW ws 0).extractLsb' 0 32) n :=
  if_neg (by rw [com_jup, hs]; exact Bool.false_ne_true)

/-- What the arrival of a new Shutter leaves in the Shutter state. -/
def Shut.arrived (x : Shut) (id : BitVec 16) (a : Stamp) : Shut := { x with seen := (id :: x.seen).take seenMax, arrival := some a }

/-- One that comes late is counted, and answered to its sender. -/
theorem shutterIn_late (hs : s.tsuC.shut.seen.contains ((nthW ws 0).extractLsb' 48 16) = false) (ht : nthW ws 1 ≤ s.now .tsu) :
    ∃ a, (s.shutterIn .tsu n ws).tsuC.shut = { s.tsuC.shut.arrived ((nthW ws 0).extractLsb' 48 16) a with
      missed := satInc s.tsuC.shut.missed } ∧ (s.shutterIn .tsu n ws).out = s.out := by
  rw [shutterIn_tsu hs, shutterWait_late (by exact ht)]
  exact ⟨_, rfl, rfl⟩

theorem shut_noteStamp : (((s.noteShutter d id).stampShutter d).com d).shut =
    (s.com d).shut.arrived id { tick := s.now d, frac := s.fresh.1.setWidth 16 } := by
  cases d <;> rfl

/-- A new Shutter whose tick is to come waits for it, and is sent on by a Jupin. -/
theorem shutterIn_waits (hs : (s.com d).shut.seen.contains ((nthW ws 0).extractLsb' 48 16) = false) (ht : s.now d < nthW ws 1) :
    ∃ a : Stamp, a.tick = s.now d ∧ (s.shutterIn d n ws).out = s.out ∧ ((s.shutterIn d n ws).com d).shut =
      { (s.com d).shut.arrived ((nthW ws 0).extractLsb' 48 16) a with
        waiting := (s.com d).shut.waiting ++ [((nthW ws 0).extractLsb' 48 16, (nthW ws 0).extractLsb' 44 4, nthW ws 1,
          (nthW ws 0).extractLsb' 0 32, n)] } := by
  refine ⟨{ tick := s.now d, frac := s.fresh.1.setWidth 16 }, rfl, ?_⟩
  cases d with
  | tsu =>
    rw [shutterIn_tsu hs, shutterWait_early (d := .tsu) (by exact ht)]
    exact ⟨rfl, rfl⟩
  | jup =>
    obtain ⟨hshut, hnow, -, -, hout, -⟩ := frame_shutterOn (s := (s.noteShutter .jup ((nthW ws 0).extractLsb' 48 16)).stampShutter .jup)
      (h := (nthW ws 0).extractLsb' 0 32) (n := n) (ws := ws)
    rw [shutterIn_jup hs, shutterWait_early (by rw [hnow]; exact ht)]
    refine ⟨hout, ?_⟩
    rw [com_modShut, com_jup, hshut]
    rfl

end

/-! ## SHUTTER_LATCH (R385, R387, R388) -/

section
variable {d : Dev} {s : State} {e : BitVec 16 × BitVec 4 × Tick × Half × Nat}

theorem execShutterLatch_none (h : ∀ e ∈ (s.com d).shut.waiting, e.2.2.1 ≠ s.now d) : exec (.shutterLatch d) s = .next s := by
  have hnone : ((s.com d).shut.waiting.filter fun e => decide (e.2.2.1 = s.now d)) = [] :=
    List.filter_eq_nil_iff.mpr fun e he => by simp [h e he]
  change execShutterLatch d s = _
  rw [execShutterLatch, hnone]
  rfl

theorem execShutterLatch_one (hw : (s.com d).shut.waiting = [e]) (ht : e.2.2.1 = s.now d) :
    exec (.shutterLatch d) s = .next (s.latchOne d e) := by
  have hone : ((s.com d).shut.waiting.filter fun e => decide (e.2.2.1 = s.now d)) = [e] := by simp [hw, ht]
  change execShutterLatch d s = _
  rw [execShutterLatch, hone]
  rfl

/-- The state with a Shutter no longer waiting. -/
def State.unwait (s : State) (d : Dev) (e : BitVec 16 × BitVec 4 × Tick × Half × Nat) : State :=
  s.modShut d fun x => { x with waiting := x.waiting.filter fun y => !decide (y = e) }

theorem waiting_unwait (hw : (s.com d).shut.waiting = [e]) : ((s.unwait d e).com d).shut.waiting = [] := by
  rw [State.unwait, com_modShut, hw]
  simp

/-! ### The words of a plate draw free values only -/

theorem freeWords_frame (n : Nat) (s : State) : ∃ k, (s.freeWords n).2 = { s with freeCtr := k } := by
  induction n generalizing s with
  | zero => exact ⟨_, rfl⟩
  | succ n ih =>
    obtain ⟨k, hk⟩ := ih s.fresh.2
    exact ⟨k, hk⟩

theorem plateBlock_frame (s : State) (d : Dev) (b : Nat) : ∃ k, (s.plateBlock d b).2 = { s with freeCtr := k } := by
  unfold State.plateBlock
  dsimp only
  split
  · exact ⟨_, rfl⟩
  split
  · exact freeWords_frame ..
  · exact ⟨_, rfl⟩

theorem plateBlocks_frame (d : Dev) (l : List Nat) (s : State) : ∃ k, (State.plateBlocks d l s).2 = { s with freeCtr := k } := by
  induction l generalizing s with
  | nil => exact ⟨_, rfl⟩
  | cons b l ih =>
    obtain ⟨k, hk⟩ := plateBlock_frame s d b
    obtain ⟨m, hm⟩ := ih (s.plateBlock d b).2
    refine ⟨m, ?_⟩
    change (State.plateBlocks d l (s.plateBlock d b).2).2 = _
    rw [hm, hk]

theorem makePlate_frame (s : State) (d : Dev) (id : BitVec 16) (set : BitVec 4) (t : Tick) :
    ∃ k, (s.makePlate d id set t).2 = { s with freeCtr := k } := plateBlocks_frame ..

/-- A plate names its Shutter, the level and the tick. -/
theorem makePlate_header (s : State) (d : Dev) (id : BitVec 16) (set : BitVec 4) (t : Tick) :
    (s.makePlate d id set t).1.id = id ∧ (s.makePlate d id set t).1.set = set ∧ (s.makePlate d id set t).1.tick = t ∧
    (s.makePlate d id set t).1.level = BitVec.ofNat 2 (s.com d).sec.level.code ∧ nthW (s.makePlate d id set t).1.words 1 = t ∧
    (s.makePlate d id set t).1.reading = false := ⟨rfl, rfl, rfl, rfl, rfl, rfl⟩

/-- A Jupin keeps every plate, a TSU one beside another. -/
theorem keepPlate_room {held : List Plate} (h : d = .jup ∨ held.length < 2) (p : Plate) :
    ∃ ps, keepPlate d p held = some ps ∧ ps.head? = some p := by
  cases d with
  | jup => exact ⟨_, rfl, rfl⟩
  | tsu =>
    match held, h with
    | [], _ => exact ⟨_, rfl, rfl⟩
    | [a], _ => exact ⟨_, rfl, rfl⟩
    | a :: b :: l, h => simp at h

theorem latchOne_inReset (h : s.inReset d = true) :
    s.latchOne d e = (s.unwait d e).shutterAnswer d e.1 e.2.2.2.1 e.2.2.2.2 false := if_pos h

/-- The state with a plate of a Shutter kept. -/
def State.plateKept (s : State) (d : Dev) (ps : List Plate) (t : Tick) : State :=
  s.modShut d fun x => { x with plates := ps, latched := satInc x.latched, lastLatch := some t }

theorem latchOne_kept {ps : List Plate} (h : s.inReset d = false)
    (hk : keepPlate d ((s.unwait d e).makePlate d e.1 e.2.1 e.2.2.1).1 (s.com d).shut.plates = some ps) :
    ∃ k, s.latchOne d e = (if d = .tsu then (State.plateKept { s.unwait d e with freeCtr := k } d ps e.2.2.1).emit .shutterLat
      else State.plateKept { s.unwait d e with freeCtr := k } d ps e.2.2.1).shutterAnswer d e.1 e.2.2.2.1 e.2.2.2.2 true := by
  obtain ⟨k, hplate⟩ := makePlate_frame (s.unwait d e) d e.1 e.2.1 e.2.2.1
  have hheld : (((s.unwait d e).makePlate d e.1 e.2.1 e.2.2.1).2.com d).shut.plates = (s.com d).shut.plates := by
    rw [hplate]
    cases d <;> rfl
  refine ⟨k, ?_⟩
  rw [← hplate]
  unfold State.latchOne
  change (if s.inReset d then _ else match keepPlate d ((s.unwait d e).makePlate d e.1 e.2.1 e.2.2.1).1
    (((s.unwait d e).makePlate d e.1 e.2.1 e.2.2.1).2.com d).shut.plates with | none => _ | some ps => _) = _
  rw [if_neg (by rw [h]; exact Bool.false_ne_true), hheld, hk]
  rfl

/-- The Shutter state with a plate kept, and the latch output of a die that drives it. -/
theorem latchOne_plate {ps : List Plate} (h : s.inReset d = false)
    (hk : keepPlate d ((s.unwait d e).makePlate d e.1 e.2.1 e.2.2.1).1 (s.com d).shut.plates = some ps) :
    ((s.latchOne d e).com d).shut = { ((s.unwait d e).com d).shut with
      plates := ps, latched := satInc (s.com d).shut.latched, lastLatch := some e.2.2.1 } ∧
    (d = .tsu → s.clamped true = false → (s.latchOne d e).out = s.out ++ [.shutterLat]) := by
  obtain ⟨k, hlatch⟩ := latchOne_kept h hk
  rw [hlatch, shut_shutterAnswer]
  refine ⟨by cases d <;> rfl, ?_⟩
  rintro rfl hc
  exact out_emit_driven _ _ (.inr hc)

end

/-! ## READ_PLATE (R387 to R389) -/

section
variable {d : Dev} {h : Hdr} {a : Option (BitVec 32)} {set : BitVec 4} {b : BitVec 8} {addr : BitVec 48} {s s' : State} {hd : Half}

theorem execReadPlate_none (ha : s.accept d h opReadPlate true = (s', some hd)) (hp : s'.plateFor d a set = none) :
    exec (.readPlate d h a set b addr) s = .next (s'.post d hd stNoPlate []) := by
  change execReadPlate d h a set b addr s = _
  rw [execReadPlate, withHandle_accepted _ _ _ _ _ _ _ _ _ ha, hp]

theorem execReadPlate_some {p : Plate} (ha : s.accept d h opReadPlate true = (s', some hd)) (hp : s'.plateFor d a set = some p) :
    exec (.readPlate d h a set b addr) s = .next ((s'.emit (.dma d (addr.setWidth 64) (plateRead p b))).post d hd stOk
      [BitVec.ofNat 64 (8 * (plateRead p b).length)]) := by
  change execReadPlate d h a set b addr s = _
  rw [execReadPlate, withHandle_accepted _ _ _ _ _ _ _ _ _ ha, hp]

end

/-- Settles O47: each command has one equation per case; what an outcome leaves is read off the Shutter state that it writes, beside
which a plate takes free values, an answer moves commands and links, and a posting moves its entry. -/
theorem shuttersTaken : Obligations.ShuttersTaken := by
  refine ⟨fun h t set s s' hd => execShutter_below, fun h t set s s' hd => execShutter_tooEarly,
    fun h t set s s' hd => execShutter_sent, fun h t set s s' hd => execShutter_forwarded, ?sent, fun d n ws s => rfl, ?waits, ?late,
    fun n ws s => shutterIn_again, ?first, fun d s => execShutterLatch_none, fun d e s => execShutterLatch_one, ?latches, ?inReset,
    fun d h a set b addr s s' hd => execReadPlate_none, fun d h a set addr p s s' hd => execReadPlate_some, ?read,
    fun p b hb => if_neg hb, fun p q n => ⟨rfl, rfl, fun hq => ?_, fun hq hp => ?_⟩⟩
  case sent =>
    intro h t set s s' hd ha hr hm ht hnow
    obtain ⟨hshut, hfor, htsu, htsuC, hout⟩ := shutterMaster_waits (set := set) (hd := hd) hnow
    refine ⟨_, execShutter_sent ha hr hm ht, ?_, ?_, ?_, hfor, htsu, htsuC, hout⟩ <;> rw [hshut]
    rfl
  case waits =>
    intro d n ws s hs ht
    obtain ⟨a, hstamp, hout, hshut⟩ := shutterIn_waits (s := s.consume d n mtShutter ws) (n := n)
      (by rw [shut_consume]; exact hs) (by cases d <;> exact ht)
    refine ⟨_, rfl, ?_⟩
    rw [hshut, shut_consume, hout, out_consume]
    refine ⟨rfl, rfl, congrArg some (hstamp.trans ?_), rfl, rfl, rfl⟩
    cases d <;> rfl
  case late =>
    intro n ws s hs ht
    obtain ⟨a, hshut, hout⟩ := shutterIn_late (s := s.consume .tsu n mtShutter ws) (n := n) hs ht
    refine ⟨_, rfl, ?_⟩
    rw [hshut, hout]
    exact ⟨rfl, rfl, rfl, rfl⟩
  case first =>
    intro n ws s hs ht
    obtain ⟨a, -, -, hshut⟩ := shutterIn_waits (d := .tsu) (s := s) (n := n) (by rw [com_tsu, hs]; rfl) ht
    rw [← com_tsu, hshut, com_tsu, Shut.arrived, hs]
    exact ⟨rfl, rfl⟩
  case latches =>
    intro d e s hw ht hr hroom
    obtain ⟨ps, hk, hhead⟩ := keepPlate_room hroom ((s.unwait d e).makePlate d e.1 e.2.1 e.2.2.1).1
    obtain ⟨hshut, hout⟩ := latchOne_plate hr hk
    obtain ⟨hid, hset, htick, hlevel, hword, hread⟩ := makePlate_header (s.unwait d e) d e.1 e.2.1 e.2.2.1
    have hsec : ((s.unwait d e).com d).sec = (s.com d).sec := by rw [State.unwait, com_modShut]
    have hmissed : ((s.unwait d e).com d).shut.missed = (s.com d).shut.missed := by rw [State.unwait, com_modShut]
    refine ⟨_, _, execShutterLatch_one hw ht, ?_, ?_, hid, hset, htick.trans ht, by rw [hlevel, hsec], hword.trans ht, hread, ?_, ?_,
      hout⟩ <;> rw [hshut]
    · exact waiting_unwait hw
    · exact hhead
    · exact hmissed
  case inReset =>
    intro e s hw ht hr
    refine ⟨_, execShutterLatch_one hw ht, ?_⟩
    rw [latchOne_inReset hr]
    exact ⟨rfl, waiting_unwait (d := .tsu) hw, rfl⟩
  case read =>
    intro d h a set b addr p s s' hd ha hp
    obtain ⟨e, he, hv⟩ := cplEntry_accept ha
    refine ⟨_, execReadPlate_some ha hp, ?_, fun hdrive => mem_out_post _ _ _ ?_, ?_, tsu_post⟩
    · rw [cplEntry_post (e := e) (by cases d <;> exact he) hv]
      rfl
    · rw [out_emit_driven _ _ (hdrive.imp_left fun hd => by rw [hd]; rfl)]
      exact List.mem_append_right _ (List.mem_singleton.mpr rfl)
    · rw [shut_post, com_emit]
  · simp [keepPlate, hq]
  · simp [keepPlate, hp, hq]

end Sys2Proof.Machine
end

section
/-! PROOFS of spec family 12: a commit group that binds another die's path, at the die that serves the job. -/
namespace Sys2Proof.Machine
open Sys2Proof

/-! ## A die's group at Tc (R354, R430) -/

section
variable {h : Half} {g : MemberGroup} {s : State}

/-- The one group of a die, committed and at its Tc, is the one that is applied. -/
theorem applyDue_single (hs : s.tsuC.groups = [g]) (hh : g.handle = h) (ht : g.tc = some (s.now .tsu)) (ha : g.applied = false)
    (hp : g.prepared = true) (hc : g.committed = true) : s.applyDue .tsu h = some (g, s.now .tsu) := by
  have hgroup : s.group .tsu h = some g := by
    simp [State.group, hs, hh]
  unfold State.applyDue
  rw [hgroup, com_tsu, hs]
  simp [ht, ha, hp, hc]

/-- A group without writes clears the filters of the paths that it binds, and goes. -/
theorem execCgApply_noWrites (hs : s.tsuC.groups = [g]) (hh : g.handle = h) (ht : g.tc = some (s.now .tsu)) (ha : g.applied = false)
    (hp : g.prepared = true) (hc : g.committed = true) (hw : g.writes = []) :
    exec (.cgApply .tsu h) s = .next ((s.rebound g.binds).dropGroup .tsu h) := by
  change execCgApply .tsu h s = _
  unfold execCgApply
  rw [applyDue_single hs hh ht ha hp hc]
  dsimp only
  rw [State.applyDie, hw, hh]
  rfl

/-- One that binds no path only goes. -/
theorem execCgApply_empty (hs : s.tsuC.groups = [g]) (hh : g.handle = h) (ht : g.tc = some (s.now .tsu)) (ha : g.applied = false)
    (hp : g.prepared = true) (hc : g.committed = true) (hw : g.writes = []) (hb : g.binds = []) :
    exec (.cgApply .tsu h) s = .next (s.dropGroup .tsu h) := by
  rw [execCgApply_noWrites hs hh ht ha hp hc hw, hb]
  rfl

end

/-! ## A stage that binds a rank to another die's path (R254, R352) -/

/-- The stage of group 1 that binds job 7, rank 3, to channel 0 of the die at path 5. -/
def bindStage : List Word :=
  [put 64 63 56 1 ||| 1, Target.word (.path 5), StagedWrite.word (bindWrite 0 7 3), StagedWrite.word (ctrlWrite 0 ctlBind)]

/-- The die at path 9: its channel 0 serves job 7, and it filters path 5 on every channel. -/
def filteringDie : State :=
  { tsuC := { links := [(0, { ctl := { path := 9 } })] },
    tsu := { chans := [(0, { state := .ready, job := 7 })], filters := [{ path := 5, ch := none, acked := true, bound := [0] }] } }

/-- What the stage leaves at that die, committed for the present tick: no write of its own, and the path that is bound. -/
def bindGroup : MemberGroup :=
  { handle := 1, ordinals := [0], jobs := [7], binds := [(5, 7)], tc := some 0, prepared := true, committed := true }
def committedDie : State := filteringDie.modCom .tsu fun c => { c with groups := [bindGroup] }

/-- STAGE, PREPARE and COMMIT of the group leave the die this group. -/
theorem runSteps_filteringDie : (runSteps 3 { filteringDie with pending := [.cgStageMsg .tsu bindStage,
    .cgPrepareMsg .tsu [put 64 63 56 2 ||| 1, 0] 3, .cgCommitMsg .tsu [put 64 63 56 5 ||| 1, 0]] }).map (fun t => t.tsuC.groups) =
      some [bindGroup] := by
  decide +kernel

/-- Its application clears the filter, since the job is served at that path again. -/
theorem filters_committedDie : committedDie.tsu.filters.length = 1 ∧ (committedDie.rebound bindGroup.binds).tsu.filters = [] := by
  decide +kernel

/-- Refutes O48: the clause of a group without writes at its Tc says that the group only goes, and asks nothing of the paths it
binds. A stage that binds a rank to another die's path leaves such a group at the die that serves the job, and applying it clears
the die's filter of that path (R254; assumption 59). Of a group that binds no path the clause holds (`execCgApply_empty`). -/
theorem not_groupsCommit : ¬ Obligations.GroupsCommit := by
  intro h
  obtain ⟨-, -, -, -, -, -, -, -, -, -, -, -, -, -, -, -, -, -, -, -, -, -, -, -, -, -, -, -, -, -, -, -, -, -, -, -, -, -, -, hempty, -⟩ := h
  have hgoes := hempty 1 bindGroup committedDie rfl rfl rfl rfl rfl rfl rfl
  have hclears := execCgApply_noWrites (h := 1) (g := bindGroup) (s := committedDie) rfl rfl rfl rfl rfl rfl rfl
  have hstates := Host.Outcome.next.inj (hclears.symm.trans hgoes)
  have hsame : (committedDie.rebound bindGroup.binds).tsu.filters = committedDie.tsu.filters :=
    (congrArg (fun t : State => t.tsu.filters) hstates :)
  obtain ⟨hbefore, hafter⟩ := filters_committedDie
  rw [← hsame, hafter] at hbefore
  cases hbefore

end Sys2Proof.Machine
end

section
/-! PROOFS of spec families 01, 02, 08, 12 and 17: words built from fields give the fields back. -/
namespace Sys2Proof.Machine
open Sys2Proof

/-! ## A field of a word -/

/-- Where a field stands, the word holds the number put there. -/
theorem extractLsb'_put_same {w hi lo n : Nat} (v : Nat) (hn : hi + 1 - lo = n) (hw : lo + n ≤ w) :
    (put w hi lo v).extractLsb' lo n = BitVec.ofNat n v := by
  refine BitVec.eq_of_getLsbD_eq fun i hi' => ?_
  have hin : i < hi + 1 - lo := by omega
  have hww : lo + i < w := by omega
  simp only [BitVec.getLsbD_extractLsb', getLsbD_put, BitVec.getLsbD_ofNat]
  simp [hi', hin, hww]

/-- Beside it the word holds zeros. -/
theorem extractLsb'_put_apart {w hi lo l n : Nat} (v : Nat) (h : l + n ≤ lo ∨ hi < l) : (put w hi lo v).extractLsb' l n = 0#n := by
  refine BitVec.eq_of_getLsbD_eq fun i hi' => ?_
  have hout : ¬ (lo ≤ l + i ∧ l + i - lo < hi + 1 - lo) := by omega
  simp only [BitVec.getLsbD_extractLsb', getLsbD_put, BitVec.getLsbD_zero]
  by_cases h1 : lo ≤ l + i
  · have h2 : ¬ l + i - lo < hi + 1 - lo := fun h2 => hout ⟨h1, h2⟩
    simp [h2]
  · simp [h1]

theorem extractLsb'_bit1_apart {w k l n : Nat} (b : Bool) (h : l + n ≤ k ∨ k < l) : (bit1 w k b).extractLsb' l n = 0#n := by
  refine BitVec.eq_of_getLsbD_eq fun i hi => ?_
  have hk : ¬ l + i = k := by omega
  simp [getLsbD_bit1, hk]

theorem getLsbD_put_apart {w hi lo k : Nat} (v : Nat) (h : k < lo ∨ hi < k) : (put w hi lo v).getLsbD k = false := by
  rw [getLsbD_put]
  by_cases h1 : lo ≤ k
  · have h2 : ¬ k - lo < hi + 1 - lo := by omega
    simp [h2]
  · simp [h1]

/-! ## Messages, fences, staged writes, runs and targets (R17, R235, R253, R342, R352, R469) -/

theorem msgOf_header {m : Msg} (hs : m.src = none) (hf : m.frames = 0) (hw : m.want = 0) : msgOf (Msg.header m) m.words = m := by
  obtain ⟨mtype, route, flow, addr, words, src, frames, want⟩ := m
  obtain rfl : src = none := hs
  obtain rfl : frames = 0 := hf
  obtain rfl : want = 0 := hw
  simp [msgOf, Msg.header, BitVec.extractLsb'_or, extractLsb'_put_same, extractLsb'_put_apart]

theorem len_header {m : Msg} (hl : m.words.length < 4096) (hw : m.want = 0) : fld (Msg.header m) 55 44 = m.words.length := by
  simp [fld, Msg.header, BitVec.extractLsb'_or, extractLsb'_put_same, extractLsb'_put_apart, hw, Nat.mod_eq_of_lt hl]

theorem fenceOf_fenceWords {f : Fence} (hb : f.begun = false) : fenceOf (fenceWords f) = f := by
  obtain ⟨job, domain, path, tick, begun⟩ := f
  obtain rfl : begun = false := hb
  have hdomain : (put 64 63 49 job.toNat ||| bit1 64 48 domain ||| put 64 31 0 path.toNat).getLsbD 48 = domain := by
    rw [BitVec.getLsbD_or, BitVec.getLsbD_or, getLsbD_put_apart _ (by decide), getLsbD_put_apart _ (by decide), getLsbD_bit1]
    simp
  unfold fenceOf fenceWords nthW
  rw [List.getD_cons_zero, hdomain]
  simp [BitVec.extractLsb'_or, extractLsb'_put_same, extractLsb'_put_apart, extractLsb'_bit1_apart]

theorem stagedOf_word (w : StagedWrite) : stagedOf (StagedWrite.word w) = w := by
  simp [stagedOf, StagedWrite.word, BitVec.extractLsb'_or, extractLsb'_put_same, extractLsb'_put_apart]

/-- Bit 0 of a run's word is VALID, and no field's. -/
theorem runOf_word (m : MapRun) : runOf m.word = m ∧ m.word.getLsbD 0 = true := by
  have hone {l n : Nat} (h : 0 < l) : (1#64).extractLsb' l n = 0#n := by
    refine BitVec.eq_of_getLsbD_eq fun i hi => ?_
    have hl : ¬ l + i = 0 := by omega
    rw [BitVec.getLsbD_extractLsb', BitVec.getLsbD_one, decide_eq_false hl]
    simp
  constructor
  · simp [runOf, MapRun.word, BitVec.extractLsb'_or, extractLsb'_put_same, extractLsb'_put_apart, hone]
  · simp [MapRun.word]

theorem jobTarget_word (j : BitVec 15) (a b : BitVec 17) : jobTarget (Target.word (.job j a b)) = .job j a b := by
  simp [jobTarget, Target.word, BitVec.extractLsb'_or, extractLsb'_put_same, extractLsb'_put_apart]

/-! ## Time codes (R41) -/

section
variable (st : Stamp) (e : Int) (temp : BitVec 8) (x q : Nat)

theorem codeStamp_timeCode : codeStamp (timeCode st e temp x q) = st := by
  simp [codeStamp, timeCode, BitVec.extractLsb'_or, extractLsb'_put_same, extractLsb'_put_apart]

theorem codeTemp_timeCode : codeTemp (timeCode st e temp x q) = temp := by
  simp [codeTemp, timeCode, BitVec.extractLsb'_or, extractLsb'_put_same, extractLsb'_put_apart]

theorem codeState_timeCode : codeState (timeCode st e temp x q) = BitVec.ofNat 3 x := by
  simp [codeState, timeCode, BitVec.extractLsb'_or, extractLsb'_put_same, extractLsb'_put_apart]

theorem codeSeq_timeCode : codeSeq (timeCode st e temp x q) = BitVec.ofNat 5 q := by
  simp [codeSeq, timeCode, BitVec.extractLsb'_or, extractLsb'_put_same, extractLsb'_put_apart]

end

/-- Settles O40: a field of a word is read back where it stands and is zero everywhere else, so each form gives its fields back. -/
theorem wordsRoundTrip : Obligations.WordsRoundTrip := by
  refine ⟨fun m hl hs hf hw => ⟨msgOf_header hs hf hw, len_header hl hw⟩, fun f => fenceOf_fenceWords, stagedOf_word, runOf_word,
    jobTarget_word, fun st e temp x q hlo hhi hx => ⟨codeStamp_timeCode .., ?_, codeTemp_timeCode .., ?_, ?_⟩⟩
  · rw [codeEcho_timeCode, BitVec.toInt_ofInt_eq_self (by decide) hlo hhi]
  · rw [codeState_timeCode, BitVec.toNat_ofNat, Nat.mod_eq_of_lt hx]
  · rw [codeSeq_timeCode, BitVec.toNat_ofNat]

end Sys2Proof.Machine
end

section
/-! PROOFS of spec family 05: LOOP descriptors. -/
namespace Sys2Proof.Machine
open Sys2Proof

/-! ## Where a LOOP goes, by its mode (R154) -/

section
variable {d : BitVec 128} {l : Table Half} {i : BitVec 16}

/-- What a COUNT counts down from: its counter, or COUNT where the counter is 0. -/
def loopCount (d : BitVec 128) (l : Table Half) : Half :=
  if tget 0 l (fld d 95 93) = 0 then d.extractLsb' 32 32 else tget 0 l (fld d 95 93)

theorem loopTo_count (h : fld d 123 122 = 0) : loopTo d l i =
    (if loopCount d l - 1 ≠ 0 then d.extractLsb' 64 16 else i + 1, tset 0 l (fld d 95 93) (loopCount d l - 1)) := by
  unfold loopTo
  rw [h]
  rfl

theorem loopTo_forever (h : fld d 123 122 = 1) : loopTo d l i = (d.extractLsb' 64 16, l) := by
  unfold loopTo
  rw [h]
  rfl

theorem loopTo_clear (h : fld d 123 122 ≠ 0) (h' : fld d 123 122 ≠ 1) :
    loopTo d l i = (i + 1, tset 0 l (fld d 95 93) 0) := by
  unfold loopTo
  dsimp only
  split
  · exact absurd ‹_› h
  · exact absurd ‹_› h'
  · rfl

/-- A LOOP writes the counter it names and no other. -/
theorem tget_loopTo_other {k : Nat} (h : k ≠ fld d 95 93) : tget 0 (loopTo d l i).2 k = tget 0 l k := by
  by_cases h0 : fld d 123 122 = 0
  · rw [loopTo_count h0]
    exact tget_tset_other _ _ _ _ _ h
  by_cases h1 : fld d 123 122 = 1
  · rw [loopTo_forever h1]
  · rw [loopTo_clear h0 h1]
    exact tget_tset_other _ _ _ _ _ h

end

/-! ## LOOP, as the next descriptor (R122, R153) -/

theorem execLoop_taken {c : Fin 8} {d : BitVec 128} {s : State} (hd : s.nextDesc c 4 = .desc d)
    (hb : (s.chan c).prog.breaks (actionTick (s.chan c).prog d) = false) :
    exec (.loop c) s = .next ((s.actLoop c (actionTick (s.chan c).prog d)).loopBody c d (s.chan c).pc) := by
  change execLoop c s = _
  simp [execLoop, hd, hb]

theorem execLoop_bad {c : Fin 8} {k : Code} {s : State} (hd : s.nextDesc c 4 = .bad k) :
    exec (.loop c) s = .next (s.fetchFault c k) := by
  change execLoop c s = _
  simp only [execLoop, hd]

/-- Settles O20: one equation per mode; what a counter reads as afterwards is the table's write read back. -/
theorem loopModes : Obligations.LoopModes := by
  refine ⟨fun c d s => execLoop_taken, ?count, fun d l i => loopTo_forever, ?clear, fun d l i k => tget_loopTo_other,
    fun c k s => execLoop_bad⟩
  case count =>
    intro d l i hwf h
    rw [loopTo_count h]
    refine ⟨?_, tget_tset_same _ _ _ _ hwf, Table.wf_tset _ _ _ _ hwf⟩
    have hzero : loopCount d l - 1 = 0 ↔ loopCount d l = 1 := by
      rw [← BitVec.toNat_inj, ← BitVec.toNat_inj]
      bv_omega
    simp only [ne_eq, ite_not, hzero]
    rfl
  case clear =>
    intro d l i hwf h
    rw [loopTo_clear (by omega) (by omega)]
    exact ⟨rfl, tget_tset_same _ _ _ _ hwf⟩

end Sys2Proof.Machine
end

section
/-! PROOFS of spec family 05: the channels and outputs of a die as a step stops. -/
namespace Sys2Proof.Machine
open Sys2Proof

/-! ## What faults, contributions, waits and restored objects leave: the channels and what was driven -/

/-- The channels of the die, and the outputs so far. -/
def State.shown (s : State) : Table Chan × List Out := (s.tsu.chans, s.out)

theorem chan_of_shown {s t : State} (h : t.shown = s.shown) (k : Nat) : t.chan k = s.chan k :=
  (congrArg (fun x : Table Chan × List Out => tget ({} : Chan) x.1 k) h :)
theorem out_of_shown {s t : State} (h : t.shown = s.shown) : t.out = s.out := congrArg Prod.snd h

section
variable (s : State) (b c : Nat) (code : Code) (ctx : Ctx)

@[simp] theorem shown_modSync (f : Sync → Sync) : (s.modSync f).shown = s.shown := rfl
@[simp] theorem shown_modBlock (f : FaultBlock → FaultBlock) : (s.modBlock .tsu b f).shown = s.shown := rfl
@[simp] theorem shown_modCom (f : Common → Common) : (s.modCom .tsu f).shown = s.shown := rfl
theorem shown_modTsu {f : Tsu → Tsu} (h : (f s.tsu).chans = s.tsu.chans) : (s.modTsu f).shown = s.shown := congrArg (·, s.out) h
@[simp] theorem shown_send (n : Nat) (m : Msg) : (s.send .tsu n m).shown = s.shown := rfl
theorem shown_ite {p : Prop} [Decidable p] {t u : State} (ht : t.shown = s.shown) (hu : u.shown = s.shown) :
    (if p then t else u).shown = s.shown := by split <;> assumption

@[simp] theorem shown_report (ws : List Word) : (s.report .tsu ws).shown = s.shown := foldl_kept (fun s n => shown_send s n _) [0, 1] s
@[simp] theorem shown_latchFault : (s.latchFault .tsu b code ctx).shown = s.shown := by
  unfold State.latchFault
  dsimp only
  split <;> split <;> simp
@[simp] theorem shown_raiseFault : (s.raiseFault .tsu b code ctx).shown = s.shown := by
  have hread : (s.readSeverity .tsu).shown = s.shown :=
    shown_ite _ ((shown_latchFault ..).trans (shown_modTsu _ rfl)) rfl
  rw [State.raiseFault, shown_latchFault, hread]
theorem shown_raiseChan {code : Code} (h : code ≠ cStepOverrun) : (s.raiseChan c code ctx).shown = s.shown := by
  unfold State.raiseChan
  dsimp only
  rw [if_neg h, shown_raiseFault]

@[simp] theorem shown_sramSpan (tbl ch lo hi : Nat) : (s.sramSpan tbl ch lo hi).shown = s.shown := by
  refine shown_modTsu _ ?_
  dsimp only
  repeat' split
  all_goals rfl
@[simp] theorem shown_writeSels : (s.writeSels c).shown = s.shown := shown_sramSpan ..
@[simp] theorem shown_restoreObjects : (s.restoreObjects c).shown = s.shown := by
  unfold State.restoreObjects
  dsimp only
  rw [foldl_kept (g := State.shown) (by simp [State.sramWrite, State.modConj]),
    foldl_kept (g := State.shown) (by simp [State.sramWrite, State.setSlot]), shown_modSync]
@[simp] theorem shown_earlyGate : (s.earlyGate c).shown = s.shown := shown_ite _ rfl rfl
theorem shown_coreRsp (r : WaitRec) (kind : Nat) : (s.coreRsp r kind).shown = s.shown := by
  unfold State.coreRsp
  split <;> rfl
@[simp] theorem shown_cancelWaits : (s.cancelWaits c).shown = s.shown :=
  (shown_modSync ..).trans (foldl_kept (fun s r => shown_coreRsp s r 3) _ s)
@[simp] theorem shown_noteParity (tbl lo : Nat) : (s.noteParity tbl c lo).shown = s.shown :=
  shown_ite _ rfl ((shown_raiseChan _ _ _ (by decide)).trans (shown_modTsu _ rfl))
@[simp] theorem shown_gateFence : (s.gateFence c code ctx).shown = s.shown := shown_report ..

/-- A channel that changes does so by what the channels are. -/
theorem shown_modChan_congr {s t : State} (h : t.shown = s.shown) (c : Nat) (f : Chan → Chan) :
    (t.modChan c f).shown = (s.modChan c f).shown := by
  have hchans : t.tsu.chans = s.tsu.chans := congrArg Prod.fst h
  simp only [State.shown, tsu_modChan, out_modChan, hchans, out_of_shown h]

end

/-! ## Entering HELD (R133, R169) -/

/-- A channel as it enters HELD: what it walks is that of its boundary record. -/
def Chan.enterHeld (x : Chan) (cause : Nat) (now : Tick) : Chan :=
  { x with state := .held, holdCause := BitVec.ofNat 6 cause, heldAt := some now, pc := x.bnd.index, step := x.bnd.step,
           hold := false, holdWant := [],
           prog := { x.prog with sels := x.bnd.sels, states := x.bnd.states, loops := x.bnd.loops,
                                 pend := [], unsent := [], inStep := false, streams := [], captured := [] } }

section
variable {s : State} {c : Nat} (cause : Nat)

theorem shown_enterHeld (hu : (s.chan c).unbindPend = false) :
    (s.enterHeld c cause).shown = (s.modChan c (Chan.enterHeld · cause (s.now .tsu))).shown := by
  unfold State.enterHeld
  rw [hu]
  exact shown_modChan_congr (by simp) c _

theorem chan_enterHeld (hu : (s.chan c).unbindPend = false) :
    (s.enterHeld c cause).chan c = (s.chan c).enterHeld cause (s.now .tsu) := by
  rw [chan_of_shown (shown_enterHeld cause hu)]
  exact chan_modChan _ _ _ (chan_ne_reset _ ChState.noConfusion)

/-- What is driven as a step stops. -/
theorem out_stopStreams (hc : s.clamped true = false) : ((s.stopStreams c).emit (.shd c false)).out = s.out ++ [.stop c, .shd c false] := by
  have hc' : (s.stopStreams c).clamped true = false := hc
  rw [out_emit_driven _ _ (.inr hc'), State.stopStreams, out_modChan, out_emit_driven _ _ (.inr hc), List.append_assoc]
  rfl

theorem stopOne_running (hr : (s.chan c).state = .running) : s.stopOne c cause =
    (State.cancelWaits (if (s.chan c).prog.gateVoted then (s.stopStreams c).emit (.shd c false)
      else ((s.stopStreams c).emit (.shd c false)).earlyGate c) c).enterHeld c cause := by
  unfold State.stopOne
  rw [if_neg (not_not.mpr hr)]

/-- Before the channel enters HELD its streams are ended and its shadow writes dropped; nothing else of it has changed. -/
theorem shown_stopping (gv : Bool) : (State.cancelWaits (if gv then (s.stopStreams c).emit (.shd c false)
      else ((s.stopStreams c).emit (.shd c false)).earlyGate c) c).shown = ((s.stopStreams c).emit (.shd c false)).shown := by
  rw [shown_cancelWaits]
  split <;> simp

theorem chan_stopStreams (hr : (s.chan c).state = .running) :
    ((s.stopStreams c).emit (.shd c false)).chan c = { s.chan c with running := false } :=
  chan_modChan _ _ _ (chan_ne_reset _ (by change (s.chan c).state ≠ _; rw [hr]; decide))

theorem shown_stopOne (hr : (s.chan c).state = .running) (hu : (s.chan c).unbindPend = false) : ∃ now,
    (s.stopOne c cause).shown = (((s.stopStreams c).emit (.shd c false)).modChan c (Chan.enterHeld · cause now)).shown := by
  have hstop := shown_stopping (s := s) (c := c) (s.chan c).prog.gateVoted
  rw [stopOne_running cause hr, shown_enterHeld cause (by rw [chan_of_shown hstop, chan_stopStreams hr]; exact hu)]
  exact ⟨_, shown_modChan_congr hstop c _⟩

/-- The channel of a stopped step, and what is driven. -/
theorem chan_stopOne (hr : (s.chan c).state = .running) (hu : (s.chan c).unbindPend = false) :
    (∃ now, (s.stopOne c cause).chan c = { s.chan c with running := false }.enterHeld cause now) ∧
      (s.stopOne c cause).out = ((s.stopStreams c).emit (.shd c false)).out := by
  obtain ⟨now, hshown⟩ := shown_stopOne cause hr hu
  refine ⟨⟨now, ?_⟩, (out_of_shown hshown).trans (out_modChan ..)⟩
  rw [chan_of_shown hshown, chan_modChan _ _ _ (chan_ne_reset _ ChState.noConfusion), chan_stopStreams hr]

end

/-- Settles O22: the channel that enters HELD is written out once, and everything between the end of its streams and that leaves
the channels and the outputs. -/
theorem stopRestoresBoundary : Obligations.StopRestoresBoundary := by
  intro c cause s hr hu
  obtain ⟨⟨now, hchan⟩, hout⟩ := chan_stopOne cause hr hu
  rw [hchan]
  refine ⟨rfl, rfl, rfl, rfl, rfl, rfl, rfl, rfl, fun hc => ?_⟩
  rw [hout, out_stopStreams hc]
  simp

end Sys2Proof.Machine
end

section
/-! PROOFS of spec family 05: boundary records, starts, resumes and step commands of a channel. -/
namespace Sys2Proof.Machine
open Sys2Proof

/-! ## When an input reaches the die (R397, R412) -/

theorem stepIn_awake {s : State} {f : State → State} (h : s.tsu.power.state ≠ 4) : s.stepIn .tsu f = .next (f s) :=
  due_of (decide_eq_true (.inr h))
theorem stepIn_dark {s : State} {f : State → State} (h : s.tsu.power.state = 4) : s.stepIn .tsu f = .next s :=
  due_unless (decide_eq_false (by simp [h]))

/-! ## Words whose parity is inverted (R311, R323) -/

section
variable {s : State} {tbl ch lo : Nat}

theorem badFrom_eq_nil_iff : s.badFrom tbl ch lo = [] ↔ ∀ e ∈ s.tsu.badWords, ¬ (e.1 = tbl ∧ e.2.1 = ch ∧ lo ≤ e.2.2) := by
  simp [State.badFrom]

/-- Writing words of a table inverts the parity of none but those. -/
theorem mem_badWords_sramSpan {t c a b : Nat} {e : Nat × Nat × Nat} (h : e ∈ (s.sramSpan t c a b).tsu.badWords) :
    e ∈ s.tsu.badWords ∨ e.1 = t ∧ e.2.1 = c ∧ a ≤ e.2.2 ∧ e.2.2 ≤ b := by
  unfold State.sramSpan at h
  simp only [tsu_modTsu] at h
  split at h
  · split at h
    · rename_i x _ hx
      rcases List.mem_cons.mp h with rfl | h
      · exact .inr (of_decide_eq_true hx)
      · exact .inl (List.mem_of_mem_filter h)
    · exact .inl (List.mem_of_mem_filter h)
  · exact .inl (List.mem_of_mem_filter h)

theorem badFrom_sramSpan {t c a b : Nat} (h : s.badFrom tbl ch lo = []) (hd : t ≠ tbl ∨ b < lo) :
    (s.sramSpan t c a b).badFrom tbl ch lo = [] := by
  rw [badFrom_eq_nil_iff] at h ⊢
  intro e he hmeets
  rcases mem_badWords_sramSpan he with he | ⟨ht, -, -, hb⟩
  · exact h e he hmeets
  · obtain ⟨htbl, -, hlo⟩ := hmeets
    rcases hd with hd | hd
    · exact hd (ht.symm.trans htbl)
    · omega

theorem badFrom_foldl {α : Type} {f : State → α → State} (hf : ∀ s a, s.badFrom tbl ch lo = [] → (f s a).badFrom tbl ch lo = [])
    (l : List α) (h : s.badFrom tbl ch lo = []) : (l.foldl f s).badFrom tbl ch lo = [] := by
  induction l generalizing s with
  | nil => exact h
  | cons a l ih => exact ih (hf s a h)

@[simp] theorem badFrom_emit (o : Out) : (s.emit o).badFrom tbl ch lo = s.badFrom tbl ch lo := rfl
@[simp] theorem badFrom_modChan (c : Nat) (f : Chan → Chan) : (s.modChan c f).badFrom tbl ch lo = s.badFrom tbl ch lo := rfl

/-- Restored objects and records are words of tables 0 and 1. -/
theorem badFrom_restoreObjects {c : Nat} (h : s.badFrom tbl ch lo = []) (h0 : tbl ≠ 0) (h1 : tbl ≠ 1) :
    (s.restoreObjects c).badFrom tbl ch lo = [] := by
  unfold State.restoreObjects
  refine badFrom_foldl (fun s r hs => badFrom_sramSpan ?_ (.inl h1.symm)) _
    (badFrom_foldl (fun s k hs => badFrom_sramSpan ?_ (.inl h0.symm)) _ h)
  · exact hs
  · exact hs

/-- A snapshot that reads no inverted word finds nothing. -/
theorem snapCheck_clean {c : Nat} (h0 : s.badFrom 0 c 0 = []) (h1 : s.badFrom 1 c 0 = []) : s.snapCheck c = s := by
  simp only [State.snapCheck, List.foldl_cons, List.foldl_nil, h0, h1]

theorem boundaryCheck_clean {c : Nat} (h : s.badFrom 2 c boundaryWord = []) : s.boundaryCheck c = s := by
  simp only [State.boundaryCheck, h]

end

/-! ## The boundary record (R130, R211) -/

section
variable {s : State} {c : Nat}

/-- The record written on a tick, with `index` to act next. -/
def State.boundaryOf (s : State) (c : Nat) (x : Chan) (index : BitVec 16) (tick : Tick) : Boundary :=
  { index := index, sels := x.prog.sels, states := x.prog.states, loops := x.prog.loops, step := x.step, tick := tick,
    slots := s.snapSlots c, recs := s.snapRecs c }

theorem chan_writeBoundary {i : BitVec 16} {t : Tick} (h : ∀ b, { s.chan c with bnd := b } ≠ ({} : Chan)) :
    (s.writeBoundary c i t).chan c = { s.chan c with bnd := s.boundaryOf c (s.chan c) i t } := by
  rw [State.writeBoundary, chan_of_shown (shown_sramSpan ..)]
  exact chan_modChan _ _ _ (h _)

theorem out_writeBoundary (i : BitVec 16) (t : Tick) : (s.writeBoundary c i t).out = s.out := rfl

theorem clamped_of_sansStep {s t : State} (h : t.sansStep = s.sansStep) (b : Bool) : t.clamped b = s.clamped b := by
  obtain ⟨hpower, -⟩ := fields_of_sansStep h
  rw [State.clamped, hpower, State.clamped]

theorem clamped_writeBoundary (i : BitVec 16) (t : Tick) (b : Bool) : (s.writeBoundary c i t).clamped b = s.clamped b :=
  clamped_of_sansStep ((sansStep_sramSpan ..).trans (sansStep_modChan ..)) b

theorem badFrom_writeBoundary {tbl : Nat} {i : BitVec 16} {t : Tick} (h : s.badFrom tbl c 0 = []) (ht : tbl ≠ 2) :
    (s.writeBoundary c i t).badFrom tbl c 0 = [] := badFrom_sramSpan h (.inl ht.symm)

end

/-! ## START_TICK_REACHED (R126, R158) -/

section
variable {c : Fin 8} {s : State}

theorem execStartTickReached_due (ha : (s.chan c).arm = true) (hr : (s.chan c).state = .ready)
    (ht : (s.chan c).startTick = s.now .tsu) : exec (.startTickReached c) s = .next (s.start c) := by
  change execStartTickReached c s = _
  exact due_of (by simp [State.startDue, ha, hr, ht])

theorem execStartTickReached_otherTick (ht : (s.chan c).startTick ≠ s.now .tsu) : exec (.startTickReached c) s = .next s := by
  change execStartTickReached c s = _
  exact due_unless (by simp [State.startDue, ht])

/-- A channel as its first step begins, before the boundary record is written. -/
def Chan.started (x : Chan) (t : Tick) : Chan :=
  { x with state := .running, arm := false, step := 0, pc := x.startIndex, holdCause := 0, voteLast := x.freshFields,
           prog := { (x.prog.newStep t) with loops := [] } }

/-- The state after a start whose snapshot reads no inverted word. -/
theorem start_clean (h0 : s.badFrom 0 c 0 = []) (h1 : s.badFrom 1 c 0 = []) : s.start c =
    ((s.modChan c (Chan.started · (s.now .tsu))).writeBoundary c (s.chan c).startIndex (s.now .tsu)).emit (.stepBegin c (s.now .tsu)) := by
  exact snapCheck_clean (badFrom_writeBoundary h0 (by decide)) (badFrom_writeBoundary h1 (by decide))

theorem chan_start (h0 : s.badFrom 0 c 0 = []) (h1 : s.badFrom 1 c 0 = []) : ∃ t : State, (s.start c).chan c =
    { (s.chan c).started (s.now .tsu) with
      bnd := t.boundaryOf c ((s.chan c).started (s.now .tsu)) (s.chan c).startIndex (s.now .tsu) } := by
  have hread : (s.modChan c (Chan.started · (s.now .tsu))).chan c = (s.chan c).started (s.now .tsu) :=
    chan_modChan _ _ _ (chan_ne_reset _ ChState.noConfusion)
  refine ⟨s.modChan c (Chan.started · (s.now .tsu)), ?_⟩
  rw [start_clean h0 h1]
  change (State.writeBoundary _ c _ _).chan c = _
  rw [chan_writeBoundary (fun b => chan_ne_reset _ (by rw [hread]; exact ChState.noConfusion)), hread]

end

/-! ## RESUME_TICK_REACHED (R145, R160) -/

section
variable {c : Fin 8} {s : State}

theorem execResumeTickReached_due (hr : (s.chan c).resume = true) (ht : (s.chan c).startTick = s.now .tsu) :
    exec (.resumeTickReached c) s = .next (s.resumeNow c) := by
  change execResumeTickReached c s = _
  exact due_of (by simp [State.resumeDue, hr, ht])

theorem resumeNow_refused {c : Nat} (h : resumable (s.chan c) = false) :
    s.resumeNow c = (s.modChan c fun x => { x with resume := false }).modChan c fun x => { x with err := 2 } := by
  simp only [State.resumeNow, h, Bool.false_eq_true, if_false]

/-- A channel as it resumes on a tick: what it walks is that of its boundary record. -/
def Chan.resumed (x : Chan) (t : Tick) : Chan :=
  { x with state := .running, holdCause := 0, pc := x.bnd.index, step := x.bnd.step, voteLast := x.freshFields,
           prog := { (x.prog.newStep t) with sels := x.bnd.sels, states := x.bnd.states, loops := x.bnd.loops } }

@[simp] theorem chan_emit (o : Out) (k : Nat) : (s.emit o).chan k = s.chan k := rfl

theorem resumeOne_eq (c : Nat) (t : Tick) : s.resumeOne c t =
    (State.modChan (((if (s.chan c).state = .stopped then s.emit (.shd c false) else s).restoreObjects c).writeSels c) c
      (Chan.resumed · t)).emit (.stepBegin c t) := rfl

theorem chan_resumeOne {c : Nat} (t : Tick) : (s.resumeOne c t).chan c = (s.chan c).resumed t := by
  have hshown : (((if (s.chan c).state = .stopped then s.emit (.shd c false) else s).restoreObjects c).writeSels c).chan c = s.chan c := by
    rw [chan_of_shown ((shown_writeSels ..).trans (shown_restoreObjects ..))]
    split <;> rfl
  rw [resumeOne_eq, chan_emit, chan_modChan _ _ _ (chan_ne_reset _ ChState.noConfusion), hshown]

/-- A resume writes selectors, objects and records, and no word of the boundary record. -/
theorem badFrom_resumeOne {c : Nat} (t : Tick) (h : s.badFrom 2 c boundaryWord = []) :
    (s.resumeOne c t).badFrom 2 c boundaryWord = [] := by
  rw [resumeOne_eq, badFrom_emit, badFrom_modChan]
  refine badFrom_sramSpan (badFrom_restoreObjects ?_ (by decide) (by decide)) (.inr (by decide))
  split <;> exact h

/-- A channel with no lock group resumes alone. -/
theorem resumeNow_alone (hg : s.lockGrp c = 0) (hr : (s.chan c).state = .held ∨ (s.chan c).state = .stopped)
    (hb : s.badFrom 2 c boundaryWord = []) : s.resumeNow c = (s.modChan c fun x => { x with resume := false }).resumeOne c (s.now .tsu) := by
  have hcheck : ((s.modChan c fun x => { x with resume := false }).resumeOne c (s.now .tsu)).boundaryCheck c = _ :=
    boundaryCheck_clean (badFrom_resumeOne _ hb)
  have hgroup : s.resumeGroup c = [] := if_pos hg
  simp only [State.resumeNow, resumable, hr, decide_true, if_true, hgroup, List.foldl_cons, List.foldl_nil]
  exact hcheck

end

/-! ## STEP_START, STEP_HOLD and STEP_STRETCH (R158, R159, R161, R162) -/

section
variable {c : Fin 8} {s : State}

theorem execStepStart_early {tick : Tick} {i : BitVec 16} (hp : s.tsu.power.state ≠ 4) (hr : (s.chan c).state = .ready)
    (ht : s.now .tsu < tick) : exec (.stepStart c tick i) s = .next
      (((s.takeCommand opStartJob).modChan c fun x => { x with startTick := tick, startIndex := i }).modChan c fun x => { x with arm := true }) := by
  have hread : ((s.takeCommand opStartJob).modChan c fun x => { x with startTick := tick, startIndex := i }).chan c =
      { s.chan c with startTick := tick, startIndex := i } :=
    chan_modChan _ _ _ (chan_ne_reset _ (by change (s.chan c).state ≠ _; rw [hr]; decide))
  change execStepStart c tick i s = _
  rw [execStepStart, stepIn_awake hp, State.doArm, hread]
  have hlate : ¬ tick ≤ s.now .tsu := BitVec.not_le.mpr ht
  exact congrArg _ ((if_neg (by simp [hr])).trans (if_neg hlate))

end

/-! ### Members of a lock group (R118) -/

theorem lockBound_mem {s : State} {c j : Nat} (hj : j ∈ s.lockBound c) : j ≠ c ∧ (s.chan j).state ≠ .unbound := by
  unfold State.lockBound at hj
  split at hj
  · cases hj
  · obtain ⟨hne, -, hs⟩ := of_decide_eq_true (List.mem_filter.mp hj).2
    exact ⟨hne, hs⟩

section
variable {g : Chan → Chan} {l : List Nat} {s : State} {k : Nat}

theorem chan_foldl_modChan_other (h : k ∉ l) : (l.foldl (fun s j => s.modChan j g) s).chan k = s.chan k := by
  induction l generalizing s with
  | nil => rfl
  | cons j l ih =>
    exact (ih (List.not_mem_of_not_mem_cons h)).trans (chan_modChan_other _ _ _ _ (List.ne_of_not_mem_cons h))

/-- What the update keeps of a channel holds of it after all updates. -/
theorem chan_foldl_modChan_keeps {P : Chan → Prop} (hg : ∀ y, P y → g y ≠ {} ∧ P (g y)) (h : P (s.chan k)) :
    P ((l.foldl (fun s j => s.modChan j g) s).chan k) := by
  induction l generalizing s with
  | nil => exact h
  | cons j l ih =>
    refine ih ?_
    by_cases hj : k = j
    · subst hj
      rw [chan_modChan _ _ _ (hg _ h).1]
      exact (hg _ h).2
    · rw [chan_modChan_other _ _ _ _ hj]
      exact h

/-- Each of the channels is marked, where a mark stays. -/
theorem chan_foldl_modChan_marks {P Q : Chan → Prop} (hg : ∀ y, P y → g y ≠ {} ∧ P (g y)) (hmark : ∀ y, P y → Q (g y))
    (hkeep : ∀ y, Q y → Q (g y)) (hk : k ∈ l) (h : P (s.chan k)) : Q ((l.foldl (fun s j => s.modChan j g) s).chan k) := by
  induction l generalizing s with
  | nil => cases hk
  | cons j l ih =>
    by_cases hj : k = j
    · subst hj
      have hread : (s.modChan k g).chan k = g (s.chan k) := chan_modChan _ _ _ (hg _ h).1
      exact (chan_foldl_modChan_keeps (s := s.modChan k g) (P := fun y => P y ∧ Q y) (fun y hy => ⟨(hg y hy.1).1, (hg y hy.1).2, hkeep y hy.2⟩)
        (by rw [hread]; exact ⟨(hg _ h).2, hmark _ h⟩)).2
    · refine ih ((List.mem_cons.mp hk).resolve_left hj) ?_
      rw [chan_modChan_other _ _ _ _ hj]
      exact h

theorem frame_foldl_modChan (g : Chan → Chan) (l : List Nat) (s : State) : (l.foldl (fun s j => s.modChan j g) s).jup = s.jup ∧
    (l.foldl (fun s j => s.modChan j g) s).out = s.out :=
  ⟨foldl_kept (g := State.jup) (fun s j => jup_modChan s j g) l s, foldl_kept (g := State.out) (fun s j => out_modChan s j g) l s⟩

end

theorem mem_insertBy {α : Type} (k : α → Nat) (a b : α) (l : List α) : b ∈ insertBy k a l ↔ b = a ∨ b ∈ l := by
  induction l with
  | nil => simp [insertBy]
  | cons x l ih =>
    unfold insertBy
    split
    · simp
    · simp only [List.mem_cons, ih]
      tauto

theorem length_insertBy {α : Type} (k : α → Nat) (a : α) (l : List α) : (insertBy k a l).length = l.length + 1 := by
  induction l with
  | nil => rfl
  | cons x l ih =>
    unfold insertBy
    split
    · rfl
    · simp [ih]

/-! ### Holds and stretches for a step (R159, R161) -/

section
variable {c : Fin 8} {n : BitVec 64} {q : Bool} {v : BitVec 20} {s : State}

/-- A command for a step reaches the channel, and each bound member by the same boundary. -/
def State.noteStep (s : State) (c : Nat) (f g : Chan → Chan) : State := (s.lockBound c).foldl (fun s j => s.modChan j g) (s.modChan c f)

theorem chan_noteStep {f g : Chan → Chan} (hs : (f (s.chan c)).state ≠ .unbound) : (s.noteStep c f g).chan c = f (s.chan c) := by
  rw [State.noteStep, chan_foldl_modChan_other (fun h => (lockBound_mem h).1 rfl)]
  exact chan_modChan _ _ _ (chan_ne_reset _ hs)

theorem frame_noteStep (f g : Chan → Chan) : (s.noteStep c f g).jup = s.jup ∧ (s.noteStep c f g).out = s.out := frame_foldl_modChan ..

/-- A member is marked by what the update makes of a channel at its step. -/
theorem noteStep_marks {f g : Chan → Chan} {Q : Chan → Prop} {j : Nat} (hj : j ∈ s.lockBound c)
    (hg : ∀ y, (g y).state = y.state ∧ (g y).step = y.step) (hmark : ∀ y, y.step = (s.chan j).step → Q (g y)) (hkeep : ∀ y, Q y → Q (g y)) :
    Q ((s.noteStep c f g).chan j) := by
  obtain ⟨hne, hs⟩ := lockBound_mem hj
  refine chan_foldl_modChan_marks (P := fun y => y.state ≠ .unbound ∧ y.step = (s.chan j).step)
    (fun y hy => ⟨chan_ne_reset _ (by rw [(hg y).1]; exact hy.1), by rw [(hg y).1]; exact hy.1, by rw [(hg y).2]; exact hy.2⟩)
    (fun y hy => hmark y hy.2) hkeep hj ?_
  rw [chan_modChan_other _ _ _ _ hne]
  exact ⟨hs, rfl⟩

theorem stepHold_ahead (hu : (s.chan c).state ≠ .unbound) (ha : stepAhead (s.chan c) n = true) : s.stepHold c n q =
    s.noteStep c (fun x => x.addHold n (if q then 7 else 1)) fun y => y.addHold (mateStep (s.chan c) y n) 8 := by
  simp only [State.stepHold, hu, ha, if_false, if_true]
  rfl

theorem stepStretch_ahead (hu : (s.chan c).state ≠ .unbound) (ha : stepAhead (s.chan c) n = true) : s.stepStretch c n v =
    s.noteStep c (fun x => x.addStretch n v) fun y => y.addStretch (mateStep (s.chan c) y n) v := by
  simp only [State.stepStretch, hu, ha, if_false, if_true]
  rfl

theorem stepHold_late (hu : (s.chan c).state ≠ .unbound) (ha : stepAhead (s.chan c) n = false) : s.stepHold c n q = s.lateCommand c := by
  simp only [State.stepHold, hu, ha, if_false, Bool.false_eq_true]
theorem stepStretch_late (hu : (s.chan c).state ≠ .unbound) (ha : stepAhead (s.chan c) n = false) :
    s.stepStretch c n v = s.lateCommand c := by
  simp only [State.stepStretch, hu, ha, if_false, Bool.false_eq_true]

theorem stepHold_unbound (hu : (s.chan c).state = .unbound) : s.stepHold c n q = s := if_pos hu
theorem stepStretch_unbound (hu : (s.chan c).state = .unbound) : s.stepStretch c n v = s := if_pos hu

theorem execStepHold_awake (hp : s.tsu.power.state ≠ 4) : exec (.stepHold c n q) s = .next ((s.takeCommand opHoldJob).stepHold c n q) := by
  change execStepHold c n q s = _
  exact stepIn_awake hp
theorem execStepStretch_awake (hp : s.tsu.power.state ≠ 4) :
    exec (.stepStretch c n v) s = .next ((s.takeCommand opStretchJob).stepStretch c n v) := by
  change execStepStretch c n v s = _
  exact stepIn_awake hp

theorem execStepCommands_dark {tick : Tick} {i : BitVec 16} (hp : s.tsu.power.state = 4) : exec (.stepHold c n q) s = .next s ∧
    exec (.stepStretch c n v) s = .next s ∧ exec (.stepStart c tick i) s = .next s := by
  change execStepHold c n q s = _ ∧ execStepStretch c n v s = _ ∧ execStepStart c tick i s = _
  exact ⟨stepIn_dark hp, stepIn_dark hp, stepIn_dark hp⟩

end

/-- Settles O18: each event and command has one equation per case; the channel that a start, a resume or a command leaves is written
out once, and what lies between leaves the channels and outputs. -/
theorem channelsStart : Obligations.ChannelsStart := by
  refine ⟨?start, fun c s => execStartTickReached_otherTick, fun c s => execResumeTickReached_due, ?resume, fun c s => resumeNow_refused,
    ?command, ?hold, ?stretch, ?late, ?unbound, ?dark⟩
  case start =>
    intro c s ha hr ht hc h0 h1
    obtain ⟨u, hchan⟩ := chan_start h0 h1
    refine ⟨_, execStartTickReached_due ha hr ht, ?_⟩
    rw [hchan, start_clean h0 h1]
    exact ⟨rfl, rfl, rfl, rfl, rfl, rfl, rfl, rfl, out_emit_driven _ _ (.inr ((clamped_writeBoundary ..).trans hc)), rfl, rfl⟩
  case resume =>
    intro c s hr ht hg hs hb
    have hread : (s.modChan c fun x => { x with resume := false }).chan c = { s.chan c with resume := false } :=
      chan_modChan _ _ _ (chan_ne_reset _ (by rcases hs with hs | hs <;> (change (s.chan c).state ≠ _; rw [hs]; decide)))
    refine ⟨_, execResumeTickReached_due hr ht, ?_⟩
    rw [resumeNow_alone hg hs hb, chan_resumeOne, hread]
    exact ⟨rfl, rfl, rfl, rfl, rfl, rfl, rfl, rfl, rfl⟩
  case command =>
    intro c tick i s hp hr ht
    have hfirst : ((s.takeCommand opStartJob).modChan c fun x => { x with startTick := tick, startIndex := i }).chan c =
        { s.chan c with startTick := tick, startIndex := i } :=
      chan_modChan _ _ _ (chan_ne_reset _ (by change (s.chan c).state ≠ _; rw [hr]; decide))
    refine ⟨_, execStepStart_early hp hr ht, ?_⟩
    rw [chan_modChan _ _ _ (chan_ne_reset _ (by rw [hfirst]; change (s.chan c).state ≠ _; rw [hr]; decide)), hfirst]
    refine ⟨rfl, rfl, rfl, hr, fun k hk => ?_, rfl, rfl⟩
    rw [chan_modChan_other _ _ _ _ hk, chan_modChan_other _ _ _ _ hk]
    rfl
  case hold =>
    intro c n q s hp hu ha
    refine ⟨_, execStepHold_awake hp, ?_⟩
    rw [stepHold_ahead (s := s.takeCommand opHoldJob) hu ha, chan_noteStep (s := s.takeCommand opHoldJob) hu]
    refine ⟨rfl, rfl, fun j hj => ?_, frame_noteStep ..⟩
    refine noteStep_marks (s := s.takeCommand opHoldJob) (Q := fun y => _ ∈ y.holdStep) hj (fun y => ⟨rfl, rfl⟩) (fun y hy => ?_)
      (fun y hy => List.mem_append_left _ hy)
    exact List.mem_append_right _ (by rw [mateStep, mateStep, hy]; exact List.mem_singleton.mpr rfl)
  case stretch =>
    intro c n v s hp hu ha
    refine ⟨_, execStepStretch_awake hp, ?_⟩
    rw [stepStretch_ahead (s := s.takeCommand opStretchJob) hu ha, chan_noteStep (s := s.takeCommand opStretchJob) hu]
    refine ⟨(mem_insertBy ..).mpr (.inl rfl), length_insertBy .., rfl, fun j hj => ?_, frame_noteStep ..⟩
    refine noteStep_marks (s := s.takeCommand opStretchJob) (Q := fun y => _ ∈ y.stretchNext) hj (fun y => ⟨rfl, rfl⟩) (fun y hy => ?_)
      (fun y hy => (mem_insertBy ..).mpr (.inr hy))
    exact (mem_insertBy ..).mpr (.inl (by rw [mateStep, mateStep, hy]; rfl))
  case late =>
    intro c n q v s hp hu ha
    rw [execStepHold_awake hp, execStepStretch_awake hp]
    exact ⟨congrArg _ (stepHold_late (s := s.takeCommand opHoldJob) hu ha), congrArg _ (stepStretch_late (s := s.takeCommand opStretchJob) hu ha)⟩
  case unbound =>
    intro c n q v s hp hu
    rw [execStepHold_awake hp, execStepStretch_awake hp]
    exact ⟨congrArg _ (stepHold_unbound (s := s.takeCommand opHoldJob) hu), congrArg _ (stepStretch_unbound (s := s.takeCommand opStretchJob) hu)⟩
  case dark =>
    exact fun c n q v k i s => execStepCommands_dark

end Sys2Proof.Machine
end

section
/-! PROOFS of spec family 05: COMMIT. -/
namespace Sys2Proof.Machine
open Sys2Proof

/-! ## Why a COMMIT fails (R130, R131, R226) -/

section
variable {c : Nat} {s : State}

/-- What every COMMIT that takes effect has. -/
theorem commitFail_none {il : Bool} (h : s.commitFail c il = none) : (∀ e ∈ (s.chan c).prog.states, e.2 ≠ .pending) ∧
    (s.chan c).prog.stopped = false ∧ s.conjOpen c = false ∧ (if il then s.chSpan c = 0 else (s.chan c).prog.gate = 2) := by
  unfold State.commitFail at h
  dsimp only at h
  split at h
  · cases h
  rename_i hpend
  split at h
  · cases h
  rename_i hstop
  have hstates : ∀ e ∈ (s.chan c).prog.states, e.2 ≠ .pending :=
    fun e he hp => hpend (List.any_eq_true.mpr ⟨e, he, decide_eq_true hp⟩)
  refine ⟨hstates, Bool.eq_false_iff.mpr hstop, ?_⟩
  cases il with
  | true =>
    rw [if_pos rfl] at h
    split at h
    · cases h
    rename_i hspan
    split at h
    · cases h
    · exact ⟨Bool.eq_false_iff.mpr ‹_›, not_not.mp hspan⟩
  | false =>
    rw [if_neg Bool.false_ne_true] at h
    split at h
    · cases h
    split at h
    · cases h
    rename_i hgate
    split at h
    · cases h
    · exact ⟨Bool.eq_false_iff.mpr ‹_›, not_not.mp hgate⟩

/-! ## Its outcomes, once it is judged (R130, R131, R159) -/

variable {il : Bool} {i : BitVec 16} {t : Tick}

theorem commitCore_failed {k : Code} (h : s.commitFail c il = some k) : s.commitCore c il i t = s.commitFailed c k i := by
  simp only [State.commitCore, h]

theorem commitCore_goesOn (h : s.commitFail c il = none) (hh : holdCauses (s.chan c) (s.chan c).step = [])
    (hu : (s.chan c).unbindPend = false) : s.commitCore c il i t =
      ((s.commitTaken c t).emit (.stepBegin c ((s.commitTaken c t).chan c).prog.beginTick)).snapCheck c := by
  simp [State.commitCore, h, hh, hu]

theorem commitCore_holds (h : s.commitFail c il = none) (hh : holdCauses (s.chan c) (s.chan c).step ≠ []) : s.commitCore c il i t =
    (((s.commitTaken c t).noteParity 0 c 0).noteParity 1 c 0).holdAtBoundary c (holdCauses (s.chan c) (s.chan c).step) := by
  simp [State.commitCore, h, hh]

/-! ## What a COMMIT leaves of its channel (R130, R161) -/

/-- The channel after the step number, the stretch and the bank, before the boundary record is written. -/
def State.committed (s : State) (c : Nat) (t : Tick) (x : Chan) : Chan :=
  let n := (s.chan c).step
  let st := (s.chan c).stretchAt n
  let y := { x.clearHoldStep n with
    step := n + 1, stretch := st, voteLast := x.freshFields,
    stretchNext := x.stretchNext.filter fun e => !decide (e.1 ≤ n),
    ckptDue := if n ≠ 0 ∧ s.ckptPeriod c ≠ 0 ∧ n.toNat % s.ckptPeriod c = 0 then some n else x.ckptDue,
    prog := { (x.prog.newStep (t + st.setWidth 64)) with readyTick := t } }
  if x.swapGo then y.swapBanks else y

theorem commitTaken_eq (s : State) (c : Nat) (t : Tick) : s.commitTaken c t =
    ((s.emit (.shd c true)).modChan c (s.committed c t)).writeBoundary c
      (((s.emit (.shd c true)).modChan c (s.committed c t)).chan c).pc t := rfl

theorem committed_frame (s : State) (c : Nat) (t : Tick) (x : Chan) : (s.committed c t x).step = (s.chan c).step + 1 ∧
    (s.committed c t x).state = x.state ∧ (s.committed c t x).prog.sels = x.prog.sels := by
  unfold State.committed
  dsimp only
  split <;> exact ⟨rfl, rfl, rfl⟩

theorem pc_committed {x : Chan} (h : x.swapGo = false) : (s.committed c t x).pc = x.pc := by
  unfold State.committed
  dsimp only
  rw [if_neg (by rw [h]; exact Bool.false_ne_true)]
  rfl

/-- It is read back where its step number or its state shows that it is not as after reset. -/
theorem chan_commitTaken (h : (s.chan c).step + 1 ≠ 0 ∨ (s.chan c).state ≠ .unbound) : ∃ u : State,
    (s.commitTaken c t).chan c = { s.committed c t (s.chan c) with
      bnd := u.boundaryOf c (s.committed c t (s.chan c)) (s.committed c t (s.chan c)).pc t } := by
  obtain ⟨hstep, hstate, -⟩ := committed_frame s c t (s.chan c)
  have hne : ∀ y : Chan, y.step = (s.chan c).step + 1 → y.state = (s.chan c).state → y ≠ {} := by
    rintro y hy hs rfl
    exact h.elim (fun h => h hy.symm) (fun h => h hs.symm)
  have hread : ((s.emit (.shd c true)).modChan c (s.committed c t)).chan c = s.committed c t (s.chan c) :=
    chan_modChan _ _ _ (hne _ hstep hstate)
  refine ⟨(s.emit (.shd c true)).modChan c (s.committed c t), ?_⟩
  rw [commitTaken_eq, chan_writeBoundary (fun b => hne _ (by rw [hread]; exact hstep) (by rw [hread]; exact hstate)), hread]

theorem out_commitTaken (hc : s.clamped true = false) : (s.commitTaken c t).out = s.out ++ [.shd c true] :=
  out_emit_driven _ _ (.inr hc)

theorem clamped_commitTaken : (s.commitTaken c t).clamped true = s.clamped true := by
  rw [commitTaken_eq, clamped_writeBoundary]
  rfl

theorem badFrom_commitTaken {tbl : Nat} (h : s.badFrom tbl c 0 = []) (ht : tbl ≠ 2) : (s.commitTaken c t).badFrom tbl c 0 = [] := by
  rw [commitTaken_eq]
  exact badFrom_writeBoundary h ht

end

/-! ## COMMIT, as the next descriptor (R122, R130) -/

section
variable {c : Fin 8} {d : BitVec 128} {s : State}

theorem execCommit_onTick (hd : s.nextDesc c 7 = .desc d) (ht : actionTick (s.chan c).prog d = s.now .tsu)
    (hb : (s.chan c).prog.breaks (s.now .tsu) = false) :
    exec (.commit c) s = .next ((s.act c (s.now .tsu)).commitBody c d (s.chan c).pc (s.now .tsu)) := by
  change execCommit c s = _
  have hirrefl : ¬ s.now .tsu < s.now .tsu := BitVec.lt_irrefl _
  simp [execCommit, hd, ht, hb, hirrefl]

/-- A descriptor is next on a RUNNING channel only. -/
theorem running_of_nextDesc {k : Nat} (hd : s.nextDesc c k = .desc d) : (s.chan c).state = .running := by
  unfold State.nextDesc at hd
  split at hd
  · cases hd
  · rename_i h
    exact not_not.mp (not_or.mp h).1

/-- A channel that has acted on its descriptor. -/
def Chan.acted (x : Chan) (t : Tick) : Chan :=
  { x with
    pc := x.pc + 1
    prog := { x.prog with refTick := t, branchTick := none, lateNext := false, readyTick := t,
                          acts := t :: x.prog.acts.filter fun a => decide (t.toNat < a.toNat + 64) } }

theorem chan_act (hr : (s.chan c).state = .running) (t : Tick) : (s.act c t).chan c = (s.chan c).acted t := by
  have hne : ∀ y : Chan, y.state = (s.chan c).state → y ≠ {} := fun y hy => chan_ne_reset _ (by rw [hy, hr]; decide)
  have hadvance : (s.advance c t).chan c = _ := chan_modChan _ _ _ (hne _ rfl)
  rw [State.act, State.modProg, chan_modChan _ _ _ (hne _ (by rw [hadvance])), hadvance]
  rfl

theorem chan_act_other (t : Tick) {k : Nat} (h : k ≠ c) : (s.act c t).chan k = s.chan k :=
  (chan_modChan_other _ _ _ _ h).trans (chan_modChan_other _ _ _ _ h)

theorem commitFail_act (hr : (s.chan c).state = .running) (t : Tick) (il : Bool) : (s.act c t).commitFail c il = s.commitFail c il := by
  unfold State.commitFail
  rw [chan_act hr]
  rfl

theorem lockMates_act (t : Tick) (h : s.lockMates c = []) : (s.act c t).lockMates c = [] := by
  have hmates : (s.act c t).lockMates c = s.lockMates c := by
    unfold State.lockMates
    refine if_congr Iff.rfl rfl (List.filter_congr fun j _ => ?_)
    by_cases hj : j = c
    · simp [hj]
    · rw [chan_act_other t hj]
      rfl
  rw [hmates, h]

theorem commitBody_alone {t : Tick} {i : BitVec 16} (h : s.lockMates c = []) : s.commitBody c d i t = s.commitCore c (d.getLsbD 123) i t := by
  simp [State.commitBody, h]

end

/-- Settles O21: a COMMIT comes down to its judgment and one equation per outcome; the channel of one that takes effect is written out
once, and read back through the boundary record. -/
theorem commitRule : Obligations.CommitRule := by
  refine ⟨fun c d s => execCommit_onTick, ?outcome, ?gated, ?isLocal, ?taken, fun c il i t k s => commitCore_failed,
    fun c il i t s => commitCore_goesOn, fun c il i t s => commitCore_holds⟩
  case outcome =>
    intro c d s hd ht hb hm hf hh hu hg hc h0 h1
    have hr := running_of_nextDesc hd
    have hacted := chan_act hr (s.now .tsu)
    have hgoes := commitCore_goesOn (s := s.act c (s.now .tsu)) (c := c) (i := (s.chan c).pc) (t := s.now .tsu)
      ((commitFail_act hr ..).trans hf) (by rw [hacted]; exact hh) (by rw [hacted]; exact hu)
    have hclean {tbl : Nat} (h : s.badFrom tbl c 0 = []) (ht : tbl ≠ 2) (o : Out) :
        (((s.act c (s.now .tsu)).commitTaken c (s.now .tsu)).emit o).badFrom tbl c 0 = [] :=
      (badFrom_emit ..).trans (badFrom_commitTaken (s := s.act c (s.now .tsu)) h ht)
    rw [snapCheck_clean (hclean h0 (by decide) _) (hclean h1 (by decide) _)] at hgoes
    obtain ⟨u, hchan⟩ := chan_commitTaken (s := s.act c (s.now .tsu)) (c := c) (t := s.now .tsu)
      (.inr (by rw [hacted]; change (s.chan c).state ≠ _; rw [hr]; decide))
    obtain ⟨hstep, hstate, hsels⟩ := committed_frame (s.act c (s.now .tsu)) c (s.now .tsu) ((s.act c (s.now .tsu)).chan c)
    have hpc := pc_committed (s := s.act c (s.now .tsu)) (c := c) (t := s.now .tsu) (x := (s.act c (s.now .tsu)).chan c) (by rw [hacted]; exact hg)
    have hdriven (o : Out) : (((s.act c (s.now .tsu)).commitTaken c (s.now .tsu)).emit o).out = s.out ++ [.shd c true, o] := by
      rw [out_emit_driven _ _ (.inr ((clamped_commitTaken (s := s.act c (s.now .tsu))).trans hc)),
        out_commitTaken (s := s.act c (s.now .tsu)) hc, List.append_assoc]
      rfl
    refine ⟨_, execCommit_onTick hd ht hb, ?_⟩
    rw [commitBody_alone (lockMates_act _ hm), hgoes, chan_emit, hchan, hdriven]
    rw [hacted] at hstep hstate hsels hpc ⊢
    exact ⟨hstate.trans hr, hstep, hstep, rfl, hpc, hsels, _, rfl⟩
  case gated =>
    intro c s h
    obtain ⟨hstates, hstop, hopen, hgate⟩ := commitFail_none h
    exact ⟨hgate, hstop, hopen, hstates⟩
  case isLocal =>
    intro c s h
    obtain ⟨hstates, hstop, hopen, hspan⟩ := commitFail_none h
    exact ⟨hspan, hstop, hopen, hstates⟩
  case taken =>
    intro c t s hs hc
    have hnz : (s.chan c).step + 1 ≠ 0 := by
      intro h
      refine hs (BitVec.eq_of_toNat_eq ?_)
      have hnat := congrArg BitVec.toNat h
      bv_omega
    obtain ⟨u, hchan⟩ := chan_commitTaken (s := s) (c := c) (t := t) (.inl hnz)
    obtain ⟨hstep, -⟩ := committed_frame s c t (s.chan c)
    rw [hchan]
    exact ⟨hstep, hstep, rfl, out_commitTaken hc, rfl, rfl⟩

end Sys2Proof.Machine
end

section
/-! PROOFS of spec families 05 and 15: what stations, drains and the network interface report. -/
namespace Sys2Proof.Machine
open Sys2Proof

/-! ## Inputs of the main domain (R412) -/

theorem mainIn_up {s : State} {f : State → State} (h : s.mainOff = false) : s.mainIn f = .next (f s) :=
  due_of (by rw [h, Bool.not_false])

/-! ## A fault of a channel, and the step that it stops (R133, R139, R140) -/

section
variable {s : State} {c : Nat} {code : Code} {ctx : Ctx}

theorem fblock_modChan (k : Nat) (f : Chan → Chan) (b : Nat) : (s.modChan k f).fblock .tsu b = s.fblock .tsu b := rfl

theorem valid_raiseChan : ((s.raiseChan c code ctx).fblock .tsu (blkChan c)).valid = true := by
  unfold State.raiseChan
  dsimp only
  split
  · rw [fblock_modChan]
    exact valid_latchFault ..
  · exact valid_latchFault ..

theorem raiseChan_other (h : code ≠ cStepOverrun) :
    s.raiseChan c code ctx = s.raiseFault .tsu (blkChan c) code { ctx with ch := BitVec.ofNat 4 c } := if_neg h

theorem chan_raiseOverrun : (s.raiseChan c cStepOverrun ctx).chan c = { s.chan c with cycle := true } := by
  have hfault := shown_raiseFault s (blkChan c) cStepOverrun { ctx with ch := BitVec.ofNat 4 c }
  rw [State.raiseChan, if_pos rfl, chan_modChan _ _ _ fun h => Bool.noConfusion (congrArg Chan.cycle h), chan_of_shown hfault]

theorem chan_raiseOverrun_other {k : Nat} (h : k ≠ c) : (s.raiseChan c cStepOverrun ctx).chan k = s.chan k := by
  have hfault := shown_raiseFault s (blkChan c) cStepOverrun { ctx with ch := BitVec.ofNat 4 c }
  rw [State.raiseChan, if_pos rfl, chan_modChan_other _ _ _ _ h, chan_of_shown hfault]

/-- The lock group of a channel does not depend on faults. -/
theorem lockMates_raiseChan (h : code ≠ cStepOverrun) : (s.raiseChan c code ctx).lockMates c = s.lockMates c := by
  have hregs : (s.raiseChan c code ctx).tsuC.regs = s.tsuC.regs := by
    obtain ⟨-, -, hregs, -⟩ := fields_of_sansStep (sansStep_raiseChan s c code ctx)
    exact hregs
  have hgrp (j : Nat) : (s.raiseChan c code ctx).lockGrp j = s.lockGrp j := by
    simp only [State.lockGrp, State.reg, com_tsu, hregs]
  unfold State.lockMates
  simp only [hgrp, chan_of_shown (shown_raiseChan s c ctx h)]

theorem stopStep_alone {cause : Nat} (hr : (s.chan c).state = .running) (hg : (s.chan c).prog.gateVoted = false)
    (hm : s.lockMates c = []) : s.stopStep c cause code ctx = s.stopOne c cause := by
  rw [State.stopStep, if_neg (not_not.mpr hr), hg, if_neg Bool.false_ne_true, hm]
  rfl

/-- A fault before the gate VOTE stops the step of a channel with no RUNNING mate. -/
theorem stepFault_alone (h : code ≠ cStepOverrun) (hr : (s.chan c).state = .running) (hg : (s.chan c).prog.gateVoted = false)
    (hm : s.lockMates c = []) : s.stepFault c code ctx = (s.raiseChan c code ctx).stopOne c 4 := by
  have hchan := chan_of_shown (shown_raiseChan s c ctx h) c
  exact stopStep_alone (by rw [hchan, hr]) (by rw [hchan, hg]) ((lockMates_raiseChan h).trans hm)

end

/-! ## Reports of stations (R139, R140, R420, R421) -/

section
variable {c : Fin 8} {s : State}

theorem execStationBusyReport_running (hm : s.mainOff = false) (hr : (s.chan c).state = .running)
    (hg : (s.chan c).prog.unsent.any Unsent.gate = false) :
    exec (.stationBusyReport c) s = .next (s.stepFault c cStationBusy {}) := by
  change execStationBusyReport c s = _
  rw [execStationBusyReport, mainIn_up hm, if_neg (not_not.mpr hr), State.judgedFault, hg, if_neg Bool.false_ne_true]

theorem execStationBusyReport_idle (hr : (s.chan c).state ≠ .running) : exec (.stationBusyReport c) s = .next s := by
  change execStationBusyReport c s = _
  rw [execStationBusyReport, State.mainIn, due_next, if_pos hr, ite_self]

/-! ## Captured words (R148, R423) -/

/-- A drained word stands in the capture table. -/
def State.capture (s : State) (slot : BitVec 8) (k : BitVec 4) (data : Word) : State :=
  s.modTsu fun t => { t with capture := tset 0 t.capture (captureKey slot k.toNat) data }

theorem execCaptureWrite_up {st : BitVec 13} {slot : BitVec 8} {k : BitVec 4} {last : Bool} {data : Word} (hm : s.mainOff = false) :
    exec (.captureWrite c st slot k last data) s = .next ((s.capture slot k data).modProg c fun p =>
      if last && p.writing (s.now .tsu) st then { p with captured := (slot, st) :: p.captured } else p) := by
  change execCaptureWrite c st slot k last data s = _
  rw [execCaptureWrite, mainIn_up hm]
  rfl

/-! ## The checkpoint and the digests (R304, R427, R429) -/

/-- The commit's change has joined the sum. -/
def State.addDelta (s : State) (c : Nat) (delta : Word) : State :=
  s.modChan c fun x => { x with ckpt := (s.chan c).ckpt + delta, ckptDue := none }
/-- The CHECKPOINT record that is due leaves. -/
def State.sendCheckpoint (s : State) (c : Nat) (x : Chan) (sum : Word) : State :=
  match x.ckptDue with
  | some n => s.send .tsu (s.upOf c) (appendMsg x.job (checkpointRecord x n sum))
  | none => s

theorem execCheckpointDelta_up {delta : Word} (hm : s.mainOff = false) : exec (.checkpointDelta c delta) s =
    .next (((s.addDelta c delta).sendCheckpoint c (s.chan c) ((s.chan c).ckpt + delta)).emit (.shadowFlow c (s.chan c).step)) := by
  change execCheckpointDelta c delta s = _
  rw [execCheckpointDelta, mainIn_up hm]
  rfl

/-- A record that leaves changes nothing but a link of the die. -/
theorem frame_sendCheckpoint (s : State) (c : Nat) (x : Chan) (sum : Word) : (s.sendCheckpoint c x sum).tsu = s.tsu ∧
    (s.sendCheckpoint c x sum).jup = s.jup ∧ (s.sendCheckpoint c x sum).out = s.out := by
  unfold State.sendCheckpoint
  split <;> exact ⟨rfl, rfl, rfl⟩

theorem execDigestUpdate_read {i : Fin 16} {crc : Word} {b : Bool} (hm : s.mainOff = false) (hp : s.sramBad 4 c i = false) :
    exec (.digestUpdate c i crc b) s = .next (s.modChan c fun x => { x with digests := tset 0 x.digests i crc, digBusy := b }) := by
  change execDigestUpdate c i crc b s = _
  rw [execDigestUpdate, mainIn_up hm, State.sramRead, hp, if_neg Bool.false_ne_true]

/-- A word written to a table of words reads back where it is not 0 or the table is canonical. -/
theorem tget_tset_word {t : Table Word} {k : Nat} {v : Word} (h : v ≠ 0 ∨ Table.wf 0 t = true) : tget 0 (tset 0 t k v) k = v :=
  h.elim (tget_tset_ne _ _ _ _) (tget_tset_same _ _ _ _)

/-! ## The end of a channel's last stream (R393) -/

theorem frame_powerChoice (s : State) : s.powerChoice.tsu.chans = s.tsu.chans ∧ s.powerChoice.jup = s.jup := by
  unfold State.powerChoice
  dsimp only
  split
  · exact ⟨rfl, rfl⟩
  · split <;> exact ⟨rfl, rfl⟩

theorem execStreamEnd_up (hm : s.mainOff = false) :
    exec (.streamEnd c) s = .next ((s.modChan c fun x => { x with running := false }).powerChoice) := by
  change execStreamEnd c s = _
  rw [execStreamEnd, mainIn_up hm]

end

/-- Settles O25: each report has one equation while the main rail is up; what it leaves is read off the channel, the table or the
sum that it writes. -/
theorem stationReports : Obligations.StationReports := by
  refine ⟨fun c s => execStationBusyReport_running, ?stops, fun c s => execStationBusyReport_idle, fun c core st n s hm => ?overrun,
    ?logged, ?captured, ?last, ?sum, ?digest, fun c s => execStreamEnd_up, ?ended⟩
  case overrun =>
    change execOverrunReport c core st n s = _
    rw [execOverrunReport, mainIn_up hm]
  case stops =>
    intro c s hm hr hmates hu hg hv
    have hshown := shown_raiseChan s c {} (code := cStationBusy) (by decide)
    have hchan := chan_of_shown hshown c
    refine ⟨_, execStationBusyReport_running hm hr hg, ?_⟩
    rw [stepFault_alone (by decide) hr hv hmates]
    obtain ⟨⟨now, hstop⟩, hout⟩ := chan_stopOne (s := s.raiseChan c cStationBusy {}) 4 (by rw [hchan, hr]) (by rw [hchan, hu])
    rw [hstop, hout, hchan]
    refine ⟨rfl, rfl, rfl, fun hc => ?_⟩
    rw [out_stopStreams ((clamped_of_sansStep (sansStep_raiseChan ..) true).trans hc)]
    simp
  case logged =>
    intro c core st n s hm
    refine ⟨s.raiseChan c cStepOverrun { core := core, slot := BitVec.ofNat 6 st.val, detail := detail n.toNat }, ?_, ?_⟩
    · change execOverrunReport c core st n s = _
      rw [execOverrunReport, mainIn_up hm]
    · rw [chan_raiseOverrun]
      exact ⟨rfl, rfl, rfl, valid_raiseChan, fun k hk => chan_raiseOverrun_other hk⟩
  case captured =>
    intro c st slot k last data s hm
    exact ⟨_, execCaptureWrite_up hm, tget_tset_word, fun j hj => tget_tset_other _ _ _ _ _ hj, rfl, rfl, rfl⟩
  case last =>
    intro c st slot k data s hm hu hw
    refine ⟨_, execCaptureWrite_up hm, ?_⟩
    rw [State.modProg, chan_modChan _ _ _ (chan_ne_reset _ hu)]
    change (if true && (s.chan c).prog.writing (s.now .tsu) st then _ else _ : Prog).captured = _
    rw [hw]
    rfl
  case sum =>
    intro c delta s hm hu
    obtain ⟨htsu, hjup, hout⟩ := frame_sendCheckpoint (s.addDelta c delta) c (s.chan c) ((s.chan c).ckpt + delta)
    have hread (k : Nat) : ((s.addDelta c delta).sendCheckpoint c (s.chan c) ((s.chan c).ckpt + delta)).chan k =
        (s.addDelta c delta).chan k := by rw [State.chan, htsu, State.chan]
    have hchan : (s.addDelta c delta).chan c = { s.chan c with ckpt := (s.chan c).ckpt + delta, ckptDue := none } :=
      chan_modChan _ _ _ (chan_ne_reset _ hu)
    refine ⟨_, execCheckpointDelta_up hm, ?_⟩
    rw [chan_emit, hread, hchan]
    refine ⟨rfl, rfl, rfl, fun k hk => ?_, hjup, fun hc => ?_, fun hd => ?_⟩
    · rw [chan_emit, hread]
      exact chan_modChan_other _ _ _ _ hk
    · rw [out_emit_driven _ _ (.inr ?_), hout]
      · rfl
      · rw [State.clamped, htsu]
        exact hc
    · rw [State.sendCheckpoint, hd]
      rfl
  case digest =>
    intro c i crc b s hm hu hp
    refine ⟨_, execDigestUpdate_read hm hp, ?_⟩
    rw [chan_modChan _ _ _ (chan_ne_reset _ hu)]
    exact ⟨rfl, tget_tset_word, fun j hj => tget_tset_other _ _ _ _ _ hj, rfl, rfl, rfl⟩
  case ended =>
    intro c s hm hu
    obtain ⟨hchans, hjup⟩ := frame_powerChoice (s.modChan c fun x => { x with running := false })
    have hread (k : Nat) : ((s.modChan c fun x => { x with running := false }).powerChoice).chan k =
        (s.modChan c fun x => { x with running := false }).chan k := by rw [State.chan, hchans, State.chan]
    refine ⟨_, execStreamEnd_up hm, ?_⟩
    rw [hread, chan_modChan _ _ _ (chan_ne_reset _ hu)]
    exact ⟨rfl, rfl, fun k hk => (hread k).trans (chan_modChan_other _ _ _ _ hk), hjup⟩

end Sys2Proof.Machine
end

section
/-! PROOFS of spec family 06: vote results at a die, and the settling of its VOTEs. -/
namespace Sys2Proof.Machine
open Sys2Proof

/-! ## VOTE_RESULT_RX (R30, R177, R179, R203) -/

section
variable {ws : List Word} {s : State}

theorem execVoteResultRx_dark (hp : s.tsu.power.state = 4) : exec (.voteResultRx ws) s = .next s := by
  change execVoteResultRx ws s = _
  exact stepIn_dark hp

/-- The result is taken from the inbox, on which no judgment of it rests. -/
theorem execVoteResultRx_awake (hp : s.tsu.power.state ≠ 4) :
    exec (.voteResultRx ws) s = .next ((s.consume .tsu 0 mtResult ws).voteResult ws) := by
  change execVoteResultRx ws s = _
  exact stepIn_awake hp

theorem voteResult_stray (hh : s.resultHits ws = []) (he : s.earlyFails ws = []) : s.voteResult ws = s.strayResult ws := by
  simp [State.voteResult, hh, he]

theorem voteResult_early {c : Nat} (hh : s.resultHits ws = []) (he : s.earlyFails ws = [c]) :
    s.voteResult ws = s.modProg c fun p => { p with gate := 3 } := by
  simp [State.voteResult, hh, he]

theorem voteResult_hit {c : Nat} {v : PendVote} (hh : s.resultHits ws = [(c, v)]) : s.voteResult ws = s.takeResult c v ws := by
  simp [State.voteResult, hh]

/-- A channel whose result matches is bound. -/
theorem bound_of_resultHits {c : Nat} {v : PendVote} (hh : s.resultHits ws = [(c, v)]) : (s.chan c).state ≠ .unbound := by
  have hmem : (c, v) ∈ s.resultHits ws := by rw [hh]; exact List.mem_singleton.mpr rfl
  unfold State.resultHits at hmem
  obtain ⟨k, -, hk⟩ := List.mem_filterMap.mp hmem
  obtain ⟨w, hw, hcw⟩ := Option.map_eq_some_iff.mp hk
  obtain ⟨rfl, -⟩ := Prod.mk.inj hcw
  unfold resultMatches at hw
  split at hw
  · rename_i h
    obtain ⟨h | h, -⟩ := h <;> (rw [h]; decide)
  · cases hw

theorem bound_of_earlyFails {c : Nat} (he : s.earlyFails ws = [c]) : (s.chan c).state ≠ .unbound := by
  have hmem : c ∈ s.earlyFails ws := by rw [he]; exact List.mem_singleton.mpr rfl
  unfold State.earlyFails at hmem
  dsimp only at hmem
  split at hmem
  · have hc := (List.mem_filter.mp hmem).2
    simp only [Bool.and_eq_true, decide_eq_true_eq] at hc
    obtain ⟨⟨h | h, -⟩, -⟩ := hc <;> (rw [h]; decide)
  · cases hmem

theorem strayResult_frame : (s.strayResult ws).tsu.voteStray = satInc s.tsu.voteStray ∧ (s.strayResult ws).tsu.chans = s.tsu.chans ∧
    (s.strayResult ws).tsu.sync = s.tsu.sync ∧ ((s.strayResult ws).fblock .tsu (blkCmd .tsu)).valid = true ∧
      (s.strayResult ws).jup = s.jup ∧ (s.strayResult ws).out = s.out := by
  unfold State.strayResult
  dsimp only
  have hsans := fun t : State => sansFaults_raiseFault t .tsu (blkCmd .tsu) cVoteStray { group := (nthW ws 0).extractLsb' 20 12 }
  have hshown := fun t : State => shown_raiseFault t (blkCmd .tsu) cVoteStray { group := (nthW ws 0).extractLsb' 20 12 }
  have hstep := fun t : State => sansStep_raiseFault t (blkCmd .tsu) cVoteStray { group := (nthW ws 0).extractLsb' 20 12 }
  refine ⟨(congrArg (fun x : State => x.tsu.voteStray) (hsans _) :), congrArg Prod.fst (hshown _),
    (congrArg (fun x : State => x.tsu.sync) (hsans _) :), valid_latchFault .., (congrArg State.jup (hstep _) :), out_of_shown (hshown _)⟩

/-- VALID_TICK that a result names, or the VOTE's own. -/
def resultTick (s : State) (ws : List Word) (v : PendVote) : Tick :=
  if (nthW ws 1).extractLsb' 32 32 = 0 then v.validTick else nearTick (s.now .tsu) ((nthW ws 1).extractLsb' 32 32)

theorem takeResult_late {c : Nat} {v : PendVote} (hd : v.done = true) :
    s.takeResult c v ws = s.modTsu fun t => { t with voteLate := satInc t.voteLate } := if_pos hd

/-- A result in time is kept with the VOTE that waits for it. -/
theorem takeResult_kept {c : Nat} {v : PendVote} (hd : v.done = false) (ht : s.now .tsu ≤ resultTick s ws v)
    (hn : (nthW ws 1).extractLsb' 32 32 ≠ 0 ∨ v.field ≠ 4) : s.takeResult c v ws = s.modPend c v.field fun u =>
      { u with validTick := resultTick s ws v, result := some ((nthW ws 0).getLsbD 16, (nthW ws 1).extractLsb' 0 7,
               dieWord v.entry (s.chan c).rank (nthW ws 2) (ws.drop 3) :: ws.drop 3) } := by
  unfold State.takeResult
  dsimp only
  rw [hd, if_neg Bool.false_ne_true, if_neg (fun h => hn.elim (fun hz => hz h.2.1) fun hf => hf h.2.2)]
  exact if_neg (show ¬ resultTick s ws v < s.now .tsu from BitVec.not_lt.mpr ht)

end

/-! ## SELECTOR_VALID (R30, R148, R179) -/

section
variable {c : Fin 8} {f : Fin 5} {v : PendVote} {s : State}

theorem execSelectorValid_due (hv : (s.chan c).prog.votePend f = some v) (ht : v.validTick = s.now .tsu) :
    exec (.selectorValid c f) s = .next (s.settle c v) := by
  change execSelectorValid c f s = _
  simp [execSelectorValid, State.settleDue, hv, ht]

theorem execSelectorValid_otherTick (hv : (s.chan c).prog.votePend f = some v) (ht : v.validTick ≠ s.now .tsu) :
    exec (.selectorValid c f) s = .next s := by
  change execSelectorValid c f s = _
  simp [execSelectorValid, State.settleDue, hv, ht]

theorem execSelectorValid_none (hv : (s.chan c).prog.votePend f = none) : exec (.selectorValid c f) s = .next s := by
  change execSelectorValid c f s = _
  simp [execSelectorValid, State.settleDue, hv]

end

section
variable {c : Nat} {v : PendVote} {s : State}

/-- A channel whose VOTE is settled. -/
def Chan.settledVote (x : Chan) (f : Nat) : Chan :=
  { x with prog := { x.prog with pend := updFirst (fun v => decide (v.field = f) && !v.done) (fun v => { v with done := true }) x.prog.pend } }

theorem chan_modPend {f : Nat} {g : PendVote → PendVote} (hu : (s.chan c).state ≠ .unbound) : (s.modPend c f g).chan c =
    { s.chan c with prog := { (s.chan c).prog with
        pend := updFirst (fun v => decide (v.field = f) && !v.done) g (s.chan c).prog.pend } } :=
  chan_modChan _ _ _ (chan_ne_reset _ hu)

/-! ### The gate -/

theorem chan_settleGate (hu : (s.chan c).state ≠ .unbound) (passed : Bool) : (s.settleGate c passed).chan c =
    { (s.chan c).settledVote 4 with prog := { ((s.chan c).settledVote 4).prog with gate := if passed then 2 else 3 } } := by
  have hpend := chan_modPend (f := 4) (g := fun v => { v with done := true }) hu
  rw [State.settleGate, State.modProg, chan_modChan _ _ _ (chan_ne_reset _ (by rw [hpend]; exact hu)), hpend]
  rfl

theorem settle_gate {b : Bool} {st : BitVec 7} {ws : List Word} (hf : v.field = 4) (hr : v.result = some (b, st, ws)) :
    s.settle c v = s.settleGate c (!b) := by
  rw [State.settle, if_pos hf, hr]

theorem settle_gateMissing (hf : v.field = 4) (hr : v.result = none) :
    s.settle c v = (s.settleGate c false).raiseChan c cVoteMissing { group := v.group } := by
  rw [State.settle, if_pos hf, hr]

/-! ### A selector that becomes VALID -/

theorem settle_valid {st : BitVec 7} {ws : List Word} (hf : v.field ≠ 4) (hr : v.result = some (false, st, ws)) :
    s.settle c v = s.settleValid c v st ws := by
  rw [State.settle, if_neg hf, hr]

/-- The channel with the first word in the selector. -/
def Chan.tookResult (x : Chan) (v : PendVote) (st : BitVec 7) (ws : List Word) : Chan :=
  { x with voteLast := tmod {} x.voteLast v.field fun l => { l with state := 2, status := st, tick := v.validTick.setWidth 32 },
           prog := { x.prog with sels := tset 0 x.prog.sels v.sel (nthW ws 0), states := tset .valid x.prog.states v.sel .valid,
                                 selTick := tset none x.prog.selTick v.sel (some v.validTick) } }

theorem settleValid_selector {st : BitVec 7} {ws : List Word} (hn : v.nosel = false) : s.settleValid c v st ws =
    (((s.sramWrite 2 c v.sel).modPend c v.field fun v => { v with done := true }).modChan c (Chan.tookResult · v st ws)).emit
      (.vres (fld v.entry 30 23) ws) := by
  simp only [State.settleValid, hn, Bool.false_eq_true, if_false]
  rfl

theorem chan_settleValid {st : BitVec 7} {ws : List Word} (hn : v.nosel = false) (hu : (s.chan c).state ≠ .unbound) :
    (s.settleValid c v st ws).chan c = ((s.chan c).settledVote v.field).tookResult v st ws := by
  have hread : (s.sramWrite 2 c v.sel).chan c = s.chan c := chan_of_shown (shown_sramSpan ..) c
  have hpend := chan_modPend (s := s.sramWrite 2 c v.sel) (c := c) (f := v.field) (g := fun v => { v with done := true }) (by rw [hread]; exact hu)
  rw [settleValid_selector hn, chan_emit, chan_modChan _ _ _ (chan_ne_reset _ (by rw [hpend, hread]; exact hu)), hpend, hread]
  rfl

theorem out_settleValid {st : BitVec 7} {ws : List Word} (hn : v.nosel = false) (hc : s.clamped true = false) :
    (s.settleValid c v st ws).out = s.out ++ [.vres (fld v.entry 30 23) ws] := by
  rw [settleValid_selector hn]
  exact out_emit_driven _ _ (.inr ((clamped_of_sansStep (sansStep_sramSpan ..) true).trans hc))

/-! ### A selector that becomes FAILED, and the hold without a result -/

theorem settle_missing (hf : v.field ≠ 4) (hr : v.result = none) : s.settle c v = (s.settleFailed c v).wantHold c 3 := by
  rw [State.settle, if_neg hf, hr]

/-- The channel with the selector FAILED. -/
def Chan.failedVote (x : Chan) (v : PendVote) : Chan :=
  { x with voteLast := tmod {} x.voteLast v.field fun l => { l with state := 3, tick := v.validTick.setWidth 32 },
           prog := { x.prog with states := tset .valid x.prog.states v.sel .failed } }

theorem settleFailed_selector (hn : v.nosel = false) : s.settleFailed c v =
    ((s.modPend c v.field fun v => { v with done := true }).modChan c (Chan.failedVote · v)).raiseChan c cVoteMissing
      { group := v.group } := by
  simp only [State.settleFailed, hn, Bool.false_eq_true, if_false]
  rfl

theorem chan_settleFailed (hn : v.nosel = false) (hu : (s.chan c).state ≠ .unbound) :
    (s.settleFailed c v).chan c = ((s.chan c).settledVote v.field).failedVote v := by
  have hpend := chan_modPend (s := s) (c := c) (f := v.field) (g := fun v => { v with done := true }) hu
  rw [settleFailed_selector hn, chan_of_shown (shown_raiseChan _ _ _ (by decide)),
    chan_modChan _ _ _ (chan_ne_reset _ (by rw [hpend]; exact hu)), hpend]
  rfl

theorem out_settleFailed (hn : v.nosel = false) : (s.settleFailed c v).out = s.out := by
  rw [settleFailed_selector hn, out_of_shown (shown_raiseChan _ _ _ (by decide))]
  rfl

/-- A RUNNING channel that is to be held keeps all but the causes for it. -/
theorem chan_wantHold_prog (cause : Nat) (hr : (s.chan c).state = .running) :
    ((s.wantHold c cause).chan c).prog = (s.chan c).prog ∧ ((s.wantHold c cause).chan c).voteLast = (s.chan c).voteLast := by
  rw [State.wantHold, chan_modChan _ _ _ (chan_ne_reset _ (by split <;> (change (s.chan c).state ≠ _; rw [hr]; decide)))]
  split <;> exact ⟨rfl, rfl⟩

end

/-- Settles O26: a result is stray, late, kept or fails a gate at once, and a VOTE settles in one of four ways; the channel that each of
these leaves is written out once. -/
theorem resultsAtTsu : Obligations.ResultsAtTsu := by
  refine ⟨?stray, fun ws s => execVoteResultRx_dark, ?kept, ?late, ?early, ?valid, ?missing, ?gate, ?gateMissing,
    fun c f v s => execSelectorValid_otherTick, fun c f s => execSelectorValid_none⟩
  case stray =>
    intro ws s hp hh he
    refine ⟨_, execVoteResultRx_awake hp, ?_⟩
    rw [voteResult_stray (s := s.consume .tsu 0 mtResult ws) hh he]
    exact strayResult_frame
  case kept =>
    rintro ws c v vt s hp hh hd rfl ht hn
    have hu := bound_of_resultHits hh
    refine ⟨_, execVoteResultRx_awake hp, ?_⟩
    rw [voteResult_hit (s := s.consume .tsu 0 mtResult ws) hh, takeResult_kept (s := s.consume .tsu 0 mtResult ws) hd ht hn,
      chan_modPend (s := s.consume .tsu 0 mtResult ws) hu]
    exact ⟨rfl, rfl, fun k hk => chan_modChan_other (s.consume .tsu 0 mtResult ws) _ _ _ hk, rfl, rfl⟩
  case late =>
    intro ws c v s hp hh hd
    refine ⟨_, execVoteResultRx_awake hp, ?_⟩
    rw [voteResult_hit (s := s.consume .tsu 0 mtResult ws) hh, takeResult_late hd]
    exact ⟨rfl, rfl, rfl⟩
  case early =>
    intro ws c s hp hh he
    have hu := bound_of_earlyFails he
    refine ⟨_, execVoteResultRx_awake hp, ?_⟩
    rw [voteResult_early (s := s.consume .tsu 0 mtResult ws) hh he, State.modProg,
      chan_modChan (s.consume .tsu 0 mtResult ws) _ _ (chan_ne_reset _ hu)]
    exact ⟨rfl, fun k hk => chan_modChan_other (s.consume .tsu 0 mtResult ws) _ _ _ hk, rfl⟩
  case valid =>
    intro c f v st ws s hu hv ht hf hn hr
    refine ⟨_, execSelectorValid_due hv ht, ?_⟩
    rw [settle_valid hf hr, chan_settleValid hn hu, ← ht]
    have hlast : tget {} (((s.chan c).settledVote v.field).tookResult v st ws).voteLast v.field =
        { tget {} (s.chan c).voteLast v.field with state := 2, status := st, tick := v.validTick.setWidth 32 } :=
      tget_tset_ne _ _ _ _ fun h => (by decide : (2 : BitVec 2) ≠ 0) (congrArg VoteLast.state h)
    rw [hlast]
    refine ⟨tget_tset_same _ _ _ _, tget_tset_same _ _ _ _, tget_tset_ne _ _ _ _ (by simp), rfl, rfl, rfl, out_settleValid hn, ?_, ?_⟩ <;>
      rw [settleValid_selector hn] <;> rfl
  case missing =>
    intro c f v s hr hv ht hf hn hres
    have hu : (s.chan c).state ≠ .unbound := by rw [hr]; decide
    have hfailed := chan_settleFailed hn hu
    have hrun : ((s.settleFailed c v).chan c).state = .running := by rw [hfailed]; exact hr
    obtain ⟨hprog, hlasts⟩ := chan_wantHold_prog 3 hrun
    obtain ⟨hwant, -⟩ := chan_wantHold_running 3 hrun
    have hlast : tget {} (((s.chan c).settledVote v.field).failedVote v).voteLast v.field =
        { tget {} (s.chan c).voteLast v.field with state := 3, tick := v.validTick.setWidth 32 } :=
      tget_tset_ne _ _ _ _ fun h => (by decide : (3 : BitVec 2) ≠ 0) (congrArg VoteLast.state h)
    refine ⟨_, execSelectorValid_due hv ht, ?_⟩
    rw [settle_missing hf hres, hprog, hlasts, hfailed, hlast]
    refine ⟨tget_tset_ne _ _ _ _ (by decide), hwant, rfl, rfl, ?_, out_settleFailed hn⟩
    rw [State.wantHold, fblock_modChan, settleFailed_selector hn]
    exact valid_raiseChan
  case gate =>
    intro c f v b st ws s hu hv ht hf hr
    refine ⟨_, execSelectorValid_due hv ht, ?_⟩
    rw [settle_gate hf hr, chan_settleGate hu]
    refine ⟨?_, rfl, rfl, rfl⟩
    cases b <;> rfl
  case gateMissing =>
    intro c f v s hu hv ht hf hr
    refine ⟨_, execSelectorValid_due hv ht, ?_⟩
    rw [settle_gateMissing hf hr, chan_of_shown (shown_raiseChan _ _ _ (by decide)), chan_settleGate hu]
    exact ⟨rfl, valid_raiseChan⟩

end Sys2Proof.Machine
end

section
/-! PROOFS of spec family 08: what a fence leaves of the links, the registers and the place of a Jupin. -/
namespace Sys2Proof.Machine
open Sys2Proof

/-! ## Links that keep their control, and lose no fence (R253) -/

/-- What the paths and the port ownership of a Jupin are read from, beside its links; and the die. -/
def State.site (s : State) : Table Half × Security × BitVec 8 × Tsu := (s.jupC.regs, s.jupC.sec, s.jup.rootP, s.tsu)

/-- The control and the retained frames of a link stay, and no fence of it is lost. -/
def Link.Kept (l l' : Link) : Prop := l'.ctl = l.ctl ∧ l'.tx.retained = l.tx.retained ∧ l.fences ⊆ l'.fences

/-- From `s` to `t` every link of the Jupin is kept, and the site is the same. -/
def State.SiteKept (s t : State) : Prop := t.site = s.site ∧ ∀ n, (s.link .jup n).Kept (t.link .jup n)

theorem Link.kept_refl (l : Link) : l.Kept l := ⟨rfl, rfl, List.Subset.refl _⟩
theorem siteKept_refl (s : State) : s.SiteKept s := ⟨rfl, fun _ => Link.kept_refl _⟩
theorem State.SiteKept.trans {s t u : State} (h : s.SiteKept t) (k : t.SiteKept u) : s.SiteKept u := by
  refine ⟨k.1.trans h.1, fun n => ?_⟩
  obtain ⟨hctl, hret, hf⟩ := h.2 n
  obtain ⟨kctl, kret, kf⟩ := k.2 n
  exact ⟨kctl.trans hctl, kret.trans hret, fun _ hx => kf (hf hx)⟩
theorem State.SiteKept.mem_fences {s t : State} (h : s.SiteKept t) {n : Nat} {f : Fence} (hf : f ∈ (s.link .jup n).fences) :
    f ∈ (t.link .jup n).fences := (h.2 n).2.2 hf
theorem State.SiteKept.tsu {s t : State} (h : s.SiteKept t) : t.tsu = s.tsu :=
  congrArg (fun x : Table Half × Security × BitVec 8 × Tsu => x.2.2.2) h.1
theorem siteKept_of_links {s t : State} (hs : t.site = s.site) (hl : t.jupC.links = s.jupC.links) : s.SiteKept t := by
  refine ⟨hs, fun n => ?_⟩
  have h : t.link .jup n = s.link .jup n := congrArg (fun l : Table Link => tget ({} : Link) l n) hl
  rw [h]
  exact Link.kept_refl _
theorem siteKept_ite {c : Prop} [Decidable c] {s t u : State} (ht : s.SiteKept t) (hu : s.SiteKept u) :
    s.SiteKept (if c then t else u) := by split <;> assumption
theorem siteKept_foldl {α : Type} {f : State → α → State} (h : ∀ (s : State) (a : α), s.SiteKept (f s a)) (l : List α) (s : State) :
    s.SiteKept (l.foldl f s) := by
  induction l generalizing s with
  | nil => exact siteKept_refl s
  | cons a l ih => exact (h s a).trans (ih _)

section
variable {s t : State}

theorem role_of_site (h : t.site = s.site) : t.role = s.role := by
  obtain ⟨hregs, hsec, -⟩ := Prod.mk.inj h |>.imp id Prod.mk.inj
  simp only [State.role, State.idRole, State.reg, State.com, hregs, hsec]
theorem side_of_site (h : t.site = s.site) : t.side = s.side :=
  congrArg (fun r : Table Half => fld (tget ((regReset .jup) 0) r 0) 5 4) (Prod.mk.inj h).1
theorem ownsPort_of_site (h : t.site = s.site) (p : Nat) (j : BitVec 15) : t.ownsPort p j = s.ownsPort p j := by
  have hregs : t.jupC.regs = s.jupC.regs := (Prod.mk.inj h).1
  unfold State.ownsPort State.reg
  rw [show (t.com .jup).regs = (s.com .jup).regs from hregs]
theorem foreignFence_of_site (h : t.site = s.site) (p : Nat) (f : Fence) : t.foreignFence p f = s.foreignFence p f := by
  rw [State.foreignFence, State.foreignFence, role_of_site h, ownsPort_of_site h]

/-- The paths of the children are read from the site and the control of the links. -/
theorem childPath_of_siteKept (h : s.SiteKept t) (p : Nat) : t.childPath p = s.childPath p := by
  obtain ⟨hsite, hlinks⟩ := h
  have hroot : t.jup.rootP = s.jup.rootP := congrArg (fun x : Table Half × Security × BitVec 8 × Tsu => x.2.2.1) hsite
  have hself : t.selfPath .jup = s.selfPath .jup := by
    simp only [State.selfPath, role_of_site hsite, side_of_site hsite, hroot, (hlinks _).1]
  simp only [State.childPath, State.childNode, role_of_site hsite, hself, (hlinks _).1]

end

/-! ## The messages and groups of a fence (R29, R253, R254) -/

section
variable (s : State) (p : Nat) (f : Fence) (m : Msg)

theorem siteKept_modLink {n : Nat} {g : Link → Link} (hne : g (s.link .jup n) ≠ {}) (hk : (s.link .jup n).Kept (g (s.link .jup n))) :
    s.SiteKept (s.modLink .jup n g) := by
  refine ⟨rfl, fun k => ?_⟩
  by_cases hkn : k = n
  · subst hkn
    rw [link_modLink hne]
    exact hk
  · rw [link_modLink_other hkn]
    exact Link.kept_refl _
/-- A message queued leaves the frames retained. -/
theorem retained_send (d : Dev) (n k : Nat) : ((s.send d n m).link d k).tx.retained = (s.link d k).tx.retained := by
  by_cases hk : k = n
  · subst hk
    rw [State.send, link_modTx]
    · dsimp only
      split <;> rfl
    · intro h
      have htx := congrArg Link.tx h
      dsimp only at htx
      split at htx
      · simpa using congrArg LinkTx.qTime htx
      · simpa using congrArg LinkTx.qBulk htx
      · simpa using congrArg LinkTx.qStep htx
  · exact congrArg (fun l : Link => l.tx.retained) (link_modLink_other hk)
theorem siteKept_send (n : Nat) : s.SiteKept (s.send .jup n m) := by
  refine ⟨rfl, fun k => ?_⟩
  have h := sansTx_send s .jup .jup k n m
  exact ⟨(congrArg Link.ctl h :), retained_send s m .jup n k, fun x hx => (congrArg (x ∈ Link.fences ·) h).mpr hx⟩
theorem siteKept_sendAll (ns : List Nat) : s.SiteKept (s.sendAll .jup ns m) := siteKept_foldl (fun s n => siteKept_send s m n) ns s
theorem siteKept_postIrq (e : CplEntry) : s.SiteKept (s.postIrq .jup e) := by
  obtain ⟨o, heq⟩ := postIrq_eq s .jup e
  rw [heq]
  exact siteKept_of_links rfl rfl
theorem siteKept_post (h : Half) (st : BitVec 8) (rs : List Word) : s.SiteKept (s.post .jup h st rs) := by
  unfold State.post
  dsimp only
  split
  · exact siteKept_refl s
  split
  · exact siteKept_refl s
  · exact .trans (siteKept_of_links rfl rfl) (siteKept_postIrq ..)
theorem siteKept_warnRefused (r : BitVec 8) (path : BitVec 32) : s.SiteKept (s.warnRefused r path).2 := by
  unfold State.warnRefused
  split
  · exact siteKept_refl s
  · split
    · split <;> exact siteKept_of_links rfl rfl
    · exact siteKept_refl s
theorem siteKept_discardGroup (h : Half) : s.SiteKept (s.discardGroup .jup h) := by
  unfold State.discardGroup
  split <;> exact siteKept_of_links rfl rfl
theorem siteKept_abortCoord (h : Half) (r : BitVec 8) (path : BitVec 32) : s.SiteKept (s.abortCoord .jup h r path) := by
  unfold State.abortCoord
  split
  · exact siteKept_refl s
  · extract_lets links s1 r2
    have hs1 : s.SiteKept s1 := (siteKept_sendAll ..).trans (siteKept_discardGroup ..)
    split
    · exact hs1.trans ((siteKept_warnRefused ..).trans (siteKept_of_links rfl rfl))
    · exact hs1.trans (.trans (siteKept_of_links rfl rfl) (siteKept_post ..))
theorem siteKept_fenceOneGroup (g : MemberGroup) : s.SiteKept (s.fenceOneGroup p g) := by
  refine siteKept_ite (siteKept_refl s) ?_
  split
  · exact siteKept_ite (siteKept_refl s) (siteKept_abortCoord ..)
  · exact .trans (siteKept_of_links rfl rfl) (siteKept_sendAll ..)
theorem siteKept_fenceGroups : s.SiteKept (s.fenceGroups p) := siteKept_foldl (fun s g => siteKept_fenceOneGroup s p g) _ s

theorem siteKept_countDiscards (ps : List Nat) : s.SiteKept (s.countDiscards ps) :=
  siteKept_foldl (f := fun s p => s.modLink .jup p fun l => { l with discards := l.discards + 1 })
    (fun s _ => siteKept_modLink s (fun h => Nat.succ_ne_zero _ (congrArg Link.discards h)) (Link.kept_refl _)) ps s
theorem siteKept_routeErr (n : Nat) : s.SiteKept (s.routeErr n) :=
  siteKept_modLink s (fun h => Nat.succ_ne_zero _ (congrArg Link.routeErrs h)) (Link.kept_refl _)
theorem siteKept_sendCopies (hm : m.src = none) (ps : List Nat) : s.SiteKept (s.sendCopies ps m) := by
  unfold State.sendCopies
  split
  · rw [State.leave, hm]
    exact siteKept_refl s
  · exact (siteKept_sendAll ..).trans (siteKept_send ..)
theorem siteKept_finishDelivery (x : Delivery) : s.SiteKept (s.finishDelivery x) := by
  unfold State.finishDelivery
  refine siteKept_ite (.trans (siteKept_of_links rfl rfl) (siteKept_send ..)) ?_
  split
  · exact .trans (siteKept_of_links rfl rfl) (siteKept_post ..)
  · exact siteKept_of_links rfl rfl
/-- A message that this Jupin sends itself holds no buffer of a link. -/
theorem siteKept_multicast (hm : m.src = none) (n : Nat) (rs : Option (List Word)) : s.SiteKept (s.multicast n m rs) := by
  unfold State.multicast
  extract_lets _ all ok s0 ps s1
  have hs1 : s.SiteKept s1 := .trans (siteKept_ite (siteKept_refl s) (siteKept_routeErr s n))
    ((siteKept_countDiscards ..).trans (siteKept_sendCopies _ _ hm ps))
  split
  · exact hs1
  · exact siteKept_ite (hs1.trans (siteKept_finishDelivery ..)) (hs1.trans (siteKept_of_links rfl rfl))
theorem siteKept_peerFence : s.SiteKept (s.peerFence p f) := by
  refine siteKept_foldl (fun s j => siteKept_foldl (fun s t => ?_) _ s) _ s
  extract_lets m s1
  have hs1 : s.SiteKept s1 := siteKept_multicast s m rfl ownPort none
  exact siteKept_ite hs1 (hs1.trans (siteKept_send ..))

/-! ## The fence itself (R253) -/

theorem siteKept_addFence : s.SiteKept (s.modLink .jup p fun l => { l with fences := l.fences ++ [f] }) :=
  siteKept_modLink s (fun h => List.append_ne_nil_of_right_ne_nil _ (List.cons_ne_nil _ _) (congrArg Link.fences h))
    ⟨rfl, rfl, List.subset_append_left _ _⟩
theorem mem_addFence : f ∈ ((s.modLink .jup p fun l => { l with fences := l.fences ++ [f] }).link .jup p).fences := by
  rw [link_modLink fun h => List.append_ne_nil_of_right_ne_nil _ (List.cons_ne_nil _ _) (congrArg Link.fences h)]
  exact List.mem_append_right _ (List.mem_singleton.mpr rfl)

variable {s p f}

/-- A fence of a port that is not foreign to it is scheduled there. -/
theorem mem_placeFence (hf : s.foreignFence p f = false) : f ∈ ((s.placeFence p f).link .jup p).fences := by
  unfold State.placeFence
  rw [hf, if_neg Bool.false_ne_true]
  extract_lets s1 s2
  have h1 : f ∈ (s1.link .jup p).fences := (siteKept_sendAll ..).mem_fences (mem_addFence s p f)
  have h2 : f ∈ (s2.link .jup p).fences := by
    unfold s2
    split <;> exact h1
  split
  · exact (siteKept_peerFence ..).mem_fences h2
  · exact h2
theorem mem_settleFence (hf : s.foreignFence p f = false) :
    { f with tick := s.fenceAfter p f.tick } ∈ ((s.settleFence p f).link .jup p).fences := by
  unfold State.settleFence
  rw [hf, if_neg Bool.false_ne_true]
  exact mem_placeFence ((foreignFence_of_site (siteKept_fenceGroups s p).1 ..).trans hf)

/-- A fence of a job leaves the site: only one of the domain moves the health of its port. -/
theorem siteKept_placeFence (hd : f.domain = false) : s.SiteKept (s.placeFence p f) := by
  unfold State.placeFence
  refine siteKept_ite (siteKept_countDiscards ..) ?_
  extract_lets s1 s2
  have h2 : s.SiteKept s2 := by
    unfold s2
    rw [hd, Bool.false_and, if_neg Bool.false_ne_true]
    exact (siteKept_addFence ..).trans (siteKept_sendAll ..)
  exact siteKept_ite (h2.trans (siteKept_peerFence ..)) h2
theorem siteKept_settleFence (hd : f.domain = false) : s.SiteKept (s.settleFence p f) :=
  .trans (siteKept_ite (siteKept_refl s) (siteKept_fenceGroups ..)) (siteKept_placeFence (f := { f with tick := _ }) hd)

theorem foreignFence_owned (h : s.ownsPort p f.job = true) : s.foreignFence p f = false := by simp [State.foreignFence, h]
theorem foreignFence_domain (h : f.domain = true) : s.foreignFence p f = false := by simp [State.foreignFence, h]
theorem foreignFence_foreign (hd : f.domain = false) (hr : s.role = 1) (hp : p < 88) (h : s.ownsPort p f.job = false) :
    s.foreignFence p f = true := by simp [State.foreignFence, hd, hr, hp, h]
theorem settleFence_foreign (h : s.foreignFence p f = true) : s.settleFence p f = s.countDiscards [p] := by
  rw [State.settleFence, h, if_pos rfl, State.placeFence]
  exact if_pos h

end

end Sys2Proof.Machine
end

section
/-! PROOFS of spec family 06: the inputs of a Jupin stage, its open votes, and their deadlines. -/
namespace Sys2Proof.Machine
open Sys2Proof

/-! ## Tables of the stage, and folds that change nothing -/

theorem foldl_fixed_of_forall {σ α : Type} {f : σ → α → σ} {s : σ} {l : List α} (h : ∀ a ∈ l, f s a = s) : l.foldl f s = s := by
  induction l with
  | nil => rfl
  | cons a l ih =>
    rw [List.foldl_cons, h a List.mem_cons_self]
    exact ih fun b hb => h b (List.mem_cons_of_mem a hb)

/-- A value read from a table that is not its default stands in it. -/
theorem exists_mem_of_tget {α : Type} {d v : α} {t : Table α} {k : Nat} (h : tget d t k = v) (hv : v ≠ d) : ∃ e ∈ t, e.2 = v :=
  (tget_mem d t k).elim (fun hd => absurd (h.symm.trans hd) hv) fun ⟨e, he, hev⟩ => ⟨e, he, hev.trans h⟩

theorem satInc_ne_zero {w : Nat} (hw : 0 < w) (v : BitVec w) : satInc v ≠ 0 := by
  intro h
  have h0 := congrArg BitVec.toNat h
  have hpow : 2 ^ 1 ≤ 2 ^ w := Nat.pow_le_pow_right (by omega) hw
  rw [toNat_satInc, show (0 : BitVec w).toNat = 0 from BitVec.toNat_zero] at h0
  omega

/-! ## Strays (R176) -/

section
variable {s : State} {p : Nat} {ws : List Word} {g : GroupRec} {i : VoteInput} {v : VoteCtx}

theorem fields_of_raiseJup (b : Nat) (code : Code) (ctx : Ctx) : (s.raiseFault .jup b code ctx).tsu = s.tsu ∧
    (s.raiseFault .jup b code ctx).jup.stage = s.jup.stage ∧ ((s.raiseFault .jup b code ctx).fblock .jup b).valid = true := by
  rw [raiseFault_severityOk fun h => by cases h]
  exact ⟨tsu_latchFault .., (congrArg (fun x : State => x.jup.stage) (sansFaults_latchFault s .jup b code ctx) :), valid_latchFault ..⟩

theorem strayInput_frame (s : State) (p : Nat) (g : BitVec 12) :
    ((s.strayInput p g).grpStat g.toNat).stray = satInc (s.grpStat g.toNat).stray ∧ (s.strayInput p g).jup.stage.votes = s.jup.stage.votes ∧
      ((s.strayInput p g).fblock .jup p).valid = true ∧ (s.strayInput p g).tsu = s.tsu := by
  obtain ⟨htsu, hstage, hvalid⟩ := fields_of_raiseJup (s := s.modGrp g.toNat fun x => { x with stray := satInc x.stray }) p cVoteStray
    { ({ group := g } : Ctx) with index := BitVec.ofNat 16 p }
  refine ⟨?_, (congrArg Stage.votes hstage :), hvalid, htsu⟩
  have hgrp : (s.strayInput p g).grpStat g.toNat = (s.modGrp g.toNat fun x => { x with stray := satInc x.stray }).grpStat g.toNat :=
    congrArg (fun t : Stage => tget ({} : GrpStat) t.grp g.toNat) hstage
  rw [hgrp, grpStat_modGrp fun h => satInc_ne_zero (by decide) _ (congrArg GrpStat.stray h)]

/-! ## A contribution, and a partial (R172, R176, R180) -/

theorem execVoteContributionRx_eq (p : Nat) (ws : List Word) (s : State) :
    exec (.voteContributionRx p ws) s = .next ((s.consume .jup p mtVote ws).contribution p ws) := rfl

theorem contribution_unknown (h : s.groupRec ((nthW ws 0).extractLsb' 20 12) = none) :
    s.contribution p ws = s.strayInput p ((nthW ws 0).extractLsb' 20 12) := by
  rw [State.contribution, h]
theorem contribution_refused (h : s.groupRec ((nthW ws 0).extractLsb' 20 12) = some g)
    (hi : g.job ≠ (contribInput g (s.now .jup) ws).job ∨ s.role ≠ 1 ∨ s.contribOk p (contribInput g (s.now .jup) ws) = false) :
    s.contribution p ws = s.strayInput p ((nthW ws 0).extractLsb' 20 12) := by
  rw [State.contribution, h]
  refine if_neg fun ⟨hjob, hrole, hok⟩ => ?_
  rcases hi with hi | hi | hi
  · exact hi hjob
  · exact hi hrole
  · exact Bool.noConfusion (hi.symm.trans hok)
theorem contribution_admitted (h : s.groupRec ((nthW ws 0).extractLsb' 20 12) = some g)
    (hjob : g.job = (contribInput g (s.now .jup) ws).job) (hrole : s.role = 1)
    (hok : s.contribOk p (contribInput g (s.now .jup) ws) = true) :
    s.contribution p ws = s.foldInput p g (contribInput g (s.now .jup) ws) := by
  rw [State.contribution, h]
  exact if_pos ⟨hjob, hrole, hok⟩

theorem partialIn_unknown {x : VotePartial} (h : s.groupRec x.group = none) : s.partialIn p x = s.strayInput p x.group := by
  rw [State.partialIn, h]
theorem partialIn_admitted {x : VotePartial} (h : s.groupRec x.group = some g) (hjob : g.job = x.job)
    (hport : (s.expectedOf x.job (grpBase x.group.toNat) (partialInput (s.now .jup) p x).beginTick).contains p = true) :
    s.partialIn p x = s.foldInput p g (partialInput (s.now .jup) p x) := by
  rw [State.partialIn, h]
  exact if_pos ⟨hjob, hport⟩

/-! ## Folding an input (R176 to R182) -/

/-- A vote that lacks an input is not full. -/
theorem ctxFull_lacking (h : ∃ k ∈ s.expectedOf v.job (grpBase v.group.toNat) v.beginTick, k ∉ v.got) : s.ctxFull v = false := by
  obtain ⟨k, hk, hgot⟩ := h
  rw [State.ctxFull, List.all_eq_false]
  exact ⟨k, hk, by simpa using hgot⟩

theorem afterFold_lacking (h : ∃ k ∈ s.expectedOf v.job (grpBase v.group.toNat) v.beginTick, k ∉ v.got) :
    s.afterFold g v = s.setVote v.group.toNat (some v) := by
  rw [State.afterFold, ctxFull_lacking h]; rfl

/-- The vote that the first input of a group opens. -/
def State.openVote (s : State) (i : VoteInput) : State :=
  (s.modGrp i.group.toNat fun x => { x with state := 1, stepLo := i.stepLo, beginTick := i.beginTick, status := 0, missing := [],
                                            missingRest := 0 }).setVote i.group.toNat (some i.ctx)

theorem foldInput_opens (hl : s.inputLate i = false) (hv : s.voteCtx i.group.toNat = none)
    (hstep : (s.grpStat i.group.toNat).stepLo ≠ i.stepLo) (hc : s.contextFull none i.ctx = false) (hfail : i.failed = false)
    (hearly : i.early = false) (hk : ∃ k ∈ s.expectedOf i.job (grpBase i.group.toNat) i.beginTick, k ≠ i.key) :
    s.foldInput p g i = s.openVote i := by
  obtain ⟨k, hmem, hne⟩ := hk
  unfold State.foldInput
  dsimp only
  rw [hl, if_neg Bool.false_ne_true, hv]
  simp only [hstep, false_and, decide_false, Bool.and_false, Bool.false_eq_true, if_false, hc, hfail, hearly, or_self]
  exact afterFold_lacking (v := i.ctx) ⟨k, hmem, by simpa [VoteInput.ctx] using hne⟩

theorem openVote_frame (s : State) (i : VoteInput) : (s.openVote i).voteCtx i.group.toNat = some i.ctx ∧
    ((s.openVote i).grpStat i.group.toNat).state = 1 ∧ ((s.openVote i).grpStat i.group.toNat).stepLo = i.stepLo ∧
    (∀ n, n ≠ i.group.toNat → (s.openVote i).voteCtx n = s.voteCtx n) ∧ (s.openVote i).tsu = s.tsu ∧ (s.openVote i).out = s.out := by
  have hgrp : (s.openVote i).grpStat i.group.toNat = { s.grpStat i.group.toNat with
      state := 1, stepLo := i.stepLo, beginTick := i.beginTick, status := 0, missing := [], missingRest := 0 } :=
    tget_tset_ne _ _ _ _ fun h => (by decide : (1 : BitVec 2) ≠ 0) (congrArg GrpStat.state h)
  rw [hgrp]
  exact ⟨tget_tset_ne _ _ _ _ (Option.some_ne_none _), rfl, rfl, fun n hn => tget_tset_other _ _ _ _ _ hn, rfl, rfl⟩

/-- The vote with one input more. -/
def VoteCtx.join (v : VoteCtx) (g : GroupRec) (i : VoteInput) : VoteCtx :=
  { v with got := i.key :: v.got, acc := mergeAcc g v.acc i.acc,
           voteTick := match v.voteTick with | some t => some t | none => i.voteTick }

theorem foldInput_joins (hl : s.inputLate i = false) (hv : s.voteCtx i.group.toNat = some v) (hgot : v.got.contains i.key = false)
    (hskew : tickSkew v i = false) (hc : s.contextFull (some v) (v.join g i) = false) (hfail : i.failed = false)
    (hearly : i.early = false) (hk : ∃ k ∈ s.expectedOf v.job (grpBase v.group.toNat) v.beginTick, k ≠ i.key ∧ k ∉ v.got) :
    s.foldInput p g i = s.setVote v.group.toNat (some (v.join g i)) := by
  obtain ⟨k, hmem, hne, hnew⟩ := hk
  unfold State.foldInput
  dsimp only
  rw [hl, if_neg Bool.false_ne_true, hv]
  dsimp only
  rw [hgot, if_neg Bool.false_ne_true, hskew, if_neg Bool.false_ne_true]
  calc _ = if i.failed ∨ i.early then ((s.failVote g (v.join g i) [] i.early).retryGates i.job) else s.afterFold g (v.join g i) :=
        if_neg (show ¬ s.contextFull (some v) (v.join g i) = true from hc ▸ Bool.false_ne_true)
    _ = s.afterFold g (v.join g i) := if_neg (by simp [hfail, hearly])
    _ = s.setVote v.group.toNat (some (v.join g i)) := afterFold_lacking (v := v.join g i) ⟨k, hmem, by simp [VoteCtx.join, hne, hnew]⟩

/-! ## Deadlines (R181, R182) -/

theorem deadlineDue_at {n : Nat} {k : Tick} (hv : s.voteCtx n = some v) (hk : v.voteTick = some k)
    (ht : s.now .jup = k + BitVec.ofNat 64 (stageDeadline s.role)) : s.deadlineDue n = some v := by
  unfold State.deadlineDue
  rw [hv]
  dsimp only
  rw [hk]
  exact if_pos ht

theorem execVoteDeadline_due {n : BitVec 12} (hd : s.deadlineDue n.toNat = some v) (hg : s.groupRec n = some g) :
    exec (.voteDeadline n) s = .next (s.atDeadline g v) := by
  change execVoteDeadline n s = _
  rw [execVoteDeadline, hd, hg]
theorem execVoteDeadline_early {n : BitVec 12} {k : Tick} (hv : s.voteCtx n.toNat = some v) (hk : v.voteTick = some k)
    (ht : s.now .jup ≠ k + BitVec.ofNat 64 (stageDeadline s.role)) : exec (.voteDeadline n) s = .next s := by
  change execVoteDeadline n s = _
  have hd : s.deadlineDue n.toNat = none := by
    unfold State.deadlineDue
    rw [hv]
    dsimp only
    rw [hk]
    exact if_neg ht
  rw [execVoteDeadline, hd]

theorem atDeadline_vote (hgate : v.gate = false) (hm : s.missingInputs v ≠ []) :
    s.atDeadline g v = (s.lackAt g v (s.missingInputs v)).retryGates v.job := by
  have hempty : (s.missingInputs v).isEmpty = false := by simpa using hm
  rw [State.atDeadline, hgate, if_neg Bool.false_ne_true, State.endVote, hempty]
  rfl

/-- An open vote whose deadline is now stands in the table of votes. -/
theorem mem_votes_of_deadlineDue {n : Nat} (h : s.deadlineDue n = some v) : ∃ e ∈ s.jup.stage.votes, e.2 = some v := by
  unfold State.deadlineDue at h
  split at h
  · rename_i u hu
    have huv : u = v := by
      split at h
      · split at h
        · exact Option.some.inj h
        · cases h
      · cases h
    exact exists_mem_of_tget (huv ▸ hu) (Option.some_ne_none _)
  · cases h

/-- Where every open vote is a gate, none comes before a gate. -/
theorem votesFirst_gates (h : ∀ e ∈ s.jup.stage.votes, ∀ u, e.2 = some u → u.gate = true) : s.votesFirst v = s := by
  refine foldl_fixed_of_forall fun e _ => ?_
  split
  · rename_i u g hdue hrec
    obtain ⟨x, hx, hxu⟩ := mem_votes_of_deadlineDue hdue
    rw [h x hx u hxu]
    rfl
  · rfl

theorem atDeadline_gate (hgate : v.gate = true) (h : ∀ e ∈ s.jup.stage.votes, ∀ u, e.2 = some u → u.gate = true)
    (hm : s.missingInputs v ≠ []) : s.atDeadline g v = s.lackAt g v (s.missingInputs v) := by
  have hempty : (s.missingInputs v).isEmpty = false := by simpa using hm
  rw [State.atDeadline, hgate, if_pos rfl, votesFirst_gates h]
  dsimp only
  rw [hempty]
  rfl

/-! ### A gate that fails -/

/-- The open votes of the stage, and the status of its groups. -/
def State.ballots (s : State) : Table (Option VoteCtx) × Table GrpStat := (s.jup.stage.votes, s.jup.stage.grp)

theorem ballots_of_jup {s t : State} (h : t.jup = s.jup) : t.ballots = s.ballots := by rw [State.ballots, h, State.ballots]

theorem ballots_ite {c : Prop} [Decidable c] {s t u : State} (ht : t.ballots = s.ballots) (hu : u.ballots = s.ballots) :
    (if c then t else u).ballots = s.ballots := by split <;> assumption

theorem ballots_failOne (s : State) (n : Nat) (early : Bool) (b : Tick) (lo : BitVec 16) :
    (s.failOne n early b lo).ballots = s.ballots := by
  unfold State.failOne
  split
  · rfl
  · extract_lets x round known b step s1
    have hs1 : s1.ballots = s.ballots := rfl
    exact ballots_ite rfl (ballots_ite ((ballots_of_jup (jup_sendAll ..)).trans hs1) ((ballots_of_jup (jup_modTx ..)).trans hs1))
theorem ballots_failRound (s : State) (n : Nat) (b : Tick) (lo : BitVec 16) : (s.failRound n b lo).ballots = s.ballots := by
  unfold State.failRound
  exact ballots_ite (ballots_failOne ..) ((ballots_failOne ..).trans (ballots_failOne ..))
theorem ballots_gateSettled (s : State) (job : BitVec 15) (passed : Bool) (b : Tick) (lo : BitVec 16) :
    (s.gateSettled job passed b lo).ballots = s.ballots := by
  refine foldl_kept (g := State.ballots) (fun s n => ?_) _ s
  exact ballots_ite rfl ((rfl : _ = (s.failRound n b lo).ballots).trans (ballots_failRound ..))
theorem ballots_sendStage (s : State) (v : VoteCtx) (span : Nat) (failed : Bool) (o : VoteOut) (now : Bool) :
    (s.sendStage v span failed o now).ballots = s.ballots := by
  unfold State.sendStage
  split
  · exact ballots_of_jup (jup_sendAll ..)
  · rfl

/-- A gate that fails leaves the open votes, and its group's status names what was missing. -/
theorem ballots_closeVote_gate (hgate : v.gate = true) (o : VoteOut) (m : List (Bool × Nat)) : (s.closeVote v true o m).ballots =
    (tset none s.jup.stage.votes v.group.toNat none, tmod {} s.jup.stage.grp v.group.toNat fun x =>
      { x with state := 3, status := 0, stepLo := v.stepLo, beginTick := v.beginTick, missing := m.take 8,
               missingRest := m.length - 8 }) := by
  unfold State.closeVote
  extract_lets n s1 s2 top s3
  rw [if_pos hgate, if_pos rfl, ballots_gateSettled]
  change s1.ballots = _
  simp only [s1, State.ballots, State.modGrp, State.setVote, State.modStage, State.modJup, if_true, hgate, or_true]
  rfl

theorem ballots_lackAt_gate (hgate : v.gate = true) (m : List (Bool × Nat)) : (s.lackAt g v m).ballots =
    (tset none s.jup.stage.votes v.group.toNat none, tmod {} s.jup.stage.grp v.group.toNat fun x =>
      { x with state := 3, status := 0, stepLo := v.stepLo, beginTick := v.beginTick, missing := m.take 8,
               missingRest := m.length - 8 }) := by
  obtain ⟨-, hstage, -⟩ := fields_of_raiseJup (s := s.failVote g v m) blkReducer cVoteMissing
    { group := v.group, detail := detail m.length }
  have hraise : (s.lackAt g v m).ballots = (s.failVote g v m).ballots :=
    congrArg (fun t : Stage => (t.votes, t.grp)) hstage
  obtain ⟨hvotes, hgrp⟩ := Prod.mk.inj (ballots_sendStage s v g.span true {} false)
  rw [hraise, State.failVote, ballots_closeVote_gate hgate, hvotes, hgrp]

/-! ## A result that reached a die too late (R29, R183) -/

theorem execResultLateDelivery_gate {j : BitVec 15} {r : BitVec 17} {ct : Tick} (hr : s.role = 1) (hp : p < 88) :
    exec (.resultLateDelivery p j r true ct) s =
      .next (s.settleFence p { job := j, domain := false, path := s.childPath p, tick := ct + 1 }) := by
  change execResultLateDelivery p j r true ct s = _
  exact due_of (by simp [hr, hp])
theorem execResultLateDelivery_vote {j : BitVec 15} {r : BitVec 17} {ct : Tick} :
    exec (.resultLateDelivery p j r false ct) s = .next s := by
  change execResultLateDelivery p j r false ct s = _
  exact due_unless rfl

end

/-- Settles O27: each arm has one equation per case of its input; an open vote is read back where it was written, and a fence is kept
by the messages and groups that go with it. -/
theorem inputsAtStage : Obligations.InputsAtStage := by
  refine ⟨?unknown, ?refused, ?opens, ?joins, fun port p s h => congrArg Host.Outcome.next (partialIn_unknown h),
    fun port p g s h hjob hport => congrArg Host.Outcome.next (partialIn_admitted h hjob hport), ?partialOpens, ?deadline, ?gate,
    fun g v t s hv hk ht => execVoteDeadline_early hv hk ht, ?late, ?foreign, fun p j r ct s => execResultLateDelivery_vote⟩
  case unknown =>
    intro p ws s h
    obtain ⟨hstray, hvotes, hvalid, htsu⟩ := strayInput_frame (s.consume .jup p mtVote ws) p ((nthW ws 0).extractLsb' 20 12)
    exact ⟨_, (execVoteContributionRx_eq p ws s).trans
      (congrArg Host.Outcome.next (contribution_unknown (s := s.consume .jup p mtVote ws) h)), hstray, hvotes, hvalid, htsu⟩
  case refused =>
    rintro p ws g i s h rfl hi
    exact (execVoteContributionRx_eq p ws s).trans
      (congrArg Host.Outcome.next (contribution_refused (s := s.consume .jup p mtVote ws) h hi))
  case opens =>
    rintro p ws g i s h rfl hjob hrole hok hl hv hstep hc hearly hk
    refine ⟨_, (execVoteContributionRx_eq p ws s).trans (congrArg Host.Outcome.next
      ((contribution_admitted (s := s.consume .jup p mtVote ws) h hjob hrole hok).trans
        (foldInput_opens (s := s.consume .jup p mtVote ws) hl hv hstep hc rfl hearly hk))), ?_⟩
    exact openVote_frame ..
  case joins =>
    rintro p ws g i v s h rfl hjob hrole hok hl hv hgroup hgot hskew hearly hc hk
    refine ⟨_, (execVoteContributionRx_eq p ws s).trans (congrArg Host.Outcome.next
      ((contribution_admitted (s := s.consume .jup p mtVote ws) h hjob hrole hok).trans
        (foldInput_joins (s := s.consume .jup p mtVote ws) hl hv hgot hskew hc rfl hearly hk))), ?_⟩
    rw [← hgroup]
    exact ⟨tget_tset_ne _ _ _ _ (Option.some_ne_none _), fun n hn => tget_tset_other _ _ _ _ _ hn, rfl, rfl⟩
  case partialOpens =>
    rintro port p g i s h hjob rfl hport hl hv hstep hc hfail hk
    obtain ⟨hctx, hstate, -, hothers, htsu, hout⟩ := openVote_frame s (partialInput (s.now .jup) port p)
    exact ⟨_, congrArg Host.Outcome.next ((partialIn_admitted h hjob hport).trans (foldInput_opens hl hv hstep hc hfail rfl hk)),
      hctx, hstate, hothers, htsu, hout⟩
  case deadline =>
    intro g r v k s hv hk ht hg hgate hm
    rw [execVoteDeadline_due (deadlineDue_at hv hk ht) hg, atDeadline_vote hgate hm]
    rfl
  case gate =>
    intro g r v k s hv hk ht hg hgate hgroup hm hvotes
    subst hgroup
    obtain ⟨hctx, hgrp⟩ := Prod.mk.inj (ballots_lackAt_gate (s := s) (g := r) hgate (s.missingInputs v))
    obtain ⟨-, -, hvalid⟩ := fields_of_raiseJup (s := s.failVote r v (s.missingInputs v)) blkReducer cVoteMissing
      { group := v.group, detail := detail (s.missingInputs v).length }
    refine ⟨_, (execVoteDeadline_due (deadlineDue_at hv hk ht) hg).trans (congrArg Host.Outcome.next (atDeadline_gate hgate hvotes hm)),
      hvalid, ?_⟩
    have hstat : (s.lackAt r v (s.missingInputs v)).grpStat v.group.toNat = { s.grpStat v.group.toNat with
        state := 3, status := 0, stepLo := v.stepLo, beginTick := v.beginTick, missing := (s.missingInputs v).take 8,
        missingRest := (s.missingInputs v).length - 8 } :=
      (congrArg (fun t : Table GrpStat => tget ({} : GrpStat) t v.group.toNat) hgrp).trans
        (tget_tset_ne _ _ _ _ fun h => (by decide : (3 : BitVec 2) ≠ 0) (congrArg GrpStat.state h))
    rw [hstat]
    exact ⟨rfl, rfl, fun hwf => (congrArg (fun t : Table (Option VoteCtx) => tget none t v.group.toNat) hctx).trans (tget_tset_same _ _ _ _ hwf)⟩
  case late =>
    intro p j r ct s hr hp ho
    exact ⟨_, execResultLateDelivery_gate hr hp, mem_settleFence (foreignFence_owned ho)⟩
  case foreign =>
    intro p j r ct s hr hp ho
    rw [execResultLateDelivery_gate hr hp, settleFence_foreign (foreignFence_foreign rfl hr hp ho)]

end Sys2Proof.Machine
end

section
/-! PROOFS of spec family 07: the waits and the round entries of a core. -/
namespace Sys2Proof.Machine
open Sys2Proof

section
variable {r : CoreReq} {s : State}

/-! ## Waits (R142, R207 to R210) -/

/-- The state in which a core has begun to wait with a condition. -/
def State.coreWaits (s : State) (r : CoreReq) (cond : Nat) (round : BitVec 16) : State :=
  s.modSync fun y => { y with waits := y.waits ++ [CoreReq.wait r ((s.actingChan r.core).getD 0) cond (s.now .tsu) round] }

theorem coreWait_allowed {cond : Nat} (h : s.coreAllowed r (4 + cond) = true) : s.coreWait r cond = s.coreWaits r cond 0 := if_pos h
theorem coreWait_refused {cond : Nat} (h : s.coreAllowed r (4 + cond) = false) : s.coreWait r cond = s.coreRefused r :=
  if_neg (h ▸ Bool.false_ne_true)

/-- A core that waits gets no operation that would open a wait of its own. -/
theorem coreAllowed_waiting {op : Nat} (h4 : 4 ≤ op) (h8 : op ≤ 8) (hw : (s.waitOf (.core r.core)).isSome = true) :
    s.coreAllowed r op = false := by
  simp [State.coreAllowed, h4, h8, hw]

/-! ## Entries into a round (R220) -/

/-- The record that a core's request names. -/
def State.recOf (s : State) (r : CoreReq) : Nat := cfgRec (s.slotCfg r.core r.slot)

theorem execCoreEnter_allowed (hm : s.mainOff = false) (ha : s.coreAllowed r 8 = true)
    (hb : s.sramBad 1 (conjOwner (s.conjCfg (s.recOf r))) (s.recOf r) = false) : exec (.coreEnter r) s =
      .next (s.enterRec r.core r.slot r.tag fun round => some (CoreReq.wait r ((s.actingChan r.core).getD 0) 4 (s.now .tsu) round)) := by
  change execCoreEnter r s = _
  rw [execCoreEnter, mainIn_up hm, if_pos ha]
  exact congrArg Host.Outcome.next (if_neg (hb ▸ Bool.false_ne_true))
theorem execCoreArrive_allowed (hm : s.mainOff = false) (ha : s.coreAllowed r 9 = true)
    (hb : s.sramBad 1 (conjOwner (s.conjCfg (s.recOf r))) (s.recOf r) = false) : exec (.coreArrive r) s =
      .next (s.enterRec r.core r.slot r.tag fun _ => none) := by
  change execCoreArrive r s = _
  rw [execCoreArrive, mainIn_up hm, if_pos ha]
  exact congrArg Host.Outcome.next (if_neg (hb ▸ Bool.false_ne_true))

theorem execCoreEnter_refused (hm : s.mainOff = false) (ha : s.coreAllowed r 8 = false) : exec (.coreEnter r) s = .next (s.coreRefused r) := by
  change execCoreEnter r s = _
  rw [execCoreEnter, mainIn_up hm, ha, if_neg Bool.false_ne_true]
theorem execCoreArrive_refused (hm : s.mainOff = false) (ha : s.coreAllowed r 9 = false) : exec (.coreArrive r) s = .next (s.coreRefused r) := by
  change execCoreArrive r s = _
  rw [execCoreArrive, mainIn_up hm, ha, if_neg Bool.false_ne_true]

theorem enterRec_overrun {wait : BitVec 16 → Option WaitRec} (h : s.entryRound (s.recOf r) = none) :
    s.enterRec r.core r.slot r.tag wait = s.conjOverrun (s.recOf r) r.core r.slot r.tag := by
  unfold State.recOf at h
  unfold State.enterRec
  dsimp only
  rw [h]
  rfl
theorem enterRec_waits {round : BitVec 16} (h : s.entryRound (s.recOf r) = some round) :
    (s.enterRec r.core r.slot r.tag fun round => some (CoreReq.wait r ((s.actingChan r.core).getD 0) 4 (s.now .tsu) round)) =
      ((s.coreWaits r 4 round).countEntry (s.recOf r)).sramWrite 1 (conjOwner (s.conjCfg (s.recOf r))) (s.recOf r) := by
  unfold State.recOf at h
  unfold State.enterRec
  dsimp only
  rw [h]
  rfl
theorem enterRec_arrives {round : BitVec 16} (h : s.entryRound (s.recOf r) = some round) :
    (s.enterRec r.core r.slot r.tag fun _ => none) =
      (s.countEntry (s.recOf r)).sramWrite 1 (conjOwner (s.conjCfg (s.recOf r))) (s.recOf r) := by
  unfold State.recOf at h
  unfold State.enterRec
  dsimp only
  rw [h]
  rfl

/-- An entry that leaves its round open is counted in it, and nothing else. -/
theorem countEntry_open {rec : Nat} (h : (s.conjRec rec).cur.toNat + 1 < conjCount (s.conjCfg rec)) :
    s.countEntry rec = s.modConj rec fun x => { x with cur := x.cur + 1 } := by
  unfold State.countEntry
  dsimp only
  rw [if_pos (by omega), if_neg (by omega)]
theorem entryRound_open {rec : Nat} (h : (s.conjRec rec).cur.toNat + 1 < conjCount (s.conjCfg rec)) :
    s.entryRound rec = some (s.conjRec rec).round := if_pos (by omega)
/-- A count below the entries of a round, which are fewer than 256, goes up by one without turning over. -/
theorem cur_modConj_open {rec : Nat} (h : (s.conjRec rec).cur.toNat + 1 < conjCount (s.conjCfg rec)) :
    ((s.modConj rec fun x => { x with cur := x.cur + 1 }).conjRec rec).cur = (s.conjRec rec).cur + 1 := by
  have hcount : conjCount (s.conjCfg rec) < 2 ^ 8 := (BitVec.extractLsb' 0 8 (s.conjCfg rec)).isLt
  have hne : (s.conjRec rec).cur + 1 ≠ 0 := fun h0 => by
    have := congrArg BitVec.toNat h0
    rw [BitVec.toNat_add] at this
    simp at this
    omega
  exact congrArg ConjRec.cur (tget_tset_ne _ _ _ _ fun h0 => hne (congrArg ConjRec.cur h0))

/-- What a core's entry leaves beside the objects and waits. -/
theorem sramWrite_frame (s : State) (tbl ch word : Nat) : (s.sramWrite tbl ch word).tsu.chans = s.tsu.chans ∧
    (s.sramWrite tbl ch word).tsuC = s.tsuC ∧ (s.sramWrite tbl ch word).out = s.out := by
  obtain ⟨hchans, hout⟩ := Prod.mk.inj (shown_sramSpan s tbl ch word word)
  exact ⟨hchans, rfl, hout⟩
theorem conjRec_sramWrite (s : State) (tbl ch word rec : Nat) : (s.sramWrite tbl ch word).conjRec rec = s.conjRec rec := by
  rw [State.conjRec, sync_sramWrite, State.conjRec]

end

/-- Settles O30: a wait is one record more, an entry one count more; the count does not turn over because a round has fewer than 256
entries. -/
theorem coreWaits : Obligations.CoreWaits := by
  have hwait {r : CoreReq} {s : State} {i : Instr} {cond : Nat} (hi : exec i s = s.mainIn fun s => s.coreWait r cond)
      (hm : s.mainOff = false) (ha : s.coreAllowed r (4 + cond) = true) : ∃ t, exec i s = .next t ∧
      t.tsu.sync = { s.tsu.sync with waits := s.tsu.sync.waits ++ [CoreReq.wait r ((s.actingChan r.core).getD 0) cond (s.now .tsu) 0] } ∧
      t.tsu.chans = s.tsu.chans ∧ t.tsuC = s.tsuC ∧ t.out = s.out :=
    ⟨_, hi.trans ((mainIn_up hm).trans (congrArg Host.Outcome.next (coreWait_allowed ha))), rfl, rfl, rfl, rfl⟩
  have hrefused {r : CoreReq} {s : State} {i : Instr} {cond : Nat} (hi : exec i s = s.mainIn fun s => s.coreWait r cond)
      (hm : s.mainOff = false) (ha : s.coreAllowed r (4 + cond) = false) : exec i s = .next (s.coreRefused r) :=
    hi.trans ((mainIn_up hm).trans (congrArg Host.Outcome.next (coreWait_refused ha)))
  refine ⟨fun r s => hwait (cond := 0) rfl, fun r s => hwait (cond := 1) rfl, fun r s => hwait (cond := 2) rfl,
    fun r s => hwait (cond := 3) rfl,
    fun r round s hm ha he hb => (execCoreEnter_allowed hm ha hb).trans (congrArg Host.Outcome.next (enterRec_waits he)), ?enter, ?arrive,
    fun r s hm ha he hb => (execCoreArrive_allowed hm ha hb).trans (congrArg Host.Outcome.next (enterRec_overrun he)),
    fun r s hm ha he hb => (execCoreEnter_allowed hm ha hb).trans (congrArg Host.Outcome.next (enterRec_overrun he)),
    fun r op s => coreAllowed_waiting, fun r s hm => ⟨hrefused (cond := 0) rfl hm, hrefused (cond := 1) rfl hm, hrefused (cond := 2) rfl hm,
      hrefused (cond := 3) rfl hm, execCoreEnter_refused hm, execCoreArrive_refused hm⟩⟩
  case enter =>
    intro r s hm ha hn hb
    refine ⟨_, (execCoreEnter_allowed hm ha hb).trans (congrArg Host.Outcome.next (enterRec_waits (entryRound_open hn))), ?_⟩
    rw [countEntry_open (s := s.coreWaits r 4 _) (rec := s.recOf r) hn, conjRec_sramWrite, sync_sramWrite]
    obtain ⟨hchans, htsuC, hout⟩ := sramWrite_frame ((s.coreWaits r 4 (s.conjRec (s.recOf r)).round).modConj (s.recOf r) fun x =>
      { x with cur := x.cur + 1 }) 1 (conjOwner (s.conjCfg (s.recOf r))) (s.recOf r)
    exact ⟨rfl, cur_modConj_open (s := s.coreWaits r 4 _) hn, hchans, htsuC, hout⟩
  case arrive =>
    intro r s hm ha hn hb
    refine ⟨_, (execCoreArrive_allowed hm ha hb).trans (congrArg Host.Outcome.next (enterRec_arrives (entryRound_open hn))), ?_⟩
    rw [countEntry_open (rec := s.recOf r) hn, conjRec_sramWrite, sync_sramWrite]
    obtain ⟨hchans, htsuC, hout⟩ := sramWrite_frame (s.modConj (s.recOf r) fun x => { x with cur := x.cur + 1 }) 1
      (conjOwner (s.conjCfg (s.recOf r))) (s.recOf r)
    exact ⟨rfl, cur_modConj_open hn, hchans, htsuC, hout⟩

end Sys2Proof.Machine
end

section
/-! PROOFS of spec family 08: the states of a link, and a port that stays DOWN. -/
namespace Sys2Proof.Machine
open Sys2Proof

/-! ## A link whose control is written (R255) -/

section
variable {s : State} {d : Dev} {n : Nat}

theorem link_modLink_wf {f : Link → Link} (h : Table.wf {} (s.com d).links = true) : (s.modLink d n f).link d n = f (s.link d n) := by
  cases d <;> exact tget_tset_same _ _ _ _ h
theorem link_ne_of_ctl {l : Link} (h : l.ctl ≠ {}) : l ≠ {} := fun hl => h (congrArg Link.ctl hl)
/-- A link whose control is not as after reset keeps the rest where its control is written. -/
theorem modCtl_frame {f : LinkCtl → LinkCtl} (h : f (s.link d n).ctl ≠ {}) : (s.modCtl d n f).link d n = { s.link d n with ctl := f (s.link d n).ctl } ∧
    (∀ k, k ≠ n → (s.modCtl d n f).link d k = s.link d k) ∧ (s.modCtl d n f).out = s.out :=
  ⟨link_modCtl (link_ne_of_ctl h), fun _ hk => link_modLink_other hk, out_modLink ..⟩
theorem ctl_ne_of_lstate {c : LinkCtl} (h : c.lstate ≠ .down) : c ≠ {} := fun hc => h (congrArg LinkCtl.lstate hc)

/-! ## Leaving DOWN, and the states of training (R255, R262) -/

theorem mayTrain_iff : s.mayTrain d n = true ↔ (s.link d n).ctl.lstate = .down ∧ (s.link d n).ctl.disable = false ∧
    s.idlePort d n = false ∧ s.endUp d n = true := by
  simp [State.mayTrain, and_assoc]
theorem mayTrain_held (h : (s.link d n).ctl.disable = true ∨ s.idlePort d n = true ∨ s.endUp d n = false) : s.mayTrain d n = false := by
  rw [← Bool.not_eq_true, mayTrain_iff]
  rintro ⟨-, hdis, hidle, hup⟩
  rcases h with h | h | h
  · exact Bool.noConfusion (hdis.symm.trans h)
  · exact Bool.noConfusion (hidle.symm.trans h)
  · exact Bool.noConfusion (h.symm.trans hup)

theorem execTrainLock_train (h : (s.link d n).ctl.lstate = .train) : exec (.trainLock d n) s =
    .next (s.modCtl d n fun c => { c with lstate := .align, since := s.now d }) := by
  change execTrainLock d n s = _
  exact due_of (decide_eq_true h)
theorem execTrainLock_otherwise (h : (s.link d n).ctl.lstate ≠ .train) : exec (.trainLock d n) s = .next s := by
  change execTrainLock d n s = _
  exact due_unless (decide_eq_false h)
theorem execFrameLock_align (h : (s.link d n).ctl.lstate = .align) : exec (.frameLock d n) s =
    .next (s.modCtl d n fun c => { c with frameLock := true }) := by
  change execFrameLock d n s = _
  exact due_of (decide_eq_true h)

theorem toTrain_frame (s : State) (d : Dev) (n : Nat) : ((s.toTrain d n).link d n).ctl.lstate = .train ∧
    ((s.toTrain d n).link d n).tx = (s.link d n).tx ∧ ((s.toTrain d n).link d n).rx = (s.link d n).rx ∧
    (∀ k, k ≠ n → (s.toTrain d n).link d k = s.link d k) ∧ (s.toTrain d n).out = s.out := by
  obtain ⟨hlink, hothers, hout⟩ := modCtl_frame (s := s) (d := d) (n := n) (f := fun c =>
    { c with lstate := .train, since := s.now d, frameLock := false, retrain := false,
             cntRetrains := if c.served then satInc c.cntRetrains else c.cntRetrains }) (ctl_ne_of_lstate nofun)
  unfold State.toTrain
  rw [hlink]
  exact ⟨rfl, rfl, rfl, hothers, hout⟩

theorem execLinkSignalDetect_detects (hm : s.mayTrain d n = true) (ht : (s.link d n).ctl.trainFails < 3) :
    exec (.linkSignalDetect d n) s = .next (s.toTrain d n) := by
  change execLinkSignalDetect d n s = _
  exact due_of (by simp [hm, ht])
theorem execLinkSignalDetect_held (hm : s.mayTrain d n = false) : exec (.linkSignalDetect d n) s = .next s := by
  change execLinkSignalDetect d n s = _
  exact due_unless (by rw [hm, Bool.false_and])
theorem execLinkTrainRetry_due (hm : s.mayTrain d n = true) (h3 : 3 ≤ (s.link d n).ctl.trainFails)
    (ht : (s.link d n).ctl.since.toNat + 1600000000 ≤ (s.now d).toNat) : exec (.linkTrainRetry d n) s = .next (s.toTrain d n) := by
  change execLinkTrainRetry d n s = _
  exact due_of (by simp [hm, h3, ht])
theorem execLinkTrainRetry_held (hm : s.mayTrain d n = false) : exec (.linkTrainRetry d n) s = .next s := by
  change execLinkTrainRetry d n s = _
  exact due_unless (by rw [hm, Bool.false_and, Bool.false_and])

/-! ## A state that overruns its time (R255) -/

/-- A link that has overrun a state went into it before now. -/
theorem now_ne_of_overran (h : s.overran d n = true) : s.now d ≠ 0 := by
  intro h0
  unfold State.overran at h
  dsimp only at h
  split at h
  · rw [h0] at h
    simp at h
  · cases h

/-- The state in which an overrun leaves a link, before it is reported. -/
def State.overrun (s : State) (d : Dev) (n : Nat) : State :=
  (s.linkToDown d n).modCtl d n fun c => { c with trainFails := c.trainFails + 1 }

theorem link_linkToDown (h : s.now d ≠ 0 ∨ Table.wf {} (s.com d).links = true) : (s.linkToDown d n).link d n =
    { s.link d n with ctl := { (s.link d n).ctl with
        lstate := .down, frameLock := false, since := s.now d,
        downSince := if (s.link d n).ctl.lstate = .service then some (s.now d) else (s.link d n).ctl.downSince } } := by
  rcases h with h | h
  · exact link_modCtl (link_ne_of_ctl fun hc => h (congrArg LinkCtl.since hc))
  · exact link_modLink_wf h

theorem link_overrun (h : s.overran d n = true) : (s.overrun d n).link d n =
    { s.link d n with ctl := { (s.link d n).ctl with
        lstate := .down, frameLock := false, since := s.now d, trainFails := (s.link d n).ctl.trainFails + 1,
        downSince := if (s.link d n).ctl.lstate = .service then some (s.now d) else (s.link d n).ctl.downSince } } := by
  rw [State.overrun, link_modCtl (link_ne_of_ctl fun hc => Nat.succ_ne_zero _ (congrArg LinkCtl.trainFails hc)),
    link_linkToDown (.inl (now_ne_of_overran h))]
theorem link_overrun_other {k : Nat} (hk : k ≠ n) : (s.overrun d n).link d k = s.link d k :=
  (link_modLink_other hk).trans (link_modLink_other hk)

theorem execLinkStateTimeout_overran (h : s.overran d n = true) : exec (.linkStateTimeout d n) s =
    .next (if 3 ≤ ((s.overrun d n).link d n).ctl.trainFails then (s.overrun d n).raiseLink d n cTrainFail else s.overrun d n) := by
  change execLinkStateTimeout d n s = _
  exact due_of h

/-! ## Lane loss, RETRAIN and DISABLE (R259, R261, R404) -/

theorem linkToDown_frame (h : Table.wf {} (s.com d).links = true) : ((s.linkToDown d n).link d n).ctl.lstate = .down ∧
    ((s.linkToDown d n).link d n).ctl.frameLock = false ∧ ((s.linkToDown d n).link d n).tx = (s.link d n).tx ∧
    ((s.linkToDown d n).link d n).rx = (s.link d n).rx ∧ (∀ k, k ≠ n → (s.linkToDown d n).link d k = s.link d k) ∧
    (s.linkToDown d n).out = s.out := by
  rw [link_linkToDown (.inr h)]
  exact ⟨rfl, rfl, rfl, rfl, fun k hk => link_modLink_other hk, out_modLink ..⟩

/-- A bit of the control set on the way DOWN stands beside the rest of the link. -/
theorem downBit_frame (hwf : Table.wf {} (s.com d).links = true) {f : LinkCtl → LinkCtl} (hne : ∀ c, f c ≠ {})
    (hl : ∀ c, (f c).lstate = c.lstate) : (((s.linkToDown d n).modCtl d n f).link d n).ctl.lstate = .down ∧
    (∃ c, (((s.linkToDown d n).modCtl d n f).link d n).ctl = f c) ∧ (((s.linkToDown d n).modCtl d n f).link d n).tx = (s.link d n).tx ∧
    (((s.linkToDown d n).modCtl d n f).link d n).rx = (s.link d n).rx ∧
    (∀ k, k ≠ n → ((s.linkToDown d n).modCtl d n f).link d k = s.link d k) ∧ ((s.linkToDown d n).modCtl d n f).out = s.out := by
  obtain ⟨hdown, -, htx, hrx, hothers, hout⟩ := linkToDown_frame (n := n) hwf
  obtain ⟨hlink, hkept, hsame⟩ := modCtl_frame (s := s.linkToDown d n) (d := d) (n := n) (hne _)
  rw [hlink]
  exact ⟨(hl _).trans hdown, ⟨_, rfl⟩, htx, hrx, fun k hk => (hkept k hk).trans (hothers k hk), hsame.trans hout⟩

end

/-! ## A port that stays DOWN (R261) -/

section
variable {s : State} {p : Nat} {f : Fence}

/-- A Jupin keeps the log of its own faults: none goes out on a link. -/
theorem link_latchJup (b : Nat) (code : Code) (ctx : Ctx) (n : Nat) : (s.latchFault .jup b code ctx).link .jup n = s.link .jup n := by
  have hreport : ∀ (t : State) ws, (t.report .jup ws).link .jup n = t.link .jup n := fun t ws => link_logReport t .jup n ws
  unfold State.latchFault
  dsimp only
  split <;> split <;> simp only [hreport, link_modBlock]
theorem siteKept_raiseFault (b : Nat) (code : Code) (ctx : Ctx) : s.SiteKept (s.raiseFault .jup b code ctx) := by
  rw [raiseFault_severityOk fun h => by cases h]
  have hsans := sansFaults_latchFault s .jup b code ctx
  refine ⟨?_, fun n => ?_⟩
  · simp only [State.site, tsu_latchFault]
    exact (congrArg (fun x : State => (x.jupC.regs, x.jupC.sec, x.jup.rootP, s.tsu)) hsans :)
  · rw [link_latchJup]
    exact Link.kept_refl _
theorem siteKept_raiseLevel (b : Nat) (code : Code) (ctx : Ctx) : s.SiteKept (s.raiseLevel .jup b code ctx) :=
  siteKept_ite (siteKept_refl s) ((siteKept_raiseFault b code ctx).trans (siteKept_of_links rfl rfl))

theorem siteKept_afterCommit : s.SiteKept (s.afterCommit p f).1 := by
  unfold State.afterCommit
  split <;> exact siteKept_of_links rfl rfl
/-- Only the tick of a fence moves past a COMMIT. -/
theorem afterCommit_eq (s : State) (p : Nat) (f : Fence) : ∃ t, (s.afterCommit p f).2 = { f with tick := t } := by
  unfold State.afterCommit
  split
  · dsimp only
    split
    · exact ⟨_, rfl⟩
    · exact ⟨f.tick, rfl⟩
  · exact ⟨f.tick, rfl⟩

theorem siteKept_fencePort (hd : f.domain = false) : s.SiteKept (s.fencePort p f) := by
  obtain ⟨t, ht⟩ := afterCommit_eq s p f
  rw [State.fencePort, ht]
  exact siteKept_afterCommit.trans (siteKept_settleFence hd)
/-- A fence that is not foreign to its port is scheduled there, at its tick or a later one. -/
theorem mem_fencePort (hf : s.foreignFence p f = false) : ∃ t, { f with tick := t } ∈ ((s.fencePort p f).link .jup p).fences := by
  obtain ⟨t, ht⟩ := afterCommit_eq s p f
  rw [State.fencePort, ht]
  exact ⟨_, mem_settleFence ((foreignFence_of_site siteKept_afterCommit.1 ..).trans hf)⟩

/-- The fence of a job at a port that stays DOWN. -/
def State.downFence (s : State) (p : Nat) (t : Tick) (j : BitVec 15) : Fence :=
  { job := j, domain := false, path := s.childPath p, tick := t }

theorem siteKept_foldl_fencePort (t : Tick) (js : List (BitVec 15)) : s.SiteKept (js.foldl (fun s j => s.fencePort p (s.downFence p t j)) s) :=
  siteKept_foldl (fun _ _ => siteKept_fencePort rfl) js s
theorem mem_foldl_fencePort {t : Tick} {js : List (BitVec 15)} {j : BitVec 15} (hj : j ∈ js)
    (ho : s.role = 1 → s.ownsPort p j = true) :
    ∃ f ∈ ((js.foldl (fun s j => s.fencePort p (s.downFence p t j)) s).link .jup p).fences,
      f.job = j ∧ f.domain = false ∧ f.path = s.childPath p := by
  induction js generalizing s with
  | nil => cases hj
  | cons i js ih =>
    have hkept : s.SiteKept (s.fencePort p (s.downFence p t i)) := siteKept_fencePort rfl
    rcases List.mem_cons.mp hj with rfl | hj
    · have hf : s.foreignFence p (s.downFence p t j) = false := by
        by_cases hr : s.role = 1
        · exact foreignFence_owned (ho hr)
        · simp [State.foreignFence, hr]
      obtain ⟨u, hu⟩ := mem_fencePort hf
      exact ⟨_, (siteKept_foldl_fencePort t js).mem_fences hu, rfl, rfl, rfl⟩
    · obtain ⟨f, hf, hjob, hdom, hpath⟩ := ih hj fun hr => (ownsPort_of_site hkept.1 p j).trans (ho ((role_of_site hkept.1).symm.trans hr))
      exact ⟨f, hf, hjob, hdom, hpath.trans (childPath_of_siteKept hkept p)⟩

theorem siteKept_fenceJobsAt (t : Tick) : s.SiteKept (s.fenceJobsAt p t) := siteKept_foldl_fencePort t _
theorem mem_fenceJobsAt {t : Tick} {e : Nat × MapRun} (he : e ∈ s.mapRuns) (hp : e.2.port.toNat = p) (hs : e.2.side.toNat = s.ownSide)
    (ho : s.role = 1 → s.ownsPort p e.2.job = true) : ∃ f ∈ ((s.fenceJobsAt p t).link .jup p).fences,
      f.job = e.2.job ∧ f.domain = false ∧ f.path = s.childPath p := by
  refine mem_foldl_fencePort (List.mem_eraseDups.mpr (List.mem_map.mpr ⟨e.2, ?_, rfl⟩)) ho
  exact List.mem_filter.mpr ⟨List.mem_map.mpr ⟨e, he, rfl⟩, by simp [hp, hs]⟩

theorem ownSide_of_site {t : State} (h : t.site = s.site) : t.ownSide = s.ownSide := by
  rw [State.ownSide, State.ownSide, side_of_site h]
theorem mapRuns_of_site {t : State} (h : t.site = s.site) : t.mapRuns = s.mapRuns := by
  obtain ⟨hregs, hsec, -⟩ := Prod.mk.inj h |>.imp id Prod.mk.inj
  have hc : (t.com .jup).regs = (s.com .jup).regs := hregs
  unfold State.mapRuns State.tableRuns State.listed State.reg64 State.reg
  rw [hc, hsec]

/-- The state in which a port has been DOWN too long: the fault stands at the port. -/
def State.downSeen (s : State) (p : Nat) : State :=
  (s.modCtl .jup p fun c => { c with downRaised := true }).raiseLinkLevel .jup p cLinkDown

theorem execLinkDown_due {k : Tick} (hk : (s.link .jup p).ctl.downSince = some k) (hl : (s.link .jup p).ctl.lstate ≠ .service)
    (ht : k.toNat + 2 ^ s.downLog2 p ≤ (s.now .jup).toNat) (hr : (s.link .jup p).ctl.downRaised = false) :
    exec (.linkDown p) s = .next (if p < 88 then (s.downSeen p).fenceJobsAt p (s.now .jup + 1) else s.downSeen p) := by
  change execLinkDown p s = _
  exact due_of (by rw [hk]; simp [hl, ht, hr])

theorem link_raisedDown (s : State) (p : Nat) : (s.modCtl .jup p fun c => { c with downRaised := true }).link .jup p =
    { s.link .jup p with ctl := { (s.link .jup p).ctl with downRaised := true } } :=
  link_modCtl (link_ne_of_ctl fun h => Bool.noConfusion (congrArg LinkCtl.downRaised h))
theorem siteKept_downSeen : (s.modCtl .jup p fun c => { c with downRaised := true }).SiteKept (s.downSeen p) := siteKept_raiseLevel ..
theorem childPath_raisedDown (s : State) (p q : Nat) : (s.modCtl .jup p fun c => { c with downRaised := true }).childPath q = s.childPath q := by
  have hlink : ∀ n, ((s.modCtl .jup p fun c => { c with downRaised := true }).link .jup n).ctl.path = (s.link .jup n).ctl.path ∧
      ((s.modCtl .jup p fun c => { c with downRaised := true }).link .jup n).ctl.farPath = (s.link .jup n).ctl.farPath := fun n => by
    by_cases hn : n = p
    · subst hn
      rw [link_raisedDown]
      exact ⟨rfl, rfl⟩
    · rw [State.modCtl, link_modLink_other hn]
      exact ⟨rfl, rfl⟩
  have hsite : (s.modCtl .jup p fun c => { c with downRaised := true }).site = s.site := rfl
  simp only [State.childPath, State.childNode, State.selfPath, role_of_site hsite, side_of_site hsite, (hlink _).1, (hlink _).2]
  rfl

end

/-- Settles O37: a link whose control is written keeps the rest; an overrun state was entered before now, so that its link is not as
after reset; and the fences of a port that stays DOWN are kept by what follows each of them. -/
theorem linkStates : Obligations.LinkStates := by
  refine ⟨?detect, fun d n s h => ⟨execLinkSignalDetect_held (mayTrain_held h), execLinkTrainRetry_held (mayTrain_held h)⟩, ?trainLock,
    ?noLock, ?frameLock, ?overran, ?third, ?service, ?retry, fun d n s => ⟨rfl, rfl, rfl, rfl⟩, ?held, ?down, ?downFences⟩
  case detect =>
    intro d n s hl hdis hidle hup ht
    exact ⟨_, execLinkSignalDetect_detects (mayTrain_iff.mpr ⟨hl, hdis, hidle, hup⟩) ht, toTrain_frame s d n⟩
  case trainLock =>
    intro d n s hl
    obtain ⟨hlink, hothers, hout⟩ := modCtl_frame (s := s) (d := d) (n := n) (f := fun c => { c with lstate := .align, since := s.now d })
      (ctl_ne_of_lstate nofun)
    refine ⟨_, execTrainLock_train hl, ?_⟩
    rw [hlink]
    exact ⟨rfl, rfl, rfl, hothers, hout⟩
  case noLock =>
    intro d n s hl
    exact execTrainLock_otherwise hl
  case frameLock =>
    intro d n s hl
    obtain ⟨hlink, hothers, hout⟩ := modCtl_frame (s := s) (d := d) (n := n) (f := fun c => { c with frameLock := true })
      (fun h => Bool.noConfusion (congrArg LinkCtl.frameLock h))
    refine ⟨_, execFrameLock_align hl, ?_⟩
    rw [hlink]
    exact ⟨rfl, hl, rfl, hothers, hout⟩
  case overran =>
    intro d n s h h0
    refine ⟨s.overrun d n, (execLinkStateTimeout_overran h).trans (congrArg Host.Outcome.next (if_neg ?_)), ?_⟩
    · rw [link_overrun h, h0]
      exact (by decide : ¬ 3 ≤ 0 + 1)
    · rw [link_overrun h, h0]
      exact ⟨rfl, rfl, rfl, rfl, fun k => link_overrun_other⟩
  case third =>
    intro d n s h h2
    have hctl : (((s.overrun d n).raiseLink d n cTrainFail).link d n).ctl = ((s.overrun d n).link d n).ctl := by
      obtain ⟨ctx, hraise⟩ := raiseLink_eq (s.overrun d n) d n cTrainFail
      rw [hraise]
      exact (congrArg Link.ctl (sansTx_raiseFault (s.overrun d n) d d n (blkLink d n) cTrainFail ctx) :)
    refine ⟨_, (execLinkStateTimeout_overran h).trans (congrArg Host.Outcome.next (if_pos ?_)), ?_⟩
    · rw [link_overrun h]
      exact Nat.succ_le_succ h2
    · rw [hctl, link_overrun h]
      exact ⟨rfl, rfl, valid_latchFault ..⟩
  case service =>
    intro d n s h
    rw [State.overran, h]
    rfl
  case retry =>
    intro d n s hl hdis hidle hup h3 ht
    obtain ⟨hstate, htx, hrx, -, hout⟩ := toTrain_frame s d n
    exact ⟨_, execLinkTrainRetry_due (mayTrain_iff.mpr ⟨hl, hdis, hidle, hup⟩) h3 ht, hstate, htx, hrx, hout⟩
  case held =>
    intro d n s hwf
    obtain ⟨rdown, ⟨_, rbit⟩, rtx, rrx, rothers, rout⟩ := downBit_frame (n := n) hwf (f := fun c => { c with retrain := true })
      (fun _ h => Bool.noConfusion (congrArg LinkCtl.retrain h)) fun _ => rfl
    obtain ⟨ddown, ⟨_, dbit⟩, dtx, drx, -, dout⟩ := downBit_frame (n := n) hwf (f := fun c => { c with disable := true })
      (fun _ h => Bool.noConfusion (congrArg LinkCtl.disable h)) fun _ => rfl
    refine ⟨⟨_, rfl, linkToDown_frame hwf⟩, ⟨_, rfl, rdown, congrArg LinkCtl.retrain rbit, rtx, rrx, rothers, rout⟩,
      ⟨_, rfl, ddown, congrArg LinkCtl.disable dbit, dtx, drx, dout⟩, ⟨s.modCtl d n fun c => { c with disable := false }, rfl, ?_⟩⟩
    have hlink : (s.modCtl d n fun c => { c with disable := false }).link d n =
        { s.link d n with ctl := { (s.link d n).ctl with disable := false } } := link_modLink_wf hwf
    rw [hlink]
    exact ⟨rfl, rfl, rfl, out_modLink ..⟩
  case down =>
    intro p k s hp hk hl ht hr
    rw [execLinkDown_due hk hl ht hr, if_pos hp]
    rfl
  case downFences =>
    intro p k s hk hl ht hr
    have hkept : (s.modCtl .jup p fun c => { c with downRaised := true }).SiteKept
        (if p < 88 then (s.downSeen p).fenceJobsAt p (s.now .jup + 1) else s.downSeen p) :=
      siteKept_ite (siteKept_downSeen.trans (siteKept_fenceJobsAt _)) siteKept_downSeen
    refine ⟨_, execLinkDown_due hk hl ht hr, ?_, ?_, fun hp e he hport hside howns => ?_⟩
    · rw [(hkept.2 p).1, link_raisedDown]
    · rw [(hkept.2 p).1, link_raisedDown]
    · have hseen : (s.downSeen p).site = s.site := siteKept_downSeen.1
      obtain ⟨f, hf, hjob, hdom, hpath⟩ := mem_fenceJobsAt (s := s.downSeen p) (t := s.now .jup + 1) ((mapRuns_of_site hseen).symm ▸ he) hport
        (hside.trans (ownSide_of_site hseen).symm) fun hr1 => (ownsPort_of_site hseen p _).trans (howns ((role_of_site hseen).symm.trans hr1))
      rw [if_pos hp]
      exact ⟨f, hf, hjob, hdom, hpath.trans ((childPath_of_siteKept siteKept_downSeen p).trans (childPath_raisedDown s p p))⟩

end Sys2Proof.Machine
end

section
/-! PROOFS of spec family 08: fences at a die, at a rack Jupin's port and at their tick, and the filters of peer fences. -/
namespace Sys2Proof.Machine
open Sys2Proof

/-! ## A fence reaches the die (R214, R253) -/

/-- A fold over channels, none twice, that moves each of them alone. -/
theorem chan_foldl_once {step : State → Nat → State} {G : Chan → Chan} (hother : ∀ s j k, k ≠ j → (step s j).chan k = s.chan k)
    (hself : ∀ s j, (s.chan j).state ≠ .unbound → (step s j).chan j = G (s.chan j)) {l : List Nat} (hn : l.Nodup) {k : Nat}
    {s : State} (hk : k ∈ l) (hb : (s.chan k).state ≠ .unbound) : (l.foldl step s).chan k = G (s.chan k) := by
  induction l generalizing s with
  | nil => cases hk
  | cons j l ih =>
    obtain ⟨hj, hl⟩ := List.nodup_cons.mp hn
    rcases List.mem_cons.mp hk with rfl | hk
    · have hrest : ∀ (l : List Nat) (s : State), k ∉ l → (l.foldl step s).chan k = s.chan k := fun l => by
        induction l with
        | nil => exact fun _ _ => rfl
        | cons i l ih => exact fun s hi => (ih _ (List.not_mem_of_not_mem_cons hi)).trans (hother _ _ _ (List.ne_of_not_mem_cons hi))
      exact (hrest l _ hj).trans (hself s k hb)
    · have hkj : k ≠ j := fun h => hj (h ▸ hk)
      have hsame : (step s j).chan k = s.chan k := hother s j k hkj
      rw [List.foldl_cons, ih hl hk (by rw [hsame]; exact hb), hsame]
theorem chan_foldl_others {step : State → Nat → State} (hother : ∀ s j k, k ≠ j → (step s j).chan k = s.chan k) {l : List Nat} {k : Nat}
    (s : State) (hk : k ∉ l) : (l.foldl step s).chan k = s.chan k := by
  induction l generalizing s with
  | nil => rfl
  | cons i l ih => exact (ih _ (List.not_mem_of_not_mem_cons hk)).trans (hother _ _ _ (List.ne_of_not_mem_cons hk))

/-- A channel as a fence leaves it: running, it is to hold at its boundary, and its held signals go at the tick. -/
def Chan.fencedBy (f : Fence) (x : Chan) : Chan :=
  { (if x.state = .running ∧ 1 ∉ x.holdWant then { x with holdWant := x.holdWant ++ [1] } else x) with fenceTick := some f.tick }

section
variable {s : State} {f : Fence} {c : Nat}

/-- The channels that a fence covers. -/
def State.fencedChans (s : State) (f : Fence) : List Nat :=
  chanNums.filter fun c => decide ((s.chan c).state ≠ .unbound) && (f.domain || decide ((s.chan c).job = f.job))
/-- A fence reaches one channel. -/
def State.fenceChan (s : State) (f : Fence) (c : Nat) : State := (s.wantHold c 1).modChan c fun x => { x with fenceTick := some f.tick }

theorem fenceDie_eq (s : State) (f : Fence) : s.fenceDie f =
    if f.tick ≤ s.now .tsu then ((s.fencedChans f).foldl (fun s c => s.fenceChan f c) s).dropHeld (s.fencedChans f)
    else (s.fencedChans f).foldl (fun s c => s.fenceChan f c) s := rfl

theorem chan_fenceChan_other (s : State) (f : Fence) (j k : Nat) (h : k ≠ j) : (s.fenceChan f j).chan k = s.chan k :=
  (chan_modChan_other _ _ _ _ h).trans (chan_modChan_other _ _ _ _ h)
theorem chan_fenceChan (s : State) (f : Fence) (j : Nat) (hb : (s.chan j).state ≠ .unbound) : (s.fenceChan f j).chan j = (s.chan j).fencedBy f := by
  have hwant : (s.wantHold j 1).chan j = if (s.chan j).state = .running ∧ 1 ∉ (s.chan j).holdWant then
      { s.chan j with holdWant := (s.chan j).holdWant ++ [1] } else s.chan j :=
    chan_modChan _ _ _ (chan_ne_reset _ (by split <;> exact hb))
  rw [State.fenceChan, chan_modChan _ _ _ (chan_ne_reset _ (by rw [hwant]; split <;> exact hb)), hwant]
  rfl

theorem nodup_fencedChans (s : State) (f : Fence) : (s.fencedChans f).Nodup := (by decide : chanNums.Nodup).filter _
theorem mem_fencedChans : c ∈ s.fencedChans f ↔ c < 8 ∧ (s.chan c).state ≠ .unbound ∧ (f.domain = true ∨ (s.chan c).job = f.job) := by
  have hc : c ∈ chanNums ↔ c < 8 := by simp [chanNums]; omega
  simp [State.fencedChans, hc]

/-- A fence leaves of a die all but its channels, and the signals held for those. -/
theorem fenceDie_chan (s : State) (f : Fence) (k : Nat) :
    (s.fenceDie f).chan k = ((s.fencedChans f).foldl (fun s c => s.fenceChan f c) s).chan k := by
  rw [fenceDie_eq]
  split <;> rfl
theorem foldl_fenceChan_frame (s : State) (f : Fence) (l : List Nat) : (l.foldl (fun s c => s.fenceChan f c) s).tsu.sync = s.tsu.sync ∧
    (l.foldl (fun s c => s.fenceChan f c) s).jup = s.jup ∧ (l.foldl (fun s c => s.fenceChan f c) s).out = s.out := by
  have h := foldl_kept (g := fun s : State => (s.tsu.sync, s.jup, s.out)) (f := fun s c => s.fenceChan f c) (by intros; rfl) l s
  simpa only [Prod.mk.injEq] using h
theorem fenceDie_frame (s : State) (f : Fence) : (s.fenceDie f).jup = s.jup ∧ (s.fenceDie f).out = s.out := by
  obtain ⟨-, hjup, hout⟩ := foldl_fenceChan_frame s f (s.fencedChans f)
  rw [fenceDie_eq]
  split <;> exact ⟨hjup, hout⟩

theorem chan_fenceDie (hc : c < 8) (hb : (s.chan c).state ≠ .unbound) (hf : f.domain = true ∨ (s.chan c).job = f.job) :
    (s.fenceDie f).chan c = (s.chan c).fencedBy f :=
  (fenceDie_chan s f c).trans (chan_foldl_once (fun s => chan_fenceChan_other s f) (fun s => chan_fenceChan s f) (nodup_fencedChans s f)
    (mem_fencedChans.mpr ⟨hc, hb, hf⟩) hb)
theorem chan_fenceDie_spared (h : (s.chan c).state = .unbound ∨ (f.domain = false ∧ (s.chan c).job ≠ f.job)) :
    (s.fenceDie f).chan c = s.chan c := by
  refine (fenceDie_chan s f c).trans (chan_foldl_others (fun s => chan_fenceChan_other s f) s fun hmem => ?_)
  obtain ⟨-, hb, hf⟩ := mem_fencedChans.mp hmem
  rcases h with h | ⟨hd, hj⟩
  · exact hb h
  · exact hf.elim (fun h => Bool.noConfusion (hd.symm.trans h)) hj

theorem fencedBy_frame (x : Chan) (f : Fence) : (x.fencedBy f).fenceTick = some f.tick ∧ (x.fencedBy f).state = x.state ∧
    (x.state = .running → 1 ∈ (x.fencedBy f).holdWant) := by
  unfold Chan.fencedBy
  by_cases hw : 1 ∈ x.holdWant
  · rw [if_neg (fun h => h.2 hw)]
    exact ⟨rfl, rfl, fun _ => hw⟩
  · by_cases hr : x.state = .running
    · rw [if_pos ⟨hr, hw⟩]
      exact ⟨rfl, rfl, fun _ => List.mem_append_right _ (List.mem_singleton.mpr rfl)⟩
    · rw [if_neg (fun h => hr h.1)]
      exact ⟨rfl, rfl, fun h => absurd h hr⟩

theorem execFenceRx_die (n : Nat) (ws : List Word) (s : State) : exec (.fenceRx .tsu n ws) s =
    .next ((s.consume .tsu n mtFence ws).fenceDie (fenceOf ws)) := rfl

end

/-! ## A fence at a rack Jupin, from the peer group (R29, R253) -/

section
variable {s : State} {n p : Nat} {ws : List Word}

/-- A fence is taken at its port: the die is told, and one of the domain is expelled. -/
def State.takeFence (s : State) (p : Nat) (f : Fence) : State :=
  ((if f.domain then (s.fenceGroups p).setHealth p 3 else s.fenceGroups p).modLink .jup p fun l =>
    { l with fences := l.fences ++ [f] }).send .jup p (localMsg mtFence (fenceWords f))

/-- A copy of a fence as a Jupin of a role takes it, by where its path leads. -/
def State.fenceCopy (s : State) (role : Nat) (f : Fence) : Option (Option Nat) → State
  | some (some p) =>
    if role = 1 ∧ p < 88 then
      if s.foreignFence p f then s.countDiscards [p] else s.takeFence p { f with tick := s.fenceAfter p f.tick }
    else s
  | _ => s

theorem execFenceRx_jup (n : Nat) (ws : List Word) (s : State) : exec (.fenceRx .jup n ws) s =
    .next ((s.consume .jup n mtFence ws).fenceCopy s.role (fenceOf ws) (s.pathPort (fenceOf ws).path)) := by
  change execFenceRx .jup n ws s = _
  rfl
theorem execFenceRx_port (hp : s.pathPort (fenceOf ws).path = some (some p)) (hr : s.role = 1) (hp88 : p < 88) :
    exec (.fenceRx .jup n ws) s = .next (if s.foreignFence p (fenceOf ws) then (s.consume .jup n mtFence ws).countDiscards [p]
      else (s.consume .jup n mtFence ws).takeFence p { fenceOf ws with tick := s.fenceAfter p (fenceOf ws).tick }) := by
  rw [execFenceRx_jup, hp]
  exact congrArg Host.Outcome.next (if_pos ⟨hr, hp88⟩)
theorem fenceCopy_noRack {role : Nat} (hr : role ≠ 1) (f : Fence) (o : Option (Option Nat)) : s.fenceCopy role f o = s := by
  unfold State.fenceCopy
  split
  · exact if_neg fun h => hr h.1
  · rfl
theorem execFenceRx_noRack (hr : s.role ≠ 1) : exec (.fenceRx .jup n ws) s = .next (s.consume .jup n mtFence ws) := by
  rw [execFenceRx_jup, fenceCopy_noRack hr]

theorem mem_takeFence (s : State) (p : Nat) (f : Fence) : f ∈ ((s.takeFence p f).link .jup p).fences :=
  (siteKept_send ..).mem_fences (mem_addFence _ p f)
theorem tsu_takeFence (s : State) (p : Nat) (f : Fence) : (s.takeFence p f).tsu = s.tsu := by
  have hgroups : (if f.domain then (s.fenceGroups p).setHealth p 3 else s.fenceGroups p).tsu = s.tsu := by
    split
    · exact (tsu_setReg ..).trans (siteKept_fenceGroups s p).tsu
    · exact (siteKept_fenceGroups s p).tsu
  exact (siteKept_send ..).tsu.trans ((tsu_modLink ..).trans hgroups)
/-- Without open groups a fence of a job is one more rule of the port, told to the die. -/
theorem takeFence_noGroups {f : Fence} (hd : f.domain = false) (hg : s.jupC.groups = []) : s.takeFence p f =
    (s.modLink .jup p fun l => { l with fences := l.fences ++ [f] }).send .jup p (localMsg mtFence (fenceWords f)) := by
  have hgroups : s.fenceGroups p = s := by rw [State.fenceGroups, hg]; rfl
  rw [State.takeFence, hd, if_neg Bool.false_ne_true, hgroups]
theorem fenceAfter_noGroups (hg : s.jupC.groups = []) (t : Tick) : s.fenceAfter p t = t := by rw [State.fenceAfter, hg]; rfl

end

/-! ## The tick of a fence (R252, R253, R332) -/

section
variable (s : State) (p : Nat) (f : Fence)

/-- The die stays, and so do the retained frames of a port that has fences. -/
def State.FramesKept (p : Nat) (s t : State) : Prop := t.tsu = s.tsu ∧ ((s.link .jup p).fences ≠ [] →
  (t.link .jup p).fences ≠ [] ∧ (t.link .jup p).tx.retained = (s.link .jup p).tx.retained)

variable {s p} in
theorem State.FramesKept.trans {t u : State} (h : s.FramesKept p t) (k : t.FramesKept p u) : s.FramesKept p u := by
  refine ⟨k.1.trans h.1, fun hf => ?_⟩
  obtain ⟨hft, hret⟩ := h.2 hf
  obtain ⟨hfu, kret⟩ := k.2 hft
  exact ⟨hfu, kret.trans hret⟩
variable {s} in
theorem State.SiteKept.frames {t : State} (h : s.SiteKept t) : s.FramesKept p t := by
  obtain ⟨-, hret, hf⟩ := h.2 p
  exact ⟨h.tsu, fun hne => ⟨fun h0 => hne (List.subset_nil.mp (h0 ▸ hf)), hret⟩⟩
theorem framesKept_refl : s.FramesKept p s := (siteKept_refl s).frames p
theorem framesKept_modLink (n : Nat) {g : Link → Link} (hf : ∀ l, (g l).fences = l.fences) (hr : ∀ l, (g l).tx.retained = l.tx.retained) :
    s.FramesKept p (s.modLink .jup n g) := by
  refine ⟨rfl, fun hne => ?_⟩
  by_cases hn : p = n
  · subst hn
    have hkept : (g (s.link .jup p)).fences ≠ [] := by rw [hf]; exact hne
    rw [link_modLink fun h => hkept (congrArg Link.fences h)]
    exact ⟨hkept, hr _⟩
  · rw [link_modLink_other hn]
    exact ⟨hne, rfl⟩

theorem framesKept_modTx (n : Nat) {g : LinkTx → LinkTx} (hr : ∀ t, (g t).retained = t.retained) : s.FramesKept p (s.modTx .jup n g) :=
  framesKept_modLink s p n (fun _ => rfl) fun _ => hr _
theorem framesKept_modRx (n : Nat) (g : LinkRx → LinkRx) : s.FramesKept p (s.modRx .jup n g) :=
  framesKept_modLink s p n (fun _ => rfl) fun _ => rfl
theorem framesKept_discarded (n : Nat) : s.FramesKept p (s.modLink .jup n fun l => { l with discards := l.discards + 1 }) :=
  framesKept_modLink s p n (fun _ => rfl) fun _ => rfl
theorem framesKept_leave (m : Msg) : s.FramesKept p (s.leave .jup m) := by
  unfold State.leave
  split
  · split
    · exact framesKept_refl s p
    · exact framesKept_modRx ..
  · exact framesKept_refl s p

/-! ### Deliveries that end, and rounds that fail -/

theorem siteKept_portDelivered (x : Delivery) (k n : Nat) : s.SiteKept (s.portDelivered x k n) := by
  unfold State.portDelivered
  exact siteKept_ite (.trans (siteKept_of_links rfl rfl) (siteKept_finishDelivery ..)) (siteKept_of_links rfl rfl)
theorem siteKept_failOne (n : Nat) (early : Bool) (b : Tick) (lo : BitVec 16) : s.SiteKept (s.failOne n early b lo) := by
  unfold State.failOne
  split
  · exact siteKept_refl s
  · extract_lets x round known b step s1
    have hs1 : s.SiteKept s1 := siteKept_of_links rfl rfl
    exact siteKept_ite (siteKept_refl s) (siteKept_ite (hs1.trans (siteKept_sendAll ..)) (hs1.trans (siteKept_send ..)))
theorem siteKept_fenceRounds : s.SiteKept (s.fenceRounds p f) :=
  siteKept_foldl (fun s _ => siteKept_foldl (fun s n => siteKept_ite (siteKept_failOne s n _ _ _)
    ((siteKept_failOne s n _ _ _).trans (siteKept_failOne ..))) _ s) _ s

/-! ### What is cut off -/

theorem framesKept_modTx_leave (n : Nat) {g : LinkTx → LinkTx} (hr : ∀ t, (g t).retained = t.retained) (m : Msg) :
    s.FramesKept p ((s.modTx .jup n g).leave .jup m) := (framesKept_modTx s p n hr).trans (framesKept_leave ..)
theorem framesKept_discardAt (k : Nat) (m : Msg) : s.FramesKept p (s.discardAt .jup k m) := by
  unfold State.discardAt
  extract_lets s1
  have hs1 : s.FramesKept p s1 := (framesKept_discarded s p k).trans (framesKept_leave ..)
  split
  · split
    · split
      · exact hs1.trans ((siteKept_portDelivered ..).frames p)
      · exact hs1
    · exact hs1
  · exact hs1
theorem framesKept_modTx_discardAt (n k : Nat) {g : LinkTx → LinkTx} (hr : ∀ t, (g t).retained = t.retained) (m : Msg) :
    s.FramesKept p ((s.modTx .jup n g).discardAt .jup k m) := (framesKept_modTx s p n hr).trans (framesKept_discardAt ..)
theorem framesKept_cutOutgoing : s.FramesKept p (s.cutOutgoing p f) := by
  unfold State.cutOutgoing
  extract_lets t s1
  have hs1 : s.FramesKept p s1 := by
    unfold s1
    split
    · split
      · exact framesKept_modTx_discardAt s p p p (fun _ => by rfl) _
      · exact framesKept_refl s p
    · exact framesKept_refl s p
  split
  · split
    · exact hs1.trans (framesKept_modTx_discardAt s1 p p p (fun _ => by rfl) _)
    · exact hs1
  · exact hs1
theorem framesKept_cutPass (o n : Nat) : s.FramesKept p (s.cutPass o n) := by
  unfold State.cutPass
  extract_lets t here
  split
  · split
    · exact framesKept_modTx_leave s p o (fun _ => by rfl) _
    · exact framesKept_modTx s p o fun _ => rfl
  · exact framesKept_modTx_leave s p o (fun _ => by rfl) _
  · exact framesKept_refl s p

/-! A message that this Jupin has made holds no buffer, wherever it is routed. -/

theorem siteKept_setFlow (n : Nat) (x : Flow) : s.SiteKept (s.modLink .jup n fun l => l.setFlow x) :=
  siteKept_modLink s (fun h => List.cons_ne_nil _ _ (congrArg Link.flows h)) (Link.kept_refl _)
theorem siteKept_plateIn (n : Nat) (ws : List Word) : s.SiteKept (s.plateIn n ws) :=
  siteKept_ite (siteKept_of_links rfl rfl) (siteKept_of_links rfl rfl)
theorem siteKept_consumeBulk (n : Nat) (m : Msg) : s.SiteKept (s.consumeBulk .jup n m) :=
  siteKept_ite (siteKept_refl s) (siteKept_ite (.trans (siteKept_setFlow s n _) (siteKept_send ..)) (siteKept_setFlow s n _))

section
variable {m : Msg} (hm : m.src = none)
include hm

theorem leave_own (d : Dev) : s.leave d m = s := by rw [State.leave, hm]
theorem siteKept_toInbox (n : Nat) : s.SiteKept (s.toInbox .jup n m) := by
  have hdark : s.darkHolds .jup m = false := by simp [State.darkHolds]
  rw [State.toInbox, hdark, if_neg Bool.false_ne_true, State.deliverMsg, leave_own _ hm]
  exact (siteKept_consumeBulk s n m).trans (siteKept_ite (siteKept_plateIn ..) (siteKept_of_links rfl rfl))
theorem siteKept_forward (i o : Nat) : s.SiteKept (s.forward i o m) := by
  unfold State.forward
  refine siteKept_ite ?_ (by rw [leave_own _ hm]; exact siteKept_routeErr s i)
  extract_lets gone s1
  have hflow : s.SiteKept (s.flowVia i o m) := siteKept_ite (siteKept_setFlow s o _) (siteKept_refl s)
  have hs1 : s.SiteKept s1 := siteKept_ite (by rw [leave_own _ hm]; exact siteKept_countDiscards s [o]) (hflow.trans (siteKept_send ..))
  split
  · exact siteKept_ite (siteKept_ite (hs1.trans (siteKept_finishDelivery ..)) (hs1.trans (siteKept_of_links rfl rfl))) hs1
  · exact hs1
theorem siteKept_jupRoute (i : Nat) (hr : m.mtype ≠ mtResult) (hc : m.mtype ≠ mtConjRelease) : s.SiteKept (s.jupRoute i m) := by
  unfold State.jupRoute
  refine siteKept_ite (siteKept_toInbox s hm i) (siteKept_ite (by rw [leave_own _ hm]; exact siteKept_refl s) (siteKept_ite ?standsIn
    (siteKept_ite (by rw [leave_own _ hm]; exact siteKept_routeErr s i) (siteKept_ite ?path (siteKept_ite ?tree ?rest)))))
  case standsIn => exact siteKept_ite (siteKept_multicast s m hm i none) (siteKept_forward s hm ..)
  case path =>
    split
    · exact siteKept_toInbox s hm i
    · exact siteKept_forward s hm ..
  case tree =>
    extract_lets s1
    have hs1 : s.SiteKept s1 := siteKept_multicast s m hm i none
    split
    · exact siteKept_ite (hs1.trans (siteKept_send ..)) hs1
    · exact hs1
  case rest =>
    rw [if_neg hr, if_neg hc]
    refine siteKept_ite ?_ (siteKept_toInbox s hm i)
    extract_lets job
    split <;> exact siteKept_forward s hm ..

end

theorem framesKept_cutIncoming : s.FramesKept p (s.cutIncoming p f) := by
  unfold State.cutIncoming
  split
  · exact framesKept_refl s p
  · split
    · exact framesKept_refl s p
    · extract_lets s1
      have hs1 : s.FramesKept p s1 := by
        unfold s1
        split
        · exact framesKept_cutPass ..
        · exact framesKept_refl s p
      have habort (t : State) (m : Msg) (hm : m.src = none) (ht : m.mtype = mtAbort) : t.FramesKept p (t.jupRoute p m) :=
        (siteKept_jupRoute t hm p (by rw [ht]; decide) (by rw [ht]; decide)).frames p
      exact hs1.trans ((framesKept_modRx s1 p p _).trans ((framesKept_discarded _ p p).trans (habort _ _ rfl rfl)))

/-! ### Copies that lose their partner (R332) -/

theorem siteKept_bringFails (b : BringIn) (st : BitVec 8) : s.SiteKept (s.bringFails b st) :=
  (siteKept_post ..).trans (.trans (siteKept_of_links rfl rfl) (siteKept_ite (siteKept_refl _) (siteKept_of_links rfl rfl)))
theorem siteKept_restoreEnds (k : Nat) (r : RestoreOp) (st : BitVec 8) : s.SiteKept (s.restoreEnds k r st) := by
  unfold State.restoreEnds
  split
  · exact siteKept_post ..
  · refine siteKept_foldl (fun s b => ?_) _ s
    refine siteKept_ite (siteKept_of_links rfl rfl) (siteKept_ite ?_ (siteKept_refl s))
    split
    · exact siteKept_of_links rfl rfl
    · exact siteKept_bringFails ..
/-- A restore of the image alone leaves the fences of its port. -/
theorem siteKept_openRestore_image (k : Nat) (r : RestoreOp) (hr : r.sections = 2) : s.SiteKept (s.openRestore k r) := by
  unfold State.openRestore
  split
  · exact siteKept_restoreEnds ..
  · rename_i s1 hopen
    have hs1 : s.SiteKept s1 := by
      unfold State.openEntry at hopen
      split at hopen
      · cases hopen
      · exact Option.some.inj hopen ▸ siteKept_of_links rfl rfl
    dsimp only
    rw [hr, if_pos (by decide)]
    exact hs1.trans (siteKept_of_links rfl rfl)
theorem siteKept_forwardCmd (h : Half) (k : Nat) (ws : List Word) : s.SiteKept (s.forwardCmd h k ws) :=
  (siteKept_send s (localMsg mtCommand ws) k).trans (siteKept_of_links rfl rfl)
theorem siteKept_toRecompute (b : BringIn) : s.SiteKept (s.toRecompute b) := by
  unfold State.toRecompute
  extract_lets s1 b'
  have hs1 : s.SiteKept s1 := siteKept_ite (siteKept_refl s) (siteKept_of_links rfl rfl)
  refine hs1.trans (.trans (siteKept_of_links rfl rfl : s1.SiteKept (s1.setBringIn b b')) ?_)
  unfold State.bringRestore
  extract_lets src gen
  split
  · exact siteKept_ite (siteKept_openRestore_image _ _ _ rfl) (siteKept_forwardCmd ..)
  · exact siteKept_refl _
theorem siteKept_partnerLost : s.SiteKept (s.partnerLost p f) := by
  refine siteKept_foldl (fun s b => ?_) _ s
  have hfresh : s.SiteKept (if s.role = 1 then s else s.fresh.2) := siteKept_ite (siteKept_refl s) (siteKept_of_links rfl rfl)
  exact siteKept_ite (siteKept_toRecompute s b) (hfresh.trans (siteKept_of_links rfl rfl))

/-! ### The fence begins -/

/-- Of the frames retained at a port, what a fence that begins leaves. -/
def Fence.spares (f : Fence) (l : List Frame) : List Frame := if f.domain then [] else l.map fun x => x.without f.job

variable {s p f}

theorem beginFence_frames (hne : (s.link .jup p).fences ≠ []) : (s.beginFence p f).tsu = s.tsu ∧ ((s.beginFence p f).link .jup p).fences ≠ [] ∧
    ((s.beginFence p f).link .jup p).tx.retained = f.spares (s.link .jup p).tx.retained := by
  obtain ⟨hcutTsu, hcut⟩ := framesKept_cutOutgoing s p f
  obtain ⟨hcutF, hcutR⟩ := hcut hne
  unfold State.beginFence
  extract_lets s1 s2
  have hlink : s1.link .jup p = { (s.cutOutgoing p f).link .jup p with
      tx := if f.domain then { ((s.cutOutgoing p f).link .jup p).tx with retained := [], replayAt := none }
        else { ((s.cutOutgoing p f).link .jup p).tx with retained := ((s.cutOutgoing p f).link .jup p).tx.retained.map fun x => x.without f.job } } :=
    link_modTx fun h => hcutF (congrArg Link.fences h)
  have hs1 : (s1.link .jup p).fences ≠ [] ∧ (s1.link .jup p).tx.retained = f.spares (s.link .jup p).tx.retained := by
    rw [hlink, ← hcutR]
    refine ⟨hcutF, ?_⟩
    unfold Fence.spares
    dsimp only
    split <;> rfl
  have hrest : s1.FramesKept p ((s2.cutIncoming p f).fenceRounds p f) :=
    ((siteKept_foldl (fun s x => siteKept_portDelivered s x p 0) _ s1).frames p).trans
      ((framesKept_cutIncoming ..).trans ((siteKept_fenceRounds ..).frames p))
  obtain ⟨hf, hr⟩ := hrest.2 hs1.1
  exact ⟨hrest.1.trans ((tsu_modTx ..).trans hcutTsu), hf, hr.trans hs1.2⟩

theorem modLink_congr {d : Dev} {n : Nat} {g h : Link → Link} (e : g (s.link d n) = h (s.link d n)) : s.modLink d n g = s.modLink d n h := by
  have hlinks : tmod {} (s.com d).links n g = tmod {} (s.com d).links n h := congrArg (tset ({} : Link) (s.com d).links n) e
  unfold State.modLink State.modCom
  dsimp only
  rw [hlinks]

theorem execFenceTick_none (h : ∀ f ∈ (s.link .jup p).fences, s.now .jup < f.tick ∨ f.begun = true) : exec (.fenceTick p) s = .next s := by
  change execFenceTick p s = _
  have hdue : ((s.link .jup p).fences.any fun f => decide (f.tick ≤ s.now .jup) && !f.begun) = false :=
    List.any_eq_false.mpr fun f hf => by
      rcases h f hf with ht | hb
      · simp [BitVec.not_le.mpr ht]
      · simp [hb]
  unfold execFenceTick
  dsimp only
  exact due_unless hdue

/-- The one fence of a port has begun. -/
def State.noteBegun (s : State) (p : Nat) (f : Fence) : State := s.modLink .jup p fun l => { l with fences := [{ f with begun := true }] }

theorem execFenceTick_begins (hf : (s.link .jup p).fences = [f]) (ht : f.tick ≤ s.now .jup) (hb : f.begun = false) :
    exec (.fenceTick p) s = .next (((s.noteBegun p f).beginFence p f).partnerLost p f) := by
  change execFenceTick p s = _
  have hdue : (decide (f.tick ≤ s.now .jup) && !f.begun) = true := by simp [ht, hb]
  unfold execFenceTick
  dsimp only
  rw [hf, due_of (by simp [ht, hb])]
  have hnote : (s.modLink .jup p fun l => { l with fences := l.fences.map fun f =>
      if (decide (f.tick ≤ s.now .jup) && !f.begun) = true then { f with begun := true } else f }) = s.noteBegun p f :=
    modLink_congr (by rw [hf]; simp [ht, hb])
  rw [hnote, hf, List.filter_cons_of_pos (by exact hdue)]
  rfl

theorem fenceTick_frames (s : State) (p : Nat) (f : Fence) :
    ((((s.noteBegun p f).beginFence p f).partnerLost p f).link .jup p).tx.retained = f.spares (s.link .jup p).tx.retained ∧
    (((s.noteBegun p f).beginFence p f).partnerLost p f).tsu = s.tsu := by
  have hlink : (s.noteBegun p f).link .jup p = { s.link .jup p with fences := [{ f with begun := true }] } :=
    link_modLink fun h => List.cons_ne_nil _ _ (congrArg Link.fences h)
  obtain ⟨htsu, -, hret⟩ := beginFence_frames (s := s.noteBegun p f) (p := p) (f := f) (by rw [hlink]; exact List.cons_ne_nil _ _)
  have hlost := siteKept_partnerLost ((s.noteBegun p f).beginFence p f) p f
  exact ⟨(hlost.2 p).2.1.trans (hret.trans (by rw [hlink])), hlost.tsu.trans (htsu.trans (tsu_modLink ..))⟩

end

/-! ## The filters of a peer fence (R254, R397, R424) -/

section
variable {s : State} {ws : List Word}

theorem execPeerFenceRx_awake (hp : s.tsu.power.state ≠ 4) : exec (.peerFenceRx ws) s =
    .next (if (fenceOf ws).domain then (s.consume .tsu 0 mtPeerFence ws).addFilter (fenceOf ws).path none
      else (chanNums.filter fun c => decide ((s.chan c).state ≠ .unbound ∧ (s.chan c).job = (fenceOf ws).job)).foldl
        (fun s c => s.addFilter (fenceOf ws).path (some c)) (s.consume .tsu 0 mtPeerFence ws)) := by
  change execPeerFenceRx ws s = _
  exact stepIn_awake hp

theorem nfAsked_foldl_addFilter (path : Half) (cs : List Nat) (s : State) :
    (cs.foldl (fun s c => s.addFilter path (some c)) s).tsu.nfAsked = s.tsu.nfAsked ++ cs.map fun c => (false, some c, path) := by
  induction cs generalizing s with
  | nil => exact (List.append_nil _).symm
  | cons c cs ih =>
    have hone : (s.addFilter path (some c)).tsu.nfAsked = s.tsu.nfAsked ++ [(false, some c, path)] := rfl
    rw [List.foldl_cons, ih, hone, List.map_cons, List.append_assoc]
    rfl

theorem execNiFilterAck_up (full : Bool) (hm : s.mainOff = false) {clear : Bool} {ch : Option Nat} {path : Half}
    {r : List (Bool × Option Nat × Half)} (ha : s.tsu.nfAsked = (clear, ch, path) :: r) : exec (.niFilterAck full) s =
    .next (if full then (s.modTsu fun t => { t with nfAsked := r }).modTsu fun t => { t with nfFull := true }
      else if clear then (s.modTsu fun t => { t with nfAsked := r }).modTsu fun t => { t with nfFull := false }
      else (s.modTsu fun t => { t with nfAsked := r }).modTsu fun t =>
        { t with filters := updFirst (fun f => decide (f.path = path ∧ f.ch = ch) && !f.acked) (fun f => { f with acked := true }) t.filters }) := by
  change execNiFilterAck full s = _
  rw [execNiFilterAck, mainIn_up hm, ha]
theorem execNiFilterAck_none (full : Bool) (ha : s.tsu.nfAsked = []) : exec (.niFilterAck full) s = .next s := by
  change execNiFilterAck full s = _
  unfold execNiFilterAck State.mainIn State.due
  dsimp only
  rw [ha, ite_self]

end

/-- Settles O39: the channels of a fence are moved once each; at a port a fence is kept by what follows it; and at its tick the retained
frames are read back because the port keeps its fences. -/
theorem fencesAct : Obligations.FencesAct := by
  refine ⟨?die, ?signals, ?taken, ?foreign, ?alone, fun p s => execFenceTick_none, fun p f s => execFenceTick_begins, ?domain, ?job,
    ?covers, ?filter, ?filters, ?dark, fun full s => execNiFilterAck_none full, ?full, ?installed, ?cleared, fun n ws s => execFenceRx_noRack⟩
  case die =>
    intro n ws s
    obtain ⟨hjup, hout⟩ := fenceDie_frame (s.consume .tsu n mtFence ws) (fenceOf ws)
    refine ⟨_, execFenceRx_die n ws s, fun c hb hf => ?_, fun c hc => chan_fenceDie_spared (s := s.consume .tsu n mtFence ws) hc,
      fun ht => ?_, hjup, hout⟩
    · rw [chan_fenceDie (s := s.consume .tsu n mtFence ws) c.isLt hb hf]
      exact fencedBy_frame ..
    · rw [fenceDie_eq, if_neg (show ¬ (fenceOf ws).tick ≤ (s.consume .tsu n mtFence ws).now .tsu from BitVec.not_le.mpr ht)]
      exact (foldl_fenceChan_frame ..).1
  case signals =>
    intro n ws h s ht hh h8 hb hj
    refine ⟨_, execFenceRx_die n ws s, ?_⟩
    rw [fenceDie_eq, if_pos (show (fenceOf ws).tick ≤ (s.consume .tsu n mtFence ws).now .tsu from ht)]
    have hmem : h.ch ∈ (s.consume .tsu n mtFence ws).fencedChans (fenceOf ws) := mem_fencedChans.mpr ⟨h8, hb, .inr hj⟩
    simp [State.dropHeld, State.modTsu, hmem]
  case taken =>
    intro n p ws s hp hr hp88 ho
    have hf : s.foreignFence p (fenceOf ws) = false := ho.elim foreignFence_domain foreignFence_owned
    refine ⟨_, execFenceRx_port hp hr hp88, ?_⟩
    rw [hf, if_neg Bool.false_ne_true]
    exact ⟨mem_takeFence .., tsu_takeFence ..⟩
  case foreign =>
    intro n p ws s hp hr hp88 hd ho
    rw [execFenceRx_port hp hr hp88, foreignFence_foreign hd hr hp88 ho, if_pos rfl]
  case alone =>
    intro n p ws s hd hg hp hr hp88 ho
    rw [execFenceRx_port hp hr hp88, foreignFence_owned ho, if_neg Bool.false_ne_true, fenceAfter_noGroups hg,
      takeFence_noGroups (s := s.consume .jup n mtFence ws) hd hg]
  case domain =>
    intro p f s hf ht hb hd
    obtain ⟨hret, htsu⟩ := fenceTick_frames s p f
    exact ⟨_, execFenceTick_begins hf ht hb, hret.trans (if_pos hd), htsu⟩
  case job =>
    intro p f s hf ht hb hd
    obtain ⟨hret, htsu⟩ := fenceTick_frames s p f
    exact ⟨_, execFenceTick_begins hf ht hb, hret.trans (if_neg (hd ▸ Bool.false_ne_true)), htsu⟩
  case covers =>
    intro f m js k ht hm hj
    simpa [fenced, Fence.covers, ht, hm] using hj
  case filter =>
    intro ws s hp hd
    refine ⟨_, (execPeerFenceRx_awake hp).trans (congrArg Host.Outcome.next (if_pos hd)), rfl, ⟨_, rfl, rfl, rfl, rfl⟩, fun hc => ?_, rfl⟩
    exact out_emit_driven _ _ (.inr hc)
  case filters =>
    intro ws s hp hd
    exact ⟨_, (execPeerFenceRx_awake hp).trans (congrArg Host.Outcome.next (if_neg (hd ▸ Bool.false_ne_true))), nfAsked_foldl_addFilter ..⟩
  case dark =>
    intro ws s hp
    change execPeerFenceRx ws s = _
    exact stepIn_dark hp
  case full =>
    rintro ⟨clear, ch, path⟩ r s hm ha
    exact ⟨_, execNiFilterAck_up true hm ha, rfl, rfl, rfl⟩
  case installed =>
    intro ch path r s hm ha
    exact ⟨_, execNiFilterAck_up false hm ha, rfl, rfl⟩
  case cleared =>
    intro ch path r s hm ha
    exact ⟨_, execNiFilterAck_up false hm ha, rfl, rfl⟩

end Sys2Proof.Machine
end

section
/-! PROOFS of spec family 11: the job commands at the Jupin (O45). -/
namespace Sys2Proof.Machine
open Sys2Proof

/-! ### What an accepted job command runs -/

section
variable {h : Hdr} {op : BitVec 8} {j : BitVec 15} {s s' : State} {hd : Half}

theorem atTop_top (hp : s.jobPlace j = .top) (ws : List Word) (f : State → State) : s.atTop hd j ws f = f s := by
  unfold State.atTop; rw [hp]

theorem atTop_port {p : Nat} (hp : s.jobPlace j = .port p) (ws : List Word) (f : State → State) :
    s.atTop hd j ws f = s.forwardCmd hd p ws := by
  unfold State.atTop; rw [hp]

theorem atTop_unknown (hp : s.jobPlace j = .unknown) (ws : List Word) (f : State → State) :
    s.atTop hd j ws f = s.post .jup hd stBadAddr [] := by
  unfold State.atTop; rw [hp]

/-- A job command accepted at its job's top is carried out there. -/
theorem asked_top (ha : s.accept .jup h op (job := some j) = (s', some hd)) (hp : s'.jobPlace j = .top)
    (ws : Half → State → List Word) (f : Half → State → State) :
    s.withHandle .jup h op (fun hd s => s.atTop hd j (ws hd s) (f hd)) (job := some j) = f hd s' :=
  (withHandle_accepted s s' hd .jup h op _ false (some j) ha).trans (atTop_top hp _ _)

theorem asked_here (ha : s.accept .jup h op (job := some j) = (s', some hd)) (hp : s'.jobPlace j = .top)
    (hact : s'.activeHere j = true) (ws : Half → State → List Word) (f : Half → State → State) :
    s.withHandle .jup h op (fun hd s => s.atActive hd j (ws hd s) (f hd)) (job := some j) = f hd s' :=
  (asked_top ha hp _ _).trans (if_pos hact)

theorem asked_far (ha : s.accept .jup h op (job := some j) = (s', some hd)) (hp : s'.jobPlace j = .top)
    (hact : s'.activeHere j = false) (ws : Half → State → List Word) (f : Half → State → State) :
    s.withHandle .jup h op (fun hd s => s.atActive hd j (ws hd s) (f hd)) (job := some j) =
      s'.forwardCmd hd (s'.peerPort hd.toNat) (ws hd s') :=
  (asked_top ha hp (fun hd s => ws hd s) (fun hd s => if s.activeHere j then f hd s else s.forwardCmd hd (s.peerPort hd.toNat) (ws hd s))).trans
    (if_neg (by simp [hact]))

theorem execStartJob_top {st : Nat} {m : BitVec 32} (ha : s.accept .jup h opStartJob (job := some j) = (s', some hd))
    (hp : s'.jobPlace j = .top) : exec (.startJob h j st m) s = .next (s'.startHere hd j st m h.override) :=
  congrArg Host.Outcome.next (asked_top ha hp
    (fun hd s => cmdWords opStartJob (s.wholeSpan j) hd [BitVec.ofNat 64 st, m.setWidth 64] h.override)
    fun hd s => s.startHere hd j st m h.override)

theorem execTeardownJob_top (ha : s.accept .jup h opTeardownJob (job := some j) = (s', some hd)) (hp : s'.jobPlace j = .top) :
    exec (.teardownJob h j) s = .next (s'.tearGroup hd j 0 (s'.now .jup)) :=
  congrArg Host.Outcome.next (asked_top ha hp (fun hd s => cmdWords opTeardownJob (s.wholeSpan j) hd [])
    fun hd s => s.tearGroup hd j 0 (s.now .jup))

theorem execHoldJob_here {n : BitVec 64} (ha : s.accept .jup h opHoldJob (job := some j) = (s', some hd)) (hp : s'.jobPlace j = .top)
    (hact : s'.activeHere j = true) : exec (.holdJob h j n) s = .next (s'.jobCommand hd j opHoldJob [n] []) :=
  congrArg Host.Outcome.next (asked_here ha hp hact (fun hd s => cmdWords opHoldJob (s.wholeSpan j) hd [n])
    fun hd s => s.jobCommand hd j opHoldJob [n] [])

theorem execHoldJob_far {n : BitVec 64} (ha : s.accept .jup h opHoldJob (job := some j) = (s', some hd)) (hp : s'.jobPlace j = .top)
    (hact : s'.activeHere j = false) : exec (.holdJob h j n) s =
      .next (s'.forwardCmd hd (s'.peerPort hd.toNat) (cmdWords opHoldJob (s'.wholeSpan j) hd [n])) :=
  congrArg Host.Outcome.next (asked_far ha hp hact (fun hd s => cmdWords opHoldJob (s.wholeSpan j) hd [n])
    fun hd s => s.jobCommand hd j opHoldJob [n] [])

theorem execStretchJob_here {n : BitVec 64} {v : BitVec 20} (ha : s.accept .jup h opStretchJob (job := some j) = (s', some hd))
    (hp : s'.jobPlace j = .top) (hact : s'.activeHere j = true) :
    exec (.stretchJob h j n v) s = .next (s'.stretchTo hd j n v) :=
  congrArg Host.Outcome.next (asked_here ha hp hact (fun hd s => cmdWords opStretchJob (s.wholeSpan j) hd [n, v.setWidth 64])
    fun hd s => s.stretchTo hd j n v)

theorem execStretchJob_far {n : BitVec 64} {v : BitVec 20} (ha : s.accept .jup h opStretchJob (job := some j) = (s', some hd))
    (hp : s'.jobPlace j = .top) (hact : s'.activeHere j = false) : exec (.stretchJob h j n v) s =
      .next (s'.forwardCmd hd (s'.peerPort hd.toNat) (cmdWords opStretchJob (s'.wholeSpan j) hd [n, v.setWidth 64])) :=
  congrArg Host.Outcome.next (asked_far ha hp hact (fun hd s => cmdWords opStretchJob (s.wholeSpan j) hd [n, v.setWidth 64])
    fun hd s => s.stretchTo hd j n v)

theorem execResumeJob_top {t : Tick} (ha : s.accept .jup h opResumeJob (job := some j) = (s', some hd)) (hp : s'.jobPlace j = .top) :
    exec (.resumeJob h j t) s = .next (s'.budgetBars hd j fun s => s.resumeHere hd j t) :=
  congrArg Host.Outcome.next (asked_top ha hp (fun hd s => cmdWords opResumeJob (s.wholeSpan j) hd [t])
    fun hd s => s.budgetBars hd j fun s => s.resumeHere hd j t)

theorem execSetQuota_rack {b : BitVec 64} (ha : s.accept .jup h opSetQuota (job := some j) = (s', some hd)) (hp : s'.jobPlace j = .top)
    (hr : s'.role = 1) : exec (.setQuota h j b) s = .next (s'.quotaHere hd j b) :=
  congrArg Host.Outcome.next ((withHandle_accepted s s' hd .jup h opSetQuota _ false (some j) ha).trans
    ((atTop_top hp (cmdWords opSetQuota (s'.wholeSpan j) hd [b]) fun s => if s.role = 1 then s.quotaHere hd j b else
      s.forwardAll hd (s.jobPorts j) (cmdWords opSetQuota (s'.wholeSpan j) hd [b])).trans (if_pos hr)))

/-- What a remap does at its job's top. -/
def State.remapHere (s : State) (hd : Half) (j : BitVec 15) (r : BitVec 17) (p : BitVec 32) (c : Nat) : State :=
  if !s.below p then s.post .jup hd stSpanExceeded []
  else if s.lastRank j < r then s.post .jup hd stBadAddr []
  else s.budgetBars hd j fun s => s.remapGroup hd j [{ rank := r, path := p, channel := c }] opRemapRank

theorem execRemapRank_top {r : BitVec 17} {p : BitVec 32} {c : Fin 8} (ha : s.accept .jup h opRemapRank (job := some j) = (s', some hd))
    (hp : s'.jobPlace j = .top) : exec (.remapRank h j r p c) s = .next (s'.remapHere hd j r p c.val) :=
  congrArg Host.Outcome.next (asked_top ha hp
    (fun hd s => cmdWords opRemapRank (s.wholeSpan j) hd [r.setWidth 64, p.setWidth 64, BitVec.ofNat 64 c.val])
    fun hd s => s.remapHere hd j r p c.val)

theorem remapHere_below {r : BitVec 17} {p : BitVec 32} {c : Nat} (hb : s.below p = true) (hr : r ≤ s.lastRank j)
    (hbud : s.jup.budgetHeld.contains j = false) :
    s.remapHere hd j r p c = s.remapGroup hd j [{ rank := r, path := p, channel := c }] opRemapRank := by
  unfold State.remapHere State.budgetBars
  rw [if_neg (by simp [hb]), if_neg (BitVec.not_lt.mpr hr), hbud, if_neg Bool.false_ne_true]

theorem remapHere_beyond {r : BitVec 17} {p : BitVec 32} {c : Nat} (hb : s.below p = false) :
    s.remapHere hd j r p c = s.post .jup hd stSpanExceeded [] := if_pos (by simp [hb])

theorem execBringIn_top {r : BitVec 17} {p : BitVec 32} {dual : Bool} (ha : s.accept .jup h opBringIn (job := some j) = (s', some hd))
    (hp : s'.jobPlace j = .top) (hr : r ≤ s'.lastRank j) :
    exec (.bringIn h j r p dual) s = .next (s'.bringIn hd j r p dual h.override) :=
  congrArg Host.Outcome.next ((asked_top ha hp
    (fun hd s => cmdWords opBringIn (s.wholeSpan j) hd [r.setWidth 64, p.setWidth 64, bit1 64 0 dual] h.override)
    fun hd s => if s.lastRank j < r then s.post .jup hd stBadAddr [] else s.bringIn hd j r p dual h.override).trans
    (if_neg (BitVec.not_lt.mpr hr)))

theorem execFence_at {path : BitVec 32} {job : Option (BitVec 15)} {t : Tick} (ha : s.accept .jup h opFence = (s', some hd)) :
    exec (.fence h path job t) s = .next (s'.fenceAt hd path job t) :=
  congrArg Host.Outcome.next (withHandle_accepted s s' hd .jup h opFence (fun hd s => s.fenceAt hd path job t) false none ha)

theorem fenceAt_rack {path : BitVec 32} {job : Option (BitVec 15)} {t : Tick} {p : Nat} (hp : s.pathPort path = some (some p))
    (hr : s.role = 1) (hlt : p < 88) : s.fenceAt hd path job t = s.fenceCmd hd p job t := by
  unfold State.fenceAt
  rw [hp]
  exact if_pos ⟨hr, hlt⟩

theorem fenceCmd_owned {t : Tick} {p : Nat} (ho : s.ownsPort p j = true) : s.fenceCmd hd p (some j) t =
    s.fenceAsked hd p { job := j, domain := false, path := s.childPath p, tick := if t < s.now .jup + 1 then s.now .jup + 1 else t } :=
  if_pos ho

theorem fenceCmd_foreign {t : Tick} {p : Nat} (ho : s.ownsPort p j = false) : s.fenceCmd hd p (some j) t =
    (s.modLink .jup p fun l => { l with discards := l.discards + 1 }).post .jup hd stOk [0] := if_neg (by simp [ho])

end

/-! ### What is posted for an accepted command -/

section
variable {h : Hdr} {op : BitVec 8} {job : Option (BitVec 15)} {s s' t : State} {hd : Half} {st : BitVec 8} {rs : List Word}

/-- The open entry of an accepted command is posted, while the command table is as the acceptance left it. -/
theorem posted_of_cmds (ha : s.accept .jup h op (job := job) = (s', some hd)) (hc : t.jupC.cmds = s'.jupC.cmds) :
    ((t.post .jup hd st rs).cplEntry .jup hd).map (fun e => (e.valid, e.status, e.results)) = some (true, st, rs) := by
  obtain ⟨e, he, hv⟩ := cplEntry_accept ha
  rw [cplEntry_post ((cplEntry_of_cmds hc hd).trans he) hv]
  rfl

theorem cmds_send (s : State) (n : Nat) (m : Msg) : (s.send .jup n m).jupC.cmds = s.jupC.cmds := rfl
theorem cmds_sendAll (s : State) (ns : List Nat) (m : Msg) : (s.sendAll .jup ns m).jupC.cmds = s.jupC.cmds :=
  foldl_kept (g := fun s => s.jupC.cmds) (fun s n => cmds_send s n m) ns s
theorem cmds_setJobWord (s : State) (j : BitVec 15) (i : Nat) (w : Word) : (s.setJobWord j i w).jupC.cmds = s.jupC.cmds := by
  unfold State.setJobWord; split <;> rfl
theorem cmds_setUsage (s : State) (j : BitVec 15) (n : Nat) : (s.setUsage j n).jupC.cmds = s.jupC.cmds := by
  unfold State.setUsage; dsimp only; split <;> exact cmds_setJobWord s j 5 _
theorem cmds_sendCopies (s : State) (ps : List Nat) (m : Msg) (hm : m.src = none) : (s.sendCopies ps m).jupC.cmds = s.jupC.cmds := by
  unfold State.sendCopies
  split
  · rw [State.leave, hm]
  · exact (cmds_send ..).trans (cmds_sendAll ..)
theorem cmds_countDiscards (s : State) (ps : List Nat) : (s.countDiscards ps).jupC.cmds = s.jupC.cmds :=
  foldl_kept (g := fun s => s.jupC.cmds) (f := fun s p => s.modLink .jup p fun l => { l with discards := l.discards + 1 }) (fun _ _ => rfl) ps s
/-- A multicast without a handle opens no delivery and posts nothing. -/
theorem cmds_multicast (s : State) (n : Nat) (m : Msg) (r : Option (List Word)) (hm : m.src = none) (hh : msgHandle m = none) :
    (s.multicast n m r).jupC.cmds = s.jupC.cmds := by
  unfold State.multicast
  rw [hh]
  dsimp only
  rw [cmds_sendCopies _ _ _ hm, cmds_countDiscards]
  split <;> rfl
theorem cmds_peerFence (s : State) (p : Nat) (f : Fence) : (s.peerFence p f).jupC.cmds = s.jupC.cmds := by
  refine foldl_kept (g := fun s => s.jupC.cmds) (fun s j => foldl_kept (g := fun s => s.jupC.cmds) (fun s t => ?_) _ s) _ s
  extract_lets m s1
  have h1 : s1.jupC.cmds = s.jupC.cmds := cmds_multicast s ownPort m none rfl rfl
  split
  · exact h1
  · exact (cmds_send ..).trans h1
/-- A fence of a job posts nothing where no group is open. -/
theorem cmds_settleFence {p : Nat} {f : Fence} (hd : f.domain = false) (hg : s.jupC.groups = []) :
    (s.settleFence p f).jupC.cmds = s.jupC.cmds := by
  have hgroups : s.fenceGroups p = s := by rw [State.fenceGroups, hg]; rfl
  rw [State.settleFence, hgroups, ite_self, State.placeFence]
  split
  · exact cmds_countDiscards ..
  · dsimp only
    rw [hd, Bool.false_and, if_neg Bool.false_ne_true]
    split
    · exact (cmds_peerFence ..).trans (cmds_sendAll ..)
    · exact cmds_sendAll ..

theorem afterCommit_open {p : Nat} {f : Fence} (hd : f.domain = false) (hg : s.gatePassed f.job = false) : s.afterCommit p f = (s, f) := by
  unfold State.afterCommit State.fenceJobs
  exact if_neg (by simp [hd, hg])

/-- With no gate passed and no group open, a fence that is asked for falls on its own tick, and that tick is posted. -/
theorem fenceAsked_posted {p : Nat} {f : Fence} (ha : s.accept .jup h op (job := job) = (s', some hd)) (hdom : f.domain = false)
    (ho : s'.ownsPort p f.job = true) (hg : s'.gatePassed f.job = false) (hgr : s'.jupC.groups = []) :
    f ∈ ((s'.fenceAsked hd p f).link .jup p).fences ∧
      ((s'.fenceAsked hd p f).cplEntry .jup hd).map (fun e => (e.valid, e.status, e.results)) = some (true, stOk, [f.tick]) ∧
      (s'.fenceAsked hd p f).tsu = s'.tsu := by
  have hasked : s'.fenceAsked hd p f = (s'.settleFence p f).post .jup hd stOk [f.tick] := by
    rw [State.fenceAsked, afterCommit_open hdom hg]
    dsimp only
    rw [fenceAfter_noGroups hgr]
  have hmem := mem_settleFence (foreignFence_owned ho)
  rw [fenceAfter_noGroups hgr] at hmem
  rw [hasked]
  exact ⟨(siteKept_post ..).mem_fences hmem, posted_of_cmds ha (cmds_settleFence hdom hgr),
    tsu_post.trans (siteKept_settleFence hdom).tsu⟩

/-- A rack's quota is posted with the usage of its pair. -/
theorem quotaHere_posted {j : BitVec 15} {b : BitVec 64} (ha : s.accept .jup h op (job := job) = (s', some hd)) :
    ((s'.quotaHere hd j b).cplEntry .jup hd).map (fun e => (e.valid, e.status, e.results.length)) = some (true, stOk, 1) := by
  unfold State.quotaHere
  extract_lets s1
  have hcmds : s1.jupC.cmds = s'.jupC.cmds := (cmds_send ..).trans ((cmds_setUsage ..).trans (cmds_setJobWord ..))
  have hpost := posted_of_cmds (st := stOk) (rs := [s1.usageWord j]) ha hcmds
  obtain ⟨e, he, hval⟩ := Option.map_eq_some_iff.mp hpost
  obtain ⟨hv, hst, hrs⟩ := Prod.mk.inj hval |>.imp id Prod.mk.inj
  rw [he, Option.map_some, hv, hst, hrs]
  rfl

/-- A spare found for a rank is kept with its bring-in, whose restore begins. -/
theorem bringIns_openRestore {p : Nat} {r : RestoreOp} (hroom : s.jup.tracker.length < 61440) :
    (s.openRestore p r).jup.bringIns = s.jup.bringIns := by
  obtain ⟨e, he⟩ := openEntry_room .restoreFlow (r.handle.getD 0) r.job (s.now .jup + Config.cmdDeadline opRestore) hroom
  rw [State.openRestore, he]
  dsimp only
  split <;> rfl
theorem bringIn_spare {j : BitVec 15} {r : BitVec 17} {p q : BitVec 32} {o : Bool} (hr : s.role = 1) (hq : s.pickRack j r p o = .spare q)
    (hroom : s.jup.tracker.length < 61440) : ∃ x : BringIn, (s.bringIn hd j r p false o).jup.bringIns = s.jup.bringIns ++ [x] ∧
      x.handle = hd ∧ x.job = j ∧ x.rank = r ∧ x.spare = q ∧ x.phase = 0 ∧ x.second = none ∧ x.override = o := by
  let x : BringIn := { handle := hd, job := j, rank := r, spare := q, second := none, mode := s.bringMode j r true s.fresh.1,
                       started := s.now .jup, override := o }
  refine ⟨x, ?_, rfl, rfl, rfl, rfl, rfl, rfl, rfl⟩
  have hpick : s.pickSpare j r p o s.fresh.1 = .spare q := (if_pos hr).trans hq
  let t := s.modJup fun y => { y with bringIns := y.bringIns ++ [x] }
  have hrestore : s.bringIn hd j r p false o = t.bringRestore x q allSections o := by
    rw [State.bringIn, hpick]
    dsimp only
    rw [if_pos hr, Bool.false_and, if_neg Bool.false_ne_true]
  have htr : t.role = 1 := hr
  rw [hrestore, State.bringRestore]
  split
  · rw [if_pos htr]
    exact bringIns_openRestore hroom
  · rfl

end

/-! ### A command down the job's tree (R16, R251, R252) -/

section
variable {s : State} {m x : Msg} {p n : Nat}

theorem mem_linkOf {ns : List Nat} (hns : ns ≠ []) (key : Nat) : s.linkOf ns key ∈ ns := by
  unfold State.linkOf
  dsimp only
  cases hup : (ns.filter fun n => decide ((s.link .jup n).ctl.lstate = .service))[key %
      (ns.filter fun n => decide ((s.link .jup n).ctl.lstate = .service)).length]? with
  | none =>
    rw [Option.getD_none, List.headD_eq_head?_getD]
    cases ns with
    | nil => exact absurd rfl hns
    | cons a l => exact List.mem_cons_self
  | some a => exact List.mem_of_mem_filter (List.mem_of_getElem? hup)

/-- A tree's ports are all links of the Jupin. -/
theorem lt_of_mem_treeOut {k : Nat} (hp : p ∈ s.treeOut k) : p < 96 := by
  unfold State.treeOut at hp
  split at hp
  · split at hp
    · obtain rfl := List.mem_singleton.mp hp
      unfold State.survivorPort
      have hmem := mem_linkOf (s := s) (ns := standbyLinks (!s.jup.takeover.contains true)) (by unfold standbyLinks; split <;> simp) 0
      have hall : ∀ b, ∀ q ∈ standbyLinks b, q < 96 := by decide
      exact hall _ _ hmem
    · cases hp
  · unfold State.treePorts at hp
    split at hp
    · have := List.mem_range.mp (List.mem_of_mem_filter hp)
      omega
    · cases hp

theorem routeOk_own (hp : p < 96) : s.routeOk ownPort p = true := by
  unfold State.routeOk ownPort
  rw [if_neg (by omega)]
  rfl

/-- A command is queued with the STEP traffic of its link. -/
theorem mem_qStep_send (hm : m.mtype = mtCommand) : m ∈ ((s.send .jup n m).link .jup n).tx.qStep := by
  have hform : mtypeForm m.mtype = some (.step, 2, 32) := by rw [hm]; rfl
  unfold State.send
  rw [hform, link_modTx fun h => List.append_ne_nil_of_right_ne_nil _ (List.cons_ne_nil _ _) (congrArg (fun l : Link => l.tx.qStep) h)]
  exact List.mem_append_right _ (List.mem_singleton.mpr rfl)
/-- What waits on a link stays as another message is queued. -/
theorem qStep_send (h : x ∈ (s.link .jup p).tx.qStep) : x ∈ ((s.send .jup n m).link .jup p).tx.qStep := by
  by_cases hk : p = n
  · subst hk
    have hqueued : x ∈ (match mtypeForm m.mtype with
        | some (.time, _, _) => { (s.link .jup p).tx with qTime := (s.link .jup p).tx.qTime ++ [m] }
        | some (.bulk, _, _) => { (s.link .jup p).tx with qBulk := (s.link .jup p).tx.qBulk ++ [m] }
        | _ => { (s.link .jup p).tx with qStep := (s.link .jup p).tx.qStep ++ [m] }).qStep := by
      split
      · exact h
      · exact h
      · exact List.mem_append_left _ h
    rw [State.send, link_modTx fun hne => List.not_mem_nil ((congrArg (fun l : Link => x ∈ l.tx.qStep) hne).mp hqueued)]
    exact hqueued
  · exact (congrArg (fun l : Link => x ∈ l.tx.qStep) (link_modLink_other hk)).mpr h
theorem qStep_sendAll {ns : List Nat} (h : x ∈ (s.link .jup p).tx.qStep) : x ∈ ((s.sendAll .jup ns m).link .jup p).tx.qStep := by
  induction ns generalizing s with
  | nil => exact h
  | cons n ns ih => exact ih (qStep_send h)
theorem mem_qStep_sendAll {ns : List Nat} (hm : m.mtype = mtCommand) (hp : p ∈ ns) :
    m ∈ ((s.sendAll .jup ns m).link .jup p).tx.qStep := by
  induction ns generalizing s with
  | nil => cases hp
  | cons n ns ih =>
    rcases List.mem_cons.mp hp with rfl | hp
    · exact qStep_sendAll (s := s.send .jup p m) (mem_qStep_send hm)
    · exact ih hp

/-- A message of this Jupin's own holds no buffer: its copies are plain messages. -/
theorem sendCopies_own (hs : m.src = none) (hf : m.frames = 0) (ps : List Nat) : s.sendCopies ps m = s.sendAll .jup ps m := by
  have hm : { m with src := none, frames := 0 } = m := by cases m; cases hs; cases hf; rfl
  unfold State.sendCopies
  split
  next h => rw [List.reverse_eq_nil_iff.mp h, State.leave, hs]; rfl
  next q rest h =>
    rw [hm, show ps = rest.reverse ++ [q] by rw [← List.reverse_cons, ← h, List.reverse_reverse]]
    exact (List.foldl_append (f := fun s n => State.send s .jup n m) (b := s) (l := rest.reverse) (l' := [q])).symm

/-- A command multicast from here waits at every port of its tree that this side serves and no fence covers. -/
theorem mem_multicast {r : Option (List Word)} (hm : m.mtype = mtCommand) (hs : m.src = none) (hf : m.frames = 0)
    (hp : p ∈ s.treeOut (fld m.addr 11 0)) (hside : s.sideOk p m = true) (hfen : s.fencedAt p m = false) :
    m ∈ ((s.multicast ownPort m r).link .jup p).tx.qStep := by
  unfold State.multicast
  extract_lets _ all ok s0 ps s1
  have hps : p ∈ ps := by
    refine List.mem_filter.mpr ⟨List.mem_filter.mpr ⟨List.mem_filter.mpr ⟨hp, hside⟩, routeOk_own (lt_of_mem_treeOut hp)⟩, ?_⟩
    rw [hfen]
    rfl
  have h1 : m ∈ (s1.link .jup p).tx.qStep := by
    unfold s1
    rw [sendCopies_own hs hf]
    exact mem_qStep_sendAll hm hps
  split
  · exact h1
  · rw [if_neg (by rw [List.isEmpty_iff]; exact List.ne_nil_of_mem hps)]
    exact h1

end

section
variable {h : Hdr} {op : BitVec 8} {job : Option (BitVec 15)} {j : BitVec 15} {s s' : State} {hd : Half} {args rs : List Word} {k p : Nat}
  {r : List Nat}

/-- A job's command on the line to the ranks of a tree. -/
def treeCommand (op : BitVec 8) (span : Target) (hd : Half) (args : List Word) (k : Nat) : Msg :=
  { mtype := mtCommand, route := 3, flow := 0, addr := BitVec.ofNat 32 k, words := cmdWords op span hd args }

theorem jobCommand_tree (ht : s.jobTrees j = k :: r) :
    s.jobCommand hd j op args rs = s.multicast ownPort (treeCommand op (s.wholeSpan j) hd args k) (some rs) := by
  rw [State.jobCommand, ht]
  rfl

/-- A command of a job waits at each port of the job's first tree. -/
theorem mem_jobCommand (ht : s.jobTrees j = k :: r) (hk : k < 4096) (hp : p ∈ s.treeOut k)
    (hside : s.sideOk p (treeCommand op (s.wholeSpan j) hd args k) = true)
    (hfen : s.fencedAt p (treeCommand op (s.wholeSpan j) hd args k) = false) :
    treeCommand op (s.wholeSpan j) hd args k ∈ ((s.jobCommand hd j op args rs).link .jup p).tx.qStep := by
  have haddr : fld (treeCommand op (s.wholeSpan j) hd args k).addr 11 0 = k := by
    simp only [fld, treeCommand, BitVec.extractLsb'_toNat, BitVec.toNat_ofNat, Nat.shiftRight_zero]
    omega
  rw [jobCommand_tree ht]
  exact mem_multicast rfl rfl rfl (by rwa [haddr]) hside hfen

theorem siteKept_jobCommand : s.SiteKept (s.jobCommand hd j op args rs) := by
  unfold State.jobCommand
  split
  · exact siteKept_multicast s _ rfl ownPort _
  · exact siteKept_post ..

/-- A command of a job without a tree reaches no die: its completion counts none. -/
theorem jobCommand_posted (ha : s.accept .jup h op (job := job) = (s', some hd)) {o : BitVec 8} (ht : s'.jobTrees j = []) :
    ((s'.jobCommand hd j o args []).cplEntry .jup hd).map (fun e => (e.valid, e.status, e.results)) = some (true, stOk, [0]) := by
  rw [State.jobCommand, ht]
  exact posted_of_cmds ha rfl

end

/-! ### A job's group releases its PREPARE (R285, R287, R353, R357) -/

theorem find?_updFirst {α : Type} {p : α → Bool} {f : α → α} (hf : ∀ a, p (f a) = p a) (l : List α) :
    (updFirst p f l).find? p = (l.find? p).map f := by
  induction l with
  | nil => rfl
  | cons a l ih =>
    unfold updFirst
    by_cases ha : p a = true
    · rw [if_pos ha, List.find?_cons_of_pos ((hf a).trans ha), List.find?_cons_of_pos ha]
      rfl
    · rw [if_neg ha, List.find?_cons_of_neg ha, List.find?_cons_of_neg ha, ih]

/-- What a Jupin's part as a member of its own group leaves alone: its registers, its counter and the groups that it coordinates. -/
def State.desk (s : State) : Table Half × Security × TimeCore × List CoordGroup := (s.jupC.regs, s.jupC.sec, s.jupC.time, s.jupC.coord)

section
variable {s t : State} {h : Half}

theorem desk_sendAll (s : State) (ns : List Nat) (m : Msg) : (s.sendAll .jup ns m).desk = s.desk :=
  foldl_kept (g := State.desk) (fun s n => (rfl : (s.send .jup n m).desk = s.desk)) ns s
theorem desk_modGroup (s : State) (h : Half) (f : MemberGroup → MemberGroup) : (s.modGroup .jup h f).desk = s.desk := rfl
theorem desk_holdStage (s : State) (h : Half) (o : BitVec 16) (job : Option (BitVec 15)) (ws : List StagedWrite) (m : Bool) (ps : List Nat) :
    (s.holdStage .jup h o job ws m ps).desk = s.desk := by
  unfold State.holdStage
  dsimp only
  rw [if_neg (by decide), desk_modGroup]
  split <;> rfl
theorem desk_stageHere (s : State) (ws : List Word) (n : Nat) : (s.stageHere .jup ws n).desk = s.desk := by
  unfold State.stageHere
  dsimp only
  split
  · rfl
  · rw [desk_sendAll, desk_modGroup, desk_holdStage]
theorem desk_sendAggregate (s : State) (h : Half) : (s.sendAggregate h).desk = s.desk := by
  unfold State.sendAggregate
  split
  · rfl
  split
  · rfl
  split
  · split
    · rfl
    · exact desk_sendAll ..
  · split
    · rfl
    split
    · exact desk_sendAll ..
    · rfl
theorem desk_prepareHere (s : State) (h : Half) (tc : Tick) (r : BitVec 2) : (s.prepareHere .jup h tc r).desk = s.desk := by
  unfold State.prepareHere
  split
  · rfl
  split
  · rfl
  · dsimp only
    rw [desk_sendAggregate, desk_sendAll, desk_modGroup]

theorem coordGroup_of_desk (hd : t.desk = s.desk) (h : Half) : t.coordGroup .jup h = s.coordGroup .jup h := by
  have hcoord : t.jupC.coord = s.jupC.coord := congrArg (fun d : Table Half × Security × TimeCore × List CoordGroup => d.2.2.2) hd
  rw [State.coordGroup, State.coordGroup, com_jup, com_jup, hcoord]
theorem coordGroup_modCoord {f : CoordGroup → CoordGroup} (hf : ∀ g, (f g).handle = g.handle) :
    (s.modCoord .jup h f).coordGroup .jup h = (s.coordGroup .jup h).map f :=
  find?_updFirst (fun g => by rw [hf]) _

/-- A group under a handle serves a command, and the counter and the role are still those of a state. -/
structure State.Serving (s₀ s : State) (h : Half) (sv : BitVec 8 × BitVec 15 × List Word) : Prop where
  role : s.role = s₀.role
  now : s.now .jup = s₀.now .jup
  group : ∃ g, s.coordGroup .jup h = some g ∧ g.serves = some sv

variable {s₀ : State} {sv : BitVec 8 × BitVec 15 × List Word}

theorem State.Serving.of_desk (hs : s₀.Serving s h sv) (hd : t.desk = s.desk) : s₀.Serving t h sv := by
  have hregs : t.jupC.regs = s.jupC.regs := congrArg Prod.fst hd
  have hsec : t.jupC.sec = s.jupC.sec := congrArg (fun d : Table Half × Security × TimeCore × List CoordGroup => d.2.1) hd
  have htime : t.jupC.time = s.jupC.time := congrArg (fun d : Table Half × Security × TimeCore × List CoordGroup => d.2.2.1) hd
  refine ⟨?_, (congrArg TimeCore.htc htime :).trans hs.now, ?_⟩
  · rw [← hs.role]
    simp only [State.role, State.idRole, State.reg, State.com, hregs, hsec]
  · rw [coordGroup_of_desk hd]
    exact hs.group
theorem State.Serving.modCoord (hs : s₀.Serving s h sv) {f : CoordGroup → CoordGroup} (hf : ∀ g, (f g).handle = g.handle)
    (hsv : ∀ g, (f g).serves = g.serves) : s₀.Serving (s.modCoord .jup h f) h sv := by
  obtain ⟨g, hg, hgs⟩ := hs.group
  exact ⟨hs.role, hs.now, f g, by rw [coordGroup_modCoord hf, hg]; rfl, (hsv g).trans hgs⟩
theorem State.Serving.stagePart (hs : s₀.Serving s h sv) (t : Target) (ws : List StagedWrite) : s₀.Serving (s.stagePart .jup h t ws) h sv := by
  unfold State.stagePart
  extract_lets n words s1
  have hcoord : s₀.Serving (s.modCoord .jup h fun g => { g with stages := g.stages ++ [(t, ws.length)] }) h sv :=
    hs.modCoord (fun _ => by rfl) (fun _ => by rfl)
  exact (hcoord.of_desk (t := s1) (desk_stageHere ..)).of_desk (desk_sendAll ..)
theorem State.Serving.foldl {α : Type} {f : State → α → State} (hf : ∀ s a, s₀.Serving s h sv → s₀.Serving (f s a) h sv) (l : List α)
    (hs : s₀.Serving s h sv) : s₀.Serving (l.foldl f s) h sv := by
  induction l generalizing s with
  | nil => exact hs
  | cons a l ih => exact ih (hf s a hs)
theorem State.Serving.stageOut (hs : s₀.Serving s h sv) (t : Target) (ws : List StagedWrite) : s₀.Serving (s.stageOut .jup h t ws) h sv :=
  hs.foldl (fun _ ws hs => hs.stagePart t ws) _
theorem State.Serving.stageRest (hs : s₀.Serving s h sv) : s₀.Serving (s.stageRest .jup h) h sv := by
  unfold State.stageRest
  split
  · exact hs
  · exact hs.foldl (fun _ t hs => hs.stageOut t []) _

/-- At a rack Jupin a group's Tc is 872 ticks after its PREPARE. -/
theorem releasePrepare_rack (hs : s₀.Serving s h sv) (hr : s₀.role = 1) : ∃ g, (s.releasePrepare .jup h 0).coordGroup .jup h = some g ∧
    g.state = .prepared ∧ g.prepareTick = s₀.now .jup ∧ g.tc = s₀.now .jup + 872 ∧ g.serves = some sv := by
  obtain ⟨g, hg, hgs⟩ := hs.stageRest.group
  have hlead : s.groupLead .jup = (560, 312) := if_pos (hs.role.trans hr)
  have htc : s.now .jup + BitVec.ofNat 64 (560 + 312) = s₀.now .jup + 872 := by rw [hs.now]; rfl
  unfold State.releasePrepare
  rw [hlead]
  dsimp only
  rw [if_pos rfl, decide_eq_false (by decide), Bool.false_and, if_neg Bool.false_ne_true, coordGroup_of_desk (desk_prepareHere ..),
    coordGroup_of_desk (desk_sendAll ..), coordGroup_modCoord, hg]
  · exact ⟨_, rfl, rfl, hs.now, htc, hgs⟩
  · exact fun _ => rfl

/-- A job's group is opened, staged and prepared at once where no other group stands in its way. -/
theorem runJobGroup_prepared {members : List Target} {stages : List (Target × List StagedWrite)} {at_ : Tick} (hr : s.role = 1)
    (hg : s.jupC.groups.length < 256) (hc : s.jupC.coord.length < 256) (hnew : ∀ g ∈ s.jupC.coord, g.handle ≠ h) (hat : at_ ≤ s.now .jup) :
    ∃ g, (s.runJobGroup h members sv stages at_).coordGroup .jup h = some g ∧ g.state = .prepared ∧ g.prepareTick = s.now .jup ∧
      g.tc = s.now .jup + 872 ∧ g.serves = some sv := by
  have hroom : ¬ (groupMax .jup ≤ s.jupC.groups.length ∨ groupMax .jup ≤ s.jupC.coord.length) := by
    simp only [groupMax]
    omega
  have hopen : s.Serving (s.openGroup .jup h members (some sv)) h sv := by
    refine ⟨rfl, rfl, { handle := h, members := members, state := .opened, stages := [], prepareTick := 0, tc := 0,
                               delivered := 0, expected := 0, partialPath := none, serves := some sv,
                               resetsSeen := s.jup.peerResets.length }, ?_, rfl⟩
    change (s.jupC.coord ++ [_]).find? _ = _
    rw [List.find?_append, List.find?_eq_none.mpr fun g hgm => by simpa using hnew g hgm]
    simp
  unfold State.runJobGroup
  rw [if_neg hroom, if_pos hat, State.runGroup]
  exact releasePrepare_rack (hopen.foldl (fun _ e hs => hs.stageOut e.1 e.2) _) hr

end

section
variable {s s₀ : State} {hd : Half} {j : BitVec 15}

/-- A rack Jupin has room for one more group, under a new handle, and no reset or RUN of a job waits. -/
structure State.RoomFor (s : State) (hd : Half) : Prop where
  role : s.role = 1
  groups : s.jupC.groups.length < 256
  coord : s.jupC.coord.length < 256
  handle : ∀ g ∈ s.jupC.coord, g.handle ≠ hd
  runs : s.jup.runs = []
  resets : s.jup.peerResets = []

/-- The group of a command has released its PREPARE at the present tick of a state, 872 ticks ahead of its Tc. -/
def State.Released (s₀ t : State) (hd : Half) (op : BitVec 8) (j : BitVec 15) : Prop :=
  ∃ g, t.coordGroup .jup hd = some g ∧ g.state = .prepared ∧ g.prepareTick = s₀.now .jup ∧ g.tc = s₀.now .jup + 872 ∧
    g.serves.map (fun e => (e.1, e.2.1)) = some (op, j)

theorem State.RoomFor.fresh (hs : s.RoomFor hd) : s.fresh.2.RoomFor hd :=
  ⟨hs.role, hs.groups, hs.coord, hs.handle, hs.runs, hs.resets⟩

theorem resetPaths_rack (hs : s.RoomFor hd) (moves : List (BitVec 32)) : s.resetPaths j moves = ([], s) := by
  unfold State.resetPaths
  rw [if_pos hs.role, hs.resets, List.drop_nil]
  rfl
theorem groupAt_rack (hs : s.RoomFor hd) (run : BitVec 8) : s.groupAt j run [] = s.now .jup := by
  have hfree : s.runFree j run = s.now .jup := by rw [State.runFree, hs.runs]; rfl
  have hfirst : (firstParts []).length = 0 := rfl
  unfold State.groupAt
  dsimp only
  rw [hfree, hfirst, Nat.zero_mul, BitVec.add_zero, ite_self]
theorem resetGroups_nil (s : State) (hd : Half) (j : BitVec 15) (members targets : List Target) : s.resetGroups hd j members targets [] = s := by
  unfold State.resetGroups
  dsimp only [List.length_nil]
  rw [List.range_zero, List.zip_nil_right]
  rfl

theorem released_runJobGroup (hs : s.RoomFor hd) {members : List Target} {op : BitVec 8} {ws : List Word}
    {stages : List (Target × List StagedWrite)} {at_ : Tick} (hat : at_ = s.now .jup) :
    s.Released (s.runJobGroup hd members (op, j, ws) stages at_) hd op j := by
  obtain ⟨g, hg, hst, hp, htc, hsv⟩ :=
    runJobGroup_prepared (sv := (op, j, ws)) (members := members) (stages := stages) hs.role hs.groups hs.coord hs.handle (BitVec.le_of_eq hat)
  exact ⟨g, hg, hst, hp, htc, by rw [hsv]; rfl⟩
theorem released_runResetGroup (hs : s.RoomFor hd) {members : List Target} {op : BitVec 8} {ws : List Word}
    {stages other : List (Target × List StagedWrite)} {run : BitVec 8} {at_ : Tick} (hat : at_ = s.now .jup) :
    s.Released (s.runResetGroup hd j members (op, j, ws) stages other [] run at_) hd op j := by
  unfold State.runResetGroup
  rw [resetGroups_nil]
  exact released_runJobGroup (s := s) hs hat

theorem released_startGroup (hs : s.RoomFor hd) {m : BitVec 32} {o : Bool} {x : StartCheck} :
    s.Released (s.startGroup hd j m o x) hd opStartJob j := by
  unfold State.startGroup
  rw [resetPaths_rack hs]
  exact released_runResetGroup hs (groupAt_rack hs 1)
theorem released_startHere (hs : s.RoomFor hd) {st : Nat} {m : BitVec 32} {o : Bool}
    (hi : s.jup.jobImages.any (fun i => decide (i.job = j ∧ i.offset = st)) = true)
    (hm : (s.startCheck j s.fresh.1 s.fresh.2.fresh.1).missing = false) (hc : (s.startCheck j s.fresh.1 s.fresh.2.fresh.1).badClass = false)
    (hv : (s.startCheck j s.fresh.1 s.fresh.2.fresh.1).badVersion = false) : s.Released (s.startHere hd j st m o) hd opStartJob j := by
  unfold State.startHere
  rw [hi, Bool.not_true, if_neg Bool.false_ne_true]
  dsimp only
  rw [hm, hc, hv, if_neg Bool.false_ne_true, Bool.false_and, if_neg Bool.false_ne_true, if_neg Bool.false_ne_true]
  exact released_startGroup (s := s.fresh.2.fresh.2) hs.fresh.fresh
theorem released_tearGroup (hs : s.RoomFor hd) : s.Released (s.tearGroup hd j 0 (s.now .jup)) hd opTeardownJob j :=
  released_runJobGroup hs rfl
theorem released_resumeHere (hs : s.RoomFor hd) {t : Tick} (ht : t = 0 ∨ s.leastResume j ≤ t) :
    s.Released (s.resumeHere hd j t) hd opResumeJob j := by
  have hleast : ¬ (if t = 0 then s.leastResume j else t) < s.leastResume j := by
    split
    · exact BitVec.lt_irrefl _
    · exact BitVec.not_lt.mpr (ht.resolve_left ‹_›)
  have hat : s.resumeAt j = s.now .jup := by
    unfold State.resumeAt
    rw [resetPaths_rack hs]
    exact groupAt_rack hs _
  unfold State.resumeHere
  dsimp only
  rw [if_neg hleast, resetPaths_rack hs]
  exact released_runResetGroup hs hat
theorem released_remapGroup (hs : s.RoomFor hd) {ms : List Move} {op : BitVec 8} : s.Released (s.remapGroup hd j ms op) hd op j := by
  unfold State.remapGroup
  rw [resetPaths_rack hs]
  exact released_runResetGroup hs (groupAt_rack hs _)

end

/-! ## The job commands (O45) -/

/-- Settles O45: a command that gets its handle is carried out at its job's top by one equation each; what follows reads the effect off
the posting, the multicast on the job's tree, or the group that releases its PREPARE. -/
theorem jobCommands : Obligations.JobCommands := by
  unfold Obligations.JobCommands
  refine ⟨fun h j st m s s' hd => execStartJob_top, fun h j s s' hd => execTeardownJob_top, fun h j n s s' hd => execHoldJob_here,
    fun h j n s s' hd => execHoldJob_far, ?resume, ?barred, fun h j n v s s' hd => execStretchJob_here,
    fun h j n v s s' hd => execStretchJob_far, fun h j b s s' hd => execSetQuota_rack, ?remap, ?beyond, ?bring,
    fun hd j ws f p s hp => atTop_port hp ws f, fun hd j ws f s hp => atTop_unknown hp ws f, ?refused, ?missing, ?early, ?fence, ?fenced,
    ?foreign, ?nowhere, ?groups, ?hold, ?stretch, ?treeless, ?quota, ?spare, by decide, fun hd j t rep s => ⟨rfl, rfl⟩⟩
  case resume =>
    intro h j t s s' hd ha hp hb
    rw [execResumeJob_top ha hp, State.budgetBars, hb, if_neg Bool.false_ne_true]
  case barred =>
    intro h j t s s' hd ha hp hb
    rw [execResumeJob_top ha hp, State.budgetBars, hb, if_pos rfl]
  case remap =>
    intro h j r p c s s' hd ha hp hb hr hbud
    rw [execRemapRank_top ha hp, remapHere_below hb hr hbud]
  case beyond =>
    intro h j r p c s s' hd ha hp hb
    rw [execRemapRank_top ha hp, remapHere_beyond hb]
  case bring =>
    exact fun h j r p dual s s' hd => execBringIn_top
  case refused =>
    exact fun h j st m s s' ha => congrArg Host.Outcome.next (withHandle_refused s s' .jup h opStartJob _ false (some j) ha)
  case missing =>
    intro hd j st m o s hi
    exact if_pos (by rw [hi]; rfl)
  case early =>
    intro hd j t s h0 ht
    unfold State.resumeHere
    dsimp only
    rw [if_neg h0, if_pos ht]
  case fence =>
    intro h path j t p s s' hd ha hp hr hlt ho
    rw [execFence_at ha, fenceAt_rack hp hr hlt, fenceCmd_owned ho]
  case fenced =>
    intro h path j t u p s s' hd ha hp hr hlt ho hg hgr hu
    subst hu
    exact ⟨_, by rw [execFence_at ha, fenceAt_rack hp hr hlt, fenceCmd_owned ho], fenceAsked_posted ha rfl ho hg hgr⟩
  case foreign =>
    intro h path j t p s s' hd ha hp hr hlt ho
    rw [execFence_at ha, fenceAt_rack hp hr hlt, fenceCmd_foreign ho]
  case nowhere =>
    intro h path job t s s' hd ha hp
    rw [execFence_at ha, State.fenceAt, hp]
  case groups =>
    intro h j op s s' hd ha hp hr hg hc hruns hres hbud hnew
    have hroom : s'.RoomFor hd := ⟨hr, hg, hc, hnew, hruns, hres⟩
    have hfree : s'.jup.budgetHeld.contains j = false := by rw [hbud]; rfl
    refine ⟨fun st m hop hi hm hcl hv => ?_, fun hop => ?_, fun tk hop ht => ?_, fun r p c hop hb hrank => ?_⟩ <;> subst hop
    · obtain ⟨g, hgrp⟩ := released_startHere (m := m) (o := h.override) hroom hi hm hcl hv
      exact ⟨_, g, execStartJob_top ha hp, hgrp⟩
    · obtain ⟨g, hgrp⟩ := released_tearGroup (j := j) hroom
      exact ⟨_, g, execTeardownJob_top ha hp, hgrp⟩
    · obtain ⟨g, hgrp⟩ := released_resumeHere hroom ht
      exact ⟨_, g, by rw [execResumeJob_top ha hp, State.budgetBars, hfree, if_neg Bool.false_ne_true], hgrp⟩
    · obtain ⟨g, hgrp⟩ := released_remapGroup (j := j) (ms := [{ rank := r, path := p, channel := c.val }]) (op := opRemapRank) hroom
      exact ⟨_, g, by rw [execRemapRank_top ha hp, remapHere_below hb hrank hfree], hgrp⟩
  case hold =>
    intro h j n k p r x s s' hd ha hp hact ht hk hpt hx hside hfen
    subst hx
    exact ⟨_, _, execHoldJob_here ha hp hact, mem_jobCommand ht hk hpt hside hfen, rfl, rfl⟩
  case stretch =>
    intro h j n v k p r x s s' u hd ha hp hact hu ht hk hpt hx hside hfen
    subst hu hx
    exact ⟨_, _, execStretchJob_here ha hp hact, (Prod.mk.inj siteKept_jobCommand.1).1, mem_jobCommand ht hk hpt hside hfen, rfl, rfl⟩
  case treeless =>
    intro h j n s s' hd ha hp hact ht
    exact ⟨_, execHoldJob_here ha hp hact, jobCommand_posted ha ht⟩
  case quota =>
    intro h j b s s' hd ha hp hr
    exact ⟨_, execSetQuota_rack ha hp hr, quotaHere_posted ha⟩
  case spare =>
    intro h j r p q s s' hd ha hp hr hrank hq hroom
    obtain ⟨x, hx⟩ := bringIn_spare (hd := hd) hr hq hroom
    exact ⟨_, x, execBringIn_top ha hp hrank, hx⟩

end Sys2Proof.Machine
end

section
/-! PROOFS of spec family 08: the frames a link launches, and the acks it waits for (O35). -/
namespace Sys2Proof.Machine
open Sys2Proof

/-! ## A frame on the line (R232, R234, R239) -/

section
variable {s t u : State} {d : Dev} {n : Nat} {f : Frame}

theorem hdrVc_frameHdr (q : BitVec 8) (k : Nat) (c : Bool) (v : BitVec 12) : hdrVc (frameHdr .step q k c v) = 2 := by
  simp [hdrVc, fld, frameHdr, Vc.code, BitVec.extractLsb'_or, extractLsb'_put_same, extractLsb'_put_apart, extractLsb'_bit1_apart]
theorem hdrFseq_frameHdr (vc : Vc) (q : BitVec 8) (k : Nat) (c : Bool) (v : BitVec 12) : hdrFseq (frameHdr vc q k c v) = q := by
  simp [hdrFseq, frameHdr, BitVec.extractLsb'_or, extractLsb'_put_same, extractLsb'_put_apart, extractLsb'_bit1_apart]

/-- A lane carries four words of a frame, 33 symbols each. -/
theorem length_laneSymbols (k : Nat) (ws : List (BitVec 66)) : (laneSymbols k ws).length = 132 := by
  simp [laneSymbols, length_symbols]

/-- A frame takes no more words than its positions. -/
theorem length_fillFrame (r : Nat) (x : Fill) : (fillFrame r x).words.length ≤ x.words.length + r := by
  induction r generalizing x with
  | zero => exact le_rfl
  | succ r ih =>
    unfold fillFrame
    split
    · refine (ih _).trans ?_
      simp only [List.length_append, List.length_singleton]
      omega
    · split
      · omega
      · omega
      · refine (ih _).trans ?_
        simp only [List.length_append, List.length_singleton]
        omega
theorem length_padFrame {ws : List Word} (h : ws.length ≤ 7) : (padFrame ws).length = 7 := by
  rw [padFrame, List.length_append, List.length_replicate]
  omega

/-- The header of a frame on the line: what the frame keeps, with the acks and credits of the receiver (R234). -/
def lineHdr (r : LinkRx) (h : Word) (replay : Bool) : Word :=
  h ||| bit1 64 61 replay ||| bit1 64 60 r.nak ||| put 64 51 44 (r.nextFseq - 1).toNat ||| put 64 43 36 (r.nextTseq - 1).toNat |||
    put 64 31 24 (min r.freedStep 255) ||| put 64 23 16 (min r.freedBulk 255) ||| bit1 64 3 r.tnak
/-- The receiver's requests and credits that a header has carried. -/
def LinkRx.told (r : LinkRx) : LinkRx :=
  { r with nak := false, tnak := false, freedStep := r.freedStep - min r.freedStep 255, freedBulk := r.freedBulk - min r.freedBulk 255 }
/-- The first word of a frame, its even parity spoiled where a fault is injected. -/
def firstWord (h : Word) (spoiled : Bool) : BitVec 66 := if spoiled then lineWord h ^^^ (1 <<< 64) else lineWord h

theorem putFrame_eq (s : State) (d : Dev) (n : Nat) (f : Frame) (r b : Bool) : s.putFrame d n f r b =
    ((s.modRx d n LinkRx.told).modTx d n fun t => { t with lastLaunch := some (s.now d) }).emit
      (.frame d n (laneSymbols 0 (firstWord (lineHdr (s.link d n).rx f.hdr r) b :: f.words.map lineWord))
        (laneSymbols 1 (firstWord (lineHdr (s.link d n).rx f.hdr r) b :: f.words.map lineWord))) := rfl
theorem wordOk_firstWord (h : Word) : wordOk (firstWord h false) = true := wordOk_lineWord h
theorem wordOk_firstWord_spoiled (h : Word) : wordOk (firstWord h true) = false := wordOk_lineWord_inverted h (by decide)

theorem out_putFrame (s : State) (d : Dev) (n : Nat) (f : Frame) (r b : Bool) : (s.putFrame d n f r b).out = s.out ++
    [.frame d n (laneSymbols 0 (firstWord (lineHdr (s.link d n).rx f.hdr r) b :: f.words.map lineWord))
      (laneSymbols 1 (firstWord (lineHdr (s.link d n).rx f.hdr r) b :: f.words.map lineWord))] := by
  rw [putFrame_eq, out_emit_driven _ _ (.inl rfl), out_modTx, State.modRx, out_modLink]
/-- Of the sender's state a frame on the line notes its launch alone. -/
theorem link_putFrame (s : State) (d : Dev) (n : Nat) (f : Frame) (r b : Bool) : (s.putFrame d n f r b).link d n =
    { (s.modRx d n LinkRx.told).link d n with tx := { ((s.modRx d n LinkRx.told).link d n).tx with lastLaunch := some (s.now d) } } := by
  rw [putFrame_eq, link_emit, link_modTx fun h => Option.some_ne_none _ (congrArg (fun l : Link => l.tx.lastLaunch) h)]

/-- What a launch writes on its own link before the frame is put on the line leaves the outputs and the counter. -/
def State.line (s : State) (d : Dev) : List Out × Tick := (s.out, s.now d)
theorem line_modLink (s : State) (d : Dev) (n : Nat) (f : Link → Link) : (s.modLink d n f).line d = s.line d := by cases d <;> rfl
theorem line_modTx (s : State) (d : Dev) (n : Nat) (f : LinkTx → LinkTx) : (s.modTx d n f).line d = s.line d := line_modLink ..
theorem line_modLt (s : State) (d : Dev) (n : Nat) (f : LinkTime → LinkTime) : (s.modLt d n f).line d = s.line d := line_modLink ..
theorem line_modCtl (s : State) (d : Dev) (n : Nat) (f : LinkCtl → LinkCtl) : (s.modCtl d n f).line d = s.line d := line_modLink ..

/-- One frame of a link end goes out on both lanes on the present tick. -/
def State.Launched (s t : State) (d : Dev) (n : Nat) : Prop :=
  (∃ a b, t.out = s.out ++ [.frame d n a b] ∧ a.length = 132 ∧ b.length = 132) ∧ (t.link d n).tx.lastLaunch = some (s.now d)

theorem launched_putFrame {r b : Bool} (hu : u.line d = s.line d) : s.Launched (u.putFrame d n f r b) d n := by
  obtain ⟨hout, hnow⟩ := Prod.mk.inj hu
  refine ⟨⟨_, _, by rw [out_putFrame, hout], length_laneSymbols .., length_laneSymbols ..⟩, ?_⟩
  rw [link_putFrame, ← hnow]

/-- A later write on a link that leaves the launch noted leaves the frame launched. -/
theorem State.Launched.modLink (h : s.Launched t d n) (k : Nat) {f : Link → Link} (hf : ∀ l, (f l).tx.lastLaunch = l.tx.lastLaunch) :
    s.Launched (t.modLink d k f) d n := by
  obtain ⟨⟨a, b, hout, ha, hb⟩, hlast⟩ := h
  refine ⟨⟨a, b, (out_modLink ..).trans hout, ha, hb⟩, ?_⟩
  by_cases hk : n = k
  · subst hk
    have hsome : (f (t.link d n)).tx.lastLaunch = some (s.now d) := (hf _).trans hlast
    rw [link_modLink fun he => by simp [he] at hsome]
    exact hsome
  · rw [link_modLink_other hk]
    exact hlast
theorem State.Launched.leave (h : s.Launched t d n) (m : Msg) : s.Launched (t.leave d m) d n := by
  unfold State.leave
  split
  · split
    · exact h
    · exact h.modLink _ fun _ => rfl
  · exact h
theorem State.Launched.leaveAll (h : s.Launched t d n) (ms : List Msg) : s.Launched (ms.foldl (fun s m => s.leave d m) t) d n := by
  induction ms generalizing t with
  | nil => exact h
  | cons m ms ih => exact ih (h.leave m)
theorem State.Launched.leaveOne (h : s.Launched t d n) : s.Launched (t.leaveOne d n) d n := by
  unfold State.leaveOne
  split
  · refine State.Launched.leave (h.modLink n ?_) _
    exact fun _ => rfl
  · exact h

/-- A link out of DOWN is read back as it was written. -/
theorem link_modLink_up {g : Link → Link} (hup : (s.link d n).ctl.lstate ≠ .down) (hg : ∀ l, (g l).ctl = l.ctl) :
    (s.modLink d n g).link d n = g (s.link d n) :=
  link_modLink (link_ne_of_ctl (ctl_ne_of_lstate ((hg _).symm ▸ hup)))
theorem ctl_modLink_up {g : Link → Link} (hup : (s.link d n).ctl.lstate ≠ .down) (hg : ∀ l, (g l).ctl = l.ctl) :
    ((s.modLink d n g).link d n).ctl = (s.link d n).ctl := by rw [link_modLink_up hup hg, hg]

theorem link_modTx_up {g : LinkTx → LinkTx} (hup : (s.link d n).ctl.lstate ≠ .down) :
    (s.modTx d n g).link d n = { s.link d n with tx := g (s.link d n).tx } := link_modLink_up hup fun _ => by rfl

theorem link_modRx_up {g : LinkRx → LinkRx} (hup : (s.link d n).ctl.lstate ≠ .down) :
    (s.modRx d n g).link d n = { s.link d n with rx := g (s.link d n).rx } := link_modLink_up hup fun _ => by rfl
theorem tx_putFrame_up {r b : Bool} (hup : (s.link d n).ctl.lstate ≠ .down) :
    ((s.putFrame d n f r b).link d n).tx = { (s.link d n).tx with lastLaunch := some (s.now d) } := by
  rw [link_putFrame, link_modRx_up hup]

/-- A state whose link end is about to launch the frame of a tick: out of DOWN, with no fault to inject. -/
structure State.Poised (s u : State) (d : Dev) (n : Nat) : Prop where
  line : u.line d = s.line d
  up : (u.link d n).ctl.lstate ≠ .down
  sound : (u.link d n).ctl.injPar = false

theorem State.Poised.modLink (h : s.Poised u d n) {g : Link → Link} (hg : ∀ l, (g l).ctl = l.ctl) : s.Poised (u.modLink d n g) d n := by
  have hctl := ctl_modLink_up h.up hg
  exact ⟨(line_modLink ..).trans h.line, hctl ▸ h.up, hctl ▸ h.sound⟩
theorem State.Poised.modTx (h : s.Poised u d n) (g : LinkTx → LinkTx) : s.Poised (u.modTx d n g) d n := h.modLink fun _ => by rfl
theorem State.Poised.modLt (h : s.Poised u d n) (g : LinkTime → LinkTime) : s.Poised (u.modLt d n g) d n := h.modLink fun _ => by rfl
theorem State.Poised.put (h : s.Poised u d n) (f : Frame) (r b : Bool) : s.Launched (u.putFrame d n f r b) d n := launched_putFrame h.line

/-- A new frame is launched as it is. -/
theorem State.Poised.new (h : s.Poised u d n) (f : Frame) : s.Launched (u.launchNew d n f) d n := by
  unfold State.launchNew
  dsimp only
  rw [h.sound, if_neg Bool.false_ne_true]
  exact launched_putFrame ((line_modCtl ..).trans ((line_modTx ..).trans h.line))

theorem State.Poised.step (h : s.Poised u d n) : s.Launched (u.launchStep d n) d n := by
  unfold State.launchStep
  extract_lets t r f s1 s2 mark
  have h2 : s.Launched s2 d n := ((h.modTx _).new f).leaveAll _
  split
  next hd =>
    obtain ⟨rfl, -⟩ := hd
    exact h2
  next => exact h2

theorem State.Poised.bulk (h : s.Poised u d n) : s.Launched (u.launchBulk d n) d n := by
  unfold State.launchBulk
  extract_lets t head r f s1 s2
  have h1 : s.Poised s1 d n := by
    unfold s1
    generalize head = l
    cases l with
    | nil => exact h
    | cons m ms =>
      refine State.Poised.modTx ?_ _
      split
      · exact h.modLink fun _ => by rfl
      · exact h
  exact (((h1.modTx _).new f).leaveOne).leaveAll _

/-- A TIME slot launches a frame again, or a new one. -/
theorem State.Poised.newTime (h : s.Poised u d n) : s.Launched (u.newTimeFrame d n) d n := by
  have hstamp : s.Poised (u.restamp d n) d n := by
    unfold State.restamp
    split
    · exact h
    · split
      · exact h
      · exact (h.modTx _).modLt _
  exact (hstamp.modTx _).put _ _ _
theorem State.Poised.time (h : s.Poised u d n) : s.Launched (u.timeSlot d n) d n := by
  unfold State.timeSlot
  split
  next f next _ =>
    dsimp only
    refine State.Poised.put (.modTx ?_ _) _ _ _
    split
    · exact (h.modLt _).modLt _
    · exact h
  next => exact h.newTime

theorem dropFenced_open (hf : (u.link d n).fences = []) : u.dropFenced d n = u := if_pos (by rw [hf]; rfl)

theorem State.Poised.service (h : s.Poised u d n) (hf : (u.link d n).fences = []) : s.Launched (u.serviceFrame d n) d n := by
  unfold State.serviceFrame
  rw [dropFenced_open hf]
  dsimp only
  split
  · exact (h.modTx _).put _ _ _
  · split
    · exact h.step
    split
    · split
      · exact (h.modTx _).bulk
      · exact (h.modTx _).step
    split
    · exact h.bulk
    · exact h.put _ _ _

theorem launched_launchFrame (hup : (s.link d n).ctl.lstate = .align ∨ (s.link d n).ctl.lstate = .timing ∨ (s.link d n).ctl.lstate = .service)
    (hinj : (s.link d n).ctl.injPar = false) (hf : (s.link d n).fences = []) : s.Launched (s.launchFrame d n) d n := by
  have hs : s.Poised s d n := ⟨rfl, by rcases hup with h | h | h <;> rw [h] <;> decide, hinj⟩
  unfold State.launchFrame
  extract_lets s1
  have h1 : s.Poised s1 d n := by
    unfold s1
    split
    · exact hs.modTx _
    · exact hs
  rcases hup with hl | hl | hl <;> rw [hl] <;> dsimp only <;> split
  · exact h1.time
  · exact h1.put _ _ _
  · exact h1.time
  · exact h1.put _ _ _
  · exact h1.time
  next hslot =>
    rw [show s1 = s from if_neg hslot]
    exact hs.service hf

/-- The two sides of a launch event: a frame at most on each tick, none in electrical idle. -/
theorem execFrameLaunch_due (hidle : s.idlePort d n = false) (hl : (s.link d n).tx.lastLaunch ≠ some (s.now d)) :
    exec (.frameLaunch d n) s = .next (s.launchFrame d n) := by
  change execFrameLaunch d n s = _
  exact due_of (by rw [hidle, decide_eq_true hl]; rfl)

theorem launchFrame_service (hl : (s.link d n).ctl.lstate = .service) (hslot : (s.now d).toNat % 128 ≠ 0) :
    s.launchFrame d n = s.serviceFrame d n := by
  unfold State.launchFrame
  rw [hl]
  dsimp only
  rw [if_neg hslot, if_neg hslot]
theorem launchFrame_idle (hl : (s.link d n).ctl.lstate = .down ∨ (s.link d n).ctl.lstate = .train) : s.launchFrame d n = s := by
  unfold State.launchFrame
  rcases hl with hl | hl <;> rw [hl]

theorem serviceFrame_idle (hf : (s.link d n).fences = []) (hr : replayFrame (s.link d n).tx = none) (hstep : stepReady (s.link d n) = false)
    (hbulk : s.bulkReady d n = false) : s.serviceFrame d n = s.putFrame d n idleFrame false false := by
  unfold State.serviceFrame
  rw [dropFenced_open hf]
  dsimp only
  rw [hr, hstep, hbulk]
  rfl
theorem serviceFrame_step (hf : (s.link d n).fences = []) (hr : replayFrame (s.link d n).tx = none) (hstep : stepReady (s.link d n) = true)
    (hopen : s.openPort d n = true) (hbulk : s.bulkReady d n = false) : s.serviceFrame d n = s.launchStep d n := by
  unfold State.serviceFrame
  rw [dropFenced_open hf]
  dsimp only
  rw [hr, hstep, hbulk, hopen]
  rfl

/-! ## A STEP frame is retained and takes a credit (R240, R246, R247) -/

/-- What the sender keeps stands while the messages of a launched frame leave their buffers. -/
theorem tx_leave (h : (t.link d n).tx.lastLaunch ≠ none) (m : Msg) : ((t.leave d m).link d n).tx = (t.link d n).tx := by
  unfold State.leave
  split
  next i _ =>
    split
    · rfl
    · by_cases hi : n = i
      · subst hi
        rw [State.modRx, link_modLink fun he => h (congrArg (fun l : Link => l.tx.lastLaunch) he)]
      · exact congrArg Link.tx (link_modLink_other hi)
  · rfl
theorem tx_leaveAll (h : (t.link d n).tx.lastLaunch ≠ none) (ms : List Msg) :
    ((ms.foldl (fun s m => s.leave d m) t).link d n).tx = (t.link d n).tx := by
  induction ms generalizing t with
  | nil => rfl
  | cons m ms ih => exact (ih (t := t.leave d m) (tx_leave h m ▸ h)).trans (tx_leave h m)

theorem tx_launchNew (hup : (s.link d n).ctl.lstate ≠ .down) (hinj : (s.link d n).ctl.injPar = false) : ((s.launchNew d n f).link d n).tx =
    { (s.link d n).tx with retained := (s.link d n).tx.retained ++ [f], txFseq := (s.link d n).tx.txFseq + 1,
                           ackTick := if (s.link d n).tx.retained.isEmpty then s.now d else (s.link d n).tx.ackTick,
                           lastLaunch := some (s.now d) } := by
  let u := s.modTx d n fun t => { t with retained := t.retained ++ [f], txFseq := t.txFseq + 1,
                                         ackTick := if t.retained.isEmpty then s.now d else t.ackTick }
  let v := u.modCtl d n fun c => { c with injPar := false }
  have hu : u.link d n = { s.link d n with tx := { (s.link d n).tx with
      retained := (s.link d n).tx.retained ++ [f], txFseq := (s.link d n).tx.txFseq + 1,
      ackTick := if (s.link d n).tx.retained.isEmpty then s.now d else (s.link d n).tx.ackTick } } := link_modTx_up hup
  have hv : v.link d n = { u.link d n with ctl := { (u.link d n).ctl with injPar := false } } :=
    link_modCtl (link_ne_of_ctl (ctl_ne_of_lstate (by rw [hu]; exact hup)))
  have hvup : (v.link d n).ctl.lstate ≠ .down := by rw [hv, hu]; exact hup
  have hnow : v.now d = s.now d := (Prod.mk.inj ((line_modCtl ..).trans (line_modTx ..) : v.line d = s.line d)).2
  have hnew : s.launchNew d n f = v.putFrame d n f false false := by
    unfold State.launchNew
    dsimp only
    rw [hinj, if_neg Bool.false_ne_true]
  rw [hnew, tx_putFrame_up hvup, hv, hu, hnow]

/-- The words that a STEP frame takes, of the message in progress and those queued (R246). -/
def stepFill (t : LinkTx) : Fill := fillFrame 7 { words := [], first := 0, cur := t.curStep, msg := t.curStepMsg, queue := t.qStep, ended := [] }
/-- The STEP frame that the sender launches next. -/
def State.nextStep (s : State) (t : LinkTx) : Frame :=
  { hdr := frameHdr .step t.txFseq (stepFill t).first (!t.curStep.isEmpty) t.vseqStep, words := padFrame (stepFill t).words,
    parts := s.frameParts (stepFill t) }

theorem length_nextStep (s : State) (t : LinkTx) : (s.nextStep t).words.length = 7 :=
  length_padFrame ((length_fillFrame 7 _).trans (by simp))

/-- The sender as the next STEP frame leaves it, once the frame is retained and on the line. -/
def LinkTx.stepGone (t : LinkTx) (f : Frame) (now : Tick) : LinkTx :=
  { t with curStep := (stepFill t).cur, curStepMsg := (stepFill t).msg, curHandle := (stepFill t).msg.bind msgHandle,
           qStep := (stepFill t).queue, stepCr := t.stepCr - 1, vseqStep := t.vseqStep + 1, stepSlots := t.stepSlots + 1,
           retained := t.retained ++ [f], txFseq := t.txFseq + 1, ackTick := if t.retained.isEmpty then now else t.ackTick,
           lastLaunch := some now }

theorem tx_launchStep (hup : (s.link d n).ctl.lstate ≠ .down) (hinj : (s.link d n).ctl.injPar = false) :
    ((s.launchStep d n).link d n).tx = (s.link d n).tx.stepGone (s.nextStep (s.link d n).tx) (s.now d) := by
  unfold State.launchStep
  extract_lets t r f s1 s2 mark
  have h1 : (s1.link d n).tx = (s.link d n).tx.stepGone (s.nextStep (s.link d n).tx) (s.now d) := by
    have hnow : ∀ g : LinkTx → LinkTx, (s.modTx d n g).now d = s.now d := fun g => (Prod.mk.inj (line_modTx s d n g)).2
    unfold s1
    rw [tx_launchNew] <;> rw [link_modTx_up hup]
    · rw [hnow]
      rfl
    · exact hup
    · exact hinj
  have h2 : (s2.link d n).tx = (s1.link d n).tx := tx_leaveAll (by rw [h1]; exact Option.some_ne_none _) _
  split
  next hd =>
    obtain ⟨rfl, -⟩ := hd
    exact h2.trans h1
  next => exact h2.trans h1

/-! ## Acks that stop (R240, R242, R245) -/

theorem ackLost_kept {b : Bool} (h : timedOut (s.link d n) (s.now d) b = false) : s.ackLost d n b = s := if_neg (by rw [h]; exact Bool.false_ne_true)

theorem link_modCtl_up {g : LinkCtl → LinkCtl} (hup : (s.link d n).ctl.lstate ≠ .down)
    (hg : (g (s.link d n).ctl).lstate = (s.link d n).ctl.lstate) :
    (s.modCtl d n g).link d n = { s.link d n with ctl := g (s.link d n).ctl } :=
  link_modCtl (link_ne_of_ctl (ctl_ne_of_lstate (hg.symm ▸ hup)))

/-- The first episode of a link is counted, and the replay begins with the oldest frame retained. -/
theorem episode_first (hf : (s.link d n).tx.retained.head? = some f) (hsame : (s.link d n).ctl.sameReplay = 0)
    (heps : (s.link d n).ctl.episodes = []) (hmax : s.replayMax d n ≠ 0) : s.episode d n false =
      (s.modCtl d n fun c => { c with cntReplay := satInc c.cntReplay, episodes := [s.now d], sameReplay := 1, sameFseq := hdrFseq f.hdr }).modTx
        d n fun t => { t with replayAt := some (hdrFseq f.hdr) } := by
  have hfew : ¬ (8 < 1 ∨ s.replayMax d n < [s.now d].length) := by
    rw [List.length_singleton]
    omega
  unfold State.episode
  simp only [Bool.false_eq_true, if_false, hf, hsame, heps, ne_eq, not_true_eq_false, false_and, List.filter_nil, hfew]

/-- The first time that the acks stop, the oldest frame retained goes again. -/
theorem ackLost_first (hup : (s.link d n).ctl.lstate ≠ .down) (hf : (s.link d n).tx.retained.head? = some f)
    (ht : (s.link d n).tx.ackTick.toNat + ackTimeout (s.link d n) ≤ (s.now d).toNat) (hsame : (s.link d n).ctl.sameReplay = 0)
    (heps : (s.link d n).ctl.episodes = []) (hmax : s.replayMax d n ≠ 0) :
    (s.ackLost d n false).link d n = { s.link d n with
      tx := { (s.link d n).tx with ackTick := s.now d, replayAt := some (hdrFseq f.hdr) },
      ctl := { (s.link d n).ctl with cntAckTo := satInc (s.link d n).ctl.cntAckTo, cntReplay := satInc (s.link d n).ctl.cntReplay,
                                     episodes := [s.now d], sameReplay := 1, sameFseq := hdrFseq f.hdr } } ∧
    (s.ackLost d n false).line d = s.line d := by
  have hne : (s.link d n).tx.retained ≠ [] := fun h => by rw [h] at hf; cases hf
  have hlate : timedOut (s.link d n) (s.now d) false = true := by
    simp [timedOut, hne, ht]
  let u := s.modTx d n fun t => { t with ackTick := s.now d }
  let v := u.modCtl d n fun c => { c with cntAckTo := satInc c.cntAckTo }
  have hlost : s.ackLost d n false = v.episode d n false := if_pos hlate
  have hu : u.link d n = { s.link d n with tx := { (s.link d n).tx with ackTick := s.now d } } := link_modTx_up hup
  have huup : (u.link d n).ctl.lstate ≠ .down := by rw [hu]; exact hup
  have hv : v.link d n = { u.link d n with ctl := { (u.link d n).ctl with cntAckTo := satInc (u.link d n).ctl.cntAckTo } } :=
    link_modCtl_up huup rfl
  rw [hu] at hv
  have hvup : (v.link d n).ctl.lstate ≠ .down := by rw [hv]; exact hup
  have hvline : v.line d = s.line d := (line_modCtl ..).trans (line_modTx ..)
  have hnow : v.now d = s.now d := (Prod.mk.inj hvline).2
  have hvmax : v.replayMax d n ≠ 0 := (by cases d <;> rfl : v.replayMax d n = s.replayMax d n) ▸ hmax
  rw [hlost, episode_first (by rw [hv]; exact hf) (by rw [hv]; exact hsame) (by rw [hv]; exact heps) hvmax]
  refine ⟨?_, (line_modTx ..).trans ((line_modCtl ..).trans hvline)⟩
  rw [link_modTx_up, link_modCtl_up hvup, hv, hnow]
  · rw [hv]
  · rw [link_modCtl_up hvup]
    · exact hvup
    · rfl

/-- The acks of the data stream are waited for in SERVICE alone, those of TIME in ALIGN and TIMING too. -/
theorem execAckTimeout_service (hl : (s.link d n).ctl.lstate = .service) :
    exec (.ackTimeout d n) s = .next ((s.ackLost d n false).ackLost d n true) := by
  change execAckTimeout d n s = _
  rw [execAckTimeout, due_of (by rw [hl]; rfl), if_pos hl]
theorem execAckTimeout_trained (hl : (s.link d n).ctl.lstate = .align ∨ (s.link d n).ctl.lstate = .timing) :
    exec (.ackTimeout d n) s = .next (s.ackLost d n true) := by
  change execAckTimeout d n s = _
  rcases hl with hl | hl <;> rw [execAckTimeout, due_of (by rw [hl]; rfl), if_neg (by rw [hl]; decide)]
theorem execAckTimeout_down (hl : (s.link d n).ctl.lstate = .down ∨ (s.link d n).ctl.lstate = .train) :
    exec (.ackTimeout d n) s = .next s := by
  change execAckTimeout d n s = _
  rcases hl with hl | hl <;> rw [execAckTimeout, due_unless (by rw [hl]; rfl)]

end

/-! ## The frames launched (O35) -/

/-- Settles O35: the link end that launches is poised, and each way to launch ends with one frame on the line; what the sender keeps is read
off the STEP frame retained, and off the first episode of a replay. -/
theorem framesLaunched : Obligations.FramesLaunched := by
  unfold Obligations.FramesLaunched
  refine ⟨?again, ?idle, ?down, ?frame, ?service, fun d n s => serviceFrame_idle, ?step, ?line, ?replay, fun d n s => execAckTimeout_service,
    fun d n s => execAckTimeout_trained, fun d n s => execAckTimeout_down, fun d n tm s => ackLost_kept⟩
  case again =>
    intro d n s hl
    change execFrameLaunch d n s = _
    exact due_unless (by simp [hl])
  case idle =>
    intro d n s hi
    change execFrameLaunch d n s = _
    exact due_unless (by rw [hi]; rfl)
  case down =>
    intro d n s hl
    change execFrameLaunch d n s = _
    rw [execFrameLaunch, due_next, launchFrame_idle hl, ite_self]
  case frame =>
    intro d n s hi hlast hl hinj hf
    exact ⟨_, execFrameLaunch_due hi hlast, launched_launchFrame hl hinj hf⟩
  case service =>
    intro d n s hi hlast hl hslot
    rw [execFrameLaunch_due hi hlast, launchFrame_service hl hslot]
  case step =>
    intro d n s hi hlast hl hslot hf hr hstep hopen hbulk hinj
    have hup : (s.link d n).ctl.lstate ≠ .down := by rw [hl]; decide
    have htx := tx_launchStep hup hinj
    refine ⟨s.launchStep d n, by rw [execFrameLaunch_due hi hlast, launchFrame_service hl hslot, serviceFrame_step hf hr hstep hopen hbulk],
      ?_, ?_, ?_, s.nextStep (s.link d n).tx, ?_, length_nextStep .., hdrVc_frameHdr .., hdrFseq_frameHdr ..⟩ <;> rw [htx] <;> rfl
  case line =>
    intro d n f r b s _
    refine ⟨_, out_putFrame s d n f r b, ?_, ?_⟩
    · rintro rfl
      exact wordOk_firstWord _
    · rintro rfl
      exact wordOk_firstWord_spoiled _
  case replay =>
    intro d n f s hl hf hT ht hsame heps hmax
    have hup : (s.link d n).ctl.lstate ≠ .down := by rw [hl]; decide
    obtain ⟨hlink, hline⟩ := ackLost_first hup hf ht hsame heps hmax
    have hsecond : (s.ackLost d n false).ackLost d n true = s.ackLost d n false :=
      ackLost_kept (by rw [hlink]; simp [timedOut, hT])
    refine ⟨s.ackLost d n false, by rw [execAckTimeout_service hl, hsecond], ?_, ?_, ?_, ?_, ?_, (Prod.mk.inj hline).1⟩ <;> rw [hlink]
    exact hl

end Sys2Proof.Machine
end
